-- ==== Sys2Proof/Word.lean ====
section
/-! DEFINITION. Words and the sparse map: the plainest arithmetic of the model, and the ordered list of key and
value pairs that memories, register files and tables of the State are held in. -/

namespace Sys2Proof

abbrev Byte := BitVec 8
abbrev Word := BitVec 32
abbrev DWord := BitVec 64
/-- A byte address of the 40-bit physical map. -/
abbrev Addr := BitVec 40

/-- A sparse map: pairs of key and value. The operations below keep the keys strictly rising. -/
abbrev AMap (α : Type) := List (Nat × α)

namespace AMap
variable {α : Type}

/-- The value listed for a key. -/
def find : AMap α → Nat → Option α
  | [], _ => none
  | (k, v) :: t, x => if k = x then some v else find t x

/-- List a value for a key, in key order. -/
def ins : AMap α → Nat → α → AMap α
  | [], x, v => [(x, v)]
  | (k, w) :: t, x, v =>
    if x < k then (x, v) :: (k, w) :: t
    else if x = k then (x, v) :: t
    else (k, w) :: ins t x v

/-- Take a key out. -/
def del (m : AMap α) (x : Nat) : AMap α := m.filter (fun p => p.1 != x)

/-- What a key reads as: the listed value, or `d` where none is listed. -/
def get (d : α) (m : AMap α) (x : Nat) : α := (find m x).getD d

/-- Give a key a value. A value equal to what an unlisted key reads as is not listed. -/
def set [DecidableEq α] (d : α) (m : AMap α) (x : Nat) (v : α) : AMap α :=
  if v = d then del m x else ins m x v

/-- The keys rise strictly. -/
abbrev keysRise (m : AMap α) : Prop := (m.map Prod.fst).Pairwise (· < ·)

/-- The canonical form: keys strictly rising, and no entry equal to what an unlisted key reads as. -/
abbrev canon (d : α) (m : AMap α) : Prop := keysRise m ∧ ∀ p ∈ m, p.2 ≠ d

/-- Keep the entries whose key satisfies `f`. -/
def keep (f : Nat → Bool) (m : AMap α) : AMap α := m.filter (fun p => f p.1)

end AMap

/-- The bits [lo + w − 1 : lo] of a number. -/
def bits (x lo w : Nat) : Nat := x / 2 ^ lo % 2 ^ w

/-- A number as the two's complement integer of its low `w` bits. -/
def toSigned (w x : Nat) : Int :=
  let y := x % 2 ^ w
  if y < 2 ^ (w - 1) then (y : Int) else (y : Int) - 2 ^ w

/-- The low `w` bits of an integer in two's complement. -/
def ofSigned (w : Nat) (i : Int) : Nat := (i % (2 ^ w : Int)).toNat

/-- `⌈a / b⌉`. -/
def ceilDiv (a b : Nat) : Nat := (a + b - 1) / b

/-- Add with saturation at the largest value of `w` bits. -/
def satAdd (w a b : Nat) : Nat := min (a + b) (2 ^ w - 1)

/-- The numbers `lo` to `hi − 1`. -/
def rangeFrom (lo hi : Nat) : List Nat := (List.range (hi - lo)).map (· + lo)

/-- The value of a bit as a number. -/
def bit (b : Bool) : Nat := if b then 1 else 0

/-- The little-endian number of a list of bytes. -/
def leNat : List Byte → Nat
  | [] => 0
  | b :: t => b.toNat + 256 * leNat t

/-- The `n` low bytes of a number, little-endian. -/
def leBytes : Nat → Nat → List Byte
  | 0, _ => []
  | n + 1, x => BitVec.ofNat 8 (x % 256) :: leBytes n (x / 256)

/-- The number of a list of octets, most significant first. -/
def beNat (l : List Byte) : Nat := l.foldl (fun a b => a * 256 + b.toNat) 0

/-- The `n` low octets of a number, most significant first. -/
def beBytes (n x : Nat) : List Byte := (leBytes n x).reverse

end Sys2Proof
end

