-- ==== Sys2Proof/Syntax.lean ====
section
/-! DEFINITION. The commands. -/

namespace Sys2Proof

/-- A bit operand (R96): a bit of data SRAM or image SRAM by absolute BIT, or by P and DISP. -/
inductive BitRef where
  | data (b : BitVec 23)
  | image (b : BitVec 23)
  | ptr (p : Fin 4) (disp : BitVec 21)
deriving DecidableEq, Repr

/-- A word operand (R99): data SRAM or image SRAM by scaled OFF, or P + DISP. -/
inductive WordRef where
  | data (off : BitVec 18)
  | image (off : BitVec 18)
  | ptr (p : Fin 4) (disp : BitVec 16)
deriving DecidableEq, Repr

/-- An instance operand (R112): a data SRAM offset, or P + DISP. -/
inductive InstRef where
  | abs (off : BitVec 16)
  | ptr (p : Fin 4) (disp : BitVec 16)
deriving DecidableEq, Repr

/-- The second operand of a compare (R103): a register, or a signed immediate. -/
inductive CmpRef where
  | reg (wb : Fin 16)
  | imm (i : BitVec 15)
deriving DecidableEq, Repr

/-- Why a Drafting job is aborted (R211, R230): Inf or NaN, an error response to a read at an address, an uncorrectable error
in spilled data, one in the engine's own SRAM. -/
inductive JobAbort where
  | overflow | input (addr : Addr) | spill | solver
deriving DecidableEq, Repr

/-- The size of a bus access in bytes (R5, R238). -/
inductive AccSize where
  | b1 | b2 | b4 | b8 | b16 | b32
deriving DecidableEq, Repr

def AccSize.bytes : AccSize → Nat
  | .b1 => 1 | .b2 => 2 | .b4 => 4 | .b8 => 8 | .b16 => 16 | .b32 => 32

/-- The commands: one constructor per row of the opcode table. A Joraone command takes the core that executes it
first. -/
inductive Instr where
  | registerWrite (master : Fin 42) (addr : Addr) (size : AccSize) (value : BitVec 256)
  | wideReadCapture (master : Fin 42) (addr : Addr) (size : AccSize)
  | sysIdRead (master : Fin 42)
  | pathEnable (p : Fin 512)
  | admissionCheckEnd
  | pathDisable (p : Fin 512)
  | contractBreach (item : Nat)
  | cargoAreaWrite (area : Fin 4)
  | modeCommand (confirm : BitVec 16) (target : Fin 8) (master : Fin 42)
  | pairClaimDecided
  | quayModeTakeup (q : Fin 6)
  | forcedBoundary (q : Fin 6)
  | startupOverrun (q : Fin 6)
  | powerOn (debugEn vbatAbsent : Bool)
  | supplyUndervoltage
  | resetNAssert
  | resetNRelease (debugEn : Bool)
  | pllLock
  | fuseRead
  | mramReady
  | sramClearEnd
  | bootEnd (s1 s8 d8 : Bool) (mhz : BitVec 8)
  | hostReset (confirm : BitVec 16)
  | quayReset (confirm : BitVec 16) (q : Fin 8)
  | watchdogExpiry
  | wdtKick (key : BitVec 8)
  | pcieFlr
  | pciePerst
  | psWrite (master : Fin 42) (off : BitVec 25) (size : AccSize) (value : BitVec 256)
  | proof (master : Fin 42)
  | proofEnd
  | pull (master : Fin 42)
  | discard (master : Fin 42)
  | pullApply
  | quayPullTimeout
  | enableSet (off : BitVec 25)
  | enableCheckEnd (off : BitVec 25)
  | enableClear (off : BitVec 25)
  | progRead (set : Fin 7) (inst : Fin 8)
  | descriptorFetch (r : Fin 16) (desc : List Byte)
  | commandComplete (r : Fin 16) (creditWait : BitVec 32)
  | ringNop (r : Fin 16)
  | ringRegWrite (r : Fin 16)
  | ringRegRead (r : Fin 16)
  | ringCopy (r : Fin 16) (data : List Byte)
  | ringProof (r : Fin 16)
  | ringPull (r : Fin 16)
  | ringDiscard (r : Fin 16)
  | ringMode (r : Fin 16)
  | ringSubmit (r : Fin 16)
  | ringCancel (r : Fin 16)
  | jLd (c : Fin 24) (r : BitRef)
  | jLdn (c : Fin 24) (r : BitRef)
  | jAnd (c : Fin 24) (r : BitRef)
  | jAndn (c : Fin 24) (r : BitRef)
  | jOr (c : Fin 24) (r : BitRef)
  | jOrn (c : Fin 24) (r : BitRef)
  | jXor (c : Fin 24) (r : BitRef)
  | jXorn (c : Fin 24) (r : BitRef)
  | jSt (c : Fin 24) (r : BitRef)
  | jStn (c : Fin 24) (r : BitRef)
  | jSet (c : Fin 24) (r : BitRef)
  | jClr (c : Fin 24) (r : BitRef)
  | jNot (c : Fin 24)
  | jBa1 (c : Fin 24)
  | jBa0 (c : Fin 24)
  | jOpen (c : Fin 24) (op : BitVec 3)
  | jClose (c : Fin 24)
  | ld8 (c : Fin 24) (w : Fin 16) (r : WordRef)
  | ld8u (c : Fin 24) (w : Fin 16) (r : WordRef)
  | ld16 (c : Fin 24) (w : Fin 16) (r : WordRef)
  | ld16u (c : Fin 24) (w : Fin 16) (r : WordRef)
  | ld32 (c : Fin 24) (w : Fin 16) (r : WordRef)
  | ld32u (c : Fin 24) (w : Fin 16) (r : WordRef)
  | ld64 (c : Fin 24) (w : Fin 16) (r : WordRef)
  | st8 (c : Fin 24) (w : Fin 16) (r : WordRef)
  | st16 (c : Fin 24) (w : Fin 16) (r : WordRef)
  | st32 (c : Fin 24) (w : Fin 16) (r : WordRef)
  | st64 (c : Fin 24) (w : Fin 16) (r : WordRef)
  | postedStoreError (c : Fin 24)
  | jAdd (c : Fin 24) (wd wa wb : Fin 16)
  | jAddi (c : Fin 24) (wd wa : Fin 16) (imm : BitVec 14)
  | jSub (c : Fin 24) (wd wa wb : Fin 16)
  | jIand (c : Fin 24) (wd wa wb : Fin 16)
  | jAndi (c : Fin 24) (wd wa : Fin 16) (imm : BitVec 14)
  | jIor (c : Fin 24) (wd wa wb : Fin 16)
  | jOri (c : Fin 24) (wd wa : Fin 16) (imm : BitVec 14)
  | jIxor (c : Fin 24) (wd wa wb : Fin 16)
  | jXori (c : Fin 24) (wd wa : Fin 16) (imm : BitVec 14)
  | jShl (c : Fin 24) (wd wa wb : Fin 16)
  | jShli (c : Fin 24) (wd wa : Fin 16) (imm : BitVec 14)
  | jShr (c : Fin 24) (wd wa wb : Fin 16)
  | jShri (c : Fin 24) (wd wa : Fin 16) (imm : BitVec 14)
  | jSar (c : Fin 24) (wd wa wb : Fin 16)
  | jSari (c : Fin 24) (wd wa : Fin 16) (imm : BitVec 14)
  | jMul (c : Fin 24) (wd wa wb : Fin 16)
  | jMuli (c : Fin 24) (wd wa : Fin 16) (imm : BitVec 14)
  | jMulhs (c : Fin 24) (wd wa wb : Fin 16)
  | jMulhu (c : Fin 24) (wd wa wb : Fin 16)
  | jDivs (c : Fin 24) (wd wa wb : Fin 16)
  | jDivu (c : Fin 24) (wd wa wb : Fin 16)
  | jRems (c : Fin 24) (wd wa wb : Fin 16)
  | jRemu (c : Fin 24) (wd wa wb : Fin 16)
  | jMin (c : Fin 24) (wd wa wb : Fin 16)
  | jMax (c : Fin 24) (wd wa wb : Fin 16)
  | jMinu (c : Fin 24) (wd wa wb : Fin 16)
  | jMaxu (c : Fin 24) (wd wa wb : Fin 16)
  | jAddsat (c : Fin 24) (wd wa wb : Fin 16)
  | jSubsat (c : Fin 24) (wd wa wb : Fin 16)
  | jAbs (c : Fin 24) (wd wa wb : Fin 16)
  | jNeg (c : Fin 24) (wd wa wb : Fin 16)
  | jFadd (c : Fin 24) (wd wa wb : Fin 16)
  | jFsub (c : Fin 24) (wd wa wb : Fin 16)
  | jFmul (c : Fin 24) (wd wa wb : Fin 16)
  | jFdiv (c : Fin 24) (wd wa wb : Fin 16)
  | jFsqrt (c : Fin 24) (wd wa : Fin 16)
  | jFma (c : Fin 24) (wd wa wb : Fin 16)
  | jFms (c : Fin 24) (wd wa wb : Fin 16)
  | jFmin (c : Fin 24) (wd wa wb : Fin 16)
  | jFmax (c : Fin 24) (wd wa wb : Fin 16)
  | jFabs (c : Fin 24) (wd wa : Fin 16)
  | jFneg (c : Fin 24) (wd wa : Fin 16)
  | jEq (c : Fin 24) (m : BitVec 3) (wa : Fin 16) (o : CmpRef)
  | jNe (c : Fin 24) (m : BitVec 3) (wa : Fin 16) (o : CmpRef)
  | jLt (c : Fin 24) (m : BitVec 3) (wa : Fin 16) (o : CmpRef)
  | jLe (c : Fin 24) (m : BitVec 3) (wa : Fin 16) (o : CmpRef)
  | jGt (c : Fin 24) (m : BitVec 3) (wa : Fin 16) (o : CmpRef)
  | jGe (c : Fin 24) (m : BitVec 3) (wa : Fin 16) (o : CmpRef)
  | jLtu (c : Fin 24) (m : BitVec 3) (wa : Fin 16) (o : CmpRef)
  | jLeu (c : Fin 24) (m : BitVec 3) (wa : Fin 16) (o : CmpRef)
  | jGtu (c : Fin 24) (m : BitVec 3) (wa : Fin 16) (o : CmpRef)
  | jGeu (c : Fin 24) (m : BitVec 3) (wa : Fin 16) (o : CmpRef)
  | jFeq (c : Fin 24) (m : BitVec 3) (wa wb : Fin 16)
  | jFne (c : Fin 24) (m : BitVec 3) (wa wb : Fin 16)
  | jFlt (c : Fin 24) (m : BitVec 3) (wa wb : Fin 16)
  | jFle (c : Fin 24) (m : BitVec 3) (wa wb : Fin 16)
  | jFgt (c : Fin 24) (m : BitVec 3) (wa wb : Fin 16)
  | jFge (c : Fin 24) (m : BitVec 3) (wa wb : Fin 16)
  | jFun (c : Fin 24) (m : BitVec 3) (wa wb : Fin 16)
  | jMov (c : Fin 24) (wd wa : Fin 16)
  | jItof (c : Fin 24) (wd wa : Fin 16)
  | jUtof (c : Fin 24) (wd wa : Fin 16)
  | jFtoi (c : Fin 24) (wd wa : Fin 16)
  | jFtoir (c : Fin 24) (wd wa : Fin 16)
  | jFtou (c : Fin 24) (wd wa : Fin 16)
  | jBatow (c : Fin 24) (wd : Fin 16)
  | jWtoba (c : Fin 24) (m : BitVec 3) (wa : Fin 16)
  | jMovp (c : Fin 24) (pd : Fin 4) (wa : Fin 16)
  | jMovwp (c : Fin 24) (pd : Fin 4) (wa : Fin 16)
  | jAddp (c : Fin 24) (pd : Fin 4) (imm : BitVec 16)
  | jAddpw (c : Fin 24) (pd : Fin 4) (wa : Fin 16)
  | jB (c : Fin 24) (disp : BitVec 22)
  | jBt (c : Fin 24) (disp : BitVec 22)
  | jBf (c : Fin 24) (disp : BitVec 22)
  | jBeq (c : Fin 24) (disp : BitVec 22)
  | jBne (c : Fin 24) (disp : BitVec 22)
  | jBlt (c : Fin 24) (disp : BitVec 22)
  | jBge (c : Fin 24) (disp : BitVec 22)
  | jBltu (c : Fin 24) (disp : BitVec 22)
  | jBgeu (c : Fin 24) (disp : BitVec 22)
  | jBmi (c : Fin 24) (disp : BitVec 22)
  | jBpl (c : Fin 24) (disp : BitVec 22)
  | jBvs (c : Fin 24) (disp : BitVec 22)
  | jBvc (c : Fin 24) (disp : BitVec 22)
  | jCall (c : Fin 24) (disp : BitVec 18)
  | jRet (c : Fin 24)
  | jCallp (c : Fin 24) (p : Fin 4)
  | jLoop (c : Fin 24) (wd : Fin 16) (disp : BitVec 18)
  | jLdi (c : Fin 24) (wd : Fin 16) (imm : BitVec 32)
  | jLdih (c : Fin 24) (wd : Fin 16) (imm : BitVec 32)
  | jFldi (c : Fin 24) (wd : Fin 16) (imm : BitVec 32)
  | jLpi (c : Fin 24) (pd : Fin 4) (imm8 : BitVec 8) (imm : BitVec 32)
  | jRecvi (c : Fin 24) (wd : Fin 16) (peer : Fin 32) (imm : BitVec 32)
  | jTon (c : Fin 24) (r : InstRef)
  | jTof (c : Fin 24) (r : InstRef)
  | jTp (c : Fin 24) (r : InstRef)
  | jCu (c : Fin 24) (r : InstRef)
  | jCd (c : Fin 24) (r : InstRef)
  | jCr (c : Fin 24) (r : InstRef)
  | jCl (c : Fin 24) (r : InstRef)
  | jCqu (c : Fin 24) (r : InstRef)
  | jCqd (c : Fin 24) (r : InstRef)
  | jEdgp (c : Fin 24) (r : InstRef)
  | jEdgn (c : Fin 24) (r : InstRef)
  | jSend (c : Fin 24) (w : Fin 16) (peer : Fin 32)
  | jRecv (c : Fin 24) (w wb : Fin 16) (peer : Fin 32)
  | jRecvany (c : Fin 24) (w wb : Fin 16)
  | jPoll (c : Fin 24) (peer : Fin 32)
  | jPollany (c : Fin 24)
  | recvTimeout (c : Fin 24)
  | jNop (c : Fin 24)
  | jWait (c : Fin 24)
  | jTend (c : Fin 24)
  | jReti (c : Fin 24)
  | jTrap (c : Fin 24) (imm : BitVec 8)
  | jBreak (c : Fin 24)
  | jMfs (c : Fin 24) (w : Fin 16) (sreg : BitVec 8)
  | jMts (c : Fin 24) (sreg : BitVec 8) (w : Fin 16)
  | jEi (c : Fin 24)
  | jDi (c : Fin 24)
  | jFence (c : Fin 24)
  | jRdtime (c : Fin 24) (w : Fin 16)
  | jRdscan (c : Fin 24) (w : Fin 16)
  | debugHaltReq (c : Fin 24)
  | debugResume (c : Fin 24)
  | debugStep (c : Fin 24)
  | mastDeliveryEntry (c : Fin 24)
  | taskRelease (q : Fin 6) (t : Fin 8)
  | eventFire (q : Fin 6) (e : Fin 8)
  | scanStart (q : Fin 6) (core : Fin 4)
  | copyInDone (q : Fin 6)
  | taskPreempt (c : Fin 24)
  | copyOutDone (q : Fin 6)
  | cargoDataIn (port : Fin 4) (transport : Fin 3) (mac : BitVec 48) (ip : BitVec 128) (udp : BitVec 16) (msg : List Byte)
  | xchgLoad (q : Fin 6)
  | xchgLoadEnd (q : Fin 6)
  | xchgApply (q : Fin 6) (allowSkip : Bool)
  | xchgCancel (q : Fin 6)
  | xchgHoldStart (q : Fin 6)
  | xchgHoldEnd (q : Fin 6)
  | xchgApplyTimeout (q : Fin 6)
  | contextRelease (c : Fin 128)
  | sampleStart
  | sampleOutputWrite
  | coefSetSwitch (c : Fin 128) (set : Bool)
  | reseed (c : Fin 128)
  | grvRebuild (t : Fin 16)
  | grvRebuildEnd (t : Fin 16) (readErr : Bool)
  | grvBankSwap (t : Fin 16) (bank : Bool)
  | graverCopyPoint
  | drfSubmit (master : Fin 42) (notify : Bool) (addr : BitVec 40)
  | drfCancel (master : Fin 42) (slot : Fin 64) (tag : BitVec 16)
  | jobStart
  | iterateComplete (writeErr : Bool)
  | jobTimeEnd
  | jobExpired (slot : Fin 64)
  | resultPosted (writeErr : Bool)
  | evaluationStart (ddrErr : List (Fin 262144))
  | bcnPassEnd
  | bcnRebuild
  | bcnRebuildEnd (readErr : Option (Fin 75272))
  | bcnBankSwap (bank : Fin 2)
  | beaconFrameReceived (port : Fin 5) (v6 : Bool) (ip : BitVec 128) (udp : BitVec 16) (payload : List Byte)
  | report
  | count
  | fwAck
  | bcnAlive
  | gatewaySilent (w : Fin 1024)
  | passthruSend (gateway : Fin 1024) (length : Fin 2048)
  | campaignStart (c : Fin 8)
  | campaignVerifyEnd (c : Fin 8) (readErr : Bool)
  | campaignFrameTurn (c : Fin 8)
  | campaignAckTimeout (c : Fin 8) (w : Fin 1024)
  | campaignAbort (c : Fin 8)
  | campaignClear (c : Fin 8)
  | tallySample (codes general : List (BitVec 32))
  | lineCycleBoundary (f : Fin 4)
  | boundaryPlaced (f : Fin 4)
  | halfCycleBoundary (f : Fin 4)
  | thermalSample (cut : List (Fin 32))
  | totalsRecordWrite (fail : Bool)
  | flowPulse (pin : Fin 64) (high : Bool)
  | pulseOutputStart (j : Fin 8)
  | pulseOutputEnd (j : Fin 8)
  | pulseOutputIdle (j : Fin 8)
  | dieTempReading (temp : Option (BitVec 16))
  | preset (index : BitVec 8) (master : Fin 42)
  | tlyCycleRead (f : Fin 4)
  | tlyThStatusRead (c : Fin 32)
  | portLinkUp (port : Fin 5) (seen : Fin 16)
  | portLinkDown (port : Fin 5)
  | frameReceived (port : Fin 5) (fcsOk : Bool) (fault : Fin 3) (addr : BitVec 40) (frame : List Byte)
  | ethFrameStart (port : Fin 5) (fault : Fin 3) (addr : BitVec 40)
  | gateEntryChange (port : Fin 4)
  | gateListChangeover (port : Fin 4)
  | otherWrite (port : Fin 5) (tc : Fin 8) (max : Fin 2048)
  | mdioOp (port : Fin 5) (value : BitVec 32)
  | mdioOpEnd (port : Fin 5) (data : BitVec 16)
  | sync (port : Fin 4) (dn : BitVec 8) (seq : BitVec 16) (two : Bool) (origin : BitVec 80) (corr : BitVec 64)
  | followUp (port : Fin 4) (dn : BitVec 8) (seq : BitVec 16) (origin : BitVec 80) (corr : BitVec 64)
  | delayReq (port : Fin 4) (dn : BitVec 8) (seq : BitVec 16) (src : BitVec 80) (corr : BitVec 64)
  | delayResp (port : Fin 4) (dn : BitVec 8) (seq : BitVec 16) (req recv : BitVec 80) (corr : BitVec 64)
  | pdelayReq (port : Fin 4) (dn : BitVec 8) (seq : BitVec 16) (src : BitVec 80) (corr : BitVec 64)
  | pdelayResp (port : Fin 4) (dn : BitVec 8) (seq : BitVec 16) (two : Bool) (req recv : BitVec 80) (corr : BitVec 64)
  | pdelayRespFollowUp (port : Fin 4) (dn : BitVec 8) (seq : BitVec 16) (req origin : BitVec 80) (corr : BitVec 64)
  | syncSend (port : Fin 4) (domain : Fin 2)
  | delayReqSend (port : Fin 4) (domain : Fin 2)
  | tidStep
  | tidSlew
  | domainSwitchRequest (active : Fin 2)
  | domainLoss (d : Fin 2)
  | tideOutPulse (o : Fin 8)
  | tideInEdge (i : Fin 4) (rising : Bool)
  | tideInRead (i : Fin 4)
  | canSubmit (ctl cls : Fin 8)
  | canFetchDone (ctl cls : Fin 8) (cut ecc : Bool)
  | canFrameStart (ctl : Fin 8)
  | canArbitrationLost (ctl : Fin 8) (ns : BitVec 32)
  | canErrorFrame (ctl : Fin 8) (overload : Bool) (ns : BitVec 32) (tec rec_ : BitVec 8)
  | canFrameSent (ctl : Fin 8) (ns : BitVec 32) (tec rec_ : BitVec 8)
  | canFrameReceived (ctl : Fin 8) (id : BitVec 31) (format : Fin 3) (flags sdt vcid : BitVec 8) (af : BitVec 32) (sof : BitVec 64) (data : List Byte) (rec_ : BitVec 8) (fault : Fin 3) (addr : BitVec 40)
  | canBusOff (ctl : Fin 8)
  | canIntegrationEnd (ctl : Fin 8)
  | canCancel (ctl cls : Fin 8)
  | canMeasure (ctl : Fin 8) (window : BitVec 16)
  | canMeasureEnd (ctl : Fin 8) (intervals : List (BitVec 32))
  | canTimingTakeup (ctl : Fin 8)
  | mbsSend (uart : Fin 8) (length : Fin 1024)
  | mbsTelegramSent (uart : Fin 8)
  | mbsTelegramEnd (uart : Fin 8) (octets : List Byte) (parity framing : BitVec 16) (ecc : Bool)
  | mbsResponseTimeout (uart : Fin 8)
  | vbatFirstApplied
  | supplySwitchover
  | calendarWrap
  | weekdayAdvance
  | oscillatorStop
  | oscillatorRestart
  | almNowRead
  | almSet (master : Fin 42)
  | almShift (master : Fin 42)
  | almWeekday (master : Fin 42)
  | almCommandApply
  | alarmFire (a : Fin 2)
  | bthTxPost (agent : Bool)
  | bthRxTake (agent : Bool)
  | bthRxAny (agent : Bool)
  | domainWakeDone (d : Fin 7)
  | mastSourceFire (src : Fin 512)
  | setPending (src : Fin 512)
  | mastOffer
  | mastClaimGrant (cs : List (Fin 24))
  | mastSourceOff (src : Fin 512)
  | moderationEnd (src : Fin 512)
  | lockGrant (l : Fin 21) (masters : List (Fin 42))
  | lockTransferEnd (l : Fin 21)
  | holdCutoff (l : Fin 21) (addr : Addr) (write : Bool)
  | quotaUnmask (l : Fin 21)
  | peerOwnChange (asserted : Bool)
  | mooringLinkUp
  | mooringLinkDown (lanes : Bool)
  | pairTick
  | mooringStatus (owns fit : Bool) (mode : Fin 8) (epoch : BitVec 16) (unit : Fin 2) (acks taken : List (BitVec 32)) (fault : Fin 3)
  | mooringCopyData (stream : Fin 8) (owns : Bool) (epoch : BitVec 16) (unit : Fin 2) (seq : BitVec 32) (lines : List (BitVec 64 × List (BitVec 8))) (fault : Fin 3)
  | mooringCopyEnd (stream : Fin 8) (owns : Bool) (epoch : BitVec 16) (unit : Fin 2) (seq lines gen digest : BitVec 32) (crcOk : Bool) (seqs : List (Fin 2048 × BitVec 16)) (fault : Fin 3)
  | mooringBerth (participant : Fin 26) (epoch : BitVec 16) (unit : Fin 2) (seq word : BitVec 32) (fault : Fin 3)
  | mooringBerthTaken (participant : Fin 26) (epoch : BitVec 16) (unit : Fin 2) (seq : BitVec 32) (fault : Fin 3)
  | mooringSwap (owns : Bool) (epoch : BitVec 16) (unit : Fin 2) (seq : BitVec 32) (fault : Fin 3)
  | mooringExchange (owns : Bool) (epoch : BitVec 16) (unit : Fin 2) (seq digest : BitVec 32) (fault : Fin 3)
  | copyTakeUpEnd (stream : Fin 8)
  | copyStale (stream : Fin 7)
  | swapCommand
  | swapStart
  | swapTimeout
  | reactionFault
  | ownNRelease
  | safeOutSend
  | aliveToggle
  | faultInject (src : Fin 512) (fbit : Fin 32)
  | opSecondTick
  | fixedRecordWrite (fault : Fin 3)
  | snapshotCaptureStart
  | snapshotRecordWritten
  | logRead (store : Fin 2) (age : Fin 16384)
  | logReadDone
  | logExport (store : Fin 2)
  | logExportEnd (errAfter : Option Nat)
  | logChallenge
  | logClear (master : Fin 42) (scope : Fin 4)
  | logClearCommit
  | nonceExpiry
  | keyBatch (master : Fin 42) (count : Fin 8192)
  | keyWrite (fault : Fin 4)
  | keyInvalidate (fault : Fin 4)
  | sessionInstall (fault : Fin 4)
  | factoryUnlock (fault : Fin 4)
  | entropyFail
  | pcieLinkUp (gen width : Fin 5)
  | pcieLinkDown
  | dmaError (r : Fin 16) (addr : BitVec 64) (fetch write : Bool)
  | dmaCompletionTimeout (r : Fin 16) (addr : BitVec 64) (fetch : Bool)
  | msixUnmask (vector : Option (Fin 64))
  | ddrInit (test : Bool)
  | ddrTrainingEnd (failed : Option (Fin 2))
  | ddrBlockDone (channel : Fin 2) (failed : Bool)
  | ddrInitEnd
  | mramScrub
  | mramScrubEnd (uncorrectable : Bool)
  | flashRead
  | flashProgram
  | flashErase4k
  | flashErase64k
  | flashOpEnd
  | avsUpdate (rail : Fin 2) (margin readVout : BitVec 16)
  | pmbusTransactionEnd (rail : Fin 2) (ok : Bool)
  | pmbusTimeout (rail : Fin 2)
  | gateRequest (domains : BitVec 7)
  | domainGated (domain : Fin 7)
  | dinFilterChange (pin : Fin 64) (level : Bool)
  | pwmPeriodStart (channel : Fin 16)
  | encoderEdge (channel : Fin 16) (a b : Bool)
  | encoderIndex (channel : Fin 16)
  | ssiFrameStart (channel : Fin 16) (idleHigh : Bool)
  | ssiFrameEnd (channel : Fin 16) (data : BitVec 32)
  | tick
  | conflictGraceEnd
  | jobAborted (why : JobAbort)
deriving DecidableEq, Repr

end Sys2Proof
end

