-- ==== Sys2Proof/Decode.lean ====
section
/-! DEFINITION. The words of the table. No row of the opcode table gives its command any bits: a command reaches the block
from outside, with its operands, so that no word spells one. The encodings of Joraone words (R92 to R124) are read by
JoraWord, which DEBUG_STEP runs from a core's instruction SRAM. Readings and choices: DEDUCED log 14. -/

namespace Sys2Proof

/-- The command a word spells by the table's bits: none, as no row has bits. -/
def decodeTableWord (_nbits _w : Nat) : Option Instr := none

end Sys2Proof
end

