-- ==== Sys2Proof/Config.lean ====
section
/-! DEFINITION. What an implementation fixes and the values the spec leaves open: opaque constants, so that nothing
can be proved of the value chosen. Readings and choices: DESIGN CHOICE log 5, 8, 11, 12, 31, 33, 34. -/

namespace Sys2Proof.Config

/-- A value the spec leaves open, drawn fresh by a counter of the State. -/
opaque free : Nat → Nat

/-- The FORMAT (modulo 3), IDE and BRS of the class that uses a CAN path (R344): no register holds them. -/
opaque canForm : Nat → Nat

/-- The image offset at which a quay's start-up task takes its DIN bytes: the spec gives it no IO_OFF (R137). -/
opaque startDin : Nat → Nat

/-- A choice that R208 and R209 leave to the Drafting engine (the order of a sum, the order of elimination, which products
are fused, the factor storage), and a value of a job that the spec does not state: a function of the job's data alone, and of
the place in its work. -/
opaque drfVal : List Byte → List Nat → Nat

/-- The two binary64 coefficients of the Tally's first-order high-pass filter, y ← b · (x − x₁) + a · y₁: R273 gives its
corner and no form of its discretisation. -/
opaque hpfB : Nat
opaque hpfA : Nat

/-- The device's 128-bit UID fuse (R445). -/
opaque uidBits : BitVec 128
def uid : Nat := uidBits.toNat

/-- The fuse DEBUG_LOCK (R491), and the word of HST_FUSE_ID (R460). -/
opaque debugLock : Bool
opaque fuseId : Nat

/-- The fused 256-bit ROOT (R445), as octets. -/
opaque rootBits : BitVec 256
def root : List Byte := beBytes 32 rootBits.toNat

/-- The fused SHA-384 hash of the boot key (R471). -/
opaque bootKeyBits : BitVec 384
def bootKey : List Byte := beBytes 48 bootKeyBits.toNat

/-- The random generator's n-th 64-bit draw (R453). -/
opaque drbg : Nat → Nat

end Sys2Proof.Config
end

