-- ==== Sys2Proof/Machine/Regs.lean ====
section
/-! DEFINITION. The register map (R5 to R9, R18): every register field of every block as a descriptor
(window offset, low bit, width, access code, reset value), and the table of registers the bus decodes.
A descriptor's offset is that of the first instance; an instance is named by a displacement in bytes.
Readings and choices: DEDUCED log 18, 50; PRESUMED log 45. -/

namespace Sys2Proof.Machine

/-- The access codes of R9. -/
inductive Acc where
  | rw | ro | wo | w1c | w1s | ps
deriving DecidableEq, Repr

/-- A register field: the offset of its register's first instance from 0x40_0000_0000, its low bit, its width,
its access code and its reset value. -/
structure Fld where
  off : Nat
  lo  : Nat
  w   : Nat
  acc : Acc
  rst : Nat
deriving DecidableEq, Repr

/-- The key under which the field of the instance at displacement `d` is held in a register map. A register
takes 4 bytes (8 for a 64-bit register), so keys of different fields differ. -/
def Fld.key (f : Fld) (d : Nat) : Nat := (f.off + d) * 32 + f.lo

/-- The fault set of R423, whose registers begin at FAULT_STATUS (offset `F`): the field of the status bits, `w` of them. -/
def fsStatus (F w : Nat) : Fld := ⟨F, 0, w, .w1c, 0⟩
def fsIrqEn (F : Nat) : Fld := ⟨F + 4, 0, 32, .rw, 0⟩
/-- REACT. Bits set at reset (R34, R406) are given by `reactReset`. -/
def fsReact (F : Nat) (rst : Nat) : Fld := ⟨F + 8, 0, 32, .rw, rst⟩
def fsValid (F : Nat) : Fld := ⟨F + 0xC, 31, 1, .w1c, 0⟩
def fsHasAccess (F : Nat) : Fld := ⟨F + 0xC, 30, 1, .ro, 0⟩
def fsBit (F : Nat) : Fld := ⟨F + 0xC, 24, 5, .ro, 0⟩
def fsMaster (F : Nat) : Fld := ⟨F + 0xC, 16, 6, .ro, 0⟩
def fsAccess (F : Nat) : Fld := ⟨F + 0xC, 12, 2, .ro, 0⟩
def fsDetail (F : Nat) : Fld := ⟨F + 0xC, 0, 12, .ro, 0⟩
def fsAddrLo (F : Nat) : Fld := ⟨F + 0x10, 0, 32, .ro, 0⟩
def fsAddrHi (F : Nat) : Fld := ⟨F + 0x14, 0, 8, .ro, 0⟩
def fsTimeNs (F : Nat) : Fld := ⟨F + 0x18, 0, 30, .ro, 0⟩
def fsTimeLo (F : Nat) : Fld := ⟨F + 0x1C, 0, 32, .ro, 0⟩
def fsTimeHi (F : Nat) : Fld := ⟨F + 0x20, 0, 16, .ro, 0⟩
def fsCount (F : Nat) : Fld := ⟨F + 0x24, 0, 32, .ro, 0⟩

/-! Fields of 00_scope.md -/

def SYS_ID_PART : Fld := ⟨0x0, 16, 16, .ro, 0x4820⟩
def SYS_ID_MAJOR : Fld := ⟨0x0, 12, 4, .ro, 0x1⟩
def SYS_ID_MINOR : Fld := ⟨0x0, 8, 4, .ro, 0x0⟩
/-! Fields of 01_architecture.md -/

def SYS_CTR_PATH_TARGET : Fld := ⟨0x10000, 16, 12, .rw, 0x0⟩
def SYS_CTR_PATH_PRIO : Fld := ⟨0x10000, 8, 3, .rw, 0x0⟩
def SYS_CTR_PATH_KIND : Fld := ⟨0x10000, 4, 3, .rw, 0x0⟩
def SYS_CTR_PATH_ENABLE : Fld := ⟨0x10000, 0, 1, .rw, 0x0⟩
def SYS_CTR_SIZE_MAX_SIZE : Fld := ⟨0x10004, 0, 32, .rw, 0x40⟩
def SYS_CTR_RATE_WINDOW_US : Fld := ⟨0x10008, 12, 20, .rw, 0x1⟩
def SYS_CTR_RATE_MAX_ITEMS : Fld := ⟨0x10008, 0, 9, .rw, 0x1⟩
def SYS_CTR_BOUND_BOUND_NS : Fld := ⟨0x1000C, 0, 32, .rw, 0x0⟩
def SYS_CTR_WORST_WORST_NS : Fld := ⟨0x10010, 0, 32, .ro, 0x0⟩
def SYS_CTR_STATUS_DRAINING : Fld := ⟨0x10014, 16, 1, .ro, 0x0⟩
def SYS_CTR_STATUS_REFUSAL : Fld := ⟨0x10014, 0, 12, .ro, 0x0⟩
def SYS_CTR_ACCEPTED_COUNT : Fld := ⟨0x10018, 0, 32, .ro, 0x0⟩
def SYS_CTR_REJECTED_COUNT : Fld := ⟨0x1001C, 0, 32, .ro, 0x0⟩
def SYS_CTR_CHECK_BUSY : Fld := ⟨0x200, 31, 1, .ro, 0x0⟩
def SYS_CTR_CHECK_PATH : Fld := ⟨0x200, 16, 9, .ro, 0x0⟩
def SYS_CTR_CHECK_LAST_REFUSAL : Fld := ⟨0x200, 0, 12, .ro, 0x0⟩
def SYS_BREACH_PATH_VALID : Fld := ⟨0x204, 31, 1, .ro, 0x0⟩
def SYS_BREACH_PATH_PATH : Fld := ⟨0x204, 0, 9, .ro, 0x0⟩
def SYS_BREACH_SEC_SECONDS : Fld := ⟨0x208, 0, 32, .ro, 0x0⟩
def SYS_BREACH_NS_NANOSECONDS : Fld := ⟨0x20C, 0, 30, .ro, 0x0⟩
/-! Fields of 02_modes_and_bringup.md -/

def SYS_MODE_TRANSIT : Fld := ⟨0x100, 31, 1, .ro, 0x0⟩
def SYS_MODE_ID_SEEN : Fld := ⟨0x100, 30, 1, .ro, 0x0⟩
def SYS_MODE_REFUSAL : Fld := ⟨0x100, 16, 12, .ro, 0x0⟩
def SYS_MODE_PREV_MODE : Fld := ⟨0x100, 4, 3, .ro, 0x0⟩
def SYS_MODE_MODE : Fld := ⟨0x100, 0, 3, .ro, 0x0⟩
def SYS_MODE_CMD_CONFIRM : Fld := ⟨0x104, 16, 16, .wo, 0x0⟩
def SYS_MODE_CMD_TARGET : Fld := ⟨0x104, 0, 3, .wo, 0x0⟩
def SYS_RESET_CAUSE_LAST_MODE : Fld := ⟨0x108, 20, 3, .ro, 0x0⟩
def SYS_RESET_CAUSE_FLR : Fld := ⟨0x108, 16, 1, .w1c, 0x0⟩
def SYS_RESET_CAUSE_QUAY : Fld := ⟨0x108, 8, 6, .w1c, 0x0⟩
def SYS_RESET_CAUSE_FROM_SAFE : Fld := ⟨0x108, 4, 1, .w1c, 0x0⟩
def SYS_RESET_CAUSE_WDT : Fld := ⟨0x108, 3, 1, .w1c, 0x0⟩
def SYS_RESET_CAUSE_HOST : Fld := ⟨0x108, 2, 1, .w1c, 0x0⟩
def SYS_RESET_CAUSE_PIN : Fld := ⟨0x108, 1, 1, .w1c, 0x0⟩
def SYS_RESET_CAUSE_POR : Fld := ⟨0x108, 0, 1, .w1c, 0x1⟩
def SYS_RESET_CMD_CONFIRM : Fld := ⟨0x10C, 16, 16, .wo, 0x0⟩
def SYS_RESET_CMD_SCOPE : Fld := ⟨0x10C, 8, 1, .wo, 0x0⟩
def SYS_RESET_CMD_QUAY : Fld := ⟨0x10C, 0, 3, .wo, 0x0⟩
def SYS_WDT_CTRL_ENABLE : Fld := ⟨0x110, 31, 1, .w1s, 0x0⟩
def SYS_WDT_CTRL_PERIOD_MS : Fld := ⟨0x110, 0, 20, .rw, 0x2710⟩
def SYS_WDT_KICK_KEY : Fld := ⟨0x114, 0, 8, .wo, 0x0⟩
def SYS_BOOT_STATUS_FAIL : Fld := ⟨0x118, 4, 4, .ro, 0x0⟩
def SYS_BOOT_STATUS_STATE : Fld := ⟨0x118, 0, 3, .ro, 0x0⟩
/-! Fields of 03_proof_and_enable.md -/

def PRF_CMD_OP : Fld := ⟨0x100000, 0, 4, .wo, 0x0⟩
def PRF_STATUS_STATE : Fld := ⟨0x100004, 28, 4, .ro, 0x0⟩
def PRF_STATUS_OVERFLOW : Fld := ⟨0x100004, 27, 1, .ro, 0x0⟩
def PRF_STATUS_LOCKED_WRITE : Fld := ⟨0x100004, 26, 1, .w1c, 0x0⟩
def PRF_STATUS_FOREIGN : Fld := ⟨0x100004, 25, 1, .w1c, 0x0⟩
def PRF_STATUS_APPLIED : Fld := ⟨0x100004, 24, 1, .w1c, 0x0⟩
def PRF_STATUS_OWNER : Fld := ⟨0x100004, 18, 6, .ro, 0x0⟩
def PRF_STATUS_REFUSAL : Fld := ⟨0x100004, 0, 12, .ro, 0x0⟩
def PRF_STAGED_COUNT : Fld := ⟨0x100008, 0, 14, .ro, 0x0⟩
def PRF_FAIL_ADDR_VALID : Fld := ⟨0x10000C, 31, 1, .ro, 0x0⟩
def PRF_FAIL_ADDR_OFFSET : Fld := ⟨0x10000C, 0, 25, .ro, 0x0⟩
def PRF_PULL_AT_BY_QUAY : Fld := ⟨0x100010, 31, 1, .rw, 0x0⟩
def PRF_PULL_AT_TASK : Fld := ⟨0x100010, 8, 3, .rw, 0x0⟩
def PRF_PULL_AT_QUAY : Fld := ⟨0x100010, 0, 3, .rw, 0x0⟩
def PRF_PULL_TIME_NS_NANOSECONDS : Fld := ⟨0x100014, 0, 30, .rw, 0x0⟩
def PRF_PULL_TIME_LO_SECONDS_LO : Fld := ⟨0x100018, 0, 32, .rw, 0x0⟩
def PRF_PULL_TIME_HI_SECONDS_HI : Fld := ⟨0x10001C, 0, 16, .rw, 0x0⟩
def PRF_APPLIED_TIME_NS_NANOSECONDS : Fld := ⟨0x100020, 0, 30, .ro, 0x0⟩
def PRF_APPLIED_TIME_LO_SECONDS_LO : Fld := ⟨0x100024, 0, 32, .ro, 0x0⟩
def PRF_APPLIED_TIME_HI_SECONDS_HI : Fld := ⟨0x100028, 0, 16, .ro, 0x0⟩
def HST_RING_CFG_ENABLE : Fld := ⟨0x1001000, 31, 1, .rw, 0x0⟩
def HST_RING_CFG_REFUSAL : Fld := ⟨0x1001000, 16, 12, .ro, 0x0⟩
def HST_RING_CFG_LOG2_SIZE : Fld := ⟨0x1001000, 12, 4, .rw, 0x4⟩
def HST_RING_CFG_PATH : Fld := ⟨0x1001000, 0, 9, .rw, 0x0⟩
def HST_RING_SQ_BASE_BASE : Fld := ⟨0x1001008, 0, 64, .rw, 0x0⟩
def HST_RING_CQ_BASE_BASE : Fld := ⟨0x1001010, 0, 64, .rw, 0x0⟩
def HST_RING_SQ_TAIL_INDEX : Fld := ⟨0x1001018, 0, 13, .rw, 0x0⟩
def HST_RING_SQ_HEAD_INDEX : Fld := ⟨0x100101C, 0, 13, .ro, 0x0⟩
def HST_RING_CQ_TAIL_INDEX : Fld := ⟨0x1001020, 0, 13, .ro, 0x0⟩
def HST_RING_CQ_HEAD_INDEX : Fld := ⟨0x1001024, 0, 13, .rw, 0x0⟩
def HST_RING_IRQ_VECTOR : Fld := ⟨0x1001028, 0, 6, .rw, 0x0⟩
/-! Fields of 04_joraone_instruction_set.md -/

def BRN_CORE_BOOT_VBASE : Fld := ⟨0x20C000, 14, 3, .rw, 0x0⟩
def BRN_CORE_STACK_SP : Fld := ⟨0x20C004, 16, 16, .rw, 0x0⟩
def BRN_CORE_STACK_SLIMIT : Fld := ⟨0x20C004, 0, 16, .rw, 0x0⟩
def BRN_CORE_STATUS_HALT_CAUSE : Fld := ⟨0x20C010, 24, 4, .ro, 0x0⟩
def BRN_CORE_STATUS_NEST : Fld := ⟨0x20C010, 16, 5, .ro, 0x0⟩
def BRN_CORE_STATUS_RL : Fld := ⟨0x20C010, 8, 5, .ro, 0x0⟩
def BRN_CORE_STATUS_STATE : Fld := ⟨0x20C010, 0, 3, .ro, 0x0⟩
def BRN_CORE_PC_PC : Fld := ⟨0x20C014, 2, 15, .ro, 0x0⟩
def BRN_CORE_XCAUSE_IMPRECISE : Fld := ⟨0x20C018, 31, 1, .ro, 0x0⟩
def BRN_CORE_XCAUSE_CODE : Fld := ⟨0x20C018, 16, 8, .ro, 0x0⟩
def BRN_CORE_XCAUSE_COUNT : Fld := ⟨0x20C018, 5, 11, .ro, 0x0⟩
def BRN_CORE_XCAUSE_CAUSE : Fld := ⟨0x20C018, 0, 5, .ro, 0x0⟩
def BRN_CORE_CYCLE_COUNT : Fld := ⟨0x20C020, 0, 64, .ro, 0x0⟩
def BRN_CORE_INSTRET_COUNT : Fld := ⟨0x20C028, 0, 64, .ro, 0x0⟩
def BRN_CORE_ECC_UNCORR : Fld := ⟨0x20C030, 31, 1, .w1c, 0x0⟩
def BRN_CORE_ECC_IMAGE : Fld := ⟨0x20C030, 16, 8, .ro, 0x0⟩
def BRN_CORE_ECC_DATA : Fld := ⟨0x20C030, 8, 8, .ro, 0x0⟩
def BRN_CORE_ECC_INSTR : Fld := ⟨0x20C030, 0, 8, .ro, 0x0⟩
def BRN_CORE_DEBUG_ENABLE : Fld := ⟨0x20C034, 31, 1, .rw, 0x0⟩
def BRN_CORE_DEBUG_STEP : Fld := ⟨0x20C034, 2, 1, .wo, 0x0⟩
def BRN_CORE_DEBUG_RESUME : Fld := ⟨0x20C034, 1, 1, .wo, 0x0⟩
def BRN_CORE_DEBUG_HALT_REQ : Fld := ⟨0x20C034, 0, 1, .wo, 0x0⟩
/-! Fields of 05_scan_cycle.md -/

def BRN_QUAY_GEN_GEN : Fld := ⟨0x20C400, 0, 24, .ro, 0x1⟩
def BRN_QUAY_CTRL_ENABLE : Fld := ⟨0x200000, 31, 1, .rw, 0x0⟩
def BRN_QUAY_CTRL_REFUSAL : Fld := ⟨0x200000, 16, 12, .ro, 0x0⟩
def BRN_QUAY_STATUS_BOUNDARY : Fld := ⟨0x200004, 31, 1, .ro, 0x0⟩
def BRN_QUAY_STATUS_HOLD : Fld := ⟨0x200004, 30, 1, .ro, 0x0⟩
def BRN_QUAY_STATUS_STARTUP : Fld := ⟨0x200004, 29, 1, .ro, 0x0⟩
def BRN_QUAY_STATUS_IN_SCAN : Fld := ⟨0x200004, 16, 8, .ro, 0x0⟩
def BRN_QUAY_STATUS_PENDING : Fld := ⟨0x200004, 8, 8, .ro, 0x0⟩
def BRN_QUAY_IMAGE_STATUS_BASE : Fld := ⟨0x200008, 13, 7, .ps, 0x0⟩
def BRN_TASK_CFG_ON : Fld := ⟨0x200100, 31, 1, .ps, 0x0⟩
def BRN_TASK_CFG_PRIO : Fld := ⟨0x200100, 24, 4, .ps, 0x0⟩
def BRN_TASK_CFG_CORE : Fld := ⟨0x200100, 22, 2, .ps, 0x0⟩
def BRN_TASK_CFG_OVR_LIMIT : Fld := ⟨0x200100, 16, 4, .ps, 0x0⟩
def BRN_TASK_CFG_DIN : Fld := ⟨0x200100, 15, 1, .ps, 0x0⟩
def BRN_TASK_PERIOD_VALUE : Fld := ⟨0x200104, 0, 20, .ps, 0x64⟩
def BRN_TASK_PHASE_VALUE : Fld := ⟨0x200108, 0, 20, .ps, 0x0⟩
def BRN_TASK_ENTRY_ENTRY : Fld := ⟨0x20010C, 2, 15, .ps, 0x0⟩
def BRN_TASK_SAVE_SAVE : Fld := ⟨0x200110, 3, 13, .ps, 0x0⟩
def BRN_TASK_IO_IO_OFF : Fld := ⟨0x200114, 3, 17, .ps, 0x0⟩
def BRN_TASK_DOUT_MASK_MASK : Fld := ⟨0x200118, 0, 64, .ps, 0x0⟩
def BRN_TASK_STATS_CLEAR : Fld := ⟨0x200120, 31, 1, .w1c, 0x0⟩
def BRN_TASK_STATS_OVERRUNS : Fld := ⟨0x200120, 16, 15, .ro, 0x0⟩
def BRN_TASK_STATS_CONSEC : Fld := ⟨0x200120, 12, 4, .ro, 0x0⟩
def BRN_TASK_STATS_SKIPPED : Fld := ⟨0x200120, 0, 12, .ro, 0x0⟩
def BRN_TASK_EXEC_LAST_NS : Fld := ⟨0x200124, 0, 32, .ro, 0x0⟩
def BRN_TASK_EXEC_MAX_NS : Fld := ⟨0x200128, 0, 32, .rw, 0x0⟩
def BRN_EVT_CFG_ON : Fld := ⟨0x200400, 31, 1, .ps, 0x0⟩
def BRN_EVT_CFG_PRIO : Fld := ⟨0x200400, 24, 4, .ps, 0x0⟩
def BRN_EVT_CFG_CORE : Fld := ⟨0x200400, 22, 2, .ps, 0x0⟩
def BRN_EVT_CFG_DIN : Fld := ⟨0x200400, 15, 1, .ps, 0x0⟩
def BRN_EVT_CFG_SRC_EN : Fld := ⟨0x200400, 9, 1, .ps, 0x0⟩
def BRN_EVT_CFG_SOURCE : Fld := ⟨0x200400, 0, 9, .ps, 0x0⟩
def BRN_EVT_ENTRY_ENTRY : Fld := ⟨0x200404, 2, 15, .ps, 0x0⟩
def BRN_EVT_SAVE_SAVE : Fld := ⟨0x200408, 3, 13, .ps, 0x0⟩
def BRN_EVT_IO_IO_OFF : Fld := ⟨0x20040C, 3, 17, .ps, 0x0⟩
def BRN_EVT_TRIG_FIRE : Fld := ⟨0x200410, 0, 1, .wo, 0x0⟩
def BRN_EVT_STATS_RUNS : Fld := ⟨0x200414, 16, 16, .ro, 0x0⟩
def BRN_EVT_STATS_LOST : Fld := ⟨0x200414, 0, 16, .ro, 0x0⟩
def BRN_ERR_CFG_ON : Fld := ⟨0x200600, 31, 1, .ps, 0x0⟩
def BRN_ERR_CFG_PRIO : Fld := ⟨0x200600, 24, 4, .ps, 0x0⟩
def BRN_ERR_CFG_CORE : Fld := ⟨0x200600, 22, 2, .ps, 0x0⟩
def BRN_ERR_ENTRY_ENTRY : Fld := ⟨0x200604, 2, 15, .ps, 0x0⟩
def BRN_ERR_SAVE_SAVE : Fld := ⟨0x200608, 3, 13, .ps, 0x0⟩
def BRN_ERR_ARG_ARG_OFF : Fld := ⟨0x20060C, 3, 17, .ps, 0x0⟩
def BRN_ERR_STATS_RUNS : Fld := ⟨0x200610, 16, 16, .ro, 0x0⟩
def BRN_ERR_STATS_QUEUED : Fld := ⟨0x200610, 8, 8, .ro, 0x0⟩
def BRN_ERR_STATS_LOST : Fld := ⟨0x200610, 0, 8, .ro, 0x0⟩
def BRN_START_CFG_CORE : Fld := ⟨0x200800, 22, 2, .rw, 0x0⟩
def BRN_START_CFG_DIN : Fld := ⟨0x200800, 15, 1, .rw, 0x0⟩
def BRN_START_ENTRY_ENTRY : Fld := ⟨0x200804, 2, 15, .rw, 0x0⟩
def BRN_START_SAVE_SAVE : Fld := ⟨0x200808, 3, 13, .rw, 0x0⟩
def BRN_XCHG_PKG_ADDR : Fld := ⟨0x200900, 0, 64, .rw, 0x0⟩
def BRN_XCHG_LEN_BYTES : Fld := ⟨0x200908, 0, 32, .rw, 0x0⟩
def BRN_XCHG_CMD_ALLOW_SKIP : Fld := ⟨0x20090C, 8, 1, .wo, 0x0⟩
def BRN_XCHG_CMD_OP : Fld := ⟨0x20090C, 0, 4, .wo, 0x0⟩
def BRN_XCHG_AREA_ADDR : Fld := ⟨0x200910, 0, 64, .rw, 0x0⟩
def BRN_XCHG_STATUS_STATE : Fld := ⟨0x200918, 28, 4, .ro, 0x0⟩
def BRN_XCHG_STATUS_REFUSAL : Fld := ⟨0x200918, 0, 12, .ro, 0x0⟩
def BRN_XCHG_HOLD_HOLD_NS : Fld := ⟨0x20091C, 0, 32, .ro, 0x0⟩
def BRN_XCHG_MATCH_MATCHED : Fld := ⟨0x200920, 16, 16, .ro, 0x0⟩
def BRN_XCHG_MATCH_NEW : Fld := ⟨0x200920, 0, 16, .ro, 0x0⟩
def BRN_XCHG_DROP_MISMATCHED : Fld := ⟨0x200924, 16, 16, .ro, 0x0⟩
def BRN_XCHG_DROP_REMOVED : Fld := ⟨0x200924, 0, 16, .ro, 0x0⟩
def BRN_XCHG_PROG_PERMYRIAD_STATE : Fld := ⟨0x200930, 28, 4, .ro, 0x0⟩
def BRN_XCHG_PROG_PERMYRIAD_VAL : Fld := ⟨0x200930, 0, 14, .ro, 0x0⟩
def BRN_XCHG_PROG_POSITION_VAL : Fld := ⟨0x200934, 0, 32, .ro, 0x0⟩
def BRN_XCHG_PROG_TOTAL_VAL : Fld := ⟨0x200938, 0, 32, .ro, 0x0⟩
def NET_CARGO_CTRL_ENABLE : Fld := ⟨0x880000, 31, 1, .rw, 0x0⟩
def NET_CARGO_CTRL_REFUSAL : Fld := ⟨0x880000, 16, 12, .ro, 0x0⟩
def NET_CARGO_CTRL_AREA : Fld := ⟨0x880000, 0, 2, .rw, 0x0⟩
def NET_CARGO_SYSID_SYSTEM_ID : Fld := ⟨0x880004, 0, 32, .rw, 0x0⟩
def NET_CARGO_UDP_PORT : Fld := ⟨0x880008, 0, 16, .rw, 0xD7A0⟩
def NET_CARGO_TABLE_BASE : Fld := ⟨0x880010, 0, 64, .ps, 0x0⟩
def NET_CARGO_FAIL_VALID : Fld := ⟨0x880018, 31, 1, .ro, 0x0⟩
def NET_CARGO_FAIL_STATION : Fld := ⟨0x880018, 0, 11, .ro, 0x0⟩
def NET_CARGO_ERR_COUNT : Fld := ⟨0x880020, 0, 32, .ro, 0x0⟩
def NET_CARGO_DROPPED_DROPPED : Fld := ⟨0x880100, 0, 32, .ro, 0x0⟩
/-! Fields of 06_graver_loop_engine.md -/

def GRV_CTRL_ENABLE : Fld := ⟨0x400000, 31, 1, .rw, 0x0⟩
def GRV_CTRL_REFUSAL : Fld := ⟨0x400000, 16, 12, .ro, 0x0⟩
def GRV_SCHED_GROUPS : Fld := ⟨0x400004, 24, 6, .ro, 0x0⟩
def GRV_SCHED_CONTEXTS : Fld := ⟨0x400004, 16, 8, .ro, 0x0⟩
def GRV_SCHED_LWAIT : Fld := ⟨0x400004, 0, 16, .ro, 0x0⟩
def GRV_WORST_WORST_NS : Fld := ⟨0x400008, 0, 32, .ro, 0x0⟩
def GRV_GRP_CTRL_ENABLE : Fld := ⟨0x400100, 31, 1, .rw, 0x0⟩
def GRV_GRP_CTRL_REFUSAL : Fld := ⟨0x400100, 16, 12, .ro, 0x0⟩
def GRV_GRP_CTRL_COMM_EN : Fld := ⟨0x400100, 0, 1, .rw, 0x0⟩
def GRV_GRP_OUT_PORT : Fld := ⟨0x400104, 0, 32, .ps, 0x0⟩
def GRV_GRP_STATUS_VALID : Fld := ⟨0x400108, 31, 1, .ro, 0x0⟩
def GRV_GRP_STATUS_MEMBERS : Fld := ⟨0x400108, 24, 4, .ro, 0x0⟩
def GRV_GRP_STATUS_WINNER : Fld := ⟨0x400108, 16, 7, .ro, 0x0⟩
def GRV_GRP_APPLIED_VALUE : Fld := ⟨0x40010C, 0, 32, .ro, 0x0⟩
def GRV_FF_CTRL_REFUSAL : Fld := ⟨0x400400, 16, 12, .ro, 0x0⟩
def GRV_FF_CTRL_SHADOW : Fld := ⟨0x400400, 8, 2, .ro, 0x0⟩
def GRV_FF_CTRL_ACTIVE_EMPTY : Fld := ⟨0x400400, 4, 1, .ro, 0x1⟩
def GRV_FF_CTRL_ACTIVE_BANK : Fld := ⟨0x400400, 0, 1, .rw, 0x0⟩
def GRV_FF_SRC_ADDR : Fld := ⟨0x400408, 0, 64, .rw, 0x0⟩
def GRV_FF_CMD_REBUILD : Fld := ⟨0x400410, 0, 1, .wo, 0x0⟩
def GRV_FF_EXP_EXP1 : Fld := ⟨0x400414, 8, 8, .ro, 0x0⟩
def GRV_FF_EXP_EXP0 : Fld := ⟨0x400414, 0, 8, .ro, 0x0⟩
def GRV_CTX_CTRL_ENABLE : Fld := ⟨0x410000, 31, 1, .rw, 0x0⟩
def GRV_CTX_CTRL_REFUSAL : Fld := ⟨0x410000, 16, 12, .ro, 0x0⟩
def GRV_CTX_LIVE_ACTIVE_SET : Fld := ⟨0x410004, 8, 1, .rw, 0x0⟩
def GRV_CTX_LIVE_TRACK : Fld := ⟨0x410004, 4, 1, .rw, 0x0⟩
def GRV_CTX_LIVE_RESEED : Fld := ⟨0x410004, 1, 1, .wo, 0x0⟩
def GRV_CTX_LIVE_COMM_EN : Fld := ⟨0x410004, 0, 1, .rw, 0x0⟩
def GRV_CTX_CFG_FORM : Fld := ⟨0x410008, 31, 1, .ps, 0x0⟩
def GRV_CTX_CFG_GROUP : Fld := ⟨0x410008, 24, 6, .ps, 0x0⟩
def GRV_CTX_CFG_FF_ON : Fld := ⟨0x410008, 23, 1, .ps, 0x0⟩
def GRV_CTX_CFG_FF_TABLE : Fld := ⟨0x410008, 19, 4, .ps, 0x0⟩
def GRV_CTX_CFG_FF_SIGN : Fld := ⟨0x410008, 17, 2, .ps, 0x0⟩
def GRV_CTX_CFG_FF_WRAP : Fld := ⟨0x410008, 16, 1, .ps, 0x0⟩
def GRV_CTX_CFG_EI : Fld := ⟨0x410008, 8, 8, .ps, 0x0⟩
def GRV_CTX_CFG_EX : Fld := ⟨0x410008, 0, 8, .ps, 0x0⟩
def GRV_CTX_PERIOD_VALUE : Fld := ⟨0x41000C, 0, 24, .ps, 0x3E8⟩
def GRV_CTX_PHASE_VALUE : Fld := ⟨0x410010, 0, 24, .ps, 0x0⟩
def GRV_CTX_SP_PORT : Fld := ⟨0x410014, 0, 32, .ps, 0x0⟩
def GRV_CTX_MEAS_PORT : Fld := ⟨0x410018, 0, 32, .ps, 0x0⟩
def GRV_CTX_OUT_PORT : Fld := ⟨0x41001C, 0, 32, .ps, 0x0⟩
def GRV_CTX_FFPOS_PORT : Fld := ⟨0x410020, 0, 32, .ps, 0x0⟩
def GRV_CTX_SETPOINT_VALUE : Fld := ⟨0x410024, 0, 32, .rw, 0x0⟩
def GRV_CTX_OUT_MIN_VALUE : Fld := ⟨0x410028, 0, 32, .rw, 0x80000000⟩
def GRV_CTX_OUT_MAX_VALUE : Fld := ⟨0x41002C, 0, 32, .rw, 0x7FFFFFFF⟩
def GRV_CTX_OUT_OFFSET_VALUE : Fld := ⟨0x410030, 0, 32, .rw, 0x0⟩
def GRV_CTX_TRACK_VAL_VALUE : Fld := ⟨0x410034, 0, 32, .rw, 0x0⟩
def GRV_CTX_FF_X0_VALUE : Fld := ⟨0x410038, 0, 32, .rw, 0x0⟩
def GRV_CTX_FF_XMUL_VALUE : Fld := ⟨0x41003C, 0, 32, .rw, 0x0⟩
def GRV_CTX_FF_MOD_VALUE : Fld := ⟨0x410040, 0, 24, .rw, 0x0⟩
def GRV_CTX_STATUS_SEEDED : Fld := ⟨0x410044, 31, 1, .ro, 0x0⟩
def GRV_CTX_STATUS_TRACKING : Fld := ⟨0x410044, 30, 1, .ro, 0x0⟩
def GRV_CTX_STATUS_CLAMP_HI : Fld := ⟨0x410044, 29, 1, .ro, 0x0⟩
def GRV_CTX_STATUS_CLAMP_LO : Fld := ⟨0x410044, 28, 1, .ro, 0x0⟩
def GRV_CTX_STATUS_WON : Fld := ⟨0x410044, 27, 1, .ro, 0x0⟩
def GRV_CTX_STATUS_SAT : Fld := ⟨0x410044, 0, 1, .w1c, 0x0⟩
def GRV_CTX_APPLIED_VALUE : Fld := ⟨0x410048, 0, 32, .ro, 0x0⟩
def GRV_CTX_UOUT_MANTISSA : Fld := ⟨0x41004C, 0, 32, .ro, 0x0⟩
def GRV_CTX_EXPS_E_OUT : Fld := ⟨0x410050, 16, 8, .ro, 0x0⟩
def GRV_CTX_EXPS_E_STATE : Fld := ⟨0x410050, 8, 8, .ro, 0x0⟩
def GRV_CTX_EXPS_E_WORK : Fld := ⟨0x410050, 0, 8, .ro, 0x0⟩
def GRV_CTX_SAMPLES_COUNT : Fld := ⟨0x410054, 0, 32, .ro, 0x0⟩
def GRV_CTX_OVERRUNS_COUNT : Fld := ⟨0x410058, 0, 16, .ro, 0x0⟩
def GRV_CTX_HIST_MANTISSA : Fld := ⟨0x410060, 0, 32, .ro, 0x0⟩
def GRV_CTX_COEF_MANTISSA : Fld := ⟨0x410080, 0, 32, .rw, 0x0⟩
def GRV_CTX_COEF_EXP_EXP : Fld := ⟨0x41009C, 0, 8, .rw, 0x0⟩
/-! Fields of 07_drafting_engine.md -/

def DRF_CTRL_ENABLE : Fld := ⟨0x500000, 31, 1, .rw, 0x0⟩
def DRF_CTRL_REFUSAL : Fld := ⟨0x500000, 16, 12, .ro, 0x0⟩
def DRF_STATUS_BUSY : Fld := ⟨0x500004, 31, 1, .ro, 0x0⟩
def DRF_STATUS_RUNNING : Fld := ⟨0x500004, 24, 6, .ro, 0x0⟩
def DRF_STATUS_QUEUED : Fld := ⟨0x500004, 8, 7, .ro, 0x0⟩
def DRF_CANCEL_TAG : Fld := ⟨0x500010, 16, 16, .wo, 0x0⟩
def DRF_CANCEL_SLOT : Fld := ⟨0x500010, 0, 6, .wo, 0x0⟩
def DRF_LAST_REFUSAL_VALID : Fld := ⟨0x500014, 31, 1, .ro, 0x0⟩
def DRF_LAST_REFUSAL_MASTER : Fld := ⟨0x500014, 24, 6, .ro, 0x0⟩
def DRF_LAST_REFUSAL_CODE : Fld := ⟨0x500014, 0, 12, .ro, 0x0⟩
def DRF_SPILL_BASE_ADDR : Fld := ⟨0x500018, 0, 64, .rw, 0x0⟩
def DRF_SPILL_SIZE_MB : Fld := ⟨0x500020, 0, 11, .rw, 0x0⟩
def DRF_COUNTS_NOTIFY_LOST : Fld := ⟨0x500024, 16, 16, .ro, 0x0⟩
def DRF_COUNTS_DISCARDED : Fld := ⟨0x500024, 0, 16, .ro, 0x0⟩
def DRF_DONE_RECORDS : Fld := ⟨0x500028, 0, 32, .ro, 0x0⟩
def DRF_MEM_LAST_SPILL_MB : Fld := ⟨0x50002C, 16, 16, .ro, 0x0⟩
def DRF_MEM_LAST_FACTOR_KB : Fld := ⟨0x50002C, 0, 16, .ro, 0x0⟩
def DRF_PROG_PERMYRIAD_STATE : Fld := ⟨0x500030, 28, 4, .ro, 0x0⟩
def DRF_PROG_PERMYRIAD_VAL : Fld := ⟨0x500030, 0, 14, .ro, 0x0⟩
def DRF_PROG_POSITION_VAL : Fld := ⟨0x500034, 0, 32, .ro, 0x0⟩
def DRF_PROG_TOTAL_VAL : Fld := ⟨0x500038, 0, 32, .ro, 0x0⟩
def DRF_SLOT_STATE : Fld := ⟨0x500100, 30, 2, .ro, 0x0⟩
def DRF_SLOT_PATH : Fld := ⟨0x500100, 16, 9, .ro, 0x0⟩
def DRF_SLOT_TAG : Fld := ⟨0x500100, 0, 16, .ro, 0x0⟩
def DRF_SUBMIT_NOTIFY : Fld := ⟨0x580000, 40, 1, .wo, 0x0⟩
def DRF_SUBMIT_ADDR : Fld := ⟨0x580000, 0, 40, .wo, 0x0⟩
/-! Fields of 08_beacon_lighting.md -/

def BCN_CTRL_ENABLE : Fld := ⟨0x600000, 31, 1, .rw, 0x0⟩
def BCN_CTRL_REFUSAL : Fld := ⟨0x600000, 16, 12, .ro, 0x0⟩
def BCN_STATUS_PASS : Fld := ⟨0x600004, 31, 1, .ro, 0x0⟩
def BCN_STATUS_FIRST_DONE : Fld := ⟨0x600004, 30, 1, .ro, 0x0⟩
def BCN_STATUS_CLOCK_INVALID : Fld := ⟨0x600004, 29, 1, .ro, 0x0⟩
def BCN_CFG_FALLBACK_DEM : Fld := ⟨0x600008, 16, 11, .ps, 0x3E8⟩
def BCN_CFG_EVAL_PERIOD_MS : Fld := ⟨0x600008, 0, 16, .ps, 0x3E8⟩
def BCN_CFG2_FAULT_MASK : Fld := ⟨0x60000C, 16, 16, .ps, 0x0⟩
def BCN_CFG2_REFRESH_S : Fld := ⟨0x60000C, 0, 16, .ps, 0x0⟩
def BCN_TIMEOUT_LANT_SILENT_S : Fld := ⟨0x600010, 16, 16, .ps, 0xE10⟩
def BCN_TIMEOUT_GW_SILENT_S : Fld := ⟨0x600010, 0, 16, .ps, 0x12C⟩
def BCN_TEMP_AGE_TEMP_AGE_S : Fld := ⟨0x600014, 0, 16, .ps, 0xE10⟩
def BCN_SYSID_SYSTEM_ID : Fld := ⟨0x600018, 0, 32, .rw, 0x0⟩
def BCN_UDP_PORT : Fld := ⟨0x60001C, 0, 16, .rw, 0xD7A1⟩
def BCN_LDB_BASE_ADDR : Fld := ⟨0x600020, 0, 64, .ps, 0x0⟩
def BCN_LDB_COUNT_COUNT : Fld := ⟨0x600028, 0, 19, .ps, 0x0⟩
def BCN_LWAIT_L_D : Fld := ⟨0x60002C, 0, 16, .ro, 0x0⟩
def BCN_PASS_WORST_NS : Fld := ⟨0x600030, 0, 32, .ro, 0x0⟩
def BCN_PASS_LAST_NS : Fld := ⟨0x600034, 0, 32, .ro, 0x0⟩
def BCN_EVALS_SKIPPED : Fld := ⟨0x600038, 16, 16, .ro, 0x0⟩
def BCN_EVALS_TORN : Fld := ⟨0x600038, 0, 16, .ro, 0x0⟩
def BCN_SOLAR_LAT_LAT : Fld := ⟨0x600040, 0, 32, .ps, 0x0⟩
def BCN_SOLAR_LON_LON : Fld := ⟨0x600044, 0, 32, .ps, 0x0⟩
def BCN_SOLAR_CFG_UTC_OFF_MIN : Fld := ⟨0x600048, 0, 12, .ps, 0x0⟩
def BCN_SOLAR_EVT_VALID : Fld := ⟨0x600050, 31, 1, .ro, 0x0⟩
def BCN_SOLAR_EVT_MINUTE : Fld := ⟨0x600050, 0, 11, .ro, 0x0⟩
def BCN_PROF_CTRL_REFUSAL : Fld := ⟨0x600070, 16, 12, .ro, 0x0⟩
def BCN_PROF_CTRL_SHADOW : Fld := ⟨0x600070, 8, 2, .ro, 0x0⟩
def BCN_PROF_CTRL_ACTIVE_EMPTY : Fld := ⟨0x600070, 4, 1, .ro, 0x1⟩
def BCN_PROF_CTRL_ACTIVE_BANK : Fld := ⟨0x600070, 0, 1, .rw, 0x0⟩
def BCN_PROF_SRC_ADDR : Fld := ⟨0x600078, 0, 64, .rw, 0x0⟩
def BCN_PROF_CMD_REBUILD : Fld := ⟨0x600080, 0, 1, .wo, 0x0⟩
def BCN_PROF_FAIL_OFFSET : Fld := ⟨0x600084, 0, 17, .ro, 0x0⟩
def BCN_FAULT_COUNT_LANTERNS : Fld := ⟨0x6000C0, 0, 19, .ro, 0x0⟩
def BCN_FEV_BASE_ADDR : Fld := ⟨0x600100, 0, 64, .rw, 0x0⟩
def BCN_FEV_CFG_LOG2_SIZE : Fld := ⟨0x600108, 0, 5, .rw, 0x0⟩
def BCN_FEV_HEAD_INDEX : Fld := ⟨0x60010C, 0, 17, .rw, 0x0⟩
def BCN_FEV_TAIL_INDEX : Fld := ⟨0x600110, 0, 17, .ro, 0x0⟩
def BCN_FEV_LOST_COUNT : Fld := ⟨0x600114, 0, 32, .ro, 0x0⟩
def BCN_RX_ERR_COUNT : Fld := ⟨0x600120, 0, 32, .ro, 0x0⟩
def BCN_MSG_MSG_UNKNOWN : Fld := ⟨0x60013C, 16, 16, .ro, 0x0⟩
def BCN_MSG_NO_LANTERN : Fld := ⟨0x60013C, 0, 16, .ro, 0x0⟩
def BCN_PT_CMD_BUSY : Fld := ⟨0x600140, 31, 1, .ro, 0x0⟩
def BCN_PT_CMD_GO : Fld := ⟨0x600140, 30, 1, .wo, 0x0⟩
def BCN_PT_CMD_GATEWAY : Fld := ⟨0x600140, 16, 10, .rw, 0x0⟩
def BCN_PT_CMD_LENGTH : Fld := ⟨0x600140, 0, 11, .rw, 0x0⟩
def BCN_PT_SRC_ADDR : Fld := ⟨0x600148, 0, 64, .rw, 0x0⟩
def BCN_CAMP_AREA_ADDR : Fld := ⟨0x600180, 0, 64, .rw, 0x0⟩
def BCN_CAMP_CFG_WAVE_SIZE : Fld := ⟨0x600400, 16, 11, .rw, 0x1⟩
def BCN_CAMP_CFG_RETRIES : Fld := ⟨0x600400, 12, 4, .rw, 0x3⟩
def BCN_CAMP_CFG_ALG : Fld := ⟨0x600400, 9, 1, .rw, 0x0⟩
def BCN_CAMP_CFG_PATH : Fld := ⟨0x600400, 0, 9, .rw, 0x0⟩
def BCN_CAMP_TIMING_KEY_SLOT : Fld := ⟨0x600404, 16, 6, .rw, 0x0⟩
def BCN_CAMP_TIMING_ACK_TIMEOUT_MS : Fld := ⟨0x600404, 0, 16, .rw, 0x1388⟩
def BCN_CAMP_IMAGE_ADDR : Fld := ⟨0x600408, 0, 64, .rw, 0x0⟩
def BCN_CAMP_SIG_ADDR : Fld := ⟨0x600410, 0, 64, .rw, 0x0⟩
def BCN_CAMP_LEN_BYTES : Fld := ⟨0x600418, 0, 23, .rw, 0x0⟩
def BCN_CAMP_CMD_OP : Fld := ⟨0x60041C, 0, 2, .wo, 0x0⟩
def BCN_CAMP_STATUS_STATE : Fld := ⟨0x600420, 28, 4, .ro, 0x0⟩
def BCN_CAMP_STATUS_FAIL : Fld := ⟨0x600420, 24, 4, .ro, 0x0⟩
def BCN_CAMP_STATUS_WAVE : Fld := ⟨0x600420, 12, 10, .ro, 0x0⟩
def BCN_CAMP_STATUS_REFUSAL : Fld := ⟨0x600420, 0, 12, .ro, 0x0⟩
def BCN_CAMP_TARGETS_COUNT : Fld := ⟨0x600424, 0, 19, .ro, 0x0⟩
def BCN_CAMP_DONE_COUNT : Fld := ⟨0x600428, 0, 19, .ro, 0x0⟩
def BCN_CAMP_FAILED_COUNT : Fld := ⟨0x60042C, 0, 19, .ro, 0x0⟩
def BCN_CAMP_PROG_PERMYRIAD_STATE : Fld := ⟨0x600430, 28, 4, .ro, 0x0⟩
def BCN_CAMP_PROG_PERMYRIAD_VAL : Fld := ⟨0x600430, 0, 14, .ro, 0x0⟩
def BCN_CAMP_PROG_POSITION_VAL : Fld := ⟨0x600434, 0, 32, .ro, 0x0⟩
def BCN_CAMP_PROG_TOTAL_VAL : Fld := ⟨0x600438, 0, 32, .ro, 0x0⟩
/-! Fields of 09_tally_metering.md -/

def TLY_CTRL_ENABLE : Fld := ⟨0x700000, 31, 1, .rw, 0x0⟩
def TLY_CTRL_REFUSAL : Fld := ⟨0x700000, 16, 12, .ro, 0x0⟩
def TLY_STATUS_TOTALS_INIT : Fld := ⟨0x700004, 31, 1, .ro, 0x0⟩
def TLY_STATUS_DELTA_MODE : Fld := ⟨0x700004, 30, 1, .ro, 0x0⟩
def TLY_STATUS_TRANSIT : Fld := ⟨0x700004, 29, 1, .ro, 0x0⟩
def TLY_STATUS_SENSOR_VALID : Fld := ⟨0x700004, 28, 1, .ro, 0x0⟩
def TLY_STATUS_TEMP : Fld := ⟨0x700004, 0, 16, .ro, 0x0⟩
def TLY_EVT_BASE_ADDR : Fld := ⟨0x700040, 0, 64, .rw, 0x0⟩
def TLY_EVT_CFG_LOG2_SIZE : Fld := ⟨0x700048, 0, 5, .rw, 0x0⟩
def TLY_EVT_HEAD_INDEX : Fld := ⟨0x70004C, 0, 17, .rw, 0x0⟩
def TLY_EVT_TAIL_INDEX : Fld := ⟨0x700050, 0, 17, .ro, 0x0⟩
def TLY_EVT_LOST_COUNT : Fld := ⟨0x700054, 0, 32, .ro, 0x0⟩
def TLY_PRESET_VAL_VALUE : Fld := ⟨0x700060, 0, 64, .rw, 0x0⟩
def TLY_PRESET_CMD_GO : Fld := ⟨0x700068, 31, 1, .wo, 0x0⟩
def TLY_PRESET_CMD_REFUSAL : Fld := ⟨0x700068, 16, 12, .ro, 0x0⟩
def TLY_PRESET_CMD_INDEX : Fld := ⟨0x700068, 0, 8, .rw, 0x0⟩
def TLY_MRAM_SEQ_SEQ : Fld := ⟨0x700070, 0, 64, .ro, 0x0⟩
def TLY_MRAM_STATUS_LAST_SLOT : Fld := ⟨0x700078, 31, 1, .ro, 0x0⟩
def TLY_MRAM_STATUS_FAILS : Fld := ⟨0x700078, 0, 16, .ro, 0x0⟩
def TLY_GEN_MEAN_VALUE : Fld := ⟨0x700100, 0, 32, .ro, 0x0⟩
def TLY_GEN_RMS_VALUE : Fld := ⟨0x700104, 0, 32, .ro, 0x0⟩
def TLY_FDR_CTRL_ENABLE : Fld := ⟨0x701000, 31, 1, .rw, 0x0⟩
def TLY_FDR_CTRL_REFUSAL : Fld := ⟨0x701000, 16, 12, .ro, 0x0⟩
def TLY_FDR_CFG_NOMINAL60 : Fld := ⟨0x701004, 8, 1, .ps, 0x0⟩
def TLY_FDR_CFG_FREQ_PHASE : Fld := ⟨0x701004, 6, 2, .ps, 0x0⟩
def TLY_FDR_CFG_SAGREF : Fld := ⟨0x701004, 5, 1, .ps, 0x0⟩
def TLY_FDR_CFG_PHASE_MASK : Fld := ⟨0x701004, 0, 3, .ps, 0x7⟩
def TLY_FDR_UDIN_UDIN : Fld := ⟨0x701008, 0, 32, .ps, 0x0⟩
def TLY_FDR_PQ_THR_SWELL : Fld := ⟨0x70100C, 16, 16, .ps, 0x2AF8⟩
def TLY_FDR_PQ_THR_SAG : Fld := ⟨0x70100C, 0, 16, .ps, 0x2328⟩
def TLY_FDR_PQ_THR2_HYST : Fld := ⟨0x701010, 16, 16, .ps, 0xC8⟩
def TLY_FDR_PQ_THR2_INT : Fld := ⟨0x701010, 0, 16, .ps, 0x1F4⟩
def TLY_FDR_LATCH_N : Fld := ⟨0x701014, 0, 16, .ps, 0x32⟩
def TLY_FDR_CYCLE_VALID : Fld := ⟨0x701020, 31, 1, .ro, 0x0⟩
def TLY_FDR_CYCLE_FREQ_HELD : Fld := ⟨0x701020, 30, 1, .ro, 0x0⟩
def TLY_FDR_CYCLE_IN_EVENT : Fld := ⟨0x701020, 27, 3, .ro, 0x0⟩
def TLY_FDR_CYCLE_COUNT : Fld := ⟨0x701020, 0, 24, .ro, 0x0⟩
def TLY_FDR_FREQ_VALUE : Fld := ⟨0x701024, 0, 32, .ro, 0x0⟩
def TLY_FDR_USR_VALUE : Fld := ⟨0x701028, 0, 32, .ro, 0x0⟩
def TLY_FDR_IN_RMS_VALUE : Fld := ⟨0x70102C, 0, 32, .ro, 0x0⟩
def TLY_FDR_IN_RMS1_VALUE : Fld := ⟨0x701030, 0, 32, .ro, 0x0⟩
def TLY_FDR_RESULT_VALUE : Fld := ⟨0x701040, 0, 32, .ro, 0x0⟩
def TLY_FDR_TOTAL_VALUE : Fld := ⟨0x701200, 0, 64, .ro, 0x0⟩
def TLY_FDR_DELTA_VALUE : Fld := ⟨0x701300, 0, 32, .ro, 0x0⟩
def TLY_FDR_DELTA_STATUS_PARTIAL : Fld := ⟨0x701340, 31, 1, .ro, 0x0⟩
def TLY_FDR_DELTA_STATUS_SEQ : Fld := ⟨0x701340, 0, 16, .ro, 0x0⟩
def TLY_CH_CFG_HPF : Fld := ⟨0x703000, 8, 1, .ps, 0x1⟩
def TLY_CH_CFG_NPTS : Fld := ⟨0x703000, 0, 5, .ps, 0x1⟩
def TLY_CHG_CFG_HPF : Fld := ⟨0x704C00, 8, 1, .ps, 0x0⟩
def TLY_CHG_CFG_NPTS : Fld := ⟨0x704C00, 0, 5, .ps, 0x1⟩
def TLY_CH_KFS_KFS : Fld := ⟨0x703004, 0, 32, .ps, 0x0⟩
def TLY_CH_STATE_CLIP : Fld := ⟨0x703008, 31, 1, .w1c, 0x0⟩
def TLY_CH_GAIN_NOW_G : Fld := ⟨0x70300C, 0, 32, .ro, 0x3F800000⟩
def TLY_CH_DELAY_NOW_D : Fld := ⟨0x703010, 0, 32, .ro, 0x0⟩
def TLY_CH_CAL_T_TEMP : Fld := ⟨0x703020, 0, 16, .ps, 0x0⟩
def TLY_CH_CAL_G_GAIN : Fld := ⟨0x703024, 0, 32, .ps, 0x3F800000⟩
def TLY_CH_CAL_D_DELAY : Fld := ⟨0x703028, 0, 32, .ps, 0x0⟩
def TLY_PO_CFG_ENABLE : Fld := ⟨0x705000, 31, 1, .rw, 0x0⟩
def TLY_PO_CFG_COMM_EN : Fld := ⟨0x705000, 28, 1, .rw, 0x0⟩
def TLY_PO_CFG_REFUSAL : Fld := ⟨0x705000, 16, 12, .ro, 0x0⟩
def TLY_PO_CFG_KIND : Fld := ⟨0x705000, 14, 2, .rw, 0x0⟩
def TLY_PO_CFG_SOURCE : Fld := ⟨0x705000, 8, 5, .rw, 0x0⟩
def TLY_PO_CFG_POL : Fld := ⟨0x705000, 7, 1, .rw, 0x1⟩
def TLY_PO_CFG_WIDTH_MS : Fld := ⟨0x705000, 0, 7, .rw, 0x1E⟩
def TLY_PO_WEIGHT_WEIGHT : Fld := ⟨0x705004, 0, 32, .rw, 0x1⟩
def TLY_PO_STATUS_OVERFLOW : Fld := ⟨0x705008, 31, 1, .w1c, 0x0⟩
def TLY_PO_STATUS_BACKLOG : Fld := ⟨0x705008, 16, 5, .ro, 0x0⟩
def TLY_PO_STATUS_DROPPED : Fld := ⟨0x705008, 0, 16, .ro, 0x0⟩
def TLY_PO_COUNT_COUNT : Fld := ⟨0x70500C, 0, 32, .ro, 0x0⟩
def TLY_TH_CTRL_ENABLE : Fld := ⟨0x706000, 31, 1, .rw, 0x0⟩
def TLY_TH_CTRL_REFUSAL : Fld := ⟨0x706000, 16, 12, .ro, 0x0⟩
def TLY_TH_CFG_FLOW_PULSE : Fld := ⟨0x706004, 31, 1, .ps, 0x0⟩
def TLY_TH_CFG_DIR_EN : Fld := ⟨0x706004, 30, 1, .ps, 0x0⟩
def TLY_TH_CFG_FLOW_AT : Fld := ⟨0x706004, 29, 1, .ps, 0x0⟩
def TLY_TH_CFG_TABLE : Fld := ⟨0x706004, 24, 2, .ps, 0x0⟩
def TLY_TH_CFG_DIR_IN : Fld := ⟨0x706004, 16, 6, .ps, 0x0⟩
def TLY_TH_CFG_PULSE_IN : Fld := ⟨0x706004, 8, 6, .ps, 0x0⟩
def TLY_TH_FLOW_PORT_PORT : Fld := ⟨0x706008, 0, 32, .ps, 0x0⟩
def TLY_TH_TS_PORT_PORT : Fld := ⟨0x70600C, 0, 32, .ps, 0x0⟩
def TLY_TH_TR_PORT_PORT : Fld := ⟨0x706010, 0, 32, .ps, 0x0⟩
def TLY_TH_FLOW_SCALE_SCALE : Fld := ⟨0x706014, 0, 32, .ps, 0x0⟩
def TLY_TH_FS_KW_KW : Fld := ⟨0x706018, 0, 20, .ps, 0x0⟩
def TLY_TH_LATCH_N : Fld := ⟨0x70601C, 0, 16, .ps, 0xA⟩
def TLY_TH_INTERVAL_S : Fld := ⟨0x706020, 0, 16, .ps, 0x258⟩
def TLY_TH_STATUS_VALID : Fld := ⟨0x706024, 31, 1, .ro, 0x0⟩
def TLY_TH_STATUS_TEMP_CLAMP : Fld := ⟨0x706024, 30, 1, .ro, 0x0⟩
def TLY_TH_STATUS_DELTA_SAT : Fld := ⟨0x706024, 29, 1, .ro, 0x0⟩
def TLY_TH_STATUS_SOURCE_FAIL : Fld := ⟨0x706024, 28, 1, .ro, 0x0⟩
def TLY_TH_STATUS_REVERSALS : Fld := ⟨0x706024, 0, 8, .ro, 0x0⟩
def TLY_TH_FLOW_VALUE : Fld := ⟨0x706028, 0, 32, .ro, 0x0⟩
def TLY_TH_TS_VALUE : Fld := ⟨0x70602C, 0, 32, .ro, 0x0⟩
def TLY_TH_TR_VALUE : Fld := ⟨0x706030, 0, 32, .ro, 0x0⟩
def TLY_TH_POWER_VALUE : Fld := ⟨0x706034, 0, 32, .ro, 0x0⟩
def TLY_TH_TOTAL_VALUE : Fld := ⟨0x706040, 0, 64, .ro, 0x0⟩
def TLY_TH_DELTA_VALUE : Fld := ⟨0x706060, 0, 32, .ro, 0x0⟩
def TLY_TH_DELTA_STATUS_PARTIAL : Fld := ⟨0x706068, 31, 1, .ro, 0x0⟩
def TLY_TH_DELTA_STATUS_SEQ : Fld := ⟨0x706068, 0, 16, .ro, 0x0⟩
def TLY_TAB_T0_T0 : Fld := ⟨0x708000, 0, 32, .ps, 0x0⟩
def TLY_TAB_STEP_STEP : Fld := ⟨0x708004, 0, 32, .ps, 0x0⟩
def TLY_TAB_NPTS_NPTS : Fld := ⟨0x708008, 0, 8, .ps, 0x0⟩
def TLY_TAB_DENSITY_DENSITY : Fld := ⟨0x708100, 0, 32, .ps, 0x0⟩
def TLY_TAB_ENTHALPY_ENTHALPY : Fld := ⟨0x708104, 0, 32, .ps, 0x0⟩
/-! Fields of 10_field_ethernet_and_tide.md -/

def NET_PORT_CTRL_ENABLE : Fld := ⟨0x800000, 31, 1, .rw, 0x0⟩
def NET_PORT_CTRL_REFUSAL : Fld := ⟨0x800000, 16, 12, .ro, 0x0⟩
def NET_PORT_CTRL_RATE : Fld := ⟨0x800000, 8, 4, .rw, 0x0⟩
def NET_PORT_CTRL_IF : Fld := ⟨0x800000, 4, 2, .rw, 0x0⟩
def NET_PORT_STATUS_LINK : Fld := ⟨0x800004, 31, 1, .ro, 0x0⟩
def NET_PORT_STATUS_RATE_SEEN : Fld := ⟨0x800004, 8, 4, .ro, 0x0⟩
def NET_PORT_STATUS_LINK_DOWNS : Fld := ⟨0x800004, 0, 8, .ro, 0x0⟩
def NET_PORT_MAC_LO_OCTETS_0_3 : Fld := ⟨0x800008, 0, 32, .rw, 0x0⟩
def NET_PORT_MAC_HI_OCTETS_4_5 : Fld := ⟨0x80000C, 0, 16, .rw, 0x0⟩
def NET_PORT_NEXTHOP_LO_OCTETS_0_3 : Fld := ⟨0x800010, 0, 32, .rw, 0x0⟩
def NET_PORT_NEXTHOP_HI_OCTETS_4_5 : Fld := ⟨0x800014, 0, 16, .rw, 0x0⟩
def NET_PORT_IPV4_ADDR : Fld := ⟨0x800018, 0, 32, .rw, 0x0⟩
def NET_PORT_IPV6_ADDR : Fld := ⟨0x800020, 0, 32, .rw, 0x0⟩
def NET_PORT_OTHER_OTHER_TC : Fld := ⟨0x800030, 24, 3, .rw, 0x0⟩
def NET_PORT_OTHER_OTHER_MAX : Fld := ⟨0x800030, 0, 11, .rw, 0x5EE⟩
def NET_PORT_TX_LAT_LAT : Fld := ⟨0x800034, 0, 32, .rw, 0x0⟩
def NET_PORT_RX_LAT_LAT : Fld := ⟨0x800038, 0, 32, .rw, 0x0⟩
def NET_PORT_RXQ_BASE_ADDR : Fld := ⟨0x800040, 0, 64, .rw, 0x0⟩
def NET_PORT_RXQ_CFG_LOG2_SIZE : Fld := ⟨0x800048, 0, 4, .rw, 0x0⟩
def NET_PORT_RXQ_HEAD_INDEX : Fld := ⟨0x80004C, 0, 13, .rw, 0x0⟩
def NET_PORT_RXQ_TAIL_INDEX : Fld := ⟨0x800050, 0, 13, .ro, 0x0⟩
def NET_PORT_TXQ_BASE_ADDR : Fld := ⟨0x800058, 0, 64, .rw, 0x0⟩
def NET_PORT_TXQ_CFG_LOG2_SIZE : Fld := ⟨0x800060, 0, 4, .rw, 0x0⟩
def NET_PORT_TXQ_HEAD_INDEX : Fld := ⟨0x800064, 0, 13, .ro, 0x0⟩
def NET_PORT_TXQ_TAIL_INDEX : Fld := ⟨0x800068, 0, 13, .rw, 0x0⟩
def NET_PORT_MDIO_BUSY : Fld := ⟨0x800070, 31, 1, .w1s, 0x0⟩
def NET_PORT_MDIO_C45 : Fld := ⟨0x800070, 30, 1, .rw, 0x0⟩
def NET_PORT_MDIO_OP : Fld := ⟨0x800070, 28, 2, .rw, 0x0⟩
def NET_PORT_MDIO_PHYAD : Fld := ⟨0x800070, 23, 5, .rw, 0x0⟩
def NET_PORT_MDIO_REGAD : Fld := ⟨0x800070, 18, 5, .rw, 0x0⟩
def NET_PORT_MDIO_DATA : Fld := ⟨0x800070, 0, 16, .rw, 0x0⟩
def NET_PORT_COUNT_COUNT : Fld := ⟨0x800080, 0, 32, .ro, 0x0⟩
def NET_PORT_MCAST_LO_OCTETS_0_3 : Fld := ⟨0x800100, 0, 32, .rw, 0x0⟩
def NET_PORT_MCAST_HI_VALID : Fld := ⟨0x800104, 31, 1, .rw, 0x0⟩
def NET_PORT_MCAST_HI_OCTETS_4_5 : Fld := ⟨0x800104, 0, 16, .rw, 0x0⟩
def NET_GCL_ADMIN_BASE_NS_NANOSECONDS : Fld := ⟨0x800208, 0, 30, .ps, 0x0⟩
def NET_GCL_ADMIN_BASE_LO_SECONDS_LO : Fld := ⟨0x80020C, 0, 32, .ps, 0x0⟩
def NET_GCL_ADMIN_BASE_HI_SECONDS_HI : Fld := ⟨0x800210, 0, 16, .ps, 0x0⟩
def NET_GCL_ADMIN_CYCLE_CYCLE_NS : Fld := ⟨0x800214, 0, 32, .ps, 0x0⟩
def NET_GCL_ADMIN_LEN_LEN : Fld := ⟨0x800218, 0, 9, .ps, 0x0⟩
def NET_GCL_STATUS_PENDING : Fld := ⟨0x800220, 31, 1, .ro, 0x0⟩
def NET_GCL_STATUS_ALIGNED : Fld := ⟨0x800220, 30, 1, .ro, 0x0⟩
def NET_GCL_STATUS_OPER_LEN : Fld := ⟨0x800220, 0, 9, .ro, 0x0⟩
def NET_GCL_CHANGE_TIME_NS_NANOSECONDS : Fld := ⟨0x800224, 0, 30, .ro, 0x0⟩
def NET_GCL_CHANGE_TIME_LO_SECONDS_LO : Fld := ⟨0x800228, 0, 32, .ro, 0x0⟩
def NET_GCL_CHANGE_TIME_HI_SECONDS_HI : Fld := ⟨0x80022C, 0, 16, .ro, 0x0⟩
def NET_GCL_OPER_BASE_NS_NANOSECONDS : Fld := ⟨0x800230, 0, 30, .ro, 0x0⟩
def NET_GCL_OPER_BASE_LO_SECONDS_LO : Fld := ⟨0x800234, 0, 32, .ro, 0x0⟩
def NET_GCL_OPER_BASE_HI_SECONDS_HI : Fld := ⟨0x800238, 0, 16, .ro, 0x0⟩
def NET_GCL_OPER_CYCLE_CYCLE_NS : Fld := ⟨0x80023C, 0, 32, .ro, 0x0⟩
def NET_GCL_ADMIN_ENTRY_GATES : Fld := ⟨0x801000, 24, 8, .ps, 0x0⟩
def NET_GCL_ADMIN_ENTRY_INTERVAL : Fld := ⟨0x801000, 0, 24, .ps, 0x0⟩
def NET_GCL_OPER_ENTRY_GATES : Fld := ⟨0x801400, 24, 8, .ro, 0x0⟩
def NET_GCL_OPER_ENTRY_INTERVAL : Fld := ⟨0x801400, 0, 24, .ro, 0x0⟩
def NET_PTP_CFG_STATE : Fld := ⟨0x800300, 30, 2, .rw, 0x0⟩
def NET_PTP_CFG_TRANSPORT : Fld := ⟨0x800300, 28, 2, .rw, 0x0⟩
def NET_PTP_CFG_P2P : Fld := ⟨0x800300, 27, 1, .rw, 0x0⟩
def NET_PTP_CFG_ONE_STEP_TX : Fld := ⟨0x800300, 26, 1, .rw, 0x0⟩
def NET_PTP_CFG_LOG_SYNC : Fld := ⟨0x800300, 20, 4, .rw, 0x0⟩
def NET_PTP_CFG_LOG_DELAY : Fld := ⟨0x800300, 16, 4, .rw, 0x0⟩
def NET_PTP_DELAY_MEAN_DELAY : Fld := ⟨0x800304, 0, 32, .ro, 0x0⟩
def NET_PTP_RATIO_NRR : Fld := ⟨0x800308, 0, 32, .ro, 0x0⟩
def NET_PTP_COUNT_SYNC_RX : Fld := ⟨0x80030C, 16, 16, .ro, 0x0⟩
def NET_PTP_COUNT_SYNC_TX : Fld := ⟨0x80030C, 0, 16, .ro, 0x0⟩
def TID_CTRL_ENABLE : Fld := ⟨0x900000, 31, 1, .rw, 0x0⟩
def TID_CTRL_REFUSAL : Fld := ⟨0x900000, 16, 12, .ro, 0x0⟩
def TID_TIME_NS_NANOSECONDS : Fld := ⟨0x900010, 0, 30, .ro, 0x0⟩
def TID_TIME_LO_SECONDS_LO : Fld := ⟨0x900014, 0, 32, .ro, 0x0⟩
def TID_TIME_HI_FRACTION : Fld := ⟨0x900018, 16, 16, .ro, 0x0⟩
def TID_TIME_HI_SECONDS_HI : Fld := ⟨0x900018, 0, 16, .ro, 0x0⟩
def TID_ADJ_CMD_OP : Fld := ⟨0x900020, 0, 2, .wo, 0x0⟩
def TID_ADJ_VAL_NS_NANOSECONDS : Fld := ⟨0x900024, 0, 30, .rw, 0x0⟩
def TID_ADJ_VAL_LO_SECONDS_LO : Fld := ⟨0x900028, 0, 32, .rw, 0x0⟩
def TID_ADJ_VAL_HI_SECONDS_HI : Fld := ⟨0x90002C, 0, 16, .rw, 0x0⟩
def TID_ADJ_OFS_OFFSET_NS : Fld := ⟨0x900030, 0, 32, .rw, 0x0⟩
def TID_SLEW_SLEW_MAX : Fld := ⟨0x900034, 0, 19, .rw, 0x2710⟩
def TID_SLEW_LEFT_NS : Fld := ⟨0x900038, 0, 32, .ro, 0x0⟩
def TID_SELECT_AUTO : Fld := ⟨0x900040, 31, 1, .rw, 0x0⟩
def TID_SELECT_WIDE : Fld := ⟨0x900040, 30, 1, .w1c, 0x0⟩
def TID_SELECT_SWITCHES : Fld := ⟨0x900040, 20, 8, .ro, 0x0⟩
def TID_SELECT_LOSS_INTERVALS : Fld := ⟨0x900040, 12, 8, .rw, 0x40⟩
def TID_SELECT_ACTIVE : Fld := ⟨0x900040, 0, 1, .rw, 0x0⟩
def TID_DOM_CFG_ENABLE : Fld := ⟨0x900100, 31, 1, .rw, 0x0⟩
def TID_DOM_CFG_REFUSAL : Fld := ⟨0x900100, 16, 12, .ro, 0x0⟩
def TID_DOM_CFG_DOMAIN_NUMBER : Fld := ⟨0x900100, 8, 8, .rw, 0x0⟩
def TID_DOM_CFG_STEP_EN : Fld := ⟨0x900100, 2, 1, .rw, 0x0⟩
def TID_DOM_CFG_PROFILE : Fld := ⟨0x900100, 0, 2, .rw, 0x0⟩
def TID_DOM_STATUS_SERVO : Fld := ⟨0x900104, 30, 2, .ro, 0x0⟩
def TID_DOM_STATUS_SAMPLES : Fld := ⟨0x900104, 0, 16, .ro, 0x0⟩
def TID_DOM_OFFSET_OFFSET : Fld := ⟨0x900108, 0, 64, .ro, 0x0⟩
def TID_DOM_FREQ_FREQ : Fld := ⟨0x900110, 0, 32, .ro, 0x0⟩
def TID_DOM_GAIN_KP : Fld := ⟨0x900114, 16, 16, .rw, 0x4000⟩
def TID_DOM_GAIN_KI : Fld := ⟨0x900114, 0, 16, .rw, 0x400⟩
def TID_DOM_LIMITS_LOCK_NS : Fld := ⟨0x900118, 16, 16, .rw, 0x64⟩
def TID_DOM_LIMITS_ACQ_STEP : Fld := ⟨0x900118, 0, 16, .rw, 0x3E8⟩
def TIDE_OUT_CTRL_ENABLE : Fld := ⟨0x900400, 31, 1, .rw, 0x0⟩
def TIDE_OUT_CTRL_REFUSAL : Fld := ⟨0x900400, 16, 12, .ro, 0x0⟩
def TIDE_OUT_CTRL_MODE : Fld := ⟨0x900400, 4, 2, .rw, 0x0⟩
def TIDE_OUT_CTRL_POL : Fld := ⟨0x900400, 3, 1, .rw, 0x0⟩
def TIDE_OUT_CTRL_OWNED : Fld := ⟨0x900400, 2, 1, .rw, 0x0⟩
def TIDE_OUT_CTRL_SAFE_REL : Fld := ⟨0x900400, 1, 1, .rw, 0x0⟩
def TIDE_OUT_START_NS_NANOSECONDS : Fld := ⟨0x900404, 0, 30, .rw, 0x0⟩
def TIDE_OUT_START_LO_SECONDS_LO : Fld := ⟨0x900408, 0, 32, .rw, 0x0⟩
def TIDE_OUT_START_HI_SECONDS_HI : Fld := ⟨0x90040C, 0, 16, .rw, 0x0⟩
def TIDE_OUT_PERIOD_NS : Fld := ⟨0x900410, 0, 32, .rw, 0x0⟩
def TIDE_OUT_WIDTH_NS : Fld := ⟨0x900414, 0, 32, .rw, 0x0⟩
def TIDE_OUT_STATUS_SKIPPED : Fld := ⟨0x900418, 31, 1, .w1c, 0x0⟩
def TIDE_OUT_STATUS_REPEAT : Fld := ⟨0x900418, 30, 1, .w1c, 0x0⟩
def TIDE_OUT_STATUS_DONE : Fld := ⟨0x900418, 29, 1, .ro, 0x0⟩
def TIDE_OUT_STATUS_PULSES : Fld := ⟨0x900418, 0, 16, .ro, 0x0⟩
def TIDE_IN_CFG_ENABLE : Fld := ⟨0x900600, 31, 1, .rw, 0x0⟩
def TIDE_IN_CFG_REFUSAL : Fld := ⟨0x900600, 16, 12, .ro, 0x0⟩
def TIDE_IN_CFG_EDGE : Fld := ⟨0x900600, 0, 2, .rw, 0x0⟩
def TIDE_IN_LAT_IN_LAT : Fld := ⟨0x900604, 0, 32, .rw, 0x0⟩
def TIDE_IN_STATUS_OVERFLOW : Fld := ⟨0x900608, 31, 1, .w1c, 0x0⟩
def TIDE_IN_STATUS_COUNT : Fld := ⟨0x900608, 0, 5, .ro, 0x0⟩
def TIDE_IN_TS_NS_RISING : Fld := ⟨0x90060C, 31, 1, .ro, 0x0⟩
def TIDE_IN_TS_NS_VALID : Fld := ⟨0x90060C, 30, 1, .ro, 0x0⟩
def TIDE_IN_TS_NS_TS_NS : Fld := ⟨0x90060C, 0, 30, .ro, 0x0⟩
def TIDE_IN_TS_LO_TS_S_LO : Fld := ⟨0x900610, 0, 32, .ro, 0x0⟩
def TIDE_IN_TS_HI_TS_S_HI : Fld := ⟨0x900614, 0, 32, .ro, 0x0⟩
/-! Fields of 11_field_bus_and_meter_bus.md -/

def FBS_CTL_CTRL_ENABLE : Fld := ⟨0xA00000, 31, 1, .rw, 0x0⟩
def FBS_CTL_CTRL_REFUSAL : Fld := ⟨0xA00000, 16, 12, .ro, 0x0⟩
def FBS_CTL_CTRL_FORMATS : Fld := ⟨0xA00000, 4, 2, .rw, 0x0⟩
def FBS_CTL_CTRL_OPMODE : Fld := ⟨0xA00000, 0, 1, .rw, 0x0⟩
def FBS_CTL_STATUS_STATE : Fld := ⟨0xA00004, 30, 2, .ro, 0x0⟩
def FBS_CTL_STATUS_RESTRICTED : Fld := ⟨0xA00004, 29, 1, .ro, 0x0⟩
def FBS_CTL_STATUS_TEC : Fld := ⟨0xA00004, 8, 8, .ro, 0x0⟩
def FBS_CTL_STATUS_REC : Fld := ⟨0xA00004, 0, 8, .ro, 0x0⟩
def FBS_CTL_NBT_NBRP : Fld := ⟨0xA00008, 27, 5, .ps, 0x0⟩
def FBS_CTL_NBT_NTSEG1 : Fld := ⟨0xA00008, 19, 8, .ps, 0x0⟩
def FBS_CTL_NBT_NTSEG2 : Fld := ⟨0xA00008, 12, 7, .ps, 0x0⟩
def FBS_CTL_NBT_NSJW : Fld := ⟨0xA00008, 0, 7, .ps, 0x0⟩
def FBS_CTL_DBT_DBRP : Fld := ⟨0xA0000C, 27, 5, .ps, 0x0⟩
def FBS_CTL_DBT_DTSEG1 : Fld := ⟨0xA0000C, 16, 5, .ps, 0x0⟩
def FBS_CTL_DBT_DTSEG2 : Fld := ⟨0xA0000C, 8, 4, .ps, 0x0⟩
def FBS_CTL_DBT_TDC_OFFSET : Fld := ⟨0xA0000C, 0, 7, .ps, 0x0⟩
def FBS_CTL_EXT_EXT_MAX_BITS : Fld := ⟨0xA00010, 0, 15, .ps, 0x0⟩
def FBS_CTL_RATE_T_N : Fld := ⟨0xA00014, 16, 16, .ro, 0x0⟩
def FBS_CTL_RATE_T_D : Fld := ⟨0xA00014, 0, 16, .ro, 0x0⟩
def FBS_CTL_EXTEND_NS : Fld := ⟨0xA00018, 0, 32, .ro, 0x0⟩
def FBS_CTL_NOMATCH_DEST : Fld := ⟨0xA0001C, 0, 2, .rw, 0x0⟩
def FBS_CTL_MEAS_MEASURE : Fld := ⟨0xA00020, 31, 1, .w1s, 0x0⟩
def FBS_CTL_MEAS_DONE : Fld := ⟨0xA00020, 30, 1, .ro, 0x0⟩
def FBS_CTL_MEAS_SHORTEST : Fld := ⟨0xA00020, 16, 14, .ro, 0x0⟩
def FBS_CTL_MEAS_WINDOW_MS : Fld := ⟨0xA00020, 0, 16, .rw, 0x0⟩
def FBS_CTL_MEAS_CAND_RATE : Fld := ⟨0xA00024, 16, 4, .ro, 0x0⟩
def FBS_CTL_MEAS_CAND_SCORE : Fld := ⟨0xA00024, 0, 14, .ro, 0x0⟩
def FBS_CTL_COUNT_COUNT : Fld := ⟨0xA00040, 0, 32, .ro, 0x0⟩
def FBS_FIFO_BASE_ADDR : Fld := ⟨0xA00200, 0, 64, .rw, 0x0⟩
def FBS_FIFO_CFG_DATA_MAX : Fld := ⟨0xA00208, 0, 2, .rw, 0x0⟩
def FBS_FIFO_HEAD_INDEX : Fld := ⟨0xA0020C, 0, 7, .rw, 0x0⟩
def FBS_FIFO_TAIL_INDEX : Fld := ⟨0xA00210, 0, 7, .ro, 0x0⟩
def FBS_FLT_ID_VALUE : Fld := ⟨0xA00800, 0, 29, .rw, 0x0⟩
def FBS_FLT_MASK_VALUE : Fld := ⟨0xA00804, 0, 29, .rw, 0x0⟩
def FBS_FLT_CFG_VALID : Fld := ⟨0xA00808, 31, 1, .rw, 0x0⟩
def FBS_FLT_CFG_DEST : Fld := ⟨0xA00808, 8, 2, .rw, 0x0⟩
def FBS_FLT_CFG_TYPE_IDE : Fld := ⟨0xA00808, 4, 2, .rw, 0x0⟩
def FBS_FLT_CFG_TYPE_RTR : Fld := ⟨0xA00808, 2, 2, .rw, 0x0⟩
def FBS_FLT_CFG_TYPE_FMT : Fld := ⟨0xA00808, 0, 2, .rw, 0x0⟩
def FBS_CLS_CFG_BOUND : Fld := ⟨0xA00400, 31, 1, .rw, 0x0⟩
def FBS_CLS_CFG_COMM_EN : Fld := ⟨0xA00400, 28, 1, .rw, 0x0⟩
def FBS_CLS_CFG_PATH : Fld := ⟨0xA00400, 0, 9, .rw, 0x0⟩
def FBS_CLS_ADDR_ADDR : Fld := ⟨0xA00408, 0, 64, .rw, 0x0⟩
def FBS_CLS_SUBMIT_ACCEPTED : Fld := ⟨0xA00410, 31, 1, .ro, 0x0⟩
def FBS_CLS_SUBMIT_CODE : Fld := ⟨0xA00410, 16, 12, .ro, 0x0⟩
def FBS_CLS_SUBMIT_SEQ : Fld := ⟨0xA00410, 0, 16, .ro, 0x0⟩
def FBS_CLS_CANCEL_SEQ_SEQ : Fld := ⟨0xA00414, 0, 16, .rw, 0x0⟩
def FBS_CLS_CANCEL_CODE : Fld := ⟨0xA00418, 0, 12, .ro, 0x0⟩
def FBS_CLS_PROG_FETCHED_SEQ : Fld := ⟨0xA0041C, 16, 16, .ro, 0x0⟩
def FBS_CLS_PROG_SENT_SEQ : Fld := ⟨0xA0041C, 0, 16, .ro, 0x0⟩
def MBS_CFG_ENABLE : Fld := ⟨0xA81000, 31, 1, .rw, 0x0⟩
def MBS_CFG_COMM_EN : Fld := ⟨0xA81000, 30, 1, .rw, 0x0⟩
def MBS_CFG_REFUSAL : Fld := ⟨0xA81000, 16, 12, .ro, 0x0⟩
def MBS_CFG_BAUD : Fld := ⟨0xA81000, 8, 3, .rw, 0x3⟩
def MBS_CFG_FRAME_CHECK : Fld := ⟨0xA81000, 6, 1, .rw, 0x0⟩
def MBS_CFG_HALF_DUPLEX : Fld := ⟨0xA81000, 5, 1, .rw, 0x0⟩
def MBS_CFG_STOP2 : Fld := ⟨0xA81000, 4, 1, .rw, 0x1⟩
def MBS_CFG_PARITY : Fld := ⟨0xA81000, 0, 2, .rw, 0x0⟩
def MBS_TIMING_GAP : Fld := ⟨0xA81004, 16, 8, .rw, 0x16⟩
def MBS_TIMING_TRAIL : Fld := ⟨0xA81004, 8, 5, .rw, 0x0⟩
def MBS_TIMING_DE_LEAD : Fld := ⟨0xA81004, 0, 5, .rw, 0x10⟩
def MBS_RESP_RESP_BITS : Fld := ⟨0xA81008, 16, 16, .rw, 0x14A⟩
def MBS_RESP_RESP_MS : Fld := ⟨0xA81008, 0, 16, .rw, 0x32⟩
def MBS_CMD_SEND : Fld := ⟨0xA8100C, 31, 1, .wo, 0x0⟩
def MBS_CMD_LENGTH : Fld := ⟨0xA8100C, 0, 10, .wo, 0x0⟩
def MBS_STATUS_BUSY : Fld := ⟨0xA81010, 31, 1, .ro, 0x0⟩
def MBS_STATUS_RX_DONE : Fld := ⟨0xA81010, 30, 1, .w1c, 0x0⟩
def MBS_STATUS_TIMEOUT : Fld := ⟨0xA81010, 29, 1, .w1c, 0x0⟩
def MBS_STATUS_BAD_FRAME : Fld := ⟨0xA81010, 28, 1, .ro, 0x0⟩
def MBS_STATUS_CHAR_ERR : Fld := ⟨0xA81010, 27, 1, .ro, 0x0⟩
def MBS_STATUS_OVERRUN : Fld := ⟨0xA81010, 26, 1, .ro, 0x0⟩
def MBS_STATUS_RX_LEN : Fld := ⟨0xA81010, 16, 10, .ro, 0x0⟩
def MBS_STATUS_REFUSAL : Fld := ⟨0xA81010, 0, 12, .ro, 0x0⟩
def MBS_COUNT_PARITY : Fld := ⟨0xA81014, 16, 16, .ro, 0x0⟩
def MBS_COUNT_FRAMING : Fld := ⟨0xA81014, 0, 16, .ro, 0x0⟩
/-! Fields of 12_almanac.md -/

def ALM_CTRL_ENABLE : Fld := ⟨0xB00000, 31, 1, .rw, 0x0⟩
def ALM_CTRL_REFUSAL : Fld := ⟨0xB00000, 16, 12, .ro, 0x0⟩
def ALM_STATUS_BUSY : Fld := ⟨0xB00004, 31, 1, .ro, 0x0⟩
def ALM_STATUS_OSF : Fld := ⟨0xB00004, 30, 1, .ro, 0x1⟩
def ALM_STATUS_REFUSAL : Fld := ⟨0xB00004, 0, 12, .ro, 0x0⟩
def ALM_NOW_SUB_OSF : Fld := ⟨0xB00010, 31, 1, .ro, 0x1⟩
def ALM_NOW_SUB_WEEKDAY : Fld := ⟨0xB00010, 16, 3, .ro, 0x0⟩
def ALM_NOW_SUB_SUB : Fld := ⟨0xB00010, 0, 15, .ro, 0x0⟩
def ALM_NOW_TIME_HOUR : Fld := ⟨0xB00014, 16, 5, .ro, 0x0⟩
def ALM_NOW_TIME_MINUTE : Fld := ⟨0xB00014, 8, 6, .ro, 0x0⟩
def ALM_NOW_TIME_SECOND : Fld := ⟨0xB00014, 0, 6, .ro, 0x0⟩
def ALM_NOW_DATE_YEAR : Fld := ⟨0xB00018, 16, 12, .ro, 0x7D0⟩
def ALM_NOW_DATE_MONTH : Fld := ⟨0xB00018, 8, 4, .ro, 0x1⟩
def ALM_NOW_DATE_DAY : Fld := ⟨0xB00018, 0, 5, .ro, 0x1⟩
def ALM_SET_SUB_SET_WD : Fld := ⟨0xB00020, 31, 1, .rw, 0x0⟩
def ALM_SET_SUB_WEEKDAY : Fld := ⟨0xB00020, 16, 3, .rw, 0x0⟩
def ALM_SET_SUB_SUB : Fld := ⟨0xB00020, 0, 15, .rw, 0x0⟩
def ALM_SET_TIME_HOUR : Fld := ⟨0xB00024, 16, 5, .rw, 0x0⟩
def ALM_SET_TIME_MINUTE : Fld := ⟨0xB00024, 8, 6, .rw, 0x0⟩
def ALM_SET_TIME_SECOND : Fld := ⟨0xB00024, 0, 6, .rw, 0x0⟩
def ALM_SET_DATE_YEAR : Fld := ⟨0xB00028, 16, 12, .rw, 0x0⟩
def ALM_SET_DATE_MONTH : Fld := ⟨0xB00028, 8, 4, .rw, 0x0⟩
def ALM_SET_DATE_DAY : Fld := ⟨0xB00028, 0, 5, .rw, 0x0⟩
def ALM_SHIFT_K : Fld := ⟨0xB0002C, 0, 17, .rw, 0x0⟩
def ALM_CMD_OP : Fld := ⟨0xB00030, 0, 2, .wo, 0x0⟩
def ALM_APPLIED_TIDE_NS_NANOSECONDS : Fld := ⟨0xB00034, 0, 30, .ro, 0x0⟩
def ALM_APPLIED_TIDE_LO_SECONDS_LO : Fld := ⟨0xB00038, 0, 32, .ro, 0x0⟩
def ALM_APPLIED_TIDE_HI_SECONDS_HI : Fld := ⟨0xB0003C, 0, 16, .ro, 0x0⟩
def ALM_TAI_OFFSET_OFFSET : Fld := ⟨0xB00040, 0, 16, .rw, 0x0⟩
def ALM_ALARM_CTRL_ENABLE : Fld := ⟨0xB00100, 31, 1, .rw, 0x0⟩
def ALM_ALARM_CTRL_REFUSAL : Fld := ⟨0xB00100, 16, 12, .ro, 0x0⟩
def ALM_ALARM_CTRL_WEEKDAY : Fld := ⟨0xB00100, 8, 3, .rw, 0x0⟩
def ALM_ALARM_CTRL_MASK : Fld := ⟨0xB00100, 0, 7, .rw, 0x0⟩
def ALM_ALARM_TIME_HOUR : Fld := ⟨0xB00104, 16, 5, .rw, 0x0⟩
def ALM_ALARM_TIME_MINUTE : Fld := ⟨0xB00104, 8, 6, .rw, 0x0⟩
def ALM_ALARM_TIME_SECOND : Fld := ⟨0xB00104, 0, 6, .rw, 0x0⟩
def ALM_ALARM_DATE_YEAR : Fld := ⟨0xB00108, 16, 12, .rw, 0x7D0⟩
def ALM_ALARM_DATE_MONTH : Fld := ⟨0xB00108, 8, 4, .rw, 0x1⟩
def ALM_ALARM_DATE_DAY : Fld := ⟨0xB00108, 0, 5, .rw, 0x1⟩
def ALM_ALARM_STATUS_FIRED : Fld := ⟨0xB0010C, 31, 1, .w1c, 0x0⟩
def ALM_ALARM_STATUS_SKIPPED : Fld := ⟨0xB0010C, 30, 1, .w1c, 0x0⟩
def ALM_ALARM_STATUS_REPEAT : Fld := ⟨0xB0010C, 29, 1, .w1c, 0x0⟩
def ALM_ALARM_STATUS_COUNT : Fld := ⟨0xB0010C, 0, 16, .ro, 0x0⟩
/-! Fields of 13_berths_mast_lock.md -/

def BTH_CTRL_ENABLE : Fld := ⟨0xC00000, 31, 1, .ro, 0x1⟩
def BTH_CTRL_REFUSAL : Fld := ⟨0xC00000, 16, 12, .ro, 0x0⟩
def BTH_TX_DATA_WORD : Fld := ⟨0xC00100, 0, 32, .rw, 0x0⟩
def BTH_TX_PEER_PEER : Fld := ⟨0xC00104, 0, 5, .rw, 0x0⟩
def BTH_TX_POST_POSTED : Fld := ⟨0xC00108, 31, 1, .ro, 0x0⟩
def BTH_TX_POST_WOKE : Fld := ⟨0xC00108, 30, 1, .ro, 0x0⟩
def BTH_RX_PEER_PEER : Fld := ⟨0xC00200, 0, 5, .rw, 0x0⟩
def BTH_RX_TAKE_VALID : Fld := ⟨0xC00208, 63, 1, .ro, 0x0⟩
def BTH_RX_TAKE_EPOCH : Fld := ⟨0xC00208, 37, 4, .ro, 0x0⟩
def BTH_RX_TAKE_SENDER : Fld := ⟨0xC00208, 32, 5, .ro, 0x0⟩
def BTH_RX_TAKE_WORD : Fld := ⟨0xC00208, 0, 32, .ro, 0x0⟩
def BTH_RX_ANY_VALID : Fld := ⟨0xC00210, 63, 1, .ro, 0x0⟩
def BTH_RX_ANY_EPOCH : Fld := ⟨0xC00210, 37, 4, .ro, 0x0⟩
def BTH_RX_ANY_SENDER : Fld := ⟨0xC00210, 32, 5, .ro, 0x0⟩
def BTH_RX_ANY_WORD : Fld := ⟨0xC00210, 0, 32, .ro, 0x0⟩
def BTH_FULL_FULL : Fld := ⟨0xC01000, 0, 32, .ro, 0x0⟩
def BTH_LOST_LOST : Fld := ⟨0xC01100, 0, 32, .w1c, 0x0⟩
def BTH_EPOCH_EPOCHS : Fld := ⟨0xC01200, 0, 32, .ro, 0x0⟩
def BTH_COUNT_FULL_REFUSED : Fld := ⟨0xC01300, 16, 16, .ro, 0x0⟩
def BTH_COUNT_DISCARDED : Fld := ⟨0xC01300, 0, 16, .ro, 0x0⟩
def MST_CTRL_ENABLE : Fld := ⟨0xC80000, 31, 1, .ro, 0x1⟩
def MST_CTRL_REFUSAL : Fld := ⟨0xC80000, 16, 12, .ro, 0x0⟩
def MST_CORE_STATE_HELD : Fld := ⟨0xC80100, 31, 1, .ro, 0x0⟩
def MST_CORE_STATE_VECTOR : Fld := ⟨0xC80100, 16, 10, .ro, 0x0⟩
def MST_CORE_STATE_RL : Fld := ⟨0xC80100, 8, 5, .ro, 0x0⟩
def MST_CORE_STATE_BASE : Fld := ⟨0xC80100, 0, 5, .ro, 0x0⟩
def MST_CORE_COUNT_CLAIMS : Fld := ⟨0xC80104, 16, 16, .ro, 0x0⟩
def MST_CORE_COUNT_SPURIOUS : Fld := ⟨0xC80104, 0, 16, .ro, 0x0⟩
def MST_SRC_CFG_ON : Fld := ⟨0xC90000, 31, 1, .rw, 0x0⟩
def MST_SRC_CFG_EDGE : Fld := ⟨0xC90000, 30, 1, .ro, 0x0⟩
def MST_SRC_CFG_HOST_EN : Fld := ⟨0xC90000, 29, 1, .rw, 0x0⟩
def MST_SRC_CFG_HOST_VEC : Fld := ⟨0xC90000, 16, 6, .rw, 0x0⟩
def MST_SRC_CFG_PRIO : Fld := ⟨0xC90000, 0, 4, .rw, 0x0⟩
def MST_SRC_TARGET_MASK : Fld := ⟨0xC90004, 0, 24, .rw, 0x0⟩
def MST_SRC_MOD_MIN_INTERVAL_US : Fld := ⟨0xC90008, 0, 16, .rw, 0x0⟩
def MST_SRC_STATE_PEND : Fld := ⟨0xC9000C, 31, 1, .w1s, 0x0⟩
def MST_SRC_STATE_ACTIVE : Fld := ⟨0xC9000C, 30, 1, .ro, 0x0⟩
def MST_SRC_STATE_OWNER : Fld := ⟨0xC9000C, 24, 5, .ro, 0x0⟩
def MST_SRC_STATE_COUNT : Fld := ⟨0xC9000C, 16, 4, .ro, 0x0⟩
def MST_SRC_STATE_LEVEL : Fld := ⟨0xC9000C, 0, 1, .ro, 0x0⟩
def LCK_CTRL_ENABLE : Fld := ⟨0xD00000, 31, 1, .ro, 0x1⟩
def LCK_CTRL_REFUSAL : Fld := ⟨0xD00000, 16, 12, .ro, 0x0⟩
def LCK_CFG_MODE : Fld := ⟨0xD01000, 31, 1, .ps, 0x0⟩
def LCK_CFG_WINDOW : Fld := ⟨0xD01000, 0, 16, .ps, 0x1000⟩
def LCK_STATUS_BUSY : Fld := ⟨0xD01004, 31, 1, .ro, 0x0⟩
def LCK_STATUS_PARKED : Fld := ⟨0xD01004, 30, 1, .ro, 0x0⟩
def LCK_STATUS_HOLDER : Fld := ⟨0xD01004, 16, 5, .ro, 0x0⟩
def LCK_CUT_CUT : Fld := ⟨0xD01008, 0, 32, .w1c, 0x0⟩
def LCK_REQ_PRIO : Fld := ⟨0xD01100, 24, 3, .ps, 0x0⟩
def LCK_REQ_QUOTA : Fld := ⟨0xD01100, 16, 8, .ps, 0x0⟩
def LCK_REQ_HOLD : Fld := ⟨0xD01100, 0, 9, .ps, 0x10⟩
def LCK_REQ_WAIT_MAX : Fld := ⟨0xD01200, 0, 16, .rw, 0x0⟩
/-! Fields of 14_pair_and_breakwater.md -/

def PAIR_CTRL_ENABLE : Fld := ⟨0xE00000, 31, 1, .rw, 0x0⟩
def PAIR_CTRL_REFUSAL : Fld := ⟨0xE00000, 16, 12, .ro, 0x0⟩
def PAIR_CTRL_UNIT : Fld := ⟨0xE00000, 0, 1, .rw, 0x0⟩
def PAIR_STATUS_LINK : Fld := ⟨0xE00004, 31, 1, .ro, 0x0⟩
def PAIR_STATUS_OWN : Fld := ⟨0xE00004, 30, 1, .ro, 0x0⟩
def PAIR_STATUS_PEER_OWN : Fld := ⟨0xE00004, 29, 1, .ro, 0x0⟩
def PAIR_STATUS_FIT : Fld := ⟨0xE00004, 28, 1, .ro, 0x0⟩
def PAIR_STATUS_PEER_FIT : Fld := ⟨0xE00004, 27, 1, .ro, 0x0⟩
def PAIR_STATUS_CLAIM : Fld := ⟨0xE00004, 26, 1, .ro, 0x0⟩
def PAIR_STATUS_BCN_SYNCED : Fld := ⟨0xE00004, 25, 1, .ro, 0x0⟩
def PAIR_STATUS_UNIT_CLASH : Fld := ⟨0xE00004, 24, 1, .w1c, 0x0⟩
def PAIR_STATUS_SHADOW_FULL : Fld := ⟨0xE00004, 0, 16, .ro, 0x0⟩
def PAIR_ROLE_ROLE_EPOCH : Fld := ⟨0xE00008, 16, 16, .ro, 0x0⟩
def PAIR_ROLE_ROLE_DROPS : Fld := ⟨0xE00008, 0, 16, .ro, 0x0⟩
def PAIR_COPY_CFG_COPY_MAX_KB : Fld := ⟨0xE00040, 16, 7, .ps, 0x40⟩
def PAIR_COPY_CFG_GRV_PERIOD_US : Fld := ⟨0xE00040, 0, 16, .ps, 0x3E8⟩
def PAIR_COPY_LOCK_STALE_MS : Fld := ⟨0xE00044, 18, 14, .ps, 0x4⟩
def PAIR_COPY_LOCK_QUOTA : Fld := ⟨0xE00044, 9, 8, .ps, 0x1⟩
def PAIR_COPY_LOCK_HOLD : Fld := ⟨0xE00044, 0, 9, .ps, 0x40⟩
def PAIR_LAND_BASE_ADDR : Fld := ⟨0xE00048, 0, 64, .rw, 0x0⟩
def PAIR_SWAP_TIME_NS_NANOSECONDS : Fld := ⟨0xE00050, 0, 30, .rw, 0x0⟩
def PAIR_SWAP_TIME_LO_SECONDS_LO : Fld := ⟨0xE00054, 0, 32, .rw, 0x0⟩
def PAIR_SWAP_TIME_HI_SECONDS_HI : Fld := ⟨0xE00058, 0, 16, .rw, 0x0⟩
def PAIR_SWAP_CMD_GO : Fld := ⟨0xE0005C, 31, 1, .wo, 0x0⟩
def PAIR_SWAP_CMD_SWAP_STATE : Fld := ⟨0xE0005C, 28, 2, .ro, 0x0⟩
def PAIR_SWAP_CMD_REFUSAL : Fld := ⟨0xE0005C, 0, 12, .ro, 0x0⟩
def PAIR_STREAM_STATUS_ENABLED : Fld := ⟨0xE00100, 31, 1, .ro, 0x0⟩
def PAIR_STREAM_STATUS_TAKEN : Fld := ⟨0xE00100, 30, 1, .ro, 0x0⟩
def PAIR_STREAM_STATUS_CHAIN : Fld := ⟨0xE00100, 29, 1, .ro, 0x0⟩
def PAIR_STREAM_SEQ_SEQ : Fld := ⟨0xE00104, 0, 32, .ro, 0x0⟩
def PAIR_STREAM_COUNT_INCOMPLETE : Fld := ⟨0xE00108, 16, 16, .ro, 0x0⟩
def PAIR_STREAM_COUNT_CHAINS : Fld := ⟨0xE00108, 0, 16, .ro, 0x0⟩
def PAIR_STREAM_LAST_OCTETS : Fld := ⟨0xE0010C, 0, 32, .ro, 0x0⟩
def BKW_CTRL_ENABLE : Fld := ⟨0xE80000, 31, 1, .ro, 0x1⟩
def BKW_STATE_SAFE : Fld := ⟨0xE80004, 31, 1, .ro, 0x0⟩
def BKW_STATE_INJECTED : Fld := ⟨0xE80004, 30, 1, .ro, 0x0⟩
def BKW_STATE_CAUSE_SRC : Fld := ⟨0xE80004, 16, 9, .ro, 0x0⟩
def BKW_STATE_CAUSE_BIT : Fld := ⟨0xE80004, 0, 5, .ro, 0x0⟩
def BKW_SAFE_TIME_NS_NANOSECONDS : Fld := ⟨0xE80040, 0, 30, .ro, 0x0⟩
def BKW_SAFE_TIME_LO_SECONDS_LO : Fld := ⟨0xE80044, 0, 32, .ro, 0x0⟩
def BKW_SAFE_TIME_HI_SECONDS_HI : Fld := ⟨0xE80048, 0, 16, .ro, 0x0⟩
def BKW_SAFE_DOUT_LEVEL : Fld := ⟨0xE80050, 0, 64, .rw, 0x0⟩
def BKW_PAIRED_DOUT_MASK : Fld := ⟨0xE80058, 0, 64, .rw, 0x0⟩
def BKW_PAIRED_PWM_MASK : Fld := ⟨0xE80060, 0, 16, .rw, 0x0⟩
def BKW_SAFE_CARGO_SAFE_REPEAT_MS : Fld := ⟨0xE80064, 0, 16, .rw, 0x3E8⟩
def BKW_INJECT_GO : Fld := ⟨0xE80068, 31, 1, .wo, 0x0⟩
def BKW_INJECT_SRC : Fld := ⟨0xE80068, 16, 9, .wo, 0x0⟩
def BKW_INJECT_BIT : Fld := ⟨0xE80068, 0, 5, .wo, 0x0⟩
def BKW_SAFE_PWM_DUTY : Fld := ⟨0xE80080, 0, 17, .rw, 0x0⟩
/-! Fields of 15_logbook_and_bonded_store.md -/

def LOG_CTRL_ENABLE : Fld := ⟨0xF00000, 31, 1, .rw, 0x0⟩
def LOG_CTRL_REFUSAL : Fld := ⟨0xF00000, 16, 12, .ro, 0x0⟩
def LOG_CFG_CLEAR_SLOT : Fld := ⟨0xF00004, 16, 6, .rw, 0x0⟩
def LOG_CFG_SNAP_WRAP : Fld := ⟨0xF00004, 0, 1, .rw, 0x0⟩
def LOG_COUNTS_FX_COUNT : Fld := ⟨0xF00008, 16, 15, .ro, 0x0⟩
def LOG_COUNTS_SNAP_COUNT : Fld := ⟨0xF00008, 0, 11, .ro, 0x0⟩
def LOG_DROPS_FX_DROPPED : Fld := ⟨0xF0000C, 16, 16, .ro, 0x0⟩
def LOG_DROPS_SNAP_LOST : Fld := ⟨0xF0000C, 0, 16, .ro, 0x0⟩
def LOG_OPHOURS_OP_SECONDS : Fld := ⟨0xF00010, 0, 40, .ro, 0x0⟩
def LOG_PCYCLES_POWER_CYCLES : Fld := ⟨0xF00018, 0, 32, .ro, 0x0⟩
def LOG_READ_SEL_READY : Fld := ⟨0xF00060, 31, 1, .ro, 0x0⟩
def LOG_READ_SEL_EMPTY : Fld := ⟨0xF00060, 30, 1, .ro, 0x0⟩
def LOG_READ_SEL_STORE : Fld := ⟨0xF00060, 16, 1, .rw, 0x0⟩
def LOG_READ_SEL_AGE : Fld := ⟨0xF00060, 0, 14, .rw, 0x0⟩
def LOG_NONCE_NONCE : Fld := ⟨0xF00080, 0, 32, .ro, 0x0⟩
def LOG_CLR_TAG_TAG : Fld := ⟨0xF00090, 0, 32, .rw, 0x0⟩
def LOG_CLR_CMD_SCOPE : Fld := ⟨0xF000A0, 8, 2, .wo, 0x0⟩
def LOG_CLR_CMD_OP : Fld := ⟨0xF000A0, 0, 2, .wo, 0x0⟩
def LOG_CLR_STATUS_LIVE : Fld := ⟨0xF000A4, 31, 1, .ro, 0x0⟩
def LOG_CLR_STATUS_BUSY : Fld := ⟨0xF000A4, 30, 1, .ro, 0x0⟩
def LOG_CLR_STATUS_REFUSAL : Fld := ⟨0xF000A4, 0, 12, .ro, 0x0⟩
def LOG_LAST_CLEAR_WORD : Fld := ⟨0xF000C0, 0, 32, .ro, 0x0⟩
def LOG_EXP_DEST_ADDR : Fld := ⟨0xF000E0, 0, 64, .rw, 0x0⟩
def LOG_EXP_CMD_GO : Fld := ⟨0xF000E8, 31, 1, .wo, 0x0⟩
def LOG_EXP_CMD_REFUSAL : Fld := ⟨0xF000E8, 16, 12, .ro, 0x0⟩
def LOG_EXP_CMD_STORE : Fld := ⟨0xF000E8, 0, 1, .wo, 0x0⟩
def LOG_EXP_PROG_PERMYRIAD_STATE : Fld := ⟨0xF000F0, 28, 4, .ro, 0x0⟩
def LOG_EXP_PROG_PERMYRIAD_VAL : Fld := ⟨0xF000F0, 0, 14, .ro, 0x0⟩
def LOG_EXP_PROG_POSITION_VAL : Fld := ⟨0xF000F4, 0, 32, .ro, 0x0⟩
def LOG_EXP_PROG_TOTAL_VAL : Fld := ⟨0xF000F8, 0, 32, .ro, 0x0⟩
def LOG_READ_DATA_WORD : Fld := ⟨0xF00100, 0, 32, .ro, 0x0⟩
def LOG_SNAP_CFG_TRIG : Fld := ⟨0xF01000, 28, 3, .rw, 0x0⟩
def LOG_SNAP_CFG_WORDS : Fld := ⟨0xF01000, 20, 6, .rw, 0x0⟩
def LOG_SNAP_CFG_SEL : Fld := ⟨0xF01000, 0, 13, .rw, 0x0⟩
def LOG_SNAP_ADDR_OFFSET : Fld := ⟨0xF01004, 0, 25, .rw, 0x0⟩
def LOG_SNAP_STATUS_FIRES : Fld := ⟨0xF010F0, 16, 16, .ro, 0x0⟩
def LOG_SNAP_STATUS_MISSED : Fld := ⟨0xF010F0, 0, 16, .ro, 0x0⟩
def BST_CTRL_ENABLE : Fld := ⟨0xF80000, 31, 1, .rw, 0x0⟩
def BST_CTRL_REFUSAL : Fld := ⟨0xF80000, 16, 12, .ro, 0x0⟩
def BST_STATUS_TEST_ROOT : Fld := ⟨0xF80004, 31, 1, .ro, 0x0⟩
def BST_STATUS_UNLOCKED : Fld := ⟨0xF80004, 30, 1, .ro, 0x0⟩
def BST_STATUS_DRBG_OK : Fld := ⟨0xF80004, 29, 1, .ro, 0x0⟩
def BST_CFG_SESSION_SLOT : Fld := ⟨0xF80008, 0, 6, .rw, 0x0⟩
def BST_UID_UID : Fld := ⟨0xF80010, 0, 32, .ro, 0x0⟩
def BST_BATCH_ADDR_ADDR : Fld := ⟨0xF80030, 0, 64, .rw, 0x0⟩
def BST_BATCH_RES_ADDR : Fld := ⟨0xF80038, 0, 64, .rw, 0x0⟩
def BST_BATCH_CMD_GO : Fld := ⟨0xF80040, 31, 1, .wo, 0x0⟩
def BST_BATCH_CMD_REFUSAL : Fld := ⟨0xF80040, 16, 12, .ro, 0x0⟩
def BST_BATCH_CMD_COUNT : Fld := ⟨0xF80040, 0, 13, .wo, 0x0⟩
def BST_BATCH_PROG_PERMYRIAD_STATE : Fld := ⟨0xF80048, 28, 4, .ro, 0x0⟩
def BST_BATCH_PROG_PERMYRIAD_VAL : Fld := ⟨0xF80048, 0, 14, .ro, 0x0⟩
def BST_BATCH_PROG_POSITION_VAL : Fld := ⟨0xF8004C, 0, 32, .ro, 0x0⟩
def BST_BATCH_PROG_TOTAL_VAL : Fld := ⟨0xF80050, 0, 32, .ro, 0x0⟩
def BST_UNLOCK_CTR_COUNTER : Fld := ⟨0xF80090, 0, 32, .ro, 0x0⟩
def BST_SLOT_INFO_STATE : Fld := ⟨0xF81000, 30, 2, .ro, 0x0⟩
def BST_SLOT_INFO_DEPTH : Fld := ⟨0xF81000, 24, 3, .ro, 0x0⟩
def BST_SLOT_INFO_PARENT : Fld := ⟨0xF81000, 8, 8, .ro, 0x0⟩
def BST_SLOT_INFO_KIND : Fld := ⟨0xF81000, 0, 3, .ro, 0x0⟩
def BST_SLOT_CTR_COUNTER : Fld := ⟨0xF81004, 0, 32, .ro, 0x0⟩
def BST_SESS_INFO_INSTALLED : Fld := ⟨0xF82000, 0, 2, .ro, 0x0⟩
def BST_SESS_CTR_COUNTER : Fld := ⟨0xF82004, 0, 32, .ro, 0x0⟩
/-! Fields of 16_host_and_memory.md -/

def HST_CTRL_ENABLE : Fld := ⟨0x1000000, 31, 1, .rw, 0x0⟩
def HST_CTRL_REFUSAL : Fld := ⟨0x1000000, 16, 12, .ro, 0x0⟩
def HST_STATUS_LINK : Fld := ⟨0x1000004, 31, 1, .ro, 0x0⟩
def HST_STATUS_GEN : Fld := ⟨0x1000004, 8, 3, .ro, 0x0⟩
def HST_STATUS_WIDTH : Fld := ⟨0x1000004, 0, 4, .ro, 0x0⟩
def HST_FUSE_ID_VENDOR : Fld := ⟨0x100000C, 16, 16, .ro, 0x0⟩
def HST_FUSE_ID_DEVICE : Fld := ⟨0x100000C, 0, 16, .ro, 0x0⟩
def HST_WIN_BASE_ADDR : Fld := ⟨0x1000010, 0, 40, .rw, 0x0⟩
def HST_CREDIT_WAIT_NS : Fld := ⟨0x1000018, 0, 32, .ro, 0x0⟩
def HST_MSIX_ADDR_LO_ADDR : Fld := ⟨0x1002000, 2, 30, .rw, 0x0⟩
def HST_MSIX_ADDR_HI_ADDR : Fld := ⟨0x1002004, 0, 32, .rw, 0x0⟩
def HST_MSIX_DATA_DATA : Fld := ⟨0x1002008, 0, 32, .rw, 0x0⟩
def HST_MSIX_CTRL_MASKED : Fld := ⟨0x100200C, 0, 1, .rw, 0x1⟩
def HST_MSIX_PBA_PEND : Fld := ⟨0x1003000, 0, 32, .ro, 0x0⟩
def MEM_CTRL_ENABLE : Fld := ⟨0x1100000, 31, 1, .rw, 0x0⟩
def MEM_CTRL_DDR_READY : Fld := ⟨0x1100000, 30, 1, .ro, 0x0⟩
def MEM_CTRL_REFUSAL : Fld := ⟨0x1100000, 16, 12, .ro, 0x0⟩
def MEM_CTRL_SCRUB : Fld := ⟨0x1100000, 0, 1, .rw, 0x0⟩
def MEM_DDR_CMD_REFUSAL : Fld := ⟨0x1100020, 16, 12, .ro, 0x0⟩
def MEM_DDR_CMD_TEST : Fld := ⟨0x1100020, 4, 1, .wo, 0x0⟩
def MEM_DDR_CMD_OP : Fld := ⟨0x1100020, 0, 2, .wo, 0x0⟩
def MEM_DDR_PROG_PERMYRIAD_STATE : Fld := ⟨0x1100030, 28, 4, .ro, 0x0⟩
def MEM_DDR_PROG_PERMYRIAD_VAL : Fld := ⟨0x1100030, 0, 14, .ro, 0x0⟩
def MEM_DDR_PROG_POSITION_VAL : Fld := ⟨0x1100034, 0, 32, .ro, 0x0⟩
def MEM_DDR_PROG_TOTAL_VAL : Fld := ⟨0x1100038, 0, 32, .ro, 0x0⟩
def MEM_MRAM_CMD_REFUSAL : Fld := ⟨0x1100040, 16, 12, .ro, 0x0⟩
def MEM_MRAM_CMD_OP : Fld := ⟨0x1100040, 0, 2, .wo, 0x0⟩
def MEM_MRAM_PROG_PERMYRIAD_STATE : Fld := ⟨0x1100050, 28, 4, .ro, 0x0⟩
def MEM_MRAM_PROG_PERMYRIAD_VAL : Fld := ⟨0x1100050, 0, 14, .ro, 0x0⟩
def MEM_MRAM_PROG_POSITION_VAL : Fld := ⟨0x1100054, 0, 32, .ro, 0x0⟩
def MEM_MRAM_PROG_TOTAL_VAL : Fld := ⟨0x1100058, 0, 32, .ro, 0x0⟩
def MEM_DDR_CFG_DDR5 : Fld := ⟨0x1100100, 31, 1, .rw, 0x0⟩
def MEM_DDR_CFG_SPEED : Fld := ⟨0x1100100, 24, 3, .rw, 0x0⟩
def MEM_DDR_CFG_RANKS2 : Fld := ⟨0x1100100, 20, 1, .rw, 0x0⟩
def MEM_DDR_CFG_LOG2_GB : Fld := ⟨0x1100100, 16, 4, .rw, 0x0⟩
def MEM_DDR_STATUS_TRAINED : Fld := ⟨0x1100104, 31, 1, .ro, 0x0⟩
def MEM_DDR_STATUS_FAIL_BLOCK : Fld := ⟨0x1100104, 16, 8, .ro, 0x0⟩
def MEM_DDR_STATUS_CORR : Fld := ⟨0x1100104, 0, 16, .ro, 0x0⟩
def MEM_FLASH_CFG_LOG2_MB : Fld := ⟨0x1100400, 0, 5, .rw, 0x0⟩
def MEM_FLASH_CMD_BUSY : Fld := ⟨0x1100404, 31, 1, .w1s, 0x0⟩
def MEM_FLASH_CMD_REFUSAL : Fld := ⟨0x1100404, 16, 12, .ro, 0x0⟩
def MEM_FLASH_CMD_OP : Fld := ⟨0x1100404, 0, 3, .rw, 0x0⟩
def MEM_FLASH_ADDR_ADDR : Fld := ⟨0x1100408, 0, 32, .rw, 0x0⟩
def MEM_FLASH_BUF_DATA : Fld := ⟨0x1100500, 0, 32, .rw, 0x0⟩
/-! Fields of 17_electrical_and_package.md -/

def PIO_CTRL_ENABLE : Fld := ⟨0x1200000, 31, 1, .rw, 0x0⟩
def PIO_CTRL_REFUSAL : Fld := ⟨0x1200000, 16, 12, .ro, 0x0⟩
def PIO_CTRL_FILTER_US : Fld := ⟨0x1200000, 0, 8, .rw, 0x3⟩
def PIO_DIR_DIR : Fld := ⟨0x1200008, 0, 64, .rw, 0x0⟩
def PIO_OD_OD : Fld := ⟨0x1200010, 0, 64, .rw, 0x0⟩
def PIO_DIN_DIN : Fld := ⟨0x1200018, 0, 64, .ro, 0x0⟩
def PIO_DOUT_DOUT : Fld := ⟨0x1200020, 0, 64, .ro, 0x0⟩
def PIO_COMM_EN_COMM_EN : Fld := ⟨0x1200028, 0, 64, .rw, 0x0⟩
def PIO_PWM_CFG_ENABLE : Fld := ⟨0x1201000, 31, 1, .rw, 0x0⟩
def PIO_PWM_CFG_COMM_EN : Fld := ⟨0x1201000, 28, 1, .rw, 0x0⟩
def PIO_PWM_CFG_REFUSAL : Fld := ⟨0x1201000, 16, 12, .ro, 0x0⟩
def PIO_PWM_CFG_POL : Fld := ⟨0x1201000, 0, 1, .rw, 0x1⟩
def PIO_PWM_PERIOD_CYCLES : Fld := ⟨0x1201004, 0, 22, .rw, 0xFA0⟩
def PIO_PWM_DUTY_DUTY : Fld := ⟨0x1201008, 0, 17, .rw, 0x0⟩
def PIO_PWM_APPLIED_DUTY : Fld := ⟨0x120100C, 0, 17, .ro, 0x0⟩
def PIO_ENC_CFG_ENABLE : Fld := ⟨0x1202000, 31, 1, .rw, 0x0⟩
def PIO_ENC_CFG_REFUSAL : Fld := ⟨0x1202000, 16, 12, .ro, 0x0⟩
def PIO_ENC_CFG_SSI : Fld := ⟨0x1202000, 8, 1, .rw, 0x0⟩
def PIO_ENC_CFG_GRAY : Fld := ⟨0x1202000, 7, 1, .rw, 0x0⟩
def PIO_ENC_CFG_BITS : Fld := ⟨0x1202000, 0, 6, .rw, 0x0⟩
def PIO_ENC_SSI_FRAME_US : Fld := ⟨0x1202004, 16, 16, .rw, 0x64⟩
def PIO_ENC_SSI_CLOCK_KHZ : Fld := ⟨0x1202004, 0, 16, .rw, 0x3E8⟩
def PIO_ENC_POS_COUNT : Fld := ⟨0x1202008, 0, 32, .ro, 0x0⟩
def PIO_ENC_ZPOS_COUNT : Fld := ⟨0x120200C, 0, 32, .ro, 0x0⟩
def PIO_ENC_STATUS_ERRORS : Fld := ⟨0x1202010, 0, 16, .ro, 0x0⟩
def PWR_CTRL_ENABLE : Fld := ⟨0x1300000, 31, 1, .rw, 0x0⟩
def PWR_CTRL_REFUSAL : Fld := ⟨0x1300000, 16, 12, .ro, 0x0⟩
def PWR_RAIL_CFG_AVS_ON : Fld := ⟨0x1300100, 31, 1, .rw, 0x0⟩
def PWR_RAIL_CFG_PMB_ADDR : Fld := ⟨0x1300100, 16, 7, .rw, 0x0⟩
def PWR_RAIL_CFG_PAGE : Fld := ⟨0x1300100, 0, 8, .rw, 0x0⟩
def PWR_RAIL_GUARD_GUARD_HI : Fld := ⟨0x1300104, 16, 16, .rw, 0x28⟩
def PWR_RAIL_GUARD_GUARD_LO : Fld := ⟨0x1300104, 0, 16, .rw, 0x14⟩
def PWR_RAIL_VOUT_MV : Fld := ⟨0x1300108, 0, 16, .ro, 0x0⟩
def PWR_RAIL_MARGIN_WORST : Fld := ⟨0x130010C, 16, 16, .ro, 0x0⟩
def PWR_RAIL_MARGIN_UPDATES : Fld := ⟨0x130010C, 0, 16, .ro, 0x0⟩
def PWR_GATE_DRAFT : Fld := ⟨0x1300200, 6, 1, .rw, 0x0⟩
def PWR_GATE_QUAY : Fld := ⟨0x1300200, 0, 6, .rw, 0x0⟩
def PWR_GATE_STATUS_GATED : Fld := ⟨0x1300204, 16, 7, .ro, 0x0⟩
def PWR_GATE_STATUS_WAKES : Fld := ⟨0x1300204, 0, 16, .ro, 0x0⟩
def PWR_TEMP_MAX : Fld := ⟨0x1300300, 16, 16, .ro, 0x0⟩
def PWR_TEMP_TJ : Fld := ⟨0x1300300, 0, 16, .ro, 0x0⟩
def PWR_TEMP_CFG_TJ_LIMIT : Fld := ⟨0x1300304, 0, 16, .rw, 0x44C⟩

/-- A register as the bus decodes it: its name, the offset of its first instance, its words (2 for a 64-bit
register), the words of the wide value that begins at it (R8; 0 where it begins none), the counts and strides of its
instances (widest stride first) and its fields. -/
structure Reg where
  name  : String
  off   : Nat
  words : Nat
  wide  : Nat
  dims  : List (Nat × Nat)
  flds  : List Fld
deriving DecidableEq, Repr

/-! The fault sets (R423): offset of the first FAULT_STATUS of each block, and the bit numbers. -/

def SYS_FS : Nat := 0x300
def BRN_FS : Nat := 0x200A00
def GRV_FS : Nat := 0x400010
def DRF_FS : Nat := 0x500040
def BCN_FS : Nat := 0x600090
def TLY_FS : Nat := 0x700010
def NET_PORT_FS : Nat := 0x8000C0
def TID_FS : Nat := 0x900080
def FBS_FS : Nat := 0xA40000
def MBS_FS : Nat := 0xA80000
def BTH_FS : Nat := 0xC00010
def MST_FS : Nat := 0xC80010
def LCK_FS : Nat := 0xD00010
def PAIR_FS : Nat := 0xE00010
def BKW_FS : Nat := 0xE80010
def LOG_FS : Nat := 0xF00020
def BST_FS : Nat := 0xF80060
def HST_FS : Nat := 0x1000020
def MEM_FS : Nat := 0x1100080
def PIO_FS : Nat := 0x1200040
def PWR_FS : Nat := 0x1300400
def SYS_BUS_ERR : Nat := 1
def SYS_CONTRACT_BREACH : Nat := 0
def BRN_ECC_UNCORR : Nat := 3
def BRN_CORE_HALT : Nat := 2
def BRN_STARTUP_OVERRUN : Nat := 1
def BRN_TASK_OVERRUN : Nat := 0
def GRV_ECC_UNCORR : Nat := 4
def GRV_REBUILD_ERR : Nat := 3
def GRV_OUTPUT_ERR : Nat := 2
def GRV_INPUT_ERR : Nat := 1
def GRV_SAMPLE_OVERRUN : Nat := 0
def DRF_ECC_UNCORR : Nat := 3
def DRF_SPILL_ERR : Nat := 2
def DRF_OUTPUT_ERR : Nat := 1
def DRF_INPUT_ERR : Nat := 0
def BCN_ECC_UNCORR : Nat := 3
def BCN_REBUILD_ERR : Nat := 2
def BCN_DDR_ERR : Nat := 1
def BCN_EVAL_OVERRUN : Nat := 0
def TLY_ECC_UNCORR : Nat := 3
def TLY_SOURCE_ERR : Nat := 2
def TLY_SENSOR_ERR : Nat := 1
def TLY_MRAM_ERR : Nat := 0
def NET_PORT_ECC_UNCORR : Nat := 2
def NET_PORT_TX_DMA_ERR : Nat := 1
def NET_PORT_RX_DMA_ERR : Nat := 0
def TID_ECC_UNCORR : Nat := 1
def TID_DOMAIN_LOST : Nat := 0
def FBS_ECC_UNCORR : Nat := 3
def FBS_TX_DMA_ERR : Nat := 2
def FBS_RX_DMA_ERR : Nat := 1
def FBS_BUS_OFF : Nat := 0
def MBS_ECC_UNCORR : Nat := 0
def BTH_ECC_UNCORR : Nat := 0
def MST_ECC_UNCORR : Nat := 0
def LCK_HOLD_CUTOFF : Nat := 0
def PAIR_NO_TAKEOVER : Nat := 5
def PAIR_ECC_UNCORR : Nat := 4
def PAIR_COPY_STALE : Nat := 3
def PAIR_ROLE_CONFLICT : Nat := 2
def PAIR_PEER_UNFIT : Nat := 1
def PAIR_LINK_LOST : Nat := 0
def BKW_ECC_UNCORR : Nat := 1
def BKW_PIN_MISMATCH : Nat := 0
def LOG_ECC_UNCORR : Nat := 1
def LOG_MRAM_ERR : Nat := 0
def BST_ENTROPY_ERR : Nat := 2
def BST_ECC_UNCORR : Nat := 1
def BST_MRAM_ERR : Nat := 0
def HST_ECC_UNCORR : Nat := 2
def HST_LINK_DOWN : Nat := 1
def HST_DMA_ERR : Nat := 0
def MEM_MRAM_UNCORR : Nat := 2
def MEM_TRAIN_FAIL : Nat := 1
def MEM_ECC_UNCORR : Nat := 0
def PIO_ENC_ERR : Nat := 0
def PWR_THERMAL : Nat := 2
def PWR_MARGIN_LOST : Nat := 1
def PWR_PMBUS_ERR : Nat := 0

/-- The registers of a fault set at offset `F`, whose FAULT_STATUS has the bits of `mask` (R423, Fault set). -/
def faultSetRegs (name : String) (F w rst : Nat) (dims : List (Nat × Nat)) : List Reg :=
  [⟨name ++ "_FAULT_STATUS", F, 1, 0, dims, [fsStatus F w]⟩,
   ⟨name ++ "_IRQ_EN", F + 4, 1, 0, dims, [fsIrqEn F]⟩,
   ⟨name ++ "_REACT", F + 8, 1, 0, dims, [fsReact F rst]⟩,
   ⟨name ++ "_FEC_INFO", F + 0xC, 1, 0, dims,
     [fsValid F, fsHasAccess F, fsBit F, fsMaster F, fsAccess F, fsDetail F]⟩,
   ⟨name ++ "_FEC_ADDR_LO", F + 0x10, 1, 2, dims, [fsAddrLo F]⟩,
   ⟨name ++ "_FEC_ADDR_HI", F + 0x14, 1, 0, dims, [fsAddrHi F]⟩,
   ⟨name ++ "_FEC_TIME_NS", F + 0x18, 1, 3, dims, [fsTimeNs F]⟩,
   ⟨name ++ "_FEC_TIME_LO", F + 0x1C, 1, 0, dims, [fsTimeLo F]⟩,
   ⟨name ++ "_FEC_TIME_HI", F + 0x20, 1, 0, dims, [fsTimeHi F]⟩,
   ⟨name ++ "_COUNT", F + 0x24, 1, 0, dims, [fsCount F]⟩]

def regTableSYS : List Reg :=
  [⟨"SYS_ID", 0x0, 1, 0, [], [SYS_ID_PART, SYS_ID_MAJOR, SYS_ID_MINOR]⟩,
   ⟨"SYS_CTR_PATH", 0x10000, 1, 0, [(512, 0x20)], [SYS_CTR_PATH_TARGET, SYS_CTR_PATH_PRIO, SYS_CTR_PATH_KIND, SYS_CTR_PATH_ENABLE]⟩,
   ⟨"SYS_CTR_SIZE", 0x10004, 1, 0, [(512, 0x20)], [SYS_CTR_SIZE_MAX_SIZE]⟩,
   ⟨"SYS_CTR_RATE", 0x10008, 1, 0, [(512, 0x20)], [SYS_CTR_RATE_WINDOW_US, SYS_CTR_RATE_MAX_ITEMS]⟩,
   ⟨"SYS_CTR_BOUND", 0x1000C, 1, 0, [(512, 0x20)], [SYS_CTR_BOUND_BOUND_NS]⟩,
   ⟨"SYS_CTR_WORST", 0x10010, 1, 0, [(512, 0x20)], [SYS_CTR_WORST_WORST_NS]⟩,
   ⟨"SYS_CTR_STATUS", 0x10014, 1, 0, [(512, 0x20)], [SYS_CTR_STATUS_DRAINING, SYS_CTR_STATUS_REFUSAL]⟩,
   ⟨"SYS_CTR_ACCEPTED", 0x10018, 1, 0, [(512, 0x20)], [SYS_CTR_ACCEPTED_COUNT]⟩,
   ⟨"SYS_CTR_REJECTED", 0x1001C, 1, 0, [(512, 0x20)], [SYS_CTR_REJECTED_COUNT]⟩,
   ⟨"SYS_CTR_CHECK", 0x200, 1, 0, [], [SYS_CTR_CHECK_BUSY, SYS_CTR_CHECK_PATH, SYS_CTR_CHECK_LAST_REFUSAL]⟩,
   ⟨"SYS_BREACH_PATH", 0x204, 1, 0, [], [SYS_BREACH_PATH_VALID, SYS_BREACH_PATH_PATH]⟩,
   ⟨"SYS_BREACH_SEC", 0x208, 1, 2, [], [SYS_BREACH_SEC_SECONDS]⟩,
   ⟨"SYS_BREACH_NS", 0x20C, 1, 0, [], [SYS_BREACH_NS_NANOSECONDS]⟩,
   ⟨"SYS_MODE", 0x100, 1, 0, [], [SYS_MODE_TRANSIT, SYS_MODE_ID_SEEN, SYS_MODE_REFUSAL, SYS_MODE_PREV_MODE, SYS_MODE_MODE]⟩,
   ⟨"SYS_MODE_CMD", 0x104, 1, 0, [], [SYS_MODE_CMD_CONFIRM, SYS_MODE_CMD_TARGET]⟩,
   ⟨"SYS_RESET_CAUSE", 0x108, 1, 0, [], [SYS_RESET_CAUSE_LAST_MODE, SYS_RESET_CAUSE_FLR, SYS_RESET_CAUSE_QUAY, SYS_RESET_CAUSE_FROM_SAFE, SYS_RESET_CAUSE_WDT, SYS_RESET_CAUSE_HOST, SYS_RESET_CAUSE_PIN, SYS_RESET_CAUSE_POR]⟩,
   ⟨"SYS_RESET_CMD", 0x10C, 1, 0, [], [SYS_RESET_CMD_CONFIRM, SYS_RESET_CMD_SCOPE, SYS_RESET_CMD_QUAY]⟩,
   ⟨"SYS_WDT_CTRL", 0x110, 1, 0, [], [SYS_WDT_CTRL_ENABLE, SYS_WDT_CTRL_PERIOD_MS]⟩,
   ⟨"SYS_WDT_KICK", 0x114, 1, 0, [], [SYS_WDT_KICK_KEY]⟩,
   ⟨"SYS_BOOT_STATUS", 0x118, 1, 0, [], [SYS_BOOT_STATUS_FAIL, SYS_BOOT_STATUS_STATE]⟩]

def regTablePRF : List Reg :=
  [⟨"PRF_CMD", 0x100000, 1, 0, [], [PRF_CMD_OP]⟩,
   ⟨"PRF_STATUS", 0x100004, 1, 0, [], [PRF_STATUS_STATE, PRF_STATUS_OVERFLOW, PRF_STATUS_LOCKED_WRITE, PRF_STATUS_FOREIGN, PRF_STATUS_APPLIED, PRF_STATUS_OWNER, PRF_STATUS_REFUSAL]⟩,
   ⟨"PRF_STAGED", 0x100008, 1, 0, [], [PRF_STAGED_COUNT]⟩,
   ⟨"PRF_FAIL_ADDR", 0x10000C, 1, 0, [], [PRF_FAIL_ADDR_VALID, PRF_FAIL_ADDR_OFFSET]⟩,
   ⟨"PRF_PULL_AT", 0x100010, 1, 0, [], [PRF_PULL_AT_BY_QUAY, PRF_PULL_AT_TASK, PRF_PULL_AT_QUAY]⟩,
   ⟨"PRF_PULL_TIME_NS", 0x100014, 1, 3, [], [PRF_PULL_TIME_NS_NANOSECONDS]⟩,
   ⟨"PRF_PULL_TIME_LO", 0x100018, 1, 0, [], [PRF_PULL_TIME_LO_SECONDS_LO]⟩,
   ⟨"PRF_PULL_TIME_HI", 0x10001C, 1, 0, [], [PRF_PULL_TIME_HI_SECONDS_HI]⟩,
   ⟨"PRF_APPLIED_TIME_NS", 0x100020, 1, 3, [], [PRF_APPLIED_TIME_NS_NANOSECONDS]⟩,
   ⟨"PRF_APPLIED_TIME_LO", 0x100024, 1, 0, [], [PRF_APPLIED_TIME_LO_SECONDS_LO]⟩,
   ⟨"PRF_APPLIED_TIME_HI", 0x100028, 1, 0, [], [PRF_APPLIED_TIME_HI_SECONDS_HI]⟩]

def regTableHST : List Reg :=
  [⟨"HST_RING_CFG", 0x1001000, 1, 0, [(16, 0x40)], [HST_RING_CFG_ENABLE, HST_RING_CFG_REFUSAL, HST_RING_CFG_LOG2_SIZE, HST_RING_CFG_PATH]⟩,
   ⟨"HST_RING_SQ_BASE", 0x1001008, 2, 2, [(16, 0x40)], [HST_RING_SQ_BASE_BASE]⟩,
   ⟨"HST_RING_CQ_BASE", 0x1001010, 2, 2, [(16, 0x40)], [HST_RING_CQ_BASE_BASE]⟩,
   ⟨"HST_RING_SQ_TAIL", 0x1001018, 1, 0, [(16, 0x40)], [HST_RING_SQ_TAIL_INDEX]⟩,
   ⟨"HST_RING_SQ_HEAD", 0x100101C, 1, 0, [(16, 0x40)], [HST_RING_SQ_HEAD_INDEX]⟩,
   ⟨"HST_RING_CQ_TAIL", 0x1001020, 1, 0, [(16, 0x40)], [HST_RING_CQ_TAIL_INDEX]⟩,
   ⟨"HST_RING_CQ_HEAD", 0x1001024, 1, 0, [(16, 0x40)], [HST_RING_CQ_HEAD_INDEX]⟩,
   ⟨"HST_RING_IRQ", 0x1001028, 1, 0, [(16, 0x40)], [HST_RING_IRQ_VECTOR]⟩,
   ⟨"HST_CTRL", 0x1000000, 1, 0, [], [HST_CTRL_ENABLE, HST_CTRL_REFUSAL]⟩,
   ⟨"HST_STATUS", 0x1000004, 1, 0, [], [HST_STATUS_LINK, HST_STATUS_GEN, HST_STATUS_WIDTH]⟩,
   ⟨"HST_FUSE_ID", 0x100000C, 1, 0, [], [HST_FUSE_ID_VENDOR, HST_FUSE_ID_DEVICE]⟩,
   ⟨"HST_WIN_BASE", 0x1000010, 2, 2, [], [HST_WIN_BASE_ADDR]⟩,
   ⟨"HST_CREDIT_WAIT", 0x1000018, 1, 0, [], [HST_CREDIT_WAIT_NS]⟩,
   ⟨"HST_MSIX_ADDR_LO", 0x1002000, 1, 0, [(64, 0x10)], [HST_MSIX_ADDR_LO_ADDR]⟩,
   ⟨"HST_MSIX_ADDR_HI", 0x1002004, 1, 0, [(64, 0x10)], [HST_MSIX_ADDR_HI_ADDR]⟩,
   ⟨"HST_MSIX_DATA", 0x1002008, 1, 0, [(64, 0x10)], [HST_MSIX_DATA_DATA]⟩,
   ⟨"HST_MSIX_CTRL", 0x100200C, 1, 0, [(64, 0x10)], [HST_MSIX_CTRL_MASKED]⟩,
   ⟨"HST_MSIX_PBA", 0x1003000, 1, 0, [(2, 0x4)], [HST_MSIX_PBA_PEND]⟩]

def regTableBRN : List Reg :=
  [⟨"BRN_CORE_BOOT", 0x20C000, 1, 0, [(6, 0x10000), (4, 0x100)], [BRN_CORE_BOOT_VBASE]⟩,
   ⟨"BRN_CORE_STACK", 0x20C004, 1, 0, [(6, 0x10000), (4, 0x100)], [BRN_CORE_STACK_SP, BRN_CORE_STACK_SLIMIT]⟩,
   ⟨"BRN_CORE_STATUS", 0x20C010, 1, 0, [(6, 0x10000), (4, 0x100)], [BRN_CORE_STATUS_HALT_CAUSE, BRN_CORE_STATUS_NEST, BRN_CORE_STATUS_RL, BRN_CORE_STATUS_STATE]⟩,
   ⟨"BRN_CORE_PC", 0x20C014, 1, 0, [(6, 0x10000), (4, 0x100)], [BRN_CORE_PC_PC]⟩,
   ⟨"BRN_CORE_XCAUSE", 0x20C018, 1, 0, [(6, 0x10000), (4, 0x100)], [BRN_CORE_XCAUSE_IMPRECISE, BRN_CORE_XCAUSE_CODE, BRN_CORE_XCAUSE_COUNT, BRN_CORE_XCAUSE_CAUSE]⟩,
   ⟨"BRN_CORE_CYCLE", 0x20C020, 2, 2, [(6, 0x10000), (4, 0x100)], [BRN_CORE_CYCLE_COUNT]⟩,
   ⟨"BRN_CORE_INSTRET", 0x20C028, 2, 2, [(6, 0x10000), (4, 0x100)], [BRN_CORE_INSTRET_COUNT]⟩,
   ⟨"BRN_CORE_ECC", 0x20C030, 1, 0, [(6, 0x10000), (4, 0x100)], [BRN_CORE_ECC_UNCORR, BRN_CORE_ECC_IMAGE, BRN_CORE_ECC_DATA, BRN_CORE_ECC_INSTR]⟩,
   ⟨"BRN_CORE_DEBUG", 0x20C034, 1, 0, [(6, 0x10000), (4, 0x100)], [BRN_CORE_DEBUG_ENABLE, BRN_CORE_DEBUG_STEP, BRN_CORE_DEBUG_RESUME, BRN_CORE_DEBUG_HALT_REQ]⟩,
   ⟨"BRN_QUAY_GEN", 0x20C400, 1, 0, [(6, 0x10000)], [BRN_QUAY_GEN_GEN]⟩,
   ⟨"BRN_QUAY_CTRL", 0x200000, 1, 0, [(6, 0x10000)], [BRN_QUAY_CTRL_ENABLE, BRN_QUAY_CTRL_REFUSAL]⟩,
   ⟨"BRN_QUAY_STATUS", 0x200004, 1, 0, [(6, 0x10000)], [BRN_QUAY_STATUS_BOUNDARY, BRN_QUAY_STATUS_HOLD, BRN_QUAY_STATUS_STARTUP, BRN_QUAY_STATUS_IN_SCAN, BRN_QUAY_STATUS_PENDING]⟩,
   ⟨"BRN_QUAY_IMAGE", 0x200008, 1, 0, [(6, 0x10000)], [BRN_QUAY_IMAGE_STATUS_BASE]⟩,
   ⟨"BRN_TASK_CFG", 0x200100, 1, 0, [(6, 0x10000), (8, 0x40)], [BRN_TASK_CFG_ON, BRN_TASK_CFG_PRIO, BRN_TASK_CFG_CORE, BRN_TASK_CFG_OVR_LIMIT, BRN_TASK_CFG_DIN]⟩,
   ⟨"BRN_TASK_PERIOD", 0x200104, 1, 0, [(6, 0x10000), (8, 0x40)], [BRN_TASK_PERIOD_VALUE]⟩,
   ⟨"BRN_TASK_PHASE", 0x200108, 1, 0, [(6, 0x10000), (8, 0x40)], [BRN_TASK_PHASE_VALUE]⟩,
   ⟨"BRN_TASK_ENTRY", 0x20010C, 1, 0, [(6, 0x10000), (8, 0x40)], [BRN_TASK_ENTRY_ENTRY]⟩,
   ⟨"BRN_TASK_SAVE", 0x200110, 1, 0, [(6, 0x10000), (8, 0x40)], [BRN_TASK_SAVE_SAVE]⟩,
   ⟨"BRN_TASK_IO", 0x200114, 1, 0, [(6, 0x10000), (8, 0x40)], [BRN_TASK_IO_IO_OFF]⟩,
   ⟨"BRN_TASK_DOUT_MASK", 0x200118, 2, 2, [(6, 0x10000), (8, 0x40)], [BRN_TASK_DOUT_MASK_MASK]⟩,
   ⟨"BRN_TASK_STATS", 0x200120, 1, 0, [(6, 0x10000), (8, 0x40)], [BRN_TASK_STATS_CLEAR, BRN_TASK_STATS_OVERRUNS, BRN_TASK_STATS_CONSEC, BRN_TASK_STATS_SKIPPED]⟩,
   ⟨"BRN_TASK_EXEC_LAST", 0x200124, 1, 0, [(6, 0x10000), (8, 0x40)], [BRN_TASK_EXEC_LAST_NS]⟩,
   ⟨"BRN_TASK_EXEC_MAX", 0x200128, 1, 0, [(6, 0x10000), (8, 0x40)], [BRN_TASK_EXEC_MAX_NS]⟩,
   ⟨"BRN_EVT_CFG", 0x200400, 1, 0, [(6, 0x10000), (8, 0x20)], [BRN_EVT_CFG_ON, BRN_EVT_CFG_PRIO, BRN_EVT_CFG_CORE, BRN_EVT_CFG_DIN, BRN_EVT_CFG_SRC_EN, BRN_EVT_CFG_SOURCE]⟩,
   ⟨"BRN_EVT_ENTRY", 0x200404, 1, 0, [(6, 0x10000), (8, 0x20)], [BRN_EVT_ENTRY_ENTRY]⟩,
   ⟨"BRN_EVT_SAVE", 0x200408, 1, 0, [(6, 0x10000), (8, 0x20)], [BRN_EVT_SAVE_SAVE]⟩,
   ⟨"BRN_EVT_IO", 0x20040C, 1, 0, [(6, 0x10000), (8, 0x20)], [BRN_EVT_IO_IO_OFF]⟩,
   ⟨"BRN_EVT_TRIG", 0x200410, 1, 0, [(6, 0x10000), (8, 0x20)], [BRN_EVT_TRIG_FIRE]⟩,
   ⟨"BRN_EVT_STATS", 0x200414, 1, 0, [(6, 0x10000), (8, 0x20)], [BRN_EVT_STATS_RUNS, BRN_EVT_STATS_LOST]⟩,
   ⟨"BRN_ERR_CFG", 0x200600, 1, 0, [(6, 0x10000), (8, 0x20)], [BRN_ERR_CFG_ON, BRN_ERR_CFG_PRIO, BRN_ERR_CFG_CORE]⟩,
   ⟨"BRN_ERR_ENTRY", 0x200604, 1, 0, [(6, 0x10000), (8, 0x20)], [BRN_ERR_ENTRY_ENTRY]⟩,
   ⟨"BRN_ERR_SAVE", 0x200608, 1, 0, [(6, 0x10000), (8, 0x20)], [BRN_ERR_SAVE_SAVE]⟩,
   ⟨"BRN_ERR_ARG", 0x20060C, 1, 0, [(6, 0x10000), (8, 0x20)], [BRN_ERR_ARG_ARG_OFF]⟩,
   ⟨"BRN_ERR_STATS", 0x200610, 1, 0, [(6, 0x10000), (8, 0x20)], [BRN_ERR_STATS_RUNS, BRN_ERR_STATS_QUEUED, BRN_ERR_STATS_LOST]⟩,
   ⟨"BRN_START_CFG", 0x200800, 1, 0, [(6, 0x10000)], [BRN_START_CFG_CORE, BRN_START_CFG_DIN]⟩,
   ⟨"BRN_START_ENTRY", 0x200804, 1, 0, [(6, 0x10000)], [BRN_START_ENTRY_ENTRY]⟩,
   ⟨"BRN_START_SAVE", 0x200808, 1, 0, [(6, 0x10000)], [BRN_START_SAVE_SAVE]⟩,
   ⟨"BRN_XCHG_PKG", 0x200900, 2, 2, [(6, 0x10000)], [BRN_XCHG_PKG_ADDR]⟩,
   ⟨"BRN_XCHG_LEN", 0x200908, 1, 0, [(6, 0x10000)], [BRN_XCHG_LEN_BYTES]⟩,
   ⟨"BRN_XCHG_CMD", 0x20090C, 1, 0, [(6, 0x10000)], [BRN_XCHG_CMD_ALLOW_SKIP, BRN_XCHG_CMD_OP]⟩,
   ⟨"BRN_XCHG_AREA", 0x200910, 2, 2, [(6, 0x10000)], [BRN_XCHG_AREA_ADDR]⟩,
   ⟨"BRN_XCHG_STATUS", 0x200918, 1, 0, [(6, 0x10000)], [BRN_XCHG_STATUS_STATE, BRN_XCHG_STATUS_REFUSAL]⟩,
   ⟨"BRN_XCHG_HOLD", 0x20091C, 1, 0, [(6, 0x10000)], [BRN_XCHG_HOLD_HOLD_NS]⟩,
   ⟨"BRN_XCHG_MATCH", 0x200920, 1, 0, [(6, 0x10000)], [BRN_XCHG_MATCH_MATCHED, BRN_XCHG_MATCH_NEW]⟩,
   ⟨"BRN_XCHG_DROP", 0x200924, 1, 0, [(6, 0x10000)], [BRN_XCHG_DROP_MISMATCHED, BRN_XCHG_DROP_REMOVED]⟩,
   ⟨"BRN_XCHG_PROG_PERMYRIAD", 0x200930, 1, 0, [(6, 0x10000)], [BRN_XCHG_PROG_PERMYRIAD_STATE, BRN_XCHG_PROG_PERMYRIAD_VAL]⟩,
   ⟨"BRN_XCHG_PROG_POSITION", 0x200934, 1, 0, [(6, 0x10000)], [BRN_XCHG_PROG_POSITION_VAL]⟩,
   ⟨"BRN_XCHG_PROG_TOTAL", 0x200938, 1, 0, [(6, 0x10000)], [BRN_XCHG_PROG_TOTAL_VAL]⟩]

def regTableCARGO : List Reg :=
  [⟨"NET_CARGO_CTRL", 0x880000, 1, 0, [], [NET_CARGO_CTRL_ENABLE, NET_CARGO_CTRL_REFUSAL, NET_CARGO_CTRL_AREA]⟩,
   ⟨"NET_CARGO_SYSID", 0x880004, 1, 0, [], [NET_CARGO_SYSID_SYSTEM_ID]⟩,
   ⟨"NET_CARGO_UDP", 0x880008, 1, 0, [], [NET_CARGO_UDP_PORT]⟩,
   ⟨"NET_CARGO_TABLE", 0x880010, 2, 2, [], [NET_CARGO_TABLE_BASE]⟩,
   ⟨"NET_CARGO_FAIL", 0x880018, 1, 0, [], [NET_CARGO_FAIL_VALID, NET_CARGO_FAIL_STATION]⟩,
   ⟨"NET_CARGO_ERR", 0x880020, 1, 0, [(5, 0x4)], [NET_CARGO_ERR_COUNT]⟩,
   ⟨"NET_CARGO_DROPPED", 0x880100, 1, 0, [(64, 0x4)], [NET_CARGO_DROPPED_DROPPED]⟩]

def regTableGRV : List Reg :=
  [⟨"GRV_CTRL", 0x400000, 1, 0, [], [GRV_CTRL_ENABLE, GRV_CTRL_REFUSAL]⟩,
   ⟨"GRV_SCHED", 0x400004, 1, 0, [], [GRV_SCHED_GROUPS, GRV_SCHED_CONTEXTS, GRV_SCHED_LWAIT]⟩,
   ⟨"GRV_WORST", 0x400008, 1, 0, [], [GRV_WORST_WORST_NS]⟩,
   ⟨"GRV_GRP_CTRL", 0x400100, 1, 0, [(32, 0x10)], [GRV_GRP_CTRL_ENABLE, GRV_GRP_CTRL_REFUSAL, GRV_GRP_CTRL_COMM_EN]⟩,
   ⟨"GRV_GRP_OUT", 0x400104, 1, 0, [(32, 0x10)], [GRV_GRP_OUT_PORT]⟩,
   ⟨"GRV_GRP_STATUS", 0x400108, 1, 0, [(32, 0x10)], [GRV_GRP_STATUS_VALID, GRV_GRP_STATUS_MEMBERS, GRV_GRP_STATUS_WINNER]⟩,
   ⟨"GRV_GRP_APPLIED", 0x40010C, 1, 0, [(32, 0x10)], [GRV_GRP_APPLIED_VALUE]⟩,
   ⟨"GRV_FF_CTRL", 0x400400, 1, 0, [(16, 0x20)], [GRV_FF_CTRL_REFUSAL, GRV_FF_CTRL_SHADOW, GRV_FF_CTRL_ACTIVE_EMPTY, GRV_FF_CTRL_ACTIVE_BANK]⟩,
   ⟨"GRV_FF_SRC", 0x400408, 2, 2, [(16, 0x20)], [GRV_FF_SRC_ADDR]⟩,
   ⟨"GRV_FF_CMD", 0x400410, 1, 0, [(16, 0x20)], [GRV_FF_CMD_REBUILD]⟩,
   ⟨"GRV_FF_EXP", 0x400414, 1, 0, [(16, 0x20)], [GRV_FF_EXP_EXP1, GRV_FF_EXP_EXP0]⟩,
   ⟨"GRV_CTX_CTRL", 0x410000, 1, 0, [(128, 0x100)], [GRV_CTX_CTRL_ENABLE, GRV_CTX_CTRL_REFUSAL]⟩,
   ⟨"GRV_CTX_LIVE", 0x410004, 1, 0, [(128, 0x100)], [GRV_CTX_LIVE_ACTIVE_SET, GRV_CTX_LIVE_TRACK, GRV_CTX_LIVE_RESEED, GRV_CTX_LIVE_COMM_EN]⟩,
   ⟨"GRV_CTX_CFG", 0x410008, 1, 0, [(128, 0x100)], [GRV_CTX_CFG_FORM, GRV_CTX_CFG_GROUP, GRV_CTX_CFG_FF_ON, GRV_CTX_CFG_FF_TABLE, GRV_CTX_CFG_FF_SIGN, GRV_CTX_CFG_FF_WRAP, GRV_CTX_CFG_EI, GRV_CTX_CFG_EX]⟩,
   ⟨"GRV_CTX_PERIOD", 0x41000C, 1, 0, [(128, 0x100)], [GRV_CTX_PERIOD_VALUE]⟩,
   ⟨"GRV_CTX_PHASE", 0x410010, 1, 0, [(128, 0x100)], [GRV_CTX_PHASE_VALUE]⟩,
   ⟨"GRV_CTX_SP", 0x410014, 1, 0, [(128, 0x100)], [GRV_CTX_SP_PORT]⟩,
   ⟨"GRV_CTX_MEAS", 0x410018, 1, 0, [(128, 0x100)], [GRV_CTX_MEAS_PORT]⟩,
   ⟨"GRV_CTX_OUT", 0x41001C, 1, 0, [(128, 0x100)], [GRV_CTX_OUT_PORT]⟩,
   ⟨"GRV_CTX_FFPOS", 0x410020, 1, 0, [(128, 0x100)], [GRV_CTX_FFPOS_PORT]⟩,
   ⟨"GRV_CTX_SETPOINT", 0x410024, 1, 0, [(128, 0x100)], [GRV_CTX_SETPOINT_VALUE]⟩,
   ⟨"GRV_CTX_OUT_MIN", 0x410028, 1, 0, [(128, 0x100)], [GRV_CTX_OUT_MIN_VALUE]⟩,
   ⟨"GRV_CTX_OUT_MAX", 0x41002C, 1, 0, [(128, 0x100)], [GRV_CTX_OUT_MAX_VALUE]⟩,
   ⟨"GRV_CTX_OUT_OFFSET", 0x410030, 1, 0, [(128, 0x100)], [GRV_CTX_OUT_OFFSET_VALUE]⟩,
   ⟨"GRV_CTX_TRACK_VAL", 0x410034, 1, 0, [(128, 0x100)], [GRV_CTX_TRACK_VAL_VALUE]⟩,
   ⟨"GRV_CTX_FF_X0", 0x410038, 1, 0, [(128, 0x100)], [GRV_CTX_FF_X0_VALUE]⟩,
   ⟨"GRV_CTX_FF_XMUL", 0x41003C, 1, 0, [(128, 0x100)], [GRV_CTX_FF_XMUL_VALUE]⟩,
   ⟨"GRV_CTX_FF_MOD", 0x410040, 1, 0, [(128, 0x100)], [GRV_CTX_FF_MOD_VALUE]⟩,
   ⟨"GRV_CTX_STATUS", 0x410044, 1, 0, [(128, 0x100)], [GRV_CTX_STATUS_SEEDED, GRV_CTX_STATUS_TRACKING, GRV_CTX_STATUS_CLAMP_HI, GRV_CTX_STATUS_CLAMP_LO, GRV_CTX_STATUS_WON, GRV_CTX_STATUS_SAT]⟩,
   ⟨"GRV_CTX_APPLIED", 0x410048, 1, 0, [(128, 0x100)], [GRV_CTX_APPLIED_VALUE]⟩,
   ⟨"GRV_CTX_UOUT", 0x41004C, 1, 0, [(128, 0x100)], [GRV_CTX_UOUT_MANTISSA]⟩,
   ⟨"GRV_CTX_EXPS", 0x410050, 1, 0, [(128, 0x100)], [GRV_CTX_EXPS_E_OUT, GRV_CTX_EXPS_E_STATE, GRV_CTX_EXPS_E_WORK]⟩,
   ⟨"GRV_CTX_SAMPLES", 0x410054, 1, 0, [(128, 0x100)], [GRV_CTX_SAMPLES_COUNT]⟩,
   ⟨"GRV_CTX_OVERRUNS", 0x410058, 1, 0, [(128, 0x100)], [GRV_CTX_OVERRUNS_COUNT]⟩,
   ⟨"GRV_CTX_HIST", 0x410060, 1, 0, [(128, 0x100), (8, 0x4)], [GRV_CTX_HIST_MANTISSA]⟩,
   ⟨"GRV_CTX_COEF", 0x410080, 1, 0, [(128, 0x100), (2, 0x20), (7, 0x4)], [GRV_CTX_COEF_MANTISSA]⟩,
   ⟨"GRV_CTX_COEF_EXP", 0x41009C, 1, 0, [(128, 0x100), (2, 0x20)], [GRV_CTX_COEF_EXP_EXP]⟩]

def regTableDRF : List Reg :=
  [⟨"DRF_CTRL", 0x500000, 1, 0, [], [DRF_CTRL_ENABLE, DRF_CTRL_REFUSAL]⟩,
   ⟨"DRF_STATUS", 0x500004, 1, 0, [], [DRF_STATUS_BUSY, DRF_STATUS_RUNNING, DRF_STATUS_QUEUED]⟩,
   ⟨"DRF_CANCEL", 0x500010, 1, 0, [], [DRF_CANCEL_TAG, DRF_CANCEL_SLOT]⟩,
   ⟨"DRF_LAST_REFUSAL", 0x500014, 1, 0, [], [DRF_LAST_REFUSAL_VALID, DRF_LAST_REFUSAL_MASTER, DRF_LAST_REFUSAL_CODE]⟩,
   ⟨"DRF_SPILL_BASE", 0x500018, 2, 2, [], [DRF_SPILL_BASE_ADDR]⟩,
   ⟨"DRF_SPILL_SIZE", 0x500020, 1, 0, [], [DRF_SPILL_SIZE_MB]⟩,
   ⟨"DRF_COUNTS", 0x500024, 1, 0, [], [DRF_COUNTS_NOTIFY_LOST, DRF_COUNTS_DISCARDED]⟩,
   ⟨"DRF_DONE", 0x500028, 1, 0, [], [DRF_DONE_RECORDS]⟩,
   ⟨"DRF_MEM_LAST", 0x50002C, 1, 0, [], [DRF_MEM_LAST_SPILL_MB, DRF_MEM_LAST_FACTOR_KB]⟩,
   ⟨"DRF_PROG_PERMYRIAD", 0x500030, 1, 0, [], [DRF_PROG_PERMYRIAD_STATE, DRF_PROG_PERMYRIAD_VAL]⟩,
   ⟨"DRF_PROG_POSITION", 0x500034, 1, 0, [], [DRF_PROG_POSITION_VAL]⟩,
   ⟨"DRF_PROG_TOTAL", 0x500038, 1, 0, [], [DRF_PROG_TOTAL_VAL]⟩,
   ⟨"DRF_SLOT", 0x500100, 1, 0, [(64, 0x4)], [DRF_SLOT_STATE, DRF_SLOT_PATH, DRF_SLOT_TAG]⟩,
   ⟨"DRF_SUBMIT", 0x580000, 2, 2, [], [DRF_SUBMIT_NOTIFY, DRF_SUBMIT_ADDR]⟩]

def regTableBCN : List Reg :=
  [⟨"BCN_CTRL", 0x600000, 1, 0, [], [BCN_CTRL_ENABLE, BCN_CTRL_REFUSAL]⟩,
   ⟨"BCN_STATUS", 0x600004, 1, 0, [], [BCN_STATUS_PASS, BCN_STATUS_FIRST_DONE, BCN_STATUS_CLOCK_INVALID]⟩,
   ⟨"BCN_CFG", 0x600008, 1, 0, [], [BCN_CFG_FALLBACK_DEM, BCN_CFG_EVAL_PERIOD_MS]⟩,
   ⟨"BCN_CFG2", 0x60000C, 1, 0, [], [BCN_CFG2_FAULT_MASK, BCN_CFG2_REFRESH_S]⟩,
   ⟨"BCN_TIMEOUT", 0x600010, 1, 0, [], [BCN_TIMEOUT_LANT_SILENT_S, BCN_TIMEOUT_GW_SILENT_S]⟩,
   ⟨"BCN_TEMP_AGE", 0x600014, 1, 0, [], [BCN_TEMP_AGE_TEMP_AGE_S]⟩,
   ⟨"BCN_SYSID", 0x600018, 1, 0, [], [BCN_SYSID_SYSTEM_ID]⟩,
   ⟨"BCN_UDP", 0x60001C, 1, 0, [], [BCN_UDP_PORT]⟩,
   ⟨"BCN_LDB_BASE", 0x600020, 2, 2, [], [BCN_LDB_BASE_ADDR]⟩,
   ⟨"BCN_LDB_COUNT", 0x600028, 1, 0, [], [BCN_LDB_COUNT_COUNT]⟩,
   ⟨"BCN_LWAIT", 0x60002C, 1, 0, [], [BCN_LWAIT_L_D]⟩,
   ⟨"BCN_PASS_WORST", 0x600030, 1, 0, [], [BCN_PASS_WORST_NS]⟩,
   ⟨"BCN_PASS_LAST", 0x600034, 1, 0, [], [BCN_PASS_LAST_NS]⟩,
   ⟨"BCN_EVALS", 0x600038, 1, 0, [], [BCN_EVALS_SKIPPED, BCN_EVALS_TORN]⟩,
   ⟨"BCN_SOLAR_LAT", 0x600040, 1, 0, [], [BCN_SOLAR_LAT_LAT]⟩,
   ⟨"BCN_SOLAR_LON", 0x600044, 1, 0, [], [BCN_SOLAR_LON_LON]⟩,
   ⟨"BCN_SOLAR_CFG", 0x600048, 1, 0, [], [BCN_SOLAR_CFG_UTC_OFF_MIN]⟩,
   ⟨"BCN_SOLAR_EVT", 0x600050, 1, 0, [(6, 0x4)], [BCN_SOLAR_EVT_VALID, BCN_SOLAR_EVT_MINUTE]⟩,
   ⟨"BCN_PROF_CTRL", 0x600070, 1, 0, [], [BCN_PROF_CTRL_REFUSAL, BCN_PROF_CTRL_SHADOW, BCN_PROF_CTRL_ACTIVE_EMPTY, BCN_PROF_CTRL_ACTIVE_BANK]⟩,
   ⟨"BCN_PROF_SRC", 0x600078, 2, 2, [], [BCN_PROF_SRC_ADDR]⟩,
   ⟨"BCN_PROF_CMD", 0x600080, 1, 0, [], [BCN_PROF_CMD_REBUILD]⟩,
   ⟨"BCN_PROF_FAIL", 0x600084, 1, 0, [], [BCN_PROF_FAIL_OFFSET]⟩,
   ⟨"BCN_FAULT_COUNT", 0x6000C0, 1, 0, [(16, 0x4)], [BCN_FAULT_COUNT_LANTERNS]⟩,
   ⟨"BCN_FEV_BASE", 0x600100, 2, 2, [], [BCN_FEV_BASE_ADDR]⟩,
   ⟨"BCN_FEV_CFG", 0x600108, 1, 0, [], [BCN_FEV_CFG_LOG2_SIZE]⟩,
   ⟨"BCN_FEV_HEAD", 0x60010C, 1, 0, [], [BCN_FEV_HEAD_INDEX]⟩,
   ⟨"BCN_FEV_TAIL", 0x600110, 1, 0, [], [BCN_FEV_TAIL_INDEX]⟩,
   ⟨"BCN_FEV_LOST", 0x600114, 1, 0, [], [BCN_FEV_LOST_COUNT]⟩,
   ⟨"BCN_RX_ERR", 0x600120, 1, 0, [(7, 0x4)], [BCN_RX_ERR_COUNT]⟩,
   ⟨"BCN_MSG", 0x60013C, 1, 0, [], [BCN_MSG_MSG_UNKNOWN, BCN_MSG_NO_LANTERN]⟩,
   ⟨"BCN_PT_CMD", 0x600140, 1, 0, [], [BCN_PT_CMD_BUSY, BCN_PT_CMD_GO, BCN_PT_CMD_GATEWAY, BCN_PT_CMD_LENGTH]⟩,
   ⟨"BCN_PT_SRC", 0x600148, 2, 2, [], [BCN_PT_SRC_ADDR]⟩,
   ⟨"BCN_CAMP_AREA", 0x600180, 2, 2, [], [BCN_CAMP_AREA_ADDR]⟩,
   ⟨"BCN_CAMP_CFG", 0x600400, 1, 0, [(8, 0x40)], [BCN_CAMP_CFG_WAVE_SIZE, BCN_CAMP_CFG_RETRIES, BCN_CAMP_CFG_ALG, BCN_CAMP_CFG_PATH]⟩,
   ⟨"BCN_CAMP_TIMING", 0x600404, 1, 0, [(8, 0x40)], [BCN_CAMP_TIMING_KEY_SLOT, BCN_CAMP_TIMING_ACK_TIMEOUT_MS]⟩,
   ⟨"BCN_CAMP_IMAGE", 0x600408, 2, 2, [(8, 0x40)], [BCN_CAMP_IMAGE_ADDR]⟩,
   ⟨"BCN_CAMP_SIG", 0x600410, 2, 2, [(8, 0x40)], [BCN_CAMP_SIG_ADDR]⟩,
   ⟨"BCN_CAMP_LEN", 0x600418, 1, 0, [(8, 0x40)], [BCN_CAMP_LEN_BYTES]⟩,
   ⟨"BCN_CAMP_CMD", 0x60041C, 1, 0, [(8, 0x40)], [BCN_CAMP_CMD_OP]⟩,
   ⟨"BCN_CAMP_STATUS", 0x600420, 1, 0, [(8, 0x40)], [BCN_CAMP_STATUS_STATE, BCN_CAMP_STATUS_FAIL, BCN_CAMP_STATUS_WAVE, BCN_CAMP_STATUS_REFUSAL]⟩,
   ⟨"BCN_CAMP_TARGETS", 0x600424, 1, 0, [(8, 0x40)], [BCN_CAMP_TARGETS_COUNT]⟩,
   ⟨"BCN_CAMP_DONE", 0x600428, 1, 0, [(8, 0x40)], [BCN_CAMP_DONE_COUNT]⟩,
   ⟨"BCN_CAMP_FAILED", 0x60042C, 1, 0, [(8, 0x40)], [BCN_CAMP_FAILED_COUNT]⟩,
   ⟨"BCN_CAMP_PROG_PERMYRIAD", 0x600430, 1, 0, [(8, 0x40)], [BCN_CAMP_PROG_PERMYRIAD_STATE, BCN_CAMP_PROG_PERMYRIAD_VAL]⟩,
   ⟨"BCN_CAMP_PROG_POSITION", 0x600434, 1, 0, [(8, 0x40)], [BCN_CAMP_PROG_POSITION_VAL]⟩,
   ⟨"BCN_CAMP_PROG_TOTAL", 0x600438, 1, 0, [(8, 0x40)], [BCN_CAMP_PROG_TOTAL_VAL]⟩]

def regTableTLY : List Reg :=
  [⟨"TLY_CTRL", 0x700000, 1, 0, [], [TLY_CTRL_ENABLE, TLY_CTRL_REFUSAL]⟩,
   ⟨"TLY_STATUS", 0x700004, 1, 0, [], [TLY_STATUS_TOTALS_INIT, TLY_STATUS_DELTA_MODE, TLY_STATUS_TRANSIT, TLY_STATUS_SENSOR_VALID, TLY_STATUS_TEMP]⟩,
   ⟨"TLY_EVT_BASE", 0x700040, 2, 2, [], [TLY_EVT_BASE_ADDR]⟩,
   ⟨"TLY_EVT_CFG", 0x700048, 1, 0, [], [TLY_EVT_CFG_LOG2_SIZE]⟩,
   ⟨"TLY_EVT_HEAD", 0x70004C, 1, 0, [], [TLY_EVT_HEAD_INDEX]⟩,
   ⟨"TLY_EVT_TAIL", 0x700050, 1, 0, [], [TLY_EVT_TAIL_INDEX]⟩,
   ⟨"TLY_EVT_LOST", 0x700054, 1, 0, [], [TLY_EVT_LOST_COUNT]⟩,
   ⟨"TLY_PRESET_VAL", 0x700060, 2, 2, [], [TLY_PRESET_VAL_VALUE]⟩,
   ⟨"TLY_PRESET_CMD", 0x700068, 1, 0, [], [TLY_PRESET_CMD_GO, TLY_PRESET_CMD_REFUSAL, TLY_PRESET_CMD_INDEX]⟩,
   ⟨"TLY_MRAM_SEQ", 0x700070, 2, 2, [], [TLY_MRAM_SEQ_SEQ]⟩,
   ⟨"TLY_MRAM_STATUS", 0x700078, 1, 0, [], [TLY_MRAM_STATUS_LAST_SLOT, TLY_MRAM_STATUS_FAILS]⟩,
   ⟨"TLY_GEN_MEAN", 0x700100, 1, 0, [(4, 0x10)], [TLY_GEN_MEAN_VALUE]⟩,
   ⟨"TLY_GEN_RMS", 0x700104, 1, 0, [(4, 0x10)], [TLY_GEN_RMS_VALUE]⟩,
   ⟨"TLY_FDR_CTRL", 0x701000, 1, 0, [(4, 0x400)], [TLY_FDR_CTRL_ENABLE, TLY_FDR_CTRL_REFUSAL]⟩,
   ⟨"TLY_FDR_CFG", 0x701004, 1, 0, [(4, 0x400)], [TLY_FDR_CFG_NOMINAL60, TLY_FDR_CFG_FREQ_PHASE, TLY_FDR_CFG_SAGREF, TLY_FDR_CFG_PHASE_MASK]⟩,
   ⟨"TLY_FDR_UDIN", 0x701008, 1, 0, [(4, 0x400)], [TLY_FDR_UDIN_UDIN]⟩,
   ⟨"TLY_FDR_PQ_THR", 0x70100C, 1, 0, [(4, 0x400)], [TLY_FDR_PQ_THR_SWELL, TLY_FDR_PQ_THR_SAG]⟩,
   ⟨"TLY_FDR_PQ_THR2", 0x701010, 1, 0, [(4, 0x400)], [TLY_FDR_PQ_THR2_HYST, TLY_FDR_PQ_THR2_INT]⟩,
   ⟨"TLY_FDR_LATCH", 0x701014, 1, 0, [(4, 0x400)], [TLY_FDR_LATCH_N]⟩,
   ⟨"TLY_FDR_CYCLE", 0x701020, 1, 0, [(4, 0x400)], [TLY_FDR_CYCLE_VALID, TLY_FDR_CYCLE_FREQ_HELD, TLY_FDR_CYCLE_IN_EVENT, TLY_FDR_CYCLE_COUNT]⟩,
   ⟨"TLY_FDR_FREQ", 0x701024, 1, 0, [(4, 0x400)], [TLY_FDR_FREQ_VALUE]⟩,
   ⟨"TLY_FDR_USR", 0x701028, 1, 0, [(4, 0x400)], [TLY_FDR_USR_VALUE]⟩,
   ⟨"TLY_FDR_IN_RMS", 0x70102C, 1, 0, [(4, 0x400)], [TLY_FDR_IN_RMS_VALUE]⟩,
   ⟨"TLY_FDR_IN_RMS1", 0x701030, 1, 0, [(4, 0x400)], [TLY_FDR_IN_RMS1_VALUE]⟩,
   ⟨"TLY_FDR_RESULT", 0x701040, 1, 0, [(4, 0x400), (4, 0x40), (13, 0x4)], [TLY_FDR_RESULT_VALUE]⟩,
   ⟨"TLY_FDR_TOTAL", 0x701200, 2, 2, [(4, 0x400), (4, 0x20), (4, 0x8)], [TLY_FDR_TOTAL_VALUE]⟩,
   ⟨"TLY_FDR_DELTA", 0x701300, 1, 0, [(4, 0x400), (4, 0x10), (4, 0x4)], [TLY_FDR_DELTA_VALUE]⟩,
   ⟨"TLY_FDR_DELTA_STATUS", 0x701340, 1, 0, [(4, 0x400)], [TLY_FDR_DELTA_STATUS_PARTIAL, TLY_FDR_DELTA_STATUS_SEQ]⟩,
   ⟨"TLY_CH_CFG", 0x703000, 1, 0, [(28, 0x100)], [TLY_CH_CFG_HPF, TLY_CH_CFG_NPTS]⟩,
   ⟨"TLY_CHG_CFG", 0x704C00, 1, 0, [(4, 0x100)], [TLY_CHG_CFG_HPF, TLY_CHG_CFG_NPTS]⟩,
   ⟨"TLY_CH_KFS", 0x703004, 1, 0, [(32, 0x100)], [TLY_CH_KFS_KFS]⟩,
   ⟨"TLY_CH_STATE", 0x703008, 1, 0, [(32, 0x100)], [TLY_CH_STATE_CLIP]⟩,
   ⟨"TLY_CH_GAIN_NOW", 0x70300C, 1, 0, [(32, 0x100)], [TLY_CH_GAIN_NOW_G]⟩,
   ⟨"TLY_CH_DELAY_NOW", 0x703010, 1, 0, [(32, 0x100)], [TLY_CH_DELAY_NOW_D]⟩,
   ⟨"TLY_CH_CAL_T", 0x703020, 1, 0, [(32, 0x100), (16, 0xC)], [TLY_CH_CAL_T_TEMP]⟩,
   ⟨"TLY_CH_CAL_G", 0x703024, 1, 0, [(32, 0x100), (16, 0xC)], [TLY_CH_CAL_G_GAIN]⟩,
   ⟨"TLY_CH_CAL_D", 0x703028, 1, 0, [(32, 0x100), (16, 0xC)], [TLY_CH_CAL_D_DELAY]⟩,
   ⟨"TLY_PO_CFG", 0x705000, 1, 0, [(8, 0x20)], [TLY_PO_CFG_ENABLE, TLY_PO_CFG_COMM_EN, TLY_PO_CFG_REFUSAL, TLY_PO_CFG_KIND, TLY_PO_CFG_SOURCE, TLY_PO_CFG_POL, TLY_PO_CFG_WIDTH_MS]⟩,
   ⟨"TLY_PO_WEIGHT", 0x705004, 1, 0, [(8, 0x20)], [TLY_PO_WEIGHT_WEIGHT]⟩,
   ⟨"TLY_PO_STATUS", 0x705008, 1, 0, [(8, 0x20)], [TLY_PO_STATUS_OVERFLOW, TLY_PO_STATUS_BACKLOG, TLY_PO_STATUS_DROPPED]⟩,
   ⟨"TLY_PO_COUNT", 0x70500C, 1, 0, [(8, 0x20)], [TLY_PO_COUNT_COUNT]⟩,
   ⟨"TLY_TH_CTRL", 0x706000, 1, 0, [(32, 0x100)], [TLY_TH_CTRL_ENABLE, TLY_TH_CTRL_REFUSAL]⟩,
   ⟨"TLY_TH_CFG", 0x706004, 1, 0, [(32, 0x100)], [TLY_TH_CFG_FLOW_PULSE, TLY_TH_CFG_DIR_EN, TLY_TH_CFG_FLOW_AT, TLY_TH_CFG_TABLE, TLY_TH_CFG_DIR_IN, TLY_TH_CFG_PULSE_IN]⟩,
   ⟨"TLY_TH_FLOW_PORT", 0x706008, 1, 0, [(32, 0x100)], [TLY_TH_FLOW_PORT_PORT]⟩,
   ⟨"TLY_TH_TS_PORT", 0x70600C, 1, 0, [(32, 0x100)], [TLY_TH_TS_PORT_PORT]⟩,
   ⟨"TLY_TH_TR_PORT", 0x706010, 1, 0, [(32, 0x100)], [TLY_TH_TR_PORT_PORT]⟩,
   ⟨"TLY_TH_FLOW_SCALE", 0x706014, 1, 0, [(32, 0x100)], [TLY_TH_FLOW_SCALE_SCALE]⟩,
   ⟨"TLY_TH_FS_KW", 0x706018, 1, 0, [(32, 0x100)], [TLY_TH_FS_KW_KW]⟩,
   ⟨"TLY_TH_LATCH", 0x70601C, 1, 0, [(32, 0x100)], [TLY_TH_LATCH_N]⟩,
   ⟨"TLY_TH_INTERVAL", 0x706020, 1, 0, [(32, 0x100)], [TLY_TH_INTERVAL_S]⟩,
   ⟨"TLY_TH_STATUS", 0x706024, 1, 0, [(32, 0x100)], [TLY_TH_STATUS_VALID, TLY_TH_STATUS_TEMP_CLAMP, TLY_TH_STATUS_DELTA_SAT, TLY_TH_STATUS_SOURCE_FAIL, TLY_TH_STATUS_REVERSALS]⟩,
   ⟨"TLY_TH_FLOW", 0x706028, 1, 0, [(32, 0x100)], [TLY_TH_FLOW_VALUE]⟩,
   ⟨"TLY_TH_TS", 0x70602C, 1, 0, [(32, 0x100)], [TLY_TH_TS_VALUE]⟩,
   ⟨"TLY_TH_TR", 0x706030, 1, 0, [(32, 0x100)], [TLY_TH_TR_VALUE]⟩,
   ⟨"TLY_TH_POWER", 0x706034, 1, 0, [(32, 0x100)], [TLY_TH_POWER_VALUE]⟩,
   ⟨"TLY_TH_TOTAL", 0x706040, 2, 2, [(32, 0x100), (4, 0x8)], [TLY_TH_TOTAL_VALUE]⟩,
   ⟨"TLY_TH_DELTA", 0x706060, 1, 0, [(32, 0x100), (2, 0x4)], [TLY_TH_DELTA_VALUE]⟩,
   ⟨"TLY_TH_DELTA_STATUS", 0x706068, 1, 0, [(32, 0x100)], [TLY_TH_DELTA_STATUS_PARTIAL, TLY_TH_DELTA_STATUS_SEQ]⟩,
   ⟨"TLY_TAB_T0", 0x708000, 1, 0, [(4, 0x800)], [TLY_TAB_T0_T0]⟩,
   ⟨"TLY_TAB_STEP", 0x708004, 1, 0, [(4, 0x800)], [TLY_TAB_STEP_STEP]⟩,
   ⟨"TLY_TAB_NPTS", 0x708008, 1, 0, [(4, 0x800)], [TLY_TAB_NPTS_NPTS]⟩,
   ⟨"TLY_TAB_DENSITY", 0x708100, 1, 0, [(4, 0x800), (128, 0x8)], [TLY_TAB_DENSITY_DENSITY]⟩,
   ⟨"TLY_TAB_ENTHALPY", 0x708104, 1, 0, [(4, 0x800), (128, 0x8)], [TLY_TAB_ENTHALPY_ENTHALPY]⟩]

def regTableNET : List Reg :=
  [⟨"NET_PORT_CTRL", 0x800000, 1, 0, [(5, 0x10000)], [NET_PORT_CTRL_ENABLE, NET_PORT_CTRL_REFUSAL, NET_PORT_CTRL_RATE, NET_PORT_CTRL_IF]⟩,
   ⟨"NET_PORT_STATUS", 0x800004, 1, 0, [(5, 0x10000)], [NET_PORT_STATUS_LINK, NET_PORT_STATUS_RATE_SEEN, NET_PORT_STATUS_LINK_DOWNS]⟩,
   ⟨"NET_PORT_MAC_LO", 0x800008, 1, 2, [(5, 0x10000)], [NET_PORT_MAC_LO_OCTETS_0_3]⟩,
   ⟨"NET_PORT_MAC_HI", 0x80000C, 1, 0, [(5, 0x10000)], [NET_PORT_MAC_HI_OCTETS_4_5]⟩,
   ⟨"NET_PORT_NEXTHOP_LO", 0x800010, 1, 2, [(5, 0x10000)], [NET_PORT_NEXTHOP_LO_OCTETS_0_3]⟩,
   ⟨"NET_PORT_NEXTHOP_HI", 0x800014, 1, 0, [(5, 0x10000)], [NET_PORT_NEXTHOP_HI_OCTETS_4_5]⟩,
   ⟨"NET_PORT_IPV4", 0x800018, 1, 0, [(5, 0x10000)], [NET_PORT_IPV4_ADDR]⟩,
   ⟨"NET_PORT_IPV6", 0x800020, 1, 4, [(5, 0x10000), (4, 0x4)], [NET_PORT_IPV6_ADDR]⟩,
   ⟨"NET_PORT_OTHER", 0x800030, 1, 0, [(5, 0x10000)], [NET_PORT_OTHER_OTHER_TC, NET_PORT_OTHER_OTHER_MAX]⟩,
   ⟨"NET_PORT_TX_LAT", 0x800034, 1, 0, [(5, 0x10000)], [NET_PORT_TX_LAT_LAT]⟩,
   ⟨"NET_PORT_RX_LAT", 0x800038, 1, 0, [(5, 0x10000)], [NET_PORT_RX_LAT_LAT]⟩,
   ⟨"NET_PORT_RXQ_BASE", 0x800040, 2, 2, [(5, 0x10000)], [NET_PORT_RXQ_BASE_ADDR]⟩,
   ⟨"NET_PORT_RXQ_CFG", 0x800048, 1, 0, [(5, 0x10000)], [NET_PORT_RXQ_CFG_LOG2_SIZE]⟩,
   ⟨"NET_PORT_RXQ_HEAD", 0x80004C, 1, 0, [(5, 0x10000)], [NET_PORT_RXQ_HEAD_INDEX]⟩,
   ⟨"NET_PORT_RXQ_TAIL", 0x800050, 1, 0, [(5, 0x10000)], [NET_PORT_RXQ_TAIL_INDEX]⟩,
   ⟨"NET_PORT_TXQ_BASE", 0x800058, 2, 2, [(5, 0x10000)], [NET_PORT_TXQ_BASE_ADDR]⟩,
   ⟨"NET_PORT_TXQ_CFG", 0x800060, 1, 0, [(5, 0x10000)], [NET_PORT_TXQ_CFG_LOG2_SIZE]⟩,
   ⟨"NET_PORT_TXQ_HEAD", 0x800064, 1, 0, [(5, 0x10000)], [NET_PORT_TXQ_HEAD_INDEX]⟩,
   ⟨"NET_PORT_TXQ_TAIL", 0x800068, 1, 0, [(5, 0x10000)], [NET_PORT_TXQ_TAIL_INDEX]⟩,
   ⟨"NET_PORT_MDIO", 0x800070, 1, 0, [(5, 0x10000)], [NET_PORT_MDIO_BUSY, NET_PORT_MDIO_C45, NET_PORT_MDIO_OP, NET_PORT_MDIO_PHYAD, NET_PORT_MDIO_REGAD, NET_PORT_MDIO_DATA]⟩,
   ⟨"NET_PORT_COUNT", 0x800080, 1, 0, [(5, 0x10000), (8, 0x4)], [NET_PORT_COUNT_COUNT]⟩,
   ⟨"NET_PORT_MCAST_LO", 0x800100, 1, 2, [(5, 0x10000), (32, 0x8)], [NET_PORT_MCAST_LO_OCTETS_0_3]⟩,
   ⟨"NET_PORT_MCAST_HI", 0x800104, 1, 0, [(5, 0x10000), (32, 0x8)], [NET_PORT_MCAST_HI_VALID, NET_PORT_MCAST_HI_OCTETS_4_5]⟩,
   ⟨"NET_GCL_ADMIN_BASE_NS", 0x800208, 1, 3, [(4, 0x10000)], [NET_GCL_ADMIN_BASE_NS_NANOSECONDS]⟩,
   ⟨"NET_GCL_ADMIN_BASE_LO", 0x80020C, 1, 0, [(4, 0x10000)], [NET_GCL_ADMIN_BASE_LO_SECONDS_LO]⟩,
   ⟨"NET_GCL_ADMIN_BASE_HI", 0x800210, 1, 0, [(4, 0x10000)], [NET_GCL_ADMIN_BASE_HI_SECONDS_HI]⟩,
   ⟨"NET_GCL_ADMIN_CYCLE", 0x800214, 1, 0, [(4, 0x10000)], [NET_GCL_ADMIN_CYCLE_CYCLE_NS]⟩,
   ⟨"NET_GCL_ADMIN_LEN", 0x800218, 1, 0, [(4, 0x10000)], [NET_GCL_ADMIN_LEN_LEN]⟩,
   ⟨"NET_GCL_STATUS", 0x800220, 1, 0, [(4, 0x10000)], [NET_GCL_STATUS_PENDING, NET_GCL_STATUS_ALIGNED, NET_GCL_STATUS_OPER_LEN]⟩,
   ⟨"NET_GCL_CHANGE_TIME_NS", 0x800224, 1, 3, [(4, 0x10000)], [NET_GCL_CHANGE_TIME_NS_NANOSECONDS]⟩,
   ⟨"NET_GCL_CHANGE_TIME_LO", 0x800228, 1, 0, [(4, 0x10000)], [NET_GCL_CHANGE_TIME_LO_SECONDS_LO]⟩,
   ⟨"NET_GCL_CHANGE_TIME_HI", 0x80022C, 1, 0, [(4, 0x10000)], [NET_GCL_CHANGE_TIME_HI_SECONDS_HI]⟩,
   ⟨"NET_GCL_OPER_BASE_NS", 0x800230, 1, 3, [(4, 0x10000)], [NET_GCL_OPER_BASE_NS_NANOSECONDS]⟩,
   ⟨"NET_GCL_OPER_BASE_LO", 0x800234, 1, 0, [(4, 0x10000)], [NET_GCL_OPER_BASE_LO_SECONDS_LO]⟩,
   ⟨"NET_GCL_OPER_BASE_HI", 0x800238, 1, 0, [(4, 0x10000)], [NET_GCL_OPER_BASE_HI_SECONDS_HI]⟩,
   ⟨"NET_GCL_OPER_CYCLE", 0x80023C, 1, 0, [(4, 0x10000)], [NET_GCL_OPER_CYCLE_CYCLE_NS]⟩,
   ⟨"NET_GCL_ADMIN_ENTRY", 0x801000, 1, 0, [(4, 0x10000), (256, 0x4)], [NET_GCL_ADMIN_ENTRY_GATES, NET_GCL_ADMIN_ENTRY_INTERVAL]⟩,
   ⟨"NET_GCL_OPER_ENTRY", 0x801400, 1, 0, [(4, 0x10000), (256, 0x4)], [NET_GCL_OPER_ENTRY_GATES, NET_GCL_OPER_ENTRY_INTERVAL]⟩,
   ⟨"NET_PTP_CFG", 0x800300, 1, 0, [(4, 0x10000), (2, 0x20)], [NET_PTP_CFG_STATE, NET_PTP_CFG_TRANSPORT, NET_PTP_CFG_P2P, NET_PTP_CFG_ONE_STEP_TX, NET_PTP_CFG_LOG_SYNC, NET_PTP_CFG_LOG_DELAY]⟩,
   ⟨"NET_PTP_DELAY", 0x800304, 1, 0, [(4, 0x10000), (2, 0x20)], [NET_PTP_DELAY_MEAN_DELAY]⟩,
   ⟨"NET_PTP_RATIO", 0x800308, 1, 0, [(4, 0x10000), (2, 0x20)], [NET_PTP_RATIO_NRR]⟩,
   ⟨"NET_PTP_COUNT", 0x80030C, 1, 0, [(4, 0x10000), (2, 0x20)], [NET_PTP_COUNT_SYNC_RX, NET_PTP_COUNT_SYNC_TX]⟩]

def regTableTID : List Reg :=
  [⟨"TID_CTRL", 0x900000, 1, 0, [], [TID_CTRL_ENABLE, TID_CTRL_REFUSAL]⟩,
   ⟨"TID_TIME_NS", 0x900010, 1, 3, [], [TID_TIME_NS_NANOSECONDS]⟩,
   ⟨"TID_TIME_LO", 0x900014, 1, 0, [], [TID_TIME_LO_SECONDS_LO]⟩,
   ⟨"TID_TIME_HI", 0x900018, 1, 0, [], [TID_TIME_HI_FRACTION, TID_TIME_HI_SECONDS_HI]⟩,
   ⟨"TID_ADJ_CMD", 0x900020, 1, 0, [], [TID_ADJ_CMD_OP]⟩,
   ⟨"TID_ADJ_VAL_NS", 0x900024, 1, 3, [], [TID_ADJ_VAL_NS_NANOSECONDS]⟩,
   ⟨"TID_ADJ_VAL_LO", 0x900028, 1, 0, [], [TID_ADJ_VAL_LO_SECONDS_LO]⟩,
   ⟨"TID_ADJ_VAL_HI", 0x90002C, 1, 0, [], [TID_ADJ_VAL_HI_SECONDS_HI]⟩,
   ⟨"TID_ADJ_OFS", 0x900030, 1, 0, [], [TID_ADJ_OFS_OFFSET_NS]⟩,
   ⟨"TID_SLEW", 0x900034, 1, 0, [], [TID_SLEW_SLEW_MAX]⟩,
   ⟨"TID_SLEW_LEFT", 0x900038, 1, 0, [], [TID_SLEW_LEFT_NS]⟩,
   ⟨"TID_SELECT", 0x900040, 1, 0, [], [TID_SELECT_AUTO, TID_SELECT_WIDE, TID_SELECT_SWITCHES, TID_SELECT_LOSS_INTERVALS, TID_SELECT_ACTIVE]⟩,
   ⟨"TID_DOM_CFG", 0x900100, 1, 0, [(2, 0x40)], [TID_DOM_CFG_ENABLE, TID_DOM_CFG_REFUSAL, TID_DOM_CFG_DOMAIN_NUMBER, TID_DOM_CFG_STEP_EN, TID_DOM_CFG_PROFILE]⟩,
   ⟨"TID_DOM_STATUS", 0x900104, 1, 0, [(2, 0x40)], [TID_DOM_STATUS_SERVO, TID_DOM_STATUS_SAMPLES]⟩,
   ⟨"TID_DOM_OFFSET", 0x900108, 2, 2, [(2, 0x40)], [TID_DOM_OFFSET_OFFSET]⟩,
   ⟨"TID_DOM_FREQ", 0x900110, 1, 0, [(2, 0x40)], [TID_DOM_FREQ_FREQ]⟩,
   ⟨"TID_DOM_GAIN", 0x900114, 1, 0, [(2, 0x40)], [TID_DOM_GAIN_KP, TID_DOM_GAIN_KI]⟩,
   ⟨"TID_DOM_LIMITS", 0x900118, 1, 0, [(2, 0x40)], [TID_DOM_LIMITS_LOCK_NS, TID_DOM_LIMITS_ACQ_STEP]⟩]

def regTableTIDE : List Reg :=
  [⟨"TIDE_OUT_CTRL", 0x900400, 1, 0, [(8, 0x20)], [TIDE_OUT_CTRL_ENABLE, TIDE_OUT_CTRL_REFUSAL, TIDE_OUT_CTRL_MODE, TIDE_OUT_CTRL_POL, TIDE_OUT_CTRL_OWNED, TIDE_OUT_CTRL_SAFE_REL]⟩,
   ⟨"TIDE_OUT_START_NS", 0x900404, 1, 3, [(8, 0x20)], [TIDE_OUT_START_NS_NANOSECONDS]⟩,
   ⟨"TIDE_OUT_START_LO", 0x900408, 1, 0, [(8, 0x20)], [TIDE_OUT_START_LO_SECONDS_LO]⟩,
   ⟨"TIDE_OUT_START_HI", 0x90040C, 1, 0, [(8, 0x20)], [TIDE_OUT_START_HI_SECONDS_HI]⟩,
   ⟨"TIDE_OUT_PERIOD", 0x900410, 1, 0, [(8, 0x20)], [TIDE_OUT_PERIOD_NS]⟩,
   ⟨"TIDE_OUT_WIDTH", 0x900414, 1, 0, [(8, 0x20)], [TIDE_OUT_WIDTH_NS]⟩,
   ⟨"TIDE_OUT_STATUS", 0x900418, 1, 0, [(8, 0x20)], [TIDE_OUT_STATUS_SKIPPED, TIDE_OUT_STATUS_REPEAT, TIDE_OUT_STATUS_DONE, TIDE_OUT_STATUS_PULSES]⟩,
   ⟨"TIDE_IN_CFG", 0x900600, 1, 0, [(4, 0x20)], [TIDE_IN_CFG_ENABLE, TIDE_IN_CFG_REFUSAL, TIDE_IN_CFG_EDGE]⟩,
   ⟨"TIDE_IN_LAT", 0x900604, 1, 0, [(4, 0x20)], [TIDE_IN_LAT_IN_LAT]⟩,
   ⟨"TIDE_IN_STATUS", 0x900608, 1, 0, [(4, 0x20)], [TIDE_IN_STATUS_OVERFLOW, TIDE_IN_STATUS_COUNT]⟩,
   ⟨"TIDE_IN_TS_NS", 0x90060C, 1, 3, [(4, 0x20)], [TIDE_IN_TS_NS_RISING, TIDE_IN_TS_NS_VALID, TIDE_IN_TS_NS_TS_NS]⟩,
   ⟨"TIDE_IN_TS_LO", 0x900610, 1, 0, [(4, 0x20)], [TIDE_IN_TS_LO_TS_S_LO]⟩,
   ⟨"TIDE_IN_TS_HI", 0x900614, 1, 0, [(4, 0x20)], [TIDE_IN_TS_HI_TS_S_HI]⟩]

def regTableFBS : List Reg :=
  [⟨"FBS_CTL_CTRL", 0xA00000, 1, 0, [(8, 0x8000)], [FBS_CTL_CTRL_ENABLE, FBS_CTL_CTRL_REFUSAL, FBS_CTL_CTRL_FORMATS, FBS_CTL_CTRL_OPMODE]⟩,
   ⟨"FBS_CTL_STATUS", 0xA00004, 1, 0, [(8, 0x8000)], [FBS_CTL_STATUS_STATE, FBS_CTL_STATUS_RESTRICTED, FBS_CTL_STATUS_TEC, FBS_CTL_STATUS_REC]⟩,
   ⟨"FBS_CTL_NBT", 0xA00008, 1, 0, [(8, 0x8000)], [FBS_CTL_NBT_NBRP, FBS_CTL_NBT_NTSEG1, FBS_CTL_NBT_NTSEG2, FBS_CTL_NBT_NSJW]⟩,
   ⟨"FBS_CTL_DBT", 0xA0000C, 1, 0, [(8, 0x8000)], [FBS_CTL_DBT_DBRP, FBS_CTL_DBT_DTSEG1, FBS_CTL_DBT_DTSEG2, FBS_CTL_DBT_TDC_OFFSET]⟩,
   ⟨"FBS_CTL_EXT", 0xA00010, 1, 0, [(8, 0x8000)], [FBS_CTL_EXT_EXT_MAX_BITS]⟩,
   ⟨"FBS_CTL_RATE", 0xA00014, 1, 0, [(8, 0x8000)], [FBS_CTL_RATE_T_N, FBS_CTL_RATE_T_D]⟩,
   ⟨"FBS_CTL_EXTEND", 0xA00018, 1, 0, [(8, 0x8000)], [FBS_CTL_EXTEND_NS]⟩,
   ⟨"FBS_CTL_NOMATCH", 0xA0001C, 1, 0, [(8, 0x8000)], [FBS_CTL_NOMATCH_DEST]⟩,
   ⟨"FBS_CTL_MEAS", 0xA00020, 1, 0, [(8, 0x8000)], [FBS_CTL_MEAS_MEASURE, FBS_CTL_MEAS_DONE, FBS_CTL_MEAS_SHORTEST, FBS_CTL_MEAS_WINDOW_MS]⟩,
   ⟨"FBS_CTL_MEAS_CAND", 0xA00024, 1, 0, [(8, 0x8000), (4, 0x4)], [FBS_CTL_MEAS_CAND_RATE, FBS_CTL_MEAS_CAND_SCORE]⟩,
   ⟨"FBS_CTL_COUNT", 0xA00040, 1, 0, [(8, 0x8000), (7, 0x4)], [FBS_CTL_COUNT_COUNT]⟩,
   ⟨"FBS_FIFO_BASE", 0xA00200, 2, 2, [(8, 0x8000), (2, 0x20)], [FBS_FIFO_BASE_ADDR]⟩,
   ⟨"FBS_FIFO_CFG", 0xA00208, 1, 0, [(8, 0x8000), (2, 0x20)], [FBS_FIFO_CFG_DATA_MAX]⟩,
   ⟨"FBS_FIFO_HEAD", 0xA0020C, 1, 0, [(8, 0x8000), (2, 0x20)], [FBS_FIFO_HEAD_INDEX]⟩,
   ⟨"FBS_FIFO_TAIL", 0xA00210, 1, 0, [(8, 0x8000), (2, 0x20)], [FBS_FIFO_TAIL_INDEX]⟩,
   ⟨"FBS_FLT_ID", 0xA00800, 1, 0, [(8, 0x8000), (64, 0x10)], [FBS_FLT_ID_VALUE]⟩,
   ⟨"FBS_FLT_MASK", 0xA00804, 1, 0, [(8, 0x8000), (64, 0x10)], [FBS_FLT_MASK_VALUE]⟩,
   ⟨"FBS_FLT_CFG", 0xA00808, 1, 0, [(8, 0x8000), (64, 0x10)], [FBS_FLT_CFG_VALID, FBS_FLT_CFG_DEST, FBS_FLT_CFG_TYPE_IDE, FBS_FLT_CFG_TYPE_RTR, FBS_FLT_CFG_TYPE_FMT]⟩,
   ⟨"FBS_CLS_CFG", 0xA00400, 1, 0, [(8, 0x8000), (8, 0x40)], [FBS_CLS_CFG_BOUND, FBS_CLS_CFG_COMM_EN, FBS_CLS_CFG_PATH]⟩,
   ⟨"FBS_CLS_ADDR", 0xA00408, 2, 2, [(8, 0x8000), (8, 0x40)], [FBS_CLS_ADDR_ADDR]⟩,
   ⟨"FBS_CLS_SUBMIT", 0xA00410, 1, 0, [(8, 0x8000), (8, 0x40)], [FBS_CLS_SUBMIT_ACCEPTED, FBS_CLS_SUBMIT_CODE, FBS_CLS_SUBMIT_SEQ]⟩,
   ⟨"FBS_CLS_CANCEL_SEQ", 0xA00414, 1, 0, [(8, 0x8000), (8, 0x40)], [FBS_CLS_CANCEL_SEQ_SEQ]⟩,
   ⟨"FBS_CLS_CANCEL", 0xA00418, 1, 0, [(8, 0x8000), (8, 0x40)], [FBS_CLS_CANCEL_CODE]⟩,
   ⟨"FBS_CLS_PROG", 0xA0041C, 1, 0, [(8, 0x8000), (8, 0x40)], [FBS_CLS_PROG_FETCHED_SEQ, FBS_CLS_PROG_SENT_SEQ]⟩]

def regTableMBS : List Reg :=
  [⟨"MBS_CFG", 0xA81000, 1, 0, [(8, 0x1000)], [MBS_CFG_ENABLE, MBS_CFG_COMM_EN, MBS_CFG_REFUSAL, MBS_CFG_BAUD, MBS_CFG_FRAME_CHECK, MBS_CFG_HALF_DUPLEX, MBS_CFG_STOP2, MBS_CFG_PARITY]⟩,
   ⟨"MBS_TIMING", 0xA81004, 1, 0, [(8, 0x1000)], [MBS_TIMING_GAP, MBS_TIMING_TRAIL, MBS_TIMING_DE_LEAD]⟩,
   ⟨"MBS_RESP", 0xA81008, 1, 0, [(8, 0x1000)], [MBS_RESP_RESP_BITS, MBS_RESP_RESP_MS]⟩,
   ⟨"MBS_CMD", 0xA8100C, 1, 0, [(8, 0x1000)], [MBS_CMD_SEND, MBS_CMD_LENGTH]⟩,
   ⟨"MBS_STATUS", 0xA81010, 1, 0, [(8, 0x1000)], [MBS_STATUS_BUSY, MBS_STATUS_RX_DONE, MBS_STATUS_TIMEOUT, MBS_STATUS_BAD_FRAME, MBS_STATUS_CHAR_ERR, MBS_STATUS_OVERRUN, MBS_STATUS_RX_LEN, MBS_STATUS_REFUSAL]⟩,
   ⟨"MBS_COUNT", 0xA81014, 1, 0, [(8, 0x1000)], [MBS_COUNT_PARITY, MBS_COUNT_FRAMING]⟩]

def regTableALM : List Reg :=
  [⟨"ALM_CTRL", 0xB00000, 1, 0, [], [ALM_CTRL_ENABLE, ALM_CTRL_REFUSAL]⟩,
   ⟨"ALM_STATUS", 0xB00004, 1, 0, [], [ALM_STATUS_BUSY, ALM_STATUS_OSF, ALM_STATUS_REFUSAL]⟩,
   ⟨"ALM_NOW_SUB", 0xB00010, 1, 3, [], [ALM_NOW_SUB_OSF, ALM_NOW_SUB_WEEKDAY, ALM_NOW_SUB_SUB]⟩,
   ⟨"ALM_NOW_TIME", 0xB00014, 1, 0, [], [ALM_NOW_TIME_HOUR, ALM_NOW_TIME_MINUTE, ALM_NOW_TIME_SECOND]⟩,
   ⟨"ALM_NOW_DATE", 0xB00018, 1, 0, [], [ALM_NOW_DATE_YEAR, ALM_NOW_DATE_MONTH, ALM_NOW_DATE_DAY]⟩,
   ⟨"ALM_SET_SUB", 0xB00020, 1, 0, [], [ALM_SET_SUB_SET_WD, ALM_SET_SUB_WEEKDAY, ALM_SET_SUB_SUB]⟩,
   ⟨"ALM_SET_TIME", 0xB00024, 1, 0, [], [ALM_SET_TIME_HOUR, ALM_SET_TIME_MINUTE, ALM_SET_TIME_SECOND]⟩,
   ⟨"ALM_SET_DATE", 0xB00028, 1, 0, [], [ALM_SET_DATE_YEAR, ALM_SET_DATE_MONTH, ALM_SET_DATE_DAY]⟩,
   ⟨"ALM_SHIFT", 0xB0002C, 1, 0, [], [ALM_SHIFT_K]⟩,
   ⟨"ALM_CMD", 0xB00030, 1, 0, [], [ALM_CMD_OP]⟩,
   ⟨"ALM_APPLIED_TIDE_NS", 0xB00034, 1, 3, [], [ALM_APPLIED_TIDE_NS_NANOSECONDS]⟩,
   ⟨"ALM_APPLIED_TIDE_LO", 0xB00038, 1, 0, [], [ALM_APPLIED_TIDE_LO_SECONDS_LO]⟩,
   ⟨"ALM_APPLIED_TIDE_HI", 0xB0003C, 1, 0, [], [ALM_APPLIED_TIDE_HI_SECONDS_HI]⟩,
   ⟨"ALM_TAI_OFFSET", 0xB00040, 1, 0, [], [ALM_TAI_OFFSET_OFFSET]⟩,
   ⟨"ALM_ALARM_CTRL", 0xB00100, 1, 0, [(2, 0x10)], [ALM_ALARM_CTRL_ENABLE, ALM_ALARM_CTRL_REFUSAL, ALM_ALARM_CTRL_WEEKDAY, ALM_ALARM_CTRL_MASK]⟩,
   ⟨"ALM_ALARM_TIME", 0xB00104, 1, 0, [(2, 0x10)], [ALM_ALARM_TIME_HOUR, ALM_ALARM_TIME_MINUTE, ALM_ALARM_TIME_SECOND]⟩,
   ⟨"ALM_ALARM_DATE", 0xB00108, 1, 0, [(2, 0x10)], [ALM_ALARM_DATE_YEAR, ALM_ALARM_DATE_MONTH, ALM_ALARM_DATE_DAY]⟩,
   ⟨"ALM_ALARM_STATUS", 0xB0010C, 1, 0, [(2, 0x10)], [ALM_ALARM_STATUS_FIRED, ALM_ALARM_STATUS_SKIPPED, ALM_ALARM_STATUS_REPEAT, ALM_ALARM_STATUS_COUNT]⟩]

def regTableBTH : List Reg :=
  [⟨"BTH_CTRL", 0xC00000, 1, 0, [], [BTH_CTRL_ENABLE, BTH_CTRL_REFUSAL]⟩,
   ⟨"BTH_TX_DATA", 0xC00100, 1, 0, [(2, 0x20)], [BTH_TX_DATA_WORD]⟩,
   ⟨"BTH_TX_PEER", 0xC00104, 1, 0, [(2, 0x20)], [BTH_TX_PEER_PEER]⟩,
   ⟨"BTH_TX_POST", 0xC00108, 1, 0, [(2, 0x20)], [BTH_TX_POST_POSTED, BTH_TX_POST_WOKE]⟩,
   ⟨"BTH_RX_PEER", 0xC00200, 1, 0, [(2, 0x20)], [BTH_RX_PEER_PEER]⟩,
   ⟨"BTH_RX_TAKE", 0xC00208, 2, 2, [(2, 0x20)], [BTH_RX_TAKE_VALID, BTH_RX_TAKE_EPOCH, BTH_RX_TAKE_SENDER, BTH_RX_TAKE_WORD]⟩,
   ⟨"BTH_RX_ANY", 0xC00210, 2, 2, [(2, 0x20)], [BTH_RX_ANY_VALID, BTH_RX_ANY_EPOCH, BTH_RX_ANY_SENDER, BTH_RX_ANY_WORD]⟩,
   ⟨"BTH_FULL", 0xC01000, 1, 0, [(32, 0x4)], [BTH_FULL_FULL]⟩,
   ⟨"BTH_LOST", 0xC01100, 1, 0, [(32, 0x4)], [BTH_LOST_LOST]⟩,
   ⟨"BTH_EPOCH", 0xC01200, 1, 0, [(4, 0x4)], [BTH_EPOCH_EPOCHS]⟩,
   ⟨"BTH_COUNT", 0xC01300, 1, 0, [], [BTH_COUNT_FULL_REFUSED, BTH_COUNT_DISCARDED]⟩]

def regTableMST : List Reg :=
  [⟨"MST_CTRL", 0xC80000, 1, 0, [], [MST_CTRL_ENABLE, MST_CTRL_REFUSAL]⟩,
   ⟨"MST_CORE_STATE", 0xC80100, 1, 0, [(24, 0x10)], [MST_CORE_STATE_HELD, MST_CORE_STATE_VECTOR, MST_CORE_STATE_RL, MST_CORE_STATE_BASE]⟩,
   ⟨"MST_CORE_COUNT", 0xC80104, 1, 0, [(24, 0x10)], [MST_CORE_COUNT_CLAIMS, MST_CORE_COUNT_SPURIOUS]⟩,
   ⟨"MST_SRC_CFG", 0xC90000, 1, 0, [(512, 0x10)], [MST_SRC_CFG_ON, MST_SRC_CFG_EDGE, MST_SRC_CFG_HOST_EN, MST_SRC_CFG_HOST_VEC, MST_SRC_CFG_PRIO]⟩,
   ⟨"MST_SRC_TARGET", 0xC90004, 1, 0, [(512, 0x10)], [MST_SRC_TARGET_MASK]⟩,
   ⟨"MST_SRC_MOD", 0xC90008, 1, 0, [(512, 0x10)], [MST_SRC_MOD_MIN_INTERVAL_US]⟩,
   ⟨"MST_SRC_STATE", 0xC9000C, 1, 0, [(512, 0x10)], [MST_SRC_STATE_PEND, MST_SRC_STATE_ACTIVE, MST_SRC_STATE_OWNER, MST_SRC_STATE_COUNT, MST_SRC_STATE_LEVEL]⟩]

def regTableLCK : List Reg :=
  [⟨"LCK_CTRL", 0xD00000, 1, 0, [], [LCK_CTRL_ENABLE, LCK_CTRL_REFUSAL]⟩,
   ⟨"LCK_CFG", 0xD01000, 1, 0, [(21, 0x1000)], [LCK_CFG_MODE, LCK_CFG_WINDOW]⟩,
   ⟨"LCK_STATUS", 0xD01004, 1, 0, [(21, 0x1000)], [LCK_STATUS_BUSY, LCK_STATUS_PARKED, LCK_STATUS_HOLDER]⟩,
   ⟨"LCK_CUT", 0xD01008, 1, 0, [(21, 0x1000)], [LCK_CUT_CUT]⟩,
   ⟨"LCK_REQ", 0xD01100, 1, 0, [(21, 0x1000), (32, 0x4)], [LCK_REQ_PRIO, LCK_REQ_QUOTA, LCK_REQ_HOLD]⟩,
   ⟨"LCK_REQ_WAIT", 0xD01200, 1, 0, [(21, 0x1000), (32, 0x4)], [LCK_REQ_WAIT_MAX]⟩]

def regTablePAIR : List Reg :=
  [⟨"PAIR_CTRL", 0xE00000, 1, 0, [], [PAIR_CTRL_ENABLE, PAIR_CTRL_REFUSAL, PAIR_CTRL_UNIT]⟩,
   ⟨"PAIR_STATUS", 0xE00004, 1, 0, [], [PAIR_STATUS_LINK, PAIR_STATUS_OWN, PAIR_STATUS_PEER_OWN, PAIR_STATUS_FIT, PAIR_STATUS_PEER_FIT, PAIR_STATUS_CLAIM, PAIR_STATUS_BCN_SYNCED, PAIR_STATUS_UNIT_CLASH, PAIR_STATUS_SHADOW_FULL]⟩,
   ⟨"PAIR_ROLE", 0xE00008, 1, 0, [], [PAIR_ROLE_ROLE_EPOCH, PAIR_ROLE_ROLE_DROPS]⟩,
   ⟨"PAIR_COPY_CFG", 0xE00040, 1, 0, [], [PAIR_COPY_CFG_COPY_MAX_KB, PAIR_COPY_CFG_GRV_PERIOD_US]⟩,
   ⟨"PAIR_COPY_LOCK", 0xE00044, 1, 0, [], [PAIR_COPY_LOCK_STALE_MS, PAIR_COPY_LOCK_QUOTA, PAIR_COPY_LOCK_HOLD]⟩,
   ⟨"PAIR_LAND_BASE", 0xE00048, 2, 2, [], [PAIR_LAND_BASE_ADDR]⟩,
   ⟨"PAIR_SWAP_TIME_NS", 0xE00050, 1, 3, [], [PAIR_SWAP_TIME_NS_NANOSECONDS]⟩,
   ⟨"PAIR_SWAP_TIME_LO", 0xE00054, 1, 0, [], [PAIR_SWAP_TIME_LO_SECONDS_LO]⟩,
   ⟨"PAIR_SWAP_TIME_HI", 0xE00058, 1, 0, [], [PAIR_SWAP_TIME_HI_SECONDS_HI]⟩,
   ⟨"PAIR_SWAP_CMD", 0xE0005C, 1, 0, [], [PAIR_SWAP_CMD_GO, PAIR_SWAP_CMD_SWAP_STATE, PAIR_SWAP_CMD_REFUSAL]⟩,
   ⟨"PAIR_STREAM_STATUS", 0xE00100, 1, 0, [(8, 0x10)], [PAIR_STREAM_STATUS_ENABLED, PAIR_STREAM_STATUS_TAKEN, PAIR_STREAM_STATUS_CHAIN]⟩,
   ⟨"PAIR_STREAM_SEQ", 0xE00104, 1, 0, [(8, 0x10)], [PAIR_STREAM_SEQ_SEQ]⟩,
   ⟨"PAIR_STREAM_COUNT", 0xE00108, 1, 0, [(8, 0x10)], [PAIR_STREAM_COUNT_INCOMPLETE, PAIR_STREAM_COUNT_CHAINS]⟩,
   ⟨"PAIR_STREAM_LAST", 0xE0010C, 1, 0, [(8, 0x10)], [PAIR_STREAM_LAST_OCTETS]⟩]

def regTableBKW : List Reg :=
  [⟨"BKW_CTRL", 0xE80000, 1, 0, [], [BKW_CTRL_ENABLE]⟩,
   ⟨"BKW_STATE", 0xE80004, 1, 0, [], [BKW_STATE_SAFE, BKW_STATE_INJECTED, BKW_STATE_CAUSE_SRC, BKW_STATE_CAUSE_BIT]⟩,
   ⟨"BKW_SAFE_TIME_NS", 0xE80040, 1, 3, [], [BKW_SAFE_TIME_NS_NANOSECONDS]⟩,
   ⟨"BKW_SAFE_TIME_LO", 0xE80044, 1, 0, [], [BKW_SAFE_TIME_LO_SECONDS_LO]⟩,
   ⟨"BKW_SAFE_TIME_HI", 0xE80048, 1, 0, [], [BKW_SAFE_TIME_HI_SECONDS_HI]⟩,
   ⟨"BKW_SAFE_DOUT", 0xE80050, 2, 2, [], [BKW_SAFE_DOUT_LEVEL]⟩,
   ⟨"BKW_PAIRED_DOUT", 0xE80058, 2, 2, [], [BKW_PAIRED_DOUT_MASK]⟩,
   ⟨"BKW_PAIRED_PWM", 0xE80060, 1, 0, [], [BKW_PAIRED_PWM_MASK]⟩,
   ⟨"BKW_SAFE_CARGO", 0xE80064, 1, 0, [], [BKW_SAFE_CARGO_SAFE_REPEAT_MS]⟩,
   ⟨"BKW_INJECT", 0xE80068, 1, 0, [], [BKW_INJECT_GO, BKW_INJECT_SRC, BKW_INJECT_BIT]⟩,
   ⟨"BKW_SAFE_PWM", 0xE80080, 1, 0, [(16, 0x4)], [BKW_SAFE_PWM_DUTY]⟩]

def regTableLOG : List Reg :=
  [⟨"LOG_CTRL", 0xF00000, 1, 0, [], [LOG_CTRL_ENABLE, LOG_CTRL_REFUSAL]⟩,
   ⟨"LOG_CFG", 0xF00004, 1, 0, [], [LOG_CFG_CLEAR_SLOT, LOG_CFG_SNAP_WRAP]⟩,
   ⟨"LOG_COUNTS", 0xF00008, 1, 0, [], [LOG_COUNTS_FX_COUNT, LOG_COUNTS_SNAP_COUNT]⟩,
   ⟨"LOG_DROPS", 0xF0000C, 1, 0, [], [LOG_DROPS_FX_DROPPED, LOG_DROPS_SNAP_LOST]⟩,
   ⟨"LOG_OPHOURS", 0xF00010, 2, 2, [], [LOG_OPHOURS_OP_SECONDS]⟩,
   ⟨"LOG_PCYCLES", 0xF00018, 1, 0, [], [LOG_PCYCLES_POWER_CYCLES]⟩,
   ⟨"LOG_READ_SEL", 0xF00060, 1, 0, [], [LOG_READ_SEL_READY, LOG_READ_SEL_EMPTY, LOG_READ_SEL_STORE, LOG_READ_SEL_AGE]⟩,
   ⟨"LOG_NONCE", 0xF00080, 1, 4, [(4, 0x4)], [LOG_NONCE_NONCE]⟩,
   ⟨"LOG_CLR_TAG", 0xF00090, 1, 4, [(4, 0x4)], [LOG_CLR_TAG_TAG]⟩,
   ⟨"LOG_CLR_CMD", 0xF000A0, 1, 0, [], [LOG_CLR_CMD_SCOPE, LOG_CLR_CMD_OP]⟩,
   ⟨"LOG_CLR_STATUS", 0xF000A4, 1, 0, [], [LOG_CLR_STATUS_LIVE, LOG_CLR_STATUS_BUSY, LOG_CLR_STATUS_REFUSAL]⟩,
   ⟨"LOG_LAST_CLEAR", 0xF000C0, 1, 0, [(8, 0x4)], [LOG_LAST_CLEAR_WORD]⟩,
   ⟨"LOG_EXP_DEST", 0xF000E0, 2, 2, [], [LOG_EXP_DEST_ADDR]⟩,
   ⟨"LOG_EXP_CMD", 0xF000E8, 1, 0, [], [LOG_EXP_CMD_GO, LOG_EXP_CMD_REFUSAL, LOG_EXP_CMD_STORE]⟩,
   ⟨"LOG_EXP_PROG_PERMYRIAD", 0xF000F0, 1, 0, [], [LOG_EXP_PROG_PERMYRIAD_STATE, LOG_EXP_PROG_PERMYRIAD_VAL]⟩,
   ⟨"LOG_EXP_PROG_POSITION", 0xF000F4, 1, 0, [], [LOG_EXP_PROG_POSITION_VAL]⟩,
   ⟨"LOG_EXP_PROG_TOTAL", 0xF000F8, 1, 0, [], [LOG_EXP_PROG_TOTAL_VAL]⟩,
   ⟨"LOG_READ_DATA", 0xF00100, 1, 0, [(64, 0x4)], [LOG_READ_DATA_WORD]⟩,
   ⟨"LOG_SNAP_CFG", 0xF01000, 1, 0, [(16, 0x100)], [LOG_SNAP_CFG_TRIG, LOG_SNAP_CFG_WORDS, LOG_SNAP_CFG_SEL]⟩,
   ⟨"LOG_SNAP_ADDR", 0xF01004, 1, 0, [(16, 0x100), (56, 0x4)], [LOG_SNAP_ADDR_OFFSET]⟩,
   ⟨"LOG_SNAP_STATUS", 0xF010F0, 1, 0, [(16, 0x100)], [LOG_SNAP_STATUS_FIRES, LOG_SNAP_STATUS_MISSED]⟩]

def regTableBST : List Reg :=
  [⟨"BST_CTRL", 0xF80000, 1, 0, [], [BST_CTRL_ENABLE, BST_CTRL_REFUSAL]⟩,
   ⟨"BST_STATUS", 0xF80004, 1, 0, [], [BST_STATUS_TEST_ROOT, BST_STATUS_UNLOCKED, BST_STATUS_DRBG_OK]⟩,
   ⟨"BST_CFG", 0xF80008, 1, 0, [], [BST_CFG_SESSION_SLOT]⟩,
   ⟨"BST_UID", 0xF80010, 1, 4, [(4, 0x4)], [BST_UID_UID]⟩,
   ⟨"BST_BATCH_ADDR", 0xF80030, 2, 2, [], [BST_BATCH_ADDR_ADDR]⟩,
   ⟨"BST_BATCH_RES", 0xF80038, 2, 2, [], [BST_BATCH_RES_ADDR]⟩,
   ⟨"BST_BATCH_CMD", 0xF80040, 1, 0, [], [BST_BATCH_CMD_GO, BST_BATCH_CMD_REFUSAL, BST_BATCH_CMD_COUNT]⟩,
   ⟨"BST_BATCH_PROG_PERMYRIAD", 0xF80048, 1, 0, [], [BST_BATCH_PROG_PERMYRIAD_STATE, BST_BATCH_PROG_PERMYRIAD_VAL]⟩,
   ⟨"BST_BATCH_PROG_POSITION", 0xF8004C, 1, 0, [], [BST_BATCH_PROG_POSITION_VAL]⟩,
   ⟨"BST_BATCH_PROG_TOTAL", 0xF80050, 1, 0, [], [BST_BATCH_PROG_TOTAL_VAL]⟩,
   ⟨"BST_UNLOCK_CTR", 0xF80090, 1, 0, [], [BST_UNLOCK_CTR_COUNTER]⟩,
   ⟨"BST_SLOT_INFO", 0xF81000, 1, 0, [(64, 0x8)], [BST_SLOT_INFO_STATE, BST_SLOT_INFO_DEPTH, BST_SLOT_INFO_PARENT, BST_SLOT_INFO_KIND]⟩,
   ⟨"BST_SLOT_CTR", 0xF81004, 1, 0, [(64, 0x8)], [BST_SLOT_CTR_COUNTER]⟩,
   ⟨"BST_SESS_INFO", 0xF82000, 1, 0, [(1024, 0x8)], [BST_SESS_INFO_INSTALLED]⟩,
   ⟨"BST_SESS_CTR", 0xF82004, 1, 0, [(1024, 0x8)], [BST_SESS_CTR_COUNTER]⟩]

def regTableMEM : List Reg :=
  [⟨"MEM_CTRL", 0x1100000, 1, 0, [], [MEM_CTRL_ENABLE, MEM_CTRL_DDR_READY, MEM_CTRL_REFUSAL, MEM_CTRL_SCRUB]⟩,
   ⟨"MEM_DDR_CMD", 0x1100020, 1, 0, [], [MEM_DDR_CMD_REFUSAL, MEM_DDR_CMD_TEST, MEM_DDR_CMD_OP]⟩,
   ⟨"MEM_DDR_PROG_PERMYRIAD", 0x1100030, 1, 0, [], [MEM_DDR_PROG_PERMYRIAD_STATE, MEM_DDR_PROG_PERMYRIAD_VAL]⟩,
   ⟨"MEM_DDR_PROG_POSITION", 0x1100034, 1, 0, [], [MEM_DDR_PROG_POSITION_VAL]⟩,
   ⟨"MEM_DDR_PROG_TOTAL", 0x1100038, 1, 0, [], [MEM_DDR_PROG_TOTAL_VAL]⟩,
   ⟨"MEM_MRAM_CMD", 0x1100040, 1, 0, [], [MEM_MRAM_CMD_REFUSAL, MEM_MRAM_CMD_OP]⟩,
   ⟨"MEM_MRAM_PROG_PERMYRIAD", 0x1100050, 1, 0, [], [MEM_MRAM_PROG_PERMYRIAD_STATE, MEM_MRAM_PROG_PERMYRIAD_VAL]⟩,
   ⟨"MEM_MRAM_PROG_POSITION", 0x1100054, 1, 0, [], [MEM_MRAM_PROG_POSITION_VAL]⟩,
   ⟨"MEM_MRAM_PROG_TOTAL", 0x1100058, 1, 0, [], [MEM_MRAM_PROG_TOTAL_VAL]⟩,
   ⟨"MEM_DDR_CFG", 0x1100100, 1, 0, [(2, 0x100)], [MEM_DDR_CFG_DDR5, MEM_DDR_CFG_SPEED, MEM_DDR_CFG_RANKS2, MEM_DDR_CFG_LOG2_GB]⟩,
   ⟨"MEM_DDR_STATUS", 0x1100104, 1, 0, [(2, 0x100)], [MEM_DDR_STATUS_TRAINED, MEM_DDR_STATUS_FAIL_BLOCK, MEM_DDR_STATUS_CORR]⟩,
   ⟨"MEM_FLASH_CFG", 0x1100400, 1, 0, [], [MEM_FLASH_CFG_LOG2_MB]⟩,
   ⟨"MEM_FLASH_CMD", 0x1100404, 1, 0, [], [MEM_FLASH_CMD_BUSY, MEM_FLASH_CMD_REFUSAL, MEM_FLASH_CMD_OP]⟩,
   ⟨"MEM_FLASH_ADDR", 0x1100408, 1, 0, [], [MEM_FLASH_ADDR_ADDR]⟩,
   ⟨"MEM_FLASH_BUF", 0x1100500, 1, 0, [(64, 0x4)], [MEM_FLASH_BUF_DATA]⟩]

def regTablePIO : List Reg :=
  [⟨"PIO_CTRL", 0x1200000, 1, 0, [], [PIO_CTRL_ENABLE, PIO_CTRL_REFUSAL, PIO_CTRL_FILTER_US]⟩,
   ⟨"PIO_DIR", 0x1200008, 2, 2, [], [PIO_DIR_DIR]⟩,
   ⟨"PIO_OD", 0x1200010, 2, 2, [], [PIO_OD_OD]⟩,
   ⟨"PIO_DIN", 0x1200018, 2, 2, [], [PIO_DIN_DIN]⟩,
   ⟨"PIO_DOUT", 0x1200020, 2, 2, [], [PIO_DOUT_DOUT]⟩,
   ⟨"PIO_COMM_EN", 0x1200028, 2, 2, [], [PIO_COMM_EN_COMM_EN]⟩,
   ⟨"PIO_PWM_CFG", 0x1201000, 1, 0, [(16, 0x20)], [PIO_PWM_CFG_ENABLE, PIO_PWM_CFG_COMM_EN, PIO_PWM_CFG_REFUSAL, PIO_PWM_CFG_POL]⟩,
   ⟨"PIO_PWM_PERIOD", 0x1201004, 1, 0, [(16, 0x20)], [PIO_PWM_PERIOD_CYCLES]⟩,
   ⟨"PIO_PWM_DUTY", 0x1201008, 1, 0, [(16, 0x20)], [PIO_PWM_DUTY_DUTY]⟩,
   ⟨"PIO_PWM_APPLIED", 0x120100C, 1, 0, [(16, 0x20)], [PIO_PWM_APPLIED_DUTY]⟩,
   ⟨"PIO_ENC_CFG", 0x1202000, 1, 0, [(16, 0x20)], [PIO_ENC_CFG_ENABLE, PIO_ENC_CFG_REFUSAL, PIO_ENC_CFG_SSI, PIO_ENC_CFG_GRAY, PIO_ENC_CFG_BITS]⟩,
   ⟨"PIO_ENC_SSI", 0x1202004, 1, 0, [(16, 0x20)], [PIO_ENC_SSI_FRAME_US, PIO_ENC_SSI_CLOCK_KHZ]⟩,
   ⟨"PIO_ENC_POS", 0x1202008, 1, 0, [(16, 0x20)], [PIO_ENC_POS_COUNT]⟩,
   ⟨"PIO_ENC_ZPOS", 0x120200C, 1, 0, [(16, 0x20)], [PIO_ENC_ZPOS_COUNT]⟩,
   ⟨"PIO_ENC_STATUS", 0x1202010, 1, 0, [(16, 0x20)], [PIO_ENC_STATUS_ERRORS]⟩]

def regTablePWR : List Reg :=
  [⟨"PWR_CTRL", 0x1300000, 1, 0, [], [PWR_CTRL_ENABLE, PWR_CTRL_REFUSAL]⟩,
   ⟨"PWR_RAIL_CFG", 0x1300100, 1, 0, [(2, 0x20)], [PWR_RAIL_CFG_AVS_ON, PWR_RAIL_CFG_PMB_ADDR, PWR_RAIL_CFG_PAGE]⟩,
   ⟨"PWR_RAIL_GUARD", 0x1300104, 1, 0, [(2, 0x20)], [PWR_RAIL_GUARD_GUARD_HI, PWR_RAIL_GUARD_GUARD_LO]⟩,
   ⟨"PWR_RAIL_VOUT", 0x1300108, 1, 0, [(2, 0x20)], [PWR_RAIL_VOUT_MV]⟩,
   ⟨"PWR_RAIL_MARGIN", 0x130010C, 1, 0, [(2, 0x20)], [PWR_RAIL_MARGIN_WORST, PWR_RAIL_MARGIN_UPDATES]⟩,
   ⟨"PWR_GATE", 0x1300200, 1, 0, [], [PWR_GATE_DRAFT, PWR_GATE_QUAY]⟩,
   ⟨"PWR_GATE_STATUS", 0x1300204, 1, 0, [], [PWR_GATE_STATUS_GATED, PWR_GATE_STATUS_WAKES]⟩,
   ⟨"PWR_TEMP", 0x1300300, 1, 0, [], [PWR_TEMP_MAX, PWR_TEMP_TJ]⟩,
   ⟨"PWR_TEMP_CFG", 0x1300304, 1, 0, [], [PWR_TEMP_CFG_TJ_LIMIT]⟩]

def regTableFaults : List Reg :=
  faultSetRegs "SYS" SYS_FS 2 1 [] ++
  faultSetRegs "BRN" BRN_FS 4 0 [(6, 0x10000)] ++
  faultSetRegs "GRV" GRV_FS 5 0 [] ++
  faultSetRegs "DRF" DRF_FS 4 0 [] ++
  faultSetRegs "BCN" BCN_FS 4 0 [] ++
  faultSetRegs "TLY" TLY_FS 4 0 [] ++
  faultSetRegs "NET_PORT" NET_PORT_FS 3 0 [(5, 0x10000)] ++
  faultSetRegs "TID" TID_FS 2 0 [] ++
  faultSetRegs "FBS" FBS_FS 4 0 [] ++
  faultSetRegs "MBS" MBS_FS 1 0 [] ++
  faultSetRegs "BTH" BTH_FS 1 0 [] ++
  faultSetRegs "MST" MST_FS 1 0 [] ++
  faultSetRegs "LCK" LCK_FS 1 0 [] ++
  faultSetRegs "PAIR" PAIR_FS 6 4 [] ++
  faultSetRegs "BKW" BKW_FS 2 0 [] ++
  faultSetRegs "LOG" LOG_FS 2 0 [] ++
  faultSetRegs "BST" BST_FS 3 0 [] ++
  faultSetRegs "HST" HST_FS 3 0 [] ++
  faultSetRegs "MEM" MEM_FS 3 0 [] ++
  faultSetRegs "PIO" PIO_FS 1 0 [] ++
  faultSetRegs "PWR" PWR_FS 3 0 []

/-- Every register of the map. -/
def regTable : List Reg :=
  regTableSYS ++ regTablePRF ++ regTableHST ++ regTableBRN ++ regTableCARGO ++ regTableGRV ++ regTableDRF ++ regTableBCN ++ regTableTLY ++ regTableNET ++ regTableTID ++ regTableTIDE ++ regTableFBS ++ regTableMBS ++ regTableALM ++ regTableBTH ++ regTableMST ++ regTableLCK ++ regTablePAIR ++ regTableBKW ++ regTableLOG ++ regTableBST ++ regTableMEM ++ regTablePIO ++ regTablePWR ++ regTableFaults

/-- The displacement of the instance whose bytes a window offset falls into, measured from the first instance
(`none`: the offset lies in no instance). `bytes` is the register's size. -/
def dispIn (bytes : Nat) : List (Nat × Nat) → Nat → Option Nat
  | [], d => if d < bytes then some 0 else none
  | (n, st) :: rest, d =>
    if d / st < n then (dispIn bytes rest (d % st)).map (· + d / st * st)
    else none

/-- The displacement of the instance of `r` that holds window offset `off`. -/
def Reg.disp (r : Reg) (off : Nat) : Option Nat :=
  if off < r.off then none else dispIn (4 * r.words) r.dims (off - r.off)

/-- The register and displacement that hold a window offset, if it is implemented. -/
def findReg (off : Nat) : List Reg → Option (Reg × Nat)
  | [] => none
  | r :: t => match r.disp off with
    | some d => some (r, d)
    | none => findReg off t

end Sys2Proof.Machine
end

