-- ==== Sys2Proof/Machine/State.lean ====
section
/-! DEFINITION. The machine's state as plain data: every register field (as a sparse map over the register map of
Regs.lean), every memory, and the state of each block that no register holds; the reasons a step can stop; the state
after reset. Readings and choices: DESIGN CHOICE log 2, 3, 6, 7, 9, 10. -/

namespace Sys2Proof.Machine

/-- Reasons a step stops with a fault. The model raises none for anything the spec gives an effect: accesses the spec
rejects end in an error response (R5, R7), which is a next state. -/
inductive Fault where
  /-- Raised by no command: kept for an address that the spec says does not exist where no error response is given.
  Safe: the machine stops. -/
  | noSuchAddress (addr : Nat)
deriving DecidableEq, Repr

/-- Reasons a command has no meaning. -/
inductive Refusal where
  /-- Raised by the dispatcher for a row that has no meaning yet. Safe: the machine stops. -/
  | notModelled (mnemonic : String)
deriving DecidableEq, Repr

/-! ## Sub-states -/

/-- Memory of a block that no address of the State's byte map holds, in which an uncorrectable error may stand (R129, R196,
R230, R268, R302, R331, R378, R402, R427, R477); in the buffers of FBS, MBS, PAIR, LOG and BST a command's operand says it; `word` is a word of the byte map, by the key of its first byte. -/
inductive EccCell where
  | word (key : Nat) | channel (a r : Nat) | source (n : Nat) | context (c : Nat) | solver | lantern (n : Nat)
  | feeder (f : Nat) | thermal (c : Nat) | port (p : Nat) | tide | safeFrame (n : Nat) | ring (r : Nat)
deriving DecidableEq, Repr

/-- What an armed PULL names (R68): the values of PRF_PULL_AT and PRF_PULL_TIME, in ns, when it was accepted. -/
structure PullArm where
  byQuay : Bool := false
  quay   : Nat := 0
  task   : Nat := 0
  time   : Nat := 0
deriving DecidableEq, Repr

/-- What the device answered to the last register access, ring or bus command: whether it completed without an
error response, and the value read. The model's own field. -/
structure Resp where
  ok  : Bool := true
  val : Nat := 0
deriving DecidableEq, Repr

/-- A PTP message (R321 to R323): messageType, domainNumber, sequenceId, whether two-step, its time in ns, its
correctionField in 2⁻¹⁶ ns, the port identity it answers, and which of the two domains sends it. -/
structure PtpMsg where
  type : Nat
  dom  : Nat
  seq  : Nat
  two  : Bool
  ns   : Nat
  corr : Int
  req  : Nat
  ix   : Nat
deriving DecidableEq, Repr

/-- What a transmitted frame carries: octets from the destination address to before the FCS, a PTP message, or the entry
of the port's host transmit ring. -/
inductive TxBody where
  | octets (bs : List Byte)
  | ptp (m : PtpMsg)
  | ring
deriving DecidableEq, Repr

/-- Something that left the device: the model's own trace of its outputs (R11, R20). -/
inductive Out where
  /-- An Ethernet frame on port `port` (octets from destination address, without FCS). -/
  | eth (port : Nat) (frame : List Byte)
  /-- A CAN frame on controller `ctl`: item sequence number and class. -/
  | can (ctl cls seq : Nat)
  /-- A Mooring message: type, flags, stream, sequence, argument, payload. -/
  | mooring (type flags epoch stream seq arg : Nat) (payload : List Byte)
  /-- An MSI-X message: address and data. -/
  | msix (addr data : Nat)
  /-- A telegram of UART `u`. -/
  | uart (u : Nat) (octets : List Byte)
  /-- A pulse on a TIDE_OUT pin. -/
  | tideOut (o : Nat) (at_ : Nat)
  /-- An MDIO operation of port `port`. -/
  | mdio (port cfg : Nat)
  /-- A PMBus write of VOUT_COMMAND on rail `k`. -/
  | pmbus (rail mv : Nat)
  /-- A write to host memory (R462): address and octets. -/
  | hostWrite (addr : Nat) (octets : List Byte)
deriving DecidableEq, Repr

/-- Where the device stands between power-off and boot (R56). -/
inductive Phase where
  | off | held | released | clocks | fuses | mram | sram | booted | bootFailed
deriving DecidableEq, Repr

/-- An accepted item of an output path (R30, R32): its identity, path, acceptance and deadline as Tide times. -/
structure Item where
  id       : Nat
  path     : Nat
  deadline : Nat
deriving DecidableEq, Repr

/-- The running admission check (R22): the path being enabled. -/
structure AdmState where
  running : Option Nat := none
  items   : List Item := []
  nextId  : Nat := 0
  /-- Acceptance instants (Tide time, 2⁻¹⁶ ns) of each path, oldest first (R30). -/
  acc     : AMap (List Nat) := []
deriving DecidableEq, Repr

/-- A word in a Berths channel with its stamp (R371). -/
structure BthWord where
  word   : Nat
  sender : Nat
  epoch  : Nat
deriving DecidableEq, Repr

/-- An offer of a Mast source to a core (R385): the source, the fabric cycle of selection, whether the offer has been
withdrawn (R391), and its PRIO. -/
structure Offer where
  src  : Nat
  at_  : Nat
  withdrawn : Bool
  prio : Nat
deriving DecidableEq, Repr

/-- A Mast delivery that a core holds and has not entered (R388): vector, priority, whether its grant took a soft pending,
and whether it is one that a higher delivery replaced, which this core alone is to take. -/
structure Held where
  vec  : Nat
  prio : Nat
  soft : Bool
  bound : Bool := false
deriving DecidableEq, Repr

/-- A Lock's requests waiting (master and fabric cycle of the request), the master and the instant of the grant, the
last slot granted at each priority, and the grants (slot and cycle) that quotas count (R395 to R398). -/
structure LockSt where
  waiting : List (Nat × Nat) := []
  master  : Nat := 0
  grantAt : Nat := 0
  last    : AMap Nat := []
  grants  : List (Nat × Nat) := []
deriving DecidableEq, Repr

/-- A fixed record of the Logbook (R435); CHECK is computed from the other octets. -/
structure FixRec where
  code   : Nat
  master : Nat
  pcyc   : Nat
  opsec  : Nat
  seq    : Nat
  p0     : Nat
  p1     : Nat
  p2     : Nat
  p3     : Nat
deriving DecidableEq, Repr

/-- A snapshot record (R438). -/
structure SnapRec where
  dfn    : Nat
  err    : Bool
  seq    : Nat
  pcyc   : Nat
  opsec  : Nat
  tide   : Nat
  arg    : Nat
  data   : List Nat
deriving DecidableEq, Repr

/-- A queued or running capture (R440): definition, trigger argument, Tide time of the trigger (ns). -/
structure Capture where
  dfn  : Nat
  arg  : Nat
  tide : Nat
  data : List Nat := []
  err  : Bool := false
deriving DecidableEq, Repr

/-- The Logbook (R434 to R444). -/
structure LogSt where
  queue    : List FixRec := []
  dropped  : Nat := 0
  fixed    : List FixRec := []
  seq      : Nat := 0
  snaps    : List SnapRec := []
  snapSeq  : Nat := 0
  caps     : List Capture := []
  running  : Option Capture := none
  selBusy  : Bool := false
  /-- Records still to export, oldest first, and the next destination. -/
  export_  : Option (List (List Byte) × Nat) := none
  nonce    : Option (Nat × Nat) := none
  clearCnt : Nat := 0
  /-- The running clear: SCOPE, nonce and master. -/
  clearing : Option (Nat × Nat × Nat) := none
  hold     : List FixRec := []
  opSec    : Nat := 0
  pcyc     : Nat := 0
  /-- The power cycle since the last power-on reset has been counted (R434). -/
  counted  : Bool := false
  /-- The fabric cycle of MRAM ready, or of the last second counted (R434). -/
  opAt     : Nat := 0
  lastClear : List Nat := []
deriving DecidableEq, Repr

/-- A key slot of the Bonded Store (R445): STATE 0 EMPTY, 1 VALID, 2 ORPHAN. -/
structure KeySlot where
  state  : Nat := 0
  depth  : Nat := 0
  parent : Nat := 0
  kind   : Nat := 0
  ctr    : Nat := 0
  key    : List Byte := []
deriving DecidableEq, Repr

/-- A session entry (R445): the keys of phases 0 and 1, where installed, and the COUNTER. -/
structure SessEntry where
  k0  : Option (List Byte) := none
  k1  : Option (List Byte) := none
  ctr : Nat := 0
deriving DecidableEq, Repr

/-- One bank of the Bonded Store's MRAM allocation (R445, R454). -/
structure BstBank where
  slots  : AMap KeySlot := []
  sess   : AMap SessEntry := []
  unlock : Nat := 0
deriving DecidableEq, Repr

/-- A batch of update messages that runs (R451): messages, result array, the next message, how many, the master. -/
structure BstBatch where
  msgs   : Nat
  res    : Nat
  next   : Nat
  count  : Nat
  master : Nat
deriving DecidableEq, Repr

/-- The Bonded Store (R445 to R454): its two banks, whether the factory unlock stands, the batch, values drawn. -/
structure BstSt where
  prod     : BstBank := {}
  test     : BstBank := {}
  unlocked : Bool := false
  batch    : Option BstBatch := none
  draws    : Nat := 0
deriving DecidableEq, Repr

/-- Where a task of a quay stands (R142 to R144). -/
inductive TaskPhase where
  | idle | copyIn | ready | running | preempted | copyOut
deriving DecidableEq, Repr

/-- The configuration with which a scan runs, as its registers held it at the scan start (R70): core, priority, first
instruction, save area, the image offset of its DIN area where it selects DIN, its DOUT bits and their image offset, the
image offset of its activation record, the status array, and the stations it owns with their table entries. -/
structure TaskCfg where
  core  : Nat := 0
  prio  : Nat := 0
  entry : Nat := 0
  save  : Nat := 0
  din   : Option Nat := none
  mask  : Nat := 0
  dout  : Nat := 0
  arg   : Nat := 0
  base  : Nat := 0
  stns  : List (Nat × List Byte) := []
deriving DecidableEq, Repr

/-- A task of a quay: tasks 0 to 7 cyclic, 8 to 15 event, 16 to 23 error, 24 start-up. `pend` marks a release not yet
started and `relAt` (Tide time) orders releases; `stamp` is the scan's stamp (R115), in ns of Tide time, and `cfg` its
configuration. -/
structure TaskSt where
  phase   : TaskPhase := .idle
  pend    : Bool := false
  relAt   : Nat := 0
  stamp   : Nat := 0
  startAt : Nat := 0
  cfg     : TaskCfg := {}
deriving DecidableEq, Repr

/-- An activation of an error task (R141, R158): station, class, MISS and stamp. -/
structure Activation where
  station : Nat
  cls     : Nat
  miss    : Nat
  stamp   : Nat
  relAt   : Nat
deriving DecidableEq, Repr

/-- A package a quay has loaded (R163), the digest of its present program, and whether that is partly written (R166). The tables
of the present program stand in memory (R163). -/
structure XchgSt where
  pkgAddr  : Nat := 0
  digest   : Nat := 0
  allowSkip : Bool := false
  waitSince : Nat := 0
  presentDigest : Nat := 0
  partly   : Bool := false
deriving DecidableEq, Repr

/-- A quay's scheduler (R137 to R152) and exchange. -/
structure QuaySt where
  tasks    : AMap TaskSt := []
  /-- The fabric port's queue of copies, oldest first: task, and whether it is a copy-out (R143). -/
  port     : List (Nat × Bool) := []
  acts     : AMap (List Activation) := []
  /-- The activation each error task's scan in progress carries. -/
  actNow   : AMap Activation := []
  mode     : Nat := 0
  cmdAt    : Option Nat := none
  /-- The fabric cycle from which the start-up task's 100 ms count (R41). -/
  startFrom : Option Nat := none
  forced   : Bool := false
  started  : Bool := false
  xchg     : XchgSt := {}
  /-- The shadow overlay of a standby (R415): bytes that stores have put over the quay's SRAMs. -/
  overlay  : AMap Byte := []
  halted   : Bool := false
deriving DecidableEq, Repr

/-- A Cargo station in service (R153 to R161): the table fields in force, and its exchange state; `txBuf` is the message last built, whether or not it was offered (R152, R160). `rxAt` is the fabric cycle
in which `latest` was registered, and `prior` the frame that was latest before that cycle and waits for a copy-in (R156). -/
structure Station where
  entry    : List Byte := []
  state    : Nat := 0
  miss     : Nat := 0
  fresh    : Bool := false
  freshNow : Bool := false
  drops    : Nat := 0
  txRef    : Nat := 0
  rxSeq    : Nat := 0
  latest   : List Byte := []
  rxAt     : Nat := 0
  prior    : Option (List Byte) := none
  shown    : Option (List Byte) := none
  txSeq    : Nat := 0
  txFirst  : Bool := true
  txBuf    : List Byte := []
deriving DecidableEq, Repr

/-- What a core is doing (BRN_CORE_STATUS.STATE). -/
inductive RunSt where
  | reset | running | wait | recv | halted | idle
deriving DecidableEq, Repr

/-- A Burin core (R87, R124). `nstk` holds entry i of the nesting stack in bits [4i + 3:4i] (saved BA above the
operation), as R145 lays it out. `hstk` lists, innermost first, the vector of each handler entered and not returned
from, with the running level it interrupted. -/
structure Core where
  run     : RunSt := .reset
  haltCause : Nat := 0
  ba      : Bool := false
  nstk    : BitVec 64 := 0
  nest    : Nat := 0
  w       : Vector (BitVec 64) 16 := Vector.replicate 16 0
  p       : Vector (BitVec 40) 4 := Vector.replicate 4 0
  z       : Bool := false
  n       : Bool := false
  c       : Bool := false
  v       : Bool := false
  pc      : BitVec 17 := 0
  sf      : BitVec 7 := 0
  te      : BitVec 7 := 0
  rl      : Nat := 0
  ie      : Bool := false
  sp      : BitVec 16 := 0
  slimit  : BitVec 16 := 0
  vbase   : BitVec 17 := 0
  ximp    : Bool := false
  xcode   : BitVec 8 := 0
  xcause  : BitVec 5 := 0
  xcount  : Nat := 0
  xpc     : BitVec 17 := 0
  xaddr   : BitVec 40 := 0
  /-- Cycles counted by instructions; the CYCLE register adds two for each fabric cycle since `cycBase`. -/
  cyc     : Nat := 0
  cycBase : Nat := 0
  instret : BitVec 64 := 0
  recvLeft : BitVec 32 := 0
  rsm     : Bool := false
  /-- The waiting RECV: peer (none: any), destination register, and the fabric cycle it began to wait. -/
  recvFrom : Option Nat := none
  recvDst : Fin 16 := 0
  recvAt  : Nat := 0
  /-- The instruction after the waiting RECV (RECVI is two words long). -/
  recvNext : BitVec 17 := 0
  anyPos  : Nat := 0
  /-- Addresses of posted stores that ended in an error response not yet taken (R128). -/
  postErr : List (BitVec 40) := []
  hstk    : List (Nat × Nat) := []
  /-- The delivery held and not entered (R388). -/
  held    : Option Held := none
  /-- Bound deliveries that a higher delivery displaced, the last first (R388). -/
  kept    : List Held := []
  /-- The fabric cycle of the entry being made, until an instruction issues, and whether the delivery entered took a soft
  pending (R132). -/
  entering : Option Nat := none
  entSoft : Bool := false
  stepping : Bool := false
  haltReq : Bool := false
  booted  : Bool := false
  task    : Option Nat := none
  stacked : List Nat := []
  stamp   : BitVec 64 := 0
deriving DecidableEq, Repr

/-- A Mooring message that awaits its acknowledgement (R408). -/
structure PairMsg where
  type    : Nat
  stream  : Nat
  seq     : Nat
  arg     : Nat
  payload : List Byte
  repeats : Nat
deriving DecidableEq, Repr

/-- A copy as the standby holds it (R413, R414): its SEQ, line records (address word and 64 octets), quay generation,
program digest, station sequence numbers, and whether it came as a chain. -/
structure CopyRec where
  seq    : Nat
  /-- The fabric cycle in which it was committed. -/
  at_    : Nat
  lines  : List (Nat × List Byte)
  gen    : Nat
  digest : Nat
  seqs   : List (Nat × Nat)
  chain  : Bool
deriving DecidableEq, Repr

/-- A copy that the link is sending (R412, R413): its messages not yet sent, each with the fabric cycle in which its last octet
leaves, its TYPE and payload; what an incomplete copy gives back: its lines, whether it was one of all lines, the place of
the Beacon's sweep; whether it is a chain. -/
structure OpenCopy where
  seq   : Nat
  msgs  : List (Nat × Nat × List Byte)
  lines : List Nat
  full  : Bool
  sweep : Nat
  chain : Bool
deriving DecidableEq, Repr

/-- One copy stream (R411 to R416): the copy being sent; the sender's dirty lines by address word, or all of them; the receiver's copy being
received (SEQ and records) and whether a message of it was lost, its committed copies, the fabric cycle of the last
complete copy, whether it counts as stale, and the program digest of the last copy taken up. -/
structure StreamSt where
  sending : Option OpenCopy := none
  dirty   : List Nat := []
  full    : Bool := false
  rx      : Option (Nat × List (Nat × List Byte)) := none
  rxBad   : Bool := false
  committed : List CopyRec := []
  lastDone : Nat := 0
  stale   : Bool := false
  digest  : Nat := 0
deriving DecidableEq, Repr

/-- The pair and the Mooring link (R403 to R422). -/
structure PairSt where
  /-- The claim in progress: fabric cycle it began, the mode commanded, its master, and whether PEER_OWN_N has been
  registered as released throughout (R404). -/
  claim    : Option (Nat × Nat × Nat × Bool) := none
  /-- The fabric cycle at which a claim was accepted, while its 8 µs run (R406). -/
  grace    : Option Nat := none
  /-- PEER_OWN_N has been registered as released, and no pair tick has come since (R418). -/
  released : Bool := false
  lanes    : Bool := false
  /-- The fabric cycle of the last STATUS that counts for LINK (R407). -/
  statusAt : Option Nat := none
  txSeq    : Nat := 0
  unacked  : List PairMsg := []
  /-- Sequence numbers to acknowledge in the next STATUS, and those received since the link came up. -/
  acks     : List Nat := []
  seen     : List Nat := []
  peerMode : Nat := 0
  /-- A standby has adopted its partner's epoch since it entered STANDBY (R409). -/
  adopted  : Bool := false
  streams  : AMap StreamSt := []
  sweep    : Nat := 0
  swept    : Nat := 0
  /-- The accepted planned swap: its time in ns; whether it has started; whether the final copies have been sent. -/
  swapTime : Option Nat := none
  swapAt   : Option Nat := none
  finals   : Bool := false
  /-- A standby whose partner has announced a planned swap. -/
  swapNoted : Bool := false
  /-- A takeover whose take-up of streams 0 to 6, or of stream 7, has not ended (R418). -/
  takeover : Bool := false
  bcnWait  : Bool := false
  /-- SAFE: whether SAFE_OUT frames are sent, and the fabric cycle of the last queueing (R427). -/
  safeOut  : Bool := false
  safeAt   : Option Nat := none
  /-- OWN_N is to be released once the last Mooring message has ended (R426). -/
  releasing : Bool := false
  /-- ALIVE: released (none) or driven, at a level, and the fabric cycle of its last edge (R428). -/
  alive    : Option Bool := none
  aliveAt  : Nat := 0
  /-- The fabric cycle at which the link has sent what it holds (R407, R412). -/
  linkFree : Nat := 0
  /-- The fabric cycle at which the last take-up ended (R414). -/
  takeFree : Nat := 0
deriving DecidableEq, Repr

/-- A frame that waits for transmission on an Ethernet port: traffic class, what it carries, the accepted item it
delivers, and the octets it takes from destination address to FCS. -/
structure TxFrame where
  cls  : Nat
  body : TxBody
  item : Option Nat
  len  : Nat
deriving DecidableEq, Repr

/-- A domain on a port: exchanges in progress (R321, R322). Times in 2⁻¹⁶ ns of Tide time. -/
structure PtpPort where
  /-- A two-step Sync that waits for its Follow_Up: sequenceId, t2, correctionField. -/
  sync    : Option (Nat × Nat × Int) := none
  /-- t2 and t1 (origin plus corrections) of the last complete Sync. -/
  lastSync : Option (Nat × Int) := none
  reqSeq  : Nat := 0
  /-- The sequenceId after the last Pdelay_Resp (R330). -/
  respSeq : Nat := 0
  /-- The request outstanding: sequenceId and, once sent, its transmit time-stamp. -/
  req     : Option (Nat × Option Nat) := none
  /-- A two-step Pdelay_Resp received: t2 as the responder gives it, t4, correctionField. -/
  presp   : Option (Nat × Nat × Int) := none
  /-- t3 and t4 of the last complete exchange, for the rate ratio. -/
  prev    : Option (Int × Nat) := none
  /-- The fabric cycles at which the last Sync, and the last request, was sent (R322, R323). -/
  syncAt  : Option Nat := none
  reqAt   : Option Nat := none
deriving DecidableEq, Repr

/-- An Ethernet port (R304 to R315). -/
structure NetPort where
  queue : List TxFrame := []
  /-- The fabric cycle at which the frame in transmission ends. -/
  busy  : Option Nat := none
  lost  : Bool := false
  /-- LINK has fallen while the port was enabled and has not returned to 1 since (R307). -/
  fell  : Bool := false
  ident : Nat := 0
  /-- T' of a pending changeover, in ns (R314). -/
  chg   : Option Nat := none
  entry : Nat := 0
  gates : Nat := 255
  /-- The word of the MDIO operation in progress. -/
  mdio  : Option Nat := none
  ptp   : AMap PtpPort := []
deriving DecidableEq, Repr

/-- A domain's servo (R324). -/
structure Servo where
  sum    : Int := 0
  /-- Since the acquisition began no sample above ACQ_STEP has come. -/
  first  : Bool := true
  inside : Nat := 0
  outside : Nat := 0
  /-- The last samples: Tide time and offset in 2⁻¹⁶ ns, newest first, at most 16. -/
  fit    : List (Nat × Int) := []
  /-- Frequency in 2⁻³² ppb; for the inactive domain its estimate relative to Tide time. -/
  freq   : Int := 0
  /-- The fabric cycle of the last sample, or of the enable. -/
  lastAt : Nat := 0
deriving DecidableEq, Repr

/-- The Tide clock (R316, R318, R326): PLL frequency (2⁻³² ppb), the part of a CLK_TIDE cycle that has passed, the slew still
owed and the fast part of a switch (2⁻¹⁶ ns), with the CLK_TIDE cycles it has left. -/
structure TidSt where
  freq  : Int := 0
  rest  : Int := 0
  slew  : Int := 0
  slewRest : Int := 0
  fast  : Int := 0
  fastTicks : Nat := 0
  servos : AMap Servo := []
  /-- Stamps in the FIFO of each TIDE_IN pin, oldest first: rising, Tide time in 2⁻¹⁶ ns. -/
  ins   : AMap (List (Bool × Nat)) := []
  /-- The next pulse of each TIDE_OUT pin, in ns of Tide time. -/
  outs  : AMap (Option Nat) := []
  /-- The Tide time in ns of the write that started the check of each TIDE_OUT pin. -/
  outAt : AMap Nat := []
deriving DecidableEq, Repr
/-- PIO (R493 to R495): the output levels that copy-outs have written, the consecutive samples of each pin at the
level opposite to its filtered one, and each encoder's inputs, last SSI frame, and the SSI frames in progress; the fabric
cycles at which a PWM channel's next period and an encoder's next SSI frame begin. -/
structure PioSt where
  latch  : Nat := 0
  encIn  : AMap Nat := []
  ssiPos : AMap (Option Nat) := []
  ssiBusy : List Nat := []
  pwmAt  : AMap Nat := []
  ssiAt  : AMap Nat := []
deriving DecidableEq, Repr

/-- A context's settings as its sample takes them at its release (R70, R180, R183); `grpOut` is its group's OUT port. -/
structure GrvCfg where
  form   : Nat := 0
  group  : Nat := 0
  ffOn   : Bool := false
  table  : Nat := 0
  sign   : Nat := 0
  wrap   : Bool := false
  ei     : Int := 0
  ex     : Int := 0
  out    : Nat := 0
  grpOut : Nat := 0
deriving DecidableEq, Repr

/-- A sample of a context: none, released, with its candidate formed, or with its result to be written (R173, R178). -/
inductive SamplePhase where
  | none | released | candidate | result
deriving DecidableEq, Repr

/-- A Graver context's sample in progress (R168 to R178), the form its state set has, and the previous position of
FF_SIGN 2. `spLive` is whether the SP port is the SETPOINT register, read at the sample start; `seeded` is SEEDED as the
sample found it, and `reseed` whether RESEED has been written since. Dyadic values are a mantissa with an exponent of 2. -/
structure GrvCtx where
  phase  : SamplePhase := .none
  relAt  : Nat := 0
  mode   : Nat := 0
  cfg    : GrvCfg := {}
  sp     : Int := 0
  spLive : Bool := false
  seeded : Bool := false
  reseed : Bool := false
  meas   : Int := 0
  pos    : Int := 0
  cand   : Int := 0
  own    : Bool := false
  track  : Bool := false
  off    : Int := 0
  err    : Int × Int := (0, 0)
  ff     : Int × Int := (0, 0)
  form   : Nat := 0
  prevPos : Int := 0
deriving DecidableEq, Repr

/-- The Graver (R168 to R198): its contexts, and the results that wait to be written: whether a group's, its number, the
applied value, the mode of the sample, the port. `srcs` is the source of each table's rebuild as REBUILD checked it, and
`filled` names the banks (2 × table + bank) that a rebuild has filled (R192). -/
structure GrvSt where
  ctx    : AMap GrvCtx := []
  writes : List (Bool × Nat × Int × Nat × Nat) := []
  srcs   : AMap Nat := []
  filled : List Nat := []
deriving DecidableEq, Repr

/-- An accepted Drafting job (R199, R200): its descriptor, item, acceptance as Tide time, submitting master, NOTIFY, and
whether it is queued, running or being posted. -/
structure DrfJob where
  desc   : List Byte
  item   : Nat
  acc    : Nat
  master : Nat
  notify : Bool
  state  : Nat
deriving DecidableEq, Repr

/-- The running job (R206): slot, start as Tide time, descriptor with the input data as read at its start, the next
iterate, and what the record will show; `none` where the spec states no value. `xs` holds the vectors of the last completed
iterate, `pre` the end already reached in the present cycle (R207). -/
structure DrfRun where
  slot   : Nat
  start  : Nat
  data   : List Byte
  next   : Nat := 0
  buf    : Nat := 255
  iter   : Option Nat := none
  pert   : Nat := 0
  merit  : Option Nat := none
  resP   : Option Nat := none
  resD   : Option Nat := none
  gap    : Nat := 0
  obj    : Option Nat := none
  cert   : Option Nat := none
  detail : Nat := 0
  warn   : Nat := 0
  betas  : List Nat := []
  xs     : List (List Nat) := []
  pre    : Option Nat := none
deriving DecidableEq, Repr

/-- A result record to be posted (R204): slot, address, octets, status, and whether it ends the running job. -/
structure DrfPost where
  slot   : Nat
  addr   : Nat
  octets : List Byte
  status : Nat
  ran    : Bool
deriving DecidableEq, Repr

/-- The Drafting engine (R199 to R232): its jobs, the running one, the records to be posted, and the job that ended last
with the fabric cycle and the status of its end, which an event of the same cycle may precede (R207). -/
structure DrfSt where
  jobs  : AMap (Option DrfJob) := []
  run   : Option DrfRun := none
  posts : List DrfPost := []
  cut   : Option (DrfRun × Nat × Nat) := none
deriving DecidableEq, Repr


/-- A command of the Almanac that awaits its application tick (R360): OP, the values checked (ticks since
2000-01-01 00:00:00 of a SET, K of a SHIFT), the weekday to load, the writer. -/
structure AlmCmd where
  op     : Nat
  val    : Int
  wd     : Option Nat
  master : Nat
deriving DecidableEq, Repr

/-- The Almanac beside its registers (R358, R360, R365, R366): whether the oscillator is stopped, the command that
waits, the alarms armed, and their repeat horizons. -/
structure AlmSt where
  stopped : Bool := false
  cmd     : Option AlmCmd := none
  armed   : List Nat := []
  horizon : AMap (Option Nat) := []
deriving DecidableEq, Repr

/-- The frame open for a gateway (R251): its messages, the groups a GROUP_SET in it sets, the lanterns whose ARC_SENT
follows its acceptance, with their levels, and whether it carries the PASSTHRU. -/
structure BcnFrame where
  msgs     : List Byte
  groups   : List Nat
  lanterns : List (Nat × Nat)
  pt       : Bool
deriving DecidableEq, Repr

/-- What an evaluation found for a group (R248, R251): demand, fade, group level, and whether it has a group send. -/
structure BcnGroup where
  dem  : Nat
  fade : Nat
  arc  : Nat
  send : Bool
deriving DecidableEq, Repr

/-- An evaluation and its pass (R246): its instant as Tide time, whether every ARC_SENT counts as unknown, the ON
groups, how each GROUP_SET fares (key 4,096 × gateway + group: 1 in the open frame, 2 accepted, 3 not), open frames. -/
structure BcnRun where
  at_    : Nat
  force  : Bool
  groups : AMap (Option BcnGroup) := []
  sent   : AMap Nat := []
  frames : AMap (Option BcnFrame) := []
deriving DecidableEq, Repr

/-- A frame accepted from a gateway, with the messages still to be taken (type and body) and its stamp (R257). -/
structure BcnRx where
  gw    : Nat
  msgs  : List (Nat × List Byte)
  stamp : Nat
deriving DecidableEq, Repr

/-- A target of a campaign (R262 to R264): lantern, gateway, address, FW_STATUS, chunks held. -/
structure CampTarget where
  lantern : Nat
  gw      : Nat
  laddr   : Nat
  status  : Nat
  acked   : Nat
deriving DecidableEq, Repr

/-- A gateway of a campaign's wave (R263): the next chunk, timeouts in a row, whether the commit has been sent, whether
an accepted frame waits for progress, and since when by the campaigns' clock. -/
structure CampGw where
  next    : Nat := 0
  fails   : Nat := 0
  commit  : Bool := false
  waiting : Bool := false
  since   : Nat := 0
deriving DecidableEq, Repr

/-- A campaign (R262 to R266): its targets, its gateways, the gateway served last, and its targets as a copy holds them (bit
n mod 512 of number n / 512: R267). -/
structure BcnCamp where
  targets : List CampTarget := []
  gws     : AMap CampGw := []
  last    : Option Nat := none
  mask    : AMap Nat := []
deriving DecidableEq, Repr

/-- What an evaluation takes of the PS registers and keeps until the next begins (R70, R246): the database's base and count,
FAULT_MASK, GW_SILENT_S. -/
structure BcnCfg where
  base  : Nat := 0
  count : Nat := 0
  mask  : Nat := 0
  silentS : Nat := 300
deriving DecidableEq, Repr

/-- The Beacon beside its registers and tables (R233 to R268). -/
structure BcnSt where
  run      : Option BcnRun := none
  cfg      : BcnCfg := {}
  /-- Fabric cycles in which campaigns paused with their timers stopped (R253). -/
  paused   : Nat := 0
  /-- Tide time in ns of the previous evaluation since ENABLE. -/
  prev     : Option Nat := none
  /-- No pass has ended since ENABLE (R252). -/
  first    : Bool := true
  /-- Gateway, address and lantern of the configurations the reverse map holds (R237). -/
  conf     : List (Nat × Nat × Nat) := []
  /-- Date, position and offset of the events computed last; today's and yesterday's events in local minutes (R245). -/
  solarFor : Option (Nat × Nat × Nat × Nat) := none
  today    : List (Option Nat) := []
  yesterday : List (Option Nat) := []
  /-- The PASSTHRU that waits (R258). -/
  pt       : Option (Nat × List Byte) := none
  rx       : List BcnRx := []
  /-- Lanterns that have reported since ENABLE (R259). -/
  reported : List Nat := []
  camps    : AMap BcnCamp := []
  /-- Lanterns whose state half has changed since the last copy (R411). -/
  changed  : List Nat := []
  /-- Profile banks that a rebuild has filled (R242). -/
  filled   : List Nat := []
deriving DecidableEq, Repr

/-- A sample of a channel (R271, R273): its number, its code, and its value (binary64) before and after the high-pass
filter. -/
structure TlyCode where
  n    : Nat
  code : Int
  pre  : Nat
  out  : Nat
deriving DecidableEq, Repr

/-- A channel of the Tally's front end (R271, R273): its last samples, newest first, so far back as the opening of a cycle
can lie. -/
structure TlyCh where
  hist : List TlyCode := []
deriving DecidableEq, Repr

/-- A feeder's settings as its line cycle takes them at its opening (R301): PHASE_MASK, FREQ_PHASE, NOMINAL60, SAGREF,
UDIN (binary32), SAG, SWELL, HYST, INT, FDR_LATCH, and each channel's KFS and HPF. -/
structure FdrCfg where
  mask  : Nat := 0
  phase : Nat := 0
  hz60  : Bool := false
  sagRef : Bool := false
  udin  : Nat := 0
  sag   : Nat := 0
  swell : Nat := 0
  hyst  : Nat := 0
  int   : Nat := 0
  latch : Nat := 0
  kfs   : List Nat := []
  hpf   : List Bool := []
deriving DecidableEq, Repr

/-- An event in progress (R281, R282): start stamp, refreshes, extreme (binary64), phases, reference (binary64). -/
structure PqEvent where
  start : Nat
  dur   : Nat
  ext   : Nat
  phases : Nat
  ref   : Nat
deriving DecidableEq, Repr

/-- A feeder (R275 to R282, R289, R290). Instants are in AFE samples. `samples` lists, oldest first, the samples' numbers
and the corrected values (binary64) of the seven channels; `pend` the crossings found and not yet closed (whether a
boundary, instant). Register modes: 0 none, 1 totals, 2 deltas. -/
structure Fdr where
  cfg     : FdrCfg := {}
  since   : Nat := 0
  samples : List (Nat × List Nat) := []
  last    : Option Rat := none
  lastHalf : Option Rat := none
  /-- The last boundary found or placed, the one before it, and the last half-cycle boundary. -/
  bnd     : Option Rat := none
  bnd0    : Option Rat := none
  half    : Option Rat := none
  held    : Option Rat := none
  /-- Whether the last boundary was counted, and whether boundaries are placed until two in a row are counted. -/
  counted : Bool := false
  dipped  : Bool := false
  risen   : Bool := false
  pend    : List (Bool × Rat) := []
  /-- The instant at which the half-cycle boundary of a placed cycle falls. -/
  halfAt  : Option Rat := none
  usr     : Nat := 0
  /-- The block of USR: cycles, samples, and each phase's sum of squares. -/
  blkCycles : Nat := 0
  blkN    : Nat := 0
  blkSum  : List Nat := []
  sag     : Option PqEvent := none
  swell   : Option PqEvent := none
  intr    : Option PqEvent := none
  mode    : Nat := 0
  /-- Residues of the 16 accumulators' totals and of their deltas (binary64), the deltas of the open window, its cycles. -/
  res     : List Nat := []
  dres    : List Nat := []
  delta   : List Int := []
  window  : Nat := 0
deriving DecidableEq, Repr

/-- A thermal channel (R284 to R290). -/
structure Thm where
  /-- Direction of the last non-zero sample or of the last pulse: 0 none, 1 forward, −1 reverse. -/
  dir     : Int := 0
  pulsesF : Nat := 0
  pulsesR : Nat := 0
  /-- The open interval: samples, the totals at its opening, its sums in delta mode (binary64), its flags. -/
  count   : Nat := 0
  opened  : List Int := []
  sums    : List Nat := []
  fail    : Bool := false
  clamp   : Bool := false
  mode    : Nat := 0
  res     : List Nat := []
  dres    : List Nat := []
  delta   : List Int := []
  window  : Nat := 0
  /-- What counts its pulses, as the last thermal sample took it (R301): FLOW_PULSE, PULSE_IN, DIR_EN. -/
  pulse   : Bool := false
  pin     : Nat := 0
  dirEn   : Bool := false
deriving DecidableEq, Repr

/-- A pulse output (R296, R297): accumulator (binary64), due instants, and its pin: 0 idle, 1 active, 2 resting. -/
structure PulseOut where
  acc     : Nat := 0
  lastDue : Option Nat := none
  gap     : Option Nat := none
  phase   : Nat := 0
  until_  : Nat := 0
  width   : Nat := 0
deriving DecidableEq, Repr

/-- The Tally beside its registers (R270 to R303). -/
structure TlySt where
  chs     : AMap TlyCh := []
  /-- Samples since TLY's enable, the stamp of the last, and whether a thermal sample is due. -/
  n       : Nat := 0
  stamp   : Nat := 0
  thDue   : Bool := false
  /-- The last die temperature read without a failure. -/
  temp    : Option Int := none
  fdrs    : AMap Fdr := []
  thms    : AMap Thm := []
  outs    : AMap PulseOut := []
  /-- Sums of the general channels since the last thermal sample: value, square, count. -/
  gens    : AMap (Nat × Nat × Nat) := []
  /-- The KFS of the general channels, as the last thermal sample took them (R301). -/
  genKfs  : List Nat := []
  /-- The register mode that a mode command gave, to be taken up. -/
  target  : Nat := 0
  /-- Records that wait to be written to MRAM. -/
  writes  : Nat := 0
deriving DecidableEq, Repr

/-- An accepted CAN item (R340 to R345): class, SEQ, identity, record's address, whether its data has been fetched, whether
an SOF of it has been driven, and its record once fetched. -/
structure CanItem where
  cls     : Nat
  seq     : Nat
  item    : Nat
  addr    : Nat
  fetched : Bool
  sof     : Bool
  octets  : List Byte
deriving DecidableEq, Repr

/-- A CAN controller beside its registers (R333 to R346): its items in order of acceptance, the frame in transmission
(class, SEQ, whether a retransmission), the next SEQ of each class, whether a PULL's bit timing waits for bus idle, the
fabric cycle at which a measurement's window ends. -/
structure CanCtl where
  items     : List CanItem := []
  sending   : Option (Nat × Nat × Bool) := none
  seqs      : AMap Nat := []
  newTiming : Bool := false
  measEnd   : Nat := 0
deriving DecidableEq, Repr

/-- A UART (R348): 0 idle, 1 sending, 2 awaiting the response; the telegram being sent; the fabric cycle at which that
ends: DE's release, or the response time-out. -/
structure Uart where
  phase : Nat := 0
  tx    : List Byte := []
  due   : Nat := 0
deriving DecidableEq, Repr

/-- A fetched command of a host ring (R85): descriptor, its index, the accepted item or the code of its refusal, the Tide
time of the test in ns, and once executed its KIND, code and RESULT. -/
structure RingCmd where
  desc : List Byte
  idx  : Nat
  item : Option Nat
  code : Nat
  acc  : Nat
  done : Option (Nat × Nat × List Byte)
deriving DecidableEq, Repr

/-- A host command ring (R82 to R86): its fetched commands, oldest first, and PHASE of the next record. -/
structure HostRing where
  cmds  : List RingCmd := []
  phase : Bool := true
deriving DecidableEq, Repr

/-- A DDR INIT that runs (R468): whether it tests, whether training has ended, blocks finished on each channel. -/
structure DdrRun where
  test    : Bool
  trained : Bool
  done0   : Nat
  done1   : Nat
deriving DecidableEq, Repr

/-- The memory controllers (R468, R472, R475): the INIT, whether an MRAM scrub runs, the flash operation and address. -/
structure MemSt where
  init  : Option DdrRun := none
  scrub : Bool := false
  flash : Option (Nat × Nat) := none
deriving DecidableEq, Repr

/-- A rail's loop (R486, R487): v in mV, updates in a row above GUARD_HI, the PMBus transaction (voltage, whether it is the
retry), whether the last transaction failed; the fabric cycles at which the next update is due and the transaction began; the
step that a wake holds back (R489), and the cycle from which none is held. -/
structure Rail where
  v     : Option Nat := none
  above : Nat := 0
  txn   : Option (Nat × Bool) := none
  stuck : Bool := false
  due   : Nat := 0
  txnAt : Nat := 0
  step  : Option Nat := none
  freeAt : Nat := 0
deriving DecidableEq, Repr

/-- The machine. -/
structure State where
  /-- Commands that wait, first in, first out. -/
  pending : List Instr := []
  /-- Register fields, by `Fld.key`: every field of the register map that no other part of the State holds. -/
  regs    : AMap Nat := []
  /-- Staged copies of the PS fields of staged registers (R60). -/
  staged  : AMap Nat := []
  /-- Words of wide values written and held for the write of the lowest word (R8), by window offset. -/
  held    : AMap Nat := []
  /-- Words captured by the last read of the lowest word of a wide value (R8, R81), by window offset. -/
  capture : AMap Nat := []
  /-- Bits of W1C fields that hardware has set in the present fabric cycle, by `Fld.key` (R9). -/
  setNow  : AMap Nat := []
  /-- Every memory, by byte: see `Space`. -/
  mem     : List Host.Cell := []
  /-- Words of the byte map with a single-bit error, by the key of their first byte, and where an uncorrectable error
  stands (R469). No command makes one: none at reset. -/
  eccOne  : List Nat := []
  eccBad  : List EccCell := []
  resp    : Resp := {}
  outbox  : List Out := []
  /-- Fabric cycles of 2.5 ns since the device was reset. -/
  fab     : Nat := 0
  /-- Tide time in units of 2⁻¹⁶ ns (R316, R317), and what it was in the fabric cycle before. -/
  tide    : Nat := 0
  tidePrev : Nat := 0
  /-- Instants of Tide time that the present fabric cycle reaches and whose command has come: cyclic task t of quay q 8q + t,
  context c 64 + c, the Beacon's evaluation 255 (R139, R168, R246). -/
  instants : List Nat := []
  phase   : Phase := .released
  /-- RESET_N, DEBUG_EN as sampled, supplies in range, VBAT present. -/
  resetN  : Bool := true
  debugEn : Bool := false
  supplies : Bool := true
  vbat    : Bool := true
  /-- Last key written to SYS_WDT_KICK, and the fabric cycle at which the watchdog period began (R54). -/
  wdtKey  : Nat := 0
  wdtAt   : Nat := 0
  /-- The MRAM boot counter, and the four PCI identifiers of the last valid boot image header, little-endian (R460, R471);
  none: the fused ones are presented. -/
  bootCtr : Nat := 0
  pciIds  : Option Nat := none
  /-- Reaction faults raised and not yet registered at Breakwater: Mast source, bit, injected (R425, R431). -/
  reactions : List (Nat × Nat × Bool) := []
  /-- The fabric cycle in which a reaction fault was last registered (R40, R42). -/
  reactAt : Option Nat := none
  /-- How many values the spec leaves open have been drawn: the model's own counter. -/
  freeCnt : Nat := 0
  adm     : AdmState := {}
  /-- ENABLE instances whose consistency check is running, by `Fld.key` (R73). -/
  checking : List Nat := []
  /-- The armed PULL's write instant as Tide time (R68). -/
  pullAt  : Nat := 0
  pull    : PullArm := {}
  log     : LogSt := {}
  bst     : BstSt := {}
  epochs  : AMap Nat := []
  channels : AMap (Option BthWord) := []
  bthPos  : AMap Nat := []
  soft    : List Nat := []
  grantAt : AMap Nat := []
  offers  : AMap (Option Offer) := []
  locks   : AMap LockSt := []
  /-- The MSI-X function mask of the PCIe configuration space (R464). -/
  msixMask : Bool := false
  /-- Power domains being woken: quays 0 to 5, Drafting 6 (R379). -/
  waking  : List Nat := []
  pair    : PairSt := {}
  ports   : AMap NetPort := []
  /-- Sources whose configuration is lost until it is written (R402). -/
  srcLost : List Nat := []
  /-- The host interface is a lost medium until HST is enabled again (R53, R459). -/
  hostLost : Bool := false
  /-- The base addresses of BAR0, BAR2 and BAR4 in the configuration space (R53, R461). -/
  bars    : AMap Nat := []
  tid     : TidSt := {}
  pio     : PioSt := {}
  grv     : GrvSt := {}
  drf     : DrfSt := {}
  alm     : AlmSt := {}
  bcn     : BcnSt := {}
  tly     : TlySt := {}
  can     : AMap CanCtl := []
  uarts   : AMap Uart := []
  rings   : AMap HostRing := []
  /-- The ring whose PROOF command runs (R86). -/
  ringProof : Option Nat := none
  memory  : MemSt := {}
  rails   : AMap Rail := []
  cores   : AMap Core := []
  quays   : AMap QuaySt := []
  stations : AMap (Option Station) := []
deriving DecidableEq, Repr

/-- The machine right after a power-on reset: every register at the reset value of the register map, every channel
empty, the clock at 0 s 0 ns, memory with nothing listed, no command waiting. -/
def State.reset : State := {}

end Sys2Proof.Machine
end

