-- ==== Sys2Proof/Machine/Ops.lean ====
section
/-! DEFINITION. The named operations: register fields, memory, clocks, sub-states, and the Logbook's queue.
Readings and choices: DESIGN CHOICE log 2, 8; DEDUCED log 50. -/

namespace Sys2Proof.Machine

/-- The outcome type of every meaning. -/
abbrev Out' := Host.Outcome State Fault Refusal

/-! ## Register fields -/

/-- The field `f` of the instance at displacement `d`: as many bits as the field has. -/
def State.g (s : State) (f : Fld) (d : Nat := 0) : Nat := AMap.get f.rst s.regs (f.key d) % 2 ^ f.w

/-- Give a field a value; bits beyond its width are lost. -/
def State.p (s : State) (f : Fld) (d v : Nat) : State :=
  { s with regs := AMap.set f.rst s.regs (f.key d) (v % 2 ^ f.w) }

/-- Whether a one-bit field reads 1. -/
def State.on (s : State) (f : Fld) (d : Nat := 0) : Bool := s.g f d == 1

/-- Count one up, wrapping. -/
def State.inc (s : State) (f : Fld) (d : Nat) : State := s.p f d (s.g f d + 1)

/-- Count one up, saturating at the field's largest value. -/
def State.incSat (s : State) (f : Fld) (d : Nat) : State := s.p f d (satAdd f.w (s.g f d) 1)

/-- Count `n` up, saturating. -/
def State.addSat (s : State) (f : Fld) (d n : Nat) : State := s.p f d (satAdd f.w (s.g f d) n)

/-- Return a field to its reset value. -/
def State.clr (s : State) (f : Fld) (d : Nat) : State := s.p f d f.rst

/-- Give a field a value in its live copy, and in its staged copy where it has one. -/
def State.pBoth (s : State) (f : Fld) (d v : Nat) : State :=
  let s := s.p f d v
  if (AMap.find s.staged (f.key d)).isSome then { s with staged := AMap.ins s.staged (f.key d) (v % 2 ^ f.w) } else s

/-- Set or clear bit `i` of a field. -/
def State.setBit (s : State) (f : Fld) (d i : Nat) (b : Bool) : State :=
  let x := s.g f d
  if x.testBit i = b then s else s.p f d (if b then x + 2 ^ i else x - 2 ^ i)

/-- Hardware sets bits `v` of a W1C field: they read 1 whatever a write of the same fabric cycle clears (R9). -/
def State.hw (s : State) (f : Fld) (d v : Nat) : State :=
  let k := f.key d
  { (s.p f d (s.g f d ||| v)) with setNow := AMap.set 0 s.setNow k (AMap.get 0 s.setNow k ||| v) }

/-- A write clears bits `v` of a W1C field, but for those that hardware sets in the same fabric cycle (R9). -/
def State.w1c (s : State) (f : Fld) (d v : Nat) : State :=
  let x := s.g f d
  s.p f d ((x - (x &&& v)) ||| (x &&& AMap.get 0 s.setNow (f.key d)))

/-- The fields of a time laid out as PRF_PULL_TIME (nanoseconds, seconds low, seconds high). -/
def timeLo (f : Fld) : Fld := { f with off := f.off + 4, lo := 0, w := 32 }
def timeHi (f : Fld) : Fld := { f with off := f.off + 8, lo := 0, w := 16 }

/-- A time register set as nanoseconds. -/
def State.timeNs (s : State) (f : Fld) (d : Nat := 0) : Nat :=
  (s.g (timeHi f) d * 2 ^ 32 + s.g (timeLo f) d) * 1000000000 + s.g f d

/-- Load a time register set from nanoseconds. -/
def State.putTime (s : State) (f : Fld) (d ns : Nat) : State :=
  ((s.p f d (ns % 1000000000)).p (timeLo f) d (ns / 1000000000)).p (timeHi f) d (ns / 1000000000 / 2 ^ 32)

/-! ## Memory -/

/-- The address spaces. One byte map holds them all, each in a range of keys of its own: the device map (40 bits),
the process-image SRAM of each quay, the data and the instruction SRAM of each core (R89: no other master reaches them),
and the boot flash. -/
inductive Space where
  | dev | image | data | instr | flash
deriving DecidableEq, Repr

/-- First key of an address space. -/
def Space.base : Space → Nat
  | .dev => 0
  | .image => 2 ^ 48
  | .data => 2 * 2 ^ 48
  | .instr => 3 * 2 ^ 48
  | .flash => 4 * 2 ^ 48

/-- Keys of the image SRAM of quay `q`, the data SRAM and the instruction SRAM of core `c`. -/
def imageKey (q off : Nat) : Nat := Space.image.base + q * 2 ^ 20 + off
def dataKey (c off : Nat) : Nat := Space.data.base + c * 2 ^ 16 + off
def instrKey (c off : Nat) : Nat := Space.instr.base + c * 2 ^ 17 + off
def flashKey (a : Nat) : Nat := Space.flash.base + a

/-- What an unlisted byte reads as: 0, as cleared SRAM does (R56, R91). -/
def memUnlisted : Byte := 0

/-- Read and write one byte. -/
def State.rb (s : State) (a : Nat) : Byte := AMap.get memUnlisted s.mem a
def State.wb (s : State) (a : Nat) (b : Byte) : State := { s with mem := AMap.set memUnlisted s.mem a b }

/-- The `n` bytes from a key. -/
def State.rbs (s : State) : Nat → Nat → List Byte
  | _, 0 => []
  | a, n + 1 => s.rb a :: s.rbs (a + 1) n

/-- Write bytes from a key upward. -/
def State.wbs : State → Nat → List Byte → State
  | s, _, [] => s
  | s, a, b :: t => State.wbs (s.wb a b) (a + 1) t

/-- Little-endian numbers of `n` bytes (R5, R10). -/
def State.rle (s : State) (a n : Nat) : Nat := leNat (s.rbs a n)
def State.wle (s : State) (a n v : Nat) : State := s.wbs a (leBytes n v)

/-- The byte map is in canonical form. -/
abbrev Memory.wf (m : List Host.Cell) : Prop := AMap.canon memUnlisted m

/-! ## Regions of the device map (R18, R19) -/

def winBase : Nat := 0x4000000000
def winEnd : Nat := 0x1400000
def sramBase : Nat := 0x10000000
def sramEnd : Nat := 0x11000000
def mramBase : Nat := 0x30000000
def mramEnd : Nat := 0x30100000
def ddrBase : Nat := 0x800000000

/-- Installed DDR: the capacities MEM_DDR_CFG declares; channel 1 is unpopulated where its LOG2_GB is 0 (R467). The region
ends at 64 GB (R19). Before the MEM enable has refused them, values outside R465 count as the field reads, so that the
reset value 0 of channel 0 counts 1 GB: DESIGN CHOICE, log 46. -/
def State.ddrSize (s : State) : Nat :=
  min (2 ^ 36) (2 ^ (s.g MEM_DDR_CFG_LOG2_GB 0) * 2 ^ 30 +
    (if s.g MEM_DDR_CFG_LOG2_GB 0x100 = 0 then 0 else 2 ^ (s.g MEM_DDR_CFG_LOG2_GB 0x100) * 2 ^ 30))

/-- Whether the `n` bytes from an address lie wholly in shared SRAM, in installed DDR. -/
def inSram (a n : Nat) : Bool := sramBase ≤ a && a + n ≤ sramEnd
def State.inDdr (s : State) (a n : Nat) : Bool := ddrBase ≤ a && a + n ≤ ddrBase + s.ddrSize
def inMram (a n : Nat) : Bool := mramBase ≤ a && a + n ≤ mramEnd
def inRom (a n : Nat) : Bool := a + n ≤ 0x10000
/-- Whether the `n` bytes lie wholly in shared SRAM or wholly in installed DDR. -/
def State.inRam (s : State) (a n : Nat) : Bool := inSram a n || s.inDdr a n
def inWindow (a n : Nat) : Bool := winBase ≤ a && a + n ≤ winBase + winEnd

/-! ## Clocks -/

/-- Tide time in whole nanoseconds, as CLK_FAB sees it: the same instant, the crossing of R17 being timing. -/
def State.tideNs (s : State) : Nat := s.tide / 65536

/-- Whether this is the first fabric cycle in which Tide time is at or after an instant T, in ns, for which T − `phase` is a
multiple of `period` (R139, R168, R246). -/
def State.tideReaches (s : State) (period phase : Nat) : Bool :=
  let k : Nat → Int := fun t => ((t / 65536 : Nat) - (phase : Int)) / (period : Int)
  0 < period && s.tidePrev < s.tide && k s.tidePrev != k s.tide

/-- An instant of Tide time whose command comes in the cycle that reaches it, and once. -/
def State.atInstant (s : State) (id period phase : Nat) : Bool := s.tideReaches period phase && !s.instants.contains id
/-- The same for an instant that comes every `period` fabric cycles, counted from reset. -/
def State.atCycle (s : State) (id period : Nat) : Bool := s.fab % period == 0 && !s.instants.contains id
def State.takeInstant (s : State) (id : Nat) : State := { s with instants := id :: s.instants }

/-- Fabric cycles in a microsecond. -/
def usCycles : Nat := 400

/-! ## ECC (R469) -/

/-- The bytes of an ECC word: 32 bits on DDR5, 64 bits elsewhere. -/
def State.eccWord (s : State) (k : Nat) : Nat :=
  if ddrBase ≤ k ∧ k < winBase ∧ s.on MEM_DDR_CFG_DDR5 = true then 4 else 8

/-- Whether the ECC word that begins at key `w` meets the `n` bytes from key `k`. -/
def State.eccMeets (s : State) (k n w : Nat) : Bool := w < k + n && k < w + s.eccWord w

/-- Whether an uncorrectable error stands among the `n` bytes from a key. -/
def State.eccUncorr (s : State) (k n : Nat) : Bool :=
  s.eccBad.any fun x => match x with | .word w => s.eccMeets k n w | _ => false

/-- How many words among the `n` bytes from a key have an error that the access corrects. -/
def State.eccCorr (s : State) (k n : Nat) : Nat := (s.eccOne.filter (s.eccMeets k n)).length

/-- The words found are corrected and written back. -/
def State.eccFix (s : State) (k n : Nat) : State := { s with eccOne := s.eccOne.filter fun w => !s.eccMeets k n w }

/-- A write of the `n` bytes from a key gives the words it covers whole new check bits. -/
def State.eccWritten (s : State) (k n : Nat) : State :=
  let whole : Nat → Bool := fun w => k ≤ w && w + s.eccWord w ≤ k + n
  { s with eccOne := s.eccOne.filter fun w => !whole w,
           eccBad := s.eccBad.filter fun x => match x with | .word w => !whole w | _ => true }

/-- Bytes written from a key upward, with their ECC. -/
def State.wbsEcc (s : State) (k : Nat) (bs : List Byte) : State := (s.wbs k bs).eccWritten k bs.length

/-- Whether an uncorrectable error stands in a block's own memory. -/
def State.eccIn (s : State) (x : EccCell) : Bool := s.eccBad.contains x

/-- The block that met it writes that memory anew. -/
def State.eccGone (s : State) (x : EccCell) : State := { s with eccBad := s.eccBad.filter (· != x) }

/-! ## Sub-states -/

def State.core (s : State) (c : Nat) : Core := AMap.get {} s.cores c
def State.setCore (s : State) (c : Nat) (x : Core) : State := { s with cores := AMap.set {} s.cores c x }
def State.quay (s : State) (q : Nat) : QuaySt := AMap.get {} s.quays q
def State.setQuay (s : State) (q : Nat) (x : QuaySt) : State := { s with quays := AMap.set {} s.quays q x }
def QuaySt.task (q : QuaySt) (t : Nat) : TaskSt := AMap.get {} q.tasks t
def QuaySt.setTask (q : QuaySt) (t : Nat) (x : TaskSt) : QuaySt := { q with tasks := AMap.set {} q.tasks t x }
def QuaySt.actsOf (q : QuaySt) (k : Nat) : List Activation := AMap.get [] q.acts k
def QuaySt.setActs (q : QuaySt) (k : Nat) (l : List Activation) : QuaySt := { q with acts := AMap.set [] q.acts k l }
def State.station (s : State) (n : Nat) : Option Station := AMap.get none s.stations n
def State.setStation (s : State) (n : Nat) (x : Option Station) : State :=
  { s with stations := AMap.set none s.stations n x }
def State.lock (s : State) (l : Nat) : LockSt := AMap.get {} s.locks l
def State.setLock (s : State) (l : Nat) (x : LockSt) : State := { s with locks := AMap.set {} s.locks l x }
def State.epoch (s : State) (p : Nat) : Nat := AMap.get 0 s.epochs p
def State.setEpoch (s : State) (p e : Nat) : State := { s with epochs := AMap.set 0 s.epochs p (e % 16) }

/-- Displacements of instances. -/
def dQuay (q : Nat) : Nat := 0x10000 * q
def dCore (c : Nat) : Nat := 0x10000 * (c / 4) + 0x100 * (c % 4)
def dTask (q t : Nat) : Nat := 0x10000 * q + 0x40 * t
def dEvt (q e : Nat) : Nat := 0x10000 * q + 0x20 * e

/-- Record something leaving the device. -/
def State.emit (s : State) (o : Out) : State := { s with outbox := s.outbox ++ [o] }

/-- Answer a register access. -/
def State.answer (s : State) (ok : Bool) (v : Nat) : State := { s with resp := ⟨ok, v⟩ }

/-- The device is held in reset: its supplies are out of range, or RESET_N is low (R49, R482). -/
def State.inReset (s : State) : Bool := s.phase == .off || s.phase == .held

/-- A command written to a register: none reaches a device held in reset. -/
def State.command (s : State) (f : State → State) : State :=
  if s.inReset then s.answer false 0 else (f s).answer true 0

/-- A read of a register that acts: a device held in reset answers none. -/
def State.query (s : State) (f : State → State) : State := if s.inReset then s.answer false 0 else f s

/-- Draw a value the spec leaves open: the value, and the State with the counter advanced. -/
def State.draw (s : State) : Nat × State := (Config.free s.freeCnt, { s with freeCnt := s.freeCnt + 1 })

/-- After a step or a halt request the core halts at this boundary (R136); no fault. -/
def Core.boundary (k : Core) : Core :=
  if k.stepping then { k with run := .halted, stepping := false }
  else if k.haltReq && k.run = .running then { k with run := .halted, haltReq := false, haltCause := 3 } else k

/-- A core that a halt request or a BREAK halted goes on (R136). -/
def Core.resume (k : Core) : Core :=
  if k.run = .halted ∧ (k.haltCause = 3 ∨ k.haltCause = 4) then { k with run := .running, haltCause := 0 } else k

/-! ## Modes (R37) -/

def PROVISION : Nat := 0
def COMMISSION : Nat := 1
def RUN : Nat := 2
def STANDBY : Nat := 3
def SAFE : Nat := 4
def FACTORY : Nat := 5

def State.mode (s : State) : Nat := s.g SYS_MODE_MODE

/-! ## The Logbook's queue (R436) -/

/-- A fixed record enters the queue of 256, or is dropped and counted. Records are written from MRAM ready; one that
is raised while a clear holds the queue is held with it (R444). `master` is 0xFF where hardware caused the record. -/
def State.logFixed (s : State) (code master p0 p1 p2 p3 : Nat) : State :=
  let r : FixRec := ⟨code, master, s.log.pcyc, s.log.opSec, 0, p0 % 2 ^ 32, p1 % 2 ^ 32, p2 % 2 ^ 32, p3 % 2 ^ 32⟩
  if s.log.queue.length + s.log.hold.length < 256 then
    if s.log.clearing.isSome then { s with log := { s.log with hold := s.log.hold ++ [r] } }
    else { s with log := { s.log with queue := s.log.queue ++ [r] } }
  else { s with log := { s.log with dropped := s.log.dropped + 1 } }.incSat LOG_DROPS_FX_DROPPED 0

end Sys2Proof.Machine
end

