-- ==== Sys2Proof/Machine/Mast.lean ====
section
/-! DEFINITION. Mast's firing of sources, MSI-X messages, event-task releases, power-domain wakes (R140, R379,
R382 to R384, R464, R488). -/

namespace Sys2Proof.Machine

/-- Mast source numbers (R382). -/
def srcBerthRx (p : Nat) : Nat := p
def srcBerthLost : Nat := 0x019
def srcDrfResult : Nat := 0x080
def srcBcnPass : Nat := 0x081
def srcBcnFev : Nat := 0x082
def srcBcnCamp : Nat := 0x083
def srcTlyEvent : Nat := 0x084
def srcTlyLatch : Nat := 0x085
def srcTidSwitch : Nat := 0x086
def srcTideIn (i : Nat) : Nat := 0x088 + i
def srcNetRx (p : Nat) : Nat := 0x090 + p
def srcCanRx (n f : Nat) : Nat := 0x0A0 + 2 * n + f
def srcMbs (u : Nat) : Nat := 0x0B0 + u
def srcAlmOsf : Nat := 0x0B8
def srcAlmAlarm (a : Nat) : Nat := 0x0B9 + a
def srcPioDin (n : Nat) : Nat := 0x100 + n

/-- Whether R382 names a source as level, as edge. -/
def srcLevel (n : Nat) : Bool := n ≤ 0x018 || (0x040 ≤ n && n ≤ 0x05D) || (0x0B8 ≤ n && n ≤ 0x0BA)
def srcEdge (n : Nat) : Bool :=
  n = 0x019 || (0x080 ≤ n && n ≤ 0x086) || (0x088 ≤ n && n ≤ 0x08B) || (0x090 ≤ n && n ≤ 0x094) ||
  (0x0A0 ≤ n && n ≤ 0x0AF) || (0x0B0 ≤ n && n ≤ 0x0B7) || (0x100 ≤ n && n ≤ 0x13F) || (0x180 ≤ n && n ≤ 0x1FF)
def srcNamed (n : Nat) : Bool := srcLevel n || srcEdge n

def dSrc (n : Nat) : Nat := 0x10 * n

/-- The MSI-X table entry's message leaves the device. -/
def State.msixEmit (s : State) (v : Nat) : State :=
  s.emit (.msix (s.g HST_MSIX_ADDR_HI_ADDR (16 * v) * 2 ^ 32 + s.g HST_MSIX_ADDR_LO_ADDR (16 * v) * 4)
    (s.g HST_MSIX_DATA_DATA (16 * v)))

/-- An event on an MSI-X vector: a message, or the pending bit where a mask holds it back (R464). -/
def State.msixSend (s : State) (v : Nat) : State :=
  if s.msixMask || s.on HST_MSIX_CTRL_MASKED (16 * v) then s.setBit HST_MSIX_PBA_PEND (4 * (v / 32)) (v % 32) true
  else s.msixEmit v

/-- Whether the quay runs tasks: enabled, and the mode it has taken up is not PROVISION (R37, R41). -/
def State.quayRuns (s : State) (q : Nat) : Bool :=
  s.on BRN_QUAY_CTRL_ENABLE (dQuay q) && (s.quay q).mode ≠ PROVISION

/-- Release event task `e` of quay `q`, or count a lost trigger while a release is pending (R140). -/
def State.eventRelease (s : State) (q e : Nat) : State :=
  if s.quayRuns q && s.on BRN_EVT_CFG_ON (dEvt q e) then
    let k := s.quay q
    let t := k.task (8 + e)
    if t.pend then s.incSat BRN_EVT_STATS_LOST (dEvt q e)
    else s.setQuay q (k.setTask (8 + e) { t with pend := true, relAt := s.tide })
  else s

/-- Every event task bound to a source is released (R140, R382). -/
def State.releaseEvents (s : State) (src : Nat) : State :=
  (List.range 48).foldl (fun s i =>
    let q := i / 8; let e := i % 8
    if s.on BRN_EVT_CFG_SRC_EN (dEvt q e) && s.g BRN_EVT_CFG_SOURCE (dEvt q e) = src then s.eventRelease q e else s) s

/-- The host message of a source (R384). -/
def State.hostDeliver (s : State) (src : Nat) : State :=
  if s.on MST_SRC_CFG_HOST_EN (dSrc src) then s.msixSend (s.g MST_SRC_CFG_HOST_VEC (dSrc src)) else s

/-- An edge source's event: COUNT rises, saturating at 15; host message; event tasks (R382 to R384). -/
def State.fireEdge (s : State) (src : Nat) : State :=
  ((s.incSat MST_SRC_STATE_COUNT (dSrc src)).hostDeliver src).releaseEvents src

/-- A level source's input takes a level; a rise is a firing (R382 to R384). -/
def State.setLevel (s : State) (src : Nat) (b : Bool) : State :=
  if s.on MST_SRC_STATE_LEVEL (dSrc src) = b then s
  else
    let s := s.p MST_SRC_STATE_LEVEL (dSrc src) (bit b)
    if b then (s.hostDeliver src).releaseEvents src else s

/-- Whether a source is pending (R383). -/
def State.srcPending (s : State) (src : Nat) : Bool :=
  if srcLevel src then
    (!s.on MST_SRC_STATE_ACTIVE (dSrc src) && s.on MST_SRC_STATE_LEVEL (dSrc src)) || src ∈ s.soft
  else 0 < s.g MST_SRC_STATE_COUNT (dSrc src)

/-- Power domains: quays 0 to 5 and Drafting, 6. -/
def domainOfPart (p : Nat) : Option Nat := if p < 24 then some (p / 4) else if p = 28 then some 6 else none

def State.gated (s : State) (d : Nat) : Bool := (s.g PWR_GATE_STATUS_GATED).testBit d

/-- Clear a domain's PWR_GATE bit. -/
def State.clearGateBit (s : State) (d : Nat) : State :=
  if d < 6 then s.setBit PWR_GATE_QUAY 0 d false else s.p PWR_GATE_DRAFT 0 0

/-- A step of a rail's loop is held until 100 µs after a wake of one of its domains completes (R489). -/
def State.railFree (s : State) (k : Nat) : State :=
  { s with rails := AMap.set {} s.rails k { AMap.get {} s.rails k with freeAt := s.fab + 100 * usCycles } }

/-- A wake of a domain: clears its GATE bit and, where it is gated, begins to power it up (R379, R488). -/
def State.wake (s : State) (d : Nat) : State :=
  if s.gated d && !(s.waking.contains d) then
    { (s.clearGateBit d).inc PWR_GATE_STATUS_WAKES 0 with waking := s.waking ++ [d] }
  else s.clearGateBit d

end Sys2Proof.Machine
end

