-- ==== Sys2Proof/Machine/Faults.lean ====
section
/-! DEFINITION. Breakwater's fault sets (R423 to R425) and the error response of R7.
Readings and choices: DEDUCED log 41. -/

namespace Sys2Proof.Machine

/-- The blocks that have a fault set. -/
inductive FBlk where
  | sys | brn (q : Nat) | grv | drf | bcn | tly | net (p : Nat) | tid | fbs | mbs | bth | mst | lck | pair | bkw
  | log | bst | hst | mem | pio | pwr
deriving DecidableEq, Repr

/-- Offset of the block's FAULT_STATUS. -/
def FBlk.F : FBlk → Nat
  | .sys => SYS_FS | .brn q => BRN_FS + dQuay q | .grv => GRV_FS | .drf => DRF_FS | .bcn => BCN_FS | .tly => TLY_FS
  | .net p => NET_PORT_FS + 0x10000 * p | .tid => TID_FS | .fbs => FBS_FS | .mbs => MBS_FS | .bth => BTH_FS
  | .mst => MST_FS | .lck => LCK_FS | .pair => PAIR_FS | .bkw => BKW_FS | .log => LOG_FS | .bst => BST_FS
  | .hst => HST_FS | .mem => MEM_FS | .pio => PIO_FS | .pwr => PWR_FS

/-- The block's Mast fault source (R382). -/
def FBlk.src : FBlk → Nat
  | .sys => 0x40 | .brn q => 0x41 + q | .grv => 0x47 | .drf => 0x48 | .bcn => 0x49 | .tly => 0x4A
  | .net p => 0x4B + p | .tid => 0x50 | .fbs => 0x51 | .mbs => 0x52 | .bth => 0x53 | .mst => 0x54 | .lck => 0x55
  | .pair => 0x56 | .bkw => 0x57 | .log => 0x58 | .bst => 0x59 | .hst => 0x5A | .mem => 0x5B | .pio => 0x5C
  | .pwr => 0x5D

/-- How many fault bits the block's FAULT_STATUS has. -/
def FBlk.width : FBlk → Nat
  | .sys => 2 | .brn _ => 4 | .grv => 5 | .drf => 4 | .bcn => 4 | .tly => 4 | .net _ => 3 | .tid => 2 | .fbs => 4
  | .mbs => 1 | .bth => 1 | .mst => 1 | .lck => 1 | .pair => 6 | .bkw => 2 | .log => 2 | .bst => 3 | .hst => 3
  | .mem => 3 | .pio => 1 | .pwr => 3

/-- The value REACT is reset to: CONTRACT_BREACH of SYS and ROLE_CONFLICT of PAIR are set (R34, R406, R425). -/
def FBlk.reactReset : FBlk → Nat
  | .sys => 1 | .pair => 4 | _ => 0

/-- The block of a Mast fault source 0x040 to 0x05D. -/
def FBlk.ofSrc (n : Nat) : Option FBlk :=
  if n = 0x40 then some .sys else if 0x41 ≤ n ∧ n ≤ 0x46 then some (.brn (n - 0x41))
  else if n = 0x47 then some .grv else if n = 0x48 then some .drf else if n = 0x49 then some .bcn
  else if n = 0x4A then some .tly else if 0x4B ≤ n ∧ n ≤ 0x4F then some (.net (n - 0x4B))
  else if n = 0x50 then some .tid else if n = 0x51 then some .fbs else if n = 0x52 then some .mbs
  else if n = 0x53 then some .bth else if n = 0x54 then some .mst else if n = 0x55 then some .lck
  else if n = 0x56 then some .pair else if n = 0x57 then some .bkw else if n = 0x58 then some .log
  else if n = 0x59 then some .bst else if n = 0x5A then some .hst else if n = 0x5B then some .mem
  else if n = 0x5C then some .pio else if n = 0x5D then some .pwr else none

def State.faultStatus (s : State) (b : FBlk) : Nat := s.g (fsStatus b.F b.width)
def State.react (s : State) (b : FBlk) : Nat := s.g (fsReact b.F b.reactReset)

/-- The block's fault interrupt drives its Mast source (R424). -/
def State.faultLevel (s : State) (b : FBlk) : State :=
  s.setLevel b.src (s.faultStatus b &&& s.g (fsIrqEn b.F) ≠ 0)

/-- The failing access of a fault: address, master (R13) and access type 1 read, 2 write, 3 fetch. -/
structure Access where
  addr   : Nat
  master : Nat
  kind   : Nat

/-- Load the first-error capture, if it is empty (R423); masters 42 to 63 are never recorded (R13). -/
def State.capture1 (s : State) (b : FBlk) (fbit : Nat) (acc : Option Access) (detail : Nat) : State :=
  if s.on (fsValid b.F) then s
  else
    let s := ((s.hw (fsValid b.F) 0 1).p (fsBit b.F) 0 fbit).p (fsDetail b.F) 0 detail
    let s := match acc.filter fun a => decide (a.master < 42) with
      | some a => ((((s.p (fsHasAccess b.F) 0 1).p (fsMaster b.F) 0 a.master).p (fsAccess b.F) 0 a.kind).p
          (fsAddrLo b.F) 0 a.addr).p (fsAddrHi b.F) 0 (a.addr / 2 ^ 32)
      | none => ((((s.p (fsHasAccess b.F) 0 0).p (fsMaster b.F) 0 0).p (fsAccess b.F) 0 0).p (fsAddrLo b.F) 0 0).p
          (fsAddrHi b.F) 0 0
    s.putTime (fsTimeNs b.F) 0 s.tideNs

/-- Queue the captures of the snapshot definitions for which `fires` holds, in ascending number; one whose own capture
is pending or running counts in MISSED (R439, R440). -/
def State.snapFire (s : State) (fires : Nat → Bool) (arg : Nat) : State :=
  if s.on LOG_CTRL_ENABLE then
    (List.range 16).foldl (fun s d =>
      if fires d then
        if s.log.caps.any (·.dfn == d) || (s.log.running.map (·.dfn)) == some d then
          s.inc LOG_SNAP_STATUS_MISSED (0x100 * d)
        else { s with log := { s.log with caps := s.log.caps ++ [{ dfn := d, arg := arg, tide := s.tideNs }] } }
      else s) s
  else s

/-- A fault: sets its bit, counts, loads the capture, drives the interrupt; a reaction fault (its REACT bit being 1)
goes to Breakwater (R423 to R425). A Graver fault fires the snapshot definitions of TRIG 2, SEL 128 (R439). -/
def State.raise (s : State) (b : FBlk) (fbit : Nat) (acc : Option Access) (detail : Nat) (injected : Bool := false) :
    State :=
  let s := (s.hw (fsStatus b.F b.width) 0 (2 ^ fbit)).incSat (fsCount b.F) 0
  let s := (s.capture1 b fbit acc detail).faultLevel b
  let s := if b = .grv then
      s.snapFire (fun d => s.g LOG_SNAP_CFG_TRIG (0x100 * d) = 2 && s.g LOG_SNAP_CFG_SEL (0x100 * d) = 128) fbit
    else s
  if (s.react b).testBit fbit then { s with reactions := s.reactions ++ [(b.src, fbit, injected)] } else s

/-- An access outside every window and region: an error response, recorded in the SYS first-error capture (R7). -/
def State.busError (s : State) (addr master kind : Nat) : State :=
  (s.raise .sys SYS_BUS_ERR (some ⟨addr, master, kind⟩) 0).answer false 0

/-- The mode-dependent write of REACT (R425): which bits it takes. -/
def State.writeReact (s : State) (b : FBlk) (v : Nat) : State :=
  let old := s.react b
  let f := fsReact b.F b.reactReset
  if s.mode = SAFE then s
  else if s.mode = RUN ∨ s.mode = STANDBY then s.p f 0 (old ||| v)
  else if s.mode = FACTORY then s.p f 0 v
  else s.p f 0 (v ||| (old &&& b.reactReset))

end Sys2Proof.Machine
end

