-- ==== Sys2Proof/Machine/Paths.lean ====
section
/-! DEFINITION. The timing contract at run time: targets, acceptance, delivery, breach, lost media (R20 to R24, R30 to
R36), and the shared rounding of values whose rounding the spec leaves open.
Readings and choices: DESIGN CHOICE log 8; DEDUCED log 20. -/

namespace Sys2Proof.Machine

def dPath (p : Nat) : Nat := 0x20 * (p % 512)
def dPort (p : Nat) : Nat := 0x10000 * p
def dCan (n : Nat) : Nat := 0x8000 * n
def dRing (r : Nat) : Nat := 0x40 * r

def kCARGO : Nat := 0
def kBEACON : Nat := 1
def kCAN : Nat := 2
def kHOST : Nat := 3
def kDRAFT : Nat := 4

def State.pathKind (s : State) (p : Nat) : Nat := s.g SYS_CTR_PATH_KIND (dPath p)
def State.pathTarget (s : State) (p : Nat) : Nat := s.g SYS_CTR_PATH_TARGET (dPath p)
def State.pathPrio (s : State) (p : Nat) : Nat := s.g SYS_CTR_PATH_PRIO (dPath p)
def State.pathOn (s : State) (p : Nat) : Bool := s.on SYS_CTR_PATH_ENABLE (dPath p)
def State.draining (s : State) (p : Nat) : Bool := s.on SYS_CTR_STATUS_DRAINING (dPath p)

def State.port (s : State) (p : Nat) : NetPort := AMap.get {} s.ports p
def State.setPort (s : State) (p : Nat) (x : NetPort) : State := { s with ports := AMap.set {} s.ports p x }

/-- Whether the target of a path is enabled and its medium is not lost (R21, R28, R35, R307, R459). -/
def State.targetOk (s : State) (kind target : Nat) : Bool :=
  if kind = kCARGO ∨ kind = kBEACON then
    target < 5 && s.on NET_PORT_CTRL_ENABLE (dPort target) && !(s.port target).lost
  else if kind = kCAN then target < 8 && s.on FBS_CTL_CTRL_ENABLE (dCan target)
  else if kind = kHOST then target < 16 && s.on HST_CTRL_ENABLE && s.on HST_STATUS_LINK && !s.hostLost
  else if kind = kDRAFT then target = 0 && s.on DRF_CTRL_ENABLE
  else false

/-! ## Acceptance (R30 to R32) -/

def State.acceptances (s : State) (p : Nat) : List Nat := AMap.get [] s.adm.acc p

/-- How many items of a path count against N at this instant (R30). -/
def State.recent (s : State) (p : Nat) : Nat :=
  ((s.acceptances p).filter fun t => t ≤ s.tide ∧ s.tide < t + s.g SYS_CTR_RATE_WINDOW_US (dPath p) * 65536000).length

/-- The code with which an offered item is refused, 0 where it is accepted: the tests of R30 in their order. `own` is
the test of the item's own deadline or bound. -/
def State.offerCode (s : State) (p size : Nat) (own : Bool) : Nat :=
  if s.mode = SAFE ∧ s.pathKind p ≠ kHOST then 0x04D
  else if s.targetOk (s.pathKind p) (s.pathTarget p) = false then 0x046
  else if s.pathOn p = false then 0x04A
  else if s.g SYS_CTR_SIZE_MAX_SIZE (dPath p) < size then 0x047
  else if s.g SYS_CTR_RATE_MAX_ITEMS (dPath p) ≤ s.recent p then 0x048
  else if own then 0 else 0x049

/-- A refused item is counted. -/
def State.rejectItem (s : State) (p : Nat) : State := s.inc SYS_CTR_REJECTED_COUNT (dPath p)

/-- The longest W (R21), in 2⁻¹⁶ ns: an acceptance older than it counts in no window, whatever W a path is given later. -/
def maxWindow : Nat := 1000000 * 65536000

/-- An item is accepted: its identity, its deadline (R32), and its place in the path's rate. -/
def State.acceptItem (s : State) (p : Nat) : Nat × State :=
  let id := s.adm.nextId
  let it : Item := ⟨id, p, s.tide + s.g SYS_CTR_BOUND_BOUND_NS (dPath p) * 65536⟩
  let acc := ((s.acceptances p).filter fun t => s.tide < t + maxWindow) ++ [s.tide]
  (id, { s with adm := { s.adm with items := s.adm.items ++ [it], nextId := id + 1,
                                    acc := AMap.set [] s.adm.acc p acc } }.inc SYS_CTR_ACCEPTED_COUNT (dPath p))

/-- Whether a path has accepted items that are not delivered. -/
def State.outstanding (s : State) (p : Nat) : Bool := s.adm.items.any (·.path == p)

/-- A draining path whose last item has gone stops draining (R24). -/
def State.drainCheck (s : State) (p : Nat) : State :=
  if s.draining p && !s.outstanding p then s.p SYS_CTR_STATUS_DRAINING (dPath p) 0 else s

/-- An item is delivered, or discarded: it leaves its path (R20, R24). -/
def State.itemGone (s : State) (id : Nat) : State :=
  match s.adm.items.find? (·.id == id) with
  | none => s
  | some it =>
    { s with adm := { s.adm with items := s.adm.items.filter (·.id != id) } }.drainCheck it.path

/-- Discard the items of the paths for which `f` holds; answers their identities (R35). -/
def State.dropItems (s : State) (f : Nat → Bool) : List Nat × State :=
  let ids := (s.adm.items.filter fun it => f it.path).map (·.id)
  (ids, ids.foldl State.itemGone s)

/-- Whether a path's target is the given one: Cargo and Beacon share the Ethernet ports. -/
def State.targets (s : State) (kind target p : Nat) : Bool :=
  let k := s.pathKind p
  (k = kind ∨ (k ≤ kBEACON ∧ kind ≤ kBEACON)) && s.pathTarget p == target

/-- Move the deadlines of the items of some paths later (R343). -/
def State.moveDeadlines (s : State) (f : Nat → Bool) (ns : Nat) : State :=
  let later : Item → Item := fun it =>
    if f it.path then { it with deadline := it.deadline + ns * 65536 } else it
  { s with adm := { s.adm with items := s.adm.items.map later } }

/-- Counters of a port that count discarded items (R307). -/
def portTxDiscarded : Nat := 4 * 7

/-- A field Ethernet port is a lost medium: the items of its paths are discarded and counted (R35, R307). -/
def State.losePort (s : State) (p : Nat) : State :=
  let x := s.dropItems (s.targets kCARGO p)
  let s := x.2
  let k := s.port p
  let s := s.setPort p { k with lost := true, busy := none,
                                queue := k.queue.filter fun f => match f.item with
                                  | some i => !x.1.contains i
                                  | none => false }
  s.p NET_PORT_COUNT_COUNT (dPort p + portTxDiscarded)
    (s.g NET_PORT_COUNT_COUNT (dPort p + portTxDiscarded) + x.1.length)

/-! ## Rounding -/

/-- A quotient whose rounding the spec does not state: the integer below or the one above, which of them being a free
value; exact where the division is. -/
def State.roundOpen (s : State) (x : Int) (d : Nat) : Int × State :=
  if x % d = 0 then (x / d, s)
  else
    let y := s.draw
    (x / d + (y.1 % 2 : Nat), y.2)

end Sys2Proof.Machine
end

