-- ==== Sys2Proof/Machine/CargoTable.lean ====
section
/-! DEFINITION. The Cargo station table: the fields of an entry (R153). Readings and choices: DEDUCED log 22. -/

namespace Sys2Proof.Machine

/-- The little-endian field of `n` bytes at an offset of an entry. -/
def entField (e : List Byte) (o n : Nat) : Nat := leNat ((e.drop o).take n)

def entOn (e : List Byte) : Bool := (entField e 0 4).testBit 0
def entClass (e : List Byte) : Nat := bits (entField e 0 4) 1 3
def entQuay (e : List Byte) : Nat := bits (entField e 0 4) 4 3
def entTask (e : List Byte) : Nat := bits (entField e 0 4) 7 3
def entRxMask (e : List Byte) : Nat := bits (entField e 0 4) 10 4
def entTransport (e : List Byte) : Nat := bits (entField e 0 4) 16 2
def entMissLimit (e : List Byte) : Nat := bits (entField e 0 4) 18 4
def entVlan (e : List Byte) : Bool := (entField e 0 4).testBit 22
def entInLen (e : List Byte) : Nat := entField e 4 2
def entOutLen (e : List Byte) : Nat := entField e 6 2
def entInOff (e : List Byte) : Nat := entField e 8 4
def entOutOff (e : List Byte) : Nat := entField e 12 4
def entPath (e : List Byte) : Nat := entField e 16 2
def entTci (e : List Byte) : Nat := entField e 18 2
def entMac (e : List Byte) : List Byte := (e.drop 20).take 6
def entIp (e : List Byte) : List Byte := (e.drop 32).take 16
def entUdp (e : List Byte) : Nat := entField e 48 2

/-- The fields at offsets 0 to 63 of station `n` of the table at an address. -/
def State.tableEntry (s : State) (base n : Nat) : List Byte := s.rbs (base + 1024 * n) 64

/-- The stations of a table that are ON, with their numbers. -/
def State.tableStations (s : State) (base : Nat) : List (Nat × List Byte) :=
  (List.range 2048).filterMap fun n => let e := s.tableEntry base n; if entOn e then some (n, e) else none

/-- Whether a station keeps its state over a change of table (R155). -/
def keepsState (a b : List Byte) : Bool :=
  entQuay a == entQuay b && entTask a == entTask b && entInLen a == entInLen b && entTransport a == entTransport b

/-- The state of a station in service that a scan finds which began with the table entry `e` (R70, R155): none where a new
table has dropped it, or started it anew. -/
def State.stationOf (s : State) (n : Nat) (e : List Byte) : Option Station :=
  (s.station n).filter fun x => keepsState x.entry e

/-- The stations in service, with their numbers and entries. -/
def State.liveStations (s : State) : List (Nat × List Byte) :=
  s.stations.filterMap fun x => x.2.map fun y => (x.1, y.entry)

/-- The bytes of a station's entry that are read afresh, from offset 64 on (R153). -/
def State.stationByte (s : State) (n o : Nat) : Byte := s.rb (s.g NET_CARGO_TABLE_BASE + 1024 * n + o)

end Sys2Proof.Machine
end

