-- ==== Sys2Proof/Machine/EthFrame.lean ====
section
/-! DEFINITION. Ethernet, IP and UDP headers of the frames the device builds, and the port's transmit queue (R159,
R308, R312). Readings and choices: DEDUCED log 36. -/

namespace Sys2Proof.Machine

/-- MAC of a port, and its NEXTHOP (octet 0 in bits [31:24] of the first word). -/
def State.portMac (s : State) (p : Nat) : List Byte :=
  beBytes 4 (s.g NET_PORT_MAC_LO_OCTETS_0_3 (dPort p)) ++ beBytes 2 (s.g NET_PORT_MAC_HI_OCTETS_4_5 (dPort p))
def State.portNexthop (s : State) (p : Nat) : List Byte :=
  beBytes 4 (s.g NET_PORT_NEXTHOP_LO_OCTETS_0_3 (dPort p)) ++ beBytes 2 (s.g NET_PORT_NEXTHOP_HI_OCTETS_4_5 (dPort p))
def State.portIp4 (s : State) (p : Nat) : List Byte := beBytes 4 (s.g NET_PORT_IPV4_ADDR (dPort p))
def State.portIp6 (s : State) (p : Nat) : List Byte :=
  (List.range 4).flatMap fun k => beBytes 4 (s.g NET_PORT_IPV6_ADDR (dPort p + 4 * k))

/-- The sum of the 16-bit words of octets, an odd last octet padded with 0. -/
def sum16 : List Byte → Nat
  | [] => 0
  | [a] => a.toNat * 256
  | a :: b :: t => a.toNat * 256 + b.toNat + sum16 t

/-- End-around carry of a sum of at most some thousands of words, and the checksum's complement. -/
def fold16 (x : Nat) : Nat :=
  let y := x % 65536 + x / 65536
  y % 65536 + y / 65536
def checksum16 (l : List Byte) : Nat := 65535 - fold16 (sum16 l)

/-- A UDP datagram over addresses of one family; a checksum of 0 is sent as 0xFFFF. -/
def udpPacket (src dst : List Byte) (sport dport : Nat) (data : List Byte) : List Byte :=
  let len := data.length + 8
  let head := beBytes 2 sport ++ beBytes 2 dport ++ beBytes 2 len
  let pseudo := src ++ dst ++ beBytes 4 len ++ beBytes 4 17
  let c := checksum16 (pseudo ++ head ++ [0, 0] ++ data)
  head ++ beBytes 2 (if c = 0 then 0xFFFF else c) ++ data

/-- IPv4 and IPv6 packets with the header values of R308. -/
def ip4Packet (src dst : List Byte) (ident : Nat) (body : List Byte) : List Byte :=
  let a := [0x45, 0] ++ beBytes 2 (20 + body.length) ++ beBytes 2 ident ++ [0x40, 0, 64, 17]
  let b := src ++ dst
  a ++ beBytes 2 (checksum16 (a ++ [0, 0] ++ b)) ++ b ++ body
def ip6Packet (src dst : List Byte) (body : List Byte) : List Byte :=
  [0x60, 0, 0, 0] ++ beBytes 2 body.length ++ [17, 64] ++ src ++ dst ++ body

/-- Octets padded with 0 at their end to a length. -/
def padTo (n : Nat) (l : List Byte) : List Byte := l ++ List.replicate (n - l.length) 0

/-- An Ethernet frame without FCS: padded to 60 octets, a tag coming on top (R159). -/
def ethFrame (dst src : List Byte) (tag : Option Nat) (etherType : Nat) (payload : List Byte) : List Byte :=
  let t := match tag with | some x => beBytes 2 0x8100 ++ beBytes 2 x | none => []
  dst ++ src ++ t ++ beBytes 2 etherType ++ padTo 46 payload

/-- How a Cargo or Beacon message travels: 0 raw, 1 UDP over IPv4, 2 UDP over IPv6 (R153, R254). -/
structure Carrier where
  transport : Nat
  mac   : List Byte
  tag   : Option Nat
  ip    : List Byte
  sport : Nat
  dport : Nat

/-- The frame that carries a message from a port; a frame over IPv4 takes the port's next identification. -/
def State.buildFrame (s : State) (p : Nat) (c : Carrier) (etherType : Nat) (data : List Byte) : List Byte × State :=
  if c.transport = 0 then (ethFrame c.mac (s.portMac p) c.tag etherType data, s)
  else if c.transport = 1 then
    let k := s.port p
    let src := s.portIp4 p
    let dst := c.ip.take 4
    let udp := udpPacket src dst c.sport c.dport data
    (ethFrame c.mac (s.portMac p) c.tag 0x0800 (ip4Packet src dst k.ident udp),
      s.setPort p { k with ident := (k.ident + 1) % 65536 })
  else
    let src := s.portIp6 p
    let udp := udpPacket src c.ip c.sport c.dport data
    (ethFrame c.mac (s.portMac p) c.tag 0x86DD (ip6Packet src c.ip udp), s)

/-- The octets from destination address to FCS of a frame of `n` payload octets (R159). -/
def frameOctets (transport n : Nat) (tagged : Bool) : Nat :=
  max 64 (n + 18 + (if transport = 0 then 0 else if transport = 1 then 28 else 48)) + (if tagged then 4 else 0)

/-- Queue a frame on a port in a traffic class. -/
def State.queueFrame (s : State) (p : Nat) (f : TxFrame) : State :=
  let k := s.port p
  s.setPort p { k with queue := k.queue ++ [f] }

/-- Queue other traffic: in the class OTHER_TC (R311). -/
def State.queueOther (s : State) (p : Nat) (body : TxBody) (len : Nat) : State :=
  s.queueFrame p ⟨s.g NET_PORT_OTHER_OTHER_TC (dPort p), body, none, len⟩

end Sys2Proof.Machine
end

