-- ==== Sys2Proof/Machine/Berths.lean ====
section
/-! DEFINITION. Berths: the 1,024 channels, posts and takes, epochs and resets (R370 to R380).
Readings and choices: DEDUCED log 39. -/

namespace Sys2Proof.Machine

/-- The channel from sender `a` to receiver `r`. -/
def State.chan (s : State) (a r : Nat) : Option BthWord := AMap.get none s.channels (a * 32 + r)
/-- A channel is filled or emptied: an error of what it stored has gone. -/
def State.setChan (s : State) (a r : Nat) (x : Option BthWord) : State :=
  { s with channels := AMap.set none s.channels (a * 32 + r) x, eccBad := s.eccBad.filter (· != .channel a r) }

/-- Whether any channel into `r` is full. -/
def State.anyFull (s : State) (r : Nat) : Bool := (List.range 32).any fun a => (s.chan a r).isSome

/-- Sources BERTH_RX_n follow the channels into cores and participant 24 (R382). -/
def State.rxLevel (s : State) (r : Nat) : State := if r ≤ 24 then s.setLevel (srcBerthRx r) (s.anyFull r) else s

/-- The word a take returns, laid out as R121 gives. -/
def BthWord.pack (x : BthWord) : Nat := x.word + x.sender * 2 ^ 32 + x.epoch * 2 ^ 37

/-- Whether a stream has copy points (R411): a quay's where the quay is enabled, Graver and Tide's always, Beacon's where
the Beacon is enabled. -/
def State.streamOn (s : State) (i : Nat) : Bool :=
  s.on PAIR_CTRL_ENABLE && (if i < 6 then s.on BRN_QUAY_CTRL_ENABLE (dQuay i) else i = 6 || s.on BCN_CTRL_ENABLE)

def dStream (i : Nat) : Nat := 0x10 * i

/-- FIT (R416). The standby's own enables stand for the partner's. In a planned swap that the partner has announced, its
MODE may already read STANDBY. -/
def State.fit (s : State) : Bool :=
  s.mode == STANDBY && s.on PAIR_CTRL_ENABLE &&
    (s.pair.peerMode == RUN || (s.pair.swapNoted && s.pair.peerMode == STANDBY)) &&
    (List.range 7).all fun i =>
      let x := AMap.get {} s.pair.streams i
      (!s.streamOn i || s.on PAIR_STREAM_STATUS_TAKEN (dStream i)) && x.committed.all (fun c => !c.chain) &&
        (6 ≤ i || !s.on PAIR_STREAM_STATUS_TAKEN (dStream i) || x.digest == (s.quay i).xchg.presentDigest % 2 ^ 32)

/-- The octet FLAGS of a Mooring header (R408). -/
def State.pairFlags (s : State) : Nat := s.g PAIR_STATUS_OWN * 128 + bit s.fit * 64 + s.mode * 8

/-- A Mooring message leaves on the link. -/
def State.mooringEmit (s : State) (type stream seq arg : Nat) (payload : List Byte) : State :=
  s.emit (.mooring type s.pairFlags (s.g PAIR_ROLE_ROLE_EPOCH) stream seq arg payload)

/-- Send a message that is acknowledged and repeated (R408). -/
def State.mooringSend (s : State) (type stream arg : Nat) (payload : List Byte) : State :=
  let m : PairMsg := ⟨type, stream, s.pair.txSeq, arg, payload, 0⟩
  let s := { s with pair := { s.pair with txSeq := (s.pair.txSeq + 1) % 2 ^ 32, unacked := s.pair.unacked ++ [m] } }
  if s.on PAIR_STATUS_LINK then s.mooringEmit type stream m.seq arg payload else s

/-- A core that waits in RECV takes a word: destination, BA, and on with the next instruction (R121, R372). -/
def Core.receive (c : Core) (x : BthWord) : Core :=
  { c with run := .running, ba := true, w := c.w.set c.recvDst (BitVec.ofNat 64 x.pack),
           recvFrom := none, rsm := false, recvLeft := 0, pc := c.recvNext,
           instret := c.instret + 1, cyc := c.cyc + 18,
           anyPos := if c.recvFrom.isNone then (x.sender + 1) % 32 else c.anyPos }.boundary

/-- Whether receiver `r` is a core that waits for a word from `a`. -/
def State.waitsFor (s : State) (r a : Nat) : Bool :=
  r < 24 && (s.core r).run = .recv &&
    (match (s.core r).recvFrom with | some p => p = a | none => true)

/-- A snapshot definition of TRIG 1 that a word to participant 31 names (R439). -/
def State.snapWord (s : State) (d : Nat) : Bool :=
  s.on LOG_CTRL_ENABLE && s.g LOG_SNAP_CFG_TRIG (0x100 * d) = 1

/-- The use of a word by participants 27 to 31: participant 31 fires the Berths snapshot definition it names; any other
word is counted in DISCARDED (R374, R439). -/
def State.serviceWord (s : State) (a r word : Nat) : State :=
  let d := word / 2 ^ 28 % 16
  if r = 31 ∧ s.snapWord d then s.snapFire (· == d) (word % 2 ^ 28 + a % 16 * 2 ^ 28)
  else s.incSat BTH_COUNT_DISCARDED 0

/-- Post a word from `a` to `r` (R371): refused where the channel is full; taken at once for a waiting RECV (R372) and
by participants 27 to 31 (R374), a gated Drafting taking it when woken; raises a wake (R379); to participant 26 it goes
over the link (R380). Answers whether it was posted. -/
def State.post (s : State) (a r word : Nat) : Bool × State :=
  if (s.chan a r).isSome then (false, s.incSat BTH_COUNT_FULL_REFUSED 0)
  else
    let x : BthWord := ⟨word % 2 ^ 32, a, s.epoch a⟩
    if s.waitsFor r a then (true, s.setCore r ((s.core r).receive x))
    else if 27 ≤ r ∧ ¬ (r = 28 ∧ s.gated 6) then (true, s.serviceWord a r x.word)
    else
      let s := s.setChan a r (some x)
      let s := match domainOfPart r with | some d => if s.gated d then s.wake d else s | none => s
      if r = 26 then (true, s.mooringSend 4 a x.word [])
      else (true, s.rxLevel r)

/-- Take the word of a channel (R371). A word that came from the partner is reported to it (R380). -/
def State.take (s : State) (a r : Nat) : Option BthWord × State :=
  match s.chan a r with
  | none => (none, s)
  | some x =>
    let s := (s.setChan a r none).rxLevel r
    (some x, if a = 26 then s.mooringSend 5 r 0 [] else s)

/-- A full channel's storage holds an uncorrectable error: the word is discarded, LOST set, BERTH_LOST fires (R378). -/
def State.discardWord (s : State) (a r : Nat) : State :=
  let s := (((s.setChan a r none).rxLevel r).hw BTH_LOST_LOST (4 * a) (2 ^ r)).fireEdge srcBerthLost
  (if a = 26 then s.mooringSend 5 r 0 [] else s).raise .bth BTH_ECC_UNCORR none 0

/-- The channels from senders into `r`, in the order in which a take looks at them, up to the first word that can be read: a
word before it that cannot is discarded. -/
def State.dropBad (s : State) (r : Nat) : List Nat → State
  | [] => s
  | a :: t =>
    if (s.chan a r).isNone then State.dropBad s r t
    else if s.eccIn (.channel a r) then State.dropBad (s.discardWord a r) r t else s

/-- The senders in round order from `pos` upward, wrapping (R121). -/
def roundFrom (pos : Nat) : List Nat := (List.range 32).map fun i => (pos + i) % 32

/-- The full channel into `r` whose sender comes first from `pos` upward, wrapping (R121). -/
def State.firstFull (s : State) (r pos : Nat) : Option Nat :=
  (roundFrom pos).find? fun a => (s.chan a r).isSome

/-- Reset of receiver `r`: every full channel into it is emptied and LOST set (R376). Answers whether any was. -/
def State.emptyInto (s : State) (r : Nat) : Bool × State :=
  (List.range 32).foldl (fun (p : Bool × State) a =>
    if (p.2.chan a r).isSome then (true, (p.2.setChan a r none).hw BTH_LOST_LOST (4 * a) (2 ^ r)) else p)
    (false, s)

/-- Reset of receivers: emptied channels, and BERTH_LOST once when any was emptied (R376). -/
def State.resetReceivers (s : State) (rs : List Nat) : State :=
  let x := rs.foldl (fun (p : Bool × State) r =>
    let y := p.2.emptyInto r; (p.1 || y.1, y.2.rxLevel r)) (false, s)
  if x.1 then x.2.fireEdge srcBerthLost else x.2

/-- A participant's epoch increments (R375). -/
def State.bumpEpoch (s : State) (p : Nat) : State := s.setEpoch p (s.epoch p + 1)

/-! ## The registers of participants 24 and 25 (R373) -/

def dBth (m : Nat) : Nat := 0x20 * (m - 24)

/-- A read of BTH_TX_POST by master `m`: posts and returns POSTED in bit 31 and WOKE in bit 30. -/
def State.bthPost (s : State) (m : Nat) : State :=
  let r := s.g BTH_TX_PEER_PEER (dBth m)
  let woke := match domainOfPart r with | some d => s.gated d && (s.chan m r).isNone | none => false
  let x := s.post m r (s.g BTH_TX_DATA_WORD (dBth m))
  x.2.answer true (bit x.1 * 2 ^ 31 + bit woke * 2 ^ 30)

/-- A taken word as BTH_RX_TAKE and BTH_RX_ANY return it, VALID in bit 63; 0 where no word is there. -/
def takenWord (x : Option BthWord) : Nat := match x with | some w => w.pack + 2 ^ 63 | none => 0

def State.bthTake (s : State) (m : Nat) : State :=
  let a := s.g BTH_RX_PEER_PEER (dBth m)
  let x := (s.dropBad m [a]).take a m
  x.2.answer true (takenWord x.1)

def State.bthAny (s : State) (m : Nat) : State :=
  let s := s.dropBad m (roundFrom (AMap.get 0 s.bthPos m))
  match s.firstFull m (AMap.get 0 s.bthPos m) with
  | none => s.answer true 0
  | some a =>
    let x := s.take a m
    ({ x.2 with bthPos := AMap.set 0 x.2.bthPos m ((a + 1) % 32) }).answer true (takenWord x.1)

end Sys2Proof.Machine
end

