-- ==== Sys2Proof/Machine/Fp.lean ====
section
/-! DEFINITION. IEEE 754 binary64 and binary32 arithmetic with round-to-nearest-even, computed exactly on integers and
rounded once (R102 to R104). Flag masks take the bit positions of the SF register (R124). -/

namespace Sys2Proof.Machine.Fp

/-- Sticky flag masks: FI invalid, FZ divide by zero, FO overflow, FU underflow, FX inexact. -/
def FI : Nat := 16
def FZ : Nat := 8
def FO : Nat := 4
def FU : Nat := 2
def FX : Nat := 1

/-- The quiet NaN of R102. -/
def qnan : Nat := 0x7FF8000000000000

/-- A binary format by its fraction bits and exponent bits. -/
structure Fmt where
  fb : Nat
  eb : Nat

def b64 : Fmt := ⟨52, 11⟩
def b32 : Fmt := ⟨23, 8⟩

/-- A number taken apart: NaN (signalling or not), infinity, or (−1)^sign × m × 2^e. -/
inductive Val where
  | nan (signalling : Bool)
  | inf (neg : Bool)
  | fin (neg : Bool) (m : Nat) (e : Int)
deriving DecidableEq, Repr

def Fmt.bias (f : Fmt) : Nat := 2 ^ (f.eb - 1) - 1
/-- Exponent of the last place of a subnormal. -/
def Fmt.emin (f : Fmt) : Int := 1 - (f.bias : Int) - f.fb
def Fmt.infBits (f : Fmt) : Nat := (2 ^ f.eb - 1) * 2 ^ f.fb
def Fmt.signBit (f : Fmt) : Nat := 2 ^ (f.fb + f.eb)

def Fmt.unpack (f : Fmt) (x : Nat) : Val :=
  let fr := x % 2 ^ f.fb
  let ex := x / 2 ^ f.fb % 2 ^ f.eb
  let sg := x / f.signBit % 2 = 1
  if ex = 2 ^ f.eb - 1 then
    if fr = 0 then .inf sg else .nan (fr < 2 ^ (f.fb - 1))
  else if ex = 0 then .fin sg fr f.emin
  else .fin sg (fr + 2 ^ f.fb) (f.emin + (ex : Int) - 1)

/-- Round half to even at `k` low bits. -/
def roundShift (m k : Nat) : Nat :=
  let q := m / 2 ^ k
  let r := m % 2 ^ k
  if 2 * r > 2 ^ k ∨ (2 * r = 2 ^ k ∧ q % 2 = 1) then q + 1 else q

/-- (−1)^neg × m × 2^e rounded to the format, with the flags it sets; tininess is detected after rounding. -/
def Fmt.round (f : Fmt) (neg : Bool) (m : Nat) (e : Int) : Nat × Nat :=
  let sg := if neg then f.signBit else 0
  if m = 0 then (sg, 0)
  else
    let top : Int := (Nat.log2 m : Int) + e
    let q : Int := max (top - f.fb) f.emin
    let n := if q ≤ e then m * 2 ^ (e - q).toNat else roundShift m (q - e).toNat
    let inexact : Bool := e < q && m % 2 ^ (q - e).toNat ≠ 0
    let body := (q - f.emin).toNat * 2 ^ f.fb + n
    if f.infBits ≤ body then (sg + f.infBits, FO ||| FX)
    else
      let emn : Int := f.emin + f.fb
      let q' : Int := top - f.fb
      let n' := if q' ≤ e then m * 2 ^ (e - q').toNat else roundShift m (q' - e).toNat
      let tiny : Bool := top < emn && !(top = emn - 1 && 2 ^ (f.fb + 1) ≤ n')
      (sg + body, if inexact then (if tiny then FU ||| FX else FX) else 0)

/-- Whether a value is NaN, a signalling NaN. -/
def Val.isNan : Val → Bool
  | .nan _ => true | _ => false
def Val.isSnan : Val → Bool
  | .nan s => s | _ => false
def Val.isZero : Val → Bool
  | .fin _ 0 _ => true | _ => false
def Val.isInf : Val → Bool
  | .inf _ => true | _ => false
def Val.sign : Val → Bool
  | .nan _ => false | .inf s => s | .fin s _ _ => s
def Val.neg : Val → Val
  | .nan s => .nan s | .inf s => .inf !s | .fin s m e => .fin (!s) m e

/-- The NaN result, with FI. -/
def invalid : Nat × Nat := (qnan, FI)

def signed (neg : Bool) (m : Nat) : Int := if neg then -(m : Int) else m

/-- Exact sum of two finite values: sign, magnitude, exponent. A zero sum of different signs is +0. -/
def addExact (s1 : Bool) (m1 : Nat) (e1 : Int) (s2 : Bool) (m2 : Nat) (e2 : Int) : Bool × Nat × Int :=
  let e := min e1 e2
  let a := signed s1 (m1 * 2 ^ (e1 - e).toNat) + signed s2 (m2 * 2 ^ (e2 - e).toNat)
  (if a = 0 then s1 && s2 else a < 0, a.natAbs, e)

def Fmt.pack (f : Fmt) (v : Val) : Nat :=
  match v with
  | .nan _ => f.infBits + 2 ^ (f.fb - 1)
  | .inf s => (if s then f.signBit else 0) + f.infBits
  | .fin s m e => (f.round s m e).1

def addV (a b : Val) : Nat × Nat :=
  let fi := if a.isSnan || b.isSnan then FI else 0
  match a, b with
  | .nan _, _ => (qnan, fi)
  | _, .nan _ => (qnan, fi)
  | .inf s, .inf t => if s = t then (b64.pack (.inf s), 0) else invalid
  | .inf s, _ => (b64.pack (.inf s), 0)
  | _, .inf t => (b64.pack (.inf t), 0)
  | .fin s m e, .fin s' m' e' =>
    let x := addExact s m e s' m' e'
    b64.round x.1 x.2.1 x.2.2

def add (x y : Nat) : Nat × Nat := addV (b64.unpack x) (b64.unpack y)
def sub (x y : Nat) : Nat × Nat := addV (b64.unpack x) (b64.unpack y).neg

def mul (x y : Nat) : Nat × Nat :=
  let a := b64.unpack x; let b := b64.unpack y
  let fi := if a.isSnan || b.isSnan then FI else 0
  let s := a.sign != b.sign
  match a, b with
  | .nan _, _ => (qnan, fi)
  | _, .nan _ => (qnan, fi)
  | .inf _, v => if v.isZero then invalid else (b64.pack (.inf s), 0)
  | v, .inf _ => if v.isZero then invalid else (b64.pack (.inf s), 0)
  | .fin _ m e, .fin _ m' e' => b64.round s (m * m') (e + e')

/-- Quotient to more bits than the format keeps, with a sticky last bit. -/
def divExact (m m' : Nat) : Nat × Int :=
  let k := 130 + Nat.log2 m' - Nat.log2 m
  let q := m * 2 ^ k / m'
  (2 * q + (if m * 2 ^ k % m' = 0 then 0 else 1), -(k : Int) - 1)

def div (x y : Nat) : Nat × Nat :=
  let a := b64.unpack x; let b := b64.unpack y
  let fi := if a.isSnan || b.isSnan then FI else 0
  let s := a.sign != b.sign
  match a, b with
  | .nan _, _ => (qnan, fi)
  | _, .nan _ => (qnan, fi)
  | .inf _, .inf _ => invalid
  | .inf _, _ => (b64.pack (.inf s), 0)
  | _, .inf _ => (b64.pack (.fin s 0 0), 0)
  | .fin _ m e, .fin _ m' e' =>
    if m' = 0 then (if m = 0 then invalid else (b64.pack (.inf s), FZ))
    else if m = 0 then (b64.pack (.fin s 0 0), 0)
    else
      let d := divExact m m'
      b64.round s d.1 (e - e' + d.2)

/-- Integer square root by bits, from bit `k − 1` down. -/
def isqrtBits : Nat → Nat → Nat → Nat
  | 0, _, r => r
  | k + 1, n, r => if (r + 2 ^ k) * (r + 2 ^ k) ≤ n then isqrtBits k n (r + 2 ^ k) else isqrtBits k n r

def isqrt (n : Nat) : Nat := isqrtBits (Nat.log2 n / 2 + 1) n 0

def sqrt (x : Nat) : Nat × Nat :=
  match b64.unpack x with
  | .nan s => (qnan, if s then FI else 0)
  | .inf s => if s then invalid else (x, 0)
  | .fin s m e =>
    if m = 0 then (x, 0)
    else if s then invalid
    else
      let k : Nat := 140 + (if e % 2 = 0 then 0 else 1)
      let n := m * 2 ^ k
      let r := isqrt n
      b64.round false (2 * r + (if r * r = n then 0 else 1)) ((e - k) / 2 - 1)

/-- c + a × b with one rounding (`neg` subtracts the product). 0 times an infinity is invalid whatever the addend. -/
def fma (neg : Bool) (c x y : Nat) : Nat × Nat :=
  let a := b64.unpack x; let b := b64.unpack y; let d := b64.unpack c
  let bad := (a.isZero && b.isInf) || (a.isInf && b.isZero)
  let fi := if bad || a.isSnan || b.isSnan || d.isSnan then FI else 0
  let s := (a.sign != b.sign) != neg
  if bad || a.isNan || b.isNan || d.isNan then (qnan, fi)
  else if a.isInf || b.isInf then
    match d with
    | .inf t => if t = s then (b64.pack (.inf s), 0) else invalid
    | _ => (b64.pack (.inf s), 0)
  else match a, b, d with
    | _, _, .inf t => (b64.pack (.inf t), 0)
    | .fin _ m e, .fin _ m' e', .fin t n k =>
      let r := addExact t n k s (m * m') (e + e')
      b64.round r.1 r.2.1 r.2.2
    | _, _, _ => (qnan, 0)

/-- Order of two values that are not NaN: less, equal. −0 equals +0. -/
def ltV (a b : Val) : Bool :=
  match a, b with
  | .inf s, .inf t => s && !t
  | .inf s, _ => s
  | _, .inf t => !t
  | .fin s m e, .fin t n k =>
    let x := min e k
    decide (signed s (m * 2 ^ (e - x).toNat) < signed t (n * 2 ^ (k - x).toNat))
  | _, _ => false

def eqV (a b : Val) : Bool :=
  match a, b with
  | .inf s, .inf t => s == t
  | .fin s m e, .fin t n k =>
    let x := min e k
    decide (signed s (m * 2 ^ (e - x).toNat) = signed t (n * 2 ^ (k - x).toNat))
  | _, _ => false

/-- FMIN and FMAX (R102): `big` selects the larger. −0 counts as below +0. -/
def minmax (big : Bool) (x y : Nat) : Nat × Nat :=
  let a := b64.unpack x; let b := b64.unpack y
  let fi := if a.isSnan || b.isSnan then FI else 0
  if a.isNan && b.isNan then (qnan, fi)
  else if a.isNan then (y, fi)
  else if b.isNan then (x, fi)
  else
    let less := ltV a b || (eqV a b && a.sign && !b.sign)
    (if less != big then x else y, 0)

def abs (x : Nat) : Nat := x % 2 ^ 63
def neg (x : Nat) : Nat := if x < 2 ^ 63 then x + 2 ^ 63 else x - 2 ^ 63

/-- A result `r` of an operand `x`: the quiet NaN where `x` is a NaN (R102). -/
def quiet (x r : Nat) : Nat := if (b64.unpack x).isNan then qnan else r

/-- The FP comparisons of R103: unordered, equal, less; and the flags of the quiet and the signalling kinds. -/
structure Cmp where
  un : Bool
  eq : Bool
  lt : Bool
  snan : Bool

def cmp (x y : Nat) : Cmp :=
  let a := b64.unpack x; let b := b64.unpack y
  { un := a.isNan || b.isNan, eq := eqV a b, lt := ltV a b, snan := a.isSnan || b.isSnan }

/-- Integer to binary64. -/
def ofInt (i : Int) : Nat × Nat := b64.round (i < 0) i.natAbs 0

/-- The integer part toward zero, or to nearest even, of a finite value, and whether it is exact. -/
def toIntV (nearest : Bool) (s : Bool) (m : Nat) (e : Int) : Int × Bool :=
  if 0 ≤ e then (signed s (m * 2 ^ e.toNat), true)
  else
    let k := (-e).toNat
    let n := if nearest then roundShift m k else m / 2 ^ k
    (signed s n, m % 2 ^ k = 0)

/-- Convert to an integer in [lo, hi] (R104): NaN gives 0 and FI; beyond the range, the nearest limit and FI. -/
def toInt (nearest : Bool) (lo hi : Int) (x : Nat) : Int × Nat :=
  match b64.unpack x with
  | .nan _ => (0, FI)
  | .inf s => (if s then lo else hi, FI)
  | .fin s m e =>
    let r := toIntV nearest s m e
    if r.1 < lo then (lo, FI) else if hi < r.1 then (hi, FI) else (r.1, if r.2 then 0 else FX)

/-- binary32 widened exactly to binary64 (FLDI): a NaN becomes the quiet NaN, a signalling one setting FI. -/
def widen (x : Nat) : Nat × Nat :=
  match b32.unpack x with
  | .nan s => (qnan, if s then FI else 0)
  | .inf s => (b64.pack (.inf s), 0)
  | .fin s m e => b64.round s m e

/-- binary64 rounded to binary32. -/
def narrow (x : Nat) : Nat :=
  match b64.unpack x with
  | .nan _ => 0x7FC00000
  | v => b32.pack v

end Sys2Proof.Machine.Fp
end

