-- ==== Sys2Proof/Machine/Flags.lean ====
section
/-! DEFINITION. The flag computations of the Joraone integer and FP64 instructions (R100 to R104). -/

namespace Sys2Proof.Machine

/-- The result of an integer instruction: the value, C and V where it gives them (none: unchanged), and the sticky
flags it sets. -/
structure AluRes where
  val : BitVec 64
  c   : Option Bool
  v   : Option Bool
  sf  : BitVec 7 := 0

def sfIOV : BitVec 7 := 64
def sfIDZ : BitVec 7 := 32

/-- A result whose V also sets IOV (R101). -/
def aluV (val : BitVec 64) (c v : Bool) : AluRes := ⟨val, some c, some v, if v then sfIOV else 0⟩

/-- A result with C and V cleared. -/
def alu0 (val : BitVec 64) : AluRes := ⟨val, some false, some false, 0⟩

def aluAdd (a b : BitVec 64) : AluRes :=
  aluV (a + b) (2 ^ 64 ≤ a.toNat + b.toNat) ((a + b).toInt ≠ a.toInt + b.toInt)
def aluSub (a b : BitVec 64) : AluRes :=
  aluV (a - b) (a.toNat < b.toNat) ((a - b).toInt ≠ a.toInt - b.toInt)
def aluAnd (a b : BitVec 64) : AluRes := alu0 (a &&& b)
def aluOr (a b : BitVec 64) : AluRes := alu0 (a ||| b)
def aluXor (a b : BitVec 64) : AluRes := alu0 (a ^^^ b)

/-- Shift counts use the low 6 bits; C takes the last bit shifted out, 0 for a count of 0. -/
def shCount (b : BitVec 64) : Nat := b.toNat % 64
def aluShl (a b : BitVec 64) : AluRes :=
  let k := shCount b; ⟨a <<< k, some (0 < k && a.getLsbD (64 - k)), some false, 0⟩
def aluShr (a b : BitVec 64) : AluRes :=
  let k := shCount b; ⟨a >>> k, some (0 < k && a.getLsbD (k - 1)), some false, 0⟩
def aluSar (a b : BitVec 64) : AluRes :=
  let k := shCount b; ⟨a.sshiftRight k, some (0 < k && a.getLsbD (k - 1)), some false, 0⟩

def aluMul (a b : BitVec 64) : AluRes := aluV (a * b) false ((a * b).toInt ≠ a.toInt * b.toInt)
def aluMulhs (a b : BitVec 64) : AluRes := alu0 (BitVec.ofInt 64 (a.toInt * b.toInt / 2 ^ 64))
def aluMulhu (a b : BitVec 64) : AluRes := alu0 (BitVec.ofNat 64 (a.toNat * b.toNat / 2 ^ 64))

/-- Division by zero: quotient 0, remainder WA, V and IDZ (R101). -/
def aluDz (r : BitVec 64) : AluRes := ⟨r, some false, some true, sfIDZ⟩
def minInt : BitVec 64 := 0x8000000000000000#64
def aluDivs (a b : BitVec 64) : AluRes :=
  if b = 0 then aluDz 0
  else if a = minInt ∧ b = -1 then aluV minInt false true
  else alu0 (BitVec.ofInt 64 (a.toInt.tdiv b.toInt))
def aluDivu (a b : BitVec 64) : AluRes := if b = 0 then aluDz 0 else alu0 (BitVec.ofNat 64 (a.toNat / b.toNat))
def aluRems (a b : BitVec 64) : AluRes :=
  if b = 0 then aluDz a
  else if a = minInt ∧ b = -1 then aluV 0 false true
  else alu0 (BitVec.ofInt 64 (a.toInt.tmod b.toInt))
def aluRemu (a b : BitVec 64) : AluRes := if b = 0 then aluDz a else alu0 (BitVec.ofNat 64 (a.toNat % b.toNat))

def aluMin (a b : BitVec 64) : AluRes := ⟨if a.toInt ≤ b.toInt then a else b, none, none, 0⟩
def aluMax (a b : BitVec 64) : AluRes := ⟨if b.toInt ≤ a.toInt then a else b, none, none, 0⟩
def aluMinu (a b : BitVec 64) : AluRes := ⟨if a.toNat ≤ b.toNat then a else b, none, none, 0⟩
def aluMaxu (a b : BitVec 64) : AluRes := ⟨if b.toNat ≤ a.toNat then a else b, none, none, 0⟩

/-- An exact signed result saturated to 64 bits. -/
def aluSat (i : Int) : AluRes :=
  if i < -(2 ^ 63) then aluV minInt false true
  else if 2 ^ 63 ≤ i then aluV (BitVec.ofInt 64 (2 ^ 63 - 1)) false true
  else aluV (BitVec.ofInt 64 i) false false
def aluAddsat (a b : BitVec 64) : AluRes := aluSat (a.toInt + b.toInt)
def aluSubsat (a b : BitVec 64) : AluRes := aluSat (a.toInt - b.toInt)
def aluAbs (a _ : BitVec 64) : AluRes := aluV (BitVec.ofInt 64 a.toInt.natAbs) false (a = minInt)
def aluNeg (a _ : BitVec 64) : AluRes := aluV (-a) false (a = minInt)

/-- Write an integer result: WD, Z and N from it, C and V as it gives them, sticky flags (R100, R101). -/
def Core.alu (k : Core) (wd : Fin 16) (r : AluRes) : Core :=
  { k with w := k.w.set wd r.val, z := r.val == 0, n := r.val.msb, c := r.c.getD k.c, v := r.v.getD k.v,
           sf := k.sf ||| r.sf }

/-- Write an FP64 result and set its sticky flags; Z, N, C and V stay (R102). -/
def Core.fp (k : Core) (wd : Fin 16) (r : Nat × Nat) : Core :=
  { k with w := k.w.set wd (BitVec.ofNat 64 r.1), sf := k.sf ||| BitVec.ofNat 7 r.2 }

/-- Put a condition into BA by M (R103): 0 replace, 1 and, 2 or, 3 exclusive or. -/
def combine (m : Nat) (ba c : Bool) : Bool :=
  if m = 0 then c else if m = 1 then ba && c else if m = 2 then ba || c else ba != c

end Sys2Proof.Machine
end

