-- ==== Sys2Proof/Machine/Operands.lean ====
section
/-! DEFINITION. The operand forms of the Joraone instructions (R89, R93, R96, R99, R106, R112), the core's own
SRAMs with a standby's overlay and the copy's dirty lines (R411, R415), instruction retirement, and the ONE operation
that takes a synchronous exception (R127 to R129, R131, R133). Readings and choices: DEDUCED log 29. -/

namespace Sys2Proof.Machine

/-- A synchronous exception to be raised: its cause (R127) and the data address it names, if any. -/
structure Exc where
  cause : Nat
  addr  : Option (BitVec 40) := none
deriving DecidableEq, Repr

def xILLEGAL : Nat := 0
def xIFETCH : Nat := 1
def xDALIGN : Nat := 2
def xDBUS : Nat := 3
def xNEST_OVF : Nat := 4
def xNEST_UNF : Nat := 5
def xNEST_OPEN : Nat := 6
def xINSTANCE : Nat := 7
def xFP_TRAP : Nat := 8
def xINT_TRAP : Nat := 9
def xTRAP : Nat := 10
def xBREAK : Nat := 11
def xECC : Nat := 12

/-- Where an address of the core's view leads (R89). -/
inductive View where
  | data (off : Nat)
  | image (off : Nat)
  | instr (off : Nat)
  | dev (a : Nat)
deriving DecidableEq, Repr

def viewOf (a : Nat) : View :=
  if 0x20000000 ≤ a ∧ a ≤ 0x2000FFFF then .data (a - 0x20000000)
  else if 0x20100000 ≤ a ∧ a ≤ 0x201FFFFF then .image (a - 0x20100000)
  else if 0x20200000 ≤ a ∧ a ≤ 0x2021FFFF then .instr (a - 0x20200000)
  else .dev a

/-- Sign extension of a field to the core's 40-bit addresses and to 64 bits. -/
def sx40 {n : Nat} (x : BitVec n) : BitVec 40 := x.signExtend 40
def sx64 {n : Nat} (x : BitVec n) : BitVec 64 := x.signExtend 64

/-- The byte and bit a bit operand names (R96): the view of the byte, and the bit number; DBUS elsewhere. -/
def bitTarget (k : Core) : BitRef → Except Exc (View × Nat)
  | .data b =>
    if b.toNat / 8 ≤ 65535 then .ok (.data (b.toNat / 8), b.toNat % 8)
    else .error ⟨xDBUS, some (BitVec.ofNat 40 (0x20000000 + b.toNat / 8))⟩
  | .image b => .ok (.image (b.toNat / 8), b.toNat % 8)
  | .ptr p d =>
    let a := ((k.p.get p).toNat * 8 + (d.signExtend 43).toNat) % 2 ^ 43
    match viewOf (a / 8) with
    | .data o => .ok (.data o, a % 8)
    | .image o => .ok (.image o, a % 8)
    | _ => .error ⟨xDBUS, some (BitVec.ofNat 40 (a / 8))⟩

/-- The address of a word operand of `n` bytes (R99): absolute offsets are scaled by the access size and must lie in
the SRAM; the pointer form is P + DISP and must be a multiple of the size. -/
def wordTarget (k : Core) (n : Nat) : WordRef → Except Exc View
  | .data o =>
    if o.toNat * n + n ≤ 0x10000 then .ok (.data (o.toNat * n))
    else .error ⟨xDBUS, some (BitVec.ofNat 40 (0x20000000 + o.toNat * n))⟩
  | .image o =>
    if o.toNat * n + n ≤ 0x100000 then .ok (.image (o.toNat * n))
    else .error ⟨xDBUS, some (BitVec.ofNat 40 (0x20100000 + o.toNat * n))⟩
  | .ptr p d =>
    let a := (k.p.get p + sx40 d).toNat
    if a % n ≠ 0 then .error ⟨xDALIGN, some (BitVec.ofNat 40 a)⟩ else .ok (viewOf a)

/-- The data SRAM offset of an instance operand of `n` bytes (R112, R113): 8-byte aligned and wholly in data SRAM;
INSTANCE otherwise. -/
def instTarget (k : Core) (n : Nat) (r : InstRef) : Except Exc Nat :=
  let a : Nat := match r with
    | .abs o => 0x20000000 + o.toNat
    | .ptr p d => (k.p.get p + sx40 d).toNat
  if 0x20000000 ≤ a ∧ a + n ≤ 0x20010000 ∧ a % 8 = 0 then .ok (a - 0x20000000)
  else .error ⟨xINSTANCE, some (BitVec.ofNat 40 a)⟩

/-- A branch target: address + 4 × DISP, IFETCH outside instruction SRAM (R106). -/
def jumpTarget {n : Nat} (pc : BitVec 17) (disp : BitVec n) : Except Exc (BitVec 17) :=
  let t : Int := pc.toNat + 4 * disp.toInt
  if 0 ≤ t ∧ t ≤ 0x1FFFC then .ok (BitVec.ofInt 17 t) else .error ⟨xIFETCH, none⟩

/-! ## The cores' own SRAMs -/

/-- The quay of a core, and the key of a byte of its data or image SRAM. -/
def localKey (c : Nat) : View → Option Nat
  | .data o => some (dataKey c o)
  | .image o => some (imageKey (c / 4) o)
  | _ => none

/-- The key of a byte of the core's three SRAMs, and the address of a place in the core's view (R89). -/
def viewKey (c : Nat) : View → Option Nat
  | .instr o => some (instrKey c o)
  | v => localKey c v
def View.addr : View → Nat
  | .data o => 0x20000000 + o
  | .image o => 0x20100000 + o
  | .instr o => 0x20200000 + o
  | .dev a => a

/-! ## ECC of the cores' SRAMs (R127, R129): words of 64 bits, DESIGN CHOICE log 52 -/

/-- Whether an access of `n` bytes of the core's view meets an uncorrectable error of its SRAMs. -/
def State.viewBad (s : State) (c n : Nat) (v : View) : Bool :=
  match viewKey c v with
  | some k => s.eccUncorr k n
  | none => false

/-- Errors that an access of core `c` finds and corrects, counted in BRN_CORE_ECC for the SRAM that holds the key (R129). -/
def State.coreSeen (s : State) (c key n : Nat) : State :=
  if s.eccOne.isEmpty then s
  else
    let f := if key < Space.data.base then BRN_CORE_ECC_IMAGE
      else if key < Space.instr.base then BRN_CORE_ECC_DATA else BRN_CORE_ECC_INSTR
    (s.addSat f (dCore c) (s.eccCorr key n)).eccFix key n

/-- The same of a place of the core's view. -/
def State.viewSeen (s : State) (c n : Nat) (v : View) : State :=
  match viewKey c v with
  | some k => s.coreSeen c k n
  | none => s

/-- An uncorrectable error found by core `c` (R129): UNCORR, and the quay's ECC_UNCORR; DETAIL holds the core. -/
def State.eccNoted (s : State) (c addr kind : Nat) : State :=
  (s.hw BRN_CORE_ECC_UNCORR (dCore c) 1).raise (.brn (c / 4)) BRN_ECC_UNCORR (some ⟨addr, c, kind⟩) c

/-- Whether stores are kept in the shadow overlay (R415). -/
def State.shadow (s : State) : Bool := s.mode = STANDBY

/-- Read a byte of a quay's SRAMs: the overlay over the SRAM (R415). -/
def State.lrb (s : State) (q key : Nat) : Byte :=
  match AMap.find (s.quay q).overlay key with
  | some b => b
  | none => s.rb key

def State.lrbs (s : State) (q : Nat) : Nat → Nat → List Byte
  | _, 0 => []
  | a, n + 1 => s.lrb q a :: s.lrbs q (a + 1) n

/-- A stream's state, and the address word of the copy line that holds a byte (R408): region 0 image SRAM, 1 to 4 data
SRAM of core 0 to 3. -/
def State.stream (s : State) (i : Nat) : StreamSt := AMap.get {} s.pair.streams i
def State.setStream (s : State) (i : Nat) (x : StreamSt) : State :=
  { s with pair := { s.pair with streams := AMap.set {} s.pair.streams i x } }
def lineOf (c : Nat) : View → Nat
  | .data o => (1 + c % 4) * 2 ^ 60 + o / 64 * 64
  | .image o => o / 64 * 64
  | _ => 0

/-- Mark a line dirty for its quay's stream (R411). -/
def State.markDirty (s : State) (q line : Nat) : State :=
  if s.on PAIR_CTRL_ENABLE then
    let x := s.stream q
    if x.dirty.contains line then s else s.setStream q { x with dirty := x.dirty ++ [line] }
  else s

/-- A store of bytes that a quay core or Graver makes to a quay's SRAMs: into the overlay of a standby, else into
the SRAM, marking the line dirty (R411, R415). -/
def State.lwbs (s : State) (q line key : Nat) (bs : List Byte) : State :=
  if s.shadow then
    let k := s.quay q
    s.setQuay q { k with overlay := (bs.zipIdx).foldl (fun m p => AMap.ins m (key + p.2) p.1) k.overlay }
  else ((s.wbs key bs).eccWritten key bs.length).markDirty q line

/-- Whether a store of `n` bytes finds the shadow overlay full (R415): 64 KB of bytes. -/
def State.overlayFull (s : State) (q n : Nat) : Bool :=
  s.shadow && 65536 < (s.quay q).overlay.length + n

/-- A shadow scan that finds its overlay full halts until the next take-up, and is counted (R415). -/
def State.shadowHalt (s : State) (q : Nat) : State :=
  (s.setQuay q { s.quay q with halted := true }).incSat PAIR_STATUS_SHADOW_FULL 0

/-! ## Exceptions -/

/-- The status word of a frame (R133). -/
def Core.status (k : Core) : Nat :=
  bit k.ie * 2 ^ 31 + k.rl * 2 ^ 26 + k.nest * 2 ^ 21 + bit k.ba * 2 ^ 20 + bit k.z * 2 ^ 19 + bit k.n * 2 ^ 18 +
    bit k.c * 2 ^ 17 + bit k.v * 2 ^ 16 + bit k.rsm * 2 ^ 15

/-- Take the flags of a frame's status word back. -/
def Core.setStatus (k : Core) (x : Nat) : Core :=
  { k with ie := x.testBit 31, rl := bits x 26 5, nest := bits x 21 5, ba := x.testBit 20, z := x.testBit 19,
           n := x.testBit 18, c := x.testBit 17, v := x.testBit 16, rsm := x.testBit 15 }

/-- Whether pushing `n` bytes would bring SP below SLIMIT (R108). -/
def Core.noRoom (k : Core) (n : Nat) : Bool := k.sp.toNat < k.slimit.toNat + n

/-- Halt a core with a cause, raising the quay's CORE_HALT fault (R129); DETAIL holds the core. -/
def State.haltCore (s : State) (c cause : Nat) : State :=
  (s.setCore c { s.core c with run := .halted, haltCause := cause, stepping := false }).raise (.brn (c / 4))
    BRN_CORE_HALT none c

/-- Write a frame of return address, status, RECV_LEFT and vector at SP − 16, and lower SP (R131, R133). -/
def State.pushFrame (s : State) (c : Nat) (ret : BitVec 17) (vector : Nat) : State :=
  let k := s.core c
  let a := k.sp.toNat - 16
  let bs := leBytes 4 ret.toNat ++ leBytes 4 k.status ++ leBytes 4 k.recvLeft.toNat ++ leBytes 4 vector
  let s := s.lwbs (c / 4) (lineOf c (.data a)) (dataKey c a) bs
  s.setCore c { k with sp := BitVec.ofNat 16 a }

/-- Enter a handler: level, vector address, RSM and RECV_LEFT cleared (R131). -/
def Core.enter (k : Core) (level vector : Nat) : Core :=
  { k with hstk := (vector, k.rl) :: k.hstk, rl := level, rsm := false, recvLeft := 0, run := .running,
           recvFrom := none, pc := k.vbase + BitVec.ofNat 17 (16 * vector) }

/-- TAKING A SYNCHRONOUS EXCEPTION (R127, R129, R131, R133): XCAUSE, XPC and XADDR take the cause; at RL 17, or where
the frame cannot be pushed, the core halts; otherwise the frame is written, RL becomes 17 and the handler at vector
0x200 + cause runs next. `xpc` is the faulting or the next instruction, as R127 gives. -/
def State.takeExc (s : State) (c : Nat) (e : Exc) (xpc : BitVec 17) (code : Nat := 0) (imprecise : Bool := false) :
    State :=
  let k := s.core c
  let k := { k with ximp := imprecise, xcode := BitVec.ofNat 8 code, xcause := BitVec.ofNat 5 e.cause, xpc := xpc,
                    xaddr := e.addr.getD k.xaddr, xcount := satAdd 11 k.xcount 1, entering := none }
  let s := s.setCore c k
  if k.rl = 17 then s.haltCore c 1
  else if k.noRoom 16 then s.haltCore c 2
  else
    let s := s.pushFrame c xpc (0x200 + e.cause)
    s.setCore c ((s.core c).enter 17 (0x200 + e.cause))

/-! ## Retirement -/

/-- Errors that the fetch of the instruction at the PC found and corrected (R129). -/
def State.fetchSeen (s : State) (c : Nat) : State := s.coreSeen c (instrKey c (s.core c).pc.toNat) 4

/-- An instruction completes: the core as the instruction leaves it, with the next PC, counts it; sticky flags it
raised whose TE bit is 1 trap after it (R125). Where one MTS sets FP and integer flags, both enabled, FP_TRAP alone is raised:
the spec does not say which, DESIGN CHOICE log 53. -/
def State.retire (s : State) (c : Nat) (k : Core) (next : BitVec 17) (cyc : Nat) (raised : BitVec 7 := 0) : State :=
  let s := s.fetchSeen c
  let k := { k with pc := next, instret := k.instret + 1, cyc := k.cyc + cyc, entering := none }
  let s := s.setCore c k
  let hit := raised &&& k.te
  let s := if hit &&& 31 ≠ 0 then s.takeExc c ⟨xFP_TRAP, none⟩ next
    else if hit ≠ 0 then s.takeExc c ⟨xINT_TRAP, none⟩ next
    else s
  s.setCore c (s.core c).boundary

/-- Whether a core issues instructions now: running, or halted and stepped (R136), out of a shadow halt. -/
def State.issues (s : State) (c : Nat) : Bool :=
  ((s.core c).run = .running || ((s.core c).run = .halted && (s.core c).stepping)) && !(s.quay (c / 4)).halted

/-- Whether the word at a core's PC can be fetched: no uncorrectable error stands in it (R127). -/
def State.fetches (s : State) (c : Nat) : Bool := !s.eccUncorr (instrKey c (s.core c).pc.toNat) 4

/-- Whether a core executes an instruction now. -/
def State.executes (s : State) (c : Nat) : Bool := s.issues c && s.fetches c

/-- Raise an at-fault exception: the instruction writes nothing (R127). ECC is a fault of the quay as well (R129). -/
def State.fail (s : State) (c : Nat) (e : Exc) : State :=
  let s := s.fetchSeen c
  let s := if e.cause = xECC then s.eccNoted c (e.addr.getD 0).toNat 1 else s
  let s := s.takeExc c e (s.core c).pc
  s.setCore c (s.core c).boundary

/-- What becomes of an instruction that a core does not execute: a fetch that fails raises ECC (R127); else nothing. -/
def State.unissued (s : State) (c : Nat) : State :=
  if s.issues c then
    let a := 0x20200000 + (s.core c).pc.toNat
    let s := (s.eccNoted c a 3).takeExc c ⟨xECC, some (BitVec.ofNat 40 a)⟩ (s.core c).pc
    s.setCore c (s.core c).boundary
  else s

/-- An access of `n` bytes of a core's view that meets an uncorrectable error raises ECC at fault (R127); else `f` goes on, the
errors of single bits corrected. -/
def State.checked (s : State) (c n : Nat) (v : View) (f : State → State) : State :=
  if s.viewBad c n v then s.fail c ⟨xECC, some (BitVec.ofNat 40 v.addr)⟩ else f (s.viewSeen c n v)

/-- The frame of every register-only instruction: executed only by a core that executes; one word long. -/
def State.simple (s : State) (c : Nat) (cyc : Nat) (f : Core → Except Exc (Core × BitVec 7)) : State :=
  if s.executes c then
    match f (s.core c) with
    | .ok r => s.retire c r.1 ((s.core c).pc + 4) cyc r.2
    | .error e => s.fail c e
  else s.unissued c

end Sys2Proof.Machine
end

