-- ==== Sys2Proof/Machine/Cargo.lean ====
section
/-! DEFINITION. Cargo stations: presenting an image, substitutes, dropouts, frames out and in (R152, R156 to R161).
Readings and choices: DEDUCED log 30. -/

namespace Sys2Proof.Machine

def dErrCls (q k : Nat) : Nat := 0x10000 * q + 0x20 * k

/-- Queue an activation for a quay's error task (R141). -/
def State.activate (s : State) (q cls station miss stamp : Nat) : State :=
  if s.on BRN_ERR_CFG_ON (dErrCls q cls) then
    let k := s.quay q
    let l := k.actsOf cls
    if l.length < 64 then
      let t := k.task (16 + cls)
      let relAt := if t.pend then t.relAt else s.tide
      let k := (k.setActs cls (l ++ [⟨station, cls, miss, stamp, s.tide⟩])).setTask (16 + cls)
        { t with pend := true, relAt := relAt }
      (s.setQuay q k).p BRN_ERR_STATS_QUEUED (dErrCls q cls) (l.length + 1)
    else s.incSat BRN_ERR_STATS_LOST (dErrCls q cls)
  else s

/-- Set or clear a station's bit in NET_CARGO_DROPPED. -/
def State.droppedBit (s : State) (n : Nat) (b : Bool) : State :=
  s.setBit NET_CARGO_DROPPED_DROPPED (4 * (n / 32)) (n % 32) b

/-- A station's status word (R158). -/
def Station.word (x : Station) : Nat :=
  x.drops * 65536 + x.txRef * 256 + x.miss * 16 + bit x.fresh * 4 + x.state

/-- Where the status word of a station lies in its quay's image SRAM (R158), the array's base in units of 8 KB. -/
def statusKey (q base n : Nat) : Nat := imageKey q (base * 8192 + 4 * n)

/-- Write the status word of a station in its quay's array. -/
def State.writeStatus (s : State) (q base n : Nat) : State :=
  let w := match s.station n with | some x => if entQuay x.entry = q then x.word else 3 | none => 3
  s.wle (statusKey q base n) 4 w

/-- Write a quay's whole status array (R158). -/
def State.writeStatusArray (s : State) (q : Nat) : State :=
  (List.range 2048).foldl (fun s n => s.writeStatus q (s.g BRN_QUAY_IMAGE_STATUS_BASE (dQuay q)) n) s

/-- The substitute of input byte `i` (R153, R157). -/
def State.substitute (s : State) (n : Nat) (x : Station) (i : Nat) : Byte :=
  let mode := bits (s.stationByte n (64 + i / 4)).toNat (2 * (i % 4)) 2
  let subst := s.stationByte n (128 + i)
  if mode = 0 then (match x.shown with | some l => l.getD i subst | none => subst)
  else if mode = 2 then subst
  else 0

/-- A miss of a LIVE or DROPPED station (R157): its new state, and whether it drops out now. -/
def Station.miss1 (x : Station) : Bool × Station :=
  let x := { x with fresh := false }
  if x.state = 1 then
    let m := x.miss + 1
    if entMissLimit x.entry ≤ m then
      (true, { x with miss := min m 15, state := 2, drops := satAdd 16 x.drops 1 })
    else (false, { x with miss := m })
  else if x.state = 2 then (false, { x with miss := min (x.miss + 1) 15 })
  else (false, x)

/-- The frame that a copy-in pins (R156): the latest registered before the present fabric cycle and not yet presented; and the
station after, in which a frame of the present cycle waits on. -/
def Station.pin (x : Station) (fab : Nat) : Option (List Byte) × Station :=
  if x.freshNow && x.rxAt < fab then (some x.latest, { x with freshNow := false, prior := none })
  else (x.prior, { x with prior := none })

/-- Present a station at its owning task's copy-in (R156, R157), with the table entry and the status array's base of the scan,
and write its status word. -/
def State.present (s : State) (n : Nat) (e : List Byte) (base stamp : Nat) : State :=
  match s.stationOf n e with
  | none => s
  | some x =>
    let q := entQuay e
    let area := imageKey q (entInOff e)
    let pin := x.pin s.fab
    let x := pin.2
    let s :=
      match pin.1 with
      | some img =>
        let y := { x with fresh := true, miss := 0, state := 1, shown := some img }
        ((s.setStation n (some y)).wbs area img).droppedBit n false
      | none =>
        let y := x.miss1
        let s := s.setStation n (some y.2)
        let s := if y.1 then (s.droppedBit n true).activate q (entClass e) n y.2.miss stamp else s
        if y.2.state = 1 then s
        else s.wbs area ((List.range (entInLen e)).map fun i => s.substitute n y.2 i)
    s.writeStatus q base n

/-- The Cargo header (R159). -/
def cargoHeader (type flags station seq len stamp sysid : Nat) : List Byte :=
  [BitVec.ofNat 8 (0x10 + type), BitVec.ofNat 8 flags] ++ beBytes 2 station ++ beBytes 2 seq ++ beBytes 2 len ++
    beBytes 8 stamp ++ beBytes 4 sysid

/-- How a station's frames travel (R159, R308). -/
def State.cargoCarrier (s : State) (e : List Byte) : Carrier :=
  ⟨entTransport e, entMac e, if entVlan e then some (entTci e) else none, entIp e, s.g NET_CARGO_UDP_PORT, entUdp e⟩

/-- The payload of a DATA_OUT frame (R160): the output area, uncommissioned bytes replaced while the quay is in COMMISSION
or FACTORY (R46). -/
def State.outPayload (s : State) (n : Nat) (e : List Byte) (mode : Nat) : List Byte :=
  let area := s.lrbs (entQuay e) (imageKey (entQuay e) (entOutOff e)) (entOutLen e)
  if mode = COMMISSION ∨ mode = FACTORY then
    area.zipIdx.map fun x => if (s.stationByte n (640 + x.2 / 8)).getLsbD (x.2 % 8) then x.1 else s.stationByte n (384 + x.2)
  else area

/-- SEQ of a station's next frame (R160). -/
def Station.nextSeq (x : Station) : Nat := if x.txFirst then 0 else (x.txSeq + 1) % 65536

/-- Build a station's DATA_OUT frame, with the table entry of the scan, and, in RUN and COMMISSION, offer it on its path
(R30, R152, R160). -/
def State.cargoOut (s : State) (n : Nat) (e : List Byte) (mode stamp : Nat) : State :=
  match s.stationOf n e with
  | none => s
  | some x =>
    let data := s.outPayload n e mode
    let flags := bit (mode = RUN) * 128 + bit (mode = COMMISSION ∨ mode = FACTORY) * 64
    let msg := cargoHeader 0 flags n x.nextSeq data.length stamp (s.g NET_CARGO_SYSID_SYSTEM_ID) ++ data
    let s := s.setStation n (some { x with txBuf := msg })
    if mode = RUN ∨ mode = COMMISSION then
      let p := entPath e
      let size := frameOctets (entTransport e) msg.length (entVlan e)
      if s.offerCode p size true = 0 then
        let a := s.acceptItem p
        let port := s.pathTarget p
        let f := a.2.buildFrame port (s.cargoCarrier e) 0x88B5 msg
        (f.2.queueFrame port ⟨s.pathPrio p, .octets f.1, some a.1, size⟩).setStation n
          (some { x with txBuf := msg, txSeq := x.nextSeq, txFirst := false })
      else
        (s.rejectItem p).setStation n (some { x with txBuf := msg, txRef := satAdd 8 x.txRef 1 })
    else s

/-- The station that a source on a port names (R161): by MAC, or by IP address and UDP port. -/
def State.cargoCandidate (s : State) (port transport : Nat) (mac ip : List Byte) (udp : Nat) : Option (Nat × Station) :=
  let hit : Nat × Option Station → Option (Nat × Station) := fun x =>
    match x.2 with
    | some y =>
      let e := y.entry
      let who := if transport = 0 then decide (entMac e = mac)
        else if transport = 1 then decide ((entIp e).take 4 = ip) && entUdp e == udp
        else decide (entIp e = ip) && entUdp e == udp
      if entTransport e = transport && (entRxMask e).testBit port && who then some (x.1, y) else none
    | none => none
  s.stations.findSome? hit

def cargoErr (s : State) (k : Nat) : State := s.inc NET_CARGO_ERR_COUNT (4 * k)

/-- Match and check a received Cargo message (R156, R161): transport, source, the octets from the Cargo header on. One that ends
before its header does counts in FORMAT, one that ends before its payload in LENGTH: R161 does not name messages cut short,
DESIGN CHOICE log 53. -/
def State.cargoIn (s : State) (port transport : Nat) (mac ip : List Byte) (udp : Nat) (msg : List Byte) : State :=
  if s.on NET_CARGO_CTRL_ENABLE then
    match s.cargoCandidate port transport mac ip udp with
    | none => cargoErr s 0
    | some (n, x) =>
      let f := fun o k => beNat ((msg.drop o).take k)
      let len := f 6 2
      if msg.length < 20 ∨ f 0 1 ≠ 0x11 ∨ f 2 2 ≠ n then cargoErr s 1
      else if len ≠ entInLen x.entry ∨ msg.length < 20 + len then cargoErr s 2
      else if f 16 4 ≠ s.g NET_CARGO_SYSID_SYSTEM_ID then cargoErr s 3
      else
        let age := (f 4 2 + 65536 - x.rxSeq) % 65536
        if x.state = 1 ∧ ¬ (1 ≤ age ∧ age ≤ 32767) then cargoErr s 4
        else
          let waits := if x.freshNow && x.rxAt < s.fab then some x.latest else x.prior
          s.setStation n (some { x with rxSeq := f 4 2, latest := (msg.drop 20).take len, rxAt := s.fab, prior := waits
                                        freshNow := true })
  else s

/-- CARGO_DATA_IN (R161): a complete frame whose FCS and checksum hold, by its port, transport, source and message. -/
def execCargoDataIn (port : Fin 4) (transport : Fin 3) (mac : BitVec 48) (ip : BitVec 128) (udp : BitVec 16)
    (msg : List Byte) (s : State) : Out' :=
  .next (s.cargoIn port transport (beBytes 6 mac.toNat)
    (if transport.val = 1 then beBytes 4 (ip.toNat % 2 ^ 32) else beBytes 16 ip.toNat) udp.toNat msg)

end Sys2Proof.Machine
end

