-- ==== Sys2Proof/Machine/JoraBerths.lean ====
section
/-! DEFINITION. Joraone Berths instructions and the end of a RECV's wait (R120 to R122). -/

namespace Sys2Proof.Machine

/-- SEND (R120): posts W[31:0] to a participant; BA tells whether it was posted. It never waits. -/
def execJSend (c : Fin 24) (w : Fin 16) (peer : Fin 32) (s : State) : Out' :=
  .next (if s.executes c then
    let x := s.post c peer (((s.core c).w.get w).toNat % 2 ^ 32)
    let k := x.2.core c
    x.2.retire c { k with ba := x.1 } (k.pc + 4) 18
  else s.unissued c)

/-- The word a receive would take: from a peer, or the first full channel in round order (R121). -/
def State.recvSource (s : State) (c : Nat) (peer : Option Nat) : Option Nat :=
  match peer with
  | some p => if (s.chan p c).isSome then some p else none
  | none => s.firstFull c (s.core c).anyPos

/-- A receive of one or two words (R121, R122): the word present is taken; else a timeout of 0 tests once, and any other
waits, with the saved remaining timeout where RSM stands. -/
def State.recvOp (s : State) (c : Nat) (peer : Option Nat) (dst : Fin 16) (timeout : Nat) (len : BitVec 17) : State :=
  if s.executes c then
    let s := s.dropBad c (match peer with | some p => [p] | none => roundFrom (s.core c).anyPos)
    let k := s.core c
    match s.recvSource c peer with
    | some a =>
      let x := s.take a c
      let k := x.2.core c
      let v := match x.1 with | some y => y.pack | none => 0
      let pos := if peer.isNone then (a + 1) % 32 else k.anyPos
      x.2.retire c { k with w := k.w.set dst (BitVec.ofNat 64 v), ba := true, anyPos := pos, rsm := false,
                            recvLeft := 0 } (k.pc + len) 18
    | none =>
      let t := if k.rsm then k.recvLeft.toNat else timeout % 2 ^ 32
      if t = 0 then s.retire c { k with ba := false, rsm := false, recvLeft := 0 } (k.pc + len) 18
      else (s.fetchSeen c).setCore c { k with run := .recv, recvFrom := peer, recvDst := dst, recvAt := s.fab,
                                              recvNext := k.pc + len, recvLeft := BitVec.ofNat 32 t, rsm := false,
                                              entering := none }
  else s.unissued c

/-- RECV (R121). -/
def execJRecv (c : Fin 24) (w wb : Fin 16) (peer : Fin 32) (s : State) : Out' :=
  .next (s.recvOp c (some peer) w (((s.core c).w.get wb).toNat) 4)

/-- RECVANY (R121). -/
def execJRecvany (c : Fin 24) (w wb : Fin 16) (s : State) : Out' :=
  .next (s.recvOp c none w (((s.core c).w.get wb).toNat) 4)

/-- RECVI (R109): as RECV with an immediate timeout; two words long, the second fetched after the first. -/
def execJRecvi (c : Fin 24) (wd : Fin 16) (peer : Fin 32) (imm : BitVec 32) (s : State) : Out' :=
  .next (if s.executes c then
    s.checked c 4 (.instr ((s.core c).pc + 4).toNat) fun s => s.recvOp c (some peer) wd imm.toNat 8
  else s.unissued c)

/-- POLL (R120). -/
def execJPoll (c : Fin 24) (peer : Fin 32) (s : State) : Out' :=
  .next (s.simple c 18 fun k => .ok ({ k with ba := (s.chan peer c).isSome }, 0))

/-- POLLANY (R120). -/
def execJPollany (c : Fin 24) (s : State) : Out' :=
  .next (s.simple c 18 fun k => .ok ({ k with ba := s.anyFull c }, 0))

/-- What is left of a waiting RECV's timeout, in core cycles. -/
def State.recvRemains (s : State) (c : Nat) : Nat :=
  (s.core c).recvLeft.toNat - 2 * (s.fab - (s.core c).recvAt)

/-- RECV_TIMEOUT (R121): the wait ends, the destination stays, BA is 0. -/
def execRecvTimeout (c : Fin 24) (s : State) : Out' :=
  .next (if (s.core c).run = .recv ∧ s.recvRemains c = 0 then
    let k := s.core c
    s.retire c { k with run := .running, recvFrom := none, ba := false, recvLeft := 0 } k.recvNext 0
  else s)

end Sys2Proof.Machine
end

