-- ==== Sys2Proof/Machine/MastRows.lean ====
section
/-! DEFINITION. Berths and Mast commands: the registers of participants 24 and 25, sources, offers, grants, the entry of
a delivery (R130 to R134, R369 to R392). Readings and choices: DEDUCED log 28, 39. -/

namespace Sys2Proof.Machine

/-! ## Berths registers (R373) -/

/-- BTH_TX_POST (R373). -/
def execBthTxPost (agent : Bool) (s : State) : Out' := .next (s.query fun s => s.bthPost (24 + bit agent))

/-- BTH_RX_TAKE (R373). -/
def execBthRxTake (agent : Bool) (s : State) : Out' := .next (s.query fun s => s.bthTake (24 + bit agent))

/-- BTH_RX_ANY (R373). -/
def execBthRxAny (agent : Bool) (s : State) : Out' := .next (s.query fun s => s.bthAny (24 + bit agent))

/-- A woken domain is powered up: it is no longer gated; a quay's cores are in reset, and Drafting takes the words that
waited for it (R374, R379, R488). -/
def State.wakeDone (s : State) (d : Nat) : State :=
  let s := { s with waking := s.waking.filter (· != d) }
  let s := (s.setBit PWR_GATE_STATUS_GATED 0 d false).clearGateBit d
  let s := s.railFree (if d = 6 then 1 else 0)
  if d = 6 then
    (List.range 32).foldl (fun s a =>
      match s.chan a 28 with
      | some x => (s.setChan a 28 none).serviceWord a 28 x.word
      | none => s) s
  else s

/-- DOMAIN_WAKE_DONE (R379). A domain that no wake has begun for stays as it is. -/
def execDomainWakeDone (d : Fin 7) (s : State) : Out' :=
  .next (if s.waking.contains d.val then s.wakeDone d else s)

/-! ## Sources (R382 to R384) -/

/-- The input of a level source as the rest of the State gives it (R382). -/
def State.levelInput (s : State) (n : Nat) : Bool :=
  if n ≤ 24 then s.anyFull n
  else if n = srcAlmOsf then s.on ALM_STATUS_OSF
  else if n = srcAlmAlarm 0 then s.on ALM_ALARM_STATUS_FIRED && s.on ALM_CTRL_ENABLE
  else if n = srcAlmAlarm 1 then s.on ALM_ALARM_STATUS_FIRED 0x10 && s.on ALM_CTRL_ENABLE
  else match FBlk.ofSrc n with
    | some b => s.faultStatus b &&& s.g (fsIrqEn b.F) ≠ 0
    | none => false

/-- MAST_SOURCE_FIRE (R382): an event of an edge source; a level source takes its input. SOFT sources fire only by
set-pending, and an unnamed source never fires. -/
def execMastSourceFire (src : Fin 512) (s : State) : Out' :=
  .next (if srcEdge src then (if src.val < 0x180 then s.fireEdge src else s)
    else if srcLevel src then s.setLevel src (s.levelInput src)
    else s)

/-- A set-pending (R383, R384): an event of an edge source, a soft pending of a level source; no effect on a source
that R382 does not name. -/
def State.setPending (s : State) (src : Nat) : State :=
  if srcEdge src then s.fireEdge src
  else if srcLevel src then
    ({ s with soft := if s.soft.contains src then s.soft else s.soft ++ [src] }).hostDeliver src
  else s

/-- SET_PENDING (R383). -/
def execSetPending (src : Fin 512) (s : State) : Out' := .next (s.command fun s => s.setPending src)

/-! ## Offers and grants (R385, R386, R390, R391) -/

/-- The base level B of a core (R385). -/
def Core.base (k : Core) : Nat :=
  if k.rl = 0 then 0 else match k.hstk with | x :: _ => x.2 | [] => 0

/-- Whether moderation holds a source back from a core that is not in WAIT (R390). -/
def State.moderated (s : State) (src : Nat) : Bool :=
  match AMap.find s.grantAt src with
  | some g => s.fab < g + s.g MST_SRC_MOD_MIN_INTERVAL_US (dSrc src) * usCycles
  | none => false

/-- Whether a core takes part in selection: running with IE (a waiting RECV is running), or in WAIT; a gated core is
offered a source so that its domain wakes; in an exchange hold deliveries stay pending (R164, R379, R385). -/
def State.offerable (s : State) (c : Nat) : Bool :=
  let k := s.core c
  s.g BRN_XCHG_STATUS_STATE (dQuay (c / 4)) != 4 &&
    (((k.run = .running || k.run = .recv) && k.ie) || k.run = .wait || s.gated (c / 4))

/-- Whether a source may be offered to a core (R383, R385, R390). -/
def State.mayOffer (s : State) (c src : Nat) : Bool :=
  let k := s.core c
  let prio := s.g MST_SRC_CFG_PRIO (dSrc src)
  s.on MST_SRC_CFG_ON (dSrc src) && !s.srcLost.contains src && !s.on MST_SRC_STATE_ACTIVE (dSrc src) && s.srcPending src &&
    (s.g MST_SRC_TARGET_MASK (dSrc src)).testBit c && k.base < prio + 1 &&
    (match k.held with | some h => h.prio < prio | none => true) &&
    (k.run = .wait || !s.moderated src)

/-- The source selected for a core: the highest PRIO, and on a tie the lowest number (R385). -/
def State.select (s : State) (c : Nat) : Option Nat :=
  (List.range 512).foldl (fun best src =>
    if s.mayOffer c src then
      match best with
      | some b => if s.g MST_SRC_CFG_PRIO (dSrc b) < s.g MST_SRC_CFG_PRIO (dSrc src) then some src else best
      | none => some src
    else best) none

def State.offer (s : State) (c : Nat) : Option Offer := AMap.get none s.offers c
def State.setOffer (s : State) (c : Nat) (o : Option Offer) : State := { s with offers := AMap.set none s.offers c o }

/-- A core in WAIT goes on with the next instruction (R123). -/
def State.endWait (s : State) (c : Nat) : State :=
  let k := s.core c
  s.setCore c ({ k with run := .running, pc := k.pc + 4, instret := k.instret + 1 }).boundary

/-- Offer the selected source to a core: a gated core's domain is woken; a core in WAIT with IE = 0 is woken and does
not claim; any other claims (R123, R379, R385). -/
def State.offerCore (s : State) (c : Nat) : State :=
  if s.offerable c && (s.offer c).isNone then
    match s.select c with
    | none => s
    | some src =>
      if s.gated (c / 4) then s.wake (c / 4)
      else if (s.core c).run = .wait ∧ (s.core c).ie = false then s.endWait c
      else s.setOffer c (some ⟨src, s.fab, false, s.g MST_SRC_CFG_PRIO (dSrc src)⟩)
  else s

/-- An uncorrectable error in the configuration of a pending source is found as Mast selects: the source acts as ON = 0 until
MST_SRC_CFG is written (R402). -/
def State.sourceEcc (s : State) (src : Nat) : State :=
  if s.eccIn (.source src) && s.srcPending src then
    { (s.eccGone (.source src)).raise .mst MST_ECC_UNCORR none src with srcLost := s.srcLost ++ [src] }
  else s

/-- The sources in which an error stands. -/
def State.badSources (s : State) : List Nat := s.eccBad.filterMap fun x => match x with | .source n => some n | _ => none

/-- MAST_OFFER (R385): the selection of one fabric cycle, for every core. -/
def execMastOffer (s : State) : Out' :=
  .next ((List.range 24).foldl (fun s c => s.offerCore c) (s.badSources.foldl (fun s n => s.sourceEcc n) s))

/-- A delivery goes back to Mast as pending (R388, R392). -/
def State.returnHeld (s : State) (h : Held) : State :=
  if h.vec < 512 then
    let s := s.p MST_SRC_STATE_ACTIVE (dSrc h.vec) 0
    if srcLevel h.vec then
      if h.soft && !s.soft.contains h.vec then { s with soft := s.soft ++ [h.vec] } else s
    else s.incSat MST_SRC_STATE_COUNT (dSrc h.vec)
  else s

/-- Whether a held delivery is eligible against a level with an interrupt enable (R126). -/
def Held.eligible (h : Held) (ie : Bool) (rl : Nat) : Bool := ie && rl < h.prio + 1

/-- The delivery a core holds next, once it has none: the last bound one that was displaced (R388). -/
def Core.holdNext (k : Core) : Core := { k with held := k.kept.head?, kept := k.kept.tail }

/-- Every delivery a core holds and has not entered. -/
def Core.unentered (k : Core) : List Held := k.held.toList ++ k.kept

/-- A core receives a vector and holds the delivery; one it held goes back, but stays with this core where it is bound. An
idle core hands it back at once; a WAIT
ends where the delivery is not eligible (R123, R385, R388). -/
def State.deliver (s : State) (c : Nat) (h : Held) : State :=
  let k := s.core c
  let s := match k.held with
    | some old => if old.bound then s.setCore c { k with kept := old :: k.kept } else s.returnHeld old
    | none => s
  let k := s.core c
  if k.run = .idle ∨ k.run = .reset then (s.setCore c k.holdNext).returnHeld h
  else
    let s := s.setCore c { k with held := some h }
    if k.run = .wait ∧ h.eligible k.ie k.rl = false then s.endWait c else s

/-- Decide one claim (R386): the source goes to it where it is still pending, not active and not withdrawn; otherwise
vector 0x3FF. -/
def State.claim (s : State) (c : Nat) : State :=
  match s.offer c with
  | none => s
  | some o =>
    let s := s.setOffer c none
    if !o.withdrawn && s.srcPending o.src && !s.on MST_SRC_STATE_ACTIVE (dSrc o.src) then
      let soft := s.soft.contains o.src
      let s := ((s.p MST_SRC_STATE_ACTIVE (dSrc o.src) 1).p MST_SRC_STATE_OWNER (dSrc o.src) c).inc
        MST_CORE_COUNT_CLAIMS (0x10 * c)
      let s := if srcLevel o.src then s
        else s.p MST_SRC_STATE_COUNT (dSrc o.src) (s.g MST_SRC_STATE_COUNT (dSrc o.src) - 1)
      { s with soft := s.soft.filter (· != o.src), grantAt := AMap.ins s.grantAt o.src s.fab }.deliver c
        ⟨o.src, o.prio, soft, false⟩
    else (s.incSat MST_CORE_COUNT_SPURIOUS (0x10 * c)).deliver c ⟨0x3FF, o.prio, false, false⟩

/-- The order in which claims of one cycle are granted (R386): cores in WAIT, cores at RL 0, others; lowest first. -/
def State.claimOrder (s : State) (cs : List Nat) : List Nat :=
  let all := (List.range 24).filter (fun c => cs.contains c)
  let inWait := fun c => (s.core c).run = .wait
  all.filter inWait ++ all.filter (fun c => !inWait c && (s.core c).rl = 0) ++
    all.filter (fun c => !inWait c && (s.core c).rl ≠ 0)

/-- MAST_CLAIM_GRANT (R386): the claims of the named cores arrive in one fabric cycle. -/
def execMastClaimGrant (cs : List (Fin 24)) (s : State) : Out' :=
  .next ((s.claimOrder (cs.map (·.val))).foldl (fun s c => s.claim c) s)

/-- A write clears ON (R391): offers made more than four cycles before are withdrawn. -/
def State.sourceOff (s : State) (src : Nat) : State :=
  let s := s.p MST_SRC_CFG_ON (dSrc src) 0
  (List.range 24).foldl (fun s c =>
    match s.offer c with
    | some o => if o.src = src ∧ o.at_ + 4 < s.fab then s.setOffer c (some { o with withdrawn := true }) else s
    | none => s) s

/-- MAST_SOURCE_OFF (R391). -/
def execMastSourceOff (src : Fin 512) (s : State) : Out' := .next (s.command fun s => s.sourceOff src)

/-- MODERATION_END (R390): a source held back by moderation is so no longer once its interval has passed. -/
def execModerationEnd (src : Fin 512) (s : State) : Out' :=
  .next (if s.moderated src then s else { s with grantAt := AMap.del s.grantAt src })

/-! ## Entry and return (R131 to R134, R388, R389) -/

/-- The core's status as the frame of a Mast delivery saves it: a waiting RECV is saved with RSM and its remaining
timeout, to be executed again (R122); a WAIT has ended. -/
def State.interrupted (s : State) (c : Nat) : Core :=
  let k := s.core c
  if k.run = .recv then { k with rsm := true, recvLeft := BitVec.ofNat 32 (s.recvRemains c), run := .running }
  else if k.run = .wait then { k with pc := k.pc + 4, instret := k.instret + 1, run := .running }
  else k

/-- Enter a held delivery at an instruction boundary: the frame, the level, the vector (R131). A core that was to halt at its next
boundary, or whose step a WAIT or RECV was, halts before the handler's first instruction (R136). -/
def State.enterDelivery (s : State) (c : Nat) (h : Held) : State :=
  let k := s.interrupted c
  let s := s.setCore c k.holdNext
  if k.noRoom 16 then s.haltCore c 2
  else if s.overlayFull (c / 4) 16 then (s.setCore c k).shadowHalt (c / 4)
  else
    let s := s.pushFrame c k.pc h.vec
    s.setCore c { (s.core c).enter (h.prio + 1) h.vec with entering := some s.fab, entSoft := h.soft }.boundary

/-- Write word +12 of the frame at SP (R132, R134). -/
def State.frameVector (s : State) (c vec : Nat) : State :=
  let a := (s.core c).sp.toNat + 12
  s.lwbs (c / 4) (lineOf c (.data a)) (dataKey c a) (leBytes 4 vec)

/-- Take a delivery into a frame that stands: RL, word +12, the handler; the vector of the innermost entry. -/
def State.reenter (s : State) (c : Nat) (h : Held) (hstk : List (Nat × Nat)) : State :=
  let s := s.frameVector c h.vec
  let k := s.core c
  s.setCore c { k with rl := h.prio + 1, hstk := hstk, entSoft := h.soft,
                       pc := k.vbase + BitVec.ofNat 17 (16 * h.vec) }

/-- MAST_DELIVERY_ENTRY (R131, R132): the held delivery, where eligible, is entered at the boundary; within 6.25 ns of an
entry, a higher one replaces it, and the replaced delivery is held again. -/
def execMastDeliveryEntry (c : Fin 24) (s : State) : Out' :=
  .next (match (s.core c).held with
    | none => s
    | some h =>
      let k := s.core c
      let live := k.run = .running ∨ k.run = .wait ∨ k.run = .recv
      if live ∧ s.g BRN_XCHG_STATUS_STATE (dQuay (c.val / 4)) ≠ 4 ∧ h.eligible k.ie k.rl ∧ (s.quay (c / 4)).halted = false then
        match k.entering, k.hstk with
        | some t, (v, r) :: rest =>
          if s.fab ≤ t + 2 then
            (s.setCore c { k with held := some ⟨v, k.rl - 1, k.entSoft, true⟩ }).reenter c h ((h.vec, r) :: rest)
          else s.enterDelivery c h
        | _, _ => s.enterDelivery c h
      else s)

/-- The delivery whose handler executes RETI is complete (R389); 0x3FF and the exceptions complete nothing. -/
def State.complete (s : State) (c vec : Nat) : State :=
  if vec < 512 ∧ s.g MST_SRC_STATE_OWNER (dSrc vec) = c then s.p MST_SRC_STATE_ACTIVE (dSrc vec) 0 else s

/-- RETI (R134): tail-chains to a held delivery that is eligible against the saved IE and level, else restores the
frame; ILLEGAL at RL 0. -/
def execJReti (c : Fin 24) (s : State) : Out' :=
  .next (if s.executes c then
    let k := s.core c
    if k.rl = 0 then s.fail c ⟨xILLEGAL, none⟩
    else if 0x10000 < k.sp.toNat + 16 then s.fail c ⟨xDBUS, some (BitVec.ofNat 40 (0x20000000 + k.sp.toNat))⟩
    else
      s.checked c 16 (.data k.sp.toNat) fun s =>
      let word := fun o => leNat (s.lrbs (c / 4) (dataKey c (k.sp.toNat + o)) 4)
      let st := word 4
      let s := match k.hstk with | x :: _ => s.complete c x.1 | [] => s
      let rest := k.hstk.tail
      let chain := match k.held with | some h => h.eligible (st.testBit 31) (bits st 26 5) | none => false
      match chain, k.held with
      | true, some h =>
        let s := (s.setCore c (s.core c).holdNext).reenter c h ((h.vec, bits st 26 5) :: rest)
        s.retire c (s.core c) (s.core c).pc 4
      | _, _ =>
        let k := { k.setStatus st with recvLeft := BitVec.ofNat 32 (word 8), sp := k.sp + 16, hstk := rest }
        s.retire c k (BitVec.ofNat 17 (word 0 % 2 ^ 17 / 4 * 4)) 8
  else s.unissued c)

/-- What a per-quay reset does to Mast (R392): held deliveries go back, owned sources complete, offers are cleared. -/
def State.mastQuayReset (s : State) (q : Nat) : State :=
  let cores := [4 * q, 4 * q + 1, 4 * q + 2, 4 * q + 3]
  let s := cores.foldl (fun s c =>
    let k := s.core c
    k.unentered.foldl State.returnHeld ((s.setCore c { k with held := none, kept := [] }).setOffer c none)) s
  (List.range 512).foldl (fun s n =>
    if s.on MST_SRC_STATE_ACTIVE (dSrc n) && cores.contains (s.g MST_SRC_STATE_OWNER (dSrc n)) then
      s.p MST_SRC_STATE_ACTIVE (dSrc n) 0 else s) s

end Sys2Proof.Machine
end

