-- ==== Sys2Proof/Machine/PairOps.lean ====
section
/-! DEFINITION. State copy of the pair on its sending side: lines, copies, copy points (R408, R411 to R413).
Readings and choices: DEDUCED log 40. -/

namespace Sys2Proof.Machine

/-- Key of the first byte of a line of a quay: region 0 image SRAM, 1 to 4 data SRAM of core 0 to 3 (R408). -/
def lineKey (q line : Nat) : Nat :=
  let o := line % 2 ^ 60
  if line / 2 ^ 60 = 0 then imageKey q o else dataKey (4 * q + (line / 2 ^ 60 - 1) % 4) o

/-- Every line of a quay's image SRAM and of its cores' data SRAMs. -/
def allLines : List Nat :=
  (List.range 16384).map (64 * ·) ++
    (List.range 4).flatMap fun c => (List.range 1024).map fun i => (c + 1) * 2 ^ 60 + 64 * i

/-- A line record of 72 octets (R408). -/
def lineRecord (r : Nat × List Byte) : List Byte := beBytes 8 r.1 ++ r.2

/-- Cut a list in pieces of at most `n`. -/
def pieces {α : Type} (n : Nat) : Nat → List α → List (List α)
  | 0, _ => []
  | f + 1, l => if l.isEmpty then [] else l.take n :: pieces n f (l.drop n)

/-- The octets of a copy (R412). -/
def copyOctets (lines : Nat) : Nat := 72 * lines + 20 * ceilDiv lines 56 + 36

/-- Octets of the link in a fabric cycle: 2.4 × 10⁹ a second (R407). -/
def linkRate : Nat := 6

/-- Messages with the fabric cycles in which the link has sent them, from a cycle on; a message takes 20 octets beside its
payload (R408). -/
def timed (start : Nat) (l : List (Nat × List Byte)) : List (Nat × Nat × List Byte) :=
  (l.foldl (fun (x : Nat × List (Nat × Nat × List Byte)) m =>
    let o := x.1 + 20 + m.2.length
    (o, x.2 ++ [(start + ceilDiv o linkRate, m.1, m.2)])) (0, [])).2

/-- A copy begins on the link, after what the link holds: its messages, COPY_END, and what the registers of the stream show
(R408, R411, R412). A stream 0 to 6 above COPY_MAX_KB goes as a chain. `lines`, `full` and `sweep` are what the copy gives back
where it stays incomplete. -/
def State.sendCopy (s : State) (i : Nat) (recs : List (Nat × List Byte)) (gen digest : Nat) (lines : List Nat)
    (full : Bool) (sweep : Nat) : State :=
  let d := dStream i
  let s := s.inc PAIR_STREAM_SEQ_SEQ d
  let last := beBytes 4 recs.length ++ beBytes 4 gen ++ beBytes 4 digest ++ beBytes 4 (crc32 (recs.flatMap lineRecord))
  let msgs := ((pieces 56 (recs.length + 1) recs).map fun l => (1, l.flatMap lineRecord)) ++ [(2, last)]
  let size := copyOctets recs.length
  let chain := decide (i ≤ 6 ∧ s.g PAIR_COPY_CFG_COPY_MAX_KB * 1024 < size)
  let start := max s.fab s.pair.linkFree
  let s := (s.p PAIR_STREAM_LAST_OCTETS d size).p PAIR_STREAM_STATUS_CHAIN d (bit chain)
  let s := if chain then s.incSat PAIR_STREAM_COUNT_CHAINS d else s
  let s := s.setStream i { s.stream i with
    sending := some ⟨s.g PAIR_STREAM_SEQ_SEQ d, timed start msgs, lines, full, sweep, chain⟩ }
  { s with pair := { s.pair with linkFree := start + ceilDiv size linkRate } }

/-- The copy being sent on a stream stays incomplete (R413): its lines are dirty still, and the Beacon's sweep stands where it
stood. -/
def State.cutCopy (s : State) (i : Nat) : State :=
  let x := s.stream i
  match x.sending with
  | none => s
  | some c =>
    let s := s.p PAIR_STREAM_STATUS_CHAIN (dStream i) 0
    let old := c.lines.filter fun l => !x.dirty.contains l
    let s := if i = 7 then
        { (s.setStream i { x with sending := none }) with
          bcn := { s.bcn with changed := c.lines ++ s.bcn.changed.filter fun n => !c.lines.contains n } }
      else s.setStream i { x with sending := none, dirty := old ++ x.dirty, full := x.full || c.full }
    let busy := s.pair.linkFree
    let ends := c.msgs.any fun m => m.1 == busy
    { s with pair := { s.pair with linkFree := if ends then s.fab else busy, sweep := if i = 7 then c.sweep else s.pair.sweep } }

/-- Every copy being sent stays incomplete. -/
def State.cutCopies (s : State) : State := (List.range 8).foldl (fun s i => s.cutCopy i) s

/-- The messages of a stream's copy whose last octet has left. With COPY_END the copy has been sent. -/
def State.sendDue (s : State) (i : Nat) : State :=
  match (s.stream i).sending with
  | none => s
  | some c =>
    let gone := c.msgs.filter fun m => m.1 ≤ s.fab
    let rest := c.msgs.filter fun m => s.fab < m.1
    if gone.isEmpty then s
    else
      let s := gone.foldl (fun s m => s.mooringEmit m.2.1 i c.seq 0 m.2.2) s
      if rest.isEmpty then (s.setStream i { s.stream i with sending := none }).p PAIR_STREAM_STATUS_CHAIN (dStream i) 0
      else s.setStream i { s.stream i with sending := some { c with msgs := rest } }

/-- What the link sends of the copies in a fabric cycle. -/
def State.copyTick (s : State) : State := (s.pair.streams.map (·.1)).foldl (fun s i => s.sendDue i) s

/-- Whether copies of the pair leave this device: it is in RUN, or in the final copies of a swap, with PAIR enabled and
the link up (R411, R421). -/
def State.copying (s : State) : Bool :=
  s.on PAIR_CTRL_ENABLE && s.mode == RUN && s.on PAIR_STATUS_LINK && s.on PAIR_STATUS_OWN

/-- The lines of a quay's stream that are dirty. -/
def StreamSt.lines (x : StreamSt) : List Nat := if x.full then allLines else x.dirty

/-- Whether a stream makes a copy at a copy point: not while a chain of it is being sent, and not once a swap's final copies
have been made (R412, R421). -/
def State.copyNow (s : State) (i : Nat) : Bool :=
  s.copying && !s.pair.finals && (s.stream i).sending.all (fun c => !c.chain)

/-- The copy point of quay `q` (R411, R413): a copy still being sent stays incomplete; every dirty line, the generation, the
program's digest. -/
def State.copyPoint (s : State) (q : Nat) : State :=
  if s.copyNow q then
    let s := s.cutCopy q
    let x := s.stream q
    let recs := x.lines.map fun l => (l, s.rbs (lineKey q l) 64)
    (s.setStream q { x with dirty := [], full := false }).sendCopy q recs (s.g BRN_QUAY_GEN_GEN (dQuay q))
      ((s.quay q).xchg.presentDigest % 2 ^ 32) x.dirty x.full 0
  else s

end Sys2Proof.Machine
end

