-- ==== Sys2Proof/Machine/ScanOps.lean ====
section
/-! DEFINITION. The scan cycle's operations: task configuration, boundaries, task start, context save and restore, ends
of scans, a quay's reset of its scheduler (R88, R135, R137 to R151).
Readings and choices: DEDUCED log 30; DESIGN CHOICE log 31. -/

namespace Sys2Proof.Machine

def tERR : Nat := 16
def tSTART : Nat := 24

/-! ## Configuration of task `t`: 0 to 7 cyclic, 8 to 15 event, 16 to 23 error, 24 start-up -/

def State.taskOn (s : State) (q t : Nat) : Bool :=
  if t < 8 then s.on BRN_TASK_CFG_ON (dTask q t)
  else if t < 16 then s.on BRN_EVT_CFG_ON (dEvt q (t - 8))
  else if t < 24 then s.on BRN_ERR_CFG_ON (dEvt q (t - 16))
  else true

def State.taskPrio (s : State) (q t : Nat) : Nat :=
  if t < 8 then s.g BRN_TASK_CFG_PRIO (dTask q t)
  else if t < 16 then s.g BRN_EVT_CFG_PRIO (dEvt q (t - 8))
  else if t < 24 then s.g BRN_ERR_CFG_PRIO (dEvt q (t - 16))
  else 0

def State.taskCore (s : State) (q t : Nat) : Nat :=
  if t < 8 then s.g BRN_TASK_CFG_CORE (dTask q t)
  else if t < 16 then s.g BRN_EVT_CFG_CORE (dEvt q (t - 8))
  else if t < 24 then s.g BRN_ERR_CFG_CORE (dEvt q (t - 16))
  else s.g BRN_START_CFG_CORE (dQuay q)

/-- The first instruction, a byte offset of the core's instruction SRAM. -/
def State.taskEntry (s : State) (q t : Nat) : Nat :=
  4 * (if t < 8 then s.g BRN_TASK_ENTRY_ENTRY (dTask q t)
  else if t < 16 then s.g BRN_EVT_ENTRY_ENTRY (dEvt q (t - 8))
  else if t < 24 then s.g BRN_ERR_ENTRY_ENTRY (dEvt q (t - 16))
  else s.g BRN_START_ENTRY_ENTRY (dQuay q))

/-- The save area, a byte offset of the core's data SRAM. -/
def State.taskSave (s : State) (q t : Nat) : Nat :=
  8 * (if t < 8 then s.g BRN_TASK_SAVE_SAVE (dTask q t)
  else if t < 16 then s.g BRN_EVT_SAVE_SAVE (dEvt q (t - 8))
  else if t < 24 then s.g BRN_ERR_SAVE_SAVE (dEvt q (t - 16))
  else s.g BRN_START_SAVE_SAVE (dQuay q))

/-- The image offset of the task's DIN area, where the task selects DIN (R137). -/
def State.taskDin (s : State) (q t : Nat) : Option Nat :=
  if t < 8 then (if s.on BRN_TASK_CFG_DIN (dTask q t) then some (8 * s.g BRN_TASK_IO_IO_OFF (dTask q t)) else none)
  else if t < 16 then
    (if s.on BRN_EVT_CFG_DIN (dEvt q (t - 8)) then some (8 * s.g BRN_EVT_IO_IO_OFF (dEvt q (t - 8))) else none)
  else if t = tSTART then (if s.on BRN_START_CFG_DIN (dQuay q) then some (Config.startDin q) else none)
  else none

/-- The DOUT bits a cyclic task owns: the register's two words. -/
def State.doutMask (s : State) (q t : Nat) : Nat := s.g BRN_TASK_DOUT_MASK_MASK (dTask q t)

/-- The configuration that a task's registers and the station table in service give. -/
def State.taskCfg (s : State) (q t : Nat) : TaskCfg :=
  { core := s.taskCore q t, prio := s.taskPrio q t, entry := s.taskEntry q t, save := s.taskSave q t, din := s.taskDin q t
    mask := if t < 8 then s.doutMask q t else 0, dout := 8 * s.g BRN_TASK_IO_IO_OFF (dTask q t) + 8
    arg := 8 * s.g BRN_ERR_ARG_ARG_OFF (dEvt q (t - 16)), base := s.g BRN_QUAY_IMAGE_STATUS_BASE (dQuay q)
    stns := if t < 8 then s.liveStations.filter fun x => entQuay x.2 == q && entTask x.2 == t else [] }

/-- The configuration in force for a task: its scan's own while one is in progress (R70). -/
def State.scanCfg (s : State) (q t : Nat) : TaskCfg :=
  let x := (s.quay q).task t
  if x.phase = .idle then s.taskCfg q t else x.cfg

/-! ## Boundaries (R151) -/

/-- Whether a task lies between its scan start and the end of its copy-out. -/
def QuaySt.inScan (k : QuaySt) (t : Nat) : Bool := (k.task t).phase ≠ .idle

/-- A quay scan boundary. -/
def State.atBoundary (s : State) (q : Nat) : Bool :=
  (List.range 25).all (fun t => !(s.quay q).inScan t) &&
    (List.range 4).all fun i => let k := s.core (4 * q + i); k.rl = 0 || k.run = .idle || k.run = .reset

def xIDLE : Nat := 0
def xLOADING : Nat := 1
def xLOADED : Nat := 2
def xWAITING : Nat := 3
def xHOLD : Nat := 4
def State.xState (s : State) (q : Nat) : Nat := s.g BRN_XCHG_STATUS_STATE (dQuay q)

/-- Whether scan starts of a quay are held (R151, R164, R421). -/
def State.scansHeld (s : State) (q : Nat) : Bool :=
  (s.quay q).forced || s.xState q == xHOLD || (s.xState q == xWAITING && (s.quay q).xchg.allowSkip) ||
    s.pair.swapAt.isSome

/-! ## Which task is next (R142) -/

/-- Rank among equal priorities and releases: error, event, cyclic; then the number. -/
def taskRank (t : Nat) : Nat := if t < 8 then 200 + t else if t < 16 then 100 + t else t

/-- Whether task `a` goes before task `b`. -/
def State.before (s : State) (q a b : Nat) : Bool :=
  let k := s.quay q
  let pa := (s.scanCfg q a).prio
  let pb := (s.scanCfg q b).prio
  pb < pa || (pa == pb && ((k.task a).relAt < (k.task b).relAt ||
    ((k.task a).relAt == (k.task b).relAt && taskRank a < taskRank b)))

/-- The first of some tasks in the order of R142. -/
def State.firstTask (s : State) (q : Nat) (ts : List Nat) : Option Nat :=
  ts.foldl (fun b t => match b with | some x => if s.before q t x then some t else b | none => some t) none

/-- Released tasks of a core that have not started; the start-up task alone until it has ended (R138). -/
def State.waitingTasks (s : State) (q i : Nat) : List Nat :=
  let k := s.quay q
  (if k.started then List.range 24 else [tSTART]).filter fun t =>
    (k.task t).pend && (k.task t).phase == .idle && s.taskOn q t && s.taskCore q t == i

/-- Tasks of a core whose copy-in is complete and that have not begun. -/
def State.readyTasks (s : State) (q i : Nat) : List Nat :=
  (List.range 25).filter fun t => ((s.quay q).task t).phase == .ready && (s.scanCfg q t).core == i

/-! ## Task start, preemption, resumption (R88, R135, R144, R145) -/

/-- On the first task start after the quay's ENABLE its cores take VBASE, SP and SLIMIT (R135). -/
def State.bootCores (s : State) (q : Nat) : State :=
  (List.range 4).foldl (fun s i =>
    let c := 4 * q + i
    let k := s.core c
    if k.booted then s
    else
      let d := dCore c
      s.setCore c { k with booted := true, vbase := BitVec.ofNat 17 (16384 * s.g BRN_CORE_BOOT_VBASE d),
                           sp := BitVec.ofNat 16 (s.g BRN_CORE_STACK_SP d),
                           slimit := BitVec.ofNat 16 (s.g BRN_CORE_STACK_SLIMIT d) }) s

/-- A task's first instruction is next on its core (R88, R115, R145). That RECV_LEFT and RSM are 0 there too is no rule's:
DESIGN CHOICE log 53. -/
def State.beginTask (s : State) (q t : Nat) : State :=
  let g := s.scanCfg q t
  let c := 4 * q + g.core
  let k := s.quay q
  let x := k.task t
  let s := s.setQuay q (k.setTask t { x with phase := .running })
  s.setCore c { s.core c with run := .running, ba := false, nest := 0, z := false, n := false, c := false, v := false,
                              pc := BitVec.ofNat 17 g.entry, task := some t,
                              stamp := BitVec.ofNat 64 x.stamp, rsm := false, recvLeft := 0, recvFrom := none }

/-- Store bytes in a core's data SRAM in pieces of 8, each in one copy line. -/
def State.storeData (s : State) (c off : Nat) (bs : List Byte) : State :=
  (pieces 8 (bs.length + 1) bs).zipIdx.foldl (fun s x =>
    let o := off + 8 * x.2
    s.lwbs (c / 4) (lineOf c (.data o)) (dataKey c o) x.1) s

/-- A core's context as the save area holds it (R145). A waiting RECV is saved to be executed again with its remaining
timeout; a WAIT likewise. -/
def State.contextBytes (s : State) (c : Nat) : List Byte :=
  let k := s.core c
  let k := if k.run = .recv then { k with rsm := true, recvLeft := BitVec.ofNat 32 (s.recvRemains c) } else k
  (k.w.toList.flatMap fun w => leBytes 8 w.toNat) ++ (k.p.toList.flatMap fun p => leBytes 8 p.toNat) ++
    leBytes 4 k.pc.toNat ++ leBytes 4 k.status ++ leBytes 8 k.nstk.toNat ++ leBytes 4 k.recvLeft.toNat ++
    leBytes 4 k.sp.toNat ++ leBytes 8 0

/-- Restore a core's context from its task's save area (R144, R145). -/
def State.restoreContext (s : State) (c a : Nat) : State :=
  let rd := fun o n => leNat (s.lrbs (c / 4) (dataKey c (a + o)) n)
  let k := (s.core c).setStatus (rd 164 4)
  s.setCore c { k with w := Vector.ofFn (n := 16) fun i => BitVec.ofNat 64 (rd (8 * i.val) 8),
                       p := Vector.ofFn (n := 4) fun i => BitVec.ofNat 40 (rd (128 + 8 * i.val) 8),
                       pc := BitVec.ofNat 17 (rd 160 4 % 2 ^ 17 / 4 * 4), nstk := BitVec.ofNat 64 (rd 168 8),
                       recvLeft := BitVec.ofNat 32 (rd 176 4), sp := BitVec.ofNat 16 (rd 180 4 / 8 * 8), run := .running,
                       recvFrom := none }

/-- Resume the innermost preempted task of a core (R144). -/
def State.resumeTask (s : State) (q c t : Nat) (rest : List Nat) : State :=
  let k := s.quay q
  let x := k.task t
  let s := (s.setQuay q (k.setTask t { x with phase := .running })).restoreContext c (s.scanCfg q t).save
  s.setCore c { s.core c with task := some t, stacked := rest, stamp := BitVec.ofNat 64 x.stamp }

/-- A core becomes idle: a delivery it holds goes back to Mast (R385), but for one that is bound to it (R388). -/
def State.idleCore (s : State) (c : Nat) : State :=
  let k := s.core c
  let s := s.setCore c { k with run := .idle, task := none, recvFrom := none,
                                held := k.held.filter (·.bound) }
  match k.held.filter (!·.bound) with | some h => s.returnHeld h | none => s

/-- A core whose task has ended takes its next work (R142, R144): a ready task above the innermost preempted one, that
one, or none. -/
def State.nextWork (s : State) (q i : Nat) : State :=
  let c := 4 * q + i
  let ready := s.firstTask q (s.readyTasks q i)
  match (s.core c).stacked, ready with
  | t :: rest, some r => if (s.scanCfg q t).prio < (s.scanCfg q r).prio then s.beginTask q r else s.resumeTask q c t rest
  | t :: rest, none => s.resumeTask q c t rest
  | [], some r => s.beginTask q r
  | [], none => s.idleCore c

/-- The oldest activation of an error task, taken as its scan starts (R141). -/
def State.takeActivation (s : State) (q cls : Nat) : State :=
  let k := s.quay q
  match k.actsOf cls with
  | [] => s
  | a :: rest =>
    let k := k.setActs cls rest
    let t := k.task (tERR + cls)
    let relAt := match rest with | b :: _ => b.relAt | [] => t.relAt
    let k := { k with actNow := AMap.ins k.actNow cls a }.setTask (tERR + cls)
      { t with pend := !rest.isEmpty, relAt := relAt }
    (s.setQuay q k).p BRN_ERR_STATS_QUEUED (dEvt q cls) rest.length

/-- The scan start of a task: its stamp and configuration (R70), its copy-in queued (R143), CONSEC to 0 (R150). -/
def State.startScan (s : State) (q t : Nat) : State :=
  let s := s.bootCores q
  let k := s.quay q
  let x := k.task t
  let k := k.setTask t { x with phase := .copyIn, pend := false, stamp := s.tideNs, startAt := s.fab, cfg := s.taskCfg q t }
  let s := s.setQuay q { k with port := k.port ++ [(t, false)] }
  if t < 8 then s.p BRN_TASK_STATS_CONSEC (dTask q t) 0
  else if tERR ≤ t ∧ t < tSTART then s.takeActivation q (t - tERR)
  else s

/-- Whether a core takes the scan start of a task of a priority: idle, or running a task of lower priority (R142). -/
def State.coreTakes (s : State) (q i prio : Nat) : Bool :=
  let k := s.core (4 * q + i)
  k.run == .idle || (match k.task with | some t => k.run != .reset && (s.scanCfg q t).prio < prio | none => false)

/-- The task that the scheduler starts next on a core (R142). -/
def State.nextStart (s : State) (q i : Nat) : Option Nat :=
  if s.quayRuns q && !s.scansHeld q then
    match s.firstTask q (s.waitingTasks q i) with
    | some t => if s.coreTakes q i (s.taskPrio q t) then some t else none
    | none => none
  else none

/-- The end of a task's scan, in ns since its start, in EXEC_LAST and EXEC_MAX; the rounding of 2.5 ns cycles is open. -/
def State.execTimes (s : State) (q t : Nat) : State :=
  let x := s.roundOpen ((s.fab - ((s.quay q).task t).startAt) * 5 : Nat) 2
  let ns := min x.1.toNat (2 ^ 32 - 1)
  let s := x.2.p BRN_TASK_EXEC_LAST_NS (dTask q t) ns
  if s.g BRN_TASK_EXEC_MAX_NS (dTask q t) < ns then s.p BRN_TASK_EXEC_MAX_NS (dTask q t) ns else s

/-- A task's scan has ended. -/
def State.idleTask (s : State) (q t : Nat) : State :=
  let k := s.quay q
  s.setQuay q (k.setTask t { k.task t with phase := .idle })

/-- The body of a task has ended (R149, R411): a cyclic task's copy-out is queued; an event or error task's scan ends,
with a copy point; the start-up task's end lets the others begin. -/
def State.bodyEnd (s : State) (q t : Nat) : State :=
  if t < 8 then
    let k := s.quay q
    let k := k.setTask t { k.task t with phase := .copyOut }
    s.setQuay q { k with port := k.port ++ [(t, true)] }
  else if t < 16 then ((s.idleTask q t).inc BRN_EVT_STATS_RUNS (dEvt q (t - 8))).copyPoint q
  else if t < 24 then ((s.idleTask q t).inc BRN_ERR_STATS_RUNS (dEvt q (t - 16))).copyPoint q
  else
    let s := s.idleTask q t
    s.setQuay q { s.quay q with started := true, startFrom := none }

/-- Arrange the start-up task of a quay (R41, R52): it is released, and the others wait for its end. -/
def State.armStartup (s : State) (q from_ : Nat) : State :=
  let k := s.quay q
  let t := k.task tSTART
  s.setQuay q ({ k with started := false, startFrom := some from_ }.setTask tSTART { t with pend := true, relAt := s.tide })

/-- The mode that governs a copy-out (R152): the quay's, SAFE once the device is in it. -/
def State.copyOutMode (s : State) (q : Nat) : Nat := if s.mode = SAFE then SAFE else (s.quay q).mode

end Sys2Proof.Machine
end

