-- ==== Sys2Proof/Machine/Power.lean ====
section
/-! DEFINITION. Adaptive voltage and power gating (R486 to R489). Readings and choices: DEDUCED log 46, 47. -/

namespace Sys2Proof.Machine

def dRail (k : Nat) : Nat := 0x20 * k
def State.rail (s : State) (k : Nat) : Rail := AMap.get {} s.rails k
def State.setRail (s : State) (k : Nat) (x : Rail) : State := { s with rails := AMap.set {} s.rails k x }

/-- VMIN and VMAX in mV. -/
def railMin (k : Nat) : Nat := if k = 0 then 650 else 700
def railMax (k : Nat) : Nat := if k = 0 then 850 else 900

/-- Whether a rail's step is held: one of its domains is being woken, or was less than 100 µs ago (R489). -/
def State.railHeld (s : State) (k : Nat) : Bool :=
  s.waking.any (fun d => decide ((d = 6) = (k = 1))) || decide (s.fab < (s.rail k).freeAt)

/-- VOUT_COMMAND is written to the rail's regulator. -/
def State.voutNow (s : State) (k mv : Nat) : State :=
  ((s.p PWR_RAIL_VOUT_MV (dRail k) mv).emit (.pmbus k mv)).setRail k
    { s.rail k with txn := some (mv, false), txnAt := s.fab, step := none }

/-- A step of a rail's loop, which a wake holds back. -/
def State.vout (s : State) (k mv : Nat) : State :=
  if s.railHeld k then s.setRail k { s.rail k with step := some mv } else s.voutNow k mv

/-- A step held back is made once nothing holds it. -/
def State.railTick (s : State) : State :=
  (s.rails.map (·.1)).foldl (fun s k => match (s.rail k).step with
    | some mv => if s.railHeld k then s else s.voutNow k mv
    | none => s) s

/-- One update of a rail's loop with its lowest margin; `out` is READ_VOUT, taken at the first update. The voltage changes
once the regulator has taken it. -/
def State.avsUpdate (s : State) (k : Nat) (m : Int) (out : Nat) : State :=
  let d := dRail k
  let s := (s.p PWR_RAIL_MARGIN_WORST d (ofSigned 16 m)).inc PWR_RAIL_MARGIN_UPDATES d
  let s := if m < 0 then s.raise .pwr PWR_MARGIN_LOST none k else s
  let x := s.rail k
  let v := x.v.getD out
  let x := { x with v := some v }
  if m < (s.g PWR_RAIL_GUARD_GUARD_LO d : Nat) then
    let s := s.setRail k { x with above := 0 }
    let v' := min (v + 10) (railMax k)
    if v' = v then s else s.vout k v'
  else if (s.g PWR_RAIL_GUARD_GUARD_HI d : Nat) < m then
    if x.above + 1 < 16 then s.setRail k { x with above := x.above + 1 }
    else
      let s := s.setRail k { x with above := 0 }
      let v' := max (v - 5) (railMin k)
      if x.stuck || v' == v then s else s.vout k v'
  else s.setRail k { x with above := 0 }

/-- AVS_UPDATE (R486, R487, R489): the update of a rail, 1 ms after the one before: the lowest margin in permille and READ_VOUT
in mV. The loop of VDD_DRAFT holds and measures nothing while its domain is gated. -/
def execAvsUpdate (rail : Fin 2) (margin : BitVec 16) (readVout : BitVec 16) (s : State) : Out' :=
  .next (if s.on PWR_CTRL_ENABLE && s.on PWR_RAIL_CFG_AVS_ON (dRail rail.val) &&
      !(rail.val == 1 && s.gated 6) && decide ((s.rail rail.val).due ≤ s.fab) then
    (s.setRail rail.val { s.rail rail.val with due := s.fab + 1000 * usCycles }).avsUpdate rail.val margin.toInt
      readVout.toNat
  else s)

/-- A transaction has failed: it is retried once; then PMBUS_ERR (R487). -/
def State.pmbusFail (s : State) (k : Nat) : State :=
  let x := s.rail k
  match x.txn with
  | some (mv, false) => (s.setRail k { x with txn := some (mv, true), txnAt := s.fab }).emit (.pmbus k mv)
  | some (_, true) => (s.setRail k { x with txn := none, stuck := true }).raise .pwr PWR_PMBUS_ERR none k
  | none => s

/-- PMBUS_TRANSACTION_END (R487): a transaction succeeds, or is NACKed or fails its PEC. -/
def execPmbusTransactionEnd (rail : Fin 2) (ok : Bool) (s : State) : Out' :=
  let x := s.rail rail.val
  .next (if ok then
      match x.txn with
      | some (mv, _) => s.setRail rail.val { x with v := some mv, txn := none, stuck := false }
      | none => s
    else s.pmbusFail rail.val)

/-- PMBUS_TIMEOUT (R487): a transaction has not completed within 35 ms. -/
def execPmbusTimeout (rail : Fin 2) (s : State) : Out' :=
  .next (if (s.rail rail.val).txnAt + 35000 * usCycles ≤ s.fab then s.pmbusFail rail.val else s)

/-- A write of PWR_GATE (R488). -/
def State.gateWrite (s : State) (v : Nat) : State := (s.p PWR_GATE_QUAY 0 (v % 64)).p PWR_GATE_DRAFT 0 (v / 64 % 2)

/-- GATE_REQUEST (R488): a write of PWR_GATE: the quays' bits and Drafting's. -/
def execGateRequest (domains : BitVec 7) (s : State) : Out' := .next (s.command fun s => s.gateWrite domains.toNat)

/-- Whether gating of a domain is requested. -/
def State.gateAsked (s : State) (d : Nat) : Bool :=
  if d < 6 then (s.g PWR_GATE_QUAY).testBit d else s.on PWR_GATE_DRAFT

/-- Whether a domain's condition for gating holds. -/
def State.gateReady (s : State) (d : Nat) : Bool :=
  if d < 6 then !s.on BRN_QUAY_CTRL_ENABLE (dQuay d) else !s.on DRF_CTRL_ENABLE

/-- DOMAIN_GATED (R488): a requested domain whose condition holds is gated; a quay's cores are held in reset. -/
def execDomainGated (domain : Fin 7) (s : State) : Out' :=
  let d := domain.val
  .next (if s.gateAsked d && s.gateReady d && !s.gated d && !s.waking.contains d then
      let s := s.setBit PWR_GATE_STATUS_GATED 0 d true
      if d < 6 then (List.range 4).foldl (fun s i => s.setCore (4 * d + i) {}) s else s
    else s)

end Sys2Proof.Machine
end

