-- ==== Sys2Proof/Machine/EccMem.lean ====
section
/-! DEFINITION. ECC of DDR and shared SRAM (R466, R469, R473): what a read finds, corrects and counts, and the patrol scrub.
Readings and choices: DESIGN CHOICE log 52. -/

namespace Sys2Proof.Machine

/-- The DDR channel that serves an address (R466, R467): equal channels alternate every 256 bytes; else channel 0 is first. -/
def State.ddrChannel (s : State) (a : Nat) : Nat :=
  let g0 := s.g MEM_DDR_CFG_LOG2_GB 0
  let g1 := s.g MEM_DDR_CFG_LOG2_GB 0x100
  if g1 = 0 then 0
  else if g0 = g1 then (a - ddrBase) / 256 % 2
  else if a < ddrBase + 2 ^ g0 * 2 ^ 30 then 0 else 1

/-- Whether a key lies in the DDR region. -/
def ddrKey (k : Nat) : Bool := ddrBase ≤ k && k < winBase

/-- A read of the `n` bytes from a key corrects single-bit errors, writes the words back and counts DDR's in CORR of their
channel (R469). -/
def State.eccSeen (s : State) (k n : Nat) : State :=
  let found := s.eccOne.filter fun w => s.eccMeets k n w && ddrKey w
  (found.foldl (fun s w => s.incSat MEM_DDR_STATUS_CORR (0x100 * s.ddrChannel w)) s).eccFix k n

/-- A read meets an uncorrectable error: ECC_UNCORR, with the address in the capture (R469). -/
def State.memUncorr (s : State) (a master : Nat) : State := s.raise .mem MEM_ECC_UNCORR (some ⟨a, master, 1⟩) 0

/-- Words that the patrol of 24 h reads in the fabric cycle that ends: the first and the one after the last, in bytes from
the start of DDR. -/
def State.patrol (s : State) : Nat × Nat :=
  let day := 86400 * 400000000
  let words := s.ddrSize / 8
  (8 * (s.fab % day * words / day), 8 * ((s.fab % day + 1) * words / day))

/-- The patrol scrub (R469): with SCRUB 1 on initialised DDR each channel's maintenance master reads the words that are due,
in address order. -/
def State.scrubTick (s : State) : State :=
  if (s.eccOne.isEmpty && s.eccBad.isEmpty) || !s.on MEM_CTRL_SCRUB || !s.on MEM_CTRL_DDR_READY then s
  else
    let p := s.patrol
    let lo := ddrBase + p.1
    let n := p.2 - p.1
    if n = 0 then s
    else
      let s := if s.eccUncorr lo n then s.memUncorr lo (32 + s.ddrChannel lo) else s
      s.eccSeen lo n

end Sys2Proof.Machine
end

