-- ==== Sys2Proof/Machine/Gates.lean ====
section
/-! DEFINITION. Gate control lists (R27, R313 to R315): the lists of a field port, which gates are open when, and the
values the admission check takes from them. Readings and choices: DEDUCED log 36. -/

namespace Sys2Proof.Machine

/-- A gate control list: base time and cycle in ns, and entries of gates and interval in ns. No entries: no gating. -/
structure GList where
  base    : Nat
  cycle   : Nat
  entries : List (Nat × Nat)
deriving DecidableEq, Repr

def State.operList (s : State) (p : Nat) : GList :=
  let d := dPort p
  ⟨s.timeNs NET_GCL_OPER_BASE_NS_NANOSECONDS d, s.g NET_GCL_OPER_CYCLE_CYCLE_NS d,
    (List.range (s.g NET_GCL_STATUS_OPER_LEN d)).map fun e =>
      (s.g NET_GCL_OPER_ENTRY_GATES (d + 4 * e), 8 * s.g NET_GCL_OPER_ENTRY_INTERVAL (d + 4 * e))⟩

def State.adminList (s : State) (p : Nat) : GList :=
  let d := dPort p
  ⟨s.timeNs NET_GCL_ADMIN_BASE_NS_NANOSECONDS d, s.g NET_GCL_ADMIN_CYCLE_CYCLE_NS d,
    (List.range (s.g NET_GCL_ADMIN_LEN_LEN d)).map fun e =>
      (s.g NET_GCL_ADMIN_ENTRY_GATES (d + 4 * e), 8 * s.g NET_GCL_ADMIN_ENTRY_INTERVAL (d + 4 * e))⟩

/-- The entries as they fill the rest of a cycle: cut at its end, the last entry's gates holding to it (R313). -/
def fillCycle : Nat → Nat → List (Nat × Nat) → List (Nat × Nat)
  | left, last, [] => if left = 0 then [] else [(last, left)]
  | left, _, (g, n) :: t =>
    if left = 0 then [] else if left ≤ n then [(g, left)] else (g, n) :: fillCycle (left - n) g t

/-- The gates over one cycle, as intervals. -/
def GList.spans (l : GList) : List (Nat × Nat) := fillCycle l.cycle 0 l.entries

/-- Join neighbouring runs of one state. -/
def joinRuns : List (Bool × Nat) → List (Bool × Nat)
  | [] => []
  | (b, n) :: t =>
    match joinRuns t with
    | (c, m) :: u => if b = c then (b, n + m) :: u else (b, n) :: (c, m) :: u
    | [] => [(b, n)]

/-- The open and closed runs of a class over one cycle. -/
def GList.runs (l : GList) (c : Nat) : List (Bool × Nat) := joinRuns (l.spans.map fun x => (x.1.testBit c, x.2))

/-- The runs with the last joined to the first, as the cycle repeats. -/
def wrapRuns (l : List (Bool × Nat)) : List (Bool × Nat) :=
  match l, l.getLast? with
  | (b, n) :: (x :: t), some (c, m) => if b = c then (b, n + m) :: (x :: t).dropLast else l
  | _, _ => l

/-- What admission takes from a list for one class (R27): O_min (none: unbounded), C_max, and the open fraction. -/
structure GateVals where
  oMin : Option Nat
  cMax : Nat
  frac : Rat

def GateVals.open_ : GateVals := ⟨none, 0, 1⟩

def minOpt : Option Nat → Option Nat → Option Nat
  | none, y => y
  | x, none => x
  | some x, some y => some (min x y)

def listMax (l : List Nat) : Nat := l.foldl max 0
def listMin : List Nat → Nat
  | [] => 0
  | x :: t => t.foldl min x

/-- The values of one list for a class; a gate that never closes counts as without a slot table (R27). -/
def GList.vals (l : GList) (c : Nat) : GateVals :=
  if l.entries = [] then .open_
  else
    let r := wrapRuns (l.runs c)
    if r.all (·.1) then .open_
    else
      let opens := (r.filter (·.1)).map (·.2)
      let shut := (r.filter (fun x => !x.1)).map (·.2)
      ⟨some (listMin opens), listMax shut, (opens.sum : Rat) / (l.cycle : Rat)⟩

/-- Whether two classes' gates are ever open together. -/
def GList.overlap (l : GList) (c d : Nat) : Bool :=
  l.entries = [] || l.spans.any fun x => x.1.testBit c && x.1.testBit d

/-- A run of runs in which an open one shorter than `t` counts as closed (R315). -/
def shutShort (t : Nat) (l : List (Bool × Nat)) : List (Bool × Nat) :=
  joinRuns ((joinRuns l).map fun x => if x.1 && decide (x.2 < t) then (false, x.2) else x)

/-- The runs before a place in a list of runs, and those after it. -/
def splitRuns : Nat → List (Bool × Nat) → List (Bool × Nat) × List (Bool × Nat)
  | _, [] => ([], [])
  | k, (b, n) :: t =>
    if n ≤ k then
      let x := splitRuns (k - n) t
      ((b, n) :: x.1, x.2)
    else (if k = 0 then [] else [(b, k)], (b, n - k) :: t)

/-- The closed run at the end, and at the start, of a list of runs. -/
def tailShut (l : List (Bool × Nat)) : Nat := match l.getLast? with | some (false, n) => n | _ => 0
def headShut (l : List (Bool × Nat)) : Nat := match l.head? with | some (false, n) => n | _ => 0

/-- Whether a change of list is aligned (R315). -/
def alignedChange (o n : GList) : Bool :=
  o.entries = [] || n.entries = [] ||
    (n.cycle % o.cycle = 0 && ((n.base : Int) - o.base) % o.cycle = 0)

/-- The changeover bound from one list to another for a class whose largest service time is `t` (R315), in ns. An open piece
is as long as it is across T; a list without entries leaves its gates open up to T. -/
def changeBound (o n : GList) (c t : Nat) : Nat :=
  if n.entries = [] then (o.vals c).cMax
  else if alignedChange o n then
    let tail := if o.entries = [] then [(true, max 1 t)] else o.runs c
    let x := splitRuns ((tail.map (·.2)).sum) (shutShort t (tail ++ n.runs c))
    tailShut x.1 + headShut x.2
  else (o.vals c).cMax + (n.vals c).cMax + listMax (n.entries.map (·.2))

/-- The values over a changeover from each of the old lists to the new one (R315). -/
def changeVals (olds : List GList) (n : GList) (c t : Nat) : GateVals :=
  olds.foldl (fun a o =>
    let x := o.vals c
    ⟨minOpt a.oMin x.oMin, max a.cMax (max x.cMax (changeBound o n c t)), min a.frac x.frac⟩) (n.vals c)

/-! ## Gates in time -/

/-- The gates a list opens at a Tide time (R313). -/
def gatesIn : Nat → List (Nat × Nat) → Nat
  | _, [] => 255
  | o, (g, n) :: t => if o < n then g else gatesIn (o - n) t

/-- The place in its cycle of a Tide time, in ns. -/
def GList.phase (l : GList) (t : Nat) : Nat := (((t : Int) - l.base) % l.cycle).toNat

def GList.gatesAt (l : GList) (t : Nat) : Nat :=
  if l.entries = [] then 255 else gatesIn (l.phase t) l.spans

/-- The index of the interval in progress at a place in the cycle. -/
def spanIndex : Nat → List (Nat × Nat) → Nat
  | _, [] => 0
  | o, (_, n) :: t => if o < n then 0 else spanIndex (o - n) t + 1

/-- The time from a place in a list of runs until a class's gate is next closed; none where it stays open. -/
def untilShut (c : Nat) : Nat → Nat → List (Nat × Nat) → Option Nat
  | _, _, [] => none
  | skip, acc, (g, n) :: t =>
    if n ≤ skip then untilShut c (skip - n) acc t
    else if g.testBit c then untilShut c 0 (acc + (n - skip)) t
    else some acc

/-- How long a class's gate stays open from a Tide time; none: it never closes. -/
def GList.openFor (l : GList) (c t : Nat) : Option Nat :=
  if l.entries = [] then none else untilShut c (l.phase t) 0 (l.spans ++ l.spans)

/-- The end of the entry in progress at a Tide time, or that time where an entry begins at it (R314). -/
def entryEnd : Nat → List (Nat × Nat) → Nat
  | _, [] => 0
  | o, (_, n) :: t => if o = 0 then 0 else if o < n then n - o else entryEnd (o - n) t

/-- T and T' of a changeover applied at instant `a` (R314). -/
def changeTime (o n : GList) (a : Nat) : Nat :=
  if n.entries = [] then a
  else
    let t := a + (((n.base : Int) - a) % n.cycle).toNat
    if o.entries = [] then t else t + entryEnd (o.phase t) o.spans

end Sys2Proof.Machine
end

