-- ==== Sys2Proof/Machine/LockRows.lean ====
section
/-! DEFINITION. Lock: requests, grants, parking, quotas and the hold limit (R393 to R400).
Readings and choices: DEDUCED log 39. -/

namespace Sys2Proof.Machine

def dLock (l : Nat) : Nat := 0x1000 * l
def dReq (l r : Nat) : Nat := 0x1000 * l + 4 * r

/-- The requester slot of a master (R394). -/
def slotOfMaster (m : Nat) : Option Nat :=
  if m < 24 then some (m / 4)
  else if m = 27 then some 6 else if m = 28 then some 7 else if m = 29 then some 8 else if m = 30 then some 9
  else if m = 40 then some 10 else if m = 31 then some 11
  else if 36 ≤ m ∧ m ≤ 38 then some (m - 24) else if m = 34 ∨ m = 35 then some (m - 19)
  else if m = 24 ∨ m = 25 then some 17 else if m = 32 ∨ m = 33 then some 18
  else if m = 39 then some 19 else if m = 41 then some 20 else none

/-- Whether a master requests a Lock (R394). -/
def requests (m l : Nat) : Bool :=
  match slotOfMaster m with
  | none => false
  | some r =>
    if r < 6 ∨ r = 17 then l ≤ 19
    else if r = 6 ∨ (9 ≤ r ∧ r ≤ 11) then l ≤ 15
    else if r = 7 ∨ (12 ≤ r ∧ r ≤ 16) then l ≤ 17
    else if r = 8 then l = 16 ∨ l = 17 ∨ l = 19
    else if r = 18 then (m = 32 ∧ l = 16) ∨ (m = 33 ∧ l = 17)
    else if r = 19 then l ≤ 17 ∨ l = 20
    else l = 20

/-- The slots that request a Lock (R394, R400). -/
def slotsOf (l : Nat) : List Nat :=
  (List.range 21).filter fun r => (List.range 42).any fun m => slotOfMaster m == some r && requests m l

/-- A slot's QUOTA and HOLD on a Lock; slot 19 takes PAIR's (R397). -/
def State.lockQuota (s : State) (l r : Nat) : Nat :=
  if r = 19 then s.g PAIR_COPY_LOCK_QUOTA else s.g LCK_REQ_QUOTA (dReq l r)
def State.lockHold (s : State) (l r : Nat) : Nat :=
  if r = 19 then s.g PAIR_COPY_LOCK_HOLD else s.g LCK_REQ_HOLD (dReq l r)

/-- Whether a slot is masked by its quota (R397). -/
def State.lockMasked (s : State) (l r : Nat) : Bool :=
  let q := s.lockQuota l r
  q ≠ 0 &&
    q ≤ ((s.lock l).grants.filter fun g => g.1 == r && s.fab < g.2 + s.g LCK_CFG_WINDOW (dLock l)).length

/-- The slot of a waiting request. -/
def waitSlot (x : Nat × Nat) : Nat := (slotOfMaster x.1).getD 31

/-- How far a slot lies above the last slot granted at its priority, wrapping (R395). -/
def State.roundDist (s : State) (l r : Nat) : Nat :=
  match AMap.find (s.lock l).last (s.g LCK_REQ_PRIO (dReq l r)) with
  | some k => (r + 31 - k) % 32
  | none => r

/-- Whether request `x` goes before request `y`: the state copy, then PRIO, then round-robin (R395). -/
def State.lockBefore (s : State) (l : Nat) (x y : Nat × Nat) : Bool :=
  let a := waitSlot x
  let b := waitSlot y
  let pa := s.g LCK_REQ_PRIO (dReq l a)
  let pb := s.g LCK_REQ_PRIO (dReq l b)
  if a = 19 then b ≠ 19 else if b = 19 then false
  else if pa ≠ pb then pb < pa else s.roundDist l a < s.roundDist l b

/-- The winner among the requests present (R395 to R397). -/
def State.lockWinner (s : State) (l : Nat) : Option (Nat × Nat) :=
  ((s.lock l).waiting.filter fun x => !s.lockMasked l (waitSlot x)).foldl (fun best x =>
    match best with
    | none => some x
    | some b => if s.lockBefore l x b then some x else best) none

/-- Grant a request: the holder, its wait, the round-robin place and the quota's count. -/
def State.lockGrant (s : State) (l : Nat) (x : Nat × Nat) : State :=
  let k := s.lock l
  let r := waitSlot x
  let prio := s.g LCK_REQ_PRIO (dReq l r)
  let wait := min (s.fab - x.2) 0xFFFF
  let s := ((s.p LCK_STATUS_BUSY (dLock l) 1).p LCK_STATUS_PARKED (dLock l) 0).p LCK_STATUS_HOLDER (dLock l) r
  let s := if s.g LCK_REQ_WAIT_MAX (dReq l r) < wait then s.p LCK_REQ_WAIT_MAX (dReq l r) wait else s
  s.setLock l { k with waiting := k.waiting.erase x, master := x.1, grantAt := s.fab,
                       last := if r = 19 then k.last else AMap.ins k.last prio r,
                       grants := k.grants ++ [(r, s.fab)] }

/-- Decide a free Lock (R395, R396): a winner is granted; a parked grant that only its holder asks for is renewed
without arbitration, and another's request ends the park also where its quota masks it. -/
def State.lockDecide (s : State) (l : Nat) : State :=
  if s.on LCK_STATUS_BUSY (dLock l) then s
  else
    let parked := s.on LCK_STATUS_PARKED (dLock l)
    let h := s.g LCK_STATUS_HOLDER (dLock l)
    match parked && (s.lock l).waiting.all (fun x => waitSlot x == h), (s.lock l).waiting with
    | true, x :: _ => s.lockGrant l x
    | _, _ => match s.lockWinner l with
      | some x => s.lockGrant l x
      | none => if parked && (s.lock l).waiting != [] then (s.p LCK_STATUS_PARKED (dLock l) 0).p LCK_STATUS_HOLDER (dLock l) 0
        else s

/-- LOCK_GRANT (R395): the named masters request in this cycle; a free Lock decides in it. -/
def execLockGrant (l : Fin 21) (masters : List (Fin 42)) (s : State) : Out' :=
  let new := (masters.map (·.val)).filter fun m => requests m l
  let k := s.lock l
  .next ((s.setLock l { k with waiting := k.waiting ++ new.map fun m => (m, s.fab) }).lockDecide l)

/-- The holder releases: the next grant is decided in this cycle; in PARK mode with no other request the grant stays
parked (R395, R396). -/
def State.lockRelease (s : State) (l : Nat) : State :=
  let s := s.p LCK_STATUS_BUSY (dLock l) 0
  let s := s.lockDecide l
  if s.on LCK_STATUS_BUSY (dLock l) then s
  else if s.on LCK_CFG_MODE (dLock l) ∧ (s.lock l).waiting = [] then s.p LCK_STATUS_PARKED (dLock l) 1
  else s.p LCK_STATUS_HOLDER (dLock l) 0

/-- LOCK_TRANSFER_END (R395). A Lock that nobody holds stays as it is. -/
def execLockTransferEnd (l : Fin 21) (s : State) : Out' :=
  .next (if s.on LCK_STATUS_BUSY (dLock l) then s.lockRelease l else s)

/-- What a cut-off does to a core's access (R127, R128, R398): a load raises DBUS at the fault; a posted store's error
response is taken at the next boundary. -/
def State.cutAccess (s : State) (a : Access) : State :=
  if a.master < 24 then
    if a.kind = 2 then
      let k := s.core a.master
      s.setCore a.master { k with postErr := k.postErr ++ [BitVec.ofNat 40 a.addr] }
    else if s.executes a.master then s.fail a.master ⟨xDBUS, some (BitVec.ofNat 40 a.addr)⟩ else s
  else s

/-- HOLD_CUTOFF (R398): a holder whose hold has reached HOLD is cut off. `addr` and `write` are the transfer's, which the
first-error capture records. -/
def execHoldCutoff (l : Fin 21) (addr : Addr) (write : Bool) (s : State) : Out' :=
  let r := s.g LCK_STATUS_HOLDER (dLock l)
  let k := s.lock l
  .next (if s.on LCK_STATUS_BUSY (dLock l) ∧ k.grantAt + s.lockHold l r ≤ s.fab then
    let acc : Access := ⟨addr.toNat, k.master, if write then 2 else 1⟩
    let s := (s.hw LCK_CUT_CUT (dLock l) (2 ^ r)).raise .lck LCK_HOLD_CUTOFF (some acc) l
    (s.cutAccess acc).lockRelease l
  else s)

/-- QUOTA_UNMASK (R397): grants that lie WINDOW cycles back count no more, and a free Lock decides again. -/
def execQuotaUnmask (l : Fin 21) (s : State) : Out' :=
  let k := s.lock l
  let w := s.g LCK_CFG_WINDOW (dLock l)
  .next ((s.setLock l { k with grants := k.grants.filter fun g => s.fab < g.2 + w }).lockDecide l)

end Sys2Proof.Machine
end

