-- ==== Sys2Proof/Machine/Admission.lean ====
section
/-! DEFINITION. The admission arithmetic of the timing contract (R25 to R29, R311, R344). Times are in units of
0.01 ns. Readings and choices: DESIGN CHOICE log 11; DEDUCED log 20. -/

namespace Sys2Proof.Machine

/-! ## The terms of a path (R25, R26) -/

/-- The Lock wait of a requester on a Lock, in fabric cycles (R26). -/
def State.lockWait (s : State) (l r : Nat) : Nat :=
  let pr := s.g LCK_REQ_PRIO (dReq l r)
  (((slotsOf l).filter (· != r)).map fun o =>
    if o ≠ 19 ∧ s.g LCK_REQ_PRIO (dReq l o) ≤ pr then s.lockHold l o else s.lockQuota l o * s.lockHold l o).sum

/-- L of a quay's slot over the four bank Locks of the Cargo area (R26, R146). -/
def State.cargoLock (s : State) (slot : Nat) : Nat :=
  let a := s.g NET_CARGO_CTRL_AREA
  listMax ((List.range 4).map fun b => s.lockWait (4 * a + b) slot)

/-- L of a path (R26): over the Cargo area's banks for any quay slot; for a CAN path the largest wait of the CAN DMA (slot
10) over the SRAM banks, in any of which its records may lie; for Drafting the largest wait on the job port's Lock 18 of a
slot that submits, a quay's or the host's. The flows of Beacon frames and of host commands pass no Lock. -/
def State.pathLock (s : State) (kind : Nat) : Nat :=
  if kind = kCARGO then listMax ((List.range 6).map s.cargoLock)
  else if kind = kCAN then listMax ((List.range 16).map fun b => s.lockWait b 10)
  else if kind = kDRAFT then listMax ([0, 1, 2, 3, 4, 5, 17].map fun r => s.lockWait 18 r)
  else 0

/-- The rate of a port in Mb/s (R306). -/
def rateMb (code : Nat) : Nat :=
  match code with
  | 0 => 10 | 1 => 100 | 2 => 1000 | 3 => 2500 | 4 => 5000 | 5 => 10000 | _ => 10
def State.portRate (s : State) (p : Nat) : Nat := rateMb (s.g NET_PORT_CTRL_RATE (dPort p))

/-- Service time of `n` octets at a port (R25). -/
def ethService (n rate : Nat) : Nat := (n + 20) * 800000 / rate

/-- The crossing from CLK_FAB into a port's CLK_NET (R17, R304). -/
def State.portCross (s : State) (p : Nat) : Nat :=
  if p < 2 ∧ 2 ≤ s.g NET_PORT_CTRL_IF (dPort p) then 2810 else 3450

/-- Nominal and data bit times of a controller, in units of 12.5 ns (R334). -/
def State.canTn (s : State) (n : Nat) : Nat :=
  let d := dCan n
  (s.g FBS_CTL_NBT_NBRP d + 1) * (3 + s.g FBS_CTL_NBT_NTSEG1 d + s.g FBS_CTL_NBT_NTSEG2 d)
def State.canTd (s : State) (n : Nat) : Nat :=
  let d := dCan n
  (s.g FBS_CTL_DBT_DBRP d + 1) * (3 + s.g FBS_CTL_DBT_DTSEG1 d + s.g FBS_CTL_DBT_DTSEG2 d)

/-- The bits of a CAN frame of `n` octets: nominal and data phase (R344). `form` is 0 classic, 1 FD, 2 XL. -/
def canBits (form : Nat) (ide : Bool) (n : Nat) : Nat × Nat :=
  if form = 0 then
    if ide then (67 + 8 * n + (53 + 8 * n) / 4, 0) else (47 + 8 * n + (33 + 8 * n) / 4, 0)
  else if form = 1 then
    (if ide then 57 else 34, 5 + 8 * n + (4 + 8 * n) / 4 + (if n ≤ 16 then 27 else 32))
  else (40, ceilDiv (11 * (8 * n + 116)) 10)

/-- Service time of a CAN path: the class's FORMAT, IDE and BRS are what the host declares of the path and no register
holds (R344); rounded up to 1 ns. -/
def State.canService (s : State) (p n size : Nat) : Nat :=
  let f := Config.canForm p
  let b := canBits (f % 3) (f / 3 % 2 == 1) size
  let td := if f % 3 = 1 ∧ f / 6 % 2 = 0 then s.canTn n else s.canTd n
  100 * ceilDiv ((b.1 * s.canTn n + b.2 * td) * 25) 2

/-- A path with its contract and terms. -/
structure PathTerm where
  path   : Nat
  kind   : Nat
  target : Nat
  prio   : Nat
  size   : Nat
  n      : Nat
  w      : Nat
  d      : Nat
  pre    : Nat
  cross  : Nat
  svc    : Nat

/-- The terms T_pre, T_x and T_svc of a path (R25). -/
def State.pathTerm (s : State) (p : Nat) : PathTerm :=
  let kind := s.pathKind p
  let t := s.pathTarget p
  let size := s.g SYS_CTR_SIZE_MAX_SIZE (dPath p)
  let a := if kind = kCARGO then 48 else if kind = kBEACON then 96 else if kind = kCAN then 40
    else if kind = kHOST then 32 else 64
  let pre := 250 * (a + ceilDiv size 32 + s.pathLock kind) + (if kind = kBEACON then 4000 + 80 * size else 0)
  let cross := if kind ≤ kBEACON then s.portCross t else if kind = kCAN then 5250 else if kind = kHOST then 1850 else 0
  let svc := if kind ≤ kBEACON then ethService size (s.portRate t) else if kind = kCAN then s.canService p t size
    else if kind = kHOST then 100 * size else 100 * (1000 * size + 2000)
  ⟨p, kind, t, s.pathPrio p, size, s.g SYS_CTR_RATE_MAX_ITEMS (dPath p), s.g SYS_CTR_RATE_WINDOW_US (dPath p),
    s.g SYS_CTR_BOUND_BOUND_NS (dPath p), pre, cross, svc⟩

/-- Whether two paths share a target: Cargo and Beacon both use the Ethernet ports (R21). -/
def PathTerm.shares (a b : PathTerm) : Bool :=
  (a.kind = b.kind ∨ (a.kind ≤ kBEACON ∧ b.kind ≤ kBEACON)) && a.target == b.target

def PathTerm.eth (a : PathTerm) : Bool := a.kind ≤ kBEACON

/-! ## The conditions (R27, R28) -/

/-- What a check sees: the live State, the view it judges (staged over live in PROOF), the stations, the paths. -/
structure AdmView where
  live : State
  view : State
  stns : List (Nat × List Byte)
  set  : List PathTerm

/-- The lists a check takes for a port: old lists and, where a change is judged or pending, the new one (R315). -/
def AdmView.lists (v : AdmView) (p : Nat) : List GList × Option GList :=
  if 4 ≤ p then ([⟨0, 0, []⟩], none)
  else
    let live := v.live.adminList p
    let new := v.view.adminList p
    let oper := v.live.operList p
    let pend := v.live.on NET_GCL_STATUS_PENDING (dPort p)
    if new ≠ live then (if pend then [oper, live] else [oper], some new)
    else if pend then ([oper], some live)
    else ([oper], none)

/-- The largest service time of a class on a port, in 0.01 ns. -/
def AdmView.classSvc (v : AdmView) (port c : Nat) : Nat :=
  listMax ((v.set.filter fun j => j.eth && j.target == port && j.prio == c).map (·.svc))

/-- The gate values of a class on a port. -/
def AdmView.vals (v : AdmView) (port c : Nat) : GateVals :=
  match v.lists port with
  | (olds, some n) => changeVals olds n c (ceilDiv (v.classSvc port c) 100)
  | (o :: _, none) => o.vals c
  | ([], none) => .open_

/-- Whether two classes' gates of a port are ever open together under the lists of the check. -/
def AdmView.overlap (v : AdmView) (port c d : Nat) : Bool :=
  let l := v.lists port
  (l.1 ++ l.2.toList).any fun x => x.overlap c d

/-- Blocking B(i) (R25, R311, R344). -/
def AdmView.blocking (v : AdmView) (i : PathTerm) : Nat :=
  let lower := v.set.filter fun j => j.shares i && decide (j.prio < i.prio)
  if i.eth then
    let d := dPort i.target
    let other := v.view.g NET_PORT_OTHER_OTHER_TC d
    let mine := listMax ((lower.filter fun j => v.overlap i.target i.prio j.prio).map (·.svc))
    max mine (if v.overlap i.target i.prio other then
      ethService (v.view.g NET_PORT_OTHER_OTHER_MAX d) (v.view.portRate i.target) else 0)
  else if i.kind = kCAN then
    max (listMax (lower.map (·.svc))) (v.view.g FBS_CTL_EXT_EXT_MAX_BITS (dCan i.target) * v.view.canTn i.target * 1250)
      + 8 * v.view.canTn i.target * 1250
  else listMax (lower.map (·.svc))

/-- Queue time Q(i) (R25). -/
def AdmView.queue (v : AdmView) (i : PathTerm) : Nat :=
  ((v.set.filter fun j => j.shares i && decide (i.prio ≤ j.prio)).map fun j => j.n * max j.svc j.pre).sum
    - max i.svc i.pre

/-- Gate wait G(i) (R27). -/
def AdmView.gate (v : AdmView) (i : PathTerm) : Nat :=
  if i.eth then
    let x := v.vals i.target i.prio
    if x.oMin.isNone && x.cMax == 0 then 0 else 100 * x.cMax + v.classSvc i.target i.prio
  else 0

/-- D_worst(i) in ns (R25). -/
def AdmView.worst (v : AdmView) (i : PathTerm) : Nat :=
  ceilDiv (1001 * (i.pre + i.cross + v.gate i + v.queue i + v.blocking i)) 100000

/-- The load Σ N × T_svc / (1,000 × W) of some paths. -/
def loadOf (l : List PathTerm) : Rat :=
  (l.map fun j => ((j.n * j.svc : Nat) : Rat) / ((100000 * j.w : Nat) : Rat)).sum

/-- Condition 2 (R28). -/
def AdmView.cond2 (v : AdmView) (i : PathTerm) : Bool :=
  let on := v.set.filter fun j => j.shares i
  decide (loadOf on ≤ 1) && (!i.eth ||
    decide (loadOf (on.filter fun j => j.prio == i.prio) ≤ (v.vals i.target i.prio).frac))

/-- Condition 3 (R28). -/
def AdmView.cond3 (v : AdmView) (i : PathTerm) : Bool :=
  if i.eth then
    match (v.vals i.target i.prio).oMin with
    | none => true
    | some o => ((v.set.filter fun j => j.shares i && j.prio == i.prio).map fun j => j.n * j.svc).sum ≤ 100 * o
  else true

/-- Condition 5 (R28): a Cargo stream's rate covers its task. -/
def AdmView.cond5 (v : AdmView) (i : PathTerm) : Bool :=
  let mine := v.stns.filter fun x => entPath x.2 == i.path && decide (0 < entOutLen x.2)
  match mine with
  | [] => true
  | x :: _ =>
    i.kind ≠ kCARGO || (2 * mine.length ≤ i.n &&
      i.w ≤ 10 * v.view.g BRN_TASK_PERIOD_VALUE (dTask (entQuay x.2) (entTask x.2)))

/-- How many paths of a kind may be enabled at once (R20). -/
def kindLimit (k : Nat) : Nat :=
  if k = kCARGO then 256 else if k = kBEACON then 16 else if k = kCAN then 64 else if k = kHOST then 16 else 8

/-- The range of an item's size by kind (R20), and of the target (R21). -/
def sizeOk (k n : Nat) : Bool :=
  if k ≤ kBEACON then 64 ≤ n && n ≤ 1518 else if k = kCAN then n ≤ 2048
  else if k = kHOST then 1 ≤ n && n ≤ 10000000 else 1 ≤ n && n ≤ 4000000
def targetRange (k t : Nat) : Bool :=
  if k ≤ kBEACON then t ≤ 4 else if k = kCAN then t ≤ 7 else if k = kHOST then t ≤ 15 else t = 0

/-- Whether a path has the terms of condition 1: a KIND and a TARGET that exist, and a BOUND, of which 0 is refused with
0x045 (SYS_CTR_BOUND). -/
def PathTerm.hasTerms (i : PathTerm) : Bool := i.kind ≤ kDRAFT && targetRange i.kind i.target && 1 ≤ i.d

/-- Whether a path's own fields lie in their ranges (R20, R21). -/
def PathTerm.inRange (i : PathTerm) : Bool :=
  i.hasTerms && sizeOk i.kind i.size && 1 ≤ i.n && i.n ≤ (if i.kind = kCAN then 32 else 256) && 1 ≤ i.w && i.w ≤ 1000000

/-- Whether every field of a path lies in its range, and its kind's count is kept (R20, R21, R28, R311, R340). -/
def AdmView.cond6 (v : AdmView) (i : PathTerm) : Bool :=
  i.inRange &&
    (v.set.filter fun j => j.kind == i.kind).length ≤ kindLimit i.kind &&
    (i.kind ≠ kCAN || (v.set.filter fun j => j.kind == i.kind && j.target == i.target).length ≤ 8) &&
    (!(i.eth && decide (i.target < 4)) || v.view.g NET_PORT_OTHER_OTHER_TC (dPort i.target) < i.prio)

/-- The MAX_ITEMS of the enabled Drafting paths together, path `i` included (R199). -/
def AdmView.draftItems (v : AdmView) (i : PathTerm) : Nat :=
  ((v.set.filter fun j => j.kind == kDRAFT && (j.path == i.path || v.live.pathOn j.path)).map (·.n)).sum

/-- The first failing condition of a path, in the order of R28. A path without the terms of condition 1, or the quotient of
condition 2 (W 0), is out of range there. `own`: the path is the one being enabled; of a Drafting path R199 then asks that
the MAX_ITEMS of such paths fit the job slots. -/
def AdmView.fails (v : AdmView) (own : Bool) (i : PathTerm) : Option Nat :=
  if !i.hasTerms then some 0x045
  else if i.d < v.worst i then some (if own then 0x040 else 0x041)
  else if i.w = 0 then some 0x045
  else if !v.cond2 i then some 0x042
  else if !v.cond3 i then some 0x043
  else if 1000 * i.w < i.d then some 0x044
  else if !v.cond5 i then some 0x04E
  else if !v.cond6 i then some 0x045
  else if own && !v.view.targetOk i.kind i.target then some 0x046
  else if own && i.kind == kDRAFT && decide (64 < v.draftItems i) then some 0x30A
  else none

/-- The set of a check: every path enabled or draining, and the one being enabled (R22). -/
def State.admSet (s : State) (own : Option Nat) : List PathTerm :=
  ((List.range 512).filter fun p => s.pathOn p || s.draining p || own == some p).map s.pathTerm

/-- The stations as a view sees them: a staged table is read from shared SRAM (R153). -/
def State.viewStations (live view : State) : List (Nat × List Byte) :=
  if live.on NET_CARGO_CTRL_ENABLE then
    let b := view.g NET_CARGO_TABLE_BASE
    if b = live.g NET_CARGO_TABLE_BASE then live.liveStations else live.tableStations b
  else []

def admView (live view : State) (own : Option Nat) : AdmView :=
  ⟨live, view, live.viewStations view, view.admSet own⟩

/-- The check of R22: the path being enabled first, then the others in ascending order. The failing code and path. -/
def AdmView.check (v : AdmView) (own : Option Nat) : Option (Nat × Nat) :=
  let test : Bool → PathTerm → Option (Nat × Nat) := fun o i => (v.fails o i).map fun c => (c, i.path)
  let mine : List PathTerm := v.set.filter fun i => own == some i.path
  let others : List PathTerm := v.set.filter fun i => own != some i.path
  match mine.findSome? (test true) with
  | some x => some x
  | none => others.findSome? (test false)

/-- SYS_CTR_WORST of every path of the set takes its D_worst (R22). -/
def AdmView.writeWorst (v : AdmView) (s : State) : State :=
  v.set.foldl (fun s i => s.p SYS_CTR_WORST_WORST_NS (dPath i.path) (v.worst i)) s

/-- The test of R29 of a change: `view` is the State with the change made. Answers whether it is admitted, the State
with WORST or the refusal recorded. -/
def State.admitChange (live view : State) : Bool × State :=
  let v := admView live view none
  match v.check none with
  | none => (true, v.writeWorst live)
  | some (_, p) =>
    (false, (live.p SYS_CTR_CHECK_LAST_REFUSAL 0 0x04B).p SYS_CTR_CHECK_PATH 0 p)

end Sys2Proof.Machine
end

