-- ==== Sys2Proof/Machine/GravMath.lean ====
section
/-! DEFINITION. Exact dyadic values and the Graver's rounding (R174, R175). Readings and choices: DEDUCED log 44. -/

namespace Sys2Proof.Machine

/-- Integer quotient rounded to nearest, ties to even. -/
def divEven (a : Int) (b : Nat) : Int :=
  let q := a / b
  let r := a % b
  if 2 * r > b ∨ (2 * r = b ∧ q % 2 = 1) then q + 1 else q

/-- A value mantissa × 2^exponent. -/
abbrev Dy := Int × Int

/-- The mantissa at a lower exponent. -/
def Dy.at_ (x : Dy) (e : Int) : Int := x.1 * 2 ^ (x.2 - e).toNat

/-- Exact sum and difference. -/
def Dy.add (x y : Dy) : Dy := let e := min x.2 y.2; (x.at_ e + y.at_ e, e)
def Dy.neg (x : Dy) : Dy := (-x.1, x.2)
def Dy.sub (x y : Dy) : Dy := x.add y.neg

/-- round(v × 2^−E), to nearest with ties to even. -/
def Dy.round (x : Dy) (e : Int) : Int :=
  if e ≤ x.2 then x.at_ e else divEven x.1 (2 ^ (e - x.2).toNat)

def grvMax : Int := 2 ^ 30 - 1

def Dy.fits (x : Dy) (e : Int) : Bool := let m := x.round e; -grvMax ≤ m && m ≤ grvMax

/-- fitexp of a set: the smallest exponent at which every mantissa fits, and whether none does (R175). -/
def fitexp (l : List Dy) : Int × Bool :=
  match (List.range 256).find? fun i => l.all fun x => x.fits ((i : Int) - 128) with
  | some i => ((i : Int) - 128, false)
  | none => (127, true)

/-- The mantissa of a value at an exponent, saturated. -/
def Dy.mant (x : Dy) (e : Int) : Int := max (-grvMax) (min grvMax (x.round e))

end Sys2Proof.Machine
end

