-- ==== Sys2Proof/Machine/Graver.lean ====
section
/-! DEFINITION. The Graver loop engine (R168 to R198). Readings and choices: DEDUCED log 44. -/

namespace Sys2Proof.Machine

def dCtx (c : Nat) : Nat := 0x100 * c
def dGrp (g : Nat) : Nat := 0x10 * g
def dTab (t : Nat) : Nat := 0x20 * t

/-- A register's 32 bits as a signed number. -/
def State.gs (s : State) (f : Fld) (d : Nat := 0) : Int := toSigned f.w (s.g f d)

/-- Give a field the low bits of an integer. -/
def State.ps (s : State) (f : Fld) (d : Nat) (v : Int) : State := s.p f d (ofSigned f.w v)

def State.gctx (s : State) (c : Nat) : GrvCtx := AMap.get {} s.grv.ctx c
def State.setGctx (s : State) (c : Nat) (x : GrvCtx) : State :=
  { s with grv := { s.grv with ctx := AMap.set {} s.grv.ctx c x } }

def State.ctxOn (s : State) (c : Nat) : Bool := s.on GRV_CTX_CTRL_ENABLE (dCtx c)

/-! ## Ports (R184, R185) -/

def portK (w : Nat) : Nat := bits w 30 2
def portUnit (w : Nat) : Nat := bits w 20 4
def portOff (w : Nat) : Nat := bits w 0 20

def dEnc (n : Nat) : Nat := 0x20 * n
def dPwm (n : Nat) : Nat := 0x20 * n

/-- What a port of KIND 1 to 3 reads: an image word or halfword, with a standby's overlay, or an encoder position. -/
def State.readPort (s : State) (w : Nat) : Int :=
  let key := imageKey (portUnit w) (portOff w)
  if portK w = 1 then toSigned 32 (leNat (s.lrbs (portUnit w) key 4))
  else if portK w = 2 then toSigned 16 (leNat (s.lrbs (portUnit w) key 2))
  else s.gs PIO_ENC_POS_COUNT (dEnc (portUnit w))

/-- Whether a port's word cannot be reached: its quay's domain is gated, which ends the access in an error response (DESIGN
CHOICE log 44). -/
def State.portDead (s : State) (w : Nat) : Bool := (portK w = 1 || portK w = 2) && s.gated (portUnit w)

/-- Whether a read of a port ends in an error response or meets an uncorrectable error (R196). -/
def State.portBad (s : State) (w : Nat) : Bool :=
  s.portDead w || ((portK w = 1 || portK w = 2) && s.eccUncorr (imageKey (portUnit w) (portOff w)) (if portK w = 1 then 4 else 2))

/-- The access that a Graver fault records: the image word, in the cores' view, by master 27. -/
def grvAccess (w kind : Nat) : Access := ⟨0x20100000 + portOff w, 27, kind⟩

/-! ## Release (R168 to R170, R173, R183) -/

/-- The settings a sample takes at its release. -/
def State.grvCfg (s : State) (c : Nat) : GrvCfg :=
  let d := dCtx c
  { form := s.g GRV_CTX_CFG_FORM d, group := s.g GRV_CTX_CFG_GROUP d, ffOn := s.on GRV_CTX_CFG_FF_ON d,
    table := s.g GRV_CTX_CFG_FF_TABLE d, sign := s.g GRV_CTX_CFG_FF_SIGN d, wrap := s.on GRV_CTX_CFG_FF_WRAP d,
    ei := s.gs GRV_CTX_CFG_EI d, ex := s.gs GRV_CTX_CFG_EX d, out := s.g GRV_CTX_OUT_PORT d,
    grpOut := s.g GRV_GRP_OUT_PORT (dGrp (s.g GRV_CTX_CFG_GROUP d - 1)) }

def dHist (c j : Nat) : Nat := dCtx c + 4 * j

/-- A change of FORM (R183): E3 and U3 take the values of E2 and U2, or are dropped. -/
def State.changeForm (s : State) (c old new : Nat) : State :=
  if old = new then s
  else if new = 1 then
    (s.p GRV_CTX_HIST_MANTISSA (dHist c 2) (s.g GRV_CTX_HIST_MANTISSA (dHist c 1))).p GRV_CTX_HIST_MANTISSA (dHist c 6)
      (s.g GRV_CTX_HIST_MANTISSA (dHist c 5))
  else (s.p GRV_CTX_HIST_MANTISSA (dHist c 2) 0).p GRV_CTX_HIST_MANTISSA (dHist c 6) 0

/-- The words that a context's ports read (R184): SP, MEAS, and FFPOS where it is a port of its own. -/
def State.inputPorts (s : State) (c : Nat) : List Nat :=
  [s.g GRV_CTX_SP_PORT (dCtx c), s.g GRV_CTX_MEAS_PORT (dCtx c), s.g GRV_CTX_FFPOS_PORT (dCtx c)]

/-- A context is released: its inputs are read, or the release is dropped as an overrun (R170, R173); a read that fails skips
the sample (R196). SETPOINT is read at the sample start (R180). -/
def State.ctxRelease (s : State) (c : Nat) : State :=
  let d := dCtx c
  if s.on GRV_CTRL_ENABLE && s.ctxOn c && s.mode != PROVISION then
    let x := s.gctx c
    if x.phase ≠ .none then (s.incSat GRV_CTX_OVERRUNS_COUNT d).raise .grv GRV_SAMPLE_OVERRUN none c
    else
      let cfg := s.grvCfg c
      let spPort := s.g GRV_CTX_SP_PORT d
      let posPort := s.g GRV_CTX_FFPOS_PORT d
      let sp := if portK spPort = 0 then 0 else s.readPort spPort
      let meas := s.readPort (s.g GRV_CTX_MEAS_PORT d)
      let pos := if portK posPort = 0 then meas else s.readPort posPort
      match (s.inputPorts c).find? s.portBad with
      | some w => s.raise .grv GRV_INPUT_ERR (some (grvAccess w 1)) c
      | none =>
        (s.changeForm c x.form cfg.form).setGctx c
          { x with phase := .released, relAt := s.tide, mode := s.mode, cfg := cfg, sp := sp, spLive := portK spPort == 0,
                   meas := meas, pos := pos, form := cfg.form }
  else s

/-- The contexts released with a context: itself, or the enabled members of its group, which are always released together
(R188). -/
def State.releasedWith (s : State) (c : Nat) : List Nat :=
  let g := s.g GRV_CTX_CFG_GROUP (dCtx c)
  if g = 0 then [c]
  else (List.range 128).filter fun m => m == c || (s.ctxOn m && s.g GRV_CTX_CFG_GROUP (dCtx m) == g)

/-- CONTEXT_RELEASE (R168): a release instant of the context, (T − 1,000 PHASE_US) a multiple of 1,000 PERIOD_US, in the fabric
cycle in which Tide time first is at or after it; in another cycle, or a second time, nothing is released. -/
def execContextRelease (c : Fin 128) (s : State) : Out' :=
  let d := dCtx c
  .next (if s.atInstant (64 + c.val) (1000 * s.g GRV_CTX_PERIOD_VALUE d) (1000 * s.g GRV_CTX_PHASE_VALUE d) then
    (s.releasedWith c).foldl (fun s m => (s.takeInstant (64 + m)).ctxRelease m) s
  else s)

/-! ## The sample (R175 to R179, R190, R191) -/

/-- Entry `i` of bank `b` of table `t`, in the table window. -/
def ffAddr (t b i : Nat) : Nat := winBase + 0x480000 + 0x1000 * (2 * t + b) + 4 * i
def State.ffEntry (s : State) (t b i : Nat) : Int := toSigned 32 (s.rle (ffAddr t b i) 4)

/-- The 32-bit table phase of a position (R190). -/
def ffPhase (p x0 : Int) (xmul modulus : Nat) (wrap : Bool) : Nat :=
  let d := p - x0
  if wrap then
    let m : Nat := if modulus = 0 then 2 ^ 24 else modulus
    Int.toNat (d % (m : Int)) * xmul % 2 ^ 32
  else Int.toNat (min (max (d * (xmul : Int)) 0) (2 ^ 32 - 1))

/-- The feed-forward value of a sample (R190, R191). -/
def State.ffValue (s : State) (c : Nat) (x : GrvCtx) (e : Int) (seeded : Bool) : Dy :=
  if x.cfg.ffOn then
    let d := dCtx c
    let t := x.cfg.table
    let b := s.g GRV_FF_CTRL_ACTIVE_BANK (dTab t)
    let q := ffPhase x.pos (s.gs GRV_CTX_FF_X0_VALUE d) (s.g GRV_CTX_FF_XMUL_VALUE d) (s.g GRV_CTX_FF_MOD_VALUE d)
      x.cfg.wrap
    let i : Nat := q / 2 ^ 22
    let f : Nat := q % 2 ^ 22
    let j := if i = 1023 then (if x.cfg.wrap then 0 else 1023) else i + 1
    let a := s.ffEntry t b i
    let y := divEven (a * 2 ^ 22 + (s.ffEntry t b j - a) * (f : Int)) (2 ^ 22)
    let et := toSigned 8 (if b = 0 then s.g GRV_FF_EXP_EXP0 (dTab t) else s.g GRV_FF_EXP_EXP1 (dTab t))
    let sgn : Int := if x.cfg.sign = 0 then 1 else if x.cfg.sign = 1 then e.sign
      else if seeded then (x.pos - x.prevPos).sign else 0
    (sgn * y, et)
  else (0, 0)

/-- History members as values at E_STATE: E1 to EK, U1 to UK. -/
def State.histVals (s : State) (c k base : Nat) : List Dy :=
  let es := s.gs GRV_CTX_EXPS_E_STATE (dCtx c)
  (List.range k).map fun j => (s.gs GRV_CTX_HIST_MANTISSA (dHist c (base + j)), es)

/-- Coefficient `j` (B0 to B3, A1 to A3) of the active set, and the set's EXP. -/
def State.coef (s : State) (c j : Nat) : Int :=
  s.gs GRV_CTX_COEF_MANTISSA (dCtx c + 0x20 * s.g GRV_CTX_LIVE_ACTIVE_SET (dCtx c) + 4 * j)
def State.coefExp (s : State) (c : Nat) : Int :=
  s.gs GRV_CTX_COEF_EXP_EXP (dCtx c + 0x20 * s.g GRV_CTX_LIVE_ACTIVE_SET (dCtx c))

/-- Saturation to 32 bits signed. -/
def sat32 (x : Int) : Int := max (-2 ^ 31) (min (2 ^ 31 - 1) x)

/-- Sum of products of coefficient and working mantissas. -/
def dot : List (Int × Int) → Int
  | [] => 0
  | x :: t => x.1 * x.2 + dot t

/-- A context's arithmetic up to its candidate (R178). -/
def State.candidate (s : State) (c : Nat) : State :=
  let d := dCtx c
  let x := s.gctx c
  let k := if x.cfg.form = 0 then 2 else 3
  let seeded := s.on GRV_CTX_STATUS_SEEDED d
  let sp := if x.spLive then s.gs GRV_CTX_SETPOINT_VALUE d else x.sp
  let e : Dy := (sp - x.meas, x.cfg.ei)
  let ff := s.ffValue c x e.1 seeded
  let lo := s.gs GRV_CTX_OUT_MIN_VALUE d
  let hi := s.gs GRV_CTX_OUT_MAX_VALUE d
  let off := s.gs GRV_CTX_OUT_OFFSET_VALUE d
  let trk := min (max (s.gs GRV_CTX_TRACK_VAL_VALUE d) lo) hi
  let track := s.on GRV_CTX_LIVE_TRACK d
  let hist := s.histVals c k 0 ++ s.histVals c k 4
  let ew := fitexp (e :: hist)
  let m := hist.map fun v => v.mant ew.1
  let bs := (List.range k).map fun j => (s.coef c (j + 1), m.getD j 0)
  let as_ := (List.range k).map fun j => (s.coef c (j + 4), m.getD (k + j) 0)
  let acc := s.coef c 0 * e.mant ew.1 + dot bs + dot as_
  let u : Dy := if seeded then (acc, s.coefExp c + ew.1) else Dy.sub (trk - off, x.cfg.ex) ff
  let raw := sat32 ((u.add ff).round x.cfg.ex + off)
  let cand := if seeded && !track then min (max raw lo) hi else trk
  let eo := fitexp [u]
  let s := (s.ps GRV_CTX_UOUT_MANTISSA d (u.mant eo.1)).ps GRV_CTX_EXPS_E_OUT d eo.1
  let s := if seeded then s.ps GRV_CTX_EXPS_E_WORK d ew.1 else s
  let s := if eo.2 || (seeded && ew.2) then s.hw GRV_CTX_STATUS_SAT d 1 else s
  let live := seeded && !track
  let up := live && decide (hi < raw)
  let down := live && decide (raw < lo)
  let rise := (up && !s.on GRV_CTX_STATUS_CLAMP_HI d) || (down && !s.on GRV_CTX_STATUS_CLAMP_LO d)
  let s := (s.p GRV_CTX_STATUS_CLAMP_HI d (bit up)).p GRV_CTX_STATUS_CLAMP_LO d (bit down)
  let s := if rise then
      s.snapFire (fun n => s.g LOG_SNAP_CFG_TRIG (0x100 * n) = 2 && s.g LOG_SNAP_CFG_SEL (0x100 * n) = c) c
    else s
  s.setGctx c { x with phase := .candidate, cand := cand, own := live, track := track, off := off, err := e, ff := ff,
                       seeded := seeded, reseed := false }

/-- A context takes the applied value into its state set (R178). A RESEED written since its sample start leaves SEEDED 0, so that the
first sample after it seeds (R179). -/
def State.finishSample (s : State) (c : Nat) (a : Int) (won : Bool) : State :=
  let d := dCtx c
  let x := s.gctx c
  let k := if x.cfg.form = 0 then 2 else 3
  let seeded := x.seeded
  let v : Dy := Dy.sub (a - x.off, x.cfg.ex) x.ff
  let es := if seeded then x.err :: (s.histVals c k 0).take (k - 1) else List.replicate k x.err
  let us := if seeded then v :: (s.histVals c k 4).take (k - 1) else List.replicate k v
  let fe := fitexp (es ++ us)
  let put := fun (s : State) (base : Nat) (l : List Dy) =>
    l.zipIdx.foldl (fun s y => s.ps GRV_CTX_HIST_MANTISSA (dHist c (base + y.2)) (Dy.mant y.1 fe.1)) s
  let s := (put (put s 0 es) 4 us).ps GRV_CTX_EXPS_E_STATE d fe.1
  let s := if seeded then s else s.ps GRV_CTX_EXPS_E_WORK d fe.1
  let s := if fe.2 then s.hw GRV_CTX_STATUS_SAT d 1 else s
  let tracking := !x.own || a != x.cand
  let s := ((s.p GRV_CTX_STATUS_SEEDED d (bit (!x.reseed))).p GRV_CTX_STATUS_TRACKING d (bit tracking)).p GRV_CTX_STATUS_WON d (bit won)
  (s.ps GRV_CTX_APPLIED_VALUE d a).setGctx c { s.gctx c with phase := .result, prevPos := x.pos }

/-- The contexts of a group whose samples stand in a phase. -/
def State.groupIn (s : State) (g : Nat) (ph : SamplePhase) : List Nat :=
  s.grv.ctx.filterMap fun x => if x.2.cfg.group = g ∧ x.2.phase = ph then some x.1 else none

/-- The group's result (R189): the smallest candidate among the members that do not track, or the lowest member's. -/
def State.groupWinner (s : State) (ms : List Nat) : Option Nat :=
  let comp := ms.filter fun c => !(s.gctx c).track
  if comp.isEmpty then ms.head?
  else comp.foldl (fun b c => match b with
    | some w => if (s.gctx c).cand < (s.gctx w).cand then some c else some w
    | none => some c) none

/-- The result of group `g` (1 to 32) once no member's sample is still to be served (R189). -/
def State.groupResult (s : State) (g : Nat) : State :=
  let ms := s.groupIn g .candidate
  if (s.groupIn g .released).isEmpty then
    match s.groupWinner ms with
    | none => s
    | some w =>
      let a := (s.gctx w).cand
      let mode := (s.gctx w).mode
      let port := (s.gctx w).cfg.grpOut
      let s := ms.foldl (fun s c => s.finishSample c a (c == w)) s
      let d := dGrp (g - 1)
      let s := ((s.p GRV_GRP_STATUS_VALID d 1).p GRV_GRP_STATUS_WINNER d w).ps GRV_GRP_APPLIED_VALUE d a
      { s with grv := { s.grv with writes := s.grv.writes ++ [(true, g - 1, a, mode, port)] } }
  else s

/-- The place of a released sample in the pipeline (R170): its release, its group's lowest member, its number. -/
def State.samplePlace (s : State) (c : Nat) : Nat × Nat × Nat :=
  let x := s.gctx c
  let g := x.cfg.group
  let lead := if g = 0 then c else ((s.groupIn g .released ++ s.groupIn g .candidate).foldl min c)
  (x.relAt, lead, c)

def placeBefore (a b : Nat × Nat × Nat) : Bool :=
  a.1 < b.1 || (a.1 == b.1 && (a.2.1 < b.2.1 || (a.2.1 == b.2.1 && a.2.2 < b.2.2)))

/-- The sample that the pipeline serves next. -/
def State.nextSample (s : State) : Option Nat :=
  s.grv.ctx.foldl (fun b x =>
    if x.2.phase = .released then
      match b with
      | some c => if placeBefore (s.samplePlace x.1) (s.samplePlace c) then some x.1 else b
      | none => some x.1
    else b) none

/-- Whether a sample finds an uncorrectable error in the context's coefficients and state, or in its table (R196). -/
def State.sampleBad (s : State) (c : Nat) : Bool :=
  let x := s.gctx c
  s.eccIn (.context c) || (x.cfg.ffOn && s.eccUncorr (ffAddr x.cfg.table (s.g GRV_FF_CTRL_ACTIVE_BANK (dTab x.cfg.table)) 0) 4096)

/-- A sample is skipped: nothing is written, and the state stays (R196). -/
def State.skipSample (s : State) (c : Nat) : State :=
  let s := s.raise .grv GRV_ECC_UNCORR none c
  s.setGctx c { s.gctx c with phase := .none }

/-- SAMPLE_START (R178): the pipeline serves the next sample in order of release. -/
def execSampleStart (s : State) : Out' :=
  .next (match s.nextSample with
    | none => s
    | some c =>
      let bad := s.sampleBad c
      let s := if bad then s.skipSample c else s.candidate c
      let x := s.gctx c
      if x.cfg.group ≠ 0 then s.groupResult x.cfg.group
      else if bad then s
      else
        let s := s.finishSample c x.cand false
        { s with grv := { s.grv with writes := s.grv.writes ++ [(false, c, x.cand, x.mode, x.cfg.out)] } })

/-- Write an applied value to a port (R185, R186): whether it saturated. -/
def State.writePort (s : State) (w : Nat) (a : Int) (mode : Nat) : Bool × State :=
  let q := portUnit w
  let o := portOff w
  if portK w = 1 then (false, s.lwbs q (o / 64 * 64) (imageKey q o) (leBytes 4 (ofSigned 32 a)))
  else if portK w = 2 then
    let v := max (-32768) (min 32767 a)
    (v != a, s.lwbs q (o / 64 * 64) (imageKey q o) (leBytes 2 (ofSigned 16 v)))
  else if portK w = 3 then
    let v := max 0 (min 65536 a)
    (v != a, if mode = STANDBY ∨ mode = SAFE then s else s.p PIO_PWM_DUTY_DUTY (dPwm q) v.toNat)
  else (false, s)

/-- SAMPLE_OUTPUT_WRITE (R185): the oldest result that waits is written; its samples are complete. A write that ends in an
error response is a fault; the state has advanced all the same (R196). -/
def execSampleOutputWrite (s : State) : Out' :=
  .next (match s.grv.writes with
    | [] => s
    | (grp, n, a, mode, port) :: rest =>
      let s := { s with grv := { s.grv with writes := rest } }
      let ms := if grp then s.groupIn (n + 1) .result else [n]
      let r := if s.portDead port then (false, s.raise .grv GRV_OUTPUT_ERR (some (grvAccess port 2)) n)
        else s.writePort port a mode
      ms.foldl (fun s c =>
        let s := if r.1 then s.hw GRV_CTX_STATUS_SAT (dCtx c) 1 else s
        (s.inc GRV_CTX_SAMPLES_COUNT (dCtx c)).setGctx c { s.gctx c with phase := .none }) r.2)

/-! ## Live settings and tables (R179, R182, R192, R193) -/

/-- COEF_SET_SWITCH (R182). -/
def execCoefSetSwitch (c : Fin 128) (set : Bool) (s : State) : Out' :=
  .next (s.command fun s => s.p GRV_CTX_LIVE_ACTIVE_SET (dCtx c) (bit set))

/-- A context is to be seeded at its next sample (R179), also where one of its samples runs. -/
def State.reseed (s : State) (c : Nat) : State :=
  let s := s.p GRV_CTX_STATUS_SEEDED (dCtx c) 0
  if (s.gctx c).phase = .candidate then s.setGctx c { s.gctx c with reseed := true } else s

/-- RESEED (R179). -/
def execReseed (c : Fin 128) (s : State) : Out' := .next (s.command fun s => s.reseed c)

def ffREBUILDING : Nat := 1
def ffREADY : Nat := 2
def ffFAILED : Nat := 3

/-- REBUILD (R192, R198). -/
def State.ffRebuild (s : State) (t : Nat) : State :=
  let d := dTab t
  let src := s.g GRV_FF_SRC_ADDR d
  if s.on GRV_CTRL_ENABLE = false then s.p GRV_FF_CTRL_REFUSAL d 0x011
  else if s.g GRV_FF_CTRL_SHADOW d = ffREBUILDING ∨ src % 64 ≠ 0 ∨ inSram src 4100 = false then
    s.p GRV_FF_CTRL_REFUSAL d 0x208
  else { s with grv := { s.grv with srcs := AMap.set 0 s.grv.srcs t src } }.p GRV_FF_CTRL_SHADOW d ffREBUILDING

/-- GRV_REBUILD (R192). -/
def execGrvRebuild (t : Fin 16) (s : State) : Out' := .next (s.command fun s => s.ffRebuild t)

/-- The source has been read: the shadow bank takes it, or the rebuild fails (R192, R196). A read of a word that cannot be
corrected ends in an error response too (R469). -/
def State.ffRebuildEnd (s : State) (t : Nat) (readErr : Bool) : State :=
  let d := dTab t
  let src := AMap.get 0 s.grv.srcs t
  let ecc := s.eccUncorr src 4100
  let s := (if ecc then s.memUncorr src 27 else s).eccSeen src 4100
  let b := 1 - s.g GRV_FF_CTRL_ACTIVE_BANK d
  let last := s.rle (src + 4096) 4
  if readErr || ecc then (s.p GRV_FF_CTRL_SHADOW d ffFAILED).raise .grv GRV_REBUILD_ERR (some ⟨src, 27, 1⟩) t
  else if last / 256 ≠ 0 then s.p GRV_FF_CTRL_SHADOW d ffFAILED
  else
    let s := s.wbsEcc (ffAddr t b 0) (s.rbs src 4096)
    let s := { s with grv := { s.grv with filled := (2 * t + b) :: s.grv.filled.filter (· != 2 * t + b) } }
    let s := s.p (if b = 0 then GRV_FF_EXP_EXP0 else GRV_FF_EXP_EXP1) d last
    s.p GRV_FF_CTRL_SHADOW d ffREADY

/-- GRV_REBUILD_END (R192): `readErr` where a read ended with an error response. -/
def execGrvRebuildEnd (t : Fin 16) (readErr : Bool) (s : State) : Out' :=
  .next (if s.g GRV_FF_CTRL_SHADOW (dTab t) = ffREBUILDING then s.ffRebuildEnd t readErr else s)

/-- A write of ACTIVE_BANK (R193): ACTIVE_EMPTY then tells of the bank it names. -/
def State.ffSwap (s : State) (t bank : Nat) : State :=
  let d := dTab t
  if s.g GRV_FF_CTRL_ACTIVE_BANK d = bank then s
  else if s.g GRV_FF_CTRL_SHADOW d ≠ ffREADY then s.p GRV_FF_CTRL_REFUSAL d 0x207
  else (s.p GRV_FF_CTRL_ACTIVE_BANK d bank).p GRV_FF_CTRL_ACTIVE_EMPTY d
    (bit (!s.grv.filled.contains (2 * t + bank)))

/-- GRV_BANK_SWAP (R193). -/
def execGrvBankSwap (t : Fin 16) (bank : Bool) (s : State) : Out' := .next (s.command fun s => s.ffSwap t (bit bank))

/-! ## Checks (R172, R188, R194, R198) -/

/-- A check's refusal: its code and the registers it may hold responsible, by offset. -/
abbrev Chk := Option (Nat × List Nat)

/-- The first refusal of a list of tests in order. -/
def firstFail (l : List (Bool × Nat × List Nat)) : Chk := (l.find? (·.1)).map (·.2)

/-- Whether a port word is in range: role 0 SP, 1 MEAS, 2 FFPOS, 3 OUT (R184). -/
def portRange (role w : Nat) : Bool :=
  bits w 24 6 == 0 &&
    (if portK w = 0 then portUnit w == 0 && portOff w == 0 && role != 1
     else if portK w = 1 then portUnit w < 6 && portOff w % 4 == 0
     else if portK w = 2 then portUnit w < 6 && portOff w % 2 == 0
     else portOff w == 0)

/-- Whether the block that a port names is enabled: PIO, or the quay (R198). An image port of UNIT 6 to 15 names no quay: its UNIT is
out of range. -/
def State.portNeeds (s : State) (w : Nat) : Bool :=
  if portK w = 0 then true
  else if portK w = 3 then s.on PIO_CTRL_ENABLE
  else 6 ≤ portUnit w || s.on BRN_QUAY_CTRL_ENABLE (dQuay (portUnit w))

/-- Whether two output ports write one word, halfword or channel. -/
def portsClash (a b : Nat) : Bool :=
  let size := fun w => if portK w = 1 then 4 else 2
  if portK a = 0 ∨ portK b = 0 then false
  else if portK a = 3 ∨ portK b = 3 then portK a == portK b && portUnit a == portUnit b
  else portUnit a == portUnit b && portOff a < portOff b + size b && portOff b < portOff a + size a

/-- The output ports of the enabled contexts and groups, with who they are. -/
def State.outPorts (s : State) : List (Nat × Nat) :=
  ((List.range 128).filterMap fun c => if s.ctxOn c then some (c, s.g GRV_CTX_OUT_PORT (dCtx c)) else none) ++
    (List.range 32).filterMap fun g =>
      if s.on GRV_GRP_CTRL_ENABLE (dGrp g) then some (128 + g, s.g GRV_GRP_OUT_PORT (dGrp g)) else none

/-- Whether a limit lies in a destination's range. -/
def limitOk (port : Nat) (v : Int) : Bool :=
  if portK port = 2 then -32768 ≤ v && v ≤ 32767 else if portK port = 3 then 0 ≤ v && v ≤ 65536 else true

/-- L of the Graver: the largest over the bank Locks of shared SRAM (R171). -/
def State.grvLock (s : State) : Nat := listMax ((List.range 16).map fun l => s.lockWait l 6)

/-- The enabled contexts; the enabled groups with an enabled member. -/
def State.ctxsOn (s : State) : List Nat := (List.range 128).filter s.ctxOn
def State.membersOf (s : State) (g : Nat) : List Nat :=
  s.ctxsOn.filter fun c => s.g GRV_CTX_CFG_GROUP (dCtx c) == g + 1
def State.groupsUsed (s : State) : Nat :=
  (List.range 32).countP fun g => s.on GRV_GRP_CTRL_ENABLE (dGrp g) && !(s.membersOf g).isEmpty

/-- W_max in half nanoseconds (R172). -/
def State.grvWorst (s : State) : Nat := 123 + 10 * s.grvLock + 500 * s.ctxsOn.length + 40 * s.groupsUsed

/-- The bound of R172: none where no context is enabled. -/
def State.grvFits (s : State) : Bool :=
  s.ctxsOn.all fun c => s.grvWorst ≤ 2000 * s.g GRV_CTX_PERIOD_VALUE (dCtx c)

/-- What a context needs (R198). -/
def State.ctxNeeds (s : State) (c : Nat) : Bool :=
  let d := dCtx c
  let g := s.g GRV_CTX_CFG_GROUP d
  s.on GRV_CTRL_ENABLE && s.portNeeds (s.g GRV_CTX_SP_PORT d) && s.portNeeds (s.g GRV_CTX_MEAS_PORT d) &&
    s.portNeeds (s.g GRV_CTX_FFPOS_PORT d) && s.portNeeds (s.g GRV_CTX_OUT_PORT d) &&
    (g == 0 || 32 < g || s.on GRV_GRP_CTRL_ENABLE (dGrp (g - 1)))

/-- Every register of the enabled contexts and groups that a field names. -/
def State.ctxRegs (s : State) (f : Fld) : List Nat := s.ctxsOn.map fun c => f.off + dCtx c
def State.grpRegs (s : State) : List Nat :=
  ((List.range 32).filter fun g => s.on GRV_GRP_CTRL_ENABLE (dGrp g)).map fun g => GRV_GRP_OUT_PORT.off + dGrp g

/-- The port words of a context, with its CFG. -/
def ctxPortRegs (c : Nat) : List Nat :=
  [GRV_CTX_SP_PORT, GRV_CTX_MEAS_PORT, GRV_CTX_FFPOS_PORT, GRV_CTX_OUT_PORT, GRV_CTX_CFG_FORM].map fun f => f.off + dCtx c

/-- The conditions of a context's check over a view in which it is enabled (R188, R198), each with the registers that may be
responsible: for a clash or a mismatch those of both sides, for W_max every enabled context's PERIOD. -/
def State.ctxCheck (s : State) (c : Nat) : Chk :=
  let d := dCtx c
  let at_ : Fld → Nat := fun f => f.off + d
  let per := s.g GRV_CTX_PERIOD_VALUE d
  let g := s.g GRV_CTX_CFG_GROUP d
  let out := s.g GRV_CTX_OUT_PORT d
  let dest := if g = 0 then out else s.g GRV_GRP_OUT_PORT (dGrp (g - 1))
  let lo := s.gs GRV_CTX_OUT_MIN_VALUE d
  let hi := s.gs GRV_CTX_OUT_MAX_VALUE d
  let ms := if g = 0 then [] else s.membersOf (g - 1)
  let differs : Nat → Bool := fun m =>
    s.g GRV_CTX_PERIOD_VALUE (dCtx m) != per || s.g GRV_CTX_PHASE_VALUE (dCtx m) != s.g GRV_CTX_PHASE_VALUE d ||
      s.g GRV_CTX_CFG_EX (dCtx m) != s.g GRV_CTX_CFG_EX d ||
      s.g GRV_CTX_OUT_OFFSET_VALUE (dCtx m) != s.g GRV_CTX_OUT_OFFSET_VALUE d
  let cfg := at_ GRV_CTX_CFG_FORM
  let grp := if g = 0 then [] else [GRV_GRP_OUT_PORT.off + dGrp (g - 1)]
  let outs := at_ GRV_CTX_OUT_PORT :: (s.ctxRegs GRV_CTX_OUT_PORT ++ s.grpRegs)
  let members := (c :: ms).flatMap fun m => [GRV_CTX_CFG_FORM, GRV_CTX_PERIOD_VALUE, GRV_CTX_PHASE_VALUE].map fun f => f.off + dCtx m
  firstFail [
    (per < 40 || 10000000 < per, 0x201, [at_ GRV_CTX_PERIOD_VALUE]),
    (per ≤ s.g GRV_CTX_PHASE_VALUE d, 0x201, [at_ GRV_CTX_PHASE_VALUE, at_ GRV_CTX_PERIOD_VALUE]),
    (s.g GRV_CTX_CFG_FF_SIGN d == 3 || 32 < g, 0x201, [cfg]),
    (!portRange 0 (s.g GRV_CTX_SP_PORT d), 0x201, [at_ GRV_CTX_SP_PORT]),
    (!portRange 1 (s.g GRV_CTX_MEAS_PORT d), 0x201, [at_ GRV_CTX_MEAS_PORT]),
    (!portRange 2 (s.g GRV_CTX_FFPOS_PORT d), 0x201, [at_ GRV_CTX_FFPOS_PORT]),
    (!portRange 3 out, 0x201, [at_ GRV_CTX_OUT_PORT]),
    (g != 0 && portK out != 0, 0x202, [at_ GRV_CTX_OUT_PORT, cfg]),
    (s.outPorts.any fun x => x.1 != c && portsClash x.2 out, 0x202, outs),
    (decide (hi < lo) || !limitOk dest lo || !limitOk dest hi, 0x203, [at_ GRV_CTX_OUT_PORT, cfg] ++ grp),
    (ms.any differs || 8 < ms.length, 0x204, members),
    (s.on GRV_CTX_CFG_FF_ON d && s.on GRV_FF_CTRL_ACTIVE_EMPTY (dTab (s.g GRV_CTX_CFG_FF_TABLE d)), 0x205, [cfg]),
    (!s.grvFits, 0x206, at_ GRV_CTX_PERIOD_VALUE :: s.ctxRegs GRV_CTX_PERIOD_VALUE)]

/-- What a group needs, and its check's conditions (R188, R198). -/
def State.grpNeeds (s : State) (g : Nat) : Bool :=
  s.on GRV_CTRL_ENABLE && s.portNeeds (s.g GRV_GRP_OUT_PORT (dGrp g))
def State.grpCheck (s : State) (g : Nat) : Chk :=
  let out := s.g GRV_GRP_OUT_PORT (dGrp g)
  let a := [GRV_GRP_OUT_PORT.off + dGrp g]
  let bad : Nat → Bool := fun c =>
    !limitOk out (s.gs GRV_CTX_OUT_MIN_VALUE (dCtx c)) || !limitOk out (s.gs GRV_CTX_OUT_MAX_VALUE (dCtx c))
  let cfgs := (s.membersOf g).map fun c => GRV_CTX_CFG_FORM.off + dCtx c
  firstFail [
    (!portRange 3 out, 0x201, a),
    (s.outPorts.any fun x => x.1 != 128 + g && portsClash x.2 out, 0x202, a ++ s.ctxRegs GRV_CTX_OUT_PORT ++ s.grpRegs),
    ((s.membersOf g).any bad, 0x203, a ++ cfgs),
    (!s.grvFits, 0x206, s.ctxRegs GRV_CTX_PERIOD_VALUE)]

/-- The Graver's consistency check in a PROOF: every enabled context, then every enabled group. -/
def State.grvCheck (s : State) : Chk :=
  let one : Nat → Chk := fun c =>
    let g := s.g GRV_CTX_CFG_GROUP (dCtx c)
    if s.ctxNeeds c then s.ctxCheck c else some (0x011, ctxPortRegs c ++ if g = 0 then [] else [GRV_GRP_OUT_PORT.off + dGrp (g - 1)])
  match s.ctxsOn.findSome? one with
  | some r => some r
  | none => ((List.range 32).filter fun g => s.on GRV_GRP_CTRL_ENABLE (dGrp g)).findSome? fun g =>
      if s.grpNeeds g then s.grpCheck g else some (0x011, [GRV_GRP_OUT_PORT.off + dGrp g])

/-- Whether an enabled context or group drives a PWM channel (R185). -/
def State.grvDrives (s : State) (n : Nat) : Bool := s.outPorts.any fun x => portK x.2 == 3 && portUnit x.2 == n

/-- After a passing check GRV_SCHED and GRV_WORST report what it found in the State it saw (R172). -/
def State.grvReportOf (s view : State) : State :=
  let s := ((s.p GRV_SCHED_GROUPS 0 view.groupsUsed).p GRV_SCHED_CONTEXTS 0 view.ctxsOn.length).p GRV_SCHED_LWAIT 0
    (min view.grvLock 65535)
  s.p GRV_WORST_WORST_NS 0 (ceilDiv view.grvWorst 2)
def State.grvReport (s : State) : State := s.grvReportOf s

/-- MEMBERS of a group. -/
def State.grvMembers (s : State) : State :=
  (List.range 32).foldl (fun s g => s.p GRV_GRP_STATUS_MEMBERS (dGrp g) (s.membersOf g).length) s

/-- A context's ENABLE is set (R179); it is cleared: a sample not yet in the pipeline goes (R194). -/
def State.ctxEnable (s : State) (c : Nat) : State :=
  (((s.p GRV_CTX_CTRL_ENABLE (dCtx c) 1).reseed c).grvReport).grvMembers
def State.ctxDisable (s : State) (c : Nat) : State :=
  let s := (s.p GRV_CTX_CTRL_ENABLE (dCtx c) 0).grvMembers
  let x := s.gctx c
  if x.phase = .released then
    let s := s.setGctx c { x with phase := .none }
    if x.cfg.group = 0 then s else s.groupResult x.cfg.group
  else s

/-- A group's ENABLE is set: no result has been formed since. -/
def State.grpEnable (s : State) (g : Nat) : State :=
  (((s.p GRV_GRP_CTRL_ENABLE (dGrp g) 1).p GRV_GRP_STATUS_VALID (dGrp g) 0).grvReport).grvMembers

end Sys2Proof.Machine
end

