-- ==== Sys2Proof/Machine/Tide.lean ====
section
/-! DEFINITION. The Tide clock, its servo and domains, and the pulse and capture pins (R316 to R318, R324 to R328,
R502). Readings and choices: DEDUCED log 36. -/

namespace Sys2Proof.Machine

def dDom (d : Nat) : Nat := 0x40 * d
def dPin (i : Nat) : Nat := 0x20 * i
def dPtp (p d : Nat) : Nat := 0x10000 * p + 0x20 * d

def State.setTid (s : State) (x : TidSt) : State := { s with tid := x }
def State.servo (s : State) (d : Nat) : Servo := AMap.get {} s.tid.servos d
def State.setServo (s : State) (d : Nat) (x : Servo) : State :=
  { s with tid := { s.tid with servos := AMap.set {} s.tid.servos d x } }

/-- Whether an integer lies in −n to n. -/
def within (n : Nat) (x : Int) : Bool := x.natAbs ≤ n

/-- An integer held to −n to n. -/
def clampTo (n : Nat) (x : Int) : Int := max (-(n : Int)) (min n x)

/-! ## The clock (R316) -/

/-- A fabric cycle in units of 2⁻¹⁶ ns. -/
def fabUnits : Nat := 163840

/-- A CLK_TIDE cycle: what Tide time advances by, in units of 2⁻¹⁶ ns. -/
def tideUnits : Nat := 262144

/-- A CLK_TIDE cycle passes (R316, R318, R326): 4 ns, and the fast part of a switch while it lasts, else the slew owed at
SLEW_MAX. -/
def State.tideCycle (s : State) : State :=
  let t := s.tid
  let slewing : Bool := t.fastTicks == 0 && t.slew != 0
  let slewNum := if slewing then tideUnits * s.g TID_SLEW_SLEW_MAX + t.slewRest.toNat else 0
  let step := if slewing then clampTo (slewNum / 1000000000) t.slew else 0
  let fast : Int := if t.fastTicks = 0 then 0 else t.fast.tdiv t.fastTicks
  { s with
    tide := ((s.tide : Int) + tideUnits + step + fast).toNat
    tid := { t with slew := t.slew - step, slewRest := slewNum % 1000000000, fast := t.fast - fast,
                    fastTicks := t.fastTicks - 1 } }

/-- One fabric cycle of CLK_TIDE at the PLL's frequency: less than one of its cycles, which may end in it (R316). -/
def State.tideTick (s : State) : State :=
  let den : Nat := 2 ^ 32 * 1000000000
  let ph := s.tid.rest + fabUnits * ((den : Int) + s.tid.freq)
  let full : Int := tideUnits * den
  if ph < full then s.setTid { s.tid with rest := ph } else (s.setTid { s.tid with rest := ph - full }).tideCycle

/-- SLEW_LEFT: what is owed, in ns rounded toward zero. -/
def State.slewLeft (s : State) : Int := (s.tid.slew + s.tid.fast).tdiv 65536

/-- The code of the last refused TID write. -/
def State.tidRefuse (s : State) (code : Nat) : State := s.p TID_CTRL_REFUSAL 0 code

/-- Whether any output path is enabled or draining. -/
def State.anyPath (s : State) : Bool := (List.range 512).any fun p => s.pathOn p || s.draining p

/-! ## TIDE_OUT pins (R327) -/

def State.outNext (s : State) (o : Nat) : Option Nat := AMap.get none s.tid.outs o
def State.setOutNext (s : State) (o : Nat) (t : Option Nat) : State :=
  { s with tid := { s.tid with outs := AMap.set none s.tid.outs o t } }

/-- The least START + k × PERIOD, k an integer, at or after a time. -/
def nextInstant (start period t : Nat) : Nat := t + (((start : Int) - t) % period).toNat

/-- Whether the pin is driven in the present mode (R329). -/
def State.outDriven (s : State) (o : Nat) : Bool :=
  s.on TIDE_OUT_CTRL_ENABLE (dPin o) && !(s.mode = SAFE && s.on TIDE_OUT_CTRL_SAFE_REL (dPin o)) &&
    !(s.mode = STANDBY && s.on TIDE_OUT_CTRL_OWNED (dPin o))

/-- Give a pulse due at `t`; a released pin gives none. -/
def State.outPulse (s : State) (o t : Nat) : State :=
  if s.outDriven o then (s.emit (.tideOut o t)).inc TIDE_OUT_STATUS_PULSES (dPin o) else s

/-- A one-shot fires. -/
def State.outFire (s : State) (o t : Nat) : State :=
  ((s.outPulse o t).p TIDE_OUT_STATUS_DONE (dPin o) 1).setOutNext o none

/-- An enabled pin over a step of Tide time from `old` to `new` ns (R327). -/
def State.outStep (s : State) (old new o : Nat) : State :=
  let start := s.timeNs TIDE_OUT_START_NS_NANOSECONDS (dPin o)
  let period := s.g TIDE_OUT_PERIOD_NS (dPin o)
  match s.outNext o with
  | none => s
  | some t =>
    let periodic : Bool := s.g TIDE_OUT_CTRL_MODE (dPin o) == 2
    if old ≤ new then
      if t < new then
        let s := s.hw TIDE_OUT_STATUS_SKIPPED (dPin o) 1
        if periodic then s.setOutNext o (some (nextInstant start period (new + 1))) else s.outFire o t
      else s
    else if periodic then
      (s.hw TIDE_OUT_STATUS_REPEAT (dPin o) 1).setOutNext o (some (nextInstant start period new))
    else s

/-- Step the clock to a Tide time in 2⁻¹⁶ ns (R318, R324). -/
def State.stepTide (s : State) (t : Nat) : State :=
  let old := s.tideNs
  let s := { s with tide := t }
  (List.range 8).foldl (fun s o => if s.on TIDE_OUT_CTRL_ENABLE (dPin o) then s.outStep old s.tideNs o else s) s

/-- TIDE_OUT's check (R327, R502) after its need; `at_` is the Tide time of the write. -/
def State.outCheck (s : State) (o at_ : Nat) : Chk :=
  let d := dPin o
  let m := s.g TIDE_OUT_CTRL_MODE d
  let w := s.g TIDE_OUT_WIDTH_NS d
  let per := s.g TIDE_OUT_PERIOD_NS d
  let bad : Bool :=
    if m = 1 then decide (s.timeNs TIDE_OUT_START_NS_NANOSECONDS d < at_ + 1000)
    else if m = 2 then decide (per < 16) || decide (1000000000 < per) || decide (w < 8) || decide (per < w + 8)
    else true
  firstFail [(bad, 0x643, [TIDE_OUT_CTRL_MODE.off + d])]

/-- TIDE_OUT is enabled: its first instant (R327). -/
def State.outEnable (s : State) (o at_ : Nat) : State :=
  let d := dPin o
  let start := s.timeNs TIDE_OUT_START_NS_NANOSECONDS d
  let s := ((s.p TIDE_OUT_STATUS_DONE d 0)).setOutNext o
    (some (if s.g TIDE_OUT_CTRL_MODE d = 1 then start
      else nextInstant start (s.g TIDE_OUT_PERIOD_NS d) (at_ + 1000)))
  s
def State.outDisable (s : State) (o : Nat) : State := s.setOutNext o none

/-- TIDE_OUT_PULSE (R327): the pulse that is due; nothing where none is. -/
def execTideOutPulse (o : Fin 8) (s : State) : Out' :=
  .next (match s.outNext o.val with
    | none => s
    | some t =>
      if t ≤ s.tideNs then
        if s.g TIDE_OUT_CTRL_MODE (dPin o.val) = 2 then
          (s.outPulse o.val t).setOutNext o.val (some (t + s.g TIDE_OUT_PERIOD_NS (dPin o.val)))
        else s.outFire o.val t
      else s)

/-! ## TIDE_IN pins (R328) -/

def State.inFifo (s : State) (i : Nat) : List (Bool × Nat) := AMap.get [] s.tid.ins i
def State.setInFifo (s : State) (i : Nat) (l : List (Bool × Nat)) : State :=
  { s with tid := { s.tid with ins := AMap.set [] s.tid.ins i l } }.p TIDE_IN_STATUS_COUNT (dPin i) l.length

/-- TIDE_IN's check (R502) after its need. -/
def State.inCheck (s : State) (i : Nat) : Chk :=
  firstFail [(s.g TIDE_IN_CFG_EDGE (dPin i) == 0, 0x640, [TIDE_IN_CFG_EDGE.off + dPin i])]

/-- TIDE_IN_EDGE (R328): an edge at a pin, at the present Tide time. -/
def execTideInEdge (i : Fin 4) (rising : Bool) (s : State) : Out' :=
  let d := dPin i.val
  let edge := s.g TIDE_IN_CFG_EDGE d
  .next (if s.on TIDE_IN_CFG_ENABLE d && edge.testBit (if rising then 0 else 1) then
      let l := s.inFifo i.val
      if l.length < 16 then
        let t := ((s.tide : Int) + toSigned 32 (s.g TIDE_IN_LAT_IN_LAT d)).toNat
        (s.setInFifo i.val (l ++ [(rising, t)])).fireEdge (srcTideIn i.val)
      else s.hw TIDE_IN_STATUS_OVERFLOW d 1
    else s)

/-- Take the oldest stamp out: the word at + 0x0C; the other words are captured (R8, R328). -/
def State.inRead (s : State) (i : Nat) : Nat × State :=
  let d := dPin i
  match s.inFifo i with
  | [] =>
    let cap := AMap.ins (AMap.ins s.capture (TIDE_IN_TS_LO_TS_S_LO.off + d) 0) (TIDE_IN_TS_HI_TS_S_HI.off + d) 0
    (0, { s with capture := cap })
  | (r, t) :: l =>
    let ns := t / 65536
    let sec := ns / 1000000000
    let cap := AMap.ins (AMap.ins s.capture (TIDE_IN_TS_LO_TS_S_LO.off + d) (sec % 2 ^ 32))
      (TIDE_IN_TS_HI_TS_S_HI.off + d) (t % 65536 * 65536 + sec / 2 ^ 32 % 65536)
    (bit r * 2 ^ 31 + 2 ^ 30 + ns % 1000000000, { s.setInFifo i l with capture := cap })

/-- TIDE_IN_READ (R328). -/
def execTideInRead (i : Fin 4) (s : State) : Out' :=
  .next (s.query fun s => let x := s.inRead i.val; x.2.answer true x.1)

/-! ## Adjustment by the host (R318) -/

/-- STEP: its tests, then the new time. -/
def State.tidStep (s : State) : State :=
  if 1000000000 ≤ s.g TID_ADJ_VAL_NS_NANOSECONDS then s.tidRefuse 0x640
  else if s.anyPath then s.tidRefuse 0x645
  else s.stepTide (s.timeNs TID_ADJ_VAL_NS_NANOSECONDS * 65536)

/-- TID_STEP (R318). -/
def execTidStep (s : State) : Out' := .next (s.command fun s => s.tidStep)

/-- SLEW: its test, then the amount owed. -/
def State.tidSlew (s : State) : State :=
  let o := toSigned 32 (s.g TID_ADJ_OFS_OFFSET_NS)
  if within 1000000000 o then s.setTid { s.tid with slew := s.tid.slew + o * 65536 } else s.tidRefuse 0x640

/-- TID_SLEW (R318). -/
def execTidSlew (s : State) : Out' := .next (s.command fun s => s.tidSlew)

/-! ## Checks (R502) -/

/-- The TID block's check. -/
def State.tidCheck (s : State) : Chk :=
  let m := s.g TID_SLEW_SLEW_MAX
  firstFail [(m == 0 || decide (500000 < m), 0x640, [TID_SLEW_SLEW_MAX.off]),
    (s.g TID_SELECT_LOSS_INTERVALS == 0, 0x640, [TID_SELECT_LOSS_INTERVALS.off])]

/-- The state of a domain on a port: 0 DISABLED, 1 SLAVE, 2 MASTER, 3 PASSIVE. -/
def State.ptpState (s : State) (p d : Nat) : Nat := s.g NET_PTP_CFG_STATE (dPtp p d)

/-- A domain's check after its need (R332, R502). -/
def State.domCheck (s : State) (d : Nat) : Chk :=
  let k := dDom d
  let o := dDom (1 - d)
  let two : Bool := 1 < ((List.range 4).filter fun p => s.ptpState p d == 1).length
  let same : Bool := s.on TID_DOM_CFG_ENABLE o &&
    s.g TID_DOM_CFG_DOMAIN_NUMBER k == s.g TID_DOM_CFG_DOMAIN_NUMBER o &&
    (List.range 4).any fun p => s.ptpState p d != 0 && s.ptpState p (1 - d) != 0
  firstFail [(decide (1 < s.g TID_DOM_CFG_PROFILE k), 0x640, [TID_DOM_CFG_PROFILE.off + k]),
    (s.g TID_DOM_LIMITS_LOCK_NS k == 0, 0x640, [TID_DOM_LIMITS_LOCK_NS.off + k]), (two || same, 0x642, [])]

/-- A domain is enabled: its servo acquires (R59, R324). -/
def State.domEnable (s : State) (d : Nat) : State :=
  (s.setServo d { lastAt := s.fab }).p TID_DOM_STATUS_SERVO (dDom d) 0

/-! ## The servo (R324) -/

def sACQUIRE : Nat := 0
def sLOCKED : Nat := 1
def sHOLDOVER : Nat := 2
def sLOST : Nat := 3

def State.servoState (s : State) (d : Nat) : Nat := s.g TID_DOM_STATUS_SERVO (dDom d)
def State.setServoState (s : State) (d x : Nat) : State := s.p TID_DOM_STATUS_SERVO (dDom d) x
def State.domActive (s : State) (d : Nat) : Bool := s.g TID_SELECT_ACTIVE == d

/-- 400 ppm in 2⁻³² ppb. -/
def maxFreq : Nat := 400000 * 2 ^ 32

/-- FREQ reads a frequency in units of 2⁻⁸ ppb. -/
def State.showFreq (s : State) (d : Nat) (f : Int) : State :=
  let x := s.roundOpen f (2 ^ 24)
  x.2.p TID_DOM_FREQ_FREQ (dDom d) (ofSigned 32 x.1)

/-- The line through samples (time, offset), both in 2⁻¹⁶ ns: slope, and value at a time. -/
def lineFit (l : List (Nat × Int)) (at_ : Nat) : Rat × Rat :=
  let n : Rat := (l.length : Rat)
  let xs := l.map fun x => (((x.1 : Int) - at_ : Int) : Rat)
  let ys := l.map fun x => ((x.2 : Int) : Rat)
  let sx := xs.sum
  let sy := ys.sum
  let sxx := (xs.map fun x => x * x).sum
  let sxy := ((xs.zip ys).map fun p => p.1 * p.2).sum
  let den := n * sxx - sx * sx
  let slope := if den = 0 then 0 else (n * sxy - sx * sy) / den
  (slope, if n = 0 then 0 else (sy - slope * sx) / n)

/-- A rational whose rounding the spec does not state, as an integer. -/
def State.roundRat (s : State) (x : Rat) : Int × State := s.roundOpen x.num x.den

/-- Lock and loss of lock after a sample; `good` and `far` say whether it lies within ±LOCK_NS, beyond ±10 × LOCK_NS. -/
def State.lockState (s : State) (d : Nat) (good far : Bool) : State :=
  let x := s.servo d
  let inside := if good then x.inside + 1 else 0
  let outside := if far then x.outside + 1 else 0
  let st := s.servoState d
  let s := s.setServo d { x with inside := inside, outside := outside }
  if st = sLOCKED then
    if 16 ≤ outside then
      (s.setServo d { x with inside := 0, outside := 0, first := true }).setServoState d sACQUIRE
    else s
  else
    let s := if st = sACQUIRE then s else s.setServoState d sACQUIRE
    if 16 ≤ inside then
      (s.setServo d { x with inside := 0, outside := 0 }).setServoState d sLOCKED
    else s

/-- The active domain's first sample above ACQ_STEP: a step to the master's time, or a slew of that offset. -/
def State.acquire (s : State) (d : Nat) (o : Int) : State :=
  let x := s.servo d
  let lim := s.g TID_DOM_LIMITS_ACQ_STEP (dDom d)
  if s.servoState d = sACQUIRE ∧ x.first = true ∧ within (lim * 65536000) o = false then
    let s := s.setServo d { x with first := false }
    if lim ≠ 0 ∧ s.on TID_DOM_CFG_STEP_EN (dDom d) = true ∧ s.anyPath = false then s.stepTide ((s.tide : Int) - o).toNat
    else s.setTid { s.tid with slew := s.tid.slew - o }
  else s

/-- The PI controller of the active domain (R324). -/
def State.steer (s : State) (d : Nat) (o : Int) : State :=
  let x := s.servo d
  let k := dDom d
  let sum := x.sum + o
  let f := clampTo maxFreq ((s.g TID_DOM_GAIN_KP k : Int) * o + (s.g TID_DOM_GAIN_KI k : Int) * sum)
  let s := s.setServo d { x with sum := sum, freq := f }
  (s.setTid { s.tid with freq := f }).showFreq d f

/-- The inactive domain's estimate: its frequency relative to Tide time. -/
def State.estimate (s : State) (d : Nat) (fit : List (Nat × Int)) : State :=
  let slope := (lineFit fit s.tide).1
  let f := s.roundRat (-slope * 1000000000 * (2 ^ 32 : Nat))
  let s := f.2.setServo d { f.2.servo d with freq := f.1 }
  s.showFreq d f.1

/-- An offset sample of a domain goes to its servo (R322, R324, R325). -/
def State.servoSample (s : State) (d : Nat) (o : Int) : State :=
  let k := dDom d
  let x := s.servo d
  let back : Bool := s.servoState d == sHOLDOVER || s.servoState d == sLOST
  let fit := ((s.tide, o) :: x.fit).take 16
  let x := if back then { x with inside := 0, outside := 0, first := true } else x
  let s := s.setServo d { x with fit := fit, lastAt := s.fab }
  let s := if back then s.setServoState d sACQUIRE else s
  let s := (s.inc TID_DOM_STATUS_SAMPLES k).p TID_DOM_OFFSET_OFFSET k (ofSigned 64 o)
  let lock := s.g TID_DOM_LIMITS_LOCK_NS k * 65536
  if s.domActive d then
    (((s.acquire d o).steer d o)).lockState d (within lock o) (!within (10 * lock) o)
  else
    let res : Rat := (o : Rat) - (lineFit fit s.tide).2
    (s.estimate d fit).lockState d (decide (|res| ≤ (lock : Rat))) (decide ((10 * lock : Nat) < |res|))

/-- An offset sample; an uncorrectable error of the Tide state discards it (R331). -/
def State.sample (s : State) (d : Nat) (o : Int) : State :=
  if s.eccIn .tide then (s.eccGone .tide).raise .tid TID_ECC_UNCORR none 0 else s.servoSample d o

/-! ## Domains: switch and loss (R325, R326) -/

/-- A switch to a domain (R326). -/
def State.switchTo (s : State) (d : Nat) : State :=
  let x := s.servo d
  let r := s.roundRat (-(lineFit x.fit s.tide).2)
  let s := r.2
  let o := r.1
  let quick := clampTo (8 * 65536) o
  let t := s.tid
  let s := s.setTid { t with freq := clampTo maxFreq x.freq, slew := t.slew + t.fast + (o - quick), fast := quick,
                             fastTicks := 4000 }
  let s := if o = quick then s else s.hw TID_SELECT_WIDE 0 1
  ((s.p TID_SELECT_ACTIVE 0 d).incSat TID_SELECT_SWITCHES 0).fireEdge srcTidSwitch

/-- A write of ACTIVE (R325): one that changes it requests a switch. -/
def State.switchRequest (s : State) (d : Nat) : State :=
  if s.domActive d then s
  else if s.on TID_DOM_CFG_ENABLE (dDom d) = true ∧ s.servoState d = sLOCKED then s.switchTo d
  else s.tidRefuse 0x641

/-- DOMAIN_SWITCH_REQUEST (R325): a write of ACTIVE. -/
def execDomainSwitchRequest (active : Fin 2) (s : State) : Out' := .next (s.command fun s => s.switchRequest active.val)

/-- The SLAVE port of a domain, if it has one. -/
def State.slavePort (s : State) (d : Nat) : Option Nat := (List.range 4).find? fun p => s.ptpState p d == 1

/-- The loss interval of a domain in fabric cycles, with its SLAVE port on `p` (R325). -/
def State.lossCycles (s : State) (p d : Nat) : Nat :=
  let log := toSigned 4 (s.g NET_PTP_CFG_LOG_SYNC (dPtp p d))
  let n := s.g TID_SELECT_LOSS_INTERVALS * 400000000
  if 0 ≤ log then n * 2 ^ log.toNat else n / 2 ^ (-log).toNat

/-- A domain is lost (R325). -/
def State.domLost (s : State) (d : Nat) : State :=
  if s.domActive d then
    let o := 1 - d
    if s.on TID_SELECT_AUTO = true ∧ s.on TID_DOM_CFG_ENABLE (dDom o) = true ∧ s.servoState o = sLOCKED then
      (s.switchTo o).setServoState d sLOST
    else (s.setServoState d sHOLDOVER).raise .tid TID_DOMAIN_LOST none 0
  else s.setServoState d sLOST

/-- DOMAIN_LOSS (R325): a domain's loss interval has passed since its last sample; nothing where it has not. -/
def execDomainLoss (d : Fin 2) (s : State) : Out' :=
  .next (match s.slavePort d.val with
    | none => s
    | some p =>
      if s.on TID_CTRL_ENABLE && s.on TID_DOM_CFG_ENABLE (dDom d.val) && decide (s.servoState d.val < sHOLDOVER) &&
          decide ((s.servo d.val).lastAt + s.lossCycles p d.val ≤ s.fab) then s.domLost d.val
      else s)

end Sys2Proof.Machine
end

