-- ==== Sys2Proof/Machine/Cycle.lean ====
section
/-! DEFINITION. What one fabric cycle brings by itself: CLK_FAB's count, Tide time, the patrol scrub, the Mooring link's octets,
a held step of a rail. Every other event that time brings is a command. Readings and choices: DESIGN CHOICE log 1, 6. -/

namespace Sys2Proof.Machine

/-- One fabric cycle passes (400 MHz, R15 and R316). -/
def State.fabCycle (s : State) : State :=
  let pause := s.mode = PROVISION ∨ s.mode = STANDBY ∨ s.mode = FACTORY
  let bcn := { s.bcn with paused := s.bcn.paused + (if pause then 1 else 0) }
  let s := { s with fab := s.fab + 1, setNow := [], instants := [], tidePrev := s.tide, bcn := bcn }
  s.scrubTick.copyTick.railTick.tideTick

end Sys2Proof.Machine
end

