-- ==== Sys2Proof/Machine/Calendar.lean ====
section
/-! DEFINITION. The Almanac's calendar as a count of ticks (R356): leap years, dates, and what an alarm compares.
Readings and choices: DEDUCED log 38. -/

namespace Sys2Proof.Machine

/-- A year of 366 days (R356). -/
def leap (y : Nat) : Bool := y % 4 = 0 && (y % 100 ≠ 0 || y % 400 = 0)

def monthLen (y m : Nat) : Nat :=
  if m = 2 then (if leap y then 29 else 28) else if m = 4 ∨ m = 6 ∨ m = 9 ∨ m = 11 then 30 else 31

/-- Days from 2000-01-01 to the first day of a year. -/
def daysBefore (y : Nat) : Nat :=
  365 * (y - 2000) + (y - 2000 + 3) / 4 - (y - 2000 + 99) / 100 + (y - 2000 + 399) / 400

/-- Days from the first day of a year to the first day of a month. -/
def monthStart (y m : Nat) : Nat := ((List.range (m - 1)).map fun k => monthLen y (k + 1)).sum

def dayNumber (y m d : Nat) : Nat := daysBefore y + monthStart y m + (d - 1)

/-- Year, month and day of a day number. -/
def dateOf (n : Nat) : Nat × Nat × Nat :=
  let y := (List.range 400).foldl (fun y k => if daysBefore (2000 + k) ≤ n then 2000 + k else y) 2000
  let r := n - daysBefore y
  let m := (List.range 12).foldl (fun m k => if monthStart y (k + 1) ≤ r then k + 1 else m) 1
  (y, m, r - monthStart y m + 1)

/-- Ticks of a second, of a day, of the 400 years. -/
def tickSec : Nat := 32768
def tickDay : Nat := 86400 * tickSec
def tickEnd : Nat := 146097 * tickDay

/-- A moment of the calendar. -/
structure Cal where
  year   : Nat
  month  : Nat
  day    : Nat
  hour   : Nat
  minute : Nat
  second : Nat
  sub    : Nat
deriving DecidableEq, Repr

def Cal.ticks (c : Cal) : Nat :=
  (dayNumber c.year c.month c.day * 86400 + c.hour * 3600 + c.minute * 60 + c.second) * tickSec + c.sub

def Cal.ofTicks (t : Nat) : Cal :=
  let d := dateOf (t / tickDay)
  let s := t / tickSec % 86400
  ⟨d.1, d.2.1, d.2.2, s / 3600, s / 60 % 60, s % 60, t % tickSec⟩

/-- Whether a date exists between 2000 and 2399 (R361). -/
def dateOk (y m d : Nat) : Bool :=
  2000 ≤ y && y ≤ 2399 && 1 ≤ m && m ≤ 12 && 1 ≤ d && d ≤ monthLen y m

/-- The packed time of R437. -/
def Cal.packed (c : Cal) : Nat :=
  (((((((c.year - 2000) * 16 + c.month) * 32 + c.day) * 32 + c.hour) * 64 + c.minute) * 64 + c.second) * 32768) + c.sub

/-- What an alarm compares (R364); `none`: masked. -/
structure AlarmSet where
  weekday : Option Nat
  year    : Option Nat
  month   : Option Nat
  day     : Option Nat
  hour    : Option Nat
  minute  : Option Nat
  second  : Option Nat

def fits (x : Option Nat) (v : Nat) : Bool := match x with | some y => y == v | none => true

def AlarmSet.dayFits (a : AlarmSet) (n wd : Nat) : Bool :=
  let d := dateOf n
  fits a.year d.1 && fits a.month d.2.1 && fits a.day d.2.2 && fits a.weekday wd

def AlarmSet.secFits (a : AlarmSet) (x : Nat) : Bool :=
  fits a.hour (x / 3600) && fits a.minute (x / 60 % 60) && fits a.second (x % 60)

/-- Whether a tick count is a match instant, the weekday at it being `wd` (R364). -/
def AlarmSet.matchAt (a : AlarmSet) (t wd : Nat) : Bool :=
  t % tickSec = 0 && a.secFits (t / tickSec % 86400) && a.dayFits (t / tickDay) wd

/-- Whether a match instant lies after `lo` and at or before `hi`, the weekday counting on from `wd` at `lo` (R366). -/
def AlarmSet.matchIn (a : AlarmSet) (lo hi wd : Nat) : Bool :=
  let s0 := lo / tickSec + 1
  let s1 := hi / tickSec
  let d0 := lo / tickDay
  (rangeFrom (s0 / 86400) (s1 / 86400 + 1)).any fun d =>
    a.dayFits d ((wd + (d - d0)) % 7) &&
      (List.range 86400).any fun x => s0 ≤ d * 86400 + x && d * 86400 + x ≤ s1 && a.secFits x

/-- Whether the compared fields lie in their ranges and can match together (R365). -/
def AlarmSet.possible (a : AlarmSet) : Bool :=
  let inside : Option Nat → Nat → Nat → Bool := fun x lo hi => match x with | some v => lo ≤ v && v ≤ hi | none => true
  inside a.weekday 0 6 && inside a.year 2000 2399 && inside a.month 1 12 && inside a.day 1 31 &&
    inside a.hour 0 23 && inside a.minute 0 59 && inside a.second 0 59 &&
    (match a.day with
     | none => true
     | some d =>
       (match a.year with | some y => [y] | none => [2000]).any fun y =>
         (match a.month with | some m => [m] | none => rangeFrom 1 13).any fun m => d ≤ monthLen y m)

end Sys2Proof.Machine
end

