-- ==== Sys2Proof/Machine/Almanac.lean ====
section
/-! DEFINITION. The Almanac real-time clock (R354 to R368). Its calendar is held in the fields of ALM_NOW.
Readings and choices: DEDUCED log 38. -/

namespace Sys2Proof.Machine

def dAlarm (a : Nat) : Nat := 0x10 * a

def State.cal (s : State) : Cal :=
  ⟨s.g ALM_NOW_DATE_YEAR, s.g ALM_NOW_DATE_MONTH, s.g ALM_NOW_DATE_DAY, s.g ALM_NOW_TIME_HOUR, s.g ALM_NOW_TIME_MINUTE,
    s.g ALM_NOW_TIME_SECOND, s.g ALM_NOW_SUB_SUB⟩

def State.putCal (s : State) (c : Cal) : State :=
  ((((((s.p ALM_NOW_DATE_YEAR 0 c.year).p ALM_NOW_DATE_MONTH 0 c.month).p ALM_NOW_DATE_DAY 0 c.day).p
    ALM_NOW_TIME_HOUR 0 c.hour).p ALM_NOW_TIME_MINUTE 0 c.minute).p ALM_NOW_TIME_SECOND 0 c.second).p
    ALM_NOW_SUB_SUB 0 c.sub

def State.weekday (s : State) : Nat := s.g ALM_NOW_SUB_WEEKDAY
def State.osf (s : State) : Bool := s.on ALM_NOW_SUB_OSF

/-- The Almanac's Mast sources follow OSF and FIRED while ENABLE is 1 (R355, R358, R364). -/
def State.almLevels (s : State) : State :=
  let on := s.on ALM_CTRL_ENABLE
  ((s.setLevel srcAlmOsf (on && s.osf)).setLevel (srcAlmAlarm 0) (on && s.on ALM_ALARM_STATUS_FIRED (dAlarm 0))).setLevel
    (srcAlmAlarm 1) (on && s.on ALM_ALARM_STATUS_FIRED (dAlarm 1))

/-- OSF, which ALM_STATUS copies (R358). -/
def State.setOsf (s : State) (b : Bool) : State :=
  ((s.p ALM_NOW_SUB_OSF 0 (bit b)).p ALM_STATUS_OSF 0 (bit b)).almLevels

/-- The settings of an alarm (R364). -/
def State.alarmSet (s : State) (a : Nat) : AlarmSet :=
  let d := dAlarm a
  let f : Nat → Fld → Option Nat := fun k x => if (s.g ALM_ALARM_CTRL_MASK d).testBit k then none else some (s.g x d)
  ⟨f 6 ALM_ALARM_CTRL_WEEKDAY, f 5 ALM_ALARM_DATE_YEAR, f 4 ALM_ALARM_DATE_MONTH, f 3 ALM_ALARM_DATE_DAY,
    f 2 ALM_ALARM_TIME_HOUR, f 1 ALM_ALARM_TIME_MINUTE, f 0 ALM_ALARM_TIME_SECOND⟩

def State.horizon (s : State) (a : Nat) : Option Nat := AMap.get none s.alm.horizon a
def State.setHorizon (s : State) (a : Nat) (h : Option Nat) : State :=
  { s with alm := { s.alm with horizon := AMap.set none s.alm.horizon a h } }

/-- An alarm fires (R364), with SKIPPED or REPEAT set where asked (R366). -/
def State.alarmFire (s : State) (a : Nat) (skipped repeat_ : Bool) : State :=
  let d := dAlarm a
  let s := (s.hw ALM_ALARM_STATUS_FIRED d 1).inc ALM_ALARM_STATUS_COUNT d
  let s := if skipped then s.hw ALM_ALARM_STATUS_SKIPPED d 1 else s
  (if repeat_ then s.hw ALM_ALARM_STATUS_REPEAT d 1 else s).almLevels

def beforeHorizon (h : Option Nat) (t : Nat) : Bool := match h with | some x => decide (t < x) | none => false

/-- What every tick does once the calendar stands at `t` (R365, R366): a reached horizon is dropped, alarms whose
enable has arrived become armed. -/
def State.tickEnds (s : State) (t : Nat) : State :=
  let s := [0, 1].foldl (fun s a => match s.horizon a with
    | some h => if h ≤ t then s.setHorizon a none else s
    | none => s) s
  { s with alm := { s.alm with armed := [0, 1].filter fun a => s.on ALM_ALARM_CTRL_ENABLE (dAlarm a) } }

/-- The armed alarms that match the instant the tick carries the calendar into fire (R364). -/
def State.usualFires (s : State) (t : Nat) : State :=
  s.alm.armed.foldl (fun s a =>
    if (s.alarmSet a).matchAt t s.weekday then s.alarmFire a false (beforeHorizon (s.horizon a) t) else s) s

/-- The calendar goes to `t` ticks, wrapping after 2399 with OSF set (R356). -/
def State.calTo (s : State) (t : Nat) : State :=
  let s := s.putCal (Cal.ofTicks (t % tickEnd))
  if tickEnd ≤ t then s.setOsf true else s

/-- WEEKDAY advances or goes back with a midnight passed (R357). -/
def State.weekdayBy (s : State) (k : Nat) : State := s.p ALM_NOW_SUB_WEEKDAY 0 ((s.weekday + k) % 7)

/-- A tick of CLK_RTC with no command to apply (R356, R357, R364 to R366); none while the oscillator is stopped. -/
def State.almTick (s : State) : State :=
  if s.alm.stopped then s
  else
    let t := s.cal.ticks + 1
    let s := s.calTo t
    let t := t % tickEnd
    let s := if t % tickDay = 0 then s.weekdayBy 1 else s
    (s.usualFires t).tickEnds t

/-- TICK (R356). -/
def execTick (s : State) : Out' := .next s.almTick

/-- CALENDAR_WRAP (R356): the tick after 2399-12-31 23:59:59 with SUB 32,767. -/
def execCalendarWrap (s : State) : Out' := .next (if s.cal.ticks + 1 = tickEnd then s.almTick else s)

/-- WEEKDAY_ADVANCE (R357): a tick into midnight. -/
def execWeekdayAdvance (s : State) : Out' := .next (if (s.cal.ticks + 1) % tickDay = 0 then s.almTick else s)

/-- ALARM_FIRE (R364): a tick into a match instant of the armed alarm. -/
def execAlarmFire (a : Fin 2) (s : State) : Out' :=
  let t := (s.cal.ticks + 1) % tickEnd
  let wd := if t % tickDay = 0 then (s.weekday + 1) % 7 else s.weekday
  .next (if s.alm.armed.contains a.val && (s.alarmSet a.val).matchAt t wd then s.almTick else s)

/-- The alarms' fields: they lie in the VBAT domain (R354). -/
def alarmFields : List Fld :=
  [ALM_ALARM_CTRL_ENABLE, ALM_ALARM_CTRL_REFUSAL, ALM_ALARM_CTRL_WEEKDAY, ALM_ALARM_CTRL_MASK,
   ALM_ALARM_TIME_HOUR, ALM_ALARM_TIME_MINUTE, ALM_ALARM_TIME_SECOND, ALM_ALARM_DATE_YEAR, ALM_ALARM_DATE_MONTH,
   ALM_ALARM_DATE_DAY, ALM_ALARM_STATUS_FIRED, ALM_ALARM_STATUS_SKIPPED, ALM_ALARM_STATUS_REPEAT, ALM_ALARM_STATUS_COUNT]

/-- The VBAT domain takes its first-use values, OSF 1 (R59). -/
def State.vbatFirst (s : State) : State :=
  let s := { s with vbat := true, alm := {} }
  let s := s.putCal (Cal.ofTicks 0)
  let s := (s.clr ALM_NOW_SUB_WEEKDAY 0).clr ALM_TAI_OFFSET_OFFSET 0
  let s := s.p ALM_STATUS_BUSY 0 0
  (alarmFields.foldl (fun s f => (s.clr f (dAlarm 0)).clr f (dAlarm 1)) s).setOsf true

/-- VBAT_FIRST_APPLIED (R59, R354, R358): VBAT is applied for the first time. -/
def execVbatFirstApplied (s : State) : Out' := .next s.vbatFirst

/-- SUPPLY_SWITCHOVER (R354, R484): the VBAT domain changes supply and loses no tick; nothing it holds changes. -/
def execSupplySwitchover (s : State) : Out' := .next s

/-- OSCILLATOR_STOP (R358): no edge for 4 ms sets OSF; the calendar holds. -/
def execOscillatorStop (s : State) : Out' := .next ({ s with alm := { s.alm with stopped := true } }.setOsf true)

/-- OSCILLATOR_RESTART (R358): the count goes on from the held value; OSF stays. -/
def execOscillatorRestart (s : State) : Out' := .next { s with alm := { s.alm with stopped := false } }

/-- The words of ALM_NOW: SUB with OSF and WEEKDAY, TIME, DATE (R359). -/
def State.almNow (s : State) : List Nat :=
  [bit s.osf * 2 ^ 31 + s.weekday * 65536 + s.g ALM_NOW_SUB_SUB,
    s.g ALM_NOW_TIME_HOUR * 65536 + s.g ALM_NOW_TIME_MINUTE * 256 + s.g ALM_NOW_TIME_SECOND,
    s.g ALM_NOW_DATE_YEAR * 65536 + s.g ALM_NOW_DATE_MONTH * 256 + s.g ALM_NOW_DATE_DAY]

/-- ALM_NOW_READ (R359): a read of ALM_NOW_SUB captures TIME and DATE from the same tick. -/
def execAlmNowRead (s : State) : Out' :=
  .next (s.query fun s =>
    let x := s.almNow
    let cap := AMap.ins (AMap.ins s.capture 0xB00014 (x.getD 1 0)) 0xB00018 (x.getD 2 0)
    { s with capture := cap }.answer true (x.getD 0 0))

/-! ## Commands (R360 to R363) -/

def State.almRefuse (s : State) (code : Nat) : State := s.p ALM_STATUS_REFUSAL 0 code

/-- An accepted command sets BUSY. -/
def State.almAccept (s : State) (c : AlmCmd) : State :=
  { s with alm := { s.alm with cmd := some c } }.p ALM_STATUS_BUSY 0 1

/-- The commands of ALM_CMD (R360 to R362). -/
def State.almCmd (s : State) (op master : Nat) : State :=
  let wd := s.g ALM_SET_SUB_WEEKDAY
  let c : Cal := ⟨s.g ALM_SET_DATE_YEAR, s.g ALM_SET_DATE_MONTH, s.g ALM_SET_DATE_DAY, s.g ALM_SET_TIME_HOUR,
    s.g ALM_SET_TIME_MINUTE, s.g ALM_SET_TIME_SECOND, s.g ALM_SET_SUB_SUB⟩
  if op = 0 then s
  else if s.on ALM_STATUS_BUSY then s.almRefuse 0x805
  else if op = 1 then
    if dateOk c.year c.month c.day = false then s.almRefuse 0x801
    else if 23 < c.hour ∨ 59 < c.minute ∨ 59 < c.second ∨ (s.on ALM_SET_SUB_SET_WD = true ∧ 6 < wd) then s.almRefuse 0x802
    else s.almAccept ⟨1, c.ticks, if s.on ALM_SET_SUB_SET_WD then some wd else none, master⟩
  else if op = 2 then
    let k := toSigned 17 (s.g ALM_SHIFT_K)
    let r := (s.cal.ticks : Int) + 1 + k
    if k < -32768 ∨ 32768 < k then s.almRefuse 0x803
    else if r < 0 ∨ (tickEnd : Int) ≤ r then s.almRefuse 0x804
    else s.almAccept ⟨2, k, none, master⟩
  else if 6 < wd then s.almRefuse 0x802
  else s.almAccept ⟨3, 0, some wd, master⟩

/-- ALM_SET (R361): OP 1 written to ALM_CMD by a master. -/
def execAlmSet (master : Fin 42) (s : State) : Out' := .next (s.command fun s => s.almCmd 1 master.val)

/-- ALM_SHIFT (R362): OP 2 written to ALM_CMD. -/
def execAlmShift (master : Fin 42) (s : State) : Out' := .next (s.command fun s => s.almCmd 2 master.val)

/-- ALM_WEEKDAY (R361): OP 3 written to ALM_CMD. -/
def execAlmWeekday (master : Fin 42) (s : State) : Out' := .next (s.command fun s => s.almCmd 3 master.val)

/-- The alarms at the application tick of a SET or SHIFT that goes from `tref` to `tnew`, the weekday at `tref` having
been `wd` (R366). One that is enabled and not yet armed takes its horizon and does not fire (R365). -/
def State.judge (s : State) (tref tnew wd : Nat) : State :=
  ([0, 1].filter fun a => s.on ALM_ALARM_CTRL_ENABLE (dAlarm a)).foldl (fun s a =>
    let x := s.alarmSet a
    let h := s.horizon a
    let armed := s.alm.armed.contains a
    if tref < tnew then
      let s := if armed && x.matchAt tref wd then s.alarmFire a false (beforeHorizon h tref) else s
      if armed && (x.matchIn tref (tnew - 1) wd || x.matchAt tnew s.weekday) then
        let again := match h with
          | some y => x.matchIn tref (min (tnew - 1) (y - 1)) wd || (decide (tnew < y) && x.matchAt tnew s.weekday)
          | none => false
        s.alarmFire a true again
      else s
    else
      let h := if tnew < tref then some (max tref (h.getD 0)) else h
      let s := s.setHorizon a h
      if armed && x.matchAt tnew s.weekday then s.alarmFire a false (beforeHorizon h tnew) else s) s

/-- ALM_COMMAND_APPLY (R360 to R363, R366): the application tick of the command that waits, and its appearance in
CLK_FAB: ALM_APPLIED_TIDE, the Logbook's record, BUSY 0. -/
def execAlmCommandApply (s : State) : Out' :=
  match s.alm.cmd with
  | none => .next s
  | some c =>
    if s.alm.stopped then .next s
    else
      let before := s.cal
      let osf := s.osf
      let wd := s.weekday
      let tref := before.ticks + 1
      let tnew : Nat := if c.op = 1 then c.val.toNat else if c.op = 2 then (tref + c.val).toNat else tref
      let wdRef := if tref % tickDay = 0 then (wd + 1) % 7 else wd
      let s := s.calTo tnew
      let s := if c.op = 1 then s.setOsf false else s
      let day := before.ticks / tickDay
      let s := if c.op = 1 then s
        else if day < tnew / tickDay then s.weekdayBy 1
        else if tnew / tickDay < day then s.weekdayBy 6
        else s
      let s := match c.wd with | some w => s.p ALM_NOW_SUB_WEEKDAY 0 w | none => s
      let t := tnew % tickEnd
      let s := if c.op = 3 ∨ (c.op = 1 ∧ osf = true) then s.usualFires t else s.judge tref t wdRef
      let s := s.tickEnds t
      let s := { s with alm := { s.alm with cmd := none } }
      let s := (s.putTime ALM_APPLIED_TIDE_NS_NANOSECONDS 0 s.tideNs).p ALM_STATUS_BUSY 0 0
      let p := before.packed
      let n := s.cal.packed
      if c.op = 3 then .next s
      else .next (s.logFixed (0x8000 + c.op) c.master p (p / 2 ^ 32) n (n / 2 ^ 32))

/-- The check of an alarm's ENABLE (R365). -/
def State.alarmCheck (s : State) (a : Nat) : Nat := if (s.alarmSet a).possible then 0 else 0x806

end Sys2Proof.Machine
end

