-- ==== Sys2Proof/Machine/Aes.lean ====
section
/-! DEFINITION. The Bonded Store's AES-256 (R453): the block cipher (FIPS 197), CMAC (SP 800-38B), GCM with a 96-bit nonce
and a 128-bit tag (SP 800-38D) and key unwrap (RFC 3394). PRESUMED (log 51): the algorithms are taken from the standards the
rule names. Readings and choices: PRESUMED log 51. -/

namespace Sys2Proof.Machine

/-- Four bytes of a block, and a block of four columns. -/
abbrev Col := Byte × Byte × Byte × Byte
abbrev Half := Col × Col
abbrev Blk := Half × Half

/-- The S-box. Byte `i` stands at bits 8i. -/
def sboxTab : Nat :=
  0x75B227EBE28012079A059618C323C7041531D871F1E5A534CCF73F362693FDB7C072A49CAFA2D4ADF04759FA7DC982CA76ABD7FE2B670130C56F6BF27B777C63 +
  0xD2F3FF1021DAB6BCF5389D928F40A351A89F3C507F02F94585334D43FBAAEFD0CF584C4A39BECB6A5BB1FC20ED00D153842FE329B3D63B52A05A6E1B1A2C8309 * 2 ^ 512 +
  0x08AE7A65EAF4566CA94ED58D6D37C8E779E4959162ACD3C25C2406490A3A32E0DB0B5EDE14B8EE4688902A22DC4F816073195D643D7EA7C41744975FEC130CCD * 2 ^ 1024 +
  0x16BB54B00F2D99416842E6BF0D89A18CDF2855CEE9871E9B948ED9691198F8E19E1DC186B95735610EF6034866B53E708A8BBD4B1F74DDE8C6B4A61C2E2578BA * 2 ^ 1536

/-- The inverse S-box. Byte `i` stands at bits 8i. -/
def invSboxTab : Nat :=
  0x25D18B6D49A25B76B224D92866A12E084EC3FA420B954CEE3D23C2A632947B54CBE9DEC444438E3487FF2F9B8239E37CFBD7F3819EA340BF38A53630D56A0952 +
  0x6B8A130103BDAFC1020F3FCA8F1E2CD00645B3B80558E4F70AD3BC8C00ABD890849D8DA75746155EDAB9EDFD5048706C92B6655DCC5CA4D41698688664F6F872 * 2 ^ 512 +
  0xF45ACD78FEC0DB9A2079D2C64B3E56FC1BBE18AA0E62B76F89C5291D711AF1476EDF751CE837F9E28535ADE72274AC9673E6B4F0CECFF297EADC674F4111913A * 2 ^ 1024 +
  0x7D0C2155631469E126D677BA7E042B17619953833CBBEBC8B0F52AAE4D3BE0A0EF9CC9939F7AE52D0D4AB519A97F51605FEC8027591012B131C7078833A8DD1F * 2 ^ 1536

def sbox (x : Byte) : Byte := BitVec.ofNat 8 (sboxTab >>> (8 * x.toNat))
def invSbox (x : Byte) : Byte := BitVec.ofNat 8 (invSboxTab >>> (8 * x.toNat))

def colXor (x y : Col) : Col := (x.1 ^^^ y.1, x.2.1 ^^^ y.2.1, x.2.2.1 ^^^ y.2.2.1, x.2.2.2 ^^^ y.2.2.2)
def halfXor (x y : Half) : Half := (colXor x.1 y.1, colXor x.2 y.2)
def blkXor (x y : Blk) : Blk := (halfXor x.1 y.1, halfXor x.2 y.2)
def colMap (f : Byte → Byte) (x : Col) : Col := (f x.1, f x.2.1, f x.2.2.1, f x.2.2.2)
def eachCol (f : Col → Col) (x : Blk) : Blk := ((f x.1.1, f x.1.2), (f x.2.1, f x.2.2))

/-- ShiftRows and its inverse: row `r` of the block turns left, or right, by `r` columns. -/
def shiftRows (x : Blk) : Blk :=
  let ((a, b), (c, d)) := x
  (((a.1, b.2.1, c.2.2.1, d.2.2.2), (b.1, c.2.1, d.2.2.1, a.2.2.2)),
   ((c.1, d.2.1, a.2.2.1, b.2.2.2), (d.1, a.2.1, b.2.2.1, c.2.2.2)))
def invShiftRows (x : Blk) : Blk :=
  let ((a, b), (c, d)) := x
  (((a.1, d.2.1, c.2.2.1, b.2.2.2), (b.1, a.2.1, d.2.2.1, c.2.2.2)),
   ((c.1, b.2.1, a.2.2.1, d.2.2.2), (d.1, c.2.1, b.2.2.1, a.2.2.2)))

/-- A byte times x in the field of 2⁸ elements of FIPS 197. -/
def xtime (x : Byte) : Byte := (x <<< 1) ^^^ (if x.msb then 0x1B else 0)

/-- MixColumns of a column, and its inverse. -/
def mixCol (x : Col) : Col :=
  let (a, b, c, d) := x
  (xtime a ^^^ xtime b ^^^ b ^^^ c ^^^ d, a ^^^ xtime b ^^^ xtime c ^^^ c ^^^ d,
   a ^^^ b ^^^ xtime c ^^^ xtime d ^^^ d, xtime a ^^^ a ^^^ b ^^^ c ^^^ xtime d)
/-- 14a + 11b + 13c + 9d of a field of 2⁸ elements. -/
def invMixRow (a b c d : Byte) : Byte :=
  xtime (xtime (xtime (a ^^^ b ^^^ c ^^^ d) ^^^ a ^^^ c) ^^^ a ^^^ b) ^^^ b ^^^ c ^^^ d
def invMixCol (x : Col) : Col :=
  let (a, b, c, d) := x
  (invMixRow a b c d, invMixRow b c d a, invMixRow c d a b, invMixRow d a b c)

def roundEnc (b k : Blk) : Blk := blkXor k (eachCol mixCol (shiftRows (eachCol (colMap sbox) b)))
def roundDec (k b : Blk) : Blk := eachCol (colMap invSbox) (invShiftRows (eachCol invMixCol (blkXor k b)))

/-- The cipher and its inverse over the first round key, those of the middle rounds and the last. -/
def cipher (k0 : Blk) (mid : List Blk) (kn b : Blk) : Blk :=
  blkXor kn (shiftRows (eachCol (colMap sbox) (mid.foldl roundEnc (blkXor k0 b))))
def invCipher (k0 : Blk) (mid : List Blk) (kn b : Blk) : Blk :=
  blkXor k0 (mid.foldr roundDec (eachCol (colMap invSbox) (invShiftRows (blkXor kn b))))

/-- The byte at a place of a list of octets; 0 beyond its end. -/
def octetAt (l : List Byte) (i : Nat) : Byte := l.getD i 0
def colAt (l : List Byte) (i : Nat) : Col := (octetAt l i, octetAt l (i + 1), octetAt l (i + 2), octetAt l (i + 3))
def halfAt (l : List Byte) (i : Nat) : Half := (colAt l i, colAt l (i + 4))
def blkAt (l : List Byte) (i : Nat) : Blk := (halfAt l i, halfAt l (i + 8))
def colOctets (x : Col) : List Byte := [x.1, x.2.1, x.2.2.1, x.2.2.2]
def halfOctets (x : Half) : List Byte := colOctets x.1 ++ colOctets x.2
def blkOctets (x : Blk) : List Byte := halfOctets x.1 ++ halfOctets x.2

/-- The next eight words of the key schedule after eight, with a round constant. -/
def nextKeys (rc : Byte) (x : List Col) : List Col :=
  match x with
  | [a, b, c, d, e, f, g, h] =>
    let t : Col := (h.2.1, h.2.2.1, h.2.2.2, h.1)
    let a := colXor a (colXor (colMap sbox t) (rc, 0, 0, 0))
    let b := colXor b a
    let c := colXor c b
    let d := colXor d c
    let e := colXor e (colMap sbox d)
    let f := colXor f e
    let g := colXor g f
    [a, b, c, d, e, f, g, colXor h g]
  | y => y

/-- The words of the key schedule by eights: round constants as they follow one another. -/
def keyWords : Nat → Byte → List Col → List Col
  | 0, _, x => x
  | n + 1, rc, x => x ++ keyWords n (xtime rc) (nextKeys rc x)

def keyBlk (w : List Col) (i : Nat) : Blk :=
  let z : Col := (0, 0, 0, 0)
  ((w.getD (4 * i) z, w.getD (4 * i + 1) z), (w.getD (4 * i + 2) z, w.getD (4 * i + 3) z))

/-- The fifteen round keys of a key of 32 octets. -/
def keyWords256 (key : List Byte) : List Col := keyWords 7 1 ((List.range 8).map fun i => colAt key (4 * i))

def aesEnc (key : List Byte) (b : Blk) : Blk :=
  let w := keyWords256 key
  cipher (keyBlk w 0) ((List.range 13).map fun i => keyBlk w (i + 1)) (keyBlk w 14) b
def aesDec (key : List Byte) (b : Blk) : Blk :=
  let w := keyWords256 key
  invCipher (keyBlk w 0) ((List.range 13).map fun i => keyBlk w (i + 1)) (keyBlk w 14) b

def zeroBlk : Blk := blkAt [] 0
/-- A block as the number of its octets, most significant first, and back. -/
def blkNat (b : Blk) : Nat := beNat (blkOctets b)
def natBlk (x : Nat) : Blk := blkAt (beBytes 16 x) 0

/-! ## CMAC (SP 800-38B) -/

/-- A subkey from the one before. -/
def cmacDouble (x : Nat) : Nat := (2 * x % 2 ^ 128) ^^^ (if 2 ^ 127 ≤ x then 0x87 else 0)

def cmacWith (key : List Byte) (k1 k2 : Blk) : Nat → Blk → List Byte → Blk
  | 0, c, _ => c
  | n + 1, c, m =>
    if m.length < 16 then aesEnc key (blkXor c (blkXor k2 (blkAt (m ++ [0x80]) 0)))
    else if m.length = 16 then aesEnc key (blkXor c (blkXor k1 (blkAt m 0)))
    else cmacWith key k1 k2 n (aesEnc key (blkXor c (blkAt m 0))) (m.drop 16)

/-- AES-256 CMAC of a message under a key: 16 octets. -/
def aesCmac (key m : List Byte) : List Byte :=
  let l := cmacDouble (blkNat (aesEnc key zeroBlk))
  blkOctets (cmacWith key (natBlk l) (natBlk (cmacDouble l)) (m.length / 16 + 1) zeroBlk m)

/-! ## Key unwrap (RFC 3394) -/

def halfNat (t : Nat) : Half := halfAt (beBytes 8 t) 0

/-- One pass of the unwrap over the halves that follow the step count `t`, from the last to the first. -/
def unwrapPass (key : List Byte) : Nat → Half → List Half → Half × List Half
  | _, a, [] => (a, [])
  | t, a, r :: rs =>
    let x := unwrapPass key (t + 1) a rs
    let b := aesDec key (halfXor x.1 (halfNat (t + 1)), r)
    (b.1, b.2 :: x.2)

def unwrapAll (key : List Byte) : Nat → Half → List Half → Half × List Half
  | 0, a, rs => (a, rs)
  | n + 1, a, rs =>
    let x := unwrapPass key (n * rs.length) a rs
    unwrapAll key n x.1 x.2

def wrapIv : Half := halfAt (List.replicate 8 0xA6) 0

/-- RFC 3394 unwrap: the key, or none when the integrity check fails. -/
def aesUnwrap (key c : List Byte) : Option (List Byte) :=
  let x := unwrapAll key 6 (halfAt c 0) ((List.range (c.length / 8 - 1)).map fun i => halfAt c (8 * i + 8))
  if x.1 = wrapIv then some (x.2.flatMap halfOctets) else none

/-! ## GCM (SP 800-38D) -/

/-- The product of two blocks; `n` bits of the first are still to come. -/
def gcmMul (x : Nat) : Nat → Nat → Nat → Nat
  | 0, z, _ => z
  | n + 1, z, v =>
    gcmMul x n (if x.testBit n then z ^^^ v else z) (if v % 2 = 1 then v / 2 ^^^ 0xE1 * 2 ^ 120 else v / 2)

def ghash (h : Nat) : Nat → Nat → List Byte → Nat
  | 0, y, _ => y
  | n + 1, y, m => ghash h n (gcmMul (y ^^^ blkNat (blkAt m 0)) 128 0 h) (m.drop 16)

/-- Octets filled with 0 to whole blocks. -/
def gcmPad (m : List Byte) : List Byte := m ++ List.replicate ((16 - m.length % 16) % 16) 0

def gcmTag (key nonce head text : List Byte) : List Byte :=
  let m := gcmPad head ++ gcmPad text ++ beBytes 8 (8 * head.length) ++ beBytes 8 (8 * text.length)
  let s := ghash (blkNat (aesEnc key zeroBlk)) (m.length / 16) 0 m
  blkOctets (blkXor (aesEnc key (blkAt (nonce.take 12 ++ [0, 0, 0, 1]) 0)) (natBlk s))

/-- Text through the counter mode, from a counter value on. -/
def gcmCtr (key nonce : List Byte) : Nat → Nat → List Byte → List Byte
  | 0, _, _ => []
  | n + 1, i, m =>
    let k := blkOctets (aesEnc key (blkAt (nonce.take 12 ++ beBytes 4 i) 0))
    List.zipWith (· ^^^ ·) (m.take 16) k ++ gcmCtr key nonce n (i + 1) (m.drop 16)

def gcmText (key nonce m : List Byte) : List Byte := gcmCtr key nonce (ceilDiv m.length 16) 2 m

/-- AES-256 GCM encryption: key, nonce, additional data, plain text; cipher text and 16-octet tag. -/
def aesGcm (key nonce head plain : List Byte) : List Byte × List Byte :=
  let c := gcmText key nonce plain
  (c, gcmTag key nonce head c)

/-- AES-256 GCM decryption: key, nonce, additional data, cipher text, tag; the plain text where the tag matches. -/
def aesGcmOpen (key nonce head c tag : List Byte) : Option (List Byte) :=
  if gcmTag key nonce head c = tag then some (gcmText key nonce c) else none

end Sys2Proof.Machine
end

