-- ==== Sys2Proof/Machine/Ring.lean ====
section
/-! DEFINITION. Rings (R84): indices counted modulo twice the size, the bit above the entry number being the wrap
bit. Readings and choices: DEDUCED log 24. -/

namespace Sys2Proof.Machine

/-- Entries a ring of 2^k holds between HEAD and TAIL. -/
def ringUsed (k head tail : Nat) : Nat := (tail + 2 ^ (k + 1) - head % 2 ^ (k + 1)) % 2 ^ (k + 1)

def ringNext (k i : Nat) : Nat := (i + 1) % 2 ^ (k + 1)

/-- Whether a HEAD write is taken: it does not move HEAD past TAIL. -/
def headOk (k head tail new : Nat) : Bool :=
  new < 2 ^ (k + 1) && ringUsed k head new ≤ ringUsed k head tail

/-- Whether a TAIL write is taken: it does not leave the ring holding more than its size. -/
def tailOk (k head new : Nat) : Bool := new < 2 ^ (k + 1) && ringUsed k head new ≤ 2 ^ k

end Sys2Proof.Machine
end

