-- ==== Sys2Proof/Machine/Solar.lean ====
section
/-! DEFINITION. The solar-event unit (R245): sunset, sunrise and the twilights of a date at a position. The angles are
worked in fixed point of 96 fractional bits, well beyond FP64, whose own rounding the spec does not fix.
Readings and choices: DESIGN CHOICE log 27. -/

namespace Sys2Proof.Machine

/-- One in fixed point, π, and the fixed-point value of a rational. -/
def fxOne : Int := 2 ^ 96
def fxPi : Int := 248902613312231085230521944622
def fxRat (r : Rat) : Int := r.num * fxOne / r.den
def fxMul (a b : Int) : Int := a * b / fxOne

/-- Terms of the sine series from term `k` on. -/
def sinTerms : Nat → Int → Int → Nat → Int
  | 0, _, _, _ => 0
  | f + 1, x2, t, k => t + sinTerms f x2 (-(fxMul t x2) / ((2 * k + 2) * (2 * k + 3))) (k + 1)

/-- Sine and cosine of an angle in degrees, in fixed point. -/
def fxSin (deg : Int) : Int :=
  let x := fxMul (deg % (360 * fxOne)) (fxPi / 180)
  sinTerms 40 (fxMul x x) x 0
def fxCos (deg : Int) : Int := fxSin (deg + 90 * fxOne)

/-- The square root of a fixed-point number. -/
def fxSqrt (x : Int) : Int := (Nat.sqrt (x * fxOne).toNat : Nat)

/-- The angle from 0° to 180° whose cosine is `c`, by bisection. -/
def acosIn : Nat → Int → Int → Int → Int
  | 0, lo, _, _ => lo
  | f + 1, lo, hi, c =>
    let m := (lo + hi) / 2
    if fxCos m < c then acosIn f lo m c else acosIn f m hi c

def rat (s : Int) (d : Nat) : Rat := (s : Rat) / (d : Rat)

/-- The instants of the six events of day `n`, in ANCHOR order, in days from 12:00 UTC of 2000-01-01, in fixed point;
none where the event does not occur. `lat` and `lon` are in 10⁻⁶ degree. -/
def solarDays (n : Nat) (lat lon : Int) : List (Option Int) :=
  let j := fxRat ((n : Rat) - rat lon 360000000)
  let turn := 360 * fxOne
  let m := (fxRat (rat 3575291 10000) + fxMul (fxRat (rat 98560028 100000000)) j) % turn
  let c := fxMul (fxRat (rat 19148 10000)) (fxSin m) + fxMul (fxRat (rat 2 100)) (fxSin (2 * m)) +
    fxMul (fxRat (rat 3 10000)) (fxSin (3 * m))
  let lam := (m + c + fxRat (rat 2829372 10000)) % turn
  let jt := j + fxMul (fxRat (rat 53 10000)) (fxSin m) - fxMul (fxRat (rat 69 10000)) (fxSin (2 * lam))
  let sinDec := fxMul (fxSin lam) (fxSin (fxRat (rat 234397 10000)))
  let cosDec := fxSqrt (fxOne - fxMul sinDec sinDec)
  let phi := fxRat (rat lat 1000000)
  let half : Rat → Option Int := fun h0 =>
    let num := fxSin (fxRat h0) - fxMul (fxSin phi) sinDec
    let den := fxMul (fxCos phi) cosDec
    if den < num.natAbs then none
    else some (acosIn 110 0 (180 * fxOne) (num * fxOne / den) / 360)
  [rat (-833) 1000, -6, -12].flatMap fun h0 =>
    match half h0 with
    | some w => [some (jt + w), some (jt - w)]
    | none => [none, none]

/-- The local minute of an instant counted from the midnight that begins local day `n`, and its distance below the next
minute and above this one, in fixed point. -/
def localMinute (n : Nat) (off t : Int) : Int × Int :=
  let x := (t + fxOne / 2 - n * fxOne) * 1440 + off * fxOne
  (x / fxOne, x % fxOne)

end Sys2Proof.Machine
end

