-- ==== Sys2Proof/Machine/BeaconTab.lean ====
section
/-! DEFINITION. The Beacon's data: lantern records, group, zone and gateway entries, profile sets, arc levels, the fault
event ring (R233 to R245, R249, R250, R261), and its enable check (R269).
Readings and choices: DEDUCED log 19, 32; DESIGN CHOICE log 27. -/

namespace Sys2Proof.Machine

def fldB (l : List Byte) (o n : Nat) : Nat := leNat ((l.drop o).take n)

/-- The `n` bytes from a key read as never written. -/
def State.clearRange (s : State) (a n : Nat) : State :=
  { s with mem := AMap.keep (fun k => decide (k < a ∨ a + n ≤ k)) s.mem }

/-! ## Tables -/

def bcnGrp (g : Nat) : Nat := winBase + 0x680000 + 0x20 * g
def bcnZone (z : Nat) : Nat := winBase + 0x6A0000 + 0x20 * z
def bcnGw (w : Nat) : Nat := winBase + 0x6B0000 + 0x40 * w
def bcnBank (b : Nat) : Nat := winBase + 0x6C0000 + 0x20000 * b

/-- The database in use: as the evaluation begun last took it (R70, R246). -/
def State.bcnCfgNow (s : State) : BcnCfg :=
  ⟨s.g BCN_LDB_BASE_ADDR, s.g BCN_LDB_COUNT_COUNT, s.g BCN_CFG2_FAULT_MASK, s.g BCN_TIMEOUT_GW_SILENT_S⟩
def State.bcnCfg (s : State) : BcnCfg := if s.on BCN_CTRL_ENABLE then s.bcn.cfg else s.bcnCfgNow
def State.ldb (s : State) : Nat := s.bcnCfg.base
def State.lanterns (s : State) : Nat := s.bcnCfg.count
def State.lrec (s : State) (n : Nat) : Nat := s.ldb + 256 * n

/-- Write to a lantern's state half, in one grant (R236), its last 92 bytes as 0 (R234); what the next copy of stream 7
carries (R411). -/
def State.lput (s : State) (n off size v : Nat) : State :=
  let a := s.lrec n
  let s := (s.wle (a + off) size v).wbs (a + 164) (List.replicate 92 0)
  if s.bcn.changed.contains n then s else { s with bcn := { s.bcn with changed := s.bcn.changed ++ [n] } }

/-- The configuration half of a lantern record (R234). -/
structure LCfg where
  torn    : Bool
  on      : Bool
  noDerate : Bool
  group   : Nat
  gateway : Nat
  laddr   : Nat
  curve   : Nat
  target  : Nat
  scale   : Nat
  knee    : Int
  slope   : Nat
  derMin  : Nat
deriving DecidableEq, Repr

def State.lcfg (s : State) (n : Nat) : LCfg :=
  let l := s.rbs (s.lrec n) 128
  { torn := fldB l 0 4 != fldB l 124 4, on := fldB l 4 1 % 2 == 1, noDerate := fldB l 4 1 / 2 % 2 == 1,
    group := fldB l 8 2 % 4096, gateway := fldB l 10 2 % 1024, laddr := fldB l 12 2 % 1024, curve := fldB l 14 1 % 16,
    target := fldB l 15 1, scale := fldB l 16 2, knee := toSigned 16 (fldB l 18 2), slope := fldB l 20 2,
    derMin := fldB l 22 2 }

/-- State fields of a lantern record. -/
def State.lget (s : State) (n off size : Nat) : Nat := s.rle (s.lrec n + off) size
def oENERGY : Nat := 128
def oENERGYLAST : Nat := 136
def oFAULTS : Nat := 140
def oTEMP : Nat := 142
def oREPORT : Nat := 144
def oARCNOW : Nat := 152
def oARCSENT : Nat := 153
def oSTATUS : Nat := 154
def oFWCAMP : Nat := 155
def oFWACKED : Nat := 156
def oRESETS : Nat := 160

/-- A bit of STATUS: 3 TORN, 4 CONFLICT. -/
def State.lbit (s : State) (n k : Nat) : Bool := (s.lget n oSTATUS 1).testBit k
def State.lsetBit (s : State) (n k : Nat) (b : Bool) : State :=
  let x := s.lget n oSTATUS 1
  if x.testBit k = b then s else s.lput n oSTATUS 1 (if b then x + 2 ^ k else x - 2 ^ k)

/-- The entry of the reverse map for a gateway and address (R237). -/
def State.revKey (s : State) (gw la : Nat) : Nat := s.ldb + 0x4000000 + 4 * (1024 * gw + la)

/-- The lantern that a gateway and address name. -/
def State.revFind (s : State) (gw la : Nat) : Option Nat :=
  let e := s.rle (s.revKey gw la) 4
  if la < 1024 ∧ e.testBit 31 = true then some (e % 2 ^ 18) else none

/-- A group entry's configuration (R239). -/
structure GCfg where
  on    : Bool
  cast  : Bool
  comm  : Bool
  sched : Nat
  zone  : Nat
  curve : Nat
  ovr   : Nat
  ovrFade : Nat
  ovrUntil : Nat

def State.gcfg (s : State) (g : Nat) : GCfg :=
  let l := s.rbs (bcnGrp g) 16
  let f := fldB l 5 1
  ⟨f.testBit 0, f.testBit 1, f.testBit 2, fldB l 0 2, fldB l 2 2, fldB l 4 1, fldB l 8 2, fldB l 10 1, fldB l 12 4⟩

/-- A gateway entry's configuration (R241). -/
structure WCfg where
  on      : Bool
  trans   : Nat
  port    : Nat
  phase   : Nat
  vlan    : Bool
  path    : Nat
  session : Nat
  ip      : List Byte
  udp     : Nat
  tci     : Nat

def State.wcfg (s : State) (w : Nat) : WCfg :=
  let l := s.rbs (bcnGw w) 32
  let f := fldB l 0 4
  ⟨f.testBit 0, bits f 1 2, bits f 3 3, bits f 6 1, f.testBit 7, fldB l 4 2, fldB l 6 2, (l.drop 8).take 16,
    fldB l 24 2, fldB l 26 2⟩

/-- State fields of a gateway entry. -/
def State.wget (s : State) (w off size : Nat) : Nat := s.rle (bcnGw w + off) size
def State.wput (s : State) (w off size v : Nat) : State := s.wle (bcnGw w + off) size v
def oTXSEQ : Nat := 32
def oRXSEQ : Nat := 40
def oRXWIN : Nat := 48
def oLASTRX : Nat := 56
def oWSTATE : Nat := 60

def State.gwUp (s : State) (w : Nat) : Bool := (s.wget w oWSTATE 4).testBit 0

/-- The bank of the Bonded Store in use (R454), and the key of a session's phase, where installed. -/
def State.bank (s : State) : BstBank := if s.on BST_STATUS_TEST_ROOT then s.bst.test else s.bst.prod
def State.sessKey (s : State) (e phase : Nat) : Option (List Byte) :=
  let x := AMap.get {} s.bank.sess e
  if phase = 0 then x.k0 else x.k1

/-- An ON gateway that receives nothing and whose frames are unknown (R241, R255, R452). -/
def State.gwInvalid (s : State) (w : Nat) : Bool :=
  let c := s.wcfg w
  c.on && (c.trans == 0 || c.trans == 3 || 4 < c.port || 511 < c.path ||
    !(s.pathOn c.path && s.pathKind c.path == kBEACON && s.pathTarget c.path == c.port) ||
    decide (2 ^ 48 - 1 ≤ s.wget w oTXSEQ 8) || (s.sessKey c.session c.phase).isNone)

def State.gwUsable (s : State) (w : Nat) : Bool := (s.wcfg w).on && !s.gwInvalid w

/-- What the table port reads at an offset of the Beacon's windows: INVALID of a gateway's STATE is shown as it stands
(R238, R241). -/
def State.tableByte (s : State) (o : Nat) : Byte :=
  let x := s.rb (winBase + o)
  if 0x6B0000 ≤ o ∧ o % 0x40 = oWSTATE then
    BitVec.ofNat 8 (x.toNat % 2 + 2 * bit (s.gwInvalid ((o - 0x6B0000) / 0x40)))
  else x
def State.tableRead (s : State) (o n : Nat) : Nat := leNat ((List.range n).map fun i => s.tableByte (o + i))

/-! ## Errors (R268) -/

/-- The first of some parts of the Beacon's SRAM (key, bytes) that an uncorrectable error stands in. -/
def State.bcnBad (s : State) (l : List (Nat × Nat)) : Option Nat := (l.find? fun x => s.eccUncorr x.1 x.2).map (·.1)
def State.bcnEcc (s : State) (a : Nat) : State := s.raise .bcn BCN_ECC_UNCORR (some ⟨a, 29, 1⟩) 0

/-- A record access that meets an uncorrectable error: DDR_ERR, with the address. -/
def State.recBad (s : State) (n : Nat) : Bool := s.eccUncorr (s.lrec n) 256
def State.bcnDdrErr (s : State) (a : Nat) : State :=
  (if s.eccUncorr a 256 then s.memUncorr a 29 else s).raise .bcn BCN_DDR_ERR (some ⟨a, 29, 1⟩) 0

/-! ## Profile sets (R242, R244) -/

def profBytes : Nat := 75272

/-- A schedule step (R244). -/
structure Step' where
  days   : Nat
  anchor : Nat
  mode   : Nat
  fade   : Nat
  time   : Nat
  offset : Int
  level  : Nat

/-- The steps in use of a programme at a key. -/
def State.progSteps (s : State) (key : Nat) : List Step' :=
  (List.range (min 15 (s.rle key 1))).map fun k =>
    let l := s.rbs (key + 16 + 16 * k) 16
    ⟨fldB l 0 1, fldB l 1 1, fldB l 2 1, fldB l 3 1, fldB l 4 2, toSigned 16 (fldB l 6 2), fldB l 8 2⟩

/-- The first field of a step that is out of range, as its offset in the step. -/
def Step'.fault (x : Step') : Option Nat :=
  ([(decide (x.days < 128), 0), (decide (x.anchor ≤ 6), 1), (decide (x.mode ≤ 1), 2), (decide (x.fade ≤ 15), 3),
    (if x.anchor = 0 then decide (x.time < 1440) else x.time == 0, 4),
    (decide (-720 ≤ x.offset) && decide (x.offset ≤ 720), 6), (decide (x.level ≤ 1000), 8)].find? (!·.1)).map (·.2)

/-- The pairs in use of a count map at a key: those before the first COUNT of 0xFFFF. -/
def State.mapPairs (s : State) (key : Nat) : List (Nat × Nat) :=
  ((List.range 16).map fun k => (s.rle (key + 4 * k) 2, s.rle (key + 4 * k + 2) 2)).takeWhile (·.1 != 0xFFFF)

/-- The place of the first number that does not rise above the one before it. -/
def firstFall : List Nat → Nat → Option Nat
  | a :: b :: t, k => if a < b then firstFall (b :: t) (k + 1) else some (k + 1)
  | _, _ => none

/-- The offset of the first field in fault in a profile source at a key, if any (R242). A map with no pair in use faults at
its first COUNT. -/
def State.profFault (s : State) (key : Nat) : Option Nat :=
  let sched : Nat → Option Nat := fun p =>
    let o := 256 * p
    if 15 < s.rle (key + o) 1 then some o
    else (s.progSteps (key + o)).zipIdx.findSome? fun x => x.1.fault.map (· + (o + 16 + 16 * x.2))
  let curve : Nat → Option Nat := fun i =>
    let o := 65536 + 512 * 3 + 2 * i
    let v := s.rle (key + o) 2
    if 65024 < v ∨ (i % 256 ≠ 0 ∧ v < s.rle (key + o - 2) 2) then some o else none
  let cmap : Nat → Option Nat := fun m =>
    let o := 73728 + 64 * m
    let l := s.mapPairs (key + o)
    if l.isEmpty then some o else (firstFall (l.map (·.1)) 0).map fun k => o + 4 * k
  let cls : Nat → Option Nat := fun c =>
    let o := 74752 + 8 * c
    if 1000 < s.rle (key + o) 2 then some o else if 1000 < s.rle (key + o + 2) 2 then some (o + 2) else none
  ((List.range 256).findSome? sched).or (((List.range (256 * 13)).findSome? curve).or
    (((List.range 16).findSome? cmap).or (((List.range 64).findSome? cls).or
      (if s.rle (key + 75264) 4 ≠ 1 then some 75264 else if s.rle (key + 75268) 4 ≠ 0 then some 75268 else none))))

/-! ## Arc levels (R249, R250) -/

/-- The largest number below `hi` for which a falling condition holds, by bisection. -/
def bisect : Nat → Nat → Nat → (Nat → Bool) → Nat
  | 0, lo, _, _ => lo
  | f + 1, lo, hi, p =>
    let m := (lo + hi) / 2
    if hi ≤ lo + 1 then lo else if p m then bisect f m hi p else bisect f lo m p

/-- Entries of the fixed curves: 65,024 · i / 255; 256 · (1 + (253 / 3)(log₁₀(i / 255) + 3)); 65,024 · (i / 255)^(1 / 2.2),
each rounded to nearest: the largest k with k − 1/2 at or below the value, told by powers of integers. -/
def fixedCurve (t i : Nat) : Nat :=
  if t = 0 then (divEven (65024 * i : Nat) 255).toNat
  else if i = 0 then 0
  else if t = 1 then bisect 17 0 65025 fun k => 255 ^ 129536 ≤ i ^ 129536 * 10 ^ (390147 - 6 * k)
  else bisect 17 0 65025 fun k => (2 * k - 1) ^ 11 * 255 ^ 5 ≤ 130048 ^ 11 * i ^ 5

/-- The bytes of a curve of a bank: none for the fixed curves. -/
def curveCells (bank t : Nat) : List (Nat × Nat) := if t < 3 then [] else [(bcnBank bank + 65536 + 512 * t, 512)]

def State.curveEntry (s : State) (bank t i : Nat) : Nat :=
  if t < 3 then fixedCurve t i else s.rle (bcnBank bank + 65536 + 512 * t + 2 * i) 2

/-- arc(t, D) (R249). -/
def State.arc (s : State) (bank t dem : Nat) : Nat :=
  if dem = 0 then 0
  else
    let i := dem * 255 / 1000
    let f := dem * 255 % 1000
    let a := s.curveEntry bank t i
    let b := s.curveEntry bank t (min (i + 1) 255)
    max 1 (divEven (1000 * a + ((b : Int) - a) * f) 256000).toNat

/-! ## Fault events (R261) -/

/-- The stamp form of LAST_REPORT: Tide time in ns. -/
def State.fevWrite (s : State) (source old new : Nat) : State :=
  let k := s.g BCN_FEV_CFG_LOG2_SIZE
  let h := s.g BCN_FEV_HEAD_INDEX
  let t := s.g BCN_FEV_TAIL_INDEX
  let used := ringUsed k h t
  if used = 2 ^ k then s.incSat BCN_FEV_LOST_COUNT 0
  else
    let a := s.g BCN_FEV_BASE_ADDR + 16 * (t % 2 ^ k)
    let s := s.wbsEcc a (leBytes 4 source ++ leBytes 2 old ++ leBytes 2 new ++ leBytes 8 s.tideNs)
    let s := s.p BCN_FEV_TAIL_INDEX 0 (ringNext k t)
    if used = 0 then s.fireEdge srcBcnFev else s

/-- A lantern's FAULTS take a value; a change is an event. -/
def State.putFaults (s : State) (n v : Nat) : State :=
  let old := s.lget n oFAULTS 2
  if old = v then s else (s.lput n oFAULTS 2 v).fevWrite n old v

/-- A gateway's UP takes a value; a change is an event. -/
def State.putUp (s : State) (w : Nat) (b : Bool) : State :=
  let x := s.wget w oWSTATE 4
  if x.testBit 0 = b then s
  else (s.wput w oWSTATE 4 (if b then x + 1 else x - 1)).fevWrite (0x80000000 + w) (bit (!b)) (bit b)

/-! ## Enable check (R246, R269) -/

/-- The DDR port Locks that an access to `n` bytes at an address can touch (R466, R467). -/
def State.ddrLocks (s : State) (a n : Nat) : List Nat :=
  let l0 := s.g MEM_DDR_CFG_LOG2_GB 0
  let l1 := s.g MEM_DDR_CFG_LOG2_GB 0x100
  let size0 := 2 ^ l0 * 2 ^ 30
  if l1 = 0 then [16]
  else if l0 = l1 then [16, 17]
  else if a + n ≤ ddrBase + size0 then [16]
  else if ddrBase + size0 ≤ a then [17]
  else [16, 17]

/-- L_d, and T_pass in ns (R246). -/
def State.bcnLd (s : State) : Nat := listMax ((s.ddrLocks (s.g BCN_LDB_BASE_ADDR) 0x4400000).map fun l => s.lockWait l 8)
def State.tPass (s : State) : Nat := ceilDiv (s.g BCN_LDB_COUNT_COUNT * 25 * (10 + s.bcnLd)) 10

def outside (x lo hi : Nat) : Bool := x < lo || hi < x

/-- Whether the `n` bytes at two addresses overlap. -/
def overlap (a n b m : Nat) : Bool := a < b + m && b < a + n

def State.bcnNeeds (s : State) : Bool :=
  s.on TID_CTRL_ENABLE && s.on ALM_CTRL_ENABLE && s.on MEM_CTRL_ENABLE && s.on BST_CTRL_ENABLE &&
    (List.range 1024).all fun w =>
      let c := s.wcfg w
      !c.on || (c.port < 5 && s.on NET_PORT_CTRL_ENABLE (dPort c.port)) || 4 < c.port

/-- An ON gateway or group, or the zone an ON group names, with a field out of range. -/
def State.bcnEntryBad (s : State) : Bool :=
  let gw : Nat → Bool := fun w =>
    let c := s.wcfg w
    c.on && (c.trans == 0 || c.trans == 3 || 4 < c.port || 511 < c.path || 1023 < c.session)
  let zone : Nat → Bool := fun z =>
    let l := s.rbs (bcnZone z) 16
    63 < fldB l 0 1 || 15 < fldB l 1 1 || outside (fldB l 2 2) 1 3600 || 1000 < fldB l 4 2 || fldB l 6 1 == 0 ||
      outside (fldB l 8 2) 1 1000 || outside (fldB l 10 2) 1 1000
  let grp : Nat → Bool := fun g =>
    let c := s.gcfg g
    c.on && (255 < c.sched || (2047 < c.zone && c.zone != 0xFFF) || 15 < c.curve || (1000 < c.ovr && c.ovr != 0x7FF) ||
      15 < c.ovrFade || (c.zone < 2048 && zone c.zone))
  (List.range 1024).any gw || (List.range 4096).any grp

/-- BCN's check after its needs (R269). -/
def State.bcnCheck (s : State) : Chk :=
  let l := s.g BCN_LDB_BASE_ADDR
  let a := s.g BCN_CAMP_AREA_ADDR
  let lat := toSigned 32 (s.g BCN_SOLAR_LAT_LAT)
  let lon := toSigned 32 (s.g BCN_SOLAR_LON_LON)
  let off := toSigned 12 (s.g BCN_SOLAR_CFG_UTC_OFF_MIN)
  let fev := s.g BCN_FEV_BASE_ADDR
  let k := s.g BCN_FEV_CFG_LOG2_SIZE
  let o : Fld → List Nat := fun f => [f.off]
  firstFail [
    (decide (l % 2 ^ 20 ≠ 0) || decide (a % 2 ^ 20 ≠ 0) || !s.inDdr l 0x4400000 || !s.inDdr a 0x2000000 ||
      overlap l 0x4400000 a 0x2000000, 0x401, o BCN_LDB_BASE_ADDR),
    (decide (1000 < s.g BCN_CFG_FALLBACK_DEM) || outside (s.g BCN_CFG_EVAL_PERIOD_MS) 100 60000, 0x402,
      o BCN_CFG_FALLBACK_DEM),
    (s.g BCN_CFG2_REFRESH_S != 0 && decide (s.g BCN_CFG2_REFRESH_S < 60), 0x402, o BCN_CFG2_REFRESH_S),
    (decide (s.g BCN_TIMEOUT_LANT_SILENT_S < 10) || decide (s.g BCN_TIMEOUT_GW_SILENT_S < 10), 0x402,
      o BCN_TIMEOUT_GW_SILENT_S),
    (decide (s.g BCN_TEMP_AGE_TEMP_AGE_S < 10), 0x402, o BCN_TEMP_AGE_TEMP_AGE_S),
    (outside (s.g BCN_LDB_COUNT_COUNT) 1 262144, 0x402, o BCN_LDB_COUNT_COUNT),
    (decide (lat < -65000000) || decide (65000000 < lat), 0x402, o BCN_SOLAR_LAT_LAT),
    (decide (lon < -180000000) || decide (180000000 < lon), 0x402, o BCN_SOLAR_LON_LON),
    (decide (off < -840) || decide (840 < off), 0x402, o BCN_SOLAR_CFG_UTC_OFF_MIN),
    (outside k 4 16 || fev % 64 != 0 || !inSram fev (16 * 2 ^ k), 0x402, []),
    (s.bcnEntryBad, 0x403, []),
    (decide (500000 * s.g BCN_CFG_EVAL_PERIOD_MS < s.tPass), 0x404, o BCN_CFG_FALLBACK_DEM ++ o BCN_LDB_COUNT_COUNT),
    (s.on BCN_PROF_CTRL_ACTIVE_EMPTY, 0x40A, [])]

/-- After a passing check the registers report (R246). -/
def State.bcnReport (s : State) : State :=
  (s.p BCN_LWAIT_L_D 0 s.bcnLd).p BCN_PASS_WORST_NS 0 s.tPass

/-- BCN's ENABLE is set, and cleared: evaluations, reports and campaigns stop at once (R252, R269). -/
def State.bcnEnable (s : State) : State :=
  ({ s with bcn := { s.bcn with run := none, prev := none, first := true, rx := [], reported := [], cfg := s.bcnCfgNow } }.p
    BCN_STATUS_FIRST_DONE 0 0).bcnReport
def State.bcnDisable (s : State) : State :=
  let s := { s with bcn := { s.bcn with run := none, rx := [] } }
  (s.p BCN_STATUS_PASS 0 0).p BCN_STATUS_FIRST_DONE 0 0

end Sys2Proof.Machine
end

