-- ==== Sys2Proof/Machine/BeaconCopy.lean ====
section
/-! DEFINITION. The Beacon's part of the pair: stream 7, what a take-up writes, and the takeover (R267, R411, R412, R414,
R418). Where R408 gives region 7 no layout beyond the Beacon's tables, the model's is: octet 0x100000 the fault event
ring's indices, octet 0x100040 + 64 × c campaign c's registers; of a RUNNING campaign octet 0x200000 + 0x8000 × c a bit for
each lantern that is a target, and octet 0x300000 + 0x2000 × c eight octets for each gateway (the next chunk, timeouts in a
row, whether the commit is sent, whether a frame waits). Readings and choices: DEDUCED log 32. -/

namespace Sys2Proof.Machine

def dCamp (c : Nat) : Nat := 0x40 * c

/-- The state fields of the campaign registers (R267). -/
def campFields : List Fld :=
  [BCN_CAMP_STATUS_STATE, BCN_CAMP_STATUS_FAIL, BCN_CAMP_STATUS_WAVE, BCN_CAMP_TARGETS_COUNT, BCN_CAMP_DONE_COUNT,
    BCN_CAMP_FAILED_COUNT, BCN_CAMP_PROG_PERMYRIAD_STATE, BCN_CAMP_PROG_PERMYRIAD_VAL, BCN_CAMP_PROG_POSITION_VAL,
    BCN_CAMP_PROG_TOTAL_VAL]

/-- A line of registers. -/
def State.regLine (s : State) (fs : List Fld) (d : Nat) : List Byte := (fs.flatMap fun f => leBytes 4 (s.g f d)) ++
  List.replicate (64 - 4 * fs.length) 0
def State.putRegLine (s : State) (fs : List Fld) (d : Nat) (bs : List Byte) : State :=
  fs.zipIdx.foldl (fun s x => s.p x.1 d (fldB bs (4 * x.2) 4)) s

def fevFields : List Fld := [BCN_FEV_HEAD_INDEX, BCN_FEV_TAIL_INDEX, BCN_FEV_LOST_COUNT]

/-- Octets with those at some places unknown: every ARC_SENT goes as 0xFF (R411). -/
def blank (places : List Nat) (l : List Byte) : List Byte :=
  l.zipIdx.map fun x => if places.contains x.2 then 0xFF else x.1

/-- The two lines of a lantern's state half. -/
def State.lanternLines (s : State) (n : Nat) : List (Nat × List Byte) :=
  let o := 256 * n + 128
  [(8 * 2 ^ 60 + o, blank [25] (s.rbs (s.ldb + o) 64)), (8 * 2 ^ 60 + o + 64, s.rbs (s.ldb + o + 64) 64)]

def State.camp (s : State) (c : Nat) : BcnCamp := AMap.get {} s.bcn.camps c
def State.setCamp (s : State) (c : Nat) (x : BcnCamp) : State :=
  { s with bcn := { s.bcn with camps := AMap.set {} s.bcn.camps c x } }
def BcnCamp.gw (x : BcnCamp) (w : Nat) : CampGw := AMap.get {} x.gws w
def BcnCamp.setGw (x : BcnCamp) (w : Nat) (g : CampGw) : BcnCamp := { x with gws := AMap.set {} x.gws w g }

/-- The targets of a campaign as bits, 512 a line; the gateways, 8 a line (R267). -/
def BcnCamp.targetLine (x : BcnCamp) (k : Nat) : List Byte :=
  leBytes 64 ((x.targets.filter fun t => t.lantern / 512 = k).map fun t => 2 ^ (t.lantern % 512)).sum
def CampGw.octets (g : CampGw) : List Byte := leBytes 2 g.next ++ leBytes 2 g.fails ++ leBytes 2 (bit g.commit) ++ leBytes 2 (bit g.waiting)
def CampGw.of (l : List Byte) : CampGw := ⟨fldB l 0 2, fldB l 2 2, fldB l 4 2 == 1, fldB l 6 2 == 1, 0⟩
def State.campLines (s : State) (c : Nat) : List (Nat × List Byte) :=
  let x := s.camp c
  if s.g BCN_CAMP_STATUS_STATE (dCamp c) = 2 then
    (List.range (ceilDiv s.lanterns 512)).map (fun k => (7 * 2 ^ 60 + 0x200000 + 0x8000 * c + 64 * k, x.targetLine k)) ++
      (List.range 128).map fun k => (7 * 2 ^ 60 + 0x300000 + 0x2000 * c + 64 * k,
        (List.range 8).flatMap fun i => (x.gw (8 * k + i)).octets)
  else []

/-- Lines of the Beacon's SRAM. -/
def State.bcnSram (s : State) : List (Nat × List Byte) :=
  ((List.range 4096).map fun k =>
    (7 * 2 ^ 60 + 64 * k, blank (if k < 2048 then [18, 50] else []) (s.rbs (winBase + 0x680000 + 64 * k) 64))) ++
  [(7 * 2 ^ 60 + 0x100000, s.regLine fevFields 0)] ++
  (List.range 8).flatMap fun c => (7 * 2 ^ 60 + 0x100040 + 64 * c, s.regLine campFields (dCamp c)) :: s.campLines c

/-- Lines that a copy of stream 7 of at most 4 MB can carry (R412). -/
def bcnMaxLines : Nat := (2 ^ 22 - 56) * 56 / 4052

/-- The copy point of stream 7, at a pass's end: the state halves changed, and the next 8,192 of the rolling sweep,
shortened to fit (R411, R412). -/
def State.bcnCopyPoint (s : State) : State :=
  if s.copyNow 7 then
    let s := s.cutCopy 7
    let base := s.bcnSram
    let room := (bcnMaxLines - base.length) / 2
    let count := s.lanterns
    let ch := s.bcn.changed.take room
    let n := min (min 8192 (room - ch.length)) count
    let sweep := (List.range n).map fun k => (s.pair.sweep + k) % count
    let recs := base ++ (ch ++ sweep).flatMap s.lanternLines
    let s := s.sendCopy 7 recs 0 0 ch false s.pair.sweep
    { s with bcn := { s.bcn with changed := s.bcn.changed.drop room },
             pair := { s.pair with sweep := (s.pair.sweep + n) % (max 1 count) } }
  else s

/-- A copy in full follows (R416): every state half counts as changed, and the sweep begins anew. -/
def State.bcnFull (s : State) : State :=
  { s with bcn := { s.bcn with changed := List.range s.lanterns }, pair := { s.pair with sweep := 0 } }

/-- Write the octets of a line that are state: a mask of places. -/
def State.putPlaces (s : State) (key : Nat) (places : List Nat) (bs : List Byte) : State :=
  places.foldl (fun s i => s.wb (key + i) (bs.getD i 0)) s

/-- State fields of the tables other than ARC_SENT: places in a line at an offset from the tables' start. -/
def tablePlaces (o : Nat) : List Nat :=
  if o < 0x20000 then [16, 17, 19] ++ rangeFrom 20 32 ++ [48, 49, 51] ++ rangeFrom 52 64
  else if o < 0x30000 then rangeFrom 16 32 ++ rangeFrom 48 64
  else rangeFrom 32 64

/-- Take up one line of stream 7. -/
def State.bcnTakeLine (s : State) (r : Nat × List Byte) : State :=
  let o := r.1 % 2 ^ 60
  if r.1 / 2 ^ 60 = 8 then
    let places := if o % 256 = 128 then (List.range 64).filter (· != 25) else List.range 64
    let s := s.putPlaces (s.ldb + o) places r.2
    let n := o / 256
    if o % 256 = 192 ∧ n = s.pair.swept then
      let s := { s with pair := { s.pair with swept := n + 1 } }
      if n + 1 = s.lanterns then s.p PAIR_STATUS_BCN_SYNCED 0 1 else s
    else s
  else if o < 0x40000 then s.putPlaces (winBase + 0x680000 + o) (tablePlaces o) r.2
  else if o = 0x100000 then s.putRegLine fevFields 0 r.2
  else if o < 0x200000 then s.putRegLine campFields (dCamp ((o - 0x100040) / 64)) r.2
  else if o < 0x300000 then
    let c := (o - 0x200000) / 0x8000
    let x := s.camp c
    s.setCamp c { x with mask := AMap.set 0 x.mask (o % 0x8000 / 64) (leNat r.2) }
  else
    let c := (o - 0x300000) / 0x2000
    let w := 8 * (o % 0x2000 / 64)
    s.setCamp c ((List.range 8).foldl (fun x i => x.setGw (w + i) (CampGw.of ((r.2.drop (8 * i)).take 8))) (s.camp c))

/-- A campaign taken over: its targets as the copy names them, each as its record holds it. The timeouts of the gateways
that wait begin anew, and chunks without an acknowledgement are sent again when they pass. -/
def State.campFromRecords (s : State) (c : Nat) : BcnCamp :=
  let y := s.camp c
  let one : Nat → Option CampTarget := fun n =>
    let x := s.lcfg n
    if (AMap.get 0 y.mask (n / 512)).testBit (n % 512) then
      some ⟨n, x.gateway, x.laddr, s.lget n oSTATUS 1 % 8, s.lget n oFWACKED 4⟩
    else none
  { y with targets := (List.range s.lanterns).filterMap one, last := none, mask := []
           gws := y.gws.map fun g => (g.1, { g.2 with waiting := true, since := s.fab - s.bcn.paused }) }

/-- The Beacon takes over (R267, R418): TX_SEQ rises by 2²⁰, campaigns go on from the copied state, and every ARC_SENT
counts as unknown. -/
def State.bcnTakeover (s : State) : State :=
  let s := (List.range 1024).foldl (fun s w => s.wput w oTXSEQ 8 (min (2 ^ 48 - 1) (s.wget w oTXSEQ 8 + 2 ^ 20))) s
  let s := (List.range 8).foldl (fun s c =>
    if s.g BCN_CAMP_STATUS_STATE (dCamp c) = 2 then
      { s with bcn := { s.bcn with camps := AMap.set {} s.bcn.camps c (s.campFromRecords c) } }
    else s) s
  { s with bcn := { s.bcn with first := true } }

end Sys2Proof.Machine
end

