-- ==== Sys2Proof/Machine/Beacon.lean ====
section
/-! DEFINITION. The Beacon's evaluations, commands and frames (R242, R243, R245 to R255, R258, R260).
Readings and choices: DESIGN CHOICE log 27; DEDUCED log 32. -/

namespace Sys2Proof.Machine

/-! ## Profile banks (R242, R243) -/

/-- BCN_REBUILD (R242): 1 written to BCN_PROF_CMD. -/
def State.bcnRebuild (s : State) : State :=
  let a := s.g BCN_PROF_SRC_ADDR
  if s.g BCN_PROF_CTRL_SHADOW = 1 ∨ a % 64 ≠ 0 ∨ s.inRam a profBytes = false then s.p BCN_PROF_CTRL_REFUSAL 0 0x406
  else s.p BCN_PROF_CTRL_SHADOW 0 1
/-- BCN_REBUILD (R242): the register write as a command. -/
def execBcnRebuild (s : State) : Out' := .next (s.command fun s => s.bcnRebuild)

/-- The offset of the first word of the source that ECC cannot correct. -/
def State.profLost (s : State) (a : Nat) : Option Nat :=
  if s.eccUncorr a profBytes then
    ((List.range (profBytes / 8)).find? fun i => s.eccUncorr (a + 8 * i) 8).map (8 * ·)
  else none

/-- The source has been read and validated. A read of a word that cannot be corrected ends in an error response too (R469). -/
def State.bcnRebuildEnd (s : State) (readErr : Option Nat) : State :=
  let a := s.g BCN_PROF_SRC_ADDR
  let fail : State → Nat → State := fun s o => (s.p BCN_PROF_CTRL_SHADOW 0 3).p BCN_PROF_FAIL_OFFSET 0 o
  let lost := s.profLost a
  let s := (match lost with | some o => s.memUncorr (a + o) 29 | none => s).eccSeen a profBytes
  match readErr.or lost with
  | some o => fail (s.raise .bcn BCN_REBUILD_ERR (some ⟨a + o, 29, 1⟩) 0) o
  | none =>
    match s.profFault a with
    | some o => fail s o
    | none =>
      let b := 1 - s.g BCN_PROF_CTRL_ACTIVE_BANK
      let s := s.wbsEcc (bcnBank b) (s.rbs a profBytes)
      { s with bcn := { s.bcn with filled := b :: s.bcn.filled.filter (· != b) } }.p BCN_PROF_CTRL_SHADOW 0 2

/-- BCN_REBUILD_END (R242, R268): `readErr` where a read ended with an error response at that offset. -/
def execBcnRebuildEnd (readErr : Option (Fin 75272)) (s : State) : Out' :=
  .next (if s.g BCN_PROF_CTRL_SHADOW = 1 then s.bcnRebuildEnd (readErr.map (·.val)) else s)

/-- BCN_BANK_SWAP (R243): a write of ACTIVE_BANK; ACTIVE_EMPTY then tells of the bank it names. -/
def State.bcnSwap (s : State) (b : Nat) : State :=
  if s.g BCN_PROF_CTRL_ACTIVE_BANK = b then s
  else if s.g BCN_PROF_CTRL_SHADOW ≠ 2 then s.p BCN_PROF_CTRL_REFUSAL 0 0x405
  else (s.p BCN_PROF_CTRL_ACTIVE_BANK 0 b).p BCN_PROF_CTRL_ACTIVE_EMPTY 0 (bit (!s.bcn.filled.contains b))
/-- BCN_BANK_SWAP (R243): the register write as a command. -/
def execBcnBankSwap (bank : Fin 2) (s : State) : Out' := .next (s.command fun s => s.bcnSwap bank.val)

/-! ## Frames (R251, R253 to R255) -/

/-- A message: its head and body (R256). -/
def bcnMsg (type : Nat) (body : List Byte) : List Byte := [BitVec.ofNat 8 type, 0] ++ beBytes 2 body.length ++ body

/-- Octets of a Beacon frame with `n` octets of messages (R254). -/
def bcnOctets (c : WCfg) (n : Nat) : Nat := (if c.trans = 1 then 78 else 98) + n + (if c.vlan then 4 else 0)

/-- The GCM nonce (R255). -/
def bcnNonce (dir phase gw seq : Nat) : List Byte :=
  [BitVec.ofNat 8 dir, BitVec.ofNat 8 phase] ++ beBytes 2 gw ++ [0, 0] ++ beBytes 6 seq

def bcnHeader (dir phase gw seq sysid : Nat) : List Byte :=
  [1, BitVec.ofNat 8 dir, BitVec.ofNat 8 phase, 0] ++ beBytes 2 gw ++ beBytes 6 seq ++ beBytes 4 sysid

/-- Offer a frame of messages for a gateway on a path (R30, R251, R255): whether it is accepted. -/
def State.bcnOffer (s : State) (w path : Nat) (msgs : List Byte) : Bool × State :=
  let c := s.wcfg w
  let size := bcnOctets c msgs.length
  if s.offerCode path size true = 0 then
    let seq := s.wget w oTXSEQ 8
    let key := (s.sessKey c.session c.phase).getD []
    let head := bcnHeader 0 c.phase w seq (s.g BCN_SYSID_SYSTEM_ID)
    let x := aesGcm key (bcnNonce 0 c.phase w seq) head msgs
    let a := s.acceptItem path
    let port := s.pathTarget path
    let car : Carrier := ⟨c.trans, a.2.portNexthop port, if c.vlan then some c.tci else none, c.ip, s.g BCN_UDP_PORT, c.udp⟩
    let f := a.2.buildFrame port car 0 (head ++ x.1 ++ x.2)
    (true, (f.2.queueFrame port ⟨s.pathPrio path, .octets f.1, some a.1, size⟩).wput w oTXSEQ 8 (seq + 1))
  else (false, s.rejectItem path)

def State.bframe (r : BcnRun) (w : Nat) : BcnFrame := (AMap.get none r.frames w).getD ⟨[], [], [], false⟩

/-- Whether command frames are offered in this mode (R253): in SAFE they are, and refused under R31. Campaign frames are
not. -/
def State.bcnOffers (s : State) : Bool := s.mode == COMMISSION || s.mode == RUN || s.mode == SAFE

/-- Close the open frame of a gateway: it is offered, and what it sets follows (R251, R258). -/
def State.closeFrame (s : State) (w : Nat) : State :=
  match s.bcn.run with
  | none => s
  | some r =>
    match AMap.get none r.frames w with
    | none => s
    | some f =>
      let x := if s.bcnOffers && s.gwUsable w && !f.msgs.isEmpty then s.bcnOffer w (s.wcfg w).path f.msgs else (false, s)
      let mark := f.groups.foldl (fun m g => AMap.set 0 m (4096 * w + g) (if x.1 then 2 else 3)) r.sent
      let r := { r with frames := AMap.set none r.frames w none, sent := mark }
      let s := { x.2 with bcn := { x.2.bcn with run := some r } }
      if x.1 then
        let s := f.lanterns.foldl (fun s y => s.lput y.1 oARCSENT 1 y.2) s
        if f.pt then { s with bcn := { s.bcn with pt := none } }.p BCN_PT_CMD_BUSY 0 0 else s
      else s

/-- Whether `n` octets of messages take a gateway's frame past its path's MAX_SIZE. -/
def State.frameOver (s : State) (w n : Nat) : Bool :=
  let c := s.wcfg w
  decide (s.g SYS_CTR_SIZE_MAX_SIZE (dPath c.path) < bcnOctets c n)

/-- The open frame of a gateway, or a new one for a message of `n` octets: the PASSTHRU that waits goes first (R258). -/
def State.frameFor (s : State) (r : BcnRun) (w n : Nat) : BcnFrame :=
  match AMap.get none r.frames w with
  | some f => f
  | none =>
    let pt := match s.bcn.pt with
      | some (v, bs) => if v = w then bcnMsg 3 bs else []
      | none => []
    if pt.isEmpty || s.frameOver w (pt.length + n) then ⟨[], [], [], false⟩ else ⟨pt, [], [], true⟩

/-- Queue a message in a gateway's open frame; a frame it would take past MAX_SIZE is closed first (R251). -/
def State.addMsg (s : State) (w : Nat) (msg : List Byte) (f : BcnFrame → BcnFrame) : State :=
  let full : Bool := match s.bcn.run with
    | some r =>
      let o := State.bframe r w
      !o.msgs.isEmpty && s.frameOver w (o.msgs.length + msg.length)
    | none => false
  let s := if full then s.closeFrame w else s
  match s.bcn.run with
  | none => s
  | some r =>
    let o := s.frameFor r w msg.length
    let r := { r with frames := AMap.set none r.frames w (some (f { o with msgs := o.msgs ++ msg })) }
    { s with bcn := { s.bcn with run := some r } }

/-! ## The solar-event unit in use (R245) -/

/-- The local minute of an event; an event within 2⁻²⁰ min of a minute's edge may fall on either side, as FP64 rounds. -/
def State.eventMinute (s : State) (n : Nat) (off : Int) (t : Option Int) : Option Nat × State :=
  match t with
  | none => (none, s)
  | some t =>
    let m := localMinute n off t
    let near := fxOne / 2 ^ 20
    let x : Int × State :=
      if m.2 < near then (let y := s.draw; (m.1 - (y.1 % 2 : Nat), y.2))
      else if fxOne - near < m.2 then (let y := s.draw; (m.1 + (y.1 % 2 : Nat), y.2))
      else (m.1, s)
    (if 0 ≤ x.1 ∧ x.1 < 1440 then some x.1.toNat else none, x.2)

/-- At the first evaluation of a date, and after a change of position or offset, the events are computed anew. -/
def State.solar (s : State) : State :=
  let c := s.cal
  let n := dayNumber c.year c.month c.day
  let lat := s.g BCN_SOLAR_LAT_LAT
  let lon := s.g BCN_SOLAR_LON_LON
  let off := s.g BCN_SOLAR_CFG_UTC_OFF_MIN
  let key := (n, lat, lon, off)
  if s.bcn.solarFor = some key then s
  else
    let yesterday := match s.bcn.solarFor with
      | some k => if k.1 = n then s.bcn.yesterday else s.bcn.today
      | none => s.bcn.yesterday
    let x := (solarDays n (toSigned 32 lat) (toSigned 32 lon)).foldl (fun (acc : List (Option Nat) × State) t =>
      let m := acc.2.eventMinute n (toSigned 12 off) t
      (acc.1 ++ [m.1], m.2)) ([], s)
    let s := x.2
    let s := { s with bcn := { s.bcn with solarFor := some key, today := x.1, yesterday := yesterday } }
    (List.range 6).foldl (fun s k =>
      let m := x.1.getD k none
      (s.p BCN_SOLAR_EVT_VALID (4 * k) (bit m.isSome)).p BCN_SOLAR_EVT_MINUTE (4 * k) (m.getD 0)) s

/-! ## Zone phase (R247) -/

/-- The count map's demand for a count. -/
def mapDemand : List (Nat × Nat) → Nat → Nat
  | [], _ => 0
  | [p], _ => p.2
  | p :: q :: t, x =>
    if x ≤ p.1 then p.2
    else if x < q.1 then
      (divEven ((p.2 : Int) * ((q.1 : Int) - p.1) + ((q.2 : Int) - p.2) * ((x : Int) - p.1)) (q.1 - p.1)).toNat
    else mapDemand (q :: t) x

/-- Whether a boundary at a multiple of `p` seconds has passed between two times in ns. -/
def passed (p prev now : Nat) : Bool := p ≠ 0 && prev / 1000000000 / p ≠ now / 1000000000 / p

/-- Move a level toward a target by at most a step. -/
def stepTo (x target up down : Nat) : Nat := if x < target then min target (x + up) else max target (x - down)

/-- A zone's evaluation at `now`, the one before having been at `prev`, in ns. -/
def State.zoneEval (s : State) (bank now : Nat) (prev : Option Nat) (z : Nat) : State :=
  let a := bcnZone z
  let l := s.rbs a 32
  let cls := bcnBank bank + 74752 + 8 * (fldB l 0 1 % 64)
  let minDem := s.rle cls 2
  let base := max (s.rle (cls + 2) 2) minDem
  let f := fldB l 28 4
  let idle := f % 256
  let counted := f.testBit 8
  let stale := f.testBit 9
  let seen := f.testBit 10
  let target := fldB l 20 2
  let acc := fldB l 16 4
  let edge := match prev with | some p => passed (fldB l 2 2) p now | none => false
  let m := max (mapDemand (s.mapPairs (bcnBank bank + 73728 + 64 * (fldB l 1 1 % 16))) acc) minDem
  let r : Nat × Nat × Bool × Bool × Nat × Bool :=
    if edge = false then (target, idle, counted, stale, acc, seen)
    else if seen = true then
      (if counted = false ∨ target < m ∨ m + fldB l 4 2 < target then m else target, 0, true, false, 0, false)
    else if counted = true then
      let i := min (idle + 1) 255
      if fldB l 6 1 ≤ i then (base, i, counted, true, acc, seen) else (target, i, counted, stale, acc, seen)
    else (target, idle, counted, stale, acc, seen)
  let target := if r.2.2.1 then r.1 else base
  let level := match prev with
    | none => target
    | some p =>
      let ms := (now - p) / 1000000
      stepTo (fldB l 22 2) target (ceilDiv (fldB l 8 2 * ms) 1000) (ceilDiv (fldB l 10 2 * ms) 1000)
  let flags := r.2.1 + bit r.2.2.1 * 256 + bit r.2.2.2.1 * 512 + bit r.2.2.2.2.2 * 1024
  (((s.wle (a + 16) 4 r.2.2.2.2.1).wle (a + 20) 2 target).wle (a + 22) 2 level).wle (a + 28) 4 flags

/-- A zone whose entry, class or map has an uncorrectable error is left out (R268). -/
def State.zonePhase (s : State) (bank now : Nat) (prev : Option Nat) (z : Nat) : State :=
  let a := bcnZone z
  let p := bcnBank bank
  match s.bcnBad [(a, 32), (p + 74752 + 8 * (s.rle a 1 % 64), 8), (p + 73728 + 64 * (s.rle (a + 1) 1 % 16), 64)] with
  | some k => s.bcnEcc k
  | none => s.zoneEval bank now prev z

/-! ## Group phase (R248) -/

/-- The steps of a day that have an instant, with it: weekday and events of that day. -/
def stepTimes (steps : List Step') (wd : Nat) (ev : List (Option Nat)) : List (Nat × Int × Step') :=
  steps.zipIdx.filterMap fun x =>
    let p := x.1
    let base : Option Nat := if p.anchor = 0 then some p.time else ev.getD (p.anchor - 1) none
    match base with
    | none => none
    | some m =>
      let t := (m : Int) * 60 + p.offset * 60
      if p.days.testBit wd ∧ 0 ≤ t ∧ t ≤ 86399 then some (x.2, t, p) else none

/-- The step with the largest instant, the higher number on a tie. -/
def latestStep (l : List (Nat × Int × Step')) : Option (Nat × Int × Step') :=
  l.foldl (fun b x => match b with | none => some x | some y => if y.2.1 ≤ x.2.1 then some x else b) none

/-- An ON group's demand, fade and STEP. -/
def State.groupDemand (s : State) (bank : Nat) (c : GCfg) : Nat × Nat × Nat :=
  if s.osf then (s.g BCN_CFG_FALLBACK_DEM, 0, 0xFF)
  else
    let t := s.cal
    let now : Int := t.hour * 3600 + t.minute * 60 + t.second
    let steps := s.progSteps (bcnBank bank + 256 * c.sched)
    let today := (stepTimes steps s.weekday s.bcn.today).filter fun x => decide (x.2.1 ≤ now)
    let active := (latestStep today).or (latestStep (stepTimes steps ((s.weekday + 6) % 7) s.bcn.yesterday))
    match active with
    | none => (0, 0, 0xFF)
    | some x =>
      let p := x.2.2
      (if p.mode = 0 ∨ c.zone = 0xFFF then p.level else min p.level (s.rle (bcnZone (c.zone % 2048) + 22) 2), p.fade, x.1)

def ovrActive (c : GCfg) (nowS : Nat) : Bool :=
  c.ovr ≤ 1000 && (c.ovrUntil == 0 ||
    (let d := (c.ovrUntil + 2 ^ 32 - nowS % 2 ^ 32) % 2 ^ 32
     1 ≤ d && d ≤ 2 ^ 31 - 1))

/-- An ON group's evaluation. -/
def State.groupEval (s : State) (bank now : Nat) (force : Bool) (g : Nat) : State :=
    let c := s.gcfg g
    let d := s.groupDemand bank c
    let o := ovrActive c (now / 1000000000)
    let dem := if o then c.ovr else d.1
    let fade := if o then c.ovrFade else d.2.1
    let arc := s.arc bank c.curve dem
    let sent := if force then 0xFF else s.rle (bcnGrp g + 18) 1
    let s := (s.wle (bcnGrp g + 16) 2 dem).wle (bcnGrp g + 19) 1 d.2.2
    match s.bcn.run with
    | none => s
    | some r =>
      let x : BcnGroup := ⟨dem, fade, arc, c.cast && arc != sent⟩
      { s with bcn := { s.bcn with run := some { r with groups := AMap.set none r.groups g (some x) } } }

/-- A group whose entry, programme or curve has an uncorrectable error is left out (R268). -/
def State.groupPhase (s : State) (bank now : Nat) (force : Bool) (g : Nat) : State :=
  let c := s.gcfg g
  match s.bcnBad ([(bcnGrp g, 32)] ++ if c.on then (bcnBank bank + 256 * c.sched, 256) :: curveCells bank c.curve else []) with
  | some k => s.bcnEcc k
  | none => if c.on then s.groupEval bank now force g else s

/-! ## The pass (R235, R237, R249, R251, R260) -/

/-- Whether messages for a group may be sent: in COMMISSION only for a group whose COMM_EN is 1 (R253). -/
def State.grpSends (s : State) (g : Nat) : Bool :=
  s.bcnOffers && (s.mode ≠ COMMISSION || (s.gcfg g).comm)

/-- Configurations are read: TORN follows the sequences (R235), the reverse map the ON lanterns, and of two at one place
the lower-numbered holds it, the other reading CONFLICT until the clash ends (R237). `bad` are lanterns whose record read
failed (R268): they and the torn keep their places. -/
def State.readConfigs (s : State) (bad : List Nat) : State :=
  let ns := (List.range s.lanterns).filter fun n => !bad.contains n
  let s := ns.foldl (fun s n => s.lsetBit n 3 (s.lcfg n).torn) s
  let keep := s.bcn.conf.filter fun x => bad.contains x.2.2 || s.lbit x.2.2 3
  let fresh := ns.filterMap fun n =>
    let c := s.lcfg n
    if c.on && !c.torn then some (c.gateway, c.laddr, n) else none
  let conf := keep ++ fresh
  let s := s.bcn.conf.foldl (fun s x => s.wle (s.revKey x.1 x.2.1) 4 0) s
  let holder : Nat × Nat × Nat → Nat := fun x =>
    (conf.filter fun y => y.1 = x.1 ∧ y.2.1 = x.2.1).foldl (fun m y => min m y.2.2) x.2.2
  let s := conf.foldl (fun s x => s.wle (s.revKey x.1 x.2.1) 4 (2 ^ 31 + holder x)) s
  let s := ns.foldl (fun s n => if (conf.any fun x => x.2.2 = n) then s else s.lsetBit n 4 false) s
  let s := (conf.filter fun x => !bad.contains x.2.2).foldl (fun s x => s.lsetBit x.2.2 4 (holder x != x.2.2)) s
  { s with bcn := { s.bcn with conf := conf } }

/-- A lantern's level (R249). -/
def State.lanternArc (s : State) (bank now n dem : Nat) (c : LCfg) : Nat :=
  let temp := toSigned 16 (s.lget n oTEMP 2)
  let valid := s.lget n oTEMP 2 ≠ 0x8000 ∧
    now < s.lget n oREPORT 8 + s.g BCN_TEMP_AGE_TEMP_AGE_S * 1000000000
  let cap : Int := max (c.derMin : Int) (1000 - c.slope * (temp - c.knee) / 10)
  let d : Nat := if c.noDerate = false ∧ valid ∧ c.knee < temp then (min (dem : Int) cap).toNat else dem
  s.arc bank c.curve (divEven (d * c.scale : Nat) 1000).toNat

/-- SILENT in the pass (R260): of every lantern that is not left out. -/
def State.silent (s : State) (now n : Nat) (c : LCfg) : State :=
  if s.gwUp c.gateway ∧ s.lget n oREPORT 8 + s.g BCN_TIMEOUT_LANT_SILENT_S * 1000000000 < now then
    s.putFaults n (s.lget n oFAULTS 2 ||| 0x8000)
  else s

/-- The ARC_SENT of a lantern follows the fate of the GROUP_SET of its group and gateway: now where that frame has been
accepted, with the frame where it is open (R251). -/
def State.followGroup (s : State) (w key n arc : Nat) : State :=
  match s.bcn.run with
  | none => s
  | some r =>
    let fate := AMap.get 0 r.sent key
    if fate = 2 then s.lput n oARCSENT 1 arc
    else if fate = 1 then
      let f := State.bframe r w
      let f := { f with lanterns := f.lanterns ++ [(n, arc)] }
      { s with bcn := { s.bcn with run := some { r with frames := AMap.set none r.frames w (some f) } } }
    else s

/-- A lantern is visited. One whose group, gateway entry or curve an uncorrectable error takes out is left out (R268). -/
def State.visit (s : State) (bank now n : Nat) : State :=
  let c := s.lcfg n
  if !c.torn && !s.lbit n 4 then
    let s := s.silent now n c
    match s.bcn.run with
    | none => s
    | some r =>
      let w := c.gateway
      let gr := AMap.get none r.groups c.group
      let gc := s.gcfg c.group
      if c.on && s.gwUsable w && !(gc.on && gr.isNone) && (s.bcnBad ((bcnGw w, 64) :: curveCells bank c.curve)).isNone then
        let x : BcnGroup := gr.getD ⟨0, 0, 0, false⟩
        let al := s.lanternArc bank now n x.dem c
        let key := 4096 * w + c.group
        let s := if x.send && s.grpSends c.group && AMap.get 0 r.sent key == 0 then
            let s := s.addMsg w (bcnMsg 1 (beBytes 2 c.group ++ [BitVec.ofNat 8 x.arc, BitVec.ofNat 8 x.fade])) fun f =>
              { f with groups := f.groups ++ [c.group] }
            match s.bcn.run with
            | some r => { s with bcn := { s.bcn with run := some { r with sent := AMap.set 0 r.sent key 1 } } }
            | none => s
          else s
        let fate : Nat := match s.bcn.run with | some r => AMap.get 0 r.sent key | none => 0
        let s := s.followGroup w key n x.arc
        if gr.isSome && gc.cast && c.curve == gc.curve && al == x.arc then s
        else
          let expected := if fate ≠ 0 then x.arc else if r.force then 0xFF else s.lget n oARCSENT 1
          if al ≠ expected ∧ s.grpSends c.group = true then
            s.addMsg w (bcnMsg 2 (beBytes 2 c.laddr ++ [BitVec.ofNat 8 al, BitVec.ofNat 8 x.fade])) fun f =>
              { f with lanterns := f.lanterns ++ [(n, al)] }
          else s
      else s
  else s

/-- The PASSTHRU that waits opens its gateway's frame (R258). -/
def State.openPassthru (s : State) : State :=
  match s.bcn.pt with
  | some (w, bs) =>
    if s.bcnOffers && s.gwUsable w then
      match s.bcn.run with
      | some r => { s with bcn := { s.bcn with run := some { r with
          frames := AMap.set none r.frames w (some ⟨bcnMsg 3 bs, [], [], true⟩) } } }
      | none => s
    else s
  | none => s

/-- Gateway entries and profile curves in use that an uncorrectable error stands in (R268). -/
def State.bcnSramFaults (s : State) (bank : Nat) : List Nat :=
  ((List.range 1024).flatMap (fun w => if (s.wcfg w).on then [(bcnGw w, 64)] else []) ++
    (List.range 16).flatMap (curveCells bank)).filterMap fun x => s.bcnBad [x]

/-- EVALUATION_START (R246 to R249, R251, R252, R260): an evaluation falls due at a Tide time that is a multiple of
EVAL_PERIOD_MS; `ddrErr` are the lanterns whose record read ends in an error response (R268). -/
def execEvaluationStart (ddrErr : List (Fin 262144)) (s : State) : Out' :=
  .next (if s.on BCN_CTRL_ENABLE && !s.pair.bcnWait && s.atInstant 255 (1000000 * s.g BCN_CFG_EVAL_PERIOD_MS) 0 then
      let s := s.takeInstant 255
      if s.bcn.run.isSome then (s.incSat BCN_EVALS_SKIPPED 0).raise .bcn BCN_EVAL_OVERRUN none 0
      else
        let now := s.tideNs
        let bank := s.g BCN_PROF_CTRL_ACTIVE_BANK
        let s := { s with bcn := { s.bcn with cfg := s.bcnCfgNow } }
        let count := s.lanterns
        let bad := (List.range count).filter fun n => s.recBad n || ddrErr.any (·.val == n)
        let prev := s.bcn.prev
        let refresh := match prev with | some p => passed (s.g BCN_CFG2_REFRESH_S) p now | none => false
        let force := s.bcn.first || refresh
        let s := if s.bcn.first then
            let s := { s.clearRange (s.ldb + 0x4000000) 0x400000 with bcn := { s.bcn with conf := [] } }
            let s := (List.range 4096).foldl (fun s g => s.wle (bcnGrp g + 18) 1 0xFF) s
            (List.range count).foldl (fun s n => s.lput n oARCSENT 1 0xFF) s
          else s
        let r : BcnRun := { at_ := s.tide, force := force }
        let s := { s with bcn := { s.bcn with run := some r, prev := some now } }
        let s := (s.p BCN_STATUS_PASS 0 1).p BCN_STATUS_CLOCK_INVALID 0 (bit s.osf)
        let s := s.solar
        let s := (List.range 2048).foldl (fun s z => s.zonePhase bank now prev z) s
        let s := (List.range 4096).foldl (fun s g => s.groupPhase bank now force g) s
        let s := (s.bcnSramFaults bank).foldl State.bcnEcc s
        let s := bad.foldl (fun s n => s.bcnDdrErr (s.lrec n)) s
        let s := s.readConfigs bad
        let s := s.p BCN_EVALS_TORN 0 ((List.range count).countP fun n => s.lbit n 3)
        let s := s.openPassthru
        (List.range count).foldl (fun s n => if bad.contains n then s else s.visit bank now n) s
    else s)

/-- BCN_PASS_END (R246, R251): the open frames are offered, the groups' ARC_SENT, MEMBERS, FAULTY and the fault counts
follow as one snapshot, BCN_PASS fires, and a copy point of stream 7 falls (R411). -/
def execBcnPassEnd (s : State) : Out' :=
  .next (match s.bcn.run with
    | none => s
    | some r0 =>
      let s := (r0.frames.map (·.1)).foldl (fun s w => s.closeFrame w) s
      let sent := match s.bcn.run with | some r => r.sent | none => []
      let s := r0.groups.foldl (fun s x => match x.2 with
        | some g =>
          let fates := (sent.filter fun y => y.1 % 4096 = x.1).map (·.2)
          if g.send && !fates.isEmpty && fates.all (· == 2) then s.wle (bcnGrp x.1 + 18) 1 g.arc else s
        | none => s) s
      let all := List.range s.lanterns
      let on := all.filter fun n => (s.lcfg n).on
      let mask := s.bcnCfg.mask
      let members : AMap Nat := on.foldl (fun m n =>
        let g := (s.lcfg n).group
        AMap.set 0 m g (AMap.get 0 m g + 1)) []
      let faulty : AMap Nat := all.foldl (fun m n =>
        let g := (s.lcfg n).group
        if s.lget n oFAULTS 2 &&& mask = 0 then m else AMap.set 0 m g (AMap.get 0 m g + 1)) []
      let faults := all.map fun n => s.lget n oFAULTS 2
      let s := (List.range 4096).foldl (fun s g =>
        (s.wle (bcnGrp g + 20) 4 (AMap.get 0 members g)).wle (bcnGrp g + 24) 4 (AMap.get 0 faulty g)) s
      let s := (List.range 16).foldl (fun s b =>
        s.p BCN_FAULT_COUNT_LANTERNS (4 * b) (faults.countP fun f => f.testBit b)) s
      let s := (s.p BCN_STATUS_PASS 0 0).p BCN_STATUS_FIRST_DONE 0 1
      let s := s.p BCN_PASS_LAST_NS 0 ((s.tide - r0.at_) / 65536)
      let s := { s with bcn := { s.bcn with run := none, first := false } }
      (s.fireEdge srcBcnPass).bcnCopyPoint)

/-- PASSTHRU_SEND (R258): GO written to BCN_PT_CMD with a gateway and a length. -/
def State.passthru (s : State) (w len : Nat) : State :=
  if s.on BCN_PT_CMD_BUSY then s
  else
    let s := (s.p BCN_PT_CMD_GATEWAY 0 w).p BCN_PT_CMD_LENGTH 0 len
    let a := s.g BCN_PT_SRC_ADDR
    if 1 ≤ len ∧ len ≤ 1024 ∧ inSram a len = true then
      { s with bcn := { s.bcn with pt := some (w, s.rbs a len) } }.p BCN_PT_CMD_BUSY 0 1
    else s
/-- PASSTHRU_SEND (R258): the register write as a command. -/
def execPassthruSend (gateway : Fin 1024) (length : Fin 2048) (s : State) : Out' :=
  .next (s.command fun s => s.passthru gateway.val length.val)

/-- GATEWAY_SILENT (R260): no frame from a gateway has been accepted for GW_SILENT_S. -/
def execGatewaySilent (w : Fin 1024) (s : State) : Out' :=
  let age := (s.tideNs / 1000000000 + 2 ^ 32 - s.wget w.val oLASTRX 4) % 2 ^ 32
  .next (if s.on BCN_CTRL_ENABLE && decide (s.bcnCfg.silentS ≤ age) then s.putUp w.val false else s)

end Sys2Proof.Machine
end

