-- ==== Sys2Proof/Machine/Ecdsa.lean ====
section
/-! DEFINITION. The Bonded Store's ECDSA verification over P-256 and P-384 (R453): FIPS 186-5. PRESUMED (log 51): the
algorithm and the curves are taken from the standard the rule names. Readings and choices: PRESUMED log 51. -/

namespace Sys2Proof.Machine

/-- A curve y² = x³ − 3x + b: octets of a coordinate, prime, order, b, base point. -/
structure Curve where
  len : Nat
  p : Nat
  n : Nat
  b : Nat
  gx : Nat
  gy : Nat

def p256 : Curve := ⟨32,
  0xFFFFFFFF00000001000000000000000000000000FFFFFFFFFFFFFFFFFFFFFFFF,
  0xFFFFFFFF00000000FFFFFFFFFFFFFFFFBCE6FAADA7179E84F3B9CAC2FC632551,
  0x5AC635D8AA3A93E7B3EBBD55769886BC651D06B0CC53B0F63BCE3C3E27D2604B,
  0x6B17D1F2E12C4247F8BCE6E563A440F277037D812DEB33A0F4A13945D898C296,
  0x4FE342E2FE1A7F9B8EE7EB4A7C0F9E162BCE33576B315ECECBB6406837BF51F5⟩
def p384 : Curve := ⟨48,
  0xFFFFFFFFFFFFFFFFFFFFFFFFFFFFFFFFFFFFFFFFFFFFFFFFFFFFFFFFFFFFFFFEFFFFFFFF0000000000000000FFFFFFFF,
  0xFFFFFFFFFFFFFFFFFFFFFFFFFFFFFFFFFFFFFFFFFFFFFFFFC7634D81F4372DDF581A0DB248B0A77AECEC196ACCC52973,
  0xB3312FA7E23EE7E4988E056BE3F82D19181D9C6EFE8141120314088F5013875AC656398D8A2ED19D2A85C8EDD3EC2AEF,
  0xAA87CA22BE8B05378EB1C71EF320AD746E1D3B628BA79B9859F741E082542A385502F25DBF55296C3A545E3872760AB7,
  0x3617DE4A96262C6F5D9E98BF9292DC29F8F41DBD289A147CE9DA3113B5F0B8C00A60B1CE1D7E819D7A431D7C90EA0E5F⟩

def modSub (p a b : Nat) : Nat := (a + (p - b % p)) % p

/-- A power modulo `m`, over the low `k` bits of the exponent. -/
def powMod (m a e : Nat) : Nat → Nat
  | 0 => 1 % m
  | k + 1 =>
    let x := powMod m a (e / 2) k
    let y := x * x % m
    if e % 2 = 1 then y * a % m else y

/-- The inverse modulo a prime. -/
def invMod (m a : Nat) : Nat := powMod m (a % m) (m - 2) (m.log2 + 1)

/-- A point by projective coordinates (X/Z², Y/Z³); Z 0 is the point at infinity. -/
abbrev Point := Nat × Nat × Nat

def pointDouble (p : Nat) (a : Point) : Point :=
  let (x, y, z) := a
  if z = 0 ∨ y = 0 then (1, 1, 0)
  else
    let yy := y * y % p
    let s := 4 * x * yy % p
    let zz := z * z % p
    let m := 3 * (modSub p x zz) * (x + zz) % p
    let x' := modSub p (m * m % p) (2 * s)
    (x', modSub p (m * modSub p s x' % p) (8 * yy * yy), 2 * y * z % p)

def pointAdd (p : Nat) (a b : Point) : Point :=
  let (x1, y1, z1) := a
  let (x2, y2, z2) := b
  if z1 = 0 then b
  else if z2 = 0 then a
  else
    let u1 := x1 * z2 % p * z2 % p
    let u2 := x2 * z1 % p * z1 % p
    let s1 := y1 * z2 % p * z2 % p * z2 % p
    let s2 := y2 * z1 % p * z1 % p * z1 % p
    if u1 = u2 then (if s1 = s2 then pointDouble p a else (1, 1, 0))
    else
      let h := modSub p u2 u1
      let r := modSub p s2 s1
      let hh := h * h % p
      let hhh := h * hh % p
      let v := u1 * hh % p
      let x3 := modSub p (r * r % p) (hhh + 2 * v)
      (x3, modSub p (r * modSub p v x3 % p) (s1 * hhh), h * z1 % p * z2 % p)

/-- `e` times a point, over the low `k` bits of `e`. -/
def pointMul (p : Nat) (a : Point) (e : Nat) : Nat → Point
  | 0 => (1, 1, 0)
  | k + 1 =>
    let x := pointDouble p (pointMul p a (e / 2) k)
    if e % 2 = 1 then pointAdd p x a else x

/-- The curve of a KIND (R446). -/
def kindCurve (kind : Nat) : Curve := if kind = 4 then p256 else p384

/-- Whether a public key, X then Y, lies on the curve of its KIND. -/
def onCurve (kind : Nat) (key : List Byte) : Bool :=
  let c := kindCurve kind
  let x := beNat (key.take c.len)
  let y := beNat (key.drop c.len)
  key.length == 2 * c.len && decide (x < c.p) && decide (y < c.p) && (y * y + 3 * x) % c.p == (x * x * x + c.b) % c.p

/-- ECDSA verification: ALG 0 P-256 over SHA-256, 1 P-384 over SHA-384; public key, digest, signature r then s. -/
def ecdsaVerify (alg : Nat) (key digest sig : List Byte) : Bool :=
  let c := if alg = 0 then p256 else p384
  let r := beNat (sig.take c.len)
  let s := beNat ((sig.drop c.len).take c.len)
  let w := invMod c.n s
  let k := 8 * c.len
  let a := pointMul c.p (c.gx, c.gy, 1) (beNat digest * w % c.n) k
  let b := pointMul c.p (beNat (key.take c.len), beNat (key.drop c.len), 1) (r * w % c.n) k
  let (x, _, z) := pointAdd c.p a b
  let zi := invMod c.p z
  decide (0 < r) && decide (r < c.n) && decide (0 < s) && decide (s < c.n) && z != 0 &&
    x * zi % c.p * zi % c.p % c.n == r

end Sys2Proof.Machine
end

