-- ==== Sys2Proof/Machine/Progress.lean ====
section
/-! DEFINITION. The progress sets of long operations (R79, R80). Readings and choices: DEDUCED log 48. -/

namespace Sys2Proof.Machine

/-- The three words of a progress set: STATE and PERMYRIAD, POSITION, TOTAL. -/
structure ProgRegs where
  state : Fld
  mille : Fld
  pos   : Fld
  total : Fld

/-- An operation starts: TOTAL fixed, POSITION 0. -/
def State.progStart (s : State) (r : ProgRegs) (d total : Nat) : State :=
  (((s.p r.state d 1).p r.mille d 0).p r.pos d 0).p r.total d total

/-- POSITION of a running operation rises; PERMYRIAD follows and stays below 10,000. -/
def State.progAt (s : State) (r : ProgRegs) (d pos : Nat) : State :=
  let pos := max pos (s.g r.pos d)
  (s.p r.pos d pos).p r.mille d (min 9999 (10000 * pos / s.g r.total d))

/-- An operation ends: 2 done with PERMYRIAD 10,000, 3 failed or 4 ended by deadline with PERMYRIAD kept. -/
def State.progEnd (s : State) (r : ProgRegs) (d state : Nat) : State :=
  let s := s.p r.state d state
  if state = 2 then s.p r.mille d 10000 else s

end Sys2Proof.Machine
end

