-- ==== Sys2Proof/Machine/BeaconRx.lean ====
section
/-! DEFINITION. Beacon frames received, reports and firmware campaigns (R255 to R259, R261 to R266).
Readings and choices: DEDUCED log 32. -/

namespace Sys2Proof.Machine

def State.campState (s : State) (c : Nat) : Nat := s.g BCN_CAMP_STATUS_STATE (dCamp c)

def progCamp : ProgRegs :=
  ⟨BCN_CAMP_PROG_PERMYRIAD_STATE, BCN_CAMP_PROG_PERMYRIAD_VAL, BCN_CAMP_PROG_POSITION_VAL, BCN_CAMP_PROG_TOTAL_VAL⟩

def fwPENDING : Nat := 1
def fwSENDING : Nat := 2
def fwCOMMITTING : Nat := 3
def fwDONE : Nat := 4
def fwFAILED : Nat := 5
def fwABORTED : Nat := 6
def CampTarget.final (t : CampTarget) : Bool := 4 ≤ t.status

/-! ## Received frames (R257) -/

def bcnErr (s : State) (k : Nat) : State := s.inc BCN_RX_ERR_COUNT (4 * k)

/-- The messages of a plain text, where their heads fill it exactly (R256). -/
def splitMsgs : Nat → List Byte → Option (List (Nat × List Byte))
  | 0, l => if l.isEmpty then some [] else none
  | f + 1, l =>
    if l.isEmpty then some []
    else
      let n := beNat ((l.drop 2).take 2)
      if l.length < 4 + n then none
      else (splitMsgs f (l.drop (4 + n))).map fun t => (fldB l 0 1, (l.drop 4).take n) :: t

/-- A message the device takes, with the body length R256 gives it. -/
def knownMsg (m : Nat × List Byte) : Bool :=
  (m.1 == 0x81 && m.2.length == 12) || (m.1 == 0x82 && m.2.length == 4) || (m.1 == 0x83 && m.2.length == 8) ||
    (m.1 == 0x84 && m.2.length == 4)

/-- Unknown messages ahead of the next known one are skipped and counted; a frame with none left goes (R256). -/
def State.skipUnknown : Nat → State → State
  | 0, s => s
  | f + 1, s =>
    match s.bcn.rx with
    | [] => s
    | x :: t =>
      match x.msgs with
      | [] => State.skipUnknown f { s with bcn := { s.bcn with rx := t } }
      | m :: ms =>
        if knownMsg m then s
        else State.skipUnknown f ({ s with bcn := { s.bcn with rx := { x with msgs := ms } :: t } }.incSat
          BCN_MSG_MSG_UNKNOWN 0)

def State.rxSize (s : State) : Nat := (s.bcn.rx.map fun x => x.msgs.length + 1).sum

/-- The device's checks of a frame for BCN_UDP, in their order (R257). `port`, `trans` (1 IPv4, 2 IPv6), source address and
UDP port, UDP payload. -/
def State.beaconIn (s : State) (port trans : Nat) (ip : List Byte) (udp : Nat) (l : List Byte) : State :=
  if s.on BCN_CTRL_ENABLE = false ∨ s.on NET_PORT_CTRL_ENABLE (dPort port) = false then s
  else if s.on BCN_STATUS_FIRST_DONE = false then bcnErr s 6
  else if 4096 ≤ s.bcn.rx.length then bcnErr s 5
  else
    let w := beNat ((l.drop 4).take 2)
    let c := s.wcfg w
    let who := w < 1024 ∧ s.gwUsable w = true ∧ c.trans = trans ∧ c.udp = udp ∧
      (if trans = 1 then c.ip.take 4 else c.ip) = ip ∧ 16 ≤ l.length
    if ¬ who then bcnErr s 0
    else
      let head := l.take 16
      let cipher := (l.drop 16).take (l.length - 32)
      let tag := l.drop (l.length - 16)
      let phase := fldB l 2 1 % 2
      let seq := beNat ((l.drop 6).take 6)
      let key := s.sessKey c.session phase
      let nonce := bcnNonce 1 phase w seq
      let plain := (aesGcm (key.getD []) nonce head cipher).1
      match splitMsgs cipher.length plain with
      | none => bcnErr s 1
      | some ms =>
        let rx := s.wget w oRXSEQ 8
        let win := s.wget w oRXWIN 8
        if l.length < 32 ∨ fldB l 0 1 ≠ 1 ∨ fldB l 1 1 ≠ 1 then bcnErr s 1
        else if beNat ((l.drop 12).take 4) ≠ s.g BCN_SYSID_SYSTEM_ID then bcnErr s 2
        else if ¬ (rx < seq ∨ (seq < rx ∧ rx - seq ≤ 63 ∧ win.testBit (rx - seq) = false)) then bcnErr s 3
        else if key.isNone ∨ (aesGcmOpen (key.getD []) nonce head cipher tag).isNone then bcnErr s 4
        else
          let s := if rx < seq then
              (s.wput w oRXSEQ 8 seq).wput w oRXWIN 8 ((win * 2 ^ (min 64 (seq - rx)) + 1) % 2 ^ 64)
            else s.wput w oRXWIN 8 (win + 2 ^ (rx - seq))
          let s := (s.wput w oLASTRX 4 (s.tideNs / 1000000000)).putUp w true
          let x : BcnRx := ⟨w, ms, s.tideNs⟩
          let s := { s with bcn := { s.bcn with rx := s.bcn.rx ++ [x] } }
          s.skipUnknown (s.rxSize + 1)

/-- BEACON_FRAME_RECEIVED (R257): a complete frame for BCN_UDP, by its port, IP version, source and UDP payload. -/
def execBeaconFrameReceived (port : Fin 5) (v6 : Bool) (ip : BitVec 128) (udp : BitVec 16) (payload : List Byte)
    (s : State) : Out' :=
  .next (s.beaconIn port.val (if v6 then 2 else 1)
    (if v6 then beBytes 16 ip.toNat else beBytes 4 (ip.toNat % 2 ^ 32)) udp.toNat payload)

/-- Take the next waiting message if it is of a type: gateway, body and stamp. -/
def State.takeMsg (s : State) (type : Nat) : Option (Nat × List Byte × Nat × State) :=
  match s.bcn.rx with
  | [] => none
  | x :: t =>
    match x.msgs with
    | [] => none
    | m :: ms =>
      if m.1 = type then
        some (x.gw, m.2, x.stamp, { s with bcn := { s.bcn with rx := { x with msgs := ms } :: t } })
      else none

/-- After a message: unknown ones that follow are skipped. -/
def State.msgDone (s : State) : State := s.skipUnknown (s.rxSize + 1)

/-! ## Reports and counts (R247, R259) -/

/-- A REPORT's effect on its lantern (R259). -/
def State.report (s : State) (n : Nat) (b : List Byte) (stamp : Nat) : State :=
  let energy := beNat ((b.drop 6).take 4)
  let last := s.lget n oENERGYLAST 4
  let total := s.lget n oENERGY 8
  let d := (energy + 2 ^ 32 - last) % 2 ^ 32
  let first := !(s.bcn.reported.contains n) && last == 0 && total == 0
  let s := if s.bcn.reported.contains n then s else { s with bcn := { s.bcn with reported := s.bcn.reported ++ [n] } }
  let s := s.putFaults n (beNat ((b.drop 2).take 2) % 2 ^ 15)
  let s := ((s.lput n oTEMP 2 (beNat ((b.drop 4).take 2))).lput n oARCNOW 1 (fldB b 10 1)).lput n oREPORT 8 stamp
  let s := if first then s
    else if d < 2 ^ 31 then s.lput n oENERGY 8 ((total + d) % 2 ^ 64)
    else s.lput n oRESETS 4 ((s.lget n oRESETS 4 + 1) % 2 ^ 32)
  s.lput n oENERGYLAST 4 energy

/-- REPORT (R259): the waiting REPORT message is taken. -/
def execReport (s : State) : Out' :=
  .next (match s.takeMsg 0x81 with
    | none => s
    | some (w, b, stamp, s) =>
      let la := beNat (b.take 2)
      (if s.eccUncorr (s.revKey w la) 4 then s.bcnDdrErr (s.revKey w la)
        else match s.revFind w la with
        | none => s.incSat BCN_MSG_NO_LANTERN 0
        | some n => if s.recBad n then s.bcnDdrErr (s.lrec n) else s.report n b stamp).msgDone)

/-- COUNT (R247): the waiting COUNT message is taken. A ZONE above 2,047 names no zone. -/
def execCount (s : State) : Out' :=
  .next (match s.takeMsg 0x82 with
    | none => s
    | some (_, b, stamp, s) =>
      let z := beNat (b.take 2)
      (if z < 2048 then
        let a := bcnZone z
        let s := s.wle (a + 16) 4 ((s.rle (a + 16) 4 + beNat ((b.drop 2).take 2)) % 2 ^ 32)
        (s.wle (a + 24) 4 (stamp / 1000000000 % 2 ^ 32)).wle (a + 28) 4 (s.rle (a + 28) 4 ||| 1024)
      else s).msgDone)

/-- BCN_ALIVE (R256): an ALIVE message is taken; its frame has done all it does. -/
def execBcnAlive (s : State) : Out' :=
  .next (match s.takeMsg 0x84 with
    | none => s
    | some (_, _, _, s) => s.msgDone)

/-! ## Campaigns (R262 to R266) -/

def State.campTo (s : State) (c st : Nat) : State := (s.p BCN_CAMP_STATUS_STATE (dCamp c) st).fireEdge srcBcnCamp

/-- The campaign ends FAILED with a FAIL, its progress STATE 3 (R265). -/
def State.campFail (s : State) (c fail : Nat) : State :=
  ((s.p BCN_CAMP_STATUS_FAIL (dCamp c) fail).progEnd progCamp (dCamp c) 3).campTo c 4

/-- A target takes a status and a count of chunks, in its record too, unless that cannot be reached (R268). -/
def State.putTarget (s : State) (c : Nat) (t : CampTarget) : State :=
  let x := s.camp c
  let s := s.setCamp c { x with targets := x.targets.map fun y => if y.lantern = t.lantern then t else y }
  if s.recBad t.lantern then s.bcnDdrErr (s.lrec t.lantern)
  else
  let b := s.lget t.lantern oSTATUS 1
  let s := s.lput t.lantern oSTATUS 1 (b - b % 8 + t.status)
  (s.lput t.lantern oFWCAMP 1 c).lput t.lantern oFWACKED 4 t.acked

/-- Gateways of a campaign's targets, ascending. -/
def BcnCamp.gateways (x : BcnCamp) : List Nat := (List.range 1024).filter fun w => x.targets.any (·.gw == w)

def BcnCamp.at_ (x : BcnCamp) (w : Nat) : List CampTarget := x.targets.filter (·.gw == w)
def BcnCamp.finished (x : BcnCamp) (w : Nat) : Bool := (x.at_ w).all CampTarget.final

/-- The counts, the progress, the wave, and the end once every target is final (R263, R265). -/
def State.campUpdate (s : State) (c : Nat) : State :=
  let d := dCamp c
  let x := s.camp c
  let s := (s.p BCN_CAMP_DONE_COUNT d (x.targets.countP (·.status == fwDONE))).p BCN_CAMP_FAILED_COUNT d
    (x.targets.countP (·.status == fwFAILED))
  let s := s.progAt progCamp d (x.targets.map (·.acked)).sum
  let size := max 1 (s.g BCN_CAMP_CFG_WAVE_SIZE d)
  let waves := pieces size 1025 x.gateways
  let k := waves.findIdx fun ws => ws.any fun w => !x.finished w
  let s := if k < waves.length then s.p BCN_CAMP_STATUS_WAVE d k else s
  if x.targets.all CampTarget.final then
    if x.targets.all (·.status == fwDONE) then (s.progEnd progCamp d 2).campTo c 3 else s.campFail c 5
  else s

/-- The campaigns' clock in fabric cycles: it stands still while campaigns pause (R253). -/
def State.campClock (s : State) : Nat := s.fab - s.bcn.paused

/-- FW_ACK (R264): the waiting FW_ACK message is taken. -/
def execFwAck (s : State) : Out' :=
  .next (match s.takeMsg 0x83 with
    | none => s
    | some (w, b, _, s) =>
      let c := fldB b 0 1
      let st := fldB b 1 1
      let held := beNat ((b.drop 2).take 2)
      let la := beNat ((b.drop 4).take 2)
      let t := (s.camp c).targets.find? fun t => t.gw = w ∧ t.laddr = la
      (match t with
        | none => s.incSat BCN_MSG_MSG_UNKNOWN 0
        | some t =>
          if 8 ≤ c ∨ s.campState c ≠ 2 then s.incSat BCN_MSG_MSG_UNKNOWN 0
          else
            let rises := t.acked < held
            let status := if st = 2 then fwFAILED
              else if st = 1 ∧ t.status = fwCOMMITTING then fwDONE else t.status
            let s := s.putTarget c { t with acked := max t.acked held, status := status }
            let x := s.camp c
            let s := if rises then s.setCamp c (x.setGw w { x.gw w with fails := 0, since := s.campClock }) else s
            s.campUpdate c).msgDone)

def State.campRefuse (s : State) (c code : Nat) : State := s.p BCN_CAMP_STATUS_REFUSAL (dCamp c) code

/-- CAMPAIGN_START (R262): OP 1 written to BCN_CAMP_CMD. Until the verification ends the progress set reads STATE 1 with
TOTAL and POSITION 0: DESIGN CHOICE log 32. -/
def State.campStart (s : State) (c : Nat) : State :=
  let d := dCamp c
  let len := s.g BCN_CAMP_LEN_BYTES d
  let img := s.g BCN_CAMP_IMAGE_ADDR d
  let sig := s.g BCN_CAMP_SIG_ADDR d
  let path := s.g BCN_CAMP_CFG_PATH d
  let sigLen := if s.on BCN_CAMP_CFG_ALG d then 96 else 64
  if s.on BCN_CTRL_ENABLE = false ∨ s.campState c ≠ 0 ∨ ¬ (s.mode = COMMISSION ∨ s.mode = RUN) then s.campRefuse c 0x407
  else if len = 0 ∨ 4194304 < len ∨ img % 64 ≠ 0 ∨ sig % 64 ≠ 0 ∨ s.inRam img len = false ∨ s.inRam sig sigLen = false ∨
      s.pathOn path = false ∨ s.pathKind path ≠ kBEACON ∨ outside (s.g BCN_CAMP_CFG_WAVE_SIZE d) 1 1024 = true ∨
      outside (s.g BCN_CAMP_TIMING_ACK_TIMEOUT_MS d) 10 60000 = true then s.campRefuse c 0x408
  else
    let s := s.wbsEcc (s.g BCN_CAMP_AREA_ADDR + 0x400000 * c) (s.rbs img len)
    let s := (s.p BCN_CAMP_STATUS_FAIL d 0).p BCN_CAMP_STATUS_WAVE d 0
    let s := ((s.p BCN_CAMP_TARGETS_COUNT d 0).p BCN_CAMP_DONE_COUNT d 0).p BCN_CAMP_FAILED_COUNT d 0
    ((s.progStart progCamp d 0).setCamp c {}).campTo c 1
/-- CAMPAIGN_START (R262): the register write as a command. -/
def execCampaignStart (c : Fin 8) (s : State) : Out' := .next (s.command fun s => s.campStart c.val)

/-- Whether the Bonded Store verifies the signature of a campaign's copy (R262): none where the slot does not serve. -/
def State.campVerify (s : State) (c : Nat) : Option Bool :=
  let d := dCamp c
  let alg := s.g BCN_CAMP_CFG_ALG d
  let k := AMap.get {} s.bank.slots (s.g BCN_CAMP_TIMING_KEY_SLOT d)
  if k.state = 1 ∧ k.kind = 4 + alg then
    let image := s.rbs (s.g BCN_CAMP_AREA_ADDR + 0x400000 * c) (s.g BCN_CAMP_LEN_BYTES d)
    let digest := if alg = 0 then sha256 image else sha384 image
    some (ecdsaVerify alg k.key digest (s.rbs (s.g BCN_CAMP_SIG_ADDR d) (if alg = 0 then 64 else 96)))
  else none

/-- An uncorrectable error in the image's source, its copy or the signature (R265). -/
def State.campBad (s : State) (c : Nat) : Bool :=
  let d := dCamp c
  let len := s.g BCN_CAMP_LEN_BYTES d
  s.eccUncorr (s.g BCN_CAMP_IMAGE_ADDR d) len || s.eccUncorr (s.g BCN_CAMP_AREA_ADDR + 0x400000 * c) len ||
    s.eccUncorr (s.g BCN_CAMP_SIG_ADDR d) (if s.on BCN_CAMP_CFG_ALG d then 96 else 64)

/-- CAMPAIGN_VERIFY_END (R262, R265): the verification ends and the database is scanned for targets; `readErr` on an error
response on the image. A record that cannot be read is no target (R268). -/
def execCampaignVerifyEnd (c : Fin 8) (readErr : Bool) (s : State) : Out' :=
  let c := c.val
  let d := dCamp c
  .next (if s.on BCN_CTRL_ENABLE && s.campState c == 1 then
      if readErr || s.campBad c then s.campFail c 6
      else match s.campVerify c with
      | none => s.campFail c 2
      | some false => s.campFail c 1
      | some true =>
        let one : Nat → Option CampTarget := fun n =>
          let x := s.lcfg n
          if x.on ∧ s.recBad n = false ∧ s.lbit n 4 = false ∧ x.target = c + 1 then some ⟨n, x.gateway, x.laddr, fwPENDING, 0⟩ else none
        let ts := (List.range s.lanterns).filterMap one
        let s := ((List.range s.lanterns).filter s.recBad).foldl (fun s n => s.bcnDdrErr (s.lrec n)) s
        if ts.isEmpty then s.campFail c 3
        else
          let s := s.setCamp c { targets := ts }
          let s := ts.foldl (fun s t => s.putTarget c t) s
          let s := s.p BCN_CAMP_TARGETS_COUNT d ts.length
          ((s.progStart progCamp d (ceilDiv (s.g BCN_CAMP_LEN_BYTES d) 1024 * ts.length)).campUpdate c).campTo c 2
    else s)

def State.campChunks (s : State) (c : Nat) : Nat := ceilDiv (s.g BCN_CAMP_LEN_BYTES (dCamp c)) 1024

/-- The lowest chunk that some SENDING target of a gateway does not hold. -/
def BcnCamp.lowest (x : BcnCamp) (w chunks : Nat) : Nat :=
  ((x.at_ w).filter (·.status == fwSENDING)).foldl (fun m t => min m t.acked) chunks

/-- The message a gateway is due (R263): its octets, and what becomes of the targets and the gateway once a frame with it
is accepted. -/
def State.campMsg (s : State) (c w : Nat) : Option (List Byte × List CampTarget × CampGw) :=
  let x := s.camp c
  let g := x.gw w
  let chunks := s.campChunks c
  let len := s.g BCN_CAMP_LEN_BYTES (dCamp c)
  let base := s.g BCN_CAMP_AREA_ADDR + 0x400000 * c
  let head : List Byte := [BitVec.ofNat 8 c, 0]
  let new := ((x.at_ w).filter (·.status == fwPENDING)).take 256
  let sending := (x.at_ w).filter (·.status == fwSENDING)
  let low := x.lowest w chunks
  if !new.isEmpty then
    let body := head ++ beBytes 2 chunks ++ beBytes 4 len ++ sha256 (s.rbs base len) ++ beBytes 2 new.length ++
      new.flatMap fun t => beBytes 2 t.laddr
    some (bcnMsg 0x10 body, new.map fun t => { t with status := fwSENDING }, g)
  else if !sending.isEmpty && low < chunks then
    let k := max g.next low
    if k < chunks ∧ k ≤ low + 8 then
      some (bcnMsg 0x11 (head ++ beBytes 2 k ++ s.rbs (base + 1024 * k) (min 1024 (len - 1024 * k))), [],
        { g with next := k + 1 })
    else none
  else if !sending.isEmpty || (!g.commit && (x.at_ w).any (·.status == fwCOMMITTING)) then
    some (bcnMsg 0x12 (head ++ beBytes 2 chunks), sending.map fun t => { t with status := fwCOMMITTING },
      { g with commit := true })
  else none

/-- The gateways of the current wave, in turn from the one after the last served. -/
def State.campTurn (s : State) (c : Nat) : List Nat :=
  let x := s.camp c
  let ws := (pieces (max 1 (s.g BCN_CAMP_CFG_WAVE_SIZE (dCamp c))) 1025 x.gateways).getD
    (s.g BCN_CAMP_STATUS_WAVE (dCamp c)) []
  match x.last with
  | none => ws
  | some l => ws.filter (l < ·) ++ ws.filter (· ≤ l)

/-- CAMPAIGN_FRAME_TURN (R253, R263): the next gateway of the wave that is due a message is offered one frame. An
uncorrectable error on the image's copy ends the campaign (R265). -/
def execCampaignFrameTurn (c : Fin 8) (s : State) : Out' :=
  let c := c.val
  .next (if s.on BCN_CTRL_ENABLE && s.campState c == 2 && (s.mode == COMMISSION || s.mode == RUN) then
      if s.eccUncorr (s.g BCN_CAMP_AREA_ADDR + 0x400000 * c) (s.g BCN_CAMP_LEN_BYTES (dCamp c)) then s.campFail c 6
      else match (s.campTurn c).find? fun w => s.gwUsable w && (s.campMsg c w).isSome with
      | none => s
      | some w =>
        match s.campMsg c w with
        | none => s
        | some (msg, ts, g) =>
          let o := s.bcnOffer w (s.g BCN_CAMP_CFG_PATH (dCamp c)) msg
          let s := o.2.setCamp c { o.2.camp c with last := some w }
          if o.1 then
            let s := s.setCamp c ((s.camp c).setGw w { g with waiting := true, since := s.campClock })
            (ts.foldl (fun s t => s.putTarget c t) s).campUpdate c
          else s
    else s)

/-- CAMPAIGN_ACK_TIMEOUT (R263): ACK_TIMEOUT_MS has passed since the last accepted frame to a gateway without a rise of
CHUNKS_HELD, by the campaigns' clock, which stands still while they pause (R253). -/
def execCampaignAckTimeout (c : Fin 8) (w : Fin 1024) (s : State) : Out' :=
  let c := c.val
  let w := w.val
  let x := s.camp c
  let g := x.gw w
  .next (if s.on BCN_CTRL_ENABLE && s.campState c == 2 && g.waiting &&
      decide (g.since + 400000 * s.g BCN_CAMP_TIMING_ACK_TIMEOUT_MS (dCamp c) ≤ s.campClock) then
      let n := g.fails + 1
      let open_ := (x.at_ w).filter fun t => !t.final
      if s.g BCN_CAMP_CFG_RETRIES (dCamp c) ≤ n then
        let s := s.setCamp c (x.setGw w { g with waiting := false, fails := n })
        (open_.foldl (fun s t => s.putTarget c { t with status := fwFAILED }) s).campUpdate c
      else
        s.setCamp c (x.setGw w { g with fails := n, waiting := false, commit := false,
                                        next := x.lowest w (s.campChunks c) })
    else s)

/-- CAMPAIGN_ABORT (R266): OP 2 written to BCN_CAMP_CMD. -/
def State.campAbort (s : State) (c : Nat) : State :=
  if s.campState c == 1 || s.campState c == 2 then
    let s := ((s.camp c).targets.filter fun t => !t.final).foldl (fun s t =>
      s.putTarget c { t with status := fwABORTED }) s
    s.campFail c 4
  else s.campRefuse c 0x407
/-- CAMPAIGN_ABORT (R266): the register write as a command. -/
def execCampaignAbort (c : Fin 8) (s : State) : Out' := .next (s.command fun s => s.campAbort c.val)

/-- CAMPAIGN_CLEAR (R265): OP 3 written to BCN_CAMP_CMD. -/
def State.campClear (s : State) (c : Nat) : State :=
  if s.campState c == 3 || s.campState c == 4 then (s.setCamp c {}).campTo c 0
  else s.campRefuse c 0x407
/-- CAMPAIGN_CLEAR (R265): the register write as a command. -/
def execCampaignClear (c : Fin 8) (s : State) : Out' := .next (s.command fun s => s.campClear c.val)

/-- Whether a write lies in the area of a campaign that is not IDLE (R262). -/
def State.campArea (s : State) (a n : Nat) : Bool :=
  (List.range 8).any fun c => s.campState c != 0 && overlap a n (s.g BCN_CAMP_AREA_ADDR + 0x400000 * c) 0x400000

/-- A session phase is installed (R450): the gateways that send under it start at sequence 0. -/
def State.bcnSession (s : State) (e phase : Nat) : State :=
  (List.range 1024).foldl (fun s w =>
    let c := s.wcfg w
    if c.session = e ∧ c.phase = phase then s.wput w oTXSEQ 8 0 else s) s

end Sys2Proof.Machine
end

