-- ==== Sys2Proof/Machine/Logbook.lean ====
section
/-! DEFINITION. The Logbook: records, reading, export, clearing, operating time (R434 to R444, R456, R457).
Readings and choices: DEDUCED log 42. -/

namespace Sys2Proof.Machine

/-! ## Records (R435, R438) -/

/-- CRC-8 with polynomial 0x07 and initial value 0. -/
def crc8Bit (c : Byte) : Byte := if c.getLsbD 7 then (c <<< 1) ^^^ 0x07 else c <<< 1
def crc8 (l : List Byte) : Byte :=
  l.foldl (fun c b => crc8Bit (crc8Bit (crc8Bit (crc8Bit (crc8Bit (crc8Bit (crc8Bit (crc8Bit (c ^^^ b))))))))) 0

/-- A record's octets with its CHECK in octet 3. -/
def withCheck (l : List Byte) : List Byte := l.take 3 ++ [crc8 (l.take 3 ++ l.drop 4)] ++ l.drop 4

/-- The 32 bytes of a fixed record. -/
def FixRec.octets (r : FixRec) : List Byte :=
  withCheck (leBytes 2 r.code ++ [BitVec.ofNat 8 r.master, 0] ++ leBytes 4 r.pcyc ++ leBytes 5 r.opsec ++ leBytes 3 r.seq ++
    leBytes 4 r.p0 ++ leBytes 4 r.p1 ++ leBytes 4 r.p2 ++ leBytes 4 r.p3)

/-- The 256 bytes of a snapshot record. -/
def SnapRec.octets (r : SnapRec) : List Byte :=
  withCheck ([BitVec.ofNat 8 r.dfn, BitVec.ofNat 8 r.data.length, if r.err then 1 else 0, 0] ++ leBytes 4 r.seq ++
    leBytes 4 r.pcyc ++ leBytes 5 r.opsec ++ [0, 0, 0] ++ leBytes 4 (r.tide % 1000000000) ++
    leBytes 4 (r.tide / 1000000000) ++ leBytes 4 r.arg ++ (r.data.flatMap (leBytes 4)) ++
    List.replicate (4 * (56 - r.data.length)) 0)

def State.setLog (s : State) (x : LogSt) : State := { s with log := x }

/-- A fixed record takes the next SEQ and goes into the ring of 16,384, in place of the oldest where it is full. -/
def State.putFixed (s : State) (r : FixRec) : State :=
  let l := s.log.fixed ++ [{ r with seq := s.log.seq }]
  s.setLog { s.log with fixed := if 16384 < l.length then l.drop 1 else l, seq := (s.log.seq + 1) % 2 ^ 24 }

/-- A record of the present time. -/
def State.newFixed (s : State) (code master p0 p1 p2 p3 : Nat) : FixRec :=
  ⟨code, master, s.log.pcyc, s.log.opSec, 0, p0, p1, p2, p3⟩

/-- Write the queue's first record, preceded by RECORDS_DROPPED after drops (R436). -/
def State.writeFixed (s : State) (discard : Bool) : State :=
  match s.log.queue with
  | [] => s
  | r :: t =>
    let s := s.setLog { s.log with queue := t }
    let s := if s.log.dropped = 0 then s
      else (s.putFixed (s.newFixed 0x0006 0xFF s.log.dropped 0 0 0)).setLog
        { (s.putFixed (s.newFixed 0x0006 0xFF s.log.dropped 0 0 0)).log with dropped := 0 }
    if discard then s else s.putFixed r

/-- MRAM is ready (R56, R434, R436). -/
def State.mramReady (s : State) : Bool :=
  match s.phase with
  | .mram | .sram | .booted | .bootFailed => true
  | .off | .held | .released | .clocks | .fuses => false

/-- FIXED_RECORD_WRITE (R436, R456): the next queued record is written. `fault`: 0 none; 1 MRAM_ERR, after which the
record is written again; 2 ECC_UNCORR, which discards it. Records are written from MRAM ready. -/
def execFixedRecordWrite (fault : Fin 3) (s : State) : Out' :=
  .next (if s.log.queue = [] ∨ s.mramReady = false then s
    else
      let s := if fault.val = 1 then s.raise .log LOG_MRAM_ERR none 0
        else if fault.val = 2 then s.raise .log LOG_ECC_UNCORR none 0 else s
      s.writeFixed (fault.val == 2))

/-- OP_SECOND_TICK (R434): 400,000,000 fabric cycles have passed since MRAM was ready, or since the last second; nothing
earlier. -/
def execOpSecondTick (s : State) : Out' :=
  let next := s.log.opAt + 400000000
  .next (if s.mramReady && decide (next ≤ s.fab) then
      s.setLog { s.log with opSec := (s.log.opSec + 1) % 2 ^ 40, opAt := next }
    else s)

/-! ## Reading (R441) -/

/-- The octets of a record by store and AGE. -/
def State.logRecord (s : State) (store age : Nat) : Option (List Byte) :=
  if store = 0 then s.log.fixed.reverse[age]?.map FixRec.octets else s.log.snaps.reverse[age]?.map SnapRec.octets

/-- A write of LOG_READ_SEL: the selection; its copy begins. -/
def State.logRead (s : State) (store age : Nat) : State :=
  let s := ((s.p LOG_READ_SEL_STORE 0 store).p LOG_READ_SEL_AGE 0 age).p LOG_READ_SEL_READY 0 0
  (s.p LOG_READ_SEL_EMPTY 0 0).setLog { s.log with selBusy := true }

/-- LOG_READ (R441). -/
def execLogRead (store : Fin 2) (age : Fin 16384) (s : State) : Out' := .next (s.command fun s => s.logRead store.val age.val)

/-- LOG_READ_DONE (R441): the selected record, or none, is in LOG_READ_DATA. -/
def execLogReadDone (s : State) : Out' :=
  .next (if s.log.selBusy then
      let r := s.logRecord (s.g LOG_READ_SEL_STORE) (s.g LOG_READ_SEL_AGE)
      let l := r.getD []
      let s := (List.range 64).foldl (fun s k => s.p LOG_READ_DATA_WORD (4 * k) (leNat ((l.drop (4 * k)).take 4))) s
      ((s.p LOG_READ_SEL_READY 0 1).p LOG_READ_SEL_EMPTY 0 (bit r.isNone)).setLog { s.log with selBusy := false }
    else s)

/-! ## Export (R442) -/

def expProg : ProgRegs :=
  ⟨LOG_EXP_PROG_PERMYRIAD_STATE, LOG_EXP_PROG_PERMYRIAD_VAL, LOG_EXP_PROG_POSITION_VAL, LOG_EXP_PROG_TOTAL_VAL⟩

/-- Whether the `n` bytes at an address answer reads and writes now: shared SRAM, or DDR once initialised (R468). -/
def State.ready (s : State) (a n : Nat) : Bool := inSram a n || (s.inDdr a n && s.on MEM_CTRL_DDR_READY)

/-- A write of LOG_EXP_CMD.GO. -/
def State.logExport (s : State) (store : Nat) : State :=
  let a := s.g LOG_EXP_DEST_ADDR
  let l := if store = 0 then s.log.fixed.map FixRec.octets else s.log.snaps.map SnapRec.octets
  let n := l.length * (if store = 0 then 32 else 256)
  if a % 64 ≠ 0 ∨ s.inRam a n = false then s.p LOG_EXP_CMD_REFUSAL 0 0xB05
  else if s.log.export_.isSome ∨ s.log.clearing.isSome then s.p LOG_EXP_CMD_REFUSAL 0 0xB06
  else (s.progStart expProg 0 l.length).setLog { s.log with export_ := some (l, a) }

/-- LOG_EXPORT (R442). -/
def execLogExport (store : Fin 2) (s : State) : Out' := .next (s.command fun s => s.logExport store.val)

/-- LOG_EXPORT_END (R442): every record has been copied; or, with a write error at the destination (given, or because
DDR is not initialised), those before it. -/
def execLogExportEnd (errAfter : Option Nat) (s : State) : Out' :=
  .next (match s.log.export_ with
    | none => s
    | some (l, a) =>
      let good := match errAfter with | some n => l.take n | none => l
      let s := s.setLog { s.log with export_ := none }
      if s.ready a good.flatten.length then
        let s := (s.wbsEcc a good.flatten).progAt expProg 0 good.length
        s.progEnd expProg 0 (if good.length = l.length ∧ errAfter.isNone then 2 else 3)
      else s.progEnd expProg 0 3)

/-! ## Clearing (R443, R444) -/

def State.clearRefused (s : State) (code : Nat) : State := s.p LOG_CLR_STATUS_REFUSAL 0 code

/-- CHALLENGE: a new nonce. -/
def State.challenge (s : State) : State :=
  if s.log.export_.isSome ∨ s.log.clearing.isSome then s.clearRefused 0xB06
  else if s.on BST_STATUS_DRBG_OK = false then s.clearRefused 0xB19
  else
    let cnt := (s.log.clearCnt + 1) % 2 ^ 64
    let n := cnt * 2 ^ 64 + Config.drbg s.bst.draws % 2 ^ 64
    let s := { s with log := { s.log with clearCnt := cnt, nonce := some (n, s.log.opSec) },
                      bst := { s.bst with draws := s.bst.draws + 1 } }
    ((List.range 4).foldl (fun s k => s.p LOG_NONCE_NONCE (4 * k) (n / 2 ^ (32 * k))) s).p LOG_CLR_STATUS_LIVE 0 1

/-- LOG_CHALLENGE (R443). -/
def execLogChallenge (s : State) : Out' := .next (s.command fun s => s.challenge)

/-- The UID as messages and MACs carry it. -/
def uidOctets : List Byte := leBytes 16 Config.uid

/-- The tag that clears a SCOPE under a nonce. -/
def State.clearTag (s : State) (n scope : Nat) : List Byte :=
  let k := AMap.get {} s.bank.slots (s.g LOG_CFG_CLEAR_SLOT)
  aesCmac k.key (beBytes 16 n ++ uidOctets ++ [BitVec.ofNat 8 scope] ++ List.replicate 15 0)

/-- The code with which CLEAR is refused. -/
def State.clearCode (s : State) (scope : Nat) : Nat :=
  let k := AMap.get {} s.bank.slots (s.g LOG_CFG_CLEAR_SLOT)
  let tag := (List.range 4).flatMap fun i => beBytes 4 (s.g LOG_CLR_TAG_TAG (4 * i))
  if ¬ (s.mode = PROVISION ∨ s.mode = FACTORY) then 0xB07
  else match s.log.nonce with
    | none => 0xB02
    | some (n, _) =>
      if ¬ (k.state = 1 ∧ k.kind = 2) then 0xB04
      else if s.clearTag n scope ≠ tag then 0xB03
      else if s.log.export_.isSome ∨ s.log.clearing.isSome then 0xB06
      else 0

/-- CLEAR by a master: it consumes the nonce. -/
def State.logClear (s : State) (master scope : Nat) : State :=
  let code := s.clearCode scope
  let n := match s.log.nonce with | some x => x.1 % 2 ^ 32 | none => 0
  let s := (s.setLog { s.log with nonce := none }).p LOG_CLR_STATUS_LIVE 0 0
  if code = 0 then (s.setLog { s.log with clearing := some (scope, n, master) }).p LOG_CLR_STATUS_BUSY 0 1
  else (s.clearRefused code).logFixed 0x0005 master code 0 0 n

/-- LOG_CLEAR (R443). -/
def execLogClear (master : Fin 42) (scope : Fin 4) (s : State) : Out' :=
  .next (s.command fun s => s.logClear master.val scope.val)

/-- Write all that is queued. -/
def State.flushFixed : Nat → State → State
  | 0, s => s
  | n + 1, s => State.flushFixed n (s.writeFixed false)

/-- LOG_CLEAR_COMMIT (R444): queued records have been written; the LOG_CLEARED record is written and pinned, the cleared
stores' oldest positions move, and the held records follow. -/
def execLogClearCommit (s : State) : Out' :=
  .next (match s.log.clearing with
    | none => s
    | some (scope, n, master) =>
      let s := State.flushFixed s.log.queue.length s
      let fx := if scope.testBit 0 then s.log.fixed.length else 0
      let sn := if scope.testBit 1 then s.log.snaps.length else 0
      let s := s.putFixed (s.newFixed 0x0004 master scope fx sn n)
      let last := (s.log.fixed.getLast?.map FixRec.octets).getD []
      let words := (List.range 8).map fun k => leNat ((last.drop (4 * k)).take 4)
      let s := s.setLog { s.log with
        fixed := if scope.testBit 0 then s.log.fixed.drop (s.log.fixed.length - 1) else s.log.fixed
        snaps := if scope.testBit 1 then [] else s.log.snaps
        queue := s.log.hold
        hold := []
        clearing := none
        lastClear := words }
      ((List.range 8).foldl (fun s k => s.p LOG_LAST_CLEAR_WORD (4 * k) (words.getD k 0)) s).p LOG_CLR_STATUS_BUSY 0 0)

/-- NONCE_EXPIRY (R443): 60 OP_SECONDS have passed since the challenge; nothing where they have not. -/
def execNonceExpiry (s : State) : Out' :=
  .next (match s.log.nonce with
    | some (_, t) =>
      if t + 60 ≤ s.log.opSec then (s.setLog { s.log with nonce := none }).p LOG_CLR_STATUS_LIVE 0 0 else s
    | none => s)

/-! ## Check (R457) -/

/-- Whether a definition cannot run. -/
def State.snapBad (s : State) (i : Nat) : Bool :=
  let d := 0x100 * i
  let trig := s.g LOG_SNAP_CFG_TRIG d
  let n := s.g LOG_SNAP_CFG_WORDS d
  let sel := s.g LOG_SNAP_CFG_SEL d
  trig != 0 && (n == 0 || decide (56 < n) || decide (4 < trig) || (trig == 2 && decide (128 < sel)) ||
    (trig == 3 && decide (127 < sel)) || (List.range n).any fun k => winEnd ≤ s.g LOG_SNAP_ADDR_OFFSET (d + 4 * k))

def State.logCheck (s : State) : Chk := firstFail [((List.range 16).any s.snapBad, 0xB01, [])]

end Sys2Proof.Machine
end

