-- ==== Sys2Proof/Machine/Bonded.lean ====
section
/-! DEFINITION. The Bonded Store: update messages and batches (R445 to R454, R456).
Readings and choices: DEDUCED log 43. -/

namespace Sys2Proof.Machine

def State.setBank (s : State) (b : BstBank) : State :=
  if s.on BST_STATUS_TEST_ROOT then { s with bst := { s.bst with test := b } } else { s with bst := { s.bst with prod := b } }

def State.slot (s : State) (i : Nat) : KeySlot := AMap.get {} s.bank.slots i
def State.setSlot (s : State) (i : Nat) (k : KeySlot) : State :=
  s.setBank { s.bank with slots := AMap.set {} s.bank.slots i k }
def State.sess (s : State) (e : Nat) : SessEntry := AMap.get {} s.bank.sess e
def State.setSess (s : State) (e : Nat) (x : SessEntry) : State :=
  s.setBank { s.bank with sess := AMap.set {} s.bank.sess e x }

/-- ROOT, or the test root (R454). -/
def State.rootKey (s : State) : List Byte :=
  if s.on BST_STATUS_TEST_ROOT then
    sha256 ([0x4C, 0x42, 0x54, 0x45, 0x53, 0x54, 0x52, 0x54] ++ uidOctets)
  else Config.root

/-- The key of a parent: ROOT is 0xFF. -/
def State.parentKey (s : State) (p : Nat) : List Byte := if p = 0xFF then s.rootKey else (s.slot p).key
def State.parentDepth (s : State) (p : Nat) : Nat := if p = 0xFF then 0 else (s.slot p).depth

/-- The KDF in counter mode (R447). -/
def kdf (p label : List Byte) : List Byte :=
  let block : Nat → List Byte := fun i => aesCmac p ([BitVec.ofNat 8 i] ++ label ++ [0] ++ uidOctets ++ [1, 0])
  block 1 ++ block 2
def kMac (p : List Byte) : List Byte := kdf p [0x42, 0x53, 0x4D, 0x41, 0x43]
def kWrap (p : List Byte) : List Byte := kdf p [0x42, 0x53, 0x57, 0x52, 0x50]

/-- WLEN of a KIND (R446). -/
def kindLen (kind : Nat) : Nat := if kind = 4 then 72 else if kind = 5 then 104 else 40

/-! ## Messages (R448, R449) -/

def oWRITE : Nat := 1
def oINVALIDATE : Nat := 2
def oSESSION : Nat := 3
def oUNLOCK : Nat := 4

def mOp (m : List Byte) : Nat := fldB m 1 1
def mTarget (m : List Byte) : Nat := fldB m 2 2
def mParent (m : List Byte) : Nat := fldB m 4 1
def mKind (m : List Byte) : Nat := fldB m 5 1
def mWlen (m : List Byte) : Nat := fldB m 6 2
def mCounter (m : List Byte) : Nat := fldB m 8 4

/-- Whether a message's fields are valid (0xB10). -/
def msgValid (m : List Byte) : Bool :=
  let op := mOp m
  let t := mTarget m
  let k := mKind m
  let w := mWlen m
  fldB m 0 1 == 1 && 1 ≤ op && op ≤ 4 && fldB m 12 4 == 0 && fldB m 136 8 == 0 && fldB m (32 + w) (104 - w) == 0 &&
    (if op = oWRITE then t < 64 && 1 ≤ k && k ≤ 5 && w == kindLen k
     else if op = oINVALIDATE then t < 64 && k == 0 && w == 0
     else if op = oSESSION then t < 1024 && k ≤ 1 && w == 40
     else t == 0 && k == 0 && w == 0)

/-- The ancestors of a slot, itself first, at most five steps up. -/
def State.ancestors (s : State) : Nat → Nat → List Nat
  | 0, _ => []
  | n + 1, i => if 64 ≤ i then [] else i :: s.ancestors n (s.slot i).parent

/-- Whether PARENT does not serve the message (0xB13). -/
def State.parentBad (s : State) (m : List Byte) : Bool :=
  let p := mParent m
  let op := mOp m
  let t := s.slot (mTarget m)
  let ok : Bool := p == 0xFF || (decide (p < 64) && (s.slot p).state == 1 && (s.slot p).kind == 1)
  !ok || ((op == oWRITE || op == oINVALIDATE) && t.state == 1 && t.parent != p) ||
    (op == oINVALIDATE && t.state != 1) || (op == oSESSION && p != s.g BST_CFG_SESSION_SLOT) || (op == oUNLOCK && p != 0xFF)

/-- Whether the tree forbids the message (0xB14). -/
def State.treeBad (s : State) (m : List Byte) : Bool :=
  let p := mParent m
  (mOp m == oWRITE && decide (4 < s.parentDepth p + 1)) ||
    ((mOp m == oWRITE || mOp m == oINVALIDATE) && (s.ancestors 5 p).contains (mTarget m))

/-- The stored COUNTER of the target. -/
def State.storedCounter (s : State) (m : List Byte) : Nat :=
  if mOp m = oSESSION then (s.sess (mTarget m)).ctr else if mOp m = oUNLOCK then s.bank.unlock else (s.slot (mTarget m)).ctr

/-- The key that a message carries, where its integrity check passes. -/
def State.unwrapped (s : State) (m : List Byte) : Option (List Byte) :=
  match aesUnwrap (kWrap (s.parentKey (mParent m))) ((m.drop 32).take (mWlen m)) with
  | none => none
  | some k => if mOp m = oWRITE ∧ 4 ≤ mKind m ∧ onCurve (mKind m) k = false then none else some k

/-- The code of the first test that a message fails, 0 where it passes (R449). -/
def State.msgCode (s : State) (m : List Byte) : Nat :=
  if !msgValid m then 0xB10
  else if fldB m 16 16 ≠ Config.uid then 0xB11
  else if mOp m = oUNLOCK ∧ s.on BST_STATUS_TEST_ROOT = false then 0xB17
  else if s.parentBad m then 0xB13
  else if s.treeBad m then 0xB14
  else if aesCmac (kMac (s.parentKey (mParent m))) (m.take 144) ≠ (m.drop 144).take 16 then 0xB15
  else if mCounter m ≤ s.storedCounter m then 0xB12
  else if (mOp m = oWRITE ∨ mOp m = oSESSION) ∧ (s.unwrapped m).isNone then 0xB16
  else 0

/-! ## Batch (R451) -/

def bstProg : ProgRegs :=
  ⟨BST_BATCH_PROG_PERMYRIAD_STATE, BST_BATCH_PROG_PERMYRIAD_VAL, BST_BATCH_PROG_POSITION_VAL,
    BST_BATCH_PROG_TOTAL_VAL⟩

/-- The next message of the running batch. -/
def State.nextMsg (s : State) (b : BstBatch) : List Byte := s.rbs (b.msgs + 160 * b.next) 160

/-- The message is done: its result word is written, the batch goes on, or ends. -/
def State.msgDone' (s : State) (b : BstBatch) (word : Nat) : State :=
  let s := (s.wle (b.res + 4 * b.next) 4 word).progAt bstProg 0 (b.next + 1)
  if b.next + 1 = b.count then ({ s with bst := { s.bst with batch := none } }).progEnd bstProg 0 2
  else { s with bst := { s.bst with batch := some { b with next := b.next + 1 } } }

/-- A refused message: KEY_REFUSED, and for an UNLOCK FACTORY_UNLOCK (R437, R449). -/
def State.msgRefused (s : State) (b : BstBatch) (m : List Byte) (code : Nat) : State :=
  let s := s.logFixed 0xB003 b.master (mTarget m) (mCounter m) code (mOp m)
  let s := if mOp m = oUNLOCK then s.logFixed 0x0009 b.master code 0 0 0 else s
  s.msgDone' b code

/-- The batch ends on an error response (R451). -/
def State.batchFail (s : State) : State := ({ s with bst := { s.bst with batch := none } }).progEnd bstProg 0 3

/-- A read of the next message is answered with an error: an uncorrectable error stands in it (R451, R469). -/
def State.msgBad (s : State) (b : BstBatch) : Bool := s.eccUncorr (b.msgs + 160 * b.next) 160

/-- Process the refused messages that stand before the next accepted one. -/
def State.bstSkip : Nat → State → State
  | 0, s => s
  | n + 1, s =>
    match s.bst.batch with
    | none => s
    | some b =>
      if s.msgBad b then (s.memUncorr (b.msgs + 160 * b.next) 31).batchFail else
      let m := s.nextMsg b
      let c := s.msgCode m
      if c = 0 then s else State.bstSkip n (s.msgRefused b m c)

/-- A write of BST_BATCH_CMD.GO by a master. -/
def State.keyBatch (s : State) (master count : Nat) : State :=
  let a := s.g BST_BATCH_ADDR_ADDR
  let r := s.g BST_BATCH_RES_ADDR
  if s.on BST_CTRL_ENABLE = false ∨ s.bst.batch.isSome ∨ count = 0 ∨ 4096 < count ∨ a % 64 ≠ 0 ∨ r % 64 ≠ 0 ∨
      s.inRam a (160 * count) = false ∨ s.inRam r (4 * count) = false then s.p BST_BATCH_CMD_REFUSAL 0 0xB18
  else
    let s := s.progStart bstProg 0 count
    if s.ready a (160 * count) && s.ready r (4 * count) then
      State.bstSkip count { s with bst := { s.bst with batch := some ⟨a, r, 0, count, master⟩ } }
    else s.progEnd bstProg 0 3

/-- KEY_BATCH (R451). -/
def execKeyBatch (master : Fin 42) (count : Fin 8192) (s : State) : Out' :=
  .next (s.command fun s => s.keyBatch master.val count.val)

/-! ## Accepted messages (R450) -/

/-- SESSION_SLOT has become EMPTY or ORPHAN: every session phase is erased. -/
def State.sessionLost (s : State) : State :=
  if (s.slot (s.g BST_CFG_SESSION_SLOT)).state = 1 then s
  else
    let erase : Nat × SessEntry → Option (Nat × SessEntry) := fun x =>
      if x.2.ctr = 0 then none else some (x.1, { x.2 with k0 := none, k1 := none })
    s.setBank { s.bank with sess := s.bank.sess.filterMap erase }

def State.keyWrite (s : State) (b : BstBatch) (m : List Byte) : State :=
  let p := mParent m
  let s := s.setSlot (mTarget m)
    ⟨1, s.parentDepth p + 1, p, mKind m, mCounter m, (s.unwrapped m).getD []⟩
  s.logFixed 0xB001 b.master (mTarget m) (mCounter m) p (mKind m)

/-- The VALID descendants of a slot. -/
def State.descendants (s : State) (i : Nat) : List Nat :=
  (List.range 64).filter fun j => j != i && (s.slot j).state == 1 && (s.ancestors 5 j).contains i

def State.keyInvalidate (s : State) (b : BstBatch) (m : List Byte) : State :=
  let t := mTarget m
  let l := s.descendants t
  let s := l.foldl (fun s j => s.setSlot j { s.slot j with state := 2, key := [] }) s
  let s := s.setSlot t { ctr := mCounter m }
  s.sessionLost.logFixed 0xB002 b.master t (mCounter m) l.length 0

def State.sessionInstall (s : State) (b : BstBatch) (m : List Byte) : State :=
  let e := mTarget m
  let k := s.unwrapped m
  let x := s.sess e
  let s := s.setSess e (if mKind m = 0 then { x with k0 := k, ctr := mCounter m } else { x with k1 := k, ctr := mCounter m })
  (s.logFixed 0xB004 b.master e (mKind m) (mCounter m) 0).bcnSession e (mKind m)

def State.factoryUnlock (s : State) (b : BstBatch) (m : List Byte) : State :=
  let s := s.setBank { s.bank with unlock := mCounter m }
  let s := ({ s with bst := { s.bst with unlocked := true } }).p BST_STATUS_UNLOCKED 0 1
  s.logFixed 0x0009 b.master 0 0 0 0

/-- The next message of the batch, accepted and of one OP, has its effect; then the refused ones that follow. `fault`
(R451, R456): 0 none; 1 an error response on the message or its result ends the batch; 2 MRAM_ERR: no change, refused with
0xB16; 3 ECC_UNCORR: the message is discarded. -/
def State.bstMessage (s : State) (op fault : Nat) (act : State → BstBatch → List Byte → State) : State :=
  match s.bst.batch with
  | none => s
  | some b =>
    let m := s.nextMsg b
    if mOp m = op ∧ s.msgCode m = 0 then
      let rest := b.count - b.next
      if fault = 1 then s.batchFail
      else if fault = 2 then State.bstSkip rest ((s.raise .bst BST_MRAM_ERR none 0).msgRefused b m 0xB16)
      else if fault = 3 then
        let x := (s.raise .bst BST_ECC_UNCORR none 0).draw
        State.bstSkip rest (x.2.msgDone' b (x.1 % 2 ^ 32))
      else State.bstSkip rest ((act s b m).msgDone' b (2 ^ 31))
    else s

/-- KEY_WRITE (R450). -/
def execKeyWrite (fault : Fin 4) (s : State) : Out' := .next (s.bstMessage oWRITE fault.val State.keyWrite)
/-- KEY_INVALIDATE (R450). -/
def execKeyInvalidate (fault : Fin 4) (s : State) : Out' := .next (s.bstMessage oINVALIDATE fault.val State.keyInvalidate)
/-- SESSION_INSTALL (R450). -/
def execSessionInstall (fault : Fin 4) (s : State) : Out' := .next (s.bstMessage oSESSION fault.val State.sessionInstall)
/-- FACTORY_UNLOCK (R450). -/
def execFactoryUnlock (fault : Fin 4) (s : State) : Out' := .next (s.bstMessage oUNLOCK fault.val State.factoryUnlock)

/-- ENTROPY_FAIL (R453). -/
def execEntropyFail (s : State) : Out' := .next ((s.p BST_STATUS_DRBG_OK 0 0).raise .bst BST_ENTROPY_ERR none 0)

end Sys2Proof.Machine
end

