-- ==== Sys2Proof/Machine/Prf.lean ====
section
/-! DEFINITION. The Proof state shared by other blocks: voiding (R67) and the busy flag of the admission check (R22).
Readings and choices: DEDUCED log 21. -/

namespace Sys2Proof.Machine

def pIDLE : Nat := 0
def pSTAGED : Nat := 1
def pPROVING : Nat := 2
def pPROVEN : Nat := 3
def pARMED : Nat := 4

def State.prf (s : State) : Nat := s.g PRF_STATUS_STATE
def State.setPrf (s : State) (x : Nat) : State := s.p PRF_STATUS_STATE 0 x

/-- SYS_CTR_CHECK.BUSY: a path's check or a PROOF runs. -/
def State.busyNow (s : State) : State :=
  s.p SYS_CTR_CHECK_BUSY 0 (bit (s.adm.running.isSome || s.prf == pPROVING))

/-! ## Rings (R82 to R86) -/

def State.setRing (s : State) (r : Nat) (x : HostRing) : State := { s with rings := AMap.set {} s.rings r x }
def State.ring (s : State) (r : Nat) : HostRing := AMap.get {} s.rings r

/-- Note the end of a list's first command that has none. -/
def endFirst (e : Nat × Nat × List Byte) : List RingCmd → List RingCmd
  | [] => []
  | c :: t => if c.done.isNone then { c with done := some e } :: t else c :: endFirst e t

/-- The ring's executing command ends with KIND, code and RESULT. -/
def State.ringEnd (s : State) (r kind code : Nat) (result : List Byte) : State :=
  s.setRing r { s.ring r with cmds := endFirst (kind, code, result) (s.ring r).cmds }

/-- PRF_FAIL_ADDR as a word. -/
def State.failAddr (s : State) : Nat := s.g PRF_FAIL_ADDR_VALID * 2 ^ 31 + s.g PRF_FAIL_ADDR_OFFSET

/-- The PROOF of a ring ends when the proof does (R86): KIND 2 with REFUSAL where the set is back at STAGED. -/
def State.ringProofEnd (s : State) : State :=
  match s.ringProof with
  | none => s
  | some r =>
    let code := s.g PRF_STATUS_REFUSAL
    let back := s.prf == pSTAGED
    { s with ringProof := none }.ringEnd r (2 * bit back) (if back then code else 0)
      (leBytes 4 code ++ leBytes 4 s.failAddr)

/-- A change of a block or path ENABLE voids a proof (R67): back to STAGED with 0x00A, a running PROOF abandoned, an
armed PULL cancelled. -/
def State.voidProof (s : State) : State :=
  if s.prf = pPROVING ∨ s.prf = pPROVEN ∨ s.prf = pARMED then
    (((s.setPrf pSTAGED).p PRF_STATUS_REFUSAL 0 0x00A).busyNow).ringProofEnd
  else s

/-- The staged copies laid over the live ones: what a PROOF sees (R65). -/
def State.stagedView (s : State) : State :=
  { s with regs := s.staged.foldl (fun m x => AMap.ins m x.1 x.2) s.regs }

end Sys2Proof.Machine
end

