-- ==== Sys2Proof/Machine/ContractRows.lean ====
section
/-! DEFINITION. Timing contract commands: enabling and disabling a path, the end of its admission check, the Cargo
buffer area (R22 to R24, R29). Readings and choices: DEDUCED log 20. -/

namespace Sys2Proof.Machine

/-- Refuse a path's enable. -/
def State.refusePath (s : State) (p code : Nat) : State := s.p SYS_CTR_STATUS_REFUSAL (dPath p) code

/-- A write of 1 to a path's ENABLE (R22, R23, R73): no effect where it reads 1; refused in SAFE and while a check
runs; else the check starts. -/
def State.pathEnable (s : State) (p : Nat) : State :=
  if s.pathOn p then s
  else if s.mode = SAFE then s.refusePath p 0x010
  else if s.on SYS_CTR_CHECK_BUSY then s.refusePath p 0x04C
  else { s with adm := { s.adm with running := some p } }.busyNow

/-- PATH_ENABLE (R22). -/
def execPathEnable (p : Fin 512) (s : State) : Out' := .next (s.command fun s => s.pathEnable p)

/-- The check's result (R22, R24): ENABLE, WORST and a draining path's re-admission, or the refusal. -/
def State.admissionEnd (s : State) (p : Nat) : State :=
  let v := admView s s (some p)
  let s := { s with adm := { s.adm with running := none } }.busyNow
  match v.check (some p) with
  | none =>
    let s := ((s.p SYS_CTR_PATH_ENABLE (dPath p) 1).p SYS_CTR_STATUS_DRAINING (dPath p) 0).refusePath p 0
    (v.writeWorst s).voidProof
  | some (code, q) =>
    let s := (s.refusePath p code).p SYS_CTR_CHECK_LAST_REFUSAL 0 code
    if q = p then s else s.p SYS_CTR_CHECK_PATH 0 q

/-- ADMISSION_CHECK_END (R22). With no path's check running, nothing changes. -/
def execAdmissionCheckEnd (s : State) : Out' :=
  .next (match s.adm.running with
    | some p => s.admissionEnd p
    | none => s)

/-- A write of 0 to a path's ENABLE (R24, R74). -/
def State.pathDisable (s : State) (p : Nat) : State :=
  if s.adm.running = some p then { s with adm := { s.adm with running := none } }.busyNow
  else if s.pathOn p then
    let s := s.p SYS_CTR_PATH_ENABLE (dPath p) 0
    (if s.outstanding p then s.p SYS_CTR_STATUS_DRAINING (dPath p) 1 else s).voidProof
  else s

/-- PATH_DISABLE (R24). -/
def execPathDisable (p : Fin 512) (s : State) : Out' := .next (s.command fun s => s.pathDisable p)

/-- A write of AREA (R29): none while Cargo is enabled; with Cargo stream paths live it is admitted or refused. -/
def State.cargoAreaWrite (s : State) (area : Nat) : State :=
  if s.on NET_CARGO_CTRL_ENABLE then s
  else
    let t := s.p NET_CARGO_CTRL_AREA 0 area
    if (List.range 512).any fun p => (s.pathOn p || s.draining p) && s.pathKind p == kCARGO then
      let x := s.admitChange t
      if x.1 then x.2.p NET_CARGO_CTRL_AREA 0 area else x.2.p NET_CARGO_CTRL_REFUSAL 0 0x04B
    else t

/-- CARGO_AREA_WRITE (R29). -/
def execCargoAreaWrite (area : Fin 4) (s : State) : Out' := .next (s.command fun s => s.cargoAreaWrite area)

end Sys2Proof.Machine
end

