-- ==== Sys2Proof/Machine/Can.lean ====
section
/-! DEFINITION. CAN controllers (R333 to R346, R350 to R353). Readings and choices: DEDUCED log 37. -/

namespace Sys2Proof.Machine

def dCls (n k : Nat) : Nat := dCan n + 0x40 * k
def dFlt (n m : Nat) : Nat := dCan n + 0x10 * m
def dFifo (n f : Nat) : Nat := dCan n + 0x20 * f

/-- The DMA master of CAN and M-Bus (R13). -/
def canMaster : Nat := 40

def State.canCtl (s : State) (n : Nat) : CanCtl := AMap.get {} s.can n
def State.setCan (s : State) (n : Nat) (x : CanCtl) : State := { s with can := AMap.set {} s.can n x }

def cTX : Nat := 0
def cRX : Nat := 1
def cTOO_LONG : Nat := 2
def cFULL : Nat := 3
def cCANCELLED : Nat := 4
def cABORTED : Nat := 5
def cDISCARDED_LOST : Nat := 6
def State.canCount (s : State) (n c k : Nat) : State :=
  s.p FBS_CTL_COUNT_COUNT (dCan n + 4 * c) (s.g FBS_CTL_COUNT_COUNT (dCan n + 4 * c) + k)

/-- States of a controller (FBS_CTL_STATUS). -/
def kACTIVE : Nat := 0
def kPASSIVE : Nat := 1
def kBUSOFF : Nat := 2
def kINTEGRATING : Nat := 3
def State.canState (s : State) (n : Nat) : Nat := s.g FBS_CTL_STATUS_STATE (dCan n)
def State.canListen (s : State) (n : Nat) : Bool := s.on FBS_CTL_CTRL_OPMODE (dCan n)
/-- Whether the controller takes part in the bus. -/
def State.canJoined (s : State) (n : Nat) : Bool := s.on FBS_CTL_CTRL_ENABLE (dCan n) && s.canState n < kBUSOFF

/-- Whether the device mode restricts NORMAL (R335). -/
def State.restrictedMode (s : State) : Bool := s.mode ≠ COMMISSION && s.mode ≠ RUN
/-- RESTRICTED as FBS_CTL_STATUS reads it. -/
def State.canRestricted (s : State) (n : Nat) : Bool :=
  s.on FBS_CTL_CTRL_ENABLE (dCan n) && !s.canListen n && s.restrictedMode

/-! ## Records (R337, R341) -/

/-- A valid LENGTH for a FORMAT: classic, FD, XL. -/
def canLenOk (format len : Nat) : Bool :=
  if format = 0 then len ≤ 8
  else if format = 1 then len ≤ 8 || [12, 16, 20, 24, 32, 48, 64].contains len
  else 1 ≤ len && len ≤ 2048

/-- Whether a header may be offered on a controller whose FORMATS is `most`. -/
def canHeaderOk (most : Nat) (h : List Byte) : Bool :=
  let f : Nat → Nat → Nat := fun o n => leNat ((h.drop o).take n)
  let format := f 4 1
  f 0 4 < 2 ^ 31 && format ≤ 2 && format ≤ most && canLenOk format (f 6 2) && (f 5 1 &&& 0xFA) == 0 && f 10 2 == 0 &&
    f 16 8 == 0 && f 24 2 == 0 && f 26 6 == 0 && (format == 2 || (f 8 1 == 0 && f 9 1 == 0 && f 12 4 == 0))

/-! ## Offer, fetch, cancel (R341, R345) -/

def State.canPath (s : State) (n k : Nat) : Nat := s.g FBS_CLS_CFG_PATH (dCls n k)

/-- The tests of an offer: the code, 0 where they all pass, and whether a refusal is one of an offer, which is counted
(R335, R341). The spec gives no code for three cases, which are the model's choice (DESIGN CHOICE log 37): in PROVISION,
STANDBY and FACTORY with OPMODE NORMAL the answer is 0x046, counted, as in LISTEN; a class that is bound to no path has
0x04A, uncounted; a header that cannot be read has 0x708. -/
def State.canOfferCode (s : State) (n k : Nat) : Nat × Bool :=
  let a := s.g FBS_CLS_ADDR_ADDR (dCls n k)
  let h := s.rbs a 32
  let p := s.canPath n k
  if a % 8 ≠ 0 ∨ inSram a 32 = false ∨ s.eccUncorr a 32 = true ∨ canHeaderOk (s.g FBS_CTL_CTRL_FORMATS (dCan n)) h = false then (0x708, false)
  else if (s.mode = COMMISSION ∨ s.mode = FACTORY) ∧ s.on FBS_CLS_CFG_COMM_EN (dCls n k) = false then (0x04A, true)
  else if s.on FBS_CLS_CFG_BOUND (dCls n k) = false then (0x04A, false)
  else if s.mode = SAFE then (0x04D, true)
  else if s.canListen n = true ∨ s.restrictedMode = true then (0x046, true)
  else (s.offerCode p (leNat ((h.drop 6).take 2)) true, true)

/-- Offer the record at FBS_CLS_ADDR: the word that the read returns, and the State. -/
def State.canSubmit (s : State) (n k : Nat) : Nat × State :=
  let x := s.canOfferCode n k
  let p := s.canPath n k
  let d := dCls n k
  if x.1 = 0 then
    let a := s.acceptItem p
    let c := a.2.canCtl n
    let seq := AMap.get 0 c.seqs k
    let it : CanItem := ⟨k, seq, a.1, s.g FBS_CLS_ADDR_ADDR d, false, false, []⟩
    let s := a.2.setCan n { c with items := c.items ++ [it], seqs := AMap.set 0 c.seqs k ((seq + 1) % 65536) }
    let s := ((s.p FBS_CLS_SUBMIT_ACCEPTED d 1).p FBS_CLS_SUBMIT_CODE d 0).p FBS_CLS_SUBMIT_SEQ d seq
    (2 ^ 31 + seq, s)
  else
    let s := if x.2 then s.rejectItem p else s
    let s := ((s.p FBS_CLS_SUBMIT_ACCEPTED d 0).p FBS_CLS_SUBMIT_CODE d x.1).p FBS_CLS_SUBMIT_SEQ d 0
    (x.1 * 65536, s)

/-- CAN_SUBMIT (R341): a read of FBS_CLS_SUBMIT. -/
def execCanSubmit (ctl : Fin 8) (cls : Fin 8) (s : State) : Out' :=
  .next (s.query fun s => let x := s.canSubmit ctl.val cls.val; x.2.answer true x.1)

/-- Take an item out of a controller. -/
def State.canRemove (s : State) (n : Nat) (it : CanItem) : State :=
  let c := s.canCtl n
  s.setCan n { c with items := c.items.filter fun x => x.item ≠ it.item }

/-- CAN_FETCH_DONE (R341, R352): the data of the class's oldest unfetched item is in the controller. An error response to
the fetch (uncorrectable words of the record; `cut`: a Lock has cut the transfer off, R398) gives TX_DMA_ERR; `ecc`: an
uncorrectable error in the controller's buffer gives ECC_UNCORR. Both discard the item. -/
def execCanFetchDone (ctl : Fin 8) (cls : Fin 8) (cut ecc : Bool) (s : State) : Out' :=
  let n := ctl.val
  let c := s.canCtl n
  .next (match c.items.find? fun x => x.cls == cls.val && !x.fetched with
    | none => s
    | some it =>
      let len := s.rle (it.addr + 6) 2
      let gone := (s.canRemove n it).itemGone it.item
      if cut || s.eccUncorr it.addr (32 + len) then
        (gone.canCount n cABORTED 1).raise .fbs FBS_TX_DMA_ERR (some ⟨it.addr, canMaster, 1⟩) 0
      else if ecc then gone.raise .fbs FBS_ECC_UNCORR none 0
      else
        let l := s.rbs it.addr (32 + len)
        let mark : CanItem → CanItem := fun x => if x.item = it.item then { x with fetched := true, octets := l } else x
        ((s.eccFix it.addr (32 + len)).setCan n { c with items := c.items.map mark }).p FBS_CLS_PROG_FETCHED_SEQ
          (dCls n cls.val) it.seq)

/-- Cancel the item of FBS_CLS_CANCEL_SEQ: the code that the read returns, and the State. -/
def State.canCancel (s : State) (n k : Nat) : Nat × State :=
  let seq := s.g FBS_CLS_CANCEL_SEQ_SEQ (dCls n k)
  let x : Nat × State := match (s.canCtl n).items.find? fun x => x.cls == k && x.seq == seq with
    | none => (0x707, s)
    | some it =>
      if it.sof then (0x706, s) else (0, ((s.canRemove n it).itemGone it.item).canCount n cCANCELLED 1)
  (x.1, x.2.p FBS_CLS_CANCEL_CODE (dCls n k) x.1)

/-- CAN_CANCEL (R345): a read of FBS_CLS_CANCEL. -/
def execCanCancel (ctl : Fin 8) (cls : Fin 8) (s : State) : Out' :=
  .next (s.query fun s => let x := s.canCancel ctl.val cls.val; x.2.answer true x.1)

/-! ## Transmission (R342, R343) -/

/-- The items that may start: the first of each class, fetched; in restricted operation only one whose frame had begun
(R335). -/
def State.canHeads (s : State) (n : Nat) : List CanItem :=
  let l := (s.canCtl n).items
  (List.range 8).filterMap fun k =>
    match l.find? (fun x => x.cls == k) with
    | some it => if it.fetched && (it.sof || !s.restrictedMode) then some it else none
    | none => none

/-- The head of the highest PRIO; between equal ones the earlier acceptance. -/
def State.canNext (s : State) (n : Nat) : Option CanItem :=
  let better : CanItem → CanItem → Bool := fun a b =>
    let pa := s.pathPrio (s.canPath n a.cls)
    let pb := s.pathPrio (s.canPath n b.cls)
    decide (pb < pa) || (pa == pb && decide (a.item < b.item))
  (s.canHeads n).foldl (fun b a => match b with
    | none => some a
    | some x => if better a x then some a else b) none

/-- CAN_FRAME_START (R342): at bus idle the controller starts its next frame; nothing where it has none, or may send
none. -/
def execCanFrameStart (ctl : Fin 8) (s : State) : Out' :=
  let n := ctl.val
  let c := s.canCtl n
  .next (if s.canJoined n && !s.canListen n && c.sending.isNone then
      match s.canNext n with
      | none => s
      | some it =>
        let mark : CanItem → CanItem := fun x => if x.item = it.item then { x with sof := true } else x
        let s := s.setCan n { c with items := c.items.map mark, sending := some (it.cls, it.seq, it.sof) }
        let s := s.emit (.can n it.cls it.seq)
        if it.sof then s else (s.itemGone it.item).p FBS_CLS_PROG_SENT_SEQ (dCls n it.cls) it.seq
    else s)

/-- An interval of R343 has passed on the bus: deadlines move later, EXTEND adds it up. -/
def State.canExtend (s : State) (n ns : Nat) : State :=
  (s.moveDeadlines (s.targets kCAN n) ns).addSat FBS_CTL_EXTEND_NS (dCan n) ns

/-- The error counters take the values that ISO 11898-1 gives; above 127 the controller is error-passive. -/
def State.canErrors (s : State) (n tec rec_ : Nat) : State :=
  let s := (s.p FBS_CTL_STATUS_TEC (dCan n) tec).p FBS_CTL_STATUS_REC (dCan n) rec_
  if s.canState n < kBUSOFF then
    s.p FBS_CTL_STATUS_STATE (dCan n) (if 127 < tec ∨ 127 < rec_ then kPASSIVE else kACTIVE)
  else s

/-- CAN_ARBITRATION_LOST (R342, R343): the frame in transmission lost arbitration; the interval of the winner's frame. -/
def execCanArbitrationLost (ctl : Fin 8) (ns : BitVec 32) (s : State) : Out' :=
  let n := ctl.val
  let c := s.canCtl n
  .next (if s.canJoined n && c.sending.isSome then (s.setCan n { c with sending := none }).canExtend n ns.toNat else s)

/-- CAN_ERROR_FRAME (R342, R343): an error frame, or an overload frame, occupies the bus for an interval; an error frame
ends a frame in transmission, which is retried. The error counters are those that ISO 11898-1 gives. -/
def execCanErrorFrame (ctl : Fin 8) (overload : Bool) (ns : BitVec 32) (tec rec_ : BitVec 8) (s : State) : Out' :=
  let n := ctl.val
  let c := s.canCtl n
  .next (if s.canJoined n then
      let s := if overload then s else s.setCan n { c with sending := none }
      (s.canExtend n ns.toNat).canErrors n tec.toNat rec_.toNat
    else s)

/-- CAN_FRAME_SENT (R342, R343): the frame in transmission completes; the interval of a retransmission moves deadlines. -/
def execCanFrameSent (ctl : Fin 8) (ns : BitVec 32) (tec rec_ : BitVec 8) (s : State) : Out' :=
  let n := ctl.val
  let c := s.canCtl n
  .next (match c.sending with
    | none => s
    | some (k, seq, again) =>
      let s := s.setCan n { c with sending := none, items := c.items.filter fun x => !(x.cls == k && x.seq == seq) }
      let s := (s.canCount n cTX 1).canErrors n tec.toNat rec_.toNat
      if again then s.canExtend n ns.toNat else s)

/-! ## Reception (R338, R339) -/

/-- Whether a filter pair matches a frame. -/
def State.fltMatch (s : State) (n m id format : Nat) : Bool :=
  let d := dFlt n m
  let ide := s.g FBS_FLT_CFG_TYPE_IDE d
  let rtr := s.g FBS_FLT_CFG_TYPE_RTR d
  let fmt := s.g FBS_FLT_CFG_TYPE_FMT d
  s.on FBS_FLT_CFG_VALID d &&
    ((id % 2 ^ 29 ^^^ s.g FBS_FLT_ID_VALUE d) &&& s.g FBS_FLT_MASK_VALUE d) == 0 &&
    (ide == 0 || (ide == 2) == id.testBit 29) && (rtr == 0 || (rtr == 2) == id.testBit 30) &&
    (fmt == 0 || fmt == format + 1)

/-- DATA_MAX in octets. -/
def dataMax (code : Nat) : Nat := if code = 0 then 8 else if code = 1 then 64 else 2048

/-- A record goes into a FIFO (R339). -/
def State.canStore (s : State) (n f : Nat) (octets : List Byte) : State :=
  let d := dFifo n f
  let m := dataMax (s.g FBS_FIFO_CFG_DATA_MAX d)
  let t := s.g FBS_FIFO_TAIL_INDEX d
  let used := ringUsed 6 (s.g FBS_FIFO_HEAD_INDEX d) t
  if m + 32 < octets.length then s.canCount n cTOO_LONG 1
  else if used = 64 then s.canCount n cFULL 1
  else
    let s := (s.wbsEcc (s.g FBS_FIFO_BASE_ADDR d + (32 + m) * (t % 64)) octets).p FBS_FIFO_TAIL_INDEX d (ringNext 6 t)
    if used = 0 then s.fireEdge (srcCanRx n f) else s

/-- A write of a FIFO's HEAD (R84). -/
def State.canHeadWrite (s : State) (n f v : Nat) : State :=
  let d := dFifo n f
  if headOk 6 (s.g FBS_FIFO_HEAD_INDEX d) (s.g FBS_FIFO_TAIL_INDEX d) v then s.p FBS_FIFO_HEAD_INDEX d v else s

/-- A received frame's way: FIFO 0 or 1, or rejected; and its MATCH field. -/
def State.canRoute (s : State) (n id format : Nat) : Option Nat × Nat :=
  match (List.range 64).find? fun m => s.fltMatch n m id format with
  | some m =>
    let x := s.g FBS_FLT_CFG_DEST (dFlt n m)
    (if x < 2 then some x else none, m)
  | none =>
    let x := s.g FBS_CTL_NOMATCH_DEST (dCan n)
    (if x = 1 ∨ x = 2 then some (x - 1) else none, 2 ^ 15)

/-- CAN_FRAME_RECEIVED (R338, R339, R352): a frame that passed its CRC: ID word as R337 lays it out, FORMAT, FLAGS, SDT,
VCID, AF, the Tide time of its SOF, data; REC as ISO 11898-1 gives it. `fault`: 0 none, 1 RX_DMA_ERR, 2 ECC_UNCORR. -/
def execCanFrameReceived (ctl : Fin 8) (id : BitVec 31) (format : Fin 3) (flags sdt vcid : BitVec 8) (af : BitVec 32)
    (sof : BitVec 64) (data : List Byte) (rec_ : BitVec 8) (fault : Fin 3) (addr : BitVec 40) (s : State) : Out' :=
  let n := ctl.val
  .next (if s.canJoined n then
      let s := s.canErrors n (s.g FBS_CTL_STATUS_TEC (dCan n)) rec_.toNat
      if fault.val = 2 then s.raise .fbs FBS_ECC_UNCORR none 0
      else
        let s := s.canCount n cRX 1
        let r := s.canRoute n id.toNat format.val
        match r.1 with
        | none => s
        | some f =>
          if fault.val = 1 then s.raise .fbs FBS_RX_DMA_ERR (some ⟨addr.toNat, canMaster, 2⟩) 0
          else
            s.canStore n f (leBytes 4 id.toNat ++ [BitVec.ofNat 8 format.val, flags] ++ leBytes 2 data.length ++
              [sdt, vcid, 0, 0] ++ leBytes 4 af.toNat ++ leBytes 8 sof.toNat ++ leBytes 2 r.2 ++
              List.replicate 6 0 ++ data)
    else s)

/-! ## Bus-off, timing, measurement (R334, R336, R346) -/

/-- A controller's medium is lost, or it is disabled: its items are discarded and counted (R35). -/
def State.canLose (s : State) (n : Nat) : State :=
  let x := s.dropItems (s.targets kCAN n)
  let c := x.2.canCtl n
  let s := x.2.setCan n { c with items := [], sending := none }
  (s.canCount n cDISCARDED_LOST x.1.length).p FBS_CTL_MEAS_MEASURE (dCan n) 0

def State.canDisable (s : State) (n : Nat) : State := s.canLose n

/-- CAN_BUS_OFF (R336). -/
def execCanBusOff (ctl : Fin 8) (s : State) : Out' :=
  let n := ctl.val
  .next (if s.canJoined n then
      let s := (s.p FBS_CTL_CTRL_ENABLE (dCan n) 0).p FBS_CTL_STATUS_STATE (dCan n) kBUSOFF
      ((s.canLose n).raise .fbs FBS_BUS_OFF none 0).voidProof
    else s)

/-- The bit timing of the registers is in force (R334). -/
def State.canTimingNow (s : State) (n : Nat) : State :=
  ((s.p FBS_CTL_RATE_T_N (dCan n) (s.canTn n)).p FBS_CTL_RATE_T_D (dCan n) (s.canTd n)).setCan n
    { s.canCtl n with newTiming := false }

/-- A controller is enabled: it waits to join the bus (R336). -/
def State.canEnable (s : State) (n : Nat) : State :=
  (s.p FBS_CTL_STATUS_STATE (dCan n) kINTEGRATING).canTimingNow n

/-- CAN_INTEGRATION_END (R336): 128 occurrences of 11 recessive bits have passed. -/
def execCanIntegrationEnd (ctl : Fin 8) (s : State) : Out' :=
  let d := dCan ctl.val
  .next (if s.on FBS_CTL_CTRL_ENABLE d && s.canState ctl.val == kINTEGRATING then
      ((s.p FBS_CTL_STATUS_STATE d kACTIVE).p FBS_CTL_STATUS_TEC d 0).p FBS_CTL_STATUS_REC d 0
    else s)

/-- CAN_TIMING_TAKEUP (R334): the first bus idle after a PULL of bit timing. -/
def execCanTimingTakeup (ctl : Fin 8) (s : State) : Out' :=
  .next (if (s.canCtl ctl.val).newTiming && (s.canCtl ctl.val).sending.isNone then s.canTimingNow ctl.val else s)

/-- A write of MEAS: WINDOW_MS is taken; MEASURE starts a measurement or is refused (R346). -/
def State.canMeasure (s : State) (n : Nat) (go : Bool) (window : Nat) : State :=
  let d := dCan n
  let s := s.p FBS_CTL_MEAS_WINDOW_MS d window
  if go then
    if s.on FBS_CTL_CTRL_ENABLE d && s.canListen n && !s.on FBS_CTL_MEAS_MEASURE d then
      ((s.p FBS_CTL_MEAS_MEASURE d 1).p FBS_CTL_MEAS_DONE d 0).setCan n
        { s.canCtl n with measEnd := s.fab + 400000 * window }
    else s.p FBS_CTL_CTRL_REFUSAL d 0x705
  else s

/-- CAN_MEASURE (R346): a write of MEASURE with its WINDOW_MS. -/
def execCanMeasure (ctl : Fin 8) (window : BitVec 16) (s : State) : Out' :=
  .next (s.command fun s => s.canMeasure ctl.val true window.toNat)

/-- The candidate rates in units of 100 bit/s, coded 0 to 10 (R346). -/
def canRates : List Nat := [100, 200, 333, 500, 833, 1000, 1250, 2500, 5000, 8000, 10000]

/-- Whether an interval of CLK_CAN cycles (80 MHz) lies within ±2 % of 1 to 10 bit times at a rate. -/
def nearBits (rate i : Nat) : Bool :=
  (List.range 10).any fun k => 98 * (k + 1) * 800000 ≤ 100 * i * rate && 100 * i * rate ≤ 102 * (k + 1) * 800000

/-- The SCORE of each candidate; with no interval none is stated (a free value). -/
def State.canScores (s : State) (l : List Nat) : List (Nat × Nat) × State :=
  canRates.zipIdx.foldl (fun a r =>
    if l = [] then
      let x := a.2.draw
      (a.1 ++ [(r.2, x.1 % 10001)], x.2)
    else
      let x := a.2.roundOpen (10000 * (l.filter (nearBits r.1)).length : Nat) l.length
      (a.1 ++ [(r.2, x.1.toNat)], x.2)) ([], s)

/-- Candidates by falling score, ties to the higher rate. -/
def rankScores (l : List (Nat × Nat)) : List (Nat × Nat) :=
  l.mergeSort fun a b => decide (b.2 < a.2) || (a.2 == b.2 && decide (b.1 ≤ a.1))

/-- CAN_MEASURE_END (R346): WINDOW_MS has passed; the intervals between falling edges, in CLK_CAN cycles. Nothing happens
before the window's end. -/
def execCanMeasureEnd (ctl : Fin 8) (intervals : List (BitVec 32)) (s : State) : Out' :=
  let d := dCan ctl.val
  let l := intervals.map BitVec.toNat
  .next (if s.on FBS_CTL_MEAS_MEASURE d && decide ((s.canCtl ctl.val).measEnd ≤ s.fab) then
      let x := s.canScores l
      let s := (rankScores x.1).zipIdx.foldl (fun s c =>
        if c.2 < 4 then
          (s.p FBS_CTL_MEAS_CAND_RATE (d + 4 * c.2) c.1.1).p FBS_CTL_MEAS_CAND_SCORE (d + 4 * c.2) c.1.2
        else s) x.2
      let y := s.draw
      let short := if l = [] then y.1 % 2 ^ 14 else min (listMin l) (2 ^ 14 - 1)
      let s := if l = [] then y.2 else s
      ((s.p FBS_CTL_MEAS_SHORTEST d short).p FBS_CTL_MEAS_MEASURE d 0).p FBS_CTL_MEAS_DONE d 1
    else s)

/-! ## Check (R353) -/

/-- Bit timing, or EXT_MAX_BITS, out of range. -/
def State.canTimingBad (s : State) (n : Nat) : Bool :=
  let f := s.g FBS_CTL_CTRL_FORMATS (dCan n)
  let tn := s.canTn n
  let td := s.canTd n
  let e := s.g FBS_CTL_EXT_EXT_MAX_BITS (dCan n)
  f == 3 || tn < 80 || 8000 < tn || (f == 1 && td < 10) || (f == 2 && td < 8) || e == 0 || 20000 < e

/-- A controller's check after its need (R353). -/
def State.canCheck (s : State) (n : Nat) : Chk :=
  let d := dCan n
  let fifo : Nat → Bool := fun f =>
    let b := s.g FBS_FIFO_BASE_ADDR (dFifo n f)
    let c := s.g FBS_FIFO_CFG_DATA_MAX (dFifo n f)
    c == 3 || b % 64 != 0 || !inSram b (64 * (32 + dataMax c))
  let flt : Nat → Bool := fun m =>
    let k := dFlt n m
    s.on FBS_FLT_CFG_VALID k &&
      (s.g FBS_FLT_CFG_DEST k == 3 || s.g FBS_FLT_CFG_TYPE_IDE k == 3 || s.g FBS_FLT_CFG_TYPE_RTR k == 3)
  let bound := (List.range 8).filter fun k => s.on FBS_CLS_CFG_BOUND (dCls n k)
  let cls : Bool := bound.any (fun k => s.pathKind (s.canPath n k) != kCAN || s.pathTarget (s.canPath n k) != n ||
    bound.any fun j => j != k && s.canPath n j == s.canPath n k)
  firstFail [
    (s.canTimingBad n, 0x701, [FBS_CTL_NBT_NBRP.off + d, FBS_CTL_DBT_DBRP.off + d, FBS_CTL_EXT_EXT_MAX_BITS.off + d]),
    ((List.range 2).any fifo, 0x702, []), ((List.range 64).any flt, 0x703, []), (cls, 0x704, [])]

end Sys2Proof.Machine
end

