-- ==== Sys2Proof/Machine/RealFn.lean ====
section
/-! DEFINITION. Real values rounded once to binary64: rationals, points given by a comparison, the exponential, sine and
cosine. The transcendental functions are worked in fixed point of 400 fractional bits and then rounded.
Readings and choices: DEDUCED log 54. -/

namespace Sys2Proof.Machine.Fp

/-- A finite binary64 value as a rational; 0 for Inf and NaN. -/
def toRat (x : Nat) : Rat :=
  match b64.unpack x with
  | .fin s m e => if 0 ≤ e then ((signed s (m * 2 ^ e.toNat) : Int) : Rat) else (signed s m : Rat) / ((2 ^ (-e).toNat : Nat) : Rat)
  | _ => 0

/-- A rational rounded to nearest even. -/
def ofRat (r : Rat) : Nat :=
  if r.num = 0 then 0
  else
    let d := divExact r.num.natAbs r.den
    (b64.round (r.num < 0) d.1 d.2).1

/-- The largest value of `k` bits not above a point that `le` compares with (`le x`: x is at or below the point). -/
def floorBits (le : Nat → Bool) : Nat → Nat → Nat
  | 0, r => r
  | k + 1, r => if le (r + 2 ^ k) then floorBits le k (r + 2 ^ k) else floorBits le k r

/-- The binary64 value nearest to a real number of at least 0 that is given by its comparison with rationals: `lt` below
it, `le` at or below it. A tie goes to the even pattern. -/
def nearest (lt le : Rat → Bool) : Nat :=
  let p := floorBits (fun x => x < 0x7FF0000000000000 && le (toRat x)) 63 0
  let mid := (toRat p + (if p = 0x7FEFFFFFFFFFFFFF then ((2 ^ 1024 : Nat) : Rat) else toRat (p + 1))) / 2
  if lt mid || (le mid && p % 2 == 1) then p + 1 else p

/-- One in fixed point, and a rational in it. -/
def fpOne : Int := 2 ^ 400
def fixRat (r : Rat) : Int := r.num * fpOne / r.den
def fixMul (a b : Int) : Int := a * b / fpOne

/-- Terms of a Taylor series from term `t` = x^k/k! on, each from the one `n` before: `sg` is its sign's change. -/
def taylor (n : Nat) (sg : Int) (xn : Int) : Nat → Nat → Int → Int
  | 0, _, _ => 0
  | f + 1, k, t =>
    let den : Nat := if n = 1 then k + 1 else (k + 1) * (k + 2)
    t + taylor n sg xn f (k + n) (sg * (fixMul t xn / den))

/-- exp of a fixed-point number of magnitude below 1, squared `k` times. -/
def expSq : Nat → Int → Int
  | 0, x => taylor 1 1 x 100 0 fpOne
  | k + 1, x => let y := expSq k (x / 2); fixMul y y

/-- exp of a rational: +Inf and 0 beyond the format. -/
def expRat (r : Rat) : Nat :=
  if 720 < r then b64.infBits
  else if r < -760 then 0
  else if r.num = 0 then 0x3FF0000000000000
  else if r < 0 then
    let y := expSq 12 (fixRat (-r))
    ofRat ((fpOne : Rat) / (y : Rat))
  else ofRat ((expSq 12 (fixRat r) : Rat) / (fpOne : Rat))

/-- π in fixed point, by Machin's formula: atan(1/n) as a series. -/
def atanInv (n : Nat) : Nat → Nat → Int → Int
  | 0, _, _ => 0
  | f + 1, k, t => t / (2 * k + 1) - atanInv n f (k + 1) (t / (n * n))
def fixPi : Int := 4 * (4 * atanInv 5 200 0 (fpOne / 5) - atanInv 239 200 0 (fpOne / 239))

/-- Sine and cosine of an angle in radians, in fixed point, for a magnitude below about 2^64. -/
def fixSin (x : Int) : Int :=
  let y := x % (2 * fixPi)
  taylor 2 (-1) (fixMul y y) 120 1 y
def fixCos (x : Int) : Int :=
  let y := x % (2 * fixPi)
  taylor 2 (-1) (fixMul y y) 120 0 fpOne

/-- The square root of a fixed-point number of at least 0. -/
def fixSqrt (x : Int) : Int := (Nat.sqrt (x.toNat * 2 ^ 400) : Nat)

/-- The arctangent's series for a small fixed-point number: terms from the power `p` of degree 2k + 1 on; `y` is −x². -/
def atanTaylor (y : Int) : Nat → Nat → Int → Int
  | 0, _, _ => 0
  | f + 1, k, p => p / (2 * k + 1) + atanTaylor y f (k + 1) (fixMul p y)

/-- The arctangent of a fixed-point number of magnitude at most 1, its argument halved in angle `n` times. -/
def fixAtan : Nat → Int → Int
  | 0, x => atanTaylor (-fixMul x x) 60 0 x
  | n + 1, x => 2 * fixAtan n (x * fpOne / (fpOne + fixSqrt (fpOne + fixMul x x)))

/-- The angle of the point (x, y) in fixed point, above −π and at most π; 0 at the origin. -/
def fixAngle (y x : Int) : Int :=
  if x = 0 ∧ y = 0 then 0
  else if y.natAbs ≤ x.natAbs then
    let a := fixAtan 8 (y * fpOne / x)
    if 0 < x then a else if 0 ≤ y then a + fixPi else a - fixPi
  else
    let a := fixAtan 8 (x * fpOne / y)
    if 0 < y then fixPi / 2 - a else -fixPi / 2 - a

/-- A fixed-point number rounded to binary64. -/
def ofFix (x : Int) : Nat := ofRat ((x : Rat) / (fpOne : Rat))

end Sys2Proof.Machine.Fp
end

