-- ==== Sys2Proof/Machine/DraftMath.lean ====
section
/-! DEFINITION. The Drafting engine's binary64 arithmetic (R208 to R211): sums in the engine's order, factorisation with
static pivoting, solution and refinement. The orders come from `Config.drfVal`; the values do not.
Readings and choices: DESIGN CHOICE log 33; DEDUCED log 54. -/

namespace Sys2Proof.Machine

/-! ## Operations -/

/-- Whether an FP64 and an FP32 value is finite; comparisons. -/
def finite64 (x : Nat) : Bool := x / 2 ^ 52 % 2048 != 2047
def finite32 (x : Nat) : Bool := x / 2 ^ 23 % 256 != 255
def lt64 (x y : Nat) : Bool := Fp.ltV (Fp.b64.unpack x) (Fp.b64.unpack y)
def le64 (x y : Nat) : Bool := lt64 x y || Fp.eqV (Fp.b64.unpack x) (Fp.b64.unpack y)
def pos64 (x : Nat) : Bool := finite64 x && lt64 0 x
def zero64 (x : Nat) : Bool := x % 2 ^ 63 == 0
def one64 : Nat := 0x3FF0000000000000

/-- An Inf counts as NaN from where it arises, so that every value computed from it is NaN and the job is aborted (R211). -/
def sticky (x : Nat) : Nat := if finite64 x then x else Fp.qnan

def dAdd (x y : Nat) : Nat := sticky (Fp.add x y).1
def dSub (x y : Nat) : Nat := sticky (Fp.sub x y).1
def dMul (x y : Nat) : Nat := sticky (Fp.mul x y).1
def dDiv (x y : Nat) : Nat := sticky (Fp.div x y).1
def dSqrt (x : Nat) : Nat := sticky (Fp.sqrt x).1
/-- x × y + z, rounded once. -/
def dFma (x y z : Nat) : Nat := sticky (Fp.fma false z x y).1

/-- The larger of two values; NaN where either is. -/
def dMax (x y : Nat) : Nat :=
  if !finite64 x || !finite64 y then Fp.qnan else if lt64 x y then y else x
def dMin (x y : Nat) : Nat :=
  if !finite64 x || !finite64 y then Fp.qnan else if lt64 y x then y else x

/-- The ∞-norm of a vector. -/
def normInf (l : List Nat) : Nat := l.foldl (fun a x => dMax a (Fp.abs x)) 0

/-- 2^e. -/
def pow64 (e : Int) : Nat := (1023 + e).toNat * 2 ^ 52

/-! ## The engine's orders (R208) -/

/-- Where in a job a choice is made: the job's data, and the place as numbers. -/
structure Eng where
  data : List Byte
  site : List Nat := []

def Eng.at (e : Eng) (i : Nat) : Eng := { e with site := i :: e.site }
/-- The engine's choice at a place: a function of the job's data alone. -/
def Eng.pick (e : Eng) : Nat := Config.drfVal e.data e.site
/-- An FP64 value that the spec does not state. -/
def Eng.val (e : Eng) : Nat := e.pick % 2 ^ 64

/-- A term of a sum is a product of two values; a single value has the factor 1. -/
def dTerm (x : Nat) : Nat × Nat := (x, one64)
def termVal (t : Nat × Nat) : Nat := if t.2 = one64 then t.1 else dMul t.1 t.2

/-- Two terms are added on a fused multiply-add lane: one product is rounded first, or both are. -/
def Eng.join (e : Eng) (a b : Nat × Nat) : Nat × Nat :=
  dTerm (if e.pick % 2 = 0 then dFma a.1 a.2 (termVal b) else dAdd (termVal a) (termVal b))

/-- Two terms of the engine's choice are added until one is left. -/
def Eng.reduce : Nat → Eng → List (Nat × Nat) → Nat
  | 0, _, l => (l.head?.map termVal).getD 0
  | f + 1, e, l =>
    if l.length ≤ 1 then (l.head?.map termVal).getD 0
    else
      let i := (e.at 0).pick % l.length
      let m := l.eraseIdx i
      let j := (e.at 1).pick % m.length
      Eng.reduce f (e.at 3) ((e.at 2).join (l.getD i (0, 0)) (m.getD j (0, 0)) :: m.eraseIdx j)

/-- The sum of products, and of values. -/
def Eng.dot (e : Eng) (l : List (Nat × Nat)) : Nat := Eng.reduce l.length e l
def Eng.sum (e : Eng) (l : List Nat) : Nat := e.dot (l.map dTerm)

/-- A list in an order of the engine's choice. -/
def Eng.order (e : Eng) (l : List Nat) : List Nat :=
  ((l.map fun x => ((e.at x).pick, x)).mergeSort fun a b => a.1 < b.1 || (a.1 == b.1 && a.2 ≤ b.2)).map (·.2)

/-! ## Matrices (R209, R210) -/

/-- A vector by its index, and a sparse matrix by row and column: 0 where no entry stands. -/
abbrev Vec := AMap Nat
def Vec.at (v : Vec) (i : Nat) : Nat := AMap.get 0 v i

/-- A sparse square matrix: its indices, its entries by row × 2^20 + column, and whether it is symmetric (all of its
entries are listed). -/
structure SMat where
  ids : List Nat
  ent : AMap Nat
  sym : Bool

def SMat.find (m : SMat) (i j : Nat) : Option Nat := AMap.find m.ent (i * 2 ^ 20 + j)

/-- A matrix of entries (row, column, value); `mirror` lists a symmetric matrix's other half. -/
def SMat.of (ids : List Nat) (sym : Bool) (l : List (Nat × Nat × Nat)) : SMat :=
  ⟨ids, l.foldl (fun m x =>
    let m := AMap.ins m (x.1 * 2 ^ 20 + x.2.1) x.2.2
    if sym then AMap.ins m (x.2.1 * 2 ^ 20 + x.1) x.2.2 else m) [], sym⟩

/-- The entries of a row and of a column, as (index, value). -/
def SMat.row (m : SMat) (i : Nat) : List (Nat × Nat) := m.ids.filterMap fun j => (m.find i j).map fun v => (j, v)
def SMat.col (m : SMat) (j : Nat) : List (Nat × Nat) := m.ids.filterMap fun i => (m.find i j).map fun v => (i, v)

/-- The product with a vector, and the ∞-norm. -/
def SMat.mulVec (m : SMat) (e : Eng) (x : Vec) : Vec :=
  m.ids.map fun i => (i, (e.at i).dot ((m.row i).map fun p => (p.2, x.at p.1)))
def SMat.norm (m : SMat) (e : Eng) : Nat := normInf (m.ids.map fun i => (e.at i).sum ((m.row i).map fun p => Fp.abs p.2))

/-- A step of the elimination: the index eliminated, its pivot, its column of L and its row of U. For a symmetric matrix
the row of U is the column of L times the pivot. -/
structure FacCol where
  j   : Nat
  d   : Nat
  low : AMap Nat
  up  : AMap Nat

/-- A factorisation: its steps, the pivots replaced, the first pivot of the variable block below −τ × c_j (R222). -/
structure Fac where
  cols : List FacCol := []
  pert : Nat := 0
  neg  : Option Nat := none

/-- A pivot under R209: `neg` gives an exact zero the sign −1. The pivot to use, and whether it is a replacement. -/
def staticPivot (tau cj d : Nat) (neg : Bool) : Nat × Bool :=
  let minus := if zero64 d then neg else 2 ^ 63 ≤ d
  let sg : Nat → Nat := fun x => if minus then Fp.neg x else x
  if zero64 cj then (sg one64, true)
  else if lt64 (Fp.abs d) (dMul tau cj) then (sg (dMul tau cj), true)
  else (d, false)

/-- The terms of an entry after the steps so far: a_ij less the products of L(i) and U(j). -/
def Fac.terms (f : Fac) (a : Option Nat) (l u : FacCol → Option Nat) : List (Nat × Nat) :=
  (a.map dTerm).toList ++ f.cols.filterMap fun c =>
    match l c, u c with | some x, some y => some (Fp.neg x, y) | _, _ => none

/-- One step of the elimination of `m` at index `j`, `rest` being the indices after it. `vars`: indices below it belong to
a quadratic programme's variable block. -/
def Fac.step (f : Fac) (e : Eng) (m : SMat) (tau : Nat) (vars : Option Nat) (j : Nat) (rest : List Nat) : Fac :=
  let low : Nat → FacCol → Option Nat := fun i c => AMap.find c.low i
  let up : Nat → FacCol → Option Nat := fun i c => AMap.find c.up i
  let cj := normInf ((m.col j).map (·.2))
  let d := (e.at j).dot (f.terms (m.find j j) (low j) (up j))
  let con := match vars with | some n => decide (n ≤ j) | none => false
  let p := staticPivot tau cj d con
  let at_ : Eng → Nat → List (Nat × Nat) → Option Nat := fun e i l => if l.isEmpty then none else some ((e.at i).dot l)
  let ups := rest.filterMap fun i => (at_ (e.at 1) i (f.terms (m.find j i) (low j) (up i))).map fun v => (i, v)
  let nums := if m.sym then ups
    else rest.filterMap fun i => (at_ (e.at 2) i (f.terms (m.find i j) (low i) (up j))).map fun v => (i, v)
  { cols := f.cols ++ [⟨j, p.1, nums.map fun x => (x.1, dDiv x.2 p.1), ups⟩]
    pert := f.pert + bit p.2
    neg := if f.neg.isNone && vars.isSome && !con && lt64 d (Fp.neg (dMul tau cj)) then some j else f.neg }

def Fac.run (e : Eng) (m : SMat) (tau : Nat) (vars : Option Nat) : List Nat → Fac → Fac
  | [], f => f
  | j :: rest, f => Fac.run e m tau vars rest (f.step (e.at j) m tau vars j rest)

/-- The factorisation: in the engine's fill-reducing order, computed once per job (R209). -/
def factorise (job e : Eng) (m : SMat) (tau : Nat) (vars : Option Nat) : Fac :=
  Fac.run e m tau vars (job.order m.ids) {}

/-- Solve with the factors: forward, then backward. -/
def Fac.solve (f : Fac) (e : Eng) (sym : Bool) (b : Vec) : Vec :=
  let y := f.cols.foldl (fun (y : Vec) c =>
    AMap.ins y c.j ((e.at c.j).dot (dTerm (b.at c.j) :: f.cols.filterMap fun k =>
      match AMap.find k.low c.j, AMap.find y k.j with | some l, some v => some (Fp.neg l, v) | _, _ => none))) []
  f.cols.reverse.foldl (fun (x : Vec) c =>
    let off : List (Nat × Nat) := (if sym then c.low else c.up).filterMap fun p =>
      (AMap.find x p.1).map fun v => (Fp.neg p.2, v)
    AMap.ins x c.j (if sym then ((e.at 1).at c.j).dot (dTerm (dDiv (y.at c.j) c.d) :: off)
      else dDiv (((e.at 1).at c.j).dot (dTerm (y.at c.j) :: off)) c.d)) []

/-- r = b − Kx, and the backward error β (R210). -/
def residual (e : Eng) (m : SMat) (b x : Vec) : Vec :=
  m.ids.map fun i => (i, (e.at i).dot (dTerm (b.at i) :: (m.row i).map fun p => (Fp.neg p.2, x.at p.1)))
def vals (v : Vec) : List Nat := v.map (·.2)
def backError (e : Eng) (m : SMat) (b x : Vec) : Nat :=
  dDiv (normInf (vals (residual (e.at 0) m b x)))
    (dAdd (dMul (m.norm (e.at 1)) (normInf (vals x))) (normInf (vals b)))

/-- One step of refinement: r with the unperturbed matrix, a solution with the perturbed factors, x updated. -/
def refineStep (e : Eng) (m : SMat) (f : Fac) (b x : Vec) : Vec :=
  let dx := f.solve (e.at 1) m.sym (residual (e.at 0) m b x)
  m.ids.map fun i => (i, dAdd (x.at i) (dx.at i))

/-- 2⁻⁵⁰ and 2⁻⁴⁰. -/
def fpM50 : Nat := 0x3CD0000000000000
def fpM40 : Nat := 0x3D70000000000000

/-- Up to three steps of refinement from x, whose backward error is β: the solution, and whether the solve has failed. -/
def refine (e : Eng) (m : SMat) (f : Fac) (b : Vec) (tol : Nat) : Nat → Vec → Nat → Vec × Bool
  | 0, x, beta => (x, lt64 tol beta)
  | n + 1, x, beta =>
    if le64 beta fpM50 then (x, false)
    else
      let x' := refineStep (e.at n) m f b x
      let beta' := backError ((e.at n).at 1) m b x'
      if !finite64 beta' then (x'.map fun p => (p.1, Fp.qnan), true)
      else if lt64 beta' beta then refine e m f b tol n x' beta'
      else (x, true)

/-- A linear solve of a NETWORK or QP iteration (R210): refined where a pivot was perturbed, to 2⁻⁴⁰. -/
def Fac.solveRefined (f : Fac) (e : Eng) (m : SMat) (b : Vec) : Vec × Bool :=
  let x := f.solve (e.at 0) m.sym b
  if f.pert = 0 then (x, false)
  else
    let beta := backError (e.at 1) m b x
    if !finite64 beta then (x.map fun p => (p.1, Fp.qnan), true) else refine (e.at 2) m f b fpM40 3 x beta

/-- τ = 2^−PIVOT_EXP; 0 gives 40 (R209). -/
def tau64 (pe : Nat) : Nat := pow64 (-(if pe = 0 then 40 else pe : Nat))

end Sys2Proof.Machine
end

