-- ==== Sys2Proof/Machine/DraftData.lean ====
section
/-! DEFINITION. Drafting's descriptors and input data, and the checks a job makes at its start (R200, R212 to R216, R219,
R220, R223, R224). Readings and choices: DESIGN CHOICE log 33. -/

namespace Sys2Proof.Machine

/-- Little-endian field of a list of bytes. -/
def fld (l : List Byte) (o n : Nat) : Nat := leNat ((l.drop o).take n)

def tNETWORK : Nat := 1
def tQP : Nat := 2
def tLINEAR : Nat := 3

/-- Reserved fields of a descriptor (R212, R214, R220, R224). -/
def drfReservedOk (d : List Byte) : Bool :=
  let t := fld d 0 1
  fld d 1 1 < 2 && fld d 15 1 == 0 && fld d 26 2 == 0 && fld d 56 8 == 0 &&
    (if t = tNETWORK then fld d 126 2 == 0
     else if t = tQP then fld d 120 8 == 0
     else fld d 70 2 == 0 && (d.drop 96).all (· == 0))

/-- MAX_ITER in force, and the progress TOTAL (R212, R227). -/
def drfMaxIter (d : List Byte) : Nat :=
  let t := fld d 0 1
  let m := fld d 12 2
  if t = tLINEAR then 4 else if m = 0 then (if t = tNETWORK then 50 else 100) else m

/-! ## Sparse matrices (R213) -/

/-- Whether an input array is 8-byte aligned and wholly in shared SRAM or DDR. -/
def State.arrayOk (s : State) (a n : Nat) : Bool := a % 8 == 0 && (n == 0 || s.inRam a n)

/-- A matrix as its header gives it. -/
structure Mat where
  rows : Nat
  cols : Nat
  nnz  : Nat
  colp : Nat
  rowi : Nat
  vals : Nat

def State.matAt (s : State) (a : Nat) : Mat :=
  ⟨s.rle a 4, s.rle (a + 4) 4, s.rle (a + 8) 4, s.rle (a + 16) 8, s.rle (a + 24) 8, s.rle (a + 32) 8⟩

/-- Whether a matrix's header and arrays can be read. -/
def State.matHeaderOk (s : State) (a rows cols : Nat) : Bool :=
  let m := s.matAt a
  s.arrayOk a 48 && s.rle (a + 12) 4 == 0 && s.rle (a + 40) 8 == 0 && m.rows == rows && m.cols == cols &&
    s.arrayOk m.colp (4 * (cols + 1)) && s.arrayOk m.rowi (4 * m.nnz) && s.arrayOk m.vals (8 * m.nnz)

/-- The first entry of a matrix that offends, by index: its column's bounds, its row, its value. -/
def State.matBad (s : State) (a : Nat) (sym : Bool) : Option Nat :=
  let m := s.matAt a
  let cp : Nat → Nat := fun j => s.rle (m.colp + 4 * j) 4
  let row : Nat → Nat := fun i => s.rle (m.rowi + 4 * i) 4
  if cp 0 ≠ 0 ∨ cp m.cols ≠ m.nnz then some 0
  else
    (List.range m.cols).findSome? fun j =>
      if cp (j + 1) < cp j ∨ m.nnz < cp (j + 1) then some j
      else (rangeFrom (cp j) (cp (j + 1))).find? fun i =>
        m.rows ≤ row i || (sym && j < row i) || (cp j < i && row i ≤ row (i - 1)) ||
          !finite64 (s.rle (m.vals + 8 * i) 8)

/-- The bytes of a matrix: header and arrays. -/
def State.matBytes (s : State) (a : Nat) : List Byte :=
  let m := s.matAt a
  s.rbs a 48 ++ s.rbs m.colp (4 * (m.cols + 1)) ++ s.rbs m.rowi (4 * m.nnz) ++ s.rbs m.vals (8 * m.nnz)

/-! ## NETWORK data (R214, R215) -/

structure Branch where
  type : Nat
  flags : Nat
  curve : Nat
  from_ : Nat
  to_ : Nat
  p1 : Nat
  p2 : Nat
  p3 : Nat
  p4 : Nat
  ua : Nat
  tset : Nat

/-- 1.2 as the engine compares it: the binary64 nearest to it. -/
def fp1_2 : Nat := 0x3FF3333333333333

/-- The parameter ranges of a branch's TYPE (R215). -/
def Branch.paramsOk (b : Branch) (curves : Nat) : Bool :=
  let pipe := le64 0 b.p1 && le64 0 b.p2 && !(zero64 b.p1 && zero64 b.p2)
  if b.type = 1 then
    lt64 0 b.p1 && le64 b.p2 0 && le64 0 b.p3 && (lt64 b.p2 0 || lt64 0 b.p3) && le64 0 b.p4 && le64 b.p4 fp1_2
  else if b.type = 2 then lt64 0 b.p1 && le64 0 b.p2 && le64 b.p2 one64 && b.curve < curves
  else pipe

def Branch.ok (b : Branch) (nodes curves : Nat) : Bool :=
  b.type ≤ 4 && b.flags < 4 && b.from_ < nodes && b.to_ < nodes && finite64 b.p1 && finite64 b.p2 && finite64 b.p3 &&
    finite64 b.p4 && finite64 b.ua && finite64 b.tset && b.paramsOk curves

/-- A NETWORK job: its limits, its node, branch and curve records as read at its start, one after another, and G_MAX,
G_LEAK and CP as FP64 (R214: 0 gives 10⁶ and 10⁻⁶). -/
structure Net where
  nodes : Nat
  brs   : Nat
  curves : Nat
  img   : List Byte
  gmax  : Nat
  gleak : Nat
  cp    : Nat

def netNodes (d : List Byte) : Nat := fld d 64 4
def netBrs (d : List Byte) : Nat := fld d 68 4
def netCurves (d : List Byte) : Nat := fld d 124 2

def netOf (d img : List Byte) : Net :=
  let wide : Nat → Rat → Nat := fun x r => if x % 2 ^ 31 = 0 then Fp.ofRat r else (Fp.widen x).1
  ⟨netNodes d, netBrs d, netCurves d, img, wide (fld d 116 4) 1000000, wide (fld d 120 4) (1 / 1000000),
    (Fp.widen (fld d 112 4)).1⟩

/-- A field of `k` bytes of a node, of a branch, of a curve. -/
def Net.node (n : Net) (i o k : Nat) : Nat := fld n.img (32 * i + o) k
def Net.br (n : Net) (b o k : Nat) : Nat := fld n.img (32 * n.nodes + 64 * b + o) k
def Net.cur (n : Net) (c i : Nat) : Nat := fld n.img (32 * n.nodes + 64 * n.brs + 256 * c + 8 * i) 8

def Net.branch (n : Net) (b : Nat) : Branch :=
  let f := n.br b
  ⟨f 0 1, f 1 1, f 2 2, f 4 2, f 6 2, f 8 8, f 16 8, f 24 8, f 32 8, f 40 8, f 48 8⟩
def Net.fixed (n : Net) (i : Nat) : Bool := n.node i 0 1 == 1
def Net.value (n : Net) (i : Nat) : Nat := n.node i 8 8
def Net.tIn (n : Net) (i : Nat) : Nat := n.node i 16 8

/-- A curve's 16 pairs: positions rise strictly from 0 to 1, values lie from 0 to 1. -/
def Net.curveOk (n : Net) (c : Nat) : Bool :=
  let x : Nat → Nat := fun i => n.cur c (2 * i)
  let y : Nat → Nat := fun i => n.cur c (2 * i + 1)
  zero64 (x 0) && x 15 == one64 && (List.range 15).all (fun i => lt64 (x i) (x (i + 1))) &&
    (List.range 16).all fun i => finite64 (y i) && le64 0 (y i) && le64 (y i) one64

/-- Relative Kv at a position, interpolated linearly between the points (R214). -/
def Net.relKv (n : Net) (c pos : Nat) : Rat :=
  let x : Nat → Rat := fun i => Fp.toRat (n.cur c (2 * i))
  let y : Nat → Rat := fun i => Fp.toRat (n.cur c (2 * i + 1))
  let p := Fp.toRat pos
  let i := ((List.range 15).find? fun i => p ≤ x (i + 1)).getD 14
  y i + (y (i + 1) - y i) * (p - x i) / (x (i + 1) - x i)

/-- A valve's Kv = Kv_s × curve(x) (R215). -/
def Net.kv (n : Net) (b : Branch) : Nat := dMul b.p1 (Fp.ofRat (n.relKv b.curve b.p2))

/-- Whether a branch is closed (R215). -/
def Net.closed (n : Net) (b : Nat) : Bool :=
  let x := n.branch b
  !x.flags.testBit 0 || (x.type == 1 && zero64 x.p4) || (x.type == 2 && zero64 (n.kv x))

/-- The lowest node that open branches link each node to: `f` passes over the branches. -/
def Net.linked (n : Net) : Nat → AMap Nat → AMap Nat
  | 0, m => m
  | f + 1, m =>
    n.linked f ((List.range n.brs).foldl (fun m b =>
      if n.closed b then m
      else
        let x := n.branch b
        let a := (AMap.find m x.from_).getD x.from_
        let c := (AMap.find m x.to_).getD x.to_
        AMap.ins (AMap.ins m x.from_ (min a c)) x.to_ (min a c)) m)

/-- The components, as each node's lowest node. -/
def Net.comps (n : Net) : AMap Nat := n.linked n.nodes []
def compOf (m : AMap Nat) (i : Nat) : Nat := (AMap.find m i).getD i

/-- Exact sum of the demands of a component, as a multiple of 2^−1074. -/
def Net.demandSum (n : Net) (m : AMap Nat) (c : Nat) : Int :=
  ((List.range n.nodes).map fun i =>
    if compOf m i = c then
      match Fp.b64.unpack (n.value i) with
      | .fin sg k e => Fp.signed sg k * 2 ^ (e + 1074).toNat
      | _ => 0
    else 0).sum

/-- The components with no fixed-head node, and those of them whose demands do not sum to 0 (R216). -/
def Net.floating (n : Net) (m : AMap Nat) : List Nat :=
  (List.range n.nodes).filter fun c => compOf m c == c &&
    !((List.range n.nodes).any fun i => compOf m i == c && n.fixed i)
def Net.starved (n : Net) (m : AMap Nat) : List Nat := (n.floating m).filter fun c => n.demandSum m c != 0

/-- The nodes that are isolated: those of floating components whose demands sum to 0 (R216). -/
def Net.isolated (n : Net) : List Nat :=
  let m := n.comps
  let fl := (n.floating m).filter fun c => n.demandSum m c == 0
  (List.range n.nodes).filter fun i => fl.contains (compOf m i)

/-- Bytes of a buffer of each type (R219, R223, R224). -/
def pad8 (n : Nat) : Nat := ceilDiv n 8 * 8
def drfBufBytes (d : List Byte) : Nat :=
  let t := fld d 0 1
  if t = tNETWORK then
    let n := netNodes d
    let b := netBrs d
    8 * (2 * n + 2 * b) + pad8 n + pad8 b + 8 * n
  else if t = tQP then
    let n := fld d 64 4
    let m := fld d 68 4
    8 * (n + m + n + m + (m + n))
  else 8 * (fld d 64 4 * fld d 68 1)

/-! ## The check at the start (R213) -/

/-- DETAIL of an offending item: its kind and its index or value. -/
def detailWord (kind v : Nat) : Nat := kind * 2 ^ 28 + v % 2 ^ 28

/-- The first offence of a list of tests. -/
def firstBad (l : List (Bool × Nat)) : Option Nat := (l.find? (·.1)).map (·.2)

/-- Common fields: the kind 0 value is the field's byte offset. -/
def State.drfCommonBad (s : State) (d : List Byte) : Option Nat :=
  let bu := fld d 8 4
  let pe := fld d 14 1
  let size := drfBufBytes d
  let b0 := fld d 40 8
  let b1 := fld d 48 8
  firstBad [
    (bu == 0 || 4000000 < bu, detailWord 0 8),
    (fld d 0 1 != tLINEAR && 1000 < fld d 12 2, detailWord 0 12),
    (pe != 0 && (pe < 20 || 52 < pe), detailWord 0 14),
    (fld d 28 4 < size, detailWord 8 (fld d 28 4)),
    (b0 % 64 != 0 || !s.inRam b0 (fld d 28 4), detailWord 0 40),
    (b1 % 64 != 0 || !s.inRam b1 (fld d 28 4) || (b0 < b1 + fld d 28 4 && b1 < b0 + fld d 28 4), detailWord 0 48)]

/-- The bytes of a network's records, from its arrays (R214). -/
def State.netImage (s : State) (d : List Byte) : List Byte :=
  s.rbs (fld d 72 8) (32 * netNodes d) ++ s.rbs (fld d 80 8) (64 * netBrs d) ++ s.rbs (fld d 88 8) (256 * netCurves d)

def State.netBad (s : State) (d : List Byte) : Option Nat :=
  let nodes := netNodes d
  let brs := netBrs d
  let curves := netCurves d
  let heads := firstBad [
    (nodes == 0 || 16384 < nodes, detailWord 8 nodes),
    (brs == 0 || 32768 < brs, detailWord 8 brs),
    (256 < curves, detailWord 8 curves),
    (!s.arrayOk (fld d 72 8) (32 * nodes), detailWord 0 72),
    (!s.arrayOk (fld d 80 8) (64 * brs), detailWord 0 80),
    (if curves = 0 then fld d 88 8 != 0 else !s.arrayOk (fld d 88 8) (256 * curves), detailWord 0 88),
    (!pos64 (fld d 96 8), detailWord 0 96),
    (!pos64 (fld d 104 8), detailWord 0 104),
    (!finite32 (fld d 112 4) || fld d 112 4 % 2 ^ 31 == 0 || 2 ^ 31 ≤ fld d 112 4, detailWord 0 112),
    (!finite32 (fld d 116 4) || 2 ^ 31 < fld d 116 4, detailWord 0 116),
    (!finite32 (fld d 120 4) || 2 ^ 31 < fld d 120 4, detailWord 0 120)]
  match heads with
  | some x => some x
  | none =>
    let n := netOf d (s.netImage d)
    let nodeBad : Nat → Bool := fun i =>
      1 < n.node i 0 1 || n.node i 1 7 != 0 || n.node i 24 8 != 0 || !finite64 (n.value i) || !finite64 (n.tIn i)
    let brBad : Nat → Bool := fun b => n.br b 56 8 != 0 || !(n.branch b).ok nodes curves
    match (List.range nodes).find? nodeBad, (List.range brs).find? brBad, (List.range curves).find? fun c => !n.curveOk c with
    | some i, _, _ => some (detailWord 1 i)
    | none, some b, _ => some (detailWord 2 b)
    | none, none, some c => some (detailWord 3 c)
    | none, none, none => if (List.range nodes).any n.fixed then none else some (detailWord 8 0)

/-- |bound| ≤ 10³⁰, as the nearest binary64. -/
def fp1e30 : Nat := 0x46293E5939A08CEA

def State.qpBad (s : State) (d : List Byte) : Option Nat :=
  let n := fld d 64 4
  let m := fld d 68 4
  let h := fld d 72 8
  let a := fld d 80 8
  let v := fld d 88 8
  let nnzA := if m = 0 then 0 else s.rle (a + 8) 4
  let heads := firstBad [
    (n == 0 || 8192 < n, detailWord 8 n), (16384 < m, detailWord 8 m),
    (!s.matHeaderOk h n n, detailWord 4 0), (m != 0 && !s.matHeaderOk a m n, detailWord 5 0),
    (393216 < s.rle (h + 8) 4 + nnzA, detailWord 8 (s.rle (h + 8) 4 + nnzA)),
    (!s.arrayOk v (8 * (3 * n + 2 * m)), detailWord 0 88),
    (!finite64 (fld d 96 8), detailWord 0 96), (!finite64 (fld d 104 8), detailWord 0 104),
    (!finite64 (fld d 112 8), detailWord 0 112)]
  match heads with
  | some x => some x
  | none =>
    let vecBad : Nat → Bool := fun i =>
      let x := s.rle (v + 8 * i) 8
      !finite64 x || (n ≤ i && !le64 (x % 2 ^ 63) fp1e30)
    match s.matBad h true, (if m = 0 then none else s.matBad a false), (List.range (3 * n + 2 * m)).find? vecBad with
    | some i, _, _ => some (detailWord 4 i)
    | none, some i, _ => some (detailWord 5 i)
    | none, none, some i => some (detailWord 6 i)
    | none, none, none => none

def State.linBad (s : State) (d : List Byte) : Option Nat :=
  let n := fld d 64 4
  let r := fld d 68 1
  let a := fld d 72 8
  let b := fld d 80 8
  let heads := firstBad [
    (n == 0 || 65536 < n, detailWord 8 n), (r == 0 || 8 < r, detailWord 8 r), (131072 < n * r, detailWord 8 (n * r)),
    (1 < fld d 69 1, detailWord 0 69), (!s.matHeaderOk a n n, detailWord 7 0),
    (393216 < s.rle (a + 8) 4, detailWord 8 (s.rle (a + 8) 4)), (!s.arrayOk b (8 * (n * r)), detailWord 0 80),
    (!finite64 (fld d 88 8), detailWord 0 88)]
  match heads with
  | some x => some x
  | none =>
    match s.matBad a (fld d 69 1 == 1), (List.range (n * r)).find? fun i => !finite64 (s.rle (b + 8 * i) 8) with
    | some i, _ => some (detailWord 7 i)
    | none, some i => some (detailWord 6 i)
    | none, none => none

/-- The first offending item of a job's fields and input data, as DETAIL. -/
def State.drfBad (s : State) (d : List Byte) : Option Nat :=
  let t := fld d 0 1
  let own := if t = tNETWORK then s.netBad d else if t = tQP then s.qpBad d else s.linBad d
  match s.drfCommonBad d with
  | some x => some x
  | none => own

/-- The input data of a job, read at its start. -/
def State.drfInput (s : State) (d : List Byte) : List Byte :=
  let t := fld d 0 1
  if t = tNETWORK then s.netImage d
  else if t = tQP then
    let m := fld d 68 4
    s.matBytes (fld d 72 8) ++ (if m = 0 then [] else s.matBytes (fld d 80 8)) ++
      s.rbs (fld d 88 8) (8 * (3 * fld d 64 4 + 2 * m))
  else s.matBytes (fld d 72 8) ++ s.rbs (fld d 80 8) (8 * (fld d 64 4 * fld d 68 1))

/-- The entries (row, column, value) of the matrix at the front of captured data, and the data after it. -/
def matEntries (l : List Byte) : List (Nat × Nat × Nat) × List Byte :=
  let cols := fld l 4 4
  let nnz := fld l 8 4
  let row := 48 + 4 * (cols + 1)
  let val := row + 4 * nnz
  ((List.range cols).flatMap fun j => (rangeFrom (fld l (48 + 4 * j) 4) (fld l (52 + 4 * j) 4)).map fun i =>
      (fld l (row + 4 * i) 4, j, fld l (val + 8 * i) 8),
    l.drop (val + 8 * nnz))

/-- The first bound of a QP whose lower value lies above its upper (R220), in the index order of R222. -/
def State.qpCrossed (s : State) (d : List Byte) : Option Nat :=
  let n := fld d 64 4
  let m := fld d 68 4
  let v := fld d 88 8
  let x : Nat → Nat := fun i => s.rle (v + 8 * i) 8
  match (List.range m).find? fun i => lt64 (x (3 * n + m + i)) (x (3 * n + i)) with
  | some i => some i
  | none => ((List.range n).find? fun i => lt64 (x (2 * n + i)) (x (n + i))).map (· + m)

end Sys2Proof.Machine
end

