-- ==== Sys2Proof/Machine/DraftNet.lean ====
section
/-! DEFINITION. NETWORK jobs (R215 to R219): branch laws, mass balance, Newton's iteration, the thermal pass, the buffer.
Where a rule writes operations each is rounded; where it names a value (a root, a derivative, an exponential) that real
value is rounded once. Readings and choices: DESIGN CHOICE log 33; DEDUCED log 54. -/

namespace Sys2Proof.Machine

/-! ## The laws (R215) -/

/-- The flow of a branch, its conductance g = dq/dΔ held to G_MAX, and whether it was held. -/
structure Law where
  q : Nat
  g : Nat
  held : Bool

/-- The root q ≥ 0 of r2·q² + r1·q = x, for x ≥ 0. -/
def quadRoot (r2 r1 x : Nat) : Nat :=
  let f : Rat → Rat := fun q => Fp.toRat r2 * q * q + Fp.toRat r1 * q
  Fp.nearest (fun q => f q < Fp.toRat x) (fun q => f q ≤ Fp.toRat x)

/-- 1 / den held to G_MAX; a derivative without bound is G_MAX. -/
def Net.clampG (n : Net) (den : Rat) : Nat × Bool :=
  if den = 0 ∨ Fp.toRat n.gmax < 1 / den then (n.gmax, true) else (Fp.ofRat (1 / den), false)

/-- −x where `m`. -/
def negIf (m : Bool) (x : Nat) : Nat := if m then Fp.neg x else x

/-- Root of R2·q|q| + R1·q = Δ. -/
def Net.pipeLaw (n : Net) (r2 r1 dl : Nat) : Law :=
  let q := quadRoot r2 r1 (Fp.abs dl)
  let g := n.clampG (2 * Fp.toRat r2 * Fp.toRat q + Fp.toRat r1)
  ⟨negIf (2 ^ 63 ≤ dl) q, g.1, g.2⟩

/-- A pump: on its curve where H0 + Δ ≥ 0, else its back-leak. -/
def Net.pumpLaw (n : Net) (b : Branch) (dl : Nat) : Law :=
  let x := dAdd (dMul b.p1 (dMul b.p4 b.p4)) dl
  if !finite64 x then ⟨Fp.qnan, Fp.qnan, false⟩
  else if le64 0 x then
    let r1 := Fp.neg (dMul b.p2 b.p4)
    let q := quadRoot b.p3 r1 x
    let g := n.clampG (2 * Fp.toRat b.p3 * Fp.toRat q + Fp.toRat r1)
    ⟨q, g.1, g.2⟩
  else ⟨dMul n.gleak x, if lt64 n.gmax n.gleak then n.gmax else n.gleak, lt64 n.gmax n.gleak⟩

/-- A valve: Kv·sign(Δ)·√|Δ|. -/
def Net.valveLaw (n : Net) (b : Branch) (dl : Nat) : Law :=
  let kv := n.kv b
  let a := Fp.abs dl
  let gm := Fp.toRat n.gmax
  let k := Fp.toRat kv
  let x := Fp.toRat a
  let f : Rat → Rat := fun g => 4 * g * g * x
  if x = 0 ∨ f gm < k * k then ⟨negIf (2 ^ 63 ≤ dl) (dMul kv (dSqrt a)), n.gmax, true⟩
  else ⟨negIf (2 ^ 63 ≤ dl) (dMul kv (dSqrt a)), Fp.nearest (fun g => f g < k * k) (fun g => f g ≤ k * k), false⟩

def Net.law (n : Net) (b : Branch) (dl : Nat) : Law :=
  if !finite64 dl then ⟨Fp.qnan, Fp.qnan, false⟩
  else if b.type = 1 then n.pumpLaw b dl
  else if b.type = 2 then n.valveLaw b dl
  else n.pipeLaw b.p1 b.p2 dl

/-! ## Heads, flows and balances (R216, R217) -/

/-- A branch that carries water: open, and not of an isolated component. -/
def Net.carries (n : Net) (iso : List Nat) (b : Nat) : Bool := !n.closed b && !iso.contains (n.branch b).from_

/-- The free nodes: junctions that are not isolated. -/
def Net.free (n : Net) (iso : List Nat) : List Nat :=
  (List.range n.nodes).filter fun i => !n.fixed i && !iso.contains i

/-- Σ q over branches into a node and out of it, as the terms of a sum. -/
def Net.flowTerms (n : Net) (iso : List Nat) (q : Nat → Nat) (i : Nat) : List Nat :=
  (List.range n.brs).flatMap fun b =>
    if n.carries iso b then
      let x := n.branch b
      (if x.to_ = i then [q b] else []) ++ (if x.from_ = i then [Fp.neg (q b)] else [])
    else []

/-- The point of an iterate: heads of all nodes, and what the laws give for every branch; F at the free nodes. -/
structure NetPt where
  h : List Nat
  q : List Nat
  g : List Nat
  held : List Nat
  f : List Nat

/-- A closed branch carries q = 0; the flow in an isolated component is a value that the spec does not state. -/
def Net.eval (n : Net) (e : Eng) (iso : List Nat) (h : List Nat) : NetPt :=
  let laws := (List.range n.brs).map fun b =>
    if n.closed b then ⟨0, 0, false⟩
    else if !n.carries iso b then ⟨((e.at 1).at b).val, 0, false⟩
    else
      let x := n.branch b
      n.law x (dSub (h.getD x.from_ 0) (h.getD x.to_ 0))
  let q := laws.map (·.q)
  let f := (n.free iso).map fun i =>
    ((e.at 0).at i).sum (Fp.neg (n.value i) :: n.flowTerms iso (fun b => q.getD b 0) i)
  ⟨h, q, laws.map (·.g), laws.map fun l => bit l.held, f⟩

/-- The cold start: at every free node the mean head of the fixed nodes (R217). -/
def Net.cold (n : Net) (e : Eng) : List Nat :=
  let fx := (List.range n.nodes).filter n.fixed
  let mean := dDiv ((e.at 0).sum (fx.map n.value)) (Fp.ofInt fx.length).1
  (List.range n.nodes).map fun i => if n.fixed i then n.value i else mean

/-- L = Σ g_b a_b a_bᵀ over the open branches on the free nodes. -/
def Net.matrix (n : Net) (e : Eng) (iso : List Nat) (g : List Nat) : SMat :=
  let ids := n.free iso
  let brs := (List.range n.brs).filter fun b => n.carries iso b && (n.branch b).from_ != (n.branch b).to_
  let ent := ids.flatMap fun i => ids.filterMap fun j =>
    let l := brs.filter fun b =>
      let x := n.branch b
      if i = j then x.from_ == i || x.to_ == i else (x.from_ == i && x.to_ == j) || (x.from_ == j && x.to_ == i)
    if l.isEmpty then none
    else
      let s := l.map fun b => negIf (i != j) (g.getD b 0)
      some (i, j, ((e.at (min i j)).at (max i j)).sum s)
  { SMat.of ids false ent with sym := true }

/-- OBJECTIVE: Σ q × 9.80665 × (h_TO − h_FROM) over the running pumps (R219). -/
def Net.power (n : Net) (e : Eng) (iso : List Nat) (p : NetPt) : Nat :=
  e.sum (((List.range n.brs).filter fun b => (n.branch b).type == 1 && n.carries iso b).map fun b =>
    let x := n.branch b
    dMul (dMul (p.q.getD b 0) (Fp.ofRat (980665 / 100000))) (dSub (p.h.getD x.to_ 0) (p.h.getD x.from_ 0)))

/-- Iteration k from a point: the pivots replaced, whether its solve is marked, the step s, and the trials (R217). -/
structure NetStep where
  pert : Nat
  mark : Bool
  s    : Vec
  trial : Nat → NetPt

def Net.step (n : Net) (job e : Eng) (tau : Nat) (p : NetPt) : NetStep :=
  let iso := n.isolated
  let m := n.matrix (e.at 0) iso p.g
  let f := factorise job (e.at 1) m tau none
  let b : Vec := (n.free iso).zip p.f
  let x := f.solveRefined (e.at 2) m b
  ⟨f.pert, x.2, x.1, fun j =>
    let alpha := pow64 (-j)
    let h := p.h.zipIdx.map fun y => match AMap.find x.1 y.2 with
      | some s => dAdd y.1 (dMul alpha s)
      | none => y.1
    n.eval ((e.at 3).at j) iso h⟩

/-! ## The thermal pass (R218) -/

/-- The nodes that a branch's water leaves and reaches; none where no water flows. -/
def Net.ends (n : Net) (q : List Nat) (b : Nat) : Option (Nat × Nat) :=
  let x := n.branch b
  let v := q.getD b 0
  if zero64 v then none else if v < 2 ^ 63 then some (x.from_, x.to_) else some (x.to_, x.from_)

/-- The nodes reached from `l` along branches of `es`: `f` steps. -/
def reachBy (es : List (Nat × Nat)) : Nat → List Nat → List Nat
  | 0, l => l
  | f + 1, l => reachBy es f ((es.filter fun x => l.contains x.1 && !l.contains x.2).foldl (fun l x =>
      if l.contains x.2 then l else x.2 :: l) l)

/-- The branches with their ends that are left when each directed cycle is broken at its lowest-numbered branch. -/
def Net.acyclic (n : Net) (es : List (Nat × Nat × Nat)) : List (Nat × Nat) :=
  (es.filter fun x => !(reachBy ((es.filter fun y => x.1 < y.1).map (·.2)) n.nodes [x.2.2]).contains x.2.1).map (·.2)

/-- A topological order: the first node of `l` that no branch from a node still in `l` reaches, again and again. -/
def topo (es : List (Nat × Nat)) : Nat → List Nat → List Nat
  | 0, l => l
  | f + 1, l =>
    match l.find? fun i => !es.any fun x => x.2 == i && x.1 != i && l.contains x.1 with
    | some i => i :: topo es f (l.erase i)
    | none => l

/-- What leaves a branch that water enters at `t` (R215). -/
def Net.outlet (n : Net) (x : Branch) (q t : Nat) : Nat :=
  if x.type = 0 then
    let ex := Fp.neg (dDiv x.ua (dMul (Fp.abs q) n.cp))
    if !finite64 ex then Fp.qnan
    else dAdd x.tset (dMul (dSub t x.tset) (sticky (Fp.expRat (Fp.toRat ex))))
  else if x.type = 3 then
    if x.flags.testBit 1 then dMax t x.tset else dMin t x.tset
  else if x.type = 4 then (if q < 2 ^ 63 then x.p3 else x.p4)
  else t

/-- The temperature of a node from the temperatures so far: the flow-weighted mean of its inflows; the previous value
where it has none. -/
def Net.nodeTemp (n : Net) (e : Eng) (iso q t : List Nat) (i : Nat) : Nat :=
  let ins := (List.range n.brs).filterMap fun b =>
    if n.carries iso b then
      match n.ends q b with
      | some (u, v) => if v = i then
          some (Fp.abs (q.getD b 0), n.outlet (n.branch b) (q.getD b 0) (t.getD u 0)) else none
      | none => none
    else none
  let outside : Nat :=
    if n.fixed i then Fp.neg ((e.at 0).sum (n.flowTerms iso (fun b => q.getD b 0) i)) else Fp.neg (n.value i)
  let ins := if lt64 0 outside || !finite64 outside then ins ++ [(outside, n.tIn i)] else ins
  if ins.isEmpty then t.getD i 0 else dDiv ((e.at 1).dot ins) ((e.at 2).sum (ins.map (·.1)))

/-- One sweep over the nodes in order. -/
def Net.sweep (n : Net) (e : Eng) (iso q : List Nat) (ord t : List Nat) : List Nat :=
  ord.foldl (fun t i => t.set i (n.nodeTemp (e.at i) iso q t i)) t

/-- Sweeps until no temperature changes by more than 0.001 K: the temperatures, and whether they settled. -/
def Net.sweeps (n : Net) (e : Eng) (iso q ord : List Nat) : Nat → List Nat → List Nat × Bool
  | 0, t => (t, false)
  | f + 1, t =>
    let t' := n.sweep (e.at f) iso q ord t
    if (t.zip t').all fun x => le64 (Fp.abs (dSub x.2 x.1)) (Fp.ofRat (1 / 1000)) then (t', true)
    else n.sweeps e iso q ord f t'

/-- Temperatures, branch heats and whether the sweeps settled. -/
structure Thermal where
  t : List Nat
  heat : List Nat
  settled : Bool

def Net.thermal (n : Net) (e : Eng) (iso q : List Nat) : Thermal :=
  let fx := (List.range n.nodes).filter n.fixed
  let start := dDiv ((e.at 0).sum (fx.map n.tIn)) (Fp.ofInt fx.length).1
  let es := (List.range n.brs).filterMap fun b =>
    if n.carries iso b then (n.ends q b).map fun x => (b, x) else none
  let nodes := (List.range n.nodes).filter fun i => !iso.contains i
  let ord := topo (n.acyclic es) n.nodes ((e.at 1).order nodes)
  let r := n.sweeps (e.at 2) iso q ord 64 (List.replicate n.nodes start)
  let heat := (List.range n.brs).map fun b =>
    if n.closed b then 0
    else if !n.carries iso b then ((e.at 3).at b).val
    else match n.ends q b with
      | some (u, _) =>
        let t := r.1.getD u 0
        dMul (dMul (Fp.abs (q.getD b 0)) n.cp) (dSub t (n.outlet (n.branch b) (q.getD b 0) t))
      | none => 0
  ⟨r.1, heat, r.2⟩

/-! ## The buffer (R219) -/

/-- FP64 words. -/
def words64 (l : List Nat) : List Byte := l.flatMap fun x => leBytes 8 x

/-- DEADHEAD: a running pump with q ≤ 0. -/
def Net.dead (n : Net) (p : NetPt) (b : Nat) : Bool :=
  (n.branch b).type == 1 && !n.closed b && le64 (p.q.getD b 0) 0

/-- UNDERSUPPLIED: a consumer heat exchanger with T_in below T_SET. Without flow T_in is not stated. -/
def Net.under (n : Net) (e : Eng) (p : NetPt) (th : Thermal) (b : Nat) : Bool :=
  let x := n.branch b
  let tin := match n.ends p.q b with | some (u, _) => th.t.getD u 0 | none => (e.at b).val
  x.type == 3 && !x.flags.testBit 1 && !n.closed b && lt64 tin x.tset

/-- The octets of a NETWORK buffer: temperatures and heat only where a thermal pass ran. -/
def Net.buffer (n : Net) (e : Eng) (p : NetPt) (th : Option Thermal) (cert : List Nat) : List Byte :=
  let iso := n.isolated
  let nodes := List.range n.nodes
  let brs := List.range n.brs
  let orNan : Nat → Nat → Nat := fun i x => if iso.contains i then Fp.qnan else x
  let temp : Nat → Nat := fun i => orNan i (match th with | some t => t.t.getD i 0 | none => 0)
  let heat : Nat → Nat := fun b => match th with | some t => t.heat.getD b 0 | none => 0
  let nodeFlag : Nat → Byte := fun i => BitVec.ofNat 8 (bit (iso.contains i) + 2 * bit (n.fixed i))
  let under : Nat → Bool := fun b => match th with | some t => n.under e p t b | none => false
  let brFlag : Nat → Byte := fun b =>
    BitVec.ofNat 8 (bit (n.closed b) + 2 * bit (lt64 (p.q.getD b 0) 0) + 4 * bit (n.dead p b) + 8 * p.held.getD b 0 +
      16 * bit (under b))
  words64 (nodes.map fun i => orNan i (p.h.getD i 0)) ++ words64 (nodes.map temp) ++ words64 p.q ++
    words64 (brs.map heat) ++
    nodes.map nodeFlag ++ List.replicate (pad8 n.nodes - n.nodes) 0 ++
    brs.map brFlag ++ List.replicate (pad8 n.brs - n.brs) 0 ++ words64 cert

end Sys2Proof.Machine
end

