-- ==== Sys2Proof/Machine/DraftQp.lean ====
section
/-! DEFINITION. QP jobs (R220 to R223): the primal-dual interior-point method; and LINEAR jobs (R224).
Readings and choices: DESIGN CHOICE log 33; DEDUCED log 54. -/

namespace Sys2Proof.Machine

/-! ## QP -/

/-- A quadratic programme as read at its start. -/
structure Qp where
  n  : Nat
  m  : Nat
  h  : SMat
  a  : List (Nat × Nat × Nat)
  vec : List Byte

def qpOf (d img : List Byte) : Qp :=
  let n := fld d 64 4
  let m := fld d 68 4
  let h := matEntries img
  let a := if m = 0 then ([], h.2) else matEntries h.2
  ⟨n, m, SMat.of (List.range n) true h.1, a.1, a.2⟩

def Qp.c (p : Qp) (i : Nat) : Nat := fld p.vec (8 * i) 8
def Qp.lx (p : Qp) (i : Nat) : Nat := fld p.vec (8 * (p.n + i)) 8
def Qp.ux (p : Qp) (i : Nat) : Nat := fld p.vec (8 * (2 * p.n + i)) 8
def Qp.la (p : Qp) (i : Nat) : Nat := fld p.vec (8 * (3 * p.n + i)) 8
def Qp.ua (p : Qp) (i : Nat) : Nat := fld p.vec (8 * (3 * p.n + p.m + i)) 8

def listAt (l : List Nat) (i : Nat) : Nat := l.getD i 0
def vecOf (l : List Nat) : Vec := l.zipIdx.map fun x => (x.2, x.1)

/-- A point: x and s = Ax within their bounds, with the multipliers of the lower and upper bounds of each. -/
structure QpPt where
  x  : List Nat
  s  : List Nat
  zl : List Nat
  zu : List Nat
  wl : List Nat
  wu : List Nat

/-- y and z of a point, and its distances to the four kinds of bound. Where two bounds coincide the distance that the method
keeps is a value that the spec does not state. -/
def QpPt.y (v : QpPt) : List Nat := (v.wl.zip v.wu).map fun x => dSub x.1 x.2
def QpPt.z (v : QpPt) : List Nat := (v.zl.zip v.zu).map fun x => dSub x.1 x.2

def gapTo (e : Eng) (i lo up v w : Nat) : Nat := if Fp.eqV (Fp.b64.unpack lo) (Fp.b64.unpack up) then (e.at i).val else dSub v w
def Qp.tl (p : Qp) (e : Eng) (v : QpPt) (i : Nat) : Nat :=
  gapTo (e.at 0) i (p.lx i) (p.ux i) (listAt v.x i) (p.lx i)
def Qp.tu (p : Qp) (e : Eng) (v : QpPt) (i : Nat) : Nat :=
  gapTo (e.at 1) i (p.lx i) (p.ux i) (p.ux i) (listAt v.x i)
def Qp.rl (p : Qp) (e : Eng) (v : QpPt) (i : Nat) : Nat :=
  gapTo (e.at 2) i (p.la i) (p.ua i) (listAt v.s i) (p.la i)
def Qp.ru (p : Qp) (e : Eng) (v : QpPt) (i : Nat) : Nat :=
  gapTo (e.at 3) i (p.la i) (p.ua i) (p.ua i) (listAt v.s i)

/-- Ax, and Aᵀy. -/
def Qp.ax (p : Qp) (e : Eng) (x : List Nat) : List Nat :=
  (List.range p.m).map fun i => (e.at i).dot ((p.a.filter fun t => t.1 == i).map fun t => (t.2.2, listAt x t.2.1))
def Qp.aty (p : Qp) (y : List Nat) (j : Nat) : List (Nat × Nat) :=
  (p.a.filter fun t => t.2.1 == j).map fun t => (t.2.2, listAt y t.1)

/-- Hx + c − Aᵀy − z (R221). -/
def Qp.dual (p : Qp) (e : Eng) (v : QpPt) : List Nat :=
  (List.range p.n).map fun i =>
    (e.at i).dot (((p.h.row i).map fun t => (t.2, listAt v.x t.1)) ++ [dTerm (p.c i), dTerm (Fp.neg (listAt v.z i))] ++
      (p.aty v.y i).map fun t => (Fp.neg t.1, t.2))

/-- What an iterate is judged by: p, d, μ, the objective (R221). -/
structure QpVal where
  p : Nat
  d : Nat
  mu : Nat
  obj : Nat
  ax : List Nat

def QpVal.merit (v : QpVal) : Nat := dMax (dMax v.p v.d) v.mu

/-- Mean complementarity of multipliers and distances. -/
def meanComp (e : Eng) (l : List (Nat × Nat)) : Nat := dDiv (e.dot l) (Fp.ofInt l.length).1

def Qp.pairs (p : Qp) (e : Eng) (v : QpPt) : List (Nat × Nat) :=
  (List.range p.n).flatMap (fun i => [(listAt v.zl i, p.tl e v i), (listAt v.zu i, p.tu e v i)]) ++
    (List.range p.m).flatMap fun i => [(listAt v.wl i, p.rl e v i), (listAt v.wu i, p.ru e v i)]

def Qp.eval (p : Qp) (e : Eng) (v : QpPt) : QpVal :=
  let rows := List.range p.m
  let ax := p.ax (e.at 0) v.x
  let res := (ax.zip v.s).map fun t => dSub t.1 t.2
  let c := (List.range p.n).map p.c
  let hx := (List.range p.n).map fun i => ((e.at 1).at i).dot ((p.h.row i).map fun t => (t.2, listAt v.x t.1))
  let quad := (e.at 2).dot (v.x.zip hx)
  ⟨dDiv (normInf res) (dAdd one64 (normInf (rows.map p.la ++ rows.map p.ua))),
   dDiv (normInf (p.dual (e.at 3) v)) (dAdd one64 (normInf c)),
   meanComp (e.at 4) (p.pairs (e.at 5) v),
   dAdd (dMul (pow64 (-1)) quad) ((e.at 6).dot (c.zip v.x)), ax⟩

/-- The cold-start point, which the spec does not state. -/
def Qp.cold (p : Qp) (e : Eng) : QpPt :=
  let f : Nat → Nat → List Nat := fun q n => (List.range n).map fun i => ((e.at q).at i).val
  ⟨f 0 p.n, f 1 p.m, f 2 p.n, f 3 p.n, f 4 p.m, f 5 p.m⟩

/-- δ = 10⁻⁹. -/
def qpDelta : Nat := Fp.ofRat (1 / 1000000000)

/-- Σx and ΣA: the multipliers over the distances. -/
def Qp.sigX (p : Qp) (e : Eng) (v : QpPt) (i : Nat) : Nat :=
  dAdd (dDiv (listAt v.zl i) (p.tl e v i)) (dDiv (listAt v.zu i) (p.tu e v i))
def Qp.sigA (p : Qp) (e : Eng) (v : QpPt) (i : Nat) : Nat :=
  dAdd (dDiv (listAt v.wl i) (p.rl e v i)) (dDiv (listAt v.wu i) (p.ru e v i))

/-- The quasi-definite matrix of R221: variables 0 to n − 1, constraints n to n + m − 1. -/
def Qp.matrix (p : Qp) (e : Eng) (v : QpPt) : SMat :=
  let diag := (List.range p.n).map fun i =>
    (i, i, (e.at i).sum ((p.h.find i i).toList ++ [p.sigX e v i, qpDelta]))
  let low := (List.range p.m).map fun i =>
    (p.n + i, p.n + i, Fp.neg (dAdd (dDiv one64 (p.sigA e v i)) qpDelta))
  let off := (List.range p.n).flatMap fun i => (p.h.row i).filterMap fun t => if t.1 = i then none else some (i, t.1, t.2)
  SMat.of (List.range (p.n + p.m)) true (diag ++ low ++ off ++ p.a.map fun t => (p.n + t.1, t.2.1, t.2.2))

/-- A step in every part of a point. -/
def QpPt.move (v dv : QpPt) (alpha : Nat) : QpPt :=
  let f : List Nat → List Nat → List Nat := fun a b => (a.zip b).map fun t => dAdd t.1 (dMul alpha t.2)
  ⟨f v.x dv.x, f v.s dv.s, f v.zl dv.zl, f v.zu dv.zu, f v.wl dv.wl, f v.wu dv.wu⟩

/-- The complementarity residuals of one kind of bound: target less multiplier × distance, less the predictor's product. -/
def compRes (target m t dm dt : Nat) : Nat := dSub (dSub target (dMul m t)) (dMul dm dt)

/-- The direction that the factors give for complementarity residuals of the four kinds, and whether its solve is marked. -/
def Qp.direction (p : Qp) (e : Eng) (mat : SMat) (f : Fac) (v : QpPt) (cl cu al au : Nat → Nat) : QpPt × Bool :=
  let rd := p.dual (e.at 0) v
  let ax := p.ax (e.at 1) v.x
  let rho : Nat → Nat := fun i => dSub (dDiv (al i) (p.rl e v i)) (dDiv (au i) (p.ru e v i))
  let b1 := (List.range p.n).map fun i => ((e.at 2).at i).sum
    [Fp.neg (listAt rd i), dDiv (cl i) (p.tl e v i), Fp.neg (dDiv (cu i) (p.tu e v i))]
  let b2 := (List.range p.m).map fun i =>
    dAdd (dSub (listAt v.s i) (listAt ax i)) (dDiv (rho i) (p.sigA e v i))
  let r := f.solveRefined (e.at 3) mat (vecOf (b1 ++ b2))
  let dx := (List.range p.n).map r.1.at
  let dy := (List.range p.m).map fun i => Fp.neg (r.1.at (p.n + i))
  let ds := (List.range p.m).map fun i => dDiv (dSub (rho i) (listAt dy i)) (p.sigA e v i)
  let part : Nat → (Nat → Nat) → (Nat → Nat) → (Nat → Nat) → List Nat := fun k c z t =>
    (List.range k).map fun i => dDiv (dSub (c i) (z i)) (t i)
  (⟨dx, ds,
    part p.n cl (fun i => dMul (listAt v.zl i) (listAt dx i)) (p.tl e v),
    part p.n cu (fun i => Fp.neg (dMul (listAt v.zu i) (listAt dx i))) (p.tu e v),
    part p.m al (fun i => dMul (listAt v.wl i) (listAt ds i)) (p.rl e v),
    part p.m au (fun i => Fp.neg (dMul (listAt v.wu i) (listAt ds i))) (p.ru e v)⟩, r.2)

/-- The largest step, at most 1, that `keep` of the distance to the boundary allows every multiplier and distance. -/
def Qp.maxStep (p : Qp) (e : Eng) (v dv : QpPt) (keep : Nat) : Nat :=
  let l := (List.range p.n).flatMap (fun i =>
      [(listAt v.zl i, listAt dv.zl i), (listAt v.zu i, listAt dv.zu i), (p.tl e v i, listAt dv.x i),
       (p.tu e v i, Fp.neg (listAt dv.x i))]) ++
    (List.range p.m).flatMap fun i =>
      [(listAt v.wl i, listAt dv.wl i), (listAt v.wu i, listAt dv.wu i), (p.rl e v i, listAt dv.s i),
       (p.ru e v i, Fp.neg (listAt dv.s i))]
  l.foldl (fun a t => if lt64 t.2 0 || !finite64 t.2 then dMin a (dMul keep (dDiv t.1 (Fp.neg t.2))) else a) one64

/-- 0.995. -/
def fp995 : Nat := Fp.ofRat (995 / 1000)

/-- Iteration of the method from a point (R221, R222): the factorisation, whether a solve is marked, the trial points. -/
structure QpStep where
  fac  : Fac
  mark : Bool
  trial : Nat → QpPt

/-- Mehrotra's predictor and corrector: one factorisation, two solves; σ = (μ_aff / μ)³. -/
def Qp.step (p : Qp) (job e : Eng) (tau : Nat) (v : QpPt) : QpStep :=
  let g := e.at 0
  let mat := p.matrix g v
  let f := factorise job (e.at 1) mat tau (some p.n)
  let no : Nat → Nat := fun _ => 0
  let res : Nat → (Nat → Nat) → (Nat → Nat) → (Nat → Nat) → (Nat → Nat) → Nat → Nat :=
    fun target m t dm dt i => compRes target (m i) (t i) (dm i) (dt i)
  let mk : Nat → QpPt → (Nat → Nat) × (Nat → Nat) × (Nat → Nat) × (Nat → Nat) := fun target dv =>
    (res target (listAt v.zl) (p.tl g v) (listAt dv.zl) (listAt dv.x),
     res target (listAt v.zu) (p.tu g v) (listAt dv.zu) (fun i => Fp.neg (listAt dv.x i)),
     res target (listAt v.wl) (p.rl g v) (listAt dv.wl) (listAt dv.s),
     res target (listAt v.wu) (p.ru g v) (listAt dv.wu) (fun i => Fp.neg (listAt dv.s i)))
  let zero : QpPt := ⟨(List.range p.n).map no, (List.range p.m).map no, (List.range p.n).map no, (List.range p.n).map no,
    (List.range p.m).map no, (List.range p.m).map no⟩
  let c1 := mk 0 zero
  let aff := p.direction (e.at 2) mat f v c1.1 c1.2.1 c1.2.2.1 c1.2.2.2
  let mu := meanComp (e.at 3) (p.pairs g v)
  let va := v.move aff.1 (p.maxStep g v aff.1 one64)
  let ratio := dDiv (meanComp (e.at 4) (p.pairs g va)) mu
  let target := dMul (dMul (dMul ratio ratio) ratio) mu
  let c2 := mk target aff.1
  let dir := p.direction (e.at 5) mat f v c2.1 c2.2.1 c2.2.2.1 c2.2.2.2
  let alpha := p.maxStep g v dir.1 fp995
  ⟨f, aff.2 || dir.2, fun j => v.move dir.1 (dMul alpha (pow64 (-j)))⟩

/-- The certificate of infeasibility of a point, where it has one (R222): w = (y, z) over its norm. -/
def Qp.certificate (p : Qp) (e : Eng) (v : QpPt) : Option (List Nat) :=
  let yz := v.y ++ v.z
  let nm := normInf yz
  let c := (List.range p.n).map p.c
  if lt64 (dMul (Fp.ofRat 100000000) (dAdd one64 (normInf c))) nm then
    let w := yz.map fun x => dDiv x nm
    let wy := w.take p.m
    let wz := w.drop p.m
    let comb := (List.range p.n).map fun j => ((e.at 0).at j).dot (dTerm (listAt wz j) :: p.aty wy j)
    let ends : Nat → Nat → Nat → List (Nat × Nat) := fun l u x =>
      if lt64 0 x then [(l, x)] else [(u, x)]
    let total := (e.at 1).dot (((List.range p.m).flatMap fun i => ends (p.la i) (p.ua i) (listAt wy i)) ++
      (List.range p.n).flatMap fun i => ends (p.lx i) (p.ux i) (listAt wz i))
    if le64 (normInf comb) (Fp.ofRat (1 / 100000000)) && lt64 (Fp.ofRat (1 / 1000000)) total then some w else none
  else none

/-- The octets of a QP buffer (R223). -/
def qpBuffer (v : QpPt) (ax cert : List Nat) : List Byte := words64 (v.x ++ v.y ++ v.z ++ ax ++ cert)

/-! ## LINEAR (R224) -/

/-- A linear system: its matrix and right-hand sides. -/
structure Lin where
  a : SMat
  b : List Vec

def linOf (d img : List Byte) : Lin :=
  let n := fld d 64 4
  let m := matEntries img
  ⟨SMat.of (List.range n) (fld d 69 1 == 1) m.1,
    (List.range (fld d 68 1)).map fun c => (List.range n).map fun i => (i, fld m.2 (8 * (n * c + i)) 8)⟩

/-- Iterate k of every column from the one before, with its backward error: the first solve, then steps of refinement; a
column at or below 2⁻⁵⁰ is refined no more (R210). -/
def Lin.step (p : Lin) (e : Eng) (f : Fac) (k : Nat) (xs : List Vec) (betas : List Nat) : List (Vec × Nat) :=
  p.b.zipIdx.map fun t =>
    let e := (e.at k).at t.2
    let x := xs.getD t.2 []
    let old := betas.getD t.2 one64
    if 1 < k && le64 old fpM50 then (x, old)
    else
      let x := if k = 1 then f.solve (e.at 0) p.a.sym t.1 else refineStep (e.at 0) p.a f t.1 x
      (x, backError (e.at 1) p.a t.1 x)

end Sys2Proof.Machine
end

