-- ==== Sys2Proof/Machine/Drafting.lean ====
section
/-! DEFINITION. The Drafting engine: jobs, submission, iterates, ends, results (R199 to R232).
Readings and choices: DESIGN CHOICE log 33; DEDUCED log 54. -/

namespace Sys2Proof.Machine

/-! ## A job's data -/

def DrfRun.eng (r : DrfRun) : Eng := ⟨r.data, []⟩
def DrfRun.desc (r : DrfRun) : List Byte := r.data.take 128
def DrfRun.net (r : DrfRun) : Net := netOf r.desc (r.data.drop 128)
def DrfRun.qp (r : DrfRun) : Qp := qpOf r.desc (r.data.drop 128)
def DrfRun.lin (r : DrfRun) : Lin := linOf r.desc (r.data.drop 128)
def DrfRun.tau (r : DrfRun) : Nat := tau64 (fld r.desc 14 1)

/-- The work of iteration k; what belongs to the whole job. -/
def DrfRun.iterEng (r : DrfRun) (k : Nat) : Eng := (r.eng.at 1).at k
def DrfRun.jobEng (r : DrfRun) : Eng := r.eng.at 0

/-- The factor storage in KB: the layout of the factors is the engine's (R213). -/
def DrfRun.storeKb (r : DrfRun) : Nat := (r.eng.at 4).pick

def DrfRun.xsAt (r : DrfRun) (i : Nat) : List Nat := r.xs.getD i []
def DrfRun.netPt (r : DrfRun) : NetPt := ⟨r.xsAt 0, r.xsAt 1, r.xsAt 2, r.xsAt 3, r.xsAt 4⟩
def NetPt.xs (p : NetPt) : List (List Nat) := [p.h, p.q, p.g, p.held, p.f]
def DrfRun.qpPt (r : DrfRun) : QpPt := ⟨r.xsAt 0, r.xsAt 1, r.xsAt 2, r.xsAt 3, r.xsAt 4, r.xsAt 5⟩
def QpPt.xs (v : QpPt) : List (List Nat) := [v.x, v.s, v.zl, v.zu, v.wl, v.wu]

/-- What each iteration's factorisation gives: NETWORK and QP factorise in every iteration, LINEAR once (R224). -/
def DrfRun.netStep (r : DrfRun) (k : Nat) : NetStep := r.net.step r.jobEng (r.iterEng k) r.tau r.netPt
def DrfRun.qpStep (r : DrfRun) (k : Nat) : QpStep := r.qp.step r.jobEng (r.iterEng k) r.tau r.qpPt
def DrfRun.linFac (r : DrfRun) : Fac := factorise r.jobEng (r.iterEng 0) r.lin.a r.tau none

/-- The pivots that the iteration under way replaces. -/
def DrfRun.nextPert (r : DrfRun) : Nat :=
  let t := fld r.desc 0 1
  if r.next = 0 then 0
  else if t = tNETWORK then (r.netStep r.next).pert
  else if t = tQP then (r.qpStep r.next).fac.pert
  else if r.next = 1 then r.linFac.pert else 0

/-! ## Slots and status -/

def dSlot (n : Nat) : Nat := 4 * n
def State.drfJob (s : State) (n : Nat) : Option DrfJob := AMap.get none s.drf.jobs n

/-- DRF_STATUS follows the slots. -/
def State.drfStatus (s : State) : State :=
  let queued := s.drf.jobs.countP fun x => match x.2 with | some j => j.state == 1 | none => false
  let s := s.p DRF_STATUS_QUEUED 0 queued
  match s.drf.run with
  | some r => (s.p DRF_STATUS_BUSY 0 1).p DRF_STATUS_RUNNING 0 r.slot
  | none => s.p DRF_STATUS_BUSY 0 0

/-- Put a job in a slot, or free it. -/
def State.setJob (s : State) (n : Nat) (j : Option DrfJob) : State :=
  let s := { s with drf := { s.drf with jobs := AMap.set none s.drf.jobs n j } }
  let s := match j with
    | some x => ((s.p DRF_SLOT_STATE (dSlot n) x.state).p DRF_SLOT_PATH (dSlot n) (fld x.desc 2 2)).p DRF_SLOT_TAG
        (dSlot n) (fld x.desc 4 4)
    | none => s.p DRF_SLOT_STATE (dSlot n) 0
  s.drfStatus

def State.setRun (s : State) (r : Option DrfRun) : State := { s with drf := { s.drf with run := r } }.drfStatus

/-! ## Submission and cancel (R200, R201, R203) -/

/-- A refused submission or cancel. -/
def State.drfRefuse (s : State) (master code : Nat) : State :=
  ((s.p DRF_LAST_REFUSAL_VALID 0 1).p DRF_LAST_REFUSAL_MASTER 0 master).p DRF_LAST_REFUSAL_CODE 0 code

/-- A Berths word from participant 28 (R201): TYPE, SLOT, CODE, TAG. -/
def State.drfNotify (s : State) (master type slot code tag : Nat) : State :=
  if master ≤ 25 then
    let x := s.post 28 master (type * 2 ^ 30 + slot * 2 ^ 24 + code * 2 ^ 12 + tag % 2 ^ 12)
    if x.1 then x.2 else x.2.incSat DRF_COUNTS_NOTIFY_LOST 0
  else s

/-- `n` bytes that the spec gives no value. -/
def State.freeBytes (s : State) (n : Nat) : List Byte × State := let x := s.draw; (leBytes n x.1, x.2)

/-- A field that is stated, or free. -/
def State.orFree (s : State) (n : Nat) (v : Option Nat) : List Byte × State :=
  match v with | some x => (leBytes n x, s) | none => s.freeBytes n

/-- A Tide time as a record gives it: nanoseconds, seconds low 32 bits. -/
def stampBytes (t : Nat) : List Byte :=
  let ns := t / 65536
  leBytes 4 (ns % 1000000000) ++ leBytes 4 (ns / 1000000000)

/-- What a result record shows beside its job (R225). -/
structure RecVals where
  tag    : Nat
  status : Nat
  buf    : Nat := 255
  refusal : Nat := 0
  iter   : Option Nat := none
  pert   : Nat := 0
  merit  : Option Nat := none
  resP   : Option Nat := none
  resD   : Option Nat := none
  gap    : Nat := 0
  obj    : Option Nat := none
  cert   : Option Nat := none
  detail : Nat := 0
  warn   : Nat := 0
  slot   : Option Nat
  type   : Nat
  accepted : Option Nat
  started : Nat := 0
  ended  : Option Nat

/-- The 128 octets of a result record (R225); a field for which the spec states no value is free. -/
def State.record (s : State) (r : RecVals) : List Byte × State :=
  let a := s.orFree 4 r.iter
  let b := a.2.orFree 8 r.merit
  let c := b.2.orFree 8 r.resP
  let d := c.2.orFree 8 r.resD
  let e := d.2.orFree 8 r.obj
  let f := e.2.orFree 4 r.cert
  let g := f.2.orFree 1 r.slot
  let h := match r.accepted with | some t => (stampBytes t, g.2) | none => g.2.freeBytes 8
  let i := match r.ended with | some t => (stampBytes t, h.2) | none => h.2.freeBytes 8
  (leBytes 4 r.tag ++ leBytes 1 r.status ++ leBytes 1 r.buf ++ leBytes 2 r.refusal ++ a.1 ++ leBytes 4 r.pert ++ b.1 ++
    c.1 ++ d.1 ++ leBytes 8 r.gap ++ e.1 ++ f.1 ++ leBytes 4 r.detail ++ leBytes 4 r.warn ++ g.1 ++ leBytes 1 r.type ++
    leBytes 2 0 ++ h.1 ++ (if r.started = 0 then leBytes 8 0 else stampBytes r.started) ++ i.1 ++ leBytes 32 0, i.2)

/-- Whether a record may be written at an address. -/
def resultOk (a : Nat) : Bool := a % 64 == 0 && inSram a 128

/-- A refused submission whose descriptor was read with a valid RESULT (R201). -/
def State.refusedRecord (s : State) (d : List Byte) (code : Nat) : State :=
  let x := s.record { tag := fld d 4 4, status := 0xFF, refusal := code, slot := none, type := fld d 0 1,
                      accepted := none, ended := none }
  x.2.wbsEcc (fld d 32 8) x.1

/-- The absolute deadline of a descriptor, ns. -/
def drfDeadline (d : List Byte) : Nat := (fld d 24 2 * 2 ^ 32 + fld d 20 4) * 1000000000 + fld d 16 4

/-- The code with which a submission is refused (R200), 0 where it is accepted, and whether the refused job was an
offer of its path. -/
def State.submitCode (s : State) (a : Nat) (d : List Byte) : Nat × Bool :=
  let readable := a % 64 == 0 && inSram a 128
  let p := fld d 2 2
  let pathOk := p < 512 && s.pathKind p == kDRAFT
  let t := fld d 0 1
  if s.mode = SAFE then (0x04D, readable && pathOk)
  else if s.mode = PROVISION ∨ s.mode = STANDBY ∨ s.mode = FACTORY then (0x30B, false)
  else if !readable || t == 0 || 3 < t || !pathOk || !resultOk (fld d 32 8) || !drfReservedOk d then (0x30C, false)
  else
    let bound := s.g SYS_CTR_BOUND_BOUND_NS (dPath p)
    let own := !((fld d 1 1).testBit 0 && decide (s.tideNs + bound < drfDeadline d + 2000))
    let c := s.offerCode p (fld d 8 4) own
    (c, c != 0)

/-- The lowest free slot. -/
def State.freeSlot (s : State) : Option Nat := (List.range 64).find? fun n => (s.drfJob n).isNone

/-- The first of some ranges of memory (address, bytes) whose read ends in an error response: an uncorrectable error, or
DDR before it is initialised (R230, R469). -/
def State.readError (s : State) (l : List (Nat × Nat)) : Option Nat :=
  (l.find? fun x => x.2 != 0 && (s.eccUncorr x.1 x.2 || (!inSram x.1 x.2 && !s.on MEM_CTRL_DDR_READY))).map (·.1)

/-- The engine reads memory: single-bit errors are corrected; an error response is INPUT_ERR (R230). -/
def State.drfRead (s : State) (l : List (Nat × Nat)) (slot : Nat) : State :=
  match s.readError l with
  | some a =>
    let s := if s.on MEM_CTRL_DDR_READY || inSram a 1 then s.memUncorr a 28 else s
    s.raise .drf DRF_INPUT_ERR (some ⟨a, 28, 1⟩) slot
  | none => l.foldl (fun s x => s.eccSeen x.1 x.2) s

/-- A submission (R200, R201): the slot, or the refusal's code. A descriptor that could not be read is 0x30C with a TAG of
0: DEDUCED from R201, log 54. -/
def State.submit (s : State) (master : Nat) (notify : Bool) (a : Nat) : Except Nat Nat × State :=
  let d := s.rbs a 128
  let aligned := a % 64 == 0 && inSram a 128
  let lost := aligned && (s.readError [(a, 128)]).isSome
  let x := if lost && s.mode != SAFE && s.mode != PROVISION && s.mode != STANDBY && s.mode != FACTORY then (0x30C, false)
    else s.submitCode a d
  let readable := aligned && !lost
  let s := if aligned then s.drfRead [(a, 128)] 0 else s
  if x.1 ≠ 0 then
    let s := if x.2 then s.rejectItem (fld d 2 2) else s
    let s := s.drfRefuse master x.1
    let s := if readable && resultOk (fld d 32 8) then s.refusedRecord d x.1 else s
    (.error x.1, if notify then s.drfNotify master 1 0 x.1 (if readable then fld d 4 4 else 0) else s)
  else
    match s.freeSlot with
    | none => (.error 0x048, s.drfRefuse master 0x048)
    | some n =>
      let it := s.acceptItem (fld d 2 2)
      let j : DrfJob := ⟨d, it.1, s.tide, master, notify, 1⟩
      let s := it.2.setJob n (some j)
      (.ok n, if notify then s.drfNotify master 0 n 0 (fld d 4 4) else s)

/-- DRF_SUBMIT (R200). -/
def execDrfSubmit (master : Fin 42) (notify : Bool) (addr : BitVec 40) (s : State) : Out' :=
  .next (s.command fun s => (s.submit master notify addr.toNat).2)

/-! ## Ends (R203 to R207, R225, R226) -/

def stCONVERGED : Nat := 0
def stDEADLINE : Nat := 1
def stITER : Nat := 2
def stILL : Nat := 3
def stOVERFLOW : Nat := 4
def stINFEASIBLE : Nat := 5
def stSTALLED : Nat := 6
def stNOTCONVEX : Nat := 7
def stINVALID : Nat := 8
def stNOMEM : Nat := 9
def stEXPIRED : Nat := 10
def stCANCELLED : Nat := 11
def stMEMERR : Nat := 12

def progDrf : ProgRegs :=
  ⟨DRF_PROG_PERMYRIAD_STATE, DRF_PROG_PERMYRIAD_VAL, DRF_PROG_POSITION_VAL, DRF_PROG_TOTAL_VAL⟩

/-- The progress STATE that a status leaves (R226). -/
def drfProgState (status : Nat) : Nat :=
  if status = stCONVERGED then 2 else if status = stDEADLINE ∨ status = stEXPIRED then 4 else 3

/-- A queued job ends with no iterate at a Tide time (R203, R205). It leaves its STATE in the progress set, which reports the
running job while there is one. -/
def State.endQueued (s : State) (n : Nat) (j : DrfJob) (status ended : Nat) : State :=
  let x := s.record { tag := fld j.desc 4 4, status := status, slot := some n, type := fld j.desc 0 1,
                      accepted := some j.acc, ended := some ended }
  let s := x.2.setJob n (some { j with state := 3 })
  let s := { s with drf := { s.drf with posts := s.drf.posts ++ [(⟨n, fld j.desc 32 8, x.1, status, false⟩ : DrfPost)] } }
  if s.drf.run.isNone then s.progEnd progDrf 0 (drfProgState status) else s

/-- The running job ends at a Tide time (R204): its record is assembled, and the progress takes its STATE (R226). -/
def State.endRunAt (s : State) (r : DrfRun) (status ended : Nat) : State :=
  match s.drfJob r.slot with
  | none => s
  | some j =>
    let x := s.record { tag := fld j.desc 4 4, status := status, buf := r.buf, iter := r.iter, pert := r.pert,
                        merit := r.merit, resP := r.resP, resD := r.resD, gap := r.gap, obj := r.obj, cert := r.cert,
                        detail := r.detail, warn := r.warn, slot := some r.slot, type := fld j.desc 0 1,
                        accepted := some j.acc, started := r.start, ended := some ended }
    let s := (x.2.setRun none).setJob r.slot (some { j with state := 3 })
    let s := { s with drf := { s.drf with
      posts := s.drf.posts ++ [(⟨r.slot, fld j.desc 32 8, x.1, status, true⟩ : DrfPost)], cut := some (r, s.fab, status) } }
    s.progEnd progDrf 0 (drfProgState status)

def State.endRun (s : State) (r : DrfRun) (status : Nat) : State := s.endRunAt r status s.tide

/-- The end falls inside an iteration: which of its pivots were replaced before it depends on timing (R208, R225). -/
def State.endCut (s : State) (r : DrfRun) (status ended : Nat) : State :=
  let x := s.draw
  x.2.endRunAt { r with pert := r.pert + x.1 % (r.nextPert + 1) } status ended

/-- Which of two statuses of one cycle is the job's (R207). -/
def drfOrder : List Nat :=
  [stMEMERR, stOVERFLOW, stINFEASIBLE, stNOTCONVEX, stCONVERGED, stDEADLINE, stCANCELLED, stITER, stILL, stSTALLED]
def precedes (a b : Nat) : Bool := drfOrder.idxOf a < drfOrder.idxOf b

/-- The running job ends by its iteration, unless an end of this cycle precedes that status (R207). -/
def State.endIter (s : State) (r : DrfRun) (status : Nat) : State :=
  match r.pre with
  | some st => s.endRun r (if precedes st status then st else status)
  | none => s.endRun r status

/-- A job that ended in this fabric cycle, its record not yet posted, as it was: its status, and the State before. -/
def State.reopen (s : State) : Option (DrfRun × Nat × State) :=
  match s.drf.run, s.drf.cut, s.drf.posts.getLast? with
  | none, some (r, f, st), some p =>
    match s.drfJob r.slot with
    | some j =>
      if f = s.fab ∧ p.ran = true ∧ p.slot = r.slot ∧ j.state = 3 then
        let s := { s with drf := { s.drf with posts := s.drf.posts.dropLast, cut := none } }
        some (r, st, (s.setRun (some r)).setJob r.slot (some { j with state := 2 }))
      else none
    | none => none
  | _, _, _ => none

/-- The contract stop of a job, and the earliest end its clock gives it once it runs, as Tide times (R204). -/
def State.contractStop (s : State) (j : DrfJob) : Nat :=
  j.acc + (s.g SYS_CTR_BOUND_BOUND_NS (dPath (fld j.desc 2 2)) - 2000) * 65536
def State.lastStart (s : State) (j : DrfJob) : Nat :=
  if (fld j.desc 1 1).testBit 0 then min (s.contractStop j) (drfDeadline j.desc * 65536) else s.contractStop j
def State.timeEnd (s : State) (j : DrfJob) (r : DrfRun) : Nat :=
  min (s.lastStart j) (r.start + fld j.desc 8 4 * 1000 * 65536)

/-- A cancel (R203): 0, or the refusal's code. A job whose own time has ended it first is DEADLINE (R204, R207). -/
def State.drfCancel (s : State) (master n tag : Nat) : Nat × State :=
  let refuse := (0x30D, s.drfRefuse master 0x30D)
  match s.drfJob n with
  | none => refuse
  | some j =>
    if fld j.desc 4 4 % 65536 ≠ tag % 65536 then refuse
    else if j.state = 1 then (0, s.endQueued n j stCANCELLED s.tide)
    else if j.state = 3 then
      match s.reopen with
      | some (r, st, t) => if r.slot = n ∧ precedes stCANCELLED st = true then (0, t.endRun r stCANCELLED) else refuse
      | none => refuse
    else match s.drf.run with
      | some r =>
        let e := s.timeEnd j r
        (0, if e ≤ s.tide then s.endCut r stDEADLINE e else s.endCut r stCANCELLED s.tide)
      | none => (0, s)

/-- DRF_CANCEL (R203). -/
def execDrfCancel (master : Fin 42) (slot : Fin 64) (tag : BitVec 16) (s : State) : Out' :=
  .next (s.command fun s => (s.drfCancel master slot tag.toNat).2)

/-- JOB_TIME_END (R204): the running job's budget, deadline or contract stop is reached. -/
def execJobTimeEnd (s : State) : Out' :=
  .next (match s.drf.run with
    | some r => match s.drfJob r.slot with
      | some j => let e := s.timeEnd j r; if e ≤ s.tide then s.endCut r stDEADLINE e else s
      | none => s
    | none => s)

/-- JOB_EXPIRED (R205): a queued job's deadline or contract stop passes. -/
def execJobExpired (slot : Fin 64) (s : State) : Out' :=
  .next (match s.drfJob slot with
    | some j => if j.state = 1 ∧ s.lastStart j ≤ s.tide then s.endQueued slot j stEXPIRED (s.lastStart j) else s
    | none => s)

/-- The fault of an abort, and its status (R211, R230). An error response on a read is captured with its address. -/
def State.abortFault (s : State) (slot : Nat) : JobAbort → State
  | .overflow => s
  | .input a => s.raise .drf DRF_INPUT_ERR (some ⟨a.toNat, 28, 1⟩) slot
  | .spill => s.raise .drf DRF_SPILL_ERR none slot
  | .solver => s.raise .drf DRF_ECC_UNCORR none slot
def abortStatus (why : JobAbort) : Nat := if why = .overflow then stOVERFLOW else stMEMERR

/-- The running job is aborted; one that ended in this cycle takes the abort's status where that precedes (R207). -/
def State.abortJob (s : State) (why : JobAbort) : State :=
  let st := abortStatus why
  match s.drf.run with
  | some r => (s.abortFault r.slot why).endCut r st s.tide
  | none =>
    match s.reopen with
    | some (r, old, t) => if precedes st old then (t.abortFault r.slot why).endRun r st else s
    | none => s

/-- JOB_ABORTED (R211, R230). -/
def execJobAborted (why : JobAbort) (s : State) : Out' := .next (s.abortJob why)

/-- RESULT_POSTED (R204): the oldest record's last beat is written; DRF_RESULT fires, the slot is freed, the item is
delivered, the submitter is notified, definitions of TRIG 4 fire (R201, R439). `writeErr` where the write ended with an
error response: the record counts as posted (R230). -/
def execResultPosted (writeErr : Bool) (s : State) : Out' :=
  .next (match s.drf.posts with
    | [] => s
    | p :: rest =>
      let s := { s with drf := { s.drf with posts := rest } }
      let s := if writeErr then s.raise .drf DRF_OUTPUT_ERR (some ⟨p.addr, 28, 2⟩) p.slot else s.wbsEcc p.addr p.octets
      let s := (s.inc DRF_DONE_RECORDS 0).fireEdge srcDrfResult
      let s := s.snapFire (fun d => s.g LOG_SNAP_CFG_TRIG (0x100 * d) = 4 &&
        (s.g LOG_SNAP_CFG_SEL (0x100 * d)).testBit p.status) (p.status + p.slot * 256)
      match s.drfJob p.slot with
      | none => s
      | some j =>
        let s := (s.setJob p.slot none).itemGone j.item
        if j.notify then s.drfNotify j.master 2 p.slot p.status (fld j.desc 4 4) else s)

/-! ## Start (R199, R209, R213, R216, R220, R227) -/

/-- Whether queued job `a` goes before `b`: path PRIO, then acceptance. -/
def State.jobBefore (s : State) (a b : DrfJob) : Bool :=
  let pa := s.pathPrio (fld a.desc 2 2)
  let pb := s.pathPrio (fld b.desc 2 2)
  pb < pa || (pa == pb && a.item < b.item)

/-- The slot of the job that an idle engine starts. -/
def State.nextJob (s : State) : Option (Nat × DrfJob) :=
  s.drf.jobs.foldl (fun b x =>
    match x.2 with
    | some j => if j.state = 1 then
        (match b with | some y => if s.jobBefore j y.2 then some (x.1, j) else b | none => some (x.1, j)) else b
    | none => b) none

/-- Queued jobs whose deadline or contract stop has passed end before any of them could start (R205). -/
def State.expireJobs (s : State) : State :=
  s.drf.jobs.foldl (fun s x =>
    match x.2 with
    | some j => if j.state = 1 ∧ s.lastStart j ≤ s.tide then s.endQueued x.1 j stEXPIRED (s.lastStart j) else s
    | none => s) s

/-- The address of the buffer of iterate `k` (R206). -/
def bufAddr (d : List Byte) (k : Nat) : Nat := if k % 2 = 0 then fld d 40 8 else fld d 48 8

/-- Zeros in the certificate's place. -/
def noCert (d : List Byte) : List Nat :=
  List.replicate (if fld d 0 1 = tNETWORK then fld d 64 4 else fld d 64 4 + fld d 68 4) 0

/-- An iterate to complete: its buffer, its vectors, and what the record shows of it. -/
structure Iter where
  octets : List Byte
  xs    : List (List Nat)
  merit : Nat
  resP  : Option Nat := none
  resD  : Option Nat := none
  gap   : Nat := 0
  obj   : Option Nat := none
  betas : List Nat := []

/-- Iterate `k` is completed: buffer, residuals, progress (R206, R227). -/
def State.completeIterate (s : State) (r : DrfRun) (k : Nat) (i : Iter) : DrfRun × State :=
  let s := s.wbsEcc (bufAddr r.desc k) i.octets
  let r := { r with next := k + 1, buf := k % 2, iter := some k, merit := some i.merit, resP := i.resP, resD := i.resD,
                    gap := i.gap, obj := i.obj, betas := i.betas, xs := i.xs }
  (r, (s.setRun (some r)).progAt progDrf 0 k)

/-- Factors beyond 16 MB go to the area of DRF_SPILL_BASE, whose bytes the spec gives no values (R228). -/
def State.spill (s : State) (r : DrfRun) : State :=
  let n := (r.storeKb - 16384) * 1024
  if n = 0 then s
  else
    let x := s.freeBytes n
    x.2.wbsEcc (s.g DRF_SPILL_BASE_ADDR) x.1

/-! ## NETWORK -/

/-- Whether no Inf or NaN stands in what an evaluation gave (R211). -/
def Net.good (n : Net) (iso : List Nat) (p : NetPt) (obj : Nat) : Bool :=
  finite64 obj && p.f.all finite64 && (List.range n.brs).all fun b =>
    !n.carries iso b || (finite64 (p.q.getD b 0) && finite64 (p.g.getD b 0))
def Net.goodThermal (n : Net) (iso : List Nat) (t : Thermal) : Bool :=
  (List.range n.nodes).all (fun i => iso.contains i || finite64 (t.t.getD i 0)) &&
    (List.range n.brs).all fun b => !n.carries iso b || finite64 (t.heat.getD b 0)

/-- W_ILL, ISOLATED, DEADHEAD, THERMAL_UNSETTLED and SPILLED of WARN. -/
def DrfRun.warnNet (r : DrfRun) (p : NetPt) (th : Option Thermal) : DrfRun :=
  let n := r.net
  let base := r.warn % 4 + r.warn / 16 * 16
  let unsettled := match th with | some t => !t.settled | none => false
  { r with warn := base + 4 * bit ((List.range n.brs).any (n.dead p)) + 8 * bit unsettled }
def DrfRun.marked (r : DrfRun) (mark : Bool) : DrfRun := if mark && r.warn % 2 == 0 then { r with warn := r.warn + 1 } else r

/-- The iterate at a point, α‖s‖∞ being `step`. -/
def DrfRun.netIter (r : DrfRun) (p : NetPt) (step : Option Nat) (obj : Nat) (th : Option Thermal) (cert : List Nat) : Iter :=
  { octets := r.net.buffer (r.eng.at 5) p th cert, xs := p.xs, merit := normInf p.f, resP := some (normInf p.f),
    resD := step, obj := some obj }

/-- The cold start of a network. -/
def DrfRun.netCold (r : DrfRun) : NetPt := r.net.eval (r.iterEng 0) r.net.isolated (r.net.cold (r.eng.at 3))

/-- The first of the 9 trials that the step rule accepts, or that meets an Inf or a NaN. -/
def firstTrial (bad ok : Nat → Bool) : Option Nat := (List.range 9).find? fun j => bad j || ok j

/-- NETWORK, iterate `k` (R217, R218). -/
def State.netIterate (s : State) (r : DrfRun) (k : Nat) : State :=
  let d := r.desc
  let n := r.net
  let iso := n.isolated
  let objOf : NetPt → Nat := n.power (r.eng.at 6) iso
  if k = 0 then
    let p := r.netCold
    if n.good iso p (objOf p) = false then s.endRun r stOVERFLOW
    else (s.completeIterate (r.warnNet p none) 0 (r.netIter p none (objOf p) none (noCert d))).2
  else
    let st := r.netStep k
    let s := s.spill r
    let r := { r.marked st.mark with pert := r.pert + st.pert }
    let prev := normInf (r.xsAt 4)
    let bad : Nat → Bool := fun j => !n.good iso (st.trial j) (objOf (st.trial j))
    let ok : Nat → Bool := fun j => lt64 (normInf (st.trial j).f) (dMul (dSub one64 (pow64 (-(j : Int) - 2))) prev)
    if (vals st.s).all finite64 = false then s.endRun r stOVERFLOW
    else
      match firstTrial bad ok with
      | none => s.endIter r (if st.mark then stILL else stSTALLED)
      | some j =>
        if bad j then s.endRun r stOVERFLOW
        else
          let p := st.trial j
          let step := dMul (pow64 (-j)) (normInf (vals st.s))
          let conv := le64 (normInf p.f) (fld d 96 8) && le64 step (fld d 104 8)
          let th := if conv then some (n.thermal (r.eng.at 2) iso p.q) else none
          let hot := match th with | some t => !n.goodThermal iso t | none => false
          let th := if hot then none else th
          let x := s.completeIterate (r.warnNet p th) k (r.netIter p (some step) (objOf p) th (noCert d))
          if hot then x.2.endRun x.1 stOVERFLOW
          else if conv then
            x.2.endRun { x.1 with detail := if iso.isEmpty then 0 else detailWord 8 iso.length } stCONVERGED
          else if drfMaxIter d ≤ k then x.2.endIter x.1 stITER else x.2

/-! ## QP -/

/-- The iterate at a point. -/
def DrfRun.qpIter (_r : DrfRun) (v : QpPt) (x : QpVal) (cert : List Nat) : Iter :=
  { octets := qpBuffer v x.ax cert, xs := v.xs, merit := x.merit, resP := some x.p, resD := some x.d, gap := x.mu,
    obj := some x.obj }

def qpGood (v : QpPt) (x : QpVal) : Bool := finite64 x.merit && finite64 x.obj && v.xs.flatten.all finite64

/-- The entry of a certificate of largest magnitude. -/
def certIndex (l : List Nat) : Nat :=
  (l.zipIdx.foldl (fun (b : Nat × Nat) x => if lt64 b.1 (x.1 % 2 ^ 63) then (x.1 % 2 ^ 63, x.2) else b) (0, 0)).2

/-- Iterate `k` of a QP is completed, and ends the job where it is a certificate or meets the tolerances (R221, R222). -/
def State.qpComplete (s : State) (r : DrfRun) (k : Nat) (v : QpPt) (x : QpVal) : State :=
  let d := r.desc
  let y := s.completeIterate r k (r.qpIter v x (noCert d))
  match r.qp.certificate ((r.eng.at 2).at k) v with
  | some w =>
    let s := y.2.wbsEcc (bufAddr d k + drfBufBytes d - 8 * w.length) (words64 w)
    s.endRun { y.1 with cert := some (certIndex w) } stINFEASIBLE
  | none =>
    if le64 x.p (fld d 96 8) && le64 x.d (fld d 104 8) && le64 x.mu (fld d 112 8) then y.2.endRun y.1 stCONVERGED
    else if drfMaxIter d ≤ k then y.2.endIter y.1 stITER else y.2

/-- QP, iterate `k` (R221, R222). -/
def State.qpIterate (s : State) (r : DrfRun) (k : Nat) : State :=
  let p := r.qp
  let val : QpPt → QpVal := p.eval (r.eng.at 6)
  if k = 0 then
    let v := p.cold (r.eng.at 3)
    if qpGood v (val v) then s.qpComplete r 0 v (val v) else s.endRun r stOVERFLOW
  else
    let st := r.qpStep k
    let s := s.spill r
    let r := { r.marked st.mark with pert := r.pert + st.fac.pert }
    match st.fac.neg with
    | some i => s.endRun { r with detail := detailWord 0 i } stNOTCONVEX
    | none =>
      let prev := r.merit.getD 0
      let bad : Nat → Bool := fun j => !qpGood (st.trial j) (val (st.trial j))
      let ok : Nat → Bool := fun j => lt64 (val (st.trial j)).merit prev
      match firstTrial bad ok with
      | none => s.endIter r (if st.mark then stILL else stSTALLED)
      | some j => if bad j then s.endRun r stOVERFLOW else s.qpComplete r k (st.trial j) (val (st.trial j))

/-! ## LINEAR -/

/-- LINEAR, iterate `k` (R210, R224): every column's backward error against the one before. -/
def State.linIterate (s : State) (r : DrfRun) (k : Nat) : State :=
  let d := r.desc
  let n := fld d 64 4
  let cols := fld d 68 1
  if k = 0 then
    let zeros := List.replicate cols (List.replicate n 0)
    let ones := List.replicate cols one64
    (s.completeIterate r 0 { octets := words64 zeros.flatten, xs := zeros, merit := one64, betas := ones }).2
  else
    let tol := if zero64 (fld d 88 8) then fpM40 else fld d 88 8
    let f := r.linFac
    let s := if k = 1 then s.spill r else s
    let r := { r with pert := r.pert + (if k = 1 then f.pert else 0) }
    let new := r.lin.step (r.iterEng k) f k (r.xs.map vecOf) r.betas
    let betas := new.map (·.2)
    let lower := (betas.zip r.betas).all fun x => lt64 x.1 x.2 || (1 < k && le64 x.2 fpM50)
    if (new.all fun x => finite64 x.2 && (vals x.1).all finite64) = false then s.endRun r stOVERFLOW
    else if lower = false then s.endIter r stILL
    else
      let xs := new.map fun x => (List.range n).map x.1.at
      let x := s.completeIterate r k { octets := words64 xs.flatten, xs := xs, merit := normInf betas, betas := betas }
      if betas.all fun b => le64 b tol then x.2.endRun x.1 stCONVERGED
      else if 4 ≤ k ∨ r.pert = 0 then x.2.endIter x.1 stILL
      else x.2

/-! ## Start and iterates (R199, R206, R209, R213, R216, R220, R227) -/

/-- The memory a job's start reads: its arrays. -/
def State.drfRanges (s : State) (d : List Byte) : List (Nat × Nat) :=
  let t := fld d 0 1
  let mat : Nat → List (Nat × Nat) := fun a =>
    let m := s.matAt a
    [(a, 48), (m.colp, 4 * (m.cols + 1)), (m.rowi, 4 * m.nnz), (m.vals, 8 * m.nnz)]
  if t = tNETWORK then
    [(fld d 72 8, 32 * netNodes d), (fld d 80 8, 64 * netBrs d), (fld d 88 8, 256 * netCurves d)]
  else if t = tQP then
    let m := fld d 68 4
    mat (fld d 72 8) ++ (if m = 0 then [] else mat (fld d 80 8)) ++ [(fld d 88 8, 8 * (3 * fld d 64 4 + 2 * m))]
  else mat (fld d 72 8) ++ [(fld d 80 8, 8 * (fld d 64 4 * fld d 68 1))]

/-- An idle engine takes a job and makes the checks that come before its iterates: its fields and input (INVALID), the
reading of its input (MEMORY_ERR), its factor storage (NO_MEMORY), a network's floating components and a QP's crossed bounds
(INFEASIBLE, with the cold-start point and the certificate). -/
def State.startJob (s : State) (n : Nat) (j : DrfJob) : State :=
  let d := j.desc
  let t := fld d 0 1
  let r : DrfRun := { slot := n, start := s.tide, data := d ++ s.drfInput d }
  let s := (s.setRun (some r)).setJob n (some { j with state := 2 })
  let s := s.progStart progDrf 0 (drfMaxIter d)
  match s.drfBad d with
  | some x => s.endRun { r with detail := x } stINVALID
  | none =>
    let bad := (s.readError (s.drfRanges d)).isSome
    let s := s.drfRead (s.drfRanges d) n
    if bad then s.endRun r stMEMERR
    else
      let kb := r.storeKb
      let s := (s.p DRF_MEM_LAST_FACTOR_KB 0 (min kb 16384)).p DRF_MEM_LAST_SPILL_MB 0 (ceilDiv (kb - 16384) 1024)
      if 16384 + 1024 * s.g DRF_SPILL_SIZE_MB < kb then s.endRun { r with detail := detailWord 8 kb } stNOMEM
      else
        let r := if 16384 < kb then { r with warn := 16 } else r
        if t = tNETWORK then
          let net := r.net
          let m := net.comps
          let r := if net.isolated.isEmpty then r else { r with warn := r.warn + 2 }
          match net.starved m with
          | c :: rest =>
            let p := r.netCold
            let cert := (List.range net.nodes).map fun i => if compOf m i = c then one64 else 0
            let x := s.completeIterate (r.warnNet p none) 0
              (r.netIter p none (net.power (r.eng.at 6) net.isolated p) none cert)
            x.2.endRun { x.1 with cert := some c, detail := detailWord 8 (rest.length + 1) } stINFEASIBLE
          | [] => s.setRun (some r)
        else if t = tQP then
          match s.qpCrossed d with
          | some i =>
            let v := r.qp.cold (r.eng.at 3)
            let x := s.completeIterate r 0 (r.qpIter v (r.qp.eval (r.eng.at 6) v) ((noCert d).set i one64))
            x.2.endRun { x.1 with cert := some i } stINFEASIBLE
          | none => s.setRun (some r)
        else s.setRun (some r)

/-- JOB_START (R199, R205): an idle engine takes the next queued job that has not expired. -/
def execJobStart (s : State) : Out' :=
  .next (if s.drf.run.isNone && !(s.drf.posts.any (·.ran)) then
    let s := s.expireJobs
    match s.nextJob with
    | some x => s.startJob x.1 x.2
    | none => s
  else s)

/-- An iterate's work ends: iterate 0 is the cold start (R206). -/
def State.iterate (s : State) (r : DrfRun) : State :=
  let t := fld r.desc 0 1
  if t = tNETWORK then s.netIterate r r.next else if t = tQP then s.qpIterate r r.next else s.linIterate r r.next

/-- An iterate completes in the cycle of an end: the job then ends with that end's status, unless it ended already (R207). -/
def State.iterateAtEnd (s : State) (r : DrfRun) (st : Nat) : State :=
  let t := s.iterate { r with pre := some st }
  match t.drf.run with
  | some r' => t.endRun r' st
  | none => t

/-- The write-back of the next iterate ends: after the end of the job's time nothing completes; in the cycle of that end, or
of a cancel, the iterate does (R204, R207). -/
def State.writeBack (s : State) (go : State → DrfRun → Option Nat → State) : State :=
  match s.drf.run with
  | some r =>
    match s.drfJob r.slot with
    | some j =>
      let e := s.timeEnd j r
      if s.tide < e then go s r none
      else if e ≤ s.tidePrev then s.endCut r stDEADLINE e
      else go s r (some stDEADLINE)
    | none => s
  | none =>
    match s.reopen with
    | some (r, st, t) => if st = stDEADLINE ∨ st = stCANCELLED then go t r (some st) else s
    | none => s

/-- ITERATE_COMPLETE (R206): the write-back of the next iterate ends; `writeErr` where it ended with an error response,
which ends the job with the iterate before (R230). -/
def execIterateComplete (writeErr : Bool) (s : State) : Out' :=
  .next (s.writeBack fun s r st =>
    if writeErr then
      (s.raise .drf DRF_OUTPUT_ERR (some ⟨bufAddr r.desc r.next, 28, 2⟩) r.slot).endCut r stMEMERR s.tide
    else match st with
      | some st => s.iterateAtEnd r st
      | none => s.iterate r)

/-! ## Enable (R229, R231) -/

/-- L_res on any shared SRAM bank Lock (R204, R231). -/
def State.drfLock (s : State) : Nat := listMax ((List.range 16).map fun l => s.lockWait l 7)

/-- The conditions of DRF's check. -/
def State.drfCheck (s : State) : Option (Nat × List Nat) :=
  let size := s.g DRF_SPILL_SIZE_MB * 2 ^ 20
  let a := s.g DRF_SPILL_BASE_ADDR
  if size ≠ 0 ∧ (a % 2 ^ 20 ≠ 0 ∨ s.inDdr a size = false) then some (0x301, [])
  else if 640 < s.drfLock then some (0x302, []) else none

/-- Clearing ENABLE discards every job without a record (R229). -/
def State.drfDisable (s : State) : State :=
  let n := s.drf.jobs.countP fun x => x.2.isSome
  let ids := s.drf.jobs.filterMap fun x => x.2.map (·.item)
  let s := (List.range 64).foldl (fun s k => if (s.drfJob k).isSome then s.setJob k none else s) s
  let s := ids.foldl State.itemGone s
  ({ s with drf := { s.drf with run := none, posts := [], cut := none } }.drfStatus).addSat DRF_COUNTS_DISCARDED 0 n

end Sys2Proof.Machine
end

