-- ==== Sys2Proof/Machine/HostMem.lean ====
section
/-! DEFINITION. Host link, MSI-X, DDR initialisation, MRAM scrub and boot flash (R458 to R478).
Readings and choices: DESIGN CHOICE log 7; DEDUCED log 46. -/

namespace Sys2Proof.Machine

/-! ## Link and MSI-X (R459, R464) -/

/-- The host interface is a lost medium (R35, R53, R459): what its rings have fetched is discarded. -/
def State.hostLose (s : State) : State :=
  { (s.dropItems fun p => s.pathKind p == kHOST).2 with hostLost := true, ringProof := none, rings := s.rings.map fun r => (r.1, { r.2 with cmds := [] }) }

/-- PCIE_LINK_UP (R459): the link has trained, in D0, to a generation and width. -/
def execPcieLinkUp (gen : Fin 5) (width : Fin 5) (s : State) : Out' :=
  .next (((s.p HST_STATUS_LINK 0 1).p HST_STATUS_GEN 0 gen.val).p HST_STATUS_WIDTH 0 width.val)

/-- PCIE_LINK_DOWN (R459, R477): the link goes down or the function enters D3hot. -/
def execPcieLinkDown (s : State) : Out' :=
  .next (if s.on HST_STATUS_LINK then
      let s := ((s.p HST_STATUS_LINK 0 0).p HST_STATUS_GEN 0 0).p HST_STATUS_WIDTH 0 0
      let s := s.hostLose
      if s.on HST_CTRL_ENABLE then s.raise .hst HST_LINK_DOWN none 0 else s
    else s)

/-- Messages that wait on vectors whose masks are clear leave, and their pending bits clear (R464). -/
def State.msixFlush (s : State) : State :=
  if s.msixMask then s
  else (List.range 64).foldl (fun s v =>
    if (s.g HST_MSIX_PBA_PEND (4 * (v / 32))).testBit (v % 32) && !s.on HST_MSIX_CTRL_MASKED (16 * v) then
      (s.msixEmit v).setBit HST_MSIX_PBA_PEND (4 * (v / 32)) (v % 32) false
    else s) s

/-- MSIX_UNMASK (R464): a vector's own mask, or the function mask, is cleared. -/
def execMsixUnmask (vector : Option (Fin 64)) (s : State) : Out' :=
  .next (match vector with
    | some v => (s.p HST_MSIX_CTRL_MASKED (16 * v.val) 0).msixFlush
    | none => { s with msixMask := false }.msixFlush)

/-! ## DDR (R467, R468) -/

def ddrProg : ProgRegs :=
  ⟨MEM_DDR_PROG_PERMYRIAD_STATE, MEM_DDR_PROG_PERMYRIAD_VAL, MEM_DDR_PROG_POSITION_VAL, MEM_DDR_PROG_TOTAL_VAL⟩
def mramProg : ProgRegs :=
  ⟨MEM_MRAM_PROG_PERMYRIAD_STATE, MEM_MRAM_PROG_PERMYRIAD_VAL, MEM_MRAM_PROG_POSITION_VAL, MEM_MRAM_PROG_TOTAL_VAL⟩

def dChan (c : Nat) : Nat := 0x100 * c

/-- Whether channel 1 is populated. -/
def State.chan1 (s : State) : Bool := s.g MEM_DDR_CFG_LOG2_GB (dChan 1) ≠ 0

/-- 64 MB blocks of a channel. -/
def State.ddrBlocks (s : State) (c : Nat) : Nat :=
  if c = 1 ∧ s.chan1 = false then 0 else 16 * 2 ^ s.g MEM_DDR_CFG_LOG2_GB (dChan c)

def State.setInit (s : State) (x : Option DdrRun) : State := { s with memory := { s.memory with init := x } }

/-- A write of MEM_DDR_CMD with OP 1. -/
def State.ddrInit (s : State) (test : Bool) : State :=
  let refuse : Nat → State := fun c => s.p MEM_DDR_CMD_REFUSAL 0 c
  if s.on BCN_CTRL_ENABLE ∨ s.on PAIR_CTRL_ENABLE ∨ (s.on DRF_CTRL_ENABLE = true ∧ s.g DRF_SPILL_SIZE_MB ≠ 0) then
    refuse 0xC10
  else if s.on MEM_CTRL_ENABLE = false ∨ s.memory.init.isSome then refuse 0xC11
  else
    let s := (refuse 0).p MEM_CTRL_DDR_READY 0 0
    let s := (s.p MEM_DDR_STATUS_TRAINED (dChan 0) 0).p MEM_DDR_STATUS_TRAINED (dChan 1) 0
    let s := (s.p MEM_DDR_STATUS_FAIL_BLOCK (dChan 0) 0).p MEM_DDR_STATUS_FAIL_BLOCK (dChan 1) 0
    (s.progStart ddrProg 0 (s.ddrSize / 2 ^ 20)).setInit (some ⟨test, false, 0, 0⟩)

/-- DDR_INIT (R468): OP 1 written to MEM_DDR_CMD, with TEST. -/
def execDdrInit (test : Bool) (s : State) : Out' := .next (s.command fun s => s.ddrInit test)

/-- The INIT ends in failure. -/
def State.ddrFail (s : State) : State := (s.progEnd ddrProg 0 3).setInit none

/-- DDR_TRAINING_END (R468): the training of the channels ends, on one of them perhaps in failure. -/
def execDdrTrainingEnd (failed : Option (Fin 2)) (s : State) : Out' :=
  .next (match s.memory.init with
    | some r =>
      if r.trained then s
      else
        let pass : Nat → Bool := fun c => (c = 0 || s.chan1) && failed.map (·.val) != some c
        let s := (s.p MEM_DDR_STATUS_TRAINED (dChan 0) (bit (pass 0))).p MEM_DDR_STATUS_TRAINED (dChan 1) (bit (pass 1))
        match failed with
        | some c => (s.ddrFail).raise .mem MEM_TRAIN_FAIL none c.val
        | none => s.setInit (some { r with trained := true })
    | none => s)

/-- DDR_BLOCK_DONE (R468): a 64 MB block of a channel is filled and, with TEST, tested, perhaps in failure. -/
def execDdrBlockDone (channel : Fin 2) (failed : Bool) (s : State) : Out' :=
  .next (match s.memory.init with
    | some r =>
      let n := if channel.val = 0 then r.done0 else r.done1
      if r.trained = false ∨ s.ddrBlocks channel.val ≤ n then s
      else if failed && r.test then (s.p MEM_DDR_STATUS_FAIL_BLOCK (dChan channel.val) n).ddrFail
      else
        let s := s.setInit (some (if channel.val = 0 then { r with done0 := n + 1 } else { r with done1 := n + 1 }))
        s.progAt ddrProg 0 (s.g MEM_DDR_PROG_POSITION_VAL + 64)
    | none => s)

/-- DDR_INIT_END (R468): every block is done: DDR holds zeros with valid ECC and is ready. -/
def execDdrInitEnd (s : State) : Out' :=
  .next (match s.memory.init with
    | some r =>
      if r.trained && r.done0 == s.ddrBlocks 0 && r.done1 == s.ddrBlocks 1 then
        let s := { s with mem := s.mem.filter fun x => !ddrKey x.1
                          eccOne := s.eccOne.filter fun k => !ddrKey k
                          eccBad := s.eccBad.filter fun x => match x with | .word k => !ddrKey k | _ => true }
        ((s.progEnd ddrProg 0 2).setInit none).p MEM_CTRL_DDR_READY 0 1
      else s
    | none => s)

/-! ## MRAM scrub (R475) -/

/-- A write of MEM_MRAM_CMD with OP 1; while a scrub runs it has no effect. -/
def State.mramScrub (s : State) : State :=
  if s.memory.scrub then s
  else { s with memory := { s.memory with scrub := true } }.progStart mramProg 0 1024

/-- MRAM_SCRUB (R475): OP 1 written to MEM_MRAM_CMD. -/
def execMramScrub (s : State) : Out' := .next (s.command fun s => s.mramScrub)

/-- The first word of MRAM in which an uncorrectable error stands. -/
def State.mramBad (s : State) : Option Nat :=
  s.eccBad.findSome? fun x => match x with | .word w => if inMram w 1 then some w else none | _ => none

/-- MRAM_SCRUB_END (R475): every word has been read, and rewritten where it was corrected; `uncorrectable`: one of
an area whose words the byte map does not hold (those of the Logbook, the Bonded Store and SYS, R474) is beyond correction. -/
def execMramScrubEnd (uncorrectable : Bool) (s : State) : Out' :=
  .next (if s.memory.scrub then
      let s := { s with memory := { s.memory with scrub := false } }
      let s := (s.progAt mramProg 0 1024).progEnd mramProg 0 2
      let s := s.eccFix mramBase (mramEnd - mramBase)
      if uncorrectable || s.mramBad.isSome then s.raise .mem MEM_MRAM_UNCORR none 0 else s
    else s)

/-! ## Boot flash (R472) -/

def flashBuf : Nat := winBase + 0x1100500

/-- A flash operation is started: 1 READ, 2 PROGRAM, 3 ERASE 4 KB, 4 ERASE 64 KB; other codes have no effect. -/
def State.flashStart (s : State) (op : Nat) : State :=
  let s := s.p MEM_FLASH_CMD_OP 0 op
  let boot := s.g SYS_BOOT_STATUS_STATE
  let a := s.g MEM_FLASH_ADDR_ADDR
  if op = 0 ∨ 4 < op then s
  else if s.on MEM_FLASH_CMD_BUSY = true ∨ (boot ≠ 2 ∧ boot ≠ 3) then s.p MEM_FLASH_CMD_REFUSAL 0 0xC20
  else if 2 ^ (s.g MEM_FLASH_CFG_LOG2_MB) * 2 ^ 20 ≤ a then s.p MEM_FLASH_CMD_REFUSAL 0 0xC21
  else
    { s with memory := { s.memory with flash := some (op, a) } }.p MEM_FLASH_CMD_BUSY 0 1

/-- FLASH_READ (R472): a page is to be read into the buffer. -/
def execFlashRead (s : State) : Out' := .next (s.command fun s => s.flashStart 1)

/-- FLASH_PROGRAM (R472): a page is to be programmed from the buffer. -/
def execFlashProgram (s : State) : Out' := .next (s.command fun s => s.flashStart 2)

/-- FLASH_ERASE_4K (R472). -/
def execFlashErase4k (s : State) : Out' := .next (s.command fun s => s.flashStart 3)

/-- FLASH_ERASE_64K (R472). -/
def execFlashErase64k (s : State) : Out' := .next (s.command fun s => s.flashStart 4)

/-- What the operation does, on the page or sector that holds its address: programming clears bits, erasing sets them. -/
def State.flashDo (s : State) (op a : Nat) : State :=
  let page := a / 256 * 256
  if op = 1 then s.wbs flashBuf (s.rbs (flashKey page) 256)
  else if op = 2 then
    s.wbs (flashKey page) (List.zipWith (· &&& ·) (s.rbs (flashKey page) 256) (s.rbs flashBuf 256))
  else
    let n := if op = 3 then 4096 else 65536
    s.wbs (flashKey (a / n * n)) (List.replicate n 0xFF)

/-- FLASH_OP_END (R472): the operation ends. -/
def execFlashOpEnd (s : State) : Out' :=
  .next (match s.memory.flash with
    | some (op, a) =>
      ({ (s.flashDo op a) with memory := { s.memory with flash := none } }).p MEM_FLASH_CMD_BUSY 0 0
    | none => s)

/-! ## Enable checks (R467, R478) -/

/-- Whether a channel's type, speed and capacity are ones of R465. -/
def State.ddrCfgOk (s : State) (c : Nat) : Bool :=
  let d := dChan c
  let gb := s.g MEM_DDR_CFG_LOG2_GB d
  if s.on MEM_DDR_CFG_DDR5 d then 3 ≤ gb && gb ≤ 5 && s.g MEM_DDR_CFG_SPEED d ≤ 2
  else 2 ≤ gb && gb ≤ 5 && s.g MEM_DDR_CFG_SPEED d ≤ 3

def State.memCheck (s : State) : Chk :=
  firstFail [
    (!s.ddrCfgOk 0, 0xC01, []),
    (s.chan1 && !(s.ddrCfgOk 1 && s.on MEM_DDR_CFG_DDR5 0 == s.on MEM_DDR_CFG_DDR5 (dChan 1) &&
      s.g MEM_DDR_CFG_SPEED 0 == s.g MEM_DDR_CFG_SPEED (dChan 1)), 0xC01, [])]

def State.hstCheck (s : State) : Chk := firstFail [(s.g HST_WIN_BASE_ADDR % 2 ^ 28 != 0, 0xC01, [])]

/-- The check of a ring (R82). -/
def State.ringCheck (s : State) (r : Nat) : Chk :=
  let d := dRing r
  let p := s.g HST_RING_CFG_PATH d
  let k := s.g HST_RING_CFG_LOG2_SIZE d
  firstFail [(!(s.pathOn p && s.pathKind p == kHOST && s.pathTarget p == r && 4 ≤ k && k ≤ 12 &&
    s.g HST_RING_SQ_BASE_BASE d % 4096 == 0 && s.g HST_RING_CQ_BASE_BASE d % 4096 == 0), 0x033, [])]

end Sys2Proof.Machine
end

