-- ==== Sys2Proof/Machine/Mbus.lean ====
section
/-! DEFINITION. Meter bus UARTs (R347 to R353). Readings and choices: DEDUCED log 37. -/

namespace Sys2Proof.Machine

def dUart (u : Nat) : Nat := 0x1000 * u

def State.uart (s : State) (u : Nat) : Uart := AMap.get {} s.uarts u
def State.setUart (s : State) (u : Nat) (x : Uart) : State := { s with uarts := AMap.set {} s.uarts u x }

/-- The transmit and the receive buffer of a UART in the register map. -/
def mbsTx (u : Nat) : Nat := winBase + 0xA81000 + dUart u + 0x400
def mbsRx (u : Nat) : Nat := winBase + 0xA81000 + dUart u + 0x600

/-- Bit/s (R347). -/
def State.baud (s : State) (u : Nat) : Nat := 300 * 2 ^ s.g MBS_CFG_BAUD (dUart u)
/-- Bits of a character with start, parity and stop bits (R347). -/
def State.charBits (s : State) (u : Nat) : Nat :=
  10 + (if s.g MBS_CFG_PARITY (dUart u) = 2 then 0 else 1) + s.g MBS_CFG_STOP2 (dUart u)
/-- `n` sixteenths of a bit time in fabric cycles, a started cycle counted whole. -/
def State.bitCycles (s : State) (u n : Nat) : Nat := (n * 400000000 + 16 * s.baud u - 1) / (16 * s.baud u)
/-- From SEND to DE's release: the crossing of 52.50 ns (R17), DE_LEAD, the characters, TRAIL (R348). -/
def State.sendCycles (s : State) (u len : Nat) : Nat :=
  21 + s.bitCycles u (s.g MBS_TIMING_DE_LEAD (dUart u) + 16 * len * s.charBits u + s.g MBS_TIMING_TRAIL (dUart u))
/-- The response time (R348). -/
def State.respCycles (s : State) (u : Nat) : Nat :=
  s.bitCycles u (16 * s.g MBS_RESP_RESP_BITS (dUart u)) + 400000 * s.g MBS_RESP_RESP_MS (dUart u)

/-- A write of MBS_CMD with SEND (R348, R349). A disabled UART refuses with 0x741 (log 37). -/
def State.mbsSend (s : State) (u len : Nat) : State :=
  let d := dUart u
  let refuse : Nat → State := fun c => s.p MBS_STATUS_REFUSAL d c
  if s.on MBS_CFG_ENABLE d = false ∨ ¬ (s.mode = COMMISSION ∨ s.mode = RUN ∨ s.mode = FACTORY) ∨ (s.uart u).phase ≠ 0 ∨
      ((s.mode = COMMISSION ∨ s.mode = FACTORY) ∧ s.on MBS_CFG_COMM_EN d = false) then refuse 0x741
  else if len = 0 ∨ 512 < len then refuse 0x742
  else (s.setUart u ⟨1, s.rbs (mbsTx u) len, s.fab + s.sendCycles u len⟩).p MBS_STATUS_BUSY d 1

/-- MBS_SEND (R348): a write of SEND with LENGTH. -/
def execMbsSend (uart : Fin 8) (length : Fin 1024) (s : State) : Out' :=
  .next (s.command fun s => s.mbsSend uart.val length.val)

/-- MBS_TELEGRAM_SENT (R348): TRAIL after the last stop bit; the response timer starts. Nothing happens earlier. Where the mode holds the pins at
mark the telegram has not left (R350). -/
def execMbsTelegramSent (uart : Fin 8) (s : State) : Out' :=
  let u := uart.val
  let x := s.uart u
  .next (if x.phase = 1 ∧ x.due ≤ s.fab then
      let s := s.setUart u ⟨2, [], s.fab + s.respCycles u⟩
      if s.mode = COMMISSION ∨ s.mode = RUN ∨ s.mode = FACTORY then s.emit (.uart u x.tx) else s
    else s)

/-- A valid EN 13757-2 single character, short frame or long frame, its check sum included. -/
def mbusFrameOk (l : List Byte) : Bool :=
  let a : Nat → Nat := fun i => (l.getD i 0).toNat
  let n := l.length
  if n = 1 then a 0 = 0xE5
  else if n = 5 then a 0 = 0x10 && (a 1 + a 2) % 256 = a 3 && a 4 = 0x16
  else
    9 ≤ n && a 0 = 0x68 && a 3 = 0x68 && a 1 = a 2 && a 1 + 6 = n && a (n - 1) = 0x16 &&
      (((l.drop 4).take (a 1)).map BitVec.toNat).sum % 256 = a (n - 2)

/-- MBS_TELEGRAM_END (R348, R349, R352): RX has been idle for GAP bit times after the characters received, with the
counts of parity and framing errors. With HALF_DUPLEX nothing is received while DE is asserted. `ecc`: the telegram is
discarded with ECC_UNCORR. -/
def execMbsTelegramEnd (uart : Fin 8) (octets : List Byte) (parity framing : BitVec 16) (ecc : Bool) (s : State) : Out' :=
  let u := uart.val
  let d := dUart u
  let x := s.uart u
  .next (if s.on MBS_CFG_ENABLE d && !octets.isEmpty && !(s.on MBS_CFG_HALF_DUPLEX d && x.phase == 1) then
      let s := if x.phase = 2 then (s.setUart u {}).p MBS_STATUS_BUSY d 0 else s
      if ecc then s.raise .mbs MBS_ECC_UNCORR none 0
      else
        let l := octets.take 512
        let s := (s.addSat MBS_COUNT_PARITY d parity.toNat).addSat MBS_COUNT_FRAMING d framing.toNat
        let s := (s.wbs (mbsRx u) l).p MBS_STATUS_RX_LEN d l.length
        let s := s.p MBS_STATUS_OVERRUN d (bit (decide (512 < octets.length)))
        let s := s.p MBS_STATUS_CHAR_ERR d (bit (decide (0 < parity.toNat + framing.toNat)))
        let s := s.p MBS_STATUS_BAD_FRAME d (bit (s.on MBS_CFG_FRAME_CHECK d && !mbusFrameOk octets))
        (s.hw MBS_STATUS_RX_DONE d 1).fireEdge (srcMbs u)
    else s)

/-- MBS_RESPONSE_TIMEOUT (R348): no start bit within the response time, which must have passed. -/
def execMbsResponseTimeout (uart : Fin 8) (s : State) : Out' :=
  let u := uart.val
  let d := dUart u
  .next (if (s.uart u).phase = 2 ∧ (s.uart u).due ≤ s.fab then
      (((s.setUart u {}).p MBS_STATUS_BUSY d 0).hw MBS_STATUS_TIMEOUT d 1).fireEdge (srcMbs u)
    else s)

/-- A UART's check (R353), and its disabling. -/
def State.mbsCheck (s : State) (u : Nat) : Chk :=
  let d := dUart u
  firstFail [(s.g MBS_CFG_PARITY d == 3 || decide (s.g MBS_TIMING_GAP d < 2), 0x740, [])]
def State.mbsDisable (s : State) (u : Nat) : State := (s.setUart u {}).p MBS_STATUS_BUSY (dUart u) 0

end Sys2Proof.Machine
end

