-- ==== Sys2Proof/Machine/NetPort.lean ====
section
/-! DEFINITION. Ethernet ports: enable check, link, MDIO, other traffic's limits, gate control (R304 to R307, R311, R313,
R314, R332). Readings and choices: DEDUCED log 36. -/

namespace Sys2Proof.Machine

/-! ## Check (R332) -/

/-- Whether a port supports a RATE and an IF together (R304). -/
def rateIfOk (p rate ifc : Nat) : Bool :=
  if p < 2 then
    (ifc == 3 && rate == 5) || (ifc == 2 && decide (2 ≤ rate) && decide (rate ≤ 5)) || (ifc == 0 && rate == 2)
  else if p < 4 then decide (ifc ≤ 1) && decide (rate ≤ 2)
  else decide (ifc ≤ 1) && rate == 2

/-- Whether a host ring is misplaced: 2,048-byte entries, 2^k of them (R310). -/
def hostRingBad (base k : Nat) : Bool := base % 64 != 0 || decide (k < 4) || decide (12 < k) || !inSram base (2048 * 2 ^ k)

def otherMaxOk (n : Nat) : Bool := 64 ≤ n && n ≤ 1518

/-- The registers held responsible for an administrative list of a port that cannot run (0x610): its length, its cycle, an
entry of INTERVAL 0, or entries none of which opens OTHER_TC. -/
def State.adminBad (s : State) (p : Nat) : Option (List Nat) :=
  let d := dPort p
  let n := s.g NET_GCL_ADMIN_LEN_LEN d
  let entry : Nat → Nat := fun e => NET_GCL_ADMIN_ENTRY_GATES.off + d + 4 * e
  if n = 0 then none
  else if 256 < n then some [NET_GCL_ADMIN_LEN_LEN.off + d]
  else
    let l := s.adminList p
    if l.cycle < 8 ∨ 1000000000 < l.cycle ∨ l.cycle % 8 ≠ 0 then some [NET_GCL_ADMIN_CYCLE_CYCLE_NS.off + d]
    else match (List.range n).find? fun e => s.g NET_GCL_ADMIN_ENTRY_INTERVAL (d + 4 * e) == 0 with
      | some e => some [entry e]
      | none =>
        if l.entries.any fun e => e.1.testBit (s.g NET_PORT_OTHER_OTHER_TC d) then none
        else some ((List.range n).map entry)

/-- The need of a port's check: a PTP state other than DISABLED needs TID (R332). -/
def State.netNeeds (s : State) (p : Nat) : Bool :=
  s.on TID_CTRL_ENABLE || 4 ≤ p || (s.ptpState p 0 == 0 && s.ptpState p 1 == 0)

/-- A port's check after its need (R332). -/
def State.netCheck (s : State) (p : Nat) : Chk :=
  let d := dPort p
  let m0 := s.g NET_PORT_MAC_LO_OCTETS_0_3 d
  firstFail [
    (!rateIfOk p (s.g NET_PORT_CTRL_RATE d) (s.g NET_PORT_CTRL_IF d), 0x601, [NET_PORT_CTRL_RATE.off + d]),
    ((m0 == 0 && s.g NET_PORT_MAC_HI_OCTETS_4_5 d == 0) || m0.testBit 24, 0x602, [NET_PORT_MAC_LO_OCTETS_0_3.off + d]),
    (hostRingBad (s.g NET_PORT_RXQ_BASE_ADDR d) (s.g NET_PORT_RXQ_CFG_LOG2_SIZE d) ||
      hostRingBad (s.g NET_PORT_TXQ_BASE_ADDR d) (s.g NET_PORT_TXQ_CFG_LOG2_SIZE d), 0x603, []),
    (!otherMaxOk (s.g NET_PORT_OTHER_OTHER_MAX d), 0x604, [NET_PORT_OTHER_OTHER_MAX.off + d]),
    (decide (p < 4) && (s.adminBad p).isSome, 0x610, (s.adminBad p).getD [])]

/-! ## Gates (R313, R314) -/

/-- The gates of a field port at the present Tide time. -/
def State.setGates (s : State) (p : Nat) : State :=
  if p < 4 then
    let l := s.operList p
    let k := s.port p
    let t := s.tideNs
    let e := if l.entries = [] then 0 else spanIndex (l.phase t) l.spans
    s.setPort p { k with gates := l.gatesAt t, entry := e }
  else s

/-- GATE_ENTRY_CHANGE (R313): the gates take the entry of the operating list in progress. -/
def execGateEntryChange (port : Fin 4) (s : State) : Out' := .next (s.setGates port.val)

/-- The administrative list comes into operation (R314). -/
def State.changeover (s : State) (p t : Nat) : State :=
  let d := dPort p
  let n := s.g NET_GCL_ADMIN_LEN_LEN d
  let s := (List.range (max n (s.g NET_GCL_STATUS_OPER_LEN d))).foldl (fun s e =>
    let k := d + 4 * e
    if e < n then
      (s.p NET_GCL_OPER_ENTRY_GATES k (s.g NET_GCL_ADMIN_ENTRY_GATES k)).p NET_GCL_OPER_ENTRY_INTERVAL k
        (s.g NET_GCL_ADMIN_ENTRY_INTERVAL k)
    else (s.p NET_GCL_OPER_ENTRY_GATES k 0).p NET_GCL_OPER_ENTRY_INTERVAL k 0) s
  let s := (s.p NET_GCL_STATUS_OPER_LEN d n).p NET_GCL_OPER_CYCLE_CYCLE_NS d (s.g NET_GCL_ADMIN_CYCLE_CYCLE_NS d)
  let s := s.putTime NET_GCL_OPER_BASE_NS_NANOSECONDS d (s.timeNs NET_GCL_ADMIN_BASE_NS_NANOSECONDS d)
  let s := (s.putTime NET_GCL_CHANGE_TIME_NS_NANOSECONDS d t).p NET_GCL_STATUS_PENDING d 0
  (s.setPort p { s.port p with chg := none }).setGates p

/-- GATE_LIST_CHANGEOVER (R314): T' of the pending changeover has come; nothing where it has not. -/
def execGateListChangeover (port : Fin 4) (s : State) : Out' :=
  .next (match (s.port port.val).chg with
    | some t => if t ≤ s.tideNs then s.changeover port.val t else s
    | none => s)

/-- A PULL makes a port's administrative list live at a Tide time in ns: T', PENDING (R314). -/
def State.listPulled (s : State) (p a : Nat) : State :=
  let t := changeTime (s.operList p) (s.adminList p) a
  (s.setPort p { s.port p with chg := some t }).p NET_GCL_STATUS_PENDING (dPort p) 1

/-! ## Enable, link (R306, R307) -/

/-- A port is enabled: no longer a lost medium, unless LINK has fallen and not returned before; the host ring's entries
wait. -/
def State.portEnable (s : State) (p : Nat) : State :=
  let d := dPort p
  let k := s.port p
  let n := ringUsed (s.g NET_PORT_TXQ_CFG_LOG2_SIZE d) (s.g NET_PORT_TXQ_HEAD_INDEX d) (s.g NET_PORT_TXQ_TAIL_INDEX d)
  let f : TxFrame := ⟨s.g NET_PORT_OTHER_OTHER_TC d, .ring, none, 0⟩
  (s.setPort p { k with lost := k.fell, busy := none, queue := List.replicate n f }).setGates p

/-- A port is disabled: LINK falls at once, uncounted; a lost medium (R307). -/
def State.portDisable (s : State) (p : Nat) : State := (s.losePort p).p NET_PORT_STATUS_LINK (dPort p) 0

/-- PORT_LINK_UP (R306, R307): the link comes up at the rate that the partner signals, reported on SGMII and USXGMII; a
partner at another rate leaves LINK at 0. -/
def execPortLinkUp (port : Fin 5) (seen : Fin 16) (s : State) : Out' :=
  let d := dPort port.val
  let ifc := s.g NET_PORT_CTRL_IF d
  .next (if s.on NET_PORT_CTRL_ENABLE d && !s.on NET_PORT_STATUS_LINK d then
      let s := if ifc = 0 ∨ ifc = 2 then s.p NET_PORT_STATUS_RATE_SEEN d seen.val else s
      if ifc = 3 ∨ seen.val = s.g NET_PORT_CTRL_RATE d then
        (s.p NET_PORT_STATUS_LINK d 1).setPort port.val { s.port port.val with fell := false }
      else s
    else s)

/-- PORT_LINK_DOWN (R307): LINK falls while the port is enabled. -/
def execPortLinkDown (port : Fin 5) (s : State) : Out' :=
  let d := dPort port.val
  .next (if s.on NET_PORT_CTRL_ENABLE d && s.on NET_PORT_STATUS_LINK d then
      let s := ((s.p NET_PORT_STATUS_LINK d 0).incSat NET_PORT_STATUS_LINK_DOWNS d).losePort port.val
      s.setPort port.val { s.port port.val with fell := true }
    else s)

/-! ## MDIO (R307) -/

/-- A write of NET_PORT_MDIO: the fields are taken; BUSY written 1 while it reads 0 starts the operation. -/
def State.mdioWrite (s : State) (p v : Nat) : State :=
  let d := dPort p
  let s := ((((s.p NET_PORT_MDIO_C45 d (bits v 30 1)).p NET_PORT_MDIO_OP d (bits v 28 2)).p NET_PORT_MDIO_PHYAD d
    (bits v 23 5)).p NET_PORT_MDIO_REGAD d (bits v 18 5)).p NET_PORT_MDIO_DATA d (bits v 0 16)
  if v.testBit 31 ∧ s.on NET_PORT_MDIO_BUSY d = false then
    ((s.p NET_PORT_MDIO_BUSY d 1).setPort p { s.port p with mdio := some v }).emit (.mdio p (v % 2 ^ 31))
  else s

/-- MDIO_OP (R307): a write of NET_PORT_MDIO. -/
def execMdioOp (port : Fin 5) (value : BitVec 32) (s : State) : Out' :=
  .next (s.command fun s => s.mdioWrite port.val value.toNat)

/-- MDIO_OP_END (R307): the operation in progress ends, a read with the data that the PHY gives. -/
def execMdioOpEnd (port : Fin 5) (data : BitVec 16) (s : State) : Out' :=
  let d := dPort port.val
  .next (match (s.port port.val).mdio with
    | none => s
    | some v =>
      let s := (s.p NET_PORT_MDIO_BUSY d 0).setPort port.val { s.port port.val with mdio := none }
      if 2 ≤ bits v 28 2 then s.p NET_PORT_MDIO_DATA d data.toNat else s)

/-! ## Other traffic (R311) -/

/-- A write of NET_PORT_OTHER: ignored with OTHER_MAX out of range while the port is enabled; admitted under R29 while
any path is enabled or draining. -/
def State.otherWrite (s : State) (p tc max : Nat) : State :=
  let d := dPort p
  let t := (s.p NET_PORT_OTHER_OTHER_TC d tc).p NET_PORT_OTHER_OTHER_MAX d max
  if s.on NET_PORT_CTRL_ENABLE d && !otherMaxOk max then s.p NET_PORT_CTRL_REFUSAL d 0x604
  else if t = s then s
  else if s.anyPath then
    let x := s.admitChange t
    if x.1 then (x.2.p NET_PORT_OTHER_OTHER_TC d tc).p NET_PORT_OTHER_OTHER_MAX d max
    else x.2.p NET_PORT_CTRL_REFUSAL d 0x04B
  else t

/-- OTHER_WRITE (R311): a write of OTHER_TC and OTHER_MAX. -/
def execOtherWrite (port : Fin 5) (tc : Fin 8) (max : Fin 2048) (s : State) : Out' :=
  .next (s.command fun s => s.otherWrite port.val tc.val max.val)

end Sys2Proof.Machine
end

