-- ==== Sys2Proof/Machine/Ptp.lean ====
section
/-! DEFINITION. The PTP engine: messages received and sent, offset samples, mean path delay, neighbour rate ratio
(R319, R321 to R323). Times are Tide times in 2⁻¹⁶ ns. Readings and choices: DEDUCED log 36. -/

namespace Sys2Proof.Machine

/-- messageType values of IEEE 1588. -/
def mSync : Nat := 0
def mDelayReq : Nat := 1
def mPdelayReq : Nat := 2
def mPdelayResp : Nat := 3
def mFollowUp : Nat := 8
def mDelayResp : Nat := 9
def mPdelayRespFollowUp : Nat := 10

/-- A timestamp field (48 bits of seconds, 32 of nanoseconds) in 2⁻¹⁶ ns. -/
def wireTime (x : Nat) : Int := ((x / 2 ^ 32 * 1000000000 + x % 2 ^ 32) * 65536 : Nat)

/-- The identity of a port: EUI-64 of its MAC, then the port number from 1. -/
def State.portIdentity (s : State) (p : Nat) : Nat :=
  let m := s.portMac p
  beNat (m.take 3 ++ [0xFF, 0xFE] ++ m.drop 3) * 65536 + (p + 1)

/-- The domain of a message on a port: enabled, of that number, not DISABLED there. -/
def State.msgDomain (s : State) (p dn : Nat) : Option Nat :=
  if s.on TID_CTRL_ENABLE && s.on NET_PORT_CTRL_ENABLE (dPort p) then
    [0, 1].find? fun d => s.on TID_DOM_CFG_ENABLE (dDom d) && s.g TID_DOM_CFG_DOMAIN_NUMBER (dDom d) == dn &&
      s.ptpState p d != 0
  else none

def State.ptpPort (s : State) (p d : Nat) : PtpPort := AMap.get {} (s.port p).ptp d
def State.setPtpPort (s : State) (p d : Nat) (x : PtpPort) : State :=
  let k := s.port p
  s.setPort p { k with ptp := AMap.set {} k.ptp d x }

/-- The time-stamps of a frame received, whose first octet after the SFD passes now (DESIGN CHOICE log 36), and of one whose
preamble, eight octets before it, starts now (R319). -/
def State.rxStamp (s : State) (p : Nat) : Nat :=
  ((s.tide : Int) + toSigned 32 (s.g NET_PORT_RX_LAT_LAT (dPort p))).toNat
def State.txStamp (s : State) (p : Nat) : Nat :=
  ((s.tide : Int) + 64000 * 65536 / s.portRate p + toSigned 32 (s.g NET_PORT_TX_LAT_LAT (dPort p))).toNat

/-- Octets of a PTP message: a 34-octet header, a time, and in the delay messages a port identity or as many zeros. -/
def ptpOctetCount (type : Nat) : Nat := if type = mSync ∨ type = mDelayReq ∨ type = mFollowUp then 44 else 54

/-- Octets, from destination address to FCS, of a frame that carries a PTP message of a domain's transport. -/
def State.ptpLen (s : State) (p d type : Nat) : Nat :=
  let n := ptpOctetCount type
  let t := s.g NET_PTP_CFG_TRANSPORT (dPtp p d)
  frameOctets t (if t = 2 then n + 2 else n) false

/-- Queue a message: other traffic of the port (R323). -/
def State.ptpSend (s : State) (p d : Nat) (m : PtpMsg) : State := s.queueOther p (.ptp m) (s.ptpLen p d m.type)

/-! ## Slave side (R322) -/

/-- The mean path delay takes half a sum, whose rounding the spec leaves open. -/
def State.setMeanDelay (s : State) (p d : Nat) (twice : Int) : State :=
  let x := s.roundOpen twice 2
  x.2.p NET_PTP_DELAY_MEAN_DELAY (dPtp p d) (ofSigned 32 x.1)

/-- A complete Sync: its sample goes to the servo. `t1` is the origin time with the corrections. -/
def State.syncDone (s : State) (p d t2 : Nat) (t1 : Int) : State :=
  let s := s.setPtpPort p d { s.ptpPort p d with sync := none, lastSync := some (t2, t1) }
  let s := s.inc NET_PTP_COUNT_SYNC_RX (dPtp p d)
  s.sample d ((t2 : Int) - t1 - s.g NET_PTP_DELAY_MEAN_DELAY (dPtp p d))

/-- A Sync received in a domain. -/
def State.syncIn (s : State) (p dn seq : Nat) (two : Bool) (origin : Nat) (corr : Int) : State :=
  match s.msgDomain p dn with
  | none => s
  | some d =>
    if s.ptpState p d = 1 then
      let t2 := s.rxStamp p
      if two then s.setPtpPort p d { s.ptpPort p d with sync := some (seq, t2, corr) }
      else s.syncDone p d t2 (wireTime origin + corr)
    else s

/-- SYNC (R322): a Sync received on a port: domainNumber, sequenceId, whether two-step, originTimestamp, correctionField. -/
def execSync (port : Fin 4) (dn : BitVec 8) (seq : BitVec 16) (two : Bool) (origin : BitVec 80) (corr : BitVec 64)
    (s : State) : Out' :=
  .next (s.syncIn port.val dn.toNat seq.toNat two origin.toNat corr.toInt)

def State.followUpIn (s : State) (p dn seq origin : Nat) (corr : Int) : State :=
  match s.msgDomain p dn with
  | none => s
  | some d =>
    match (s.ptpPort p d).sync with
    | some (q, t2, c) => if s.ptpState p d = 1 ∧ q = seq then s.syncDone p d t2 (wireTime origin + c + corr) else s
    | none => s

/-- FOLLOW_UP (R322): preciseOriginTimestamp and correctionField of the Sync of that sequenceId. -/
def execFollowUp (port : Fin 4) (dn : BitVec 8) (seq : BitVec 16) (origin : BitVec 80) (corr : BitVec 64)
    (s : State) : Out' :=
  .next (s.followUpIn port.val dn.toNat seq.toNat origin.toNat corr.toInt)

def State.delayRespIn (s : State) (p dn seq req recv : Nat) (corr : Int) : State :=
  match s.msgDomain p dn with
  | none => s
  | some d =>
    let x := s.ptpPort p d
    match x.req, x.lastSync with
    | some (q, some t3), some (t2, t1) =>
      if s.ptpState p d = 1 ∧ s.on NET_PTP_CFG_P2P (dPtp p d) = false ∧ q = seq ∧ req = s.portIdentity p then
        (s.setPtpPort p d { x with req := none }).setMeanDelay p d (((t2 : Int) - t3) + (wireTime recv - t1) - corr)
      else s
    | _, _ => s

/-- DELAY_RESP (R322): requestingPortIdentity, receiveTimestamp, correctionField. -/
def execDelayResp (port : Fin 4) (dn : BitVec 8) (seq : BitVec 16) (req : BitVec 80) (recv : BitVec 80)
    (corr : BitVec 64) (s : State) : Out' :=
  .next (s.delayRespIn port.val dn.toNat seq.toNat req.toNat recv.toNat corr.toInt)

def State.pdelayRespIn (s : State) (p dn seq : Nat) (two : Bool) (req recv : Nat) (corr : Int) : State :=
  match s.msgDomain p dn with
  | none => s
  | some d =>
    let x := s.ptpPort p d
    match x.req with
    | some (q, some t1) =>
      if s.on NET_PTP_CFG_P2P (dPtp p d) = true ∧ q = seq ∧ req = s.portIdentity p then
        let t4 := s.rxStamp p
        if two then s.setPtpPort p d { x with presp := some ((wireTime recv).toNat, t4, corr) }
        else (s.setPtpPort p d { x with req := none }).setMeanDelay p d (((t4 : Int) - t1) - corr)
      else s
    | _ => s

/-- PDELAY_RESP (R321): requestingPortIdentity, requestReceiptTimestamp, correctionField; a one-step one completes the
exchange. -/
def execPdelayResp (port : Fin 4) (dn : BitVec 8) (seq : BitVec 16) (two : Bool) (req : BitVec 80) (recv : BitVec 80)
    (corr : BitVec 64) (s : State) : Out' :=
  .next (s.pdelayRespIn port.val dn.toNat seq.toNat two req.toNat recv.toNat corr.toInt)

/-- The neighbour rate ratio from two exchanges: (t3 − t3') / (t4 − t4') − 1 in 2⁻⁴¹. -/
def State.setRatio (s : State) (p d : Nat) (t3 : Int) (t4 : Nat) (prev : Option (Int × Nat)) : State :=
  match prev with
  | some (u3, u4) =>
    let den : Int := (t4 : Int) - u4
    if 0 < den then
      let x := s.roundOpen (((t3 - u3) - den) * (2 ^ 41 : Nat)) den.toNat
      x.2.p NET_PTP_RATIO_NRR (dPtp p d) (ofSigned 32 x.1)
    else s
  | none => s

def State.pdelayRespFuIn (s : State) (p dn seq req origin : Nat) (corr : Int) : State :=
  match s.msgDomain p dn with
  | none => s
  | some d =>
    let x := s.ptpPort p d
    match x.req, x.presp with
    | some (q, some t1), some (t2, t4, c) =>
      if s.on NET_PTP_CFG_P2P (dPtp p d) = true ∧ q = seq ∧ req = s.portIdentity p then
        let t3 := wireTime origin
        let s := s.setPtpPort p d { x with req := none, presp := none, prev := some (t3 + corr, t4) }
        (s.setMeanDelay p d (((t4 : Int) - t1) - (t3 - t2) - c - corr)).setRatio p d (t3 + corr) t4 x.prev
      else s
    | _, _ => s

/-- PDELAY_RESP_FOLLOW_UP (R321): requestingPortIdentity, responseOriginTimestamp, correctionField. -/
def execPdelayRespFollowUp (port : Fin 4) (dn : BitVec 8) (seq : BitVec 16) (req : BitVec 80) (origin : BitVec 80)
    (corr : BitVec 64) (s : State) : Out' :=
  .next (s.pdelayRespFuIn port.val dn.toNat seq.toNat req.toNat origin.toNat corr.toInt)

/-! ## Master side (R323) -/

def State.delayReqIn (s : State) (p dn seq src : Nat) (corr : Int) : State :=
  match s.msgDomain p dn with
  | none => s
  | some d =>
    if s.ptpState p d = 2 ∧ s.on NET_PTP_CFG_P2P (dPtp p d) = false then
      let t := s.rxStamp p
      s.ptpSend p d ⟨mDelayResp, dn, seq, false, t / 65536, corr - (t % 65536 : Nat), src, d⟩
    else s

/-- DELAY_REQ (R323): answered with Delay_Resp in MASTER state: sourcePortIdentity, correctionField. -/
def execDelayReq (port : Fin 4) (dn : BitVec 8) (seq : BitVec 16) (src : BitVec 80) (corr : BitVec 64) (s : State) :
    Out' :=
  .next (s.delayReqIn port.val dn.toNat seq.toNat src.toNat corr.toInt)

/-- A Pdelay_Resp that is one-step holds t2 until it leaves. -/
def State.pdelayReqIn (s : State) (p dn seq src : Nat) (corr : Int) : State :=
  match s.msgDomain p dn with
  | none => s
  | some d =>
    if s.ptpState p d = 2 ∧ s.on NET_PTP_CFG_P2P (dPtp p d) = true then
      let t := s.rxStamp p
      let s := s.setPtpPort p d { s.ptpPort p d with respSeq := (seq + 1) % 65536 }
      if s.on NET_PTP_CFG_ONE_STEP_TX (dPtp p d) then s.ptpSend p d ⟨mPdelayResp, dn, seq, false, t, 0, src, d⟩
      else s.ptpSend p d ⟨mPdelayResp, dn, seq, true, t / 65536, corr - (t % 65536 : Nat), src, d⟩
    else s

/-- PDELAY_REQ (R323): answered with Pdelay_Resp in MASTER state: sourcePortIdentity, correctionField. -/
def execPdelayReq (port : Fin 4) (dn : BitVec 8) (seq : BitVec 16) (src : BitVec 80) (corr : BitVec 64) (s : State) :
    Out' :=
  .next (s.pdelayReqIn port.val dn.toNat seq.toNat src.toNat corr.toInt)

/-- Whether a port runs a domain now. -/
def State.ptpRuns (s : State) (p d : Nat) : Bool :=
  s.on TID_CTRL_ENABLE && s.on TID_DOM_CFG_ENABLE (dDom d) && s.on NET_PORT_CTRL_ENABLE (dPort p) &&
    s.on NET_PORT_STATUS_LINK (dPort p)

/-- An interval of 2^log s in fabric cycles. -/
def logCycles (log : Int) : Nat := if 0 ≤ log then 400000000 * 2 ^ log.toNat else 400000000 / 2 ^ (-log).toNat

/-- Whether an interval has passed since a message was last sent. -/
def State.intervalOver (s : State) (last : Option Nat) (log : Nat) : Bool :=
  match last with
  | some t => decide (t + logCycles (toSigned 4 log) ≤ s.fab)
  | none => true

/-- SYNC_SEND (R323): the Sync interval of a MASTER port has passed; nothing on a port that is not MASTER. -/
def execSyncSend (port : Fin 4) (domain : Fin 2) (s : State) : Out' :=
  let k := dPtp port.val domain.val
  let x := s.ptpPort port.val domain.val
  .next (if s.ptpRuns port.val domain.val && s.ptpState port.val domain.val == 2 &&
        s.intervalOver x.syncAt (s.g NET_PTP_CFG_LOG_SYNC k) then
      let s := s.setPtpPort port.val domain.val { x with syncAt := some s.fab }
      let two := !s.on NET_PTP_CFG_ONE_STEP_TX k
      (s.ptpSend port.val domain.val ⟨mSync, s.g TID_DOM_CFG_DOMAIN_NUMBER (dDom domain.val),
        s.g NET_PTP_COUNT_SYNC_TX k, two, 0, 0, 0, domain.val⟩).inc NET_PTP_COUNT_SYNC_TX k
    else s)

/-- DELAY_REQ_SEND (R322): the delay request interval of a SLAVE port has passed. -/
def execDelayReqSend (port : Fin 4) (domain : Fin 2) (s : State) : Out' :=
  let p := port.val
  let d := domain.val
  let x := s.ptpPort p d
  .next (if s.ptpRuns p d && s.ptpState p d == 1 && s.intervalOver x.reqAt (s.g NET_PTP_CFG_LOG_DELAY (dPtp p d)) then
      let s := s.setPtpPort p d { x with reqAt := some s.fab, reqSeq := (x.reqSeq + 1) % 65536, req := some (x.reqSeq, none), presp := none }
      s.ptpSend p d ⟨if s.on NET_PTP_CFG_P2P (dPtp p d) then mPdelayReq else mDelayReq,
        s.g TID_DOM_CFG_DOMAIN_NUMBER (dDom d), x.reqSeq, false, 0, 0, s.portIdentity p, d⟩
    else s)

/-! ## Times put in as a message leaves (R319, R323) -/

/-- The octets of a PTP message, as IEEE 1588-2019 (version 2.1) lays it out (R321): PRESUMED log 36 for what R321 to R323 do
not themselves state: majorSdoId, flags, controlField and logMessageInterval. -/
def State.ptpOctets (s : State) (p : Nat) (m : PtpMsg) : List Byte :=
  let k := dPtp p m.ix
  let sdo := if s.g TID_DOM_CFG_PROFILE (dDom m.ix) = 1 then 1 else 0
  let control := if m.type = mSync then 0 else if m.type = mDelayReq then 1 else if m.type = mFollowUp then 2
    else if m.type = mDelayResp then 3 else 5
  let log : Int := if m.type = mSync ∨ m.type = mFollowUp then s.gs NET_PTP_CFG_LOG_SYNC k
    else if m.type = mDelayResp then s.gs NET_PTP_CFG_LOG_DELAY k else 127
  beBytes 1 (16 * sdo + m.type) ++ beBytes 1 0x12 ++ beBytes 2 (ptpOctetCount m.type) ++ beBytes 1 m.dom ++ [0] ++
    beBytes 1 (if m.two then 2 else 0) ++ [0] ++ beBytes 8 (ofSigned 64 m.corr) ++ [0, 0, 0, 0] ++
    beBytes 10 (s.portIdentity p) ++ beBytes 2 m.seq ++ beBytes 1 control ++ beBytes 1 (ofSigned 8 log) ++
    beBytes 6 (m.ns / 1000000000) ++ beBytes 4 (m.ns % 1000000000) ++
    (if ptpOctetCount m.type = 44 then [] else
      if m.type = mPdelayReq then List.replicate 10 0 else beBytes 10 m.req)

/-- The destination of a message on a transport (IEEE 1588 annexes, PRESUMED log 36): MAC, and IP address. -/
def ptpDest (transport type profile : Nat) : List Byte × List Byte :=
  let peer : Bool := type == mPdelayReq || type == mPdelayResp || type == mPdelayRespFollowUp
  if transport = 0 then
    (if peer || profile == 1 then [0x01, 0x80, 0xC2, 0, 0, 0x0E] else [0x01, 0x1B, 0x19, 0, 0, 0], [])
  else if transport = 1 then
    if peer then ([0x01, 0, 0x5E, 0, 0, 0x6B], [224, 0, 0, 107]) else ([0x01, 0, 0x5E, 0, 0x01, 0x81], [224, 0, 1, 129])
  else if peer then ([0x33, 0x33, 0, 0, 0, 0x6B], [0xFF, 0x02] ++ List.replicate 13 0 ++ [0x6B])
  else ([0x33, 0x33, 0, 0, 0x01, 0x81], [0xFF, 0x0E] ++ List.replicate 12 0 ++ [0x01, 0x81])

/-- The frame of a message as it leaves, `m`, which was `q` before its time was put in (R323): over IPv4 the UDP checksum is
0; over IPv6 it is the checksum before, and the two octets after the message keep it valid. -/
def State.ptpFrame (s : State) (p : Nat) (q m : PtpMsg) : List Byte × State :=
  let t := s.g NET_PTP_CFG_TRANSPORT (dPtp p m.ix)
  let dst := ptpDest t m.type (s.g TID_DOM_CFG_PROFILE (dDom m.ix))
  let msg := s.ptpOctets p m
  let port := if m.type < 8 then 319 else 320
  let head : Nat → List Byte := fun n => beBytes 2 port ++ beBytes 2 port ++ beBytes 2 (n + 8)
  if t = 1 then
    let k := s.port p
    (ethFrame dst.1 (s.portMac p) none 0x0800 (ip4Packet (s.portIp4 p) dst.2 k.ident (head msg.length ++ [0, 0] ++ msg)),
      s.setPort p { k with ident := (k.ident + 1) % 65536 })
  else if t = 2 then
    let src := s.portIp6 p
    let n := msg.length + 2
    let before := udpPacket src dst.2 port port (s.ptpOctets p q ++ [0, 0])
    let h := head n ++ (before.drop 6).take 2
    let pseudo := src ++ dst.2 ++ beBytes 4 (n + 8) ++ beBytes 4 17
    let pad := beBytes 2 (checksum16 (pseudo ++ h ++ msg))
    (ethFrame dst.1 (s.portMac p) none 0x86DD (ip6Packet src dst.2 (h ++ msg ++ pad)), s)
  else (ethFrame dst.1 (s.portMac p) none 0x88F7 msg, s)

/-- A message that starts now: as it leaves the device, and what its time-stamp leaves behind. -/
def State.ptpStart (s : State) (p : Nat) (m : PtpMsg) : PtpMsg × State :=
  let t := s.txStamp p
  match s.msgDomain p m.dom with
  | none => (m, s)
  | some d =>
    let x := s.ptpPort p d
    if m.type = mSync then
      if m.two then (m, s.ptpSend p d ⟨mFollowUp, m.dom, m.seq, false, t / 65536, (t % 65536 : Nat), 0, d⟩)
      else ({ m with ns := t / 65536, corr := (t % 65536 : Nat) }, s)
    else if m.type = mPdelayResp then
      if m.two then
        (m, s.ptpSend p d ⟨mPdelayRespFollowUp, m.dom, m.seq, false, t / 65536, (t % 65536 : Nat), m.req, d⟩)
      else ({ m with ns := 0, corr := (t : Int) - m.ns }, s)
    else if m.type = mDelayReq ∨ m.type = mPdelayReq then
      (m, if x.req = some (m.seq, none) then s.setPtpPort p d { x with req := some (m.seq, some t) } else s)
    else (m, s)

end Sys2Proof.Machine
end

