-- ==== Sys2Proof/Machine/NetFrames.lean ====
section
/-! DEFINITION. Ethernet frames: transmit selection and start, reception, host rings (R305, R308 to R312, R331).
Readings and choices: DEDUCED log 36. -/

namespace Sys2Proof.Machine

/-- The DMA master of a port (R304). -/
def netMaster (p : Nat) : Nat := if p < 2 then 36 else if p < 4 then 37 else 38

def dCount (p n : Nat) : Nat := dPort p + 4 * n
def cRX_FRAMES : Nat := 0
def cRX_ERRORS : Nat := 1
def cRX_FILTERED : Nat := 2
def cRX_DROP : Nat := 3
def cRX_PAUSE : Nat := 4
def cTX_FRAMES : Nat := 5
def cTX_OVERSIZE : Nat := 6
def State.netCount (s : State) (p n : Nat) : State := s.inc NET_PORT_COUNT_COUNT (dCount p n)

/-! ## Host rings (R310) -/

/-- The address of an entry of a host ring. -/
def ringEntry (base k i : Nat) : Nat := base + 2048 * (i % 2 ^ k)

def State.txEntry (s : State) (p : Nat) : Nat :=
  let d := dPort p
  ringEntry (s.g NET_PORT_TXQ_BASE_ADDR d) (s.g NET_PORT_TXQ_CFG_LOG2_SIZE d) (s.g NET_PORT_TXQ_HEAD_INDEX d)

/-- Octets, from destination address to FCS, of the entry at TX_HEAD: a MAC pads to 64. -/
def State.txEntryLen (s : State) (p : Nat) : Nat := max 64 (s.rle (s.txEntry p) 2 + 4)

/-- A time-stamp as ring entries hold it. -/
def frameStamp (t : Nat) : List Byte :=
  let ns := t / 65536
  let sec := ns / 1000000000
  leBytes 4 (ns % 1000000000) ++ leBytes 4 sec ++ leBytes 2 (sec / 2 ^ 32) ++ leBytes 2 (t % 65536)

/-- The entry at TX_HEAD has been read: TX_HEAD advances. -/
def State.txAdvance (s : State) (p : Nat) : State :=
  let d := dPort p
  s.p NET_PORT_TXQ_HEAD_INDEX d (ringNext (s.g NET_PORT_TXQ_CFG_LOG2_SIZE d) (s.g NET_PORT_TXQ_HEAD_INDEX d))

/-- The first `n` ring entries of a queue stay, with every other frame. -/
def keepRing : Nat → List TxFrame → List TxFrame
  | _, [] => []
  | n, f :: t =>
    if f.body = .ring then (if n = 0 then keepRing 0 t else f :: keepRing (n - 1) t) else f :: keepRing n t

/-- A write of TX_TAIL: the new entries wait in OTHER_TC; entries that it takes back wait no longer (R84, R310, R311). -/
def State.txTailWrite (s : State) (p v : Nat) : State :=
  let d := dPort p
  let k := s.g NET_PORT_TXQ_CFG_LOG2_SIZE d
  let h := s.g NET_PORT_TXQ_HEAD_INDEX d
  if tailOk k h v then
    let n := ringUsed k h v - ringUsed k h (s.g NET_PORT_TXQ_TAIL_INDEX d)
    let s := s.p NET_PORT_TXQ_TAIL_INDEX d v
    let s := s.setPort p { s.port p with queue := keepRing (ringUsed k h v) (s.port p).queue }
    if s.on NET_PORT_CTRL_ENABLE d then (List.range n).foldl (fun s _ => s.queueOther p .ring 0) s else s
  else s

/-- A write of RX_HEAD (R84). -/
def State.rxHeadWrite (s : State) (p v : Nat) : State :=
  let d := dPort p
  if headOk (s.g NET_PORT_RXQ_CFG_LOG2_SIZE d) (s.g NET_PORT_RXQ_HEAD_INDEX d) (s.g NET_PORT_RXQ_TAIL_INDEX d) v then
    s.p NET_PORT_RXQ_HEAD_INDEX d v
  else s

/-- Where the next received frame's entry lies. -/
def State.rxEntry (s : State) (p : Nat) : Nat :=
  let d := dPort p
  ringEntry (s.g NET_PORT_RXQ_BASE_ADDR d) (s.g NET_PORT_RXQ_CFG_LOG2_SIZE d) (s.g NET_PORT_RXQ_TAIL_INDEX d)

/-- A received frame goes to the host receive ring, or is dropped where it is full. -/
def State.toHostRing (s : State) (p : Nat) (frame : List Byte) : State :=
  let d := dPort p
  let k := s.g NET_PORT_RXQ_CFG_LOG2_SIZE d
  let t := s.g NET_PORT_RXQ_TAIL_INDEX d
  let used := ringUsed k (s.g NET_PORT_RXQ_HEAD_INDEX d) t
  if used = 2 ^ k then s.netCount p cRX_DROP
  else
    let s := s.wbsEcc (s.rxEntry p)
      (leBytes 2 frame.length ++ leBytes 2 1 ++ frameStamp (s.rxStamp p) ++ [0, 0] ++ frame)
    let s := s.p NET_PORT_RXQ_TAIL_INDEX d (ringNext k t)
    if used = 0 then s.fireEdge (srcNetRx p) else s

/-! ## Transmission (R312) -/

/-- Entries longer than OTHER_MAX at the front of the host ring's traffic are counted and passed over (R310). -/
def State.passOversize : Nat → State → Nat → State
  | 0, s, _ => s
  | n + 1, s, p =>
    let k := s.port p
    match k.queue.findIdx? (fun f => decide (f.body = .ring)) with
    | none => s
    | some i =>
      if s.g NET_PORT_OTHER_OTHER_MAX (dPort p) < s.rle (s.txEntry p) 2 + 4 then
        State.passOversize n (((s.setPort p { k with queue := k.queue.eraseIdx i }).txAdvance p).netCount p cTX_OVERSIZE)
          p
      else s

/-- The octets of a frame that waits. -/
def State.waitLen (s : State) (p : Nat) (f : TxFrame) : Nat := if f.body = .ring then s.txEntryLen p else f.len

/-- Whether the head frame of a class can start now: its gate is open and stays so until the frame's end. -/
def State.canStart (s : State) (p c : Nat) (f : TxFrame) : Bool :=
  if 4 ≤ p then true
  else
    let l := s.operList p
    let t := s.tideNs
    (l.gatesAt t).testBit c &&
      match l.openFor c t with
      | none => true
      | some n =>
        decide (ethService (s.waitLen p f) (s.portRate p) * 65536 + 100 * (s.tide % 65536) ≤ n * 100 * 65536)

/-- The frame that transmit selection takes: the head of the highest class that can start. -/
def State.nextFrame (s : State) (p : Nat) : Option (Nat × TxFrame) :=
  let q := (s.port p).queue.zipIdx
  ((List.range 8).reverse).findSome? fun c =>
    match q.find? (fun x => x.1.cls == c) with
    | some (f, i) => if s.canStart p c f then some (i, f) else none
    | none => none

/-- What goes wrong as a frame is read (R331): 0 nothing, 1 an error response, 2 an uncorrectable error of the port's buffers,
with the address. Shared SRAM answers a word that it cannot correct with an error response. -/
def State.txFault (s : State) (p : Nat) (f : TxFrame) (fault addr : Nat) : Nat × Nat :=
  if s.eccIn (.port p) then (2, 0)
  else if f.body = .ring ∧ s.eccUncorr (s.txEntry p) (18 + s.rle (s.txEntry p) 2) = true then (1, s.txEntry p)
  else (fault, addr)

/-- A frame starts: its item is delivered, times are put in, its octets leave. With an error while it is read it is
aborted with a bad FCS (R331). `fault`: 0 none, 1 TX_DMA_ERR, 2 ECC_UNCORR. -/
def State.frameStart (s : State) (p : Nat) (i : Nat) (f : TxFrame) (fault addr : Nat) : State :=
  let k := s.port p
  let dur := ceilDiv (ethService (s.waitLen p f) (s.portRate p)) 250
  let s := s.setPort p { k with queue := k.queue.eraseIdx i, busy := some (s.fab + dur) }
  let s := match f.item with | some id => s.itemGone id | none => s
  if fault = 0 then
    let s := s.netCount p cTX_FRAMES
    match f.body with
    | .octets bs => s.emit (.eth p bs)
    | .ptp m =>
      let x := s.ptpStart p m
      let f := x.2.ptpFrame p m x.1
      f.2.emit (.eth p f.1)
    | .ring =>
      let a := s.txEntry p
      let s := s.emit (.eth p (padTo 60 (s.rbs (a + 18) (s.rle a 2))))
      let fl := s.rle (a + 2) 2
      let s := if fl.testBit 1 then
          (s.wbs (a + 4) (frameStamp (s.txStamp p))).wle (a + 2) 2 (fl ||| 1)
        else s
      s.txAdvance p
  else
    let s := if f.body = .ring then s.txAdvance p else s
    if fault = 1 then s.raise (.net p) NET_PORT_TX_DMA_ERR (some ⟨addr, netMaster p, 1⟩) 0
    else (s.eccGone (.port p)).raise (.net p) NET_PORT_ECC_UNCORR none 0

/-- ETH_FRAME_START (R312): transmit selection at the present instant; nothing while a frame is in transmission, without
a link, or with no frame that can start. -/
def execEthFrameStart (port : Fin 5) (fault : Fin 3) (addr : BitVec 40) (s : State) : Out' :=
  let p := port.val
  let free : Bool := match (s.port p).busy with | some t => decide (t ≤ s.fab) | none => true
  .next (if s.on NET_PORT_CTRL_ENABLE (dPort p) && s.on NET_PORT_STATUS_LINK (dPort p) && free then
      let s := State.passOversize 8192 s p
      match s.nextFrame p with
      | some (i, f) =>
        let x := s.txFault p f fault.val addr.toNat
        s.frameStart p i f x.1 x.2
      | none => s
    else s)

/-! ## Reception (R309) -/

/-- The octets of a frame after its addresses and tag: EtherType and payload. -/
def etherBody (frame : List Byte) : Nat × List Byte :=
  let t := beNat ((frame.drop 12).take 2)
  if t = 0x8100 then (beNat ((frame.drop 16).take 2), frame.drop 18) else (t, frame.drop 14)

/-- An unfragmented UDP datagram: whether over IPv6, source and destination address, ports, payload, whether its
checksum holds (over IPv4, 0 says that there is none). -/
structure UdpIn where
  v6    : Bool
  src   : List Byte
  dst   : List Byte
  sport : Nat
  dport : Nat
  data  : List Byte
  sumOk : Bool

/-- Read UDP out of an IP packet. -/
def udpIn (etherType : Nat) (l : List Byte) : Option UdpIn :=
  let dgram : Bool → List Byte → List Byte → List Byte → Option UdpIn := fun v6 src dst u =>
    let len := beNat ((u.drop 4).take 2)
    if u.length < 8 ∨ len < 8 ∨ u.length < len then none
    else
      let all := u.take len
      let c := beNat ((u.drop 6).take 2)
      let sum := fold16 (sum16 (src ++ dst ++ beBytes 4 len ++ beBytes 4 17 ++ all))
      some ⟨v6, src, dst, beNat (u.take 2), beNat ((u.drop 2).take 2), all.drop 8, sum == 65535 || (!v6 && c == 0)⟩
  let at_ : Nat → Nat := fun i => (l.getD i 0).toNat
  if etherType = 0x0800 then
    let frag := beNat ((l.drop 6).take 2) % 0x4000
    if at_ 0 / 16 = 4 ∧ frag = 0 ∧ at_ 9 = 17 then
      dgram false ((l.drop 12).take 4) ((l.drop 16).take 4) ((l.take (beNat ((l.drop 2).take 2))).drop (at_ 0 % 16 * 4))
    else none
  else if etherType = 0x86DD then
    if at_ 0 / 16 = 6 ∧ at_ 6 = 17 then
      dgram true ((l.drop 8).take 16) ((l.drop 24).take 16) ((l.drop 40).take (beNat ((l.drop 4).take 2)))
    else none
  else none

/-- Whether an IPv4 header's checksum is wrong. -/
def ip4Bad (etherType : Nat) (l : List Byte) : Bool :=
  etherType == 0x0800 &&
    (let n := (l.getD 0 0).toNat % 16 * 4
     decide (n < 20) || decide (l.length < n) || fold16 (sum16 (l.take n)) != 65535)

/-- The destination filter (R309). -/
def State.destOk (s : State) (p : Nat) (dst : List Byte) : Bool :=
  let d := dPort p
  decide (dst = s.portMac p) || decide (dst = List.replicate 6 0xFF) ||
    (List.range 32).any (fun m => s.on NET_PORT_MCAST_HI_VALID (d + 8 * m) &&
      decide (dst = beBytes 4 (s.g NET_PORT_MCAST_LO_OCTETS_0_3 (d + 8 * m)) ++
        beBytes 2 (s.g NET_PORT_MCAST_HI_OCTETS_4_5 (d + 8 * m)))) ||
    (decide (p < 4) &&
      [0, 1].any (fun x => s.on TID_CTRL_ENABLE && s.on TID_DOM_CFG_ENABLE (dDom x) && s.ptpState p x != 0) &&
      (decide (dst = [0x01, 0x1B, 0x19, 0, 0, 0]) || decide (dst = [0x01, 0x80, 0xC2, 0, 0, 0x0E])))

/-- A PTP message to the engine; none where the engine takes no message of that type (R309, IEEE 1588 clause 13). -/
def State.ptpIn (s : State) (p : Nat) (m : List Byte) : Option State :=
  let f : Nat → Nat → Nat := fun o n => beNat ((m.drop o).take n)
  let type := f 0 1 % 16
  let dn := f 4 1
  let two : Bool := (f 6 1).testBit 1
  let corr := toSigned 64 (f 8 8)
  let src := f 20 10
  let seq := f 30 2
  let ts := f 34 10
  let req := f 44 10
  if type = mSync then some (s.syncIn p dn seq two ts corr)
  else if type = mDelayReq then some (s.delayReqIn p dn seq src corr)
  else if type = mPdelayReq then some (s.pdelayReqIn p dn seq src corr)
  else if type = mPdelayResp then some (s.pdelayRespIn p dn seq two req ts corr)
  else if type = mFollowUp then some (s.followUpIn p dn seq ts corr)
  else if type = mDelayResp then some (s.delayRespIn p dn seq req ts corr)
  else if type = mPdelayRespFollowUp then some (s.pdelayRespFuIn p dn seq req ts corr)
  else none

/-- The PTP message of a frame to a port's PTP engine, if it is one: over Ethernet, or over UDP to port 319 or 320 at
the port's address. -/
def State.ptpOf (s : State) (p etherType : Nat) (l : List Byte) (u : Option UdpIn) : Option (List Byte) :=
  if 4 ≤ p then none
  else if etherType = 0x88F7 then some l
  else match u with
    | some x =>
      if (x.dport = 319 ∨ x.dport = 320) ∧ x.dst = (if x.v6 then s.portIp6 p else s.portIp4 p) then some x.data else none
    | none => none

/-- Classification (R309). -/
def State.classify (s : State) (p : Nat) (frame : List Byte) : State :=
  let src := (frame.drop 6).take 6
  let b := etherBody frame
  let u := udpIn b.1 b.2
  if b.1 = 0x88B5 then s.cargoIn p 0 src [] 0 b.2
  else
    match s.ptpOf p b.1 b.2 u with
    | some m => (s.ptpIn p m).getD (s.toHostRing p frame)
    | none =>
      match u with
      | some x =>
        let trans := if x.v6 then 2 else 1
        if x.dport = s.g NET_CARGO_UDP_PORT then
          if x.sumOk then s.cargoIn p trans src x.src x.sport x.data else s
        else if x.dport = s.g BCN_UDP_PORT then s.beaconIn p trans x.src x.sport x.data
        else s.toHostRing p frame
      | none => s.toHostRing p frame

/-- A frame received on a port: octets from destination address to before the FCS. `fault`: 0 none, 1 RX_DMA_ERR,
2 ECC_UNCORR: the frame is discarded (R331). -/
def State.frameIn (s : State) (p : Nat) (fcsOk : Bool) (fault addr : Nat) (frame : List Byte) : State :=
  let n := frame.length + 4
  let tagged : Bool := beNat ((frame.drop 12).take 2) == 0x8100
  let b := etherBody frame
  if fcsOk = false ∨ n < 64 ∨ (if tagged then 1522 else 1518) < n then s.netCount p cRX_ERRORS
  else if fault = 2 ∨ s.eccIn (.port p) = true then (s.eccGone (.port p)).raise (.net p) NET_PORT_ECC_UNCORR none 0
  else if b.1 = 0x8808 then s.netCount p cRX_PAUSE
  else if s.destOk p (frame.take 6) = false then s.netCount p cRX_FILTERED
  else if ip4Bad b.1 b.2 = true then s.netCount p cRX_ERRORS
  else
    let s := s.netCount p cRX_FRAMES
    if fault = 1 then s.raise (.net p) NET_PORT_RX_DMA_ERR (some ⟨addr, netMaster p, 2⟩) 0 else s.classify p frame

/-- FRAME_RECEIVED (R309): a frame ends at a port that is enabled and has its link; else nothing. -/
def execFrameReceived (port : Fin 5) (fcsOk : Bool) (fault : Fin 3) (addr : BitVec 40) (frame : List Byte) (s : State) :
    Out' :=
  let d := dPort port.val
  .next (if s.on NET_PORT_CTRL_ENABLE d && s.on NET_PORT_STATUS_LINK d then
      s.frameIn port.val fcsOk fault.val addr.toNat frame
    else s)

end Sys2Proof.Machine
end

