-- ==== Sys2Proof/Machine/ScanRows.lean ====
section
/-! DEFINITION. Scan commands: releases, ends of copies, preemption, TEND, forced boundaries (R139 to R152). The row that
starts a scan stands with the PULL that it may apply. Readings and choices: DEDUCED log 30. -/

namespace Sys2Proof.Machine

/-- An overrun release (R150): dropped and counted; TASK_OVERRUN when CONSEC reaches OVR_LIMIT. -/
def State.overrun (s : State) (q t : Nat) : State :=
  let d := dTask q t
  let old := s.g BRN_TASK_STATS_CONSEC d
  let s := (s.incSat BRN_TASK_STATS_OVERRUNS d).incSat BRN_TASK_STATS_CONSEC d
  let new := s.g BRN_TASK_STATS_CONSEC d
  if new ≠ old ∧ new = s.g BRN_TASK_CFG_OVR_LIMIT d then s.raise (.brn q) BRN_TASK_OVERRUN none t else s

/-- A cyclic task is released (R139): pending, or dropped as an overrun; in a hold taken with ALLOW_SKIP dropped as
SKIPPED (R164). A release that falls due before the quay's start-up task has ended is dropped and not counted: R138 says that
the task does not start, not what becomes of the release, DESIGN CHOICE log 53. -/
def State.release (s : State) (q t : Nat) : State :=
  let k := s.quay q
  if s.quayRuns q && k.started && s.on BRN_TASK_CFG_ON (dTask q t) then
    if s.xState q = xHOLD ∧ k.xchg.allowSkip then s.incSat BRN_TASK_STATS_SKIPPED (dTask q t)
    else
      let x := k.task t
      if x.pend || k.inScan t then s.overrun q t
      else s.setQuay q (k.setTask t { x with pend := true, relAt := s.tide })
  else s

/-- TASK_RELEASE (R139): a release instant of the task, (T − 10,000 PHASE) a multiple of 10,000 PERIOD, is seen in the fabric
cycle in which Tide time first is at or after it; in another cycle, or a second time, nothing is released. -/
def execTaskRelease (q : Fin 6) (t : Fin 8) (s : State) : Out' :=
  let d := dTask q t
  let id := 8 * q.val + t.val
  .next (if s.atInstant id (10000 * s.g BRN_TASK_PERIOD_VALUE d) (10000 * s.g BRN_TASK_PHASE_VALUE d) then
    (s.takeInstant id).release q t
  else s)

/-- EVENT_FIRE (R140). -/
def execEventFire (q : Fin 6) (e : Fin 8) (s : State) : Out' := .next (s.command fun s => s.eventRelease q e)

/-- The activation record of an error task (R158). -/
def Activation.bytes (a : Activation) : List Byte :=
  leBytes 2 a.station ++ [BitVec.ofNat 8 a.cls, BitVec.ofNat 8 a.miss] ++ leBytes 4 0 ++ leBytes 8 a.stamp

/-- What a copy-in writes (R137, R146, R147): DIN, the task's stations, an error task's activation record. -/
def State.copyIn (s : State) (q t : Nat) : State :=
  let g := s.scanCfg q t
  let s := match g.din with
    | some o => s.wle (imageKey q o) 8 (s.g PIO_DIN_DIN)
    | none => s
  if t < 8 then g.stns.foldl (fun s x => s.present x.1 x.2 g.base ((s.quay q).task t).stamp) s
  else if tERR ≤ t ∧ t < tSTART then
    match AMap.find (s.quay q).actNow (t - tERR) with
    | some a => s.wbs (imageKey q g.arg) a.bytes
    | none => s
  else s

/-- The copy at the head of the fabric port ends; an idle core begins the task at once (R143, R144). -/
def State.copyInDone (s : State) (q t : Nat) : State :=
  let s := s.copyIn q t
  let k := s.quay q
  let s := s.setQuay q ({ k with port := k.port.tail }.setTask t { k.task t with phase := .ready })
  let i := (s.scanCfg q t).core
  if (s.core (4 * q + i)).run = .idle then s.nextWork q i else s

/-- COPY_IN_DONE (R144): the copy-in at the head of the quay's fabric port completes. -/
def execCopyInDone (q : Fin 6) (s : State) : Out' :=
  .next (match (s.quay q).port with
    | (t, false) :: _ => s.copyInDone q t
    | _ => s)

/-- Preempt the running task of a core (R144): its context goes to its save area, and the ready task begins. -/
def State.preempt (s : State) (q c t r : Nat) : State :=
  if s.overlayFull q 192 then s.shadowHalt q
  else
    let s := s.storeData c (s.scanCfg q t).save (s.contextBytes c)
    let k := s.quay q
    let s := s.setQuay q (k.setTask t { k.task t with phase := .preempted })
    let x := s.core c
    (s.setCore c { x with stacked := t :: x.stacked, task := none }).beginTask q r

/-- TASK_PREEMPT (R144): at an instruction boundary at RL 0, a ready task of higher priority takes the core. -/
def execTaskPreempt (c : Fin 24) (s : State) : Out' :=
  let q := c.val / 4
  let k := s.core c
  .next (match k.task, s.firstTask q (s.readyTasks q (c.val % 4)) with
    | some t, some r =>
      if (k.run = .running ∨ k.run = .wait ∨ k.run = .recv) ∧ k.rl = 0 ∧ (s.scanCfg q t).prio < (s.scanCfg q r).prio then
        s.preempt q c t r
      else s
    | _, _ => s)

/-- TEND (R98, R149): with open nesting it raises NEST_OPEN and the task goes on; else the body ends and the core takes
its next work. In a handler it ends the task and every handler with it: the level is 0, as it is in task code (R126), no frame
is popped, and the sources of those handlers stay active; the spec does not say so, DESIGN CHOICE log 53. -/
def execJTend (c : Fin 24) (s : State) : Out' :=
  .next (if s.executes c then
    let k := s.core c
    if k.nest ≠ 0 then s.fail c ⟨xNEST_OPEN, none⟩
    else
      let q := c.val / 4
      let s := (s.fetchSeen c).setCore c { k with instret := k.instret + 1, cyc := k.cyc + 2, pc := k.pc + 4,
                                                  entering := none, task := none, rl := 0, hstk := [] }
      let s := match k.task with | some t => s.bodyEnd q t | none => s
      let s := s.nextWork q (c.val % 4)
      s.setCore c (s.core c).boundary
  else s.unissued c)

/-- Write the owned output bits from the task's DOUT area (R152). -/
def State.driveDout (s : State) (q t : Nat) : State :=
  let g := s.scanCfg q t
  let m := g.mask
  if m = 0 then s
  else
    let v := leNat (s.lrbs q (imageKey q g.dout) 8)
    { s with pio := { s.pio with latch := (v &&& m) ||| (s.pio.latch &&& (2 ^ 64 - 1 - m)) } }

/-- A cyclic task's copy-out (R146, R148, R152): outputs, stations' frames, the end of the scan, the copy point. -/
def State.copyOutDone (s : State) (q t : Nat) : State :=
  let m := s.copyOutMode q
  let s := if m = RUN ∨ m = COMMISSION ∨ m = FACTORY then s.driveDout q t else s
  let stamp := ((s.quay q).task t).stamp
  let s := (s.scanCfg q t).stns.foldl (fun s x => if 1 ≤ entOutLen x.2 then s.cargoOut x.1 x.2 m stamp else s) s
  let k := s.quay q
  let s := ((s.setQuay q { k with port := k.port.tail }).execTimes q t).idleTask q t
  s.copyPoint q

/-- COPY_OUT_DONE (R148): the copy-out at the head of the quay's fabric port completes. -/
def execCopyOutDone (q : Fin 6) (s : State) : Out' :=
  .next (match (s.quay q).port with
    | (t, true) :: _ => s.copyOutDone q t
    | _ => s)

/-- FORCED_BOUNDARY (R151): a quay that has found no boundary within 2 ms of a mode command holds its scan starts. -/
def execForcedBoundary (q : Fin 6) (s : State) : Out' :=
  let k := s.quay q
  .next (match k.cmdAt with
    | some t => if t + 2000 * usCycles ≤ s.fab then s.setQuay q { k with forced := true } else s
    | none => s)

/-- STARTUP_OVERRUN (R41): a start-up task that has not completed 100 ms after the command. -/
def execStartupOverrun (q : Fin 6) (s : State) : Out' :=
  let k := s.quay q
  .next (match k.startFrom with
    | some t => if t + 100000 * usCycles ≤ s.fab then
        (s.setQuay q { k with startFrom := none }).raise (.brn q) BRN_STARTUP_OVERRUN none 0 else s
    | none => s)

end Sys2Proof.Machine
end

