-- ==== Sys2Proof/Machine/Exchange.lean ====
section
/-! DEFINITION. Online program exchange (R162 to R167, R422). -/

namespace Sys2Proof.Machine

def progXchg : ProgRegs :=
  ⟨BRN_XCHG_PROG_PERMYRIAD_STATE, BRN_XCHG_PROG_PERMYRIAD_VAL, BRN_XCHG_PROG_POSITION_VAL, BRN_XCHG_PROG_TOTAL_VAL⟩

/-! ## The package (R162) -/

/-- A section: TYPE, core of the quay, DEST, LENGTH, and the address of its data. -/
structure Section where
  type : Nat
  core : Nat
  dest : Nat
  len  : Nat
  addr : Nat

def State.pkgSections (s : State) (a : Nat) : List Section :=
  (List.range (s.rle (a + 12) 4)).map fun i =>
    let h := a + 64 + 16 * i
    ⟨s.rle h 2, s.rle (h + 2) 1, s.rle (h + 4) 4, s.rle (h + 8) 4, a + s.rle (h + 12) 4⟩

/-- The entries of the instance tables of a core: KEY, OFFSET, KIND. -/
def State.pkgInsts (s : State) (a core : Nat) : List (Nat × Nat × Nat) :=
  (s.pkgSections a).flatMap fun x =>
    if x.type = 3 ∧ x.core = core then
      (List.range (x.len / 8)).map fun i =>
        let e := x.addr + 8 * i
        (s.rle e 4, s.rle (e + 4) 2, s.rle (e + 6) 1)
    else []

/-- The entries of the retain tables of a core: KEY, OFFSET, LENGTH. -/
def State.pkgRetains (s : State) (a core : Nat) : List (Nat × Nat × Nat) :=
  (s.pkgSections a).flatMap fun x =>
    if x.type = 4 ∧ x.core = core then
      (List.range (x.len / 16)).map fun i =>
        let e := x.addr + 16 * i
        (s.rle e 4, s.rle (e + 4) 4, s.rle (e + 8) 4)
    else []

/-- The entries of the entry tables: TASK, SAVE, ENTRY. -/
def State.pkgEntries (s : State) (a : Nat) : List (Nat × Nat × Nat) :=
  (s.pkgSections a).flatMap fun x =>
    if x.type = 5 then
      (List.range (x.len / 8)).map fun i =>
        let e := x.addr + 8 * i
        (s.rle e 1, s.rle (e + 2) 2, s.rle (e + 4) 4)
    else []

/-- Bytes of an instance of a KIND (R112). -/
def kindSize (kind : Nat) : Nat := if kind = 7 then 8 else 32

/-- Whether the header is valid: 0x110. -/
def State.pkgHeaderOk (s : State) (a len : Nat) : Bool :=
  let n := s.rle (a + 12) 4
  64 ≤ len && s.rle a 4 == 0x4B504A59 && s.rle (a + 4) 2 == 1 && s.rle (a + 6) 2 == 0 &&
    s.rle (a + 9) 1 < 16 && s.rle (a + 10) 2 == 0 && 1 ≤ n && n ≤ 64 && 64 + 16 * n ≤ len &&
    s.rle (a + 16) 4 == len && (s.rbs (a + 20) 12).all (· == 0)

/-- Whether a section is of a known form: TYPE 1 to 5, a core of CORE_MASK, the zero byte, DEST 0 for a table. -/
def State.secFormOk (s : State) (a i : Nat) : Bool :=
  let h := a + 64 + 16 * i
  let ty := s.rle h 2
  let core := s.rle (h + 2) 1
  1 ≤ ty && ty ≤ 5 && core < 4 && (s.rle (a + 9) 1).testBit core && s.rle (h + 3) 1 == 0 &&
    (ty ≤ 2 || s.rle (h + 4) 4 == 0)

/-- Whether a section lies in the package and, a page section, in its SRAM and page-aligned: 0x112. -/
def Section.placeOk (x : Section) (a len : Nat) : Bool :=
  x.addr + x.len ≤ a + len &&
    (if x.type = 1 then x.dest % 4096 == 0 && x.len % 4096 == 0 && x.dest + x.len ≤ 0x20000
     else if x.type = 2 then x.dest % 4096 == 0 && x.len % 4096 == 0 && x.dest + x.len ≤ 0x10000
     else true)

/-- Whether the instance and retain tables are valid: 0x113. -/
def State.tablesOk (s : State) (a : Nat) : Bool :=
  (List.range 4).all fun c =>
    let is := s.pkgInsts a c
    let rs := s.pkgRetains a c
    is.length ≤ 3072 && rs.length ≤ 512 && (is.map (·.1)).Nodup && (rs.map (·.1)).Nodup &&
      is.all (fun x => x.1 != 0 && x.2.1 % 8 == 0 && x.2.1 + kindSize x.2.2 ≤ 0x10000) &&
      rs.all (fun x => x.1 != 0 && x.2.1 % 8 == 0 && x.2.1 + x.2.2 ≤ 0x10000)

/-- Whether the entry table's entries name tasks, save areas and entry points that exist. -/
def State.entriesOk (s : State) (a : Nat) : Bool :=
  (s.pkgEntries a).all fun x => x.1 ≤ 24 && x.2.1 % 8 == 0 && x.2.1 + 192 ≤ 0x10000 && x.2.2 % 4 == 0 && x.2.2 < 0x20000

/-- The checks of a LOAD, in the order in which the package is read; 0 where it passes (R163, R167). -/
def State.pkgCheck (s : State) (q a len : Nat) : Nat :=
  if a % 64 ≠ 0 ∨ inSram a len = false then 0x112
  else if s.pkgHeaderOk a len = false then 0x110
  else if s.rle (a + 8) 1 ≠ q then 0x117
  else if sha256 (s.rbs (a + 64) (len - 64)) ≠ s.rbs (a + 32) 32 then 0x111
  else if (List.range (s.rle (a + 12) 4)).all (s.secFormOk a) = false then 0x110
  else if (s.pkgSections a).all (·.placeOk a len) = false then 0x112
  else if s.tablesOk a = false then 0x113
  else if s.entriesOk a = false then 0x112
  else 0

/-! ## LOAD, CANCEL (R163, R166) -/

def State.xRefuse (s : State) (q code : Nat) : State := s.p BRN_XCHG_STATUS_REFUSAL (dQuay q) code
def State.setXState (s : State) (q st : Nat) : State := s.p BRN_XCHG_STATUS_STATE (dQuay q) st

/-- What refuses every exchange command: SAFE, or an exchange in progress (R166). -/
def State.xBusyCode (s : State) (q : Nat) : Nat :=
  if s.mode = SAFE then 0x116
  else if s.xState q = xLOADING ∨ s.xState q = xWAITING ∨ s.xState q = xHOLD then 0x118
  else 0

def State.xchgLoad (s : State) (q : Nat) : State :=
  let area := s.g BRN_XCHG_AREA_ADDR (dQuay q)
  if s.xBusyCode q ≠ 0 then s.xRefuse q (s.xBusyCode q)
  else if area = 0 ∨ inSram area 0x20000 = false then s.xRefuse q 0x11A
  else
    let s := s.setXState q xLOADING
    s.progStart progXchg (dQuay q) (ceilDiv (s.g BRN_XCHG_LEN_BYTES (dQuay q)) 1024)

/-- XCHG_LOAD (R163). -/
def execXchgLoad (q : Fin 6) (s : State) : Out' := .next (s.command fun s => s.xchgLoad q)

/-- The tables of core `i`'s present program (R163): 32 KB of the quay's table area for each core, the instance table's 3,072
entries of 8 bytes and then the retain table's 512 entries of 16 bytes, laid out as in a package and ended by KEY 0. That
order is not the spec's: DESIGN CHOICE log 53. -/
def State.xArea (s : State) (q i : Nat) : Nat := s.g BRN_XCHG_AREA_ADDR (dQuay q) + 0x8000 * i
def State.presentInsts (s : State) (q i : Nat) : List (Nat × Nat × Nat) :=
  ((List.range 3072).map fun n =>
    let e := s.xArea q i + 8 * n
    (s.rle e 4, s.rle (e + 4) 2, s.rle (e + 6) 1)).takeWhile (·.1 != 0)
def State.presentRetains (s : State) (q i : Nat) : List (Nat × Nat × Nat) :=
  ((List.range 512).map fun n =>
    let e := s.xArea q i + 0x6000 + 16 * n
    (s.rle e 4, s.rle (e + 4) 4, s.rle (e + 8) 4)).takeWhile (·.1 != 0)

/-- The tables of core `i`'s new program become those of the present one. -/
def State.keepTables (s : State) (q i : Nat) (insts retains : List (Nat × Nat × Nat)) : State :=
  let is := insts.flatMap fun x => leBytes 4 x.1 ++ leBytes 2 x.2.1 ++ leBytes 1 x.2.2 ++ leBytes 1 0
  let rs := retains.flatMap fun x => leBytes 4 x.1 ++ leBytes 4 x.2.1 ++ leBytes 4 x.2.2 ++ leBytes 4 0
  (s.wbsEcc (s.xArea q i) (is ++ List.replicate (0x6000 - is.length) 0)).wbsEcc (s.xArea q i + 0x6000)
    (rs ++ List.replicate (0x2000 - rs.length) 0)

/-- HOLD_NS in fabric cycles (R163): pages, instance entries old and new, retained bytes, which are taken as those of the new
program's retain tables: the rule does not say whose, DESIGN CHOICE log 53. -/
def State.holdCycles (s : State) (q a : Nat) : Nat :=
  let pages := ((s.pkgSections a).map fun x => if x.type ≤ 2 then x.len / 4096 else 0).sum
  let old := ((List.range 4).map fun c => (s.presentInsts q c).length).sum
  let new := ((List.range 4).map fun c => (s.pkgInsts a c).length).sum
  let b := ((List.range 4).map fun c => ((s.pkgRetains a c).map fun x => x.2.2).sum).sum
  256 + 128 * pages + 6 * (old + new) + 2 * ceilDiv b 32 + s.cargoLock q * ceilDiv (128 * pages + ceilDiv b 32) 16

def State.xchgLoadEnd (s : State) (q : Nat) : State :=
  let d := dQuay q
  let a := s.g BRN_XCHG_PKG_ADDR d
  let len := s.g BRN_XCHG_LEN_BYTES d
  let code := s.pkgCheck q a len
  if code ≠ 0 then ((s.xRefuse q code).setXState q xIDLE).progEnd progXchg d 3
  else
    let x := s.roundOpen (5 * s.holdCycles q a : Nat) 2
    let s := x.2.p BRN_XCHG_HOLD_HOLD_NS d x.1.toNat
    let k := s.quay q
    let s := s.setQuay q { k with xchg := { k.xchg with pkgAddr := a, digest := leNat (s.rbs (a + 32) 32) } }
    ((s.setXState q xLOADED).progAt progXchg d (ceilDiv len 1024)).progEnd progXchg d 2

/-- XCHG_LOAD_END (R163). -/
def execXchgLoadEnd (q : Fin 6) (s : State) : Out' := .next (if s.xState q = xLOADING then s.xchgLoadEnd q else s)

def State.xchgCancel (s : State) (q : Nat) : State :=
  if s.mode = SAFE then s.xRefuse q 0x116
  else if s.xState q = xLOADING then s.xRefuse q 0x118
  else if s.xState q = xLOADED ∨ s.xState q = xWAITING then
    s.setXState q xIDLE
  else s

/-- XCHG_CANCEL (R164, R167): from LOADED or WAITING to IDLE; refused while LOADING. -/
def execXchgCancel (q : Fin 6) (s : State) : Out' := .next (s.command fun s => s.xchgCancel q)

/-! ## The hold (R164, R165) -/

/-- The memory that carries an instance's state: CTRL bits [3:0] and GEN, and ET and LAST, CV, or nothing more. -/
def State.carryInst (s : State) (c off kind : Nat) (old : List Byte) : State :=
  let key := dataKey c off
  let ctrlOld := leNat ((old.drop 4).take 4)
  let ctrlNew := s.rle (key + 4) 4
  let s := s.wle (key + 4) 4 (ctrlOld / 256 * 256 + bits ctrlNew 4 4 * 16 + ctrlOld % 16)
  if kind ≤ 3 then s.wbs (key + 16) ((old.drop 16).take 16)
  else if kind ≤ 6 then s.wbs (key + 16) ((old.drop 16).take 8)
  else s

/-- Settle one core's instances and retained blocks by key; the counts MATCHED, NEW, MISMATCHED and REMOVED. -/
def State.settleCore (s : State) (q i : Nat) (insts retains : List (Nat × Nat × Nat)) (before : State) :
    State × Nat × Nat × Nat × Nat :=
  let c := 4 * q + i
  let oldI := before.presentInsts q i
  let oldR := before.presentRetains q i
  let byKey : List (Nat × Nat × Nat) → Nat → Option (Nat × Nat × Nat) := fun l key => l.find? (·.1 == key)
  let same : Nat × Nat × Nat → Bool := fun n => match byKey oldI n.1 with | some o => o.2.2 == n.2.2 | none => false
  let other : Nat × Nat × Nat → Bool := fun n => match byKey oldI n.1 with | some o => o.2.2 != n.2.2 | none => false
  let lenDiff : Nat × Nat × Nat → Bool := fun n => match byKey oldR n.1 with | some o => o.2.2 != n.2.2 | none => false
  let s := insts.foldl (fun s n =>
    match byKey oldI n.1 with
    | some o =>
      if o.2.2 = n.2.2 then s.carryInst c n.2.1 n.2.2 (before.rbs (dataKey c o.2.1) (kindSize n.2.2))
      else s.wle (dataKey c n.2.1 + 5) 3 0
    | none => s.wle (dataKey c n.2.1 + 5) 3 0) s
  let s := retains.foldl (fun s n =>
    match byKey oldR n.1 with
    | some o => if o.2.2 = n.2.2 then s.wbs (dataKey c n.2.1) (before.rbs (dataKey c o.2.1) n.2.2) else s
    | none => s) s
  (s, insts.countP same, insts.countP (fun n => !same n), insts.countP other + retains.countP lenDiff,
    oldI.countP fun o => !(insts.any (·.1 == o.1)))

/-- A task's ENTRY and SAVE registers take an entry's values, in their live and their staged copies (R165). -/
def State.writeEntry (s : State) (q : Nat) (e : Nat × Nat × Nat) : State :=
  let t := e.1
  let save := e.2.1 / 8
  let pc := e.2.2 / 4
  if t < 8 then (s.pBoth BRN_TASK_ENTRY_ENTRY (dTask q t) pc).pBoth BRN_TASK_SAVE_SAVE (dTask q t) save
  else if t < 16 then (s.pBoth BRN_EVT_ENTRY_ENTRY (dEvt q (t - 8)) pc).pBoth BRN_EVT_SAVE_SAVE (dEvt q (t - 8)) save
  else if t < 24 then (s.pBoth BRN_ERR_ENTRY_ENTRY (dEvt q (t - 16)) pc).pBoth BRN_ERR_SAVE_SAVE (dEvt q (t - 16)) save
  else (s.p BRN_START_ENTRY_ENTRY (dQuay q) pc).p BRN_START_SAVE_SAVE (dQuay q) save

/-- Carry the loaded package into the quay (R165): pages and entries, then instances and retained blocks by key. -/
def State.settle (s : State) (q : Nat) : State :=
  let before := s
  let a := (s.quay q).xchg.pkgAddr
  let s := (s.pkgSections a).foldl (fun s x =>
    let c := 4 * q + x.core
    if x.type = 1 then s.wbsEcc (instrKey c x.dest) (before.rbs x.addr x.len)
    else if x.type = 2 then s.wbsEcc (dataKey c x.dest) (before.rbs x.addr x.len)
    else s) s
  let s := (before.pkgEntries a).foldl (fun s e => s.writeEntry q e) s
  let mask := before.rle (a + 9) 1
  let r := (List.range 4).foldl (fun (r : State × Nat × Nat × Nat × Nat) i =>
    if mask.testBit i then
      let y := r.1.settleCore q i (before.pkgInsts a i) (before.pkgRetains a i) before
      (y.1, r.2.1 + y.2.1, r.2.2.1 + y.2.2.1, r.2.2.2.1 + y.2.2.2.1, r.2.2.2.2 + y.2.2.2.2)
    else r) (s, 0, 0, 0, 0)
  let d := dQuay q
  let s := (((r.1.p BRN_XCHG_MATCH_MATCHED d r.2.1).p BRN_XCHG_MATCH_NEW d r.2.2.1).p BRN_XCHG_DROP_MISMATCHED d
    r.2.2.2.1).p BRN_XCHG_DROP_REMOVED d r.2.2.2.2
  let s := (List.range 4).foldl (fun s i =>
    if mask.testBit i then s.keepTables q i (before.pkgInsts a i) (before.pkgRetains a i) else s) s
  let k := s.quay q
  s.setQuay q { k with xchg := { k.xchg with presentDigest := k.xchg.digest } }

/-- The hold begins (R164); the active device of a pair sends EXCHANGE (R422). -/
def State.holdStart (s : State) (q : Nat) : State :=
  let s := s.setXState q xHOLD
  if s.on PAIR_CTRL_ENABLE && s.on PAIR_STATUS_OWN then
    s.mooringSend 7 0 ((s.quay q).xchg.digest % 2 ^ 32) []
  else s

/-- The hold ends: the program is exchanged. -/
def State.holdEnd (s : State) (q : Nat) : State := (s.settle q).setXState q xIDLE

/-- The ENTRY and SAVE registers of a quay that are proof-staged. -/
def entryFields (q : Nat) : List Nat :=
  (List.range 8).flatMap fun t =>
    [BRN_TASK_ENTRY_ENTRY.key (dTask q t), BRN_TASK_SAVE_SAVE.key (dTask q t), BRN_EVT_ENTRY_ENTRY.key (dEvt q t),
      BRN_EVT_SAVE_SAVE.key (dEvt q t), BRN_ERR_ENTRY_ENTRY.key (dEvt q t), BRN_ERR_SAVE_SAVE.key (dEvt q t)]

/-- APPLY (R164, R166): at once on a quay whose ENABLE is 0, which ends a partly written program; else it waits for a
boundary, or forces one. -/
def State.xchgApply (s : State) (q : Nat) (allowSkip : Bool) : State :=
  let k := s.quay q
  if s.xBusyCode q ≠ 0 then s.xRefuse q (s.xBusyCode q)
  else if s.xState q ≠ xLOADED then s.xRefuse q 0x115
  else if (entryFields q).any fun f => (AMap.find s.staged f).isSome then s.xRefuse q 0x119
  else if s.on BRN_QUAY_CTRL_ENABLE (dQuay q) then
    (s.setQuay q { k with xchg := { k.xchg with allowSkip := allowSkip, waitSince := s.fab } }).setXState q xWAITING
  else
    let s := (s.holdStart q).holdEnd q
    s.setQuay q { s.quay q with xchg := { (s.quay q).xchg with partly := false } }

/-- XCHG_APPLY (R164). -/
def execXchgApply (q : Fin 6) (allowSkip : Bool) (s : State) : Out' := .next (s.command fun s => s.xchgApply q allowSkip)

/-- Whether no configured cyclic task of the quay is released within some ns from now (R139, R164). -/
def State.noReleaseWithin (s : State) (q ns : Nat) : Bool :=
  (List.range 8).all fun t =>
    let d := dTask q t
    if s.on BRN_TASK_CFG_ON d then
      let p := 10000 * s.g BRN_TASK_PERIOD_VALUE d
      let since := ((s.tideNs : Int) - 10000 * s.g BRN_TASK_PHASE_VALUE d) % p
      (ns : Int) < p - since
    else true

/-- Whether the quay stands at a boundary that APPLY takes (R164). -/
def State.holdReady (s : State) (q : Nat) : Bool :=
  let k := s.quay q
  s.atBoundary q &&
    (k.xchg.allowSkip || (s.noReleaseWithin q (s.g BRN_XCHG_HOLD_HOLD_NS (dQuay q) + 1000) &&
      (rangeFrom 8 24).all fun t => !(k.task t).pend))

/-- XCHG_HOLD_START (R164): a qualifying boundary is reached. -/
def execXchgHoldStart (q : Fin 6) (s : State) : Out' :=
  .next (if s.xState q = xWAITING ∧ s.holdReady q then s.holdStart q else s)

/-- XCHG_HOLD_END (R165). -/
def execXchgHoldEnd (q : Fin 6) (s : State) : Out' := .next (if s.xState q = xHOLD then s.holdEnd q else s)

/-- XCHG_APPLY_TIMEOUT (R164): no qualifying boundary within 1 s, without ALLOW_SKIP. -/
def execXchgApplyTimeout (q : Fin 6) (s : State) : Out' :=
  let x := (s.quay q).xchg
  .next (if s.xState q = xWAITING ∧ x.allowSkip = false ∧ x.waitSince + 1000000 * usCycles ≤ s.fab then
    (s.xRefuse q 0x114).setXState q xLOADED
  else s)

end Sys2Proof.Machine
end

