-- ==== Sys2Proof/Machine/TallyMath.lean ====
section
/-! DEFINITION. The Tally's arithmetic (R270, R273, R277, R280, R285): binary64 with round-to-nearest-even, each operation
of a formula rounded in the order written, sums in sample order. Readings and choices: DESIGN CHOICE log 34. -/

namespace Sys2Proof.Machine

def fAdd (a b : Nat) : Nat := (Fp.add a b).1
def fSub (a b : Nat) : Nat := (Fp.sub a b).1
def fMul (a b : Nat) : Nat := (Fp.mul a b).1
def fDiv (a b : Nat) : Nat := (Fp.div a b).1
def fSqrt (a : Nat) : Nat := (Fp.sqrt a).1
def fInt (i : Int) : Nat := (Fp.ofInt i).1
/-- A decimal constant a / b. -/
def fRatio (a b : Nat) : Nat := fDiv (fInt a) (fInt b)
def fSum (l : List Nat) : Nat := l.foldl fAdd 0
def fLt (a b : Nat) : Bool := (Fp.cmp a b).lt
def fLe (a b : Nat) : Bool := (Fp.cmp a b).lt || (Fp.cmp a b).eq
def fMin (a b : Nat) : Nat := if fLt b a then b else a
def fMax (a b : Nat) : Nat := if fLt a b then b else a

/-- The integer below, and the rest, of a binary64: the whole units that leave a residue (R279). -/
def wholeOf (x : Nat) : Int × Nat :=
  let w := (Fp.toRat x).floor
  (w, fSub x (fInt w))

/-- Third-order Lagrange interpolation over four points at −1, 0, 1 and 2, at `t`. -/
def lagrange (y0 y1 y2 y3 t : Rat) : Rat :=
  y1 * (t + 1) * (t - 1) * (t - 2) / 2 - y0 * t * (t - 1) * (t - 2) / 6 - y2 * (t + 1) * t * (t - 2) / 2 +
    y3 * (t + 1) * t * (t - 1) / 6

/-- c′ (R273): the code `d` · 2⁻¹⁶ samples before the last, over the last four codes (newest first), rounded once: no later
code has come. -/
def delayed (d : Int) (codes : List Int) : Nat :=
  let c : Nat → Rat := fun k => (codes.getD k 0 : Int)
  if d = 0 then fInt (codes.headD 0) else Fp.ofRat (lagrange (c 3) (c 2) (c 1) (c 0) (2 - (d : Rat) / 65536))

/-- The corrected value of a sample before the high-pass filter (R273): KFS · g · c′ / (2²³ − 1). -/
def correct (kfs g : Nat) (d : Int) (codes : List Int) : Nat :=
  fDiv (fMul (fMul (Fp.widen kfs).1 (Fp.widen g).1) (delayed d codes)) (fInt 8388607)

/-- The first-order high-pass filter (R273) of a value, after the last value and the last output. -/
def highPass (x x1 y1 : Nat) : Nat := fAdd (fMul Config.hpfB (fSub x x1)) (fMul Config.hpfA y1)

/-- A code of a channel: limited to ±(2²³ − 1), and whether it lay beyond (R271). -/
def limitCode (code : Int) : Int × Bool :=
  (max (-8388607) (min 8388607 code), decide (8388607 < code.natAbs))

/-- Linear interpolation between calibration points, held at the end values (R273): a binary64 at a temperature. -/
def interpolate : List (Int × Nat) → Int → Nat
  | [], _ => 0
  | [p], _ => p.2
  | p :: q :: t, x =>
    if x ≤ p.1 then p.2
    else if x < q.1 then
      fAdd p.2 (fDiv (fMul (fSub q.2 p.2) (fInt (x - p.1))) (fInt (q.1 - p.1)))
    else interpolate (q :: t) x

/-- What a line cycle gives for a phase (R277). -/
structure PhaseQ where
  urms : Nat
  irms : Nat
  u1 : Nat
  i1 : Nat
  p : Nat
  q : Nat
  s : Nat
  p1 : Nat
  q1 : Nat
  s1 : Nat
  thdU : Nat
  thdI : Nat
  e : Nat
  qe : Nat

/-! ## Harmonics (R277) -/

/-- cos(2πk/256) in fixed point. -/
def cosTable : List Int := (List.range 256).map fun k => Fp.fixCos (2 * Fp.fixPi * k / 256)

/-- A cycle at 256 points evenly spaced from its opening, by four-point Lagrange interpolation of the samples (number,
value), each rounded once. -/
def resample (samples : List (Nat × Nat)) (opening len : Rat) : List Nat :=
  (List.range 256).map fun j =>
    let t : Rat := opening + len * j / 256
    let k := t.floor
    let v : Int → Rat := fun i => match samples.find? fun y => (y.1 : Int) = i with | some y => Fp.toRat y.2 | none => 0
    Fp.ofRat (lagrange (v (k - 1)) (v k) (v (k + 1)) (v (k + 2)) (t - k))

/-- A fixed-point number to the nearest multiple of 2⁻³⁰⁰: what the cosines' own error leaves of a sum that is 0 goes. -/
def settleFix (x : Int) : Int := (x + 2 ^ 99) / 2 ^ 100 * 2 ^ 100

/-- RMS magnitude and phase of harmonic `h` of 256 points, x = √2 · U · cos(hωt + α): the discrete Fourier transform, each
result rounded once. -/
def harmonic (points : List Nat) (h : Nat) : Nat × Nat :=
  let ps := points.zipIdx.map fun x => (Fp.fixRat (Fp.toRat x.1), x.2)
  let sum : Nat → Int := fun turn =>
    settleFix (ps.foldl (fun a x => a + Fp.fixMul x.1 (cosTable.getD ((h * x.2 + turn) % 256) 0)) 0)
  let re := sum 0
  let im := sum 64
  (Fp.ofFix (Fp.fixSqrt (2 * (Fp.fixMul re re + Fp.fixMul im im)) / 256), Fp.ofFix (Fp.fixAngle im re))

def fpSin (x : Nat) : Nat := Fp.ofFix (Fp.fixSin (Fp.fixRat (Fp.toRat x)))
def fpCos (x : Nat) : Nat := Fp.ofFix (Fp.fixCos (Fp.fixRat (Fp.toRat x)))

/-- √(Σ x² / n). -/
def rms (l : List Nat) : Nat := fSqrt (fDiv (fSum (l.map fun x => fMul x x)) (fInt l.length))

/-- The total harmonic distortion in %: 0 where the fundamental is below 0.005 · KFS / √2. -/
def thd (kfs : Nat) (mags : List Nat) : Nat :=
  let u1 := mags.headD 0
  if fLt u1 (fDiv (fMul (fRatio 5 1000) (Fp.widen kfs).1) (fSqrt (fInt 2))) then 0
  else fDiv (fMul (fInt 100) (fSqrt (fSum ((mags.drop 1).map fun x => fMul x x)))) u1

/-- The quantities of a phase over a cycle: the samples in it, those with neighbours for resampling, opening, length. -/
def phaseQ (kfsU kfsI : Nat) (us is : List Nat) (wu wi : List (Nat × Nat)) (opening len : Rat) : PhaseQ :=
  let n := fInt us.length
  let ui := fSum ((us.zip is).map fun x => fMul x.1 x.2)
  let hs := rangeFrom 1 64
  let pu := resample wu opening len
  let pi := resample wi opening len
  let hu := hs.map (harmonic pu)
  let hi := hs.map (harmonic pi)
  let u1 := (hu.headD (0, 0)).1
  let i1 := (hi.headD (0, 0)).1
  let ang := fSub (hu.headD (0, 0)).2 (hi.headD (0, 0)).2
  let s1 := fMul u1 i1
  let q := fSum ((hu.zip hi).map fun x => fMul (fMul x.1.1 x.2.1) (fpSin (fSub x.1.2 x.2.2)))
  let urms := rms us
  let irms := rms is
  { urms := urms, irms := irms, u1 := u1, i1 := i1, p := fDiv ui n, q := q, s := fMul urms irms,
    p1 := fMul s1 (fpCos ang), q1 := fMul s1 (fpSin ang), s1 := s1,
    thdU := thd kfsU (hu.map (·.1)), thdI := thd kfsI (hi.map (·.1)),
    e := fDiv ui (fInt 32000), qe := fDiv (fMul q n) (fInt 32000) }

end Sys2Proof.Machine
end

