-- ==== Sys2Proof/Machine/Tally.lean ====
section
/-! DEFINITION. The Tally's samples, line cycles, energy and power-quality events (R270 to R283, R288 to R290, R296 to
R302). Readings and choices: DEDUCED log 35. -/

namespace Sys2Proof.Machine

def dFdr (f : Nat) : Nat := 0x400 * f
def dTch (ch : Nat) : Nat := 0x100 * ch
def dPo (j : Nat) : Nat := 0x20 * j
def dTh (c : Nat) : Nat := 0x100 * c

def State.tch (s : State) (ch : Nat) : TlyCh := AMap.get {} s.tly.chs ch
def State.setTch (s : State) (ch : Nat) (x : TlyCh) : State :=
  { s with tly := { s.tly with chs := AMap.set {} s.tly.chs ch x } }
def State.fdr (s : State) (f : Nat) : Fdr := AMap.get {} s.tly.fdrs f
def State.setFdr (s : State) (f : Nat) (x : Fdr) : State :=
  { s with tly := { s.tly with fdrs := AMap.set {} s.tly.fdrs f x } }
def State.thm (s : State) (c : Nat) : Thm := AMap.get {} s.tly.thms c
def State.setThm (s : State) (c : Nat) (x : Thm) : State :=
  { s with tly := { s.tly with thms := AMap.set {} s.tly.thms c x } }
def State.pulse (s : State) (j : Nat) : PulseOut := AMap.get {} s.tly.outs j
def State.setPulse (s : State) (j : Nat) (x : PulseOut) : State :=
  { s with tly := { s.tly with outs := AMap.set {} s.tly.outs j x } }

def State.tlyOn (s : State) : Bool := s.on TLY_CTRL_ENABLE
def State.fdrOn (s : State) (f : Nat) : Bool := s.tlyOn && s.on TLY_FDR_CTRL_ENABLE (dFdr f)
def State.thOn (s : State) (c : Nat) : Bool := s.tlyOn && s.on TLY_TH_CTRL_ENABLE (dTh c)
def State.poOn (s : State) (j : Nat) : Bool := s.tlyOn && s.on TLY_PO_CFG_ENABLE (dPo j)

/-- A channel's HPF (R273). -/
def State.chHpf (s : State) (ch : Nat) : Bool :=
  if ch < 28 then s.on TLY_CH_CFG_HPF (dTch ch) else s.on TLY_CHG_CFG_HPF (dTch (ch - 28))
def State.chNpts (s : State) (ch : Nat) : Nat :=
  if ch < 28 then s.g TLY_CH_CFG_NPTS (dTch ch) else s.g TLY_CHG_CFG_NPTS (dTch (ch - 28))

/-- A feeder's settings as its registers hold them. -/
def State.fdrCfg (s : State) (f : Nat) : FdrCfg :=
  let d := dFdr f
  { mask := s.g TLY_FDR_CFG_PHASE_MASK d, phase := s.g TLY_FDR_CFG_FREQ_PHASE d, hz60 := s.on TLY_FDR_CFG_NOMINAL60 d,
    sagRef := s.on TLY_FDR_CFG_SAGREF d, udin := s.g TLY_FDR_UDIN_UDIN d, sag := s.g TLY_FDR_PQ_THR_SAG d,
    swell := s.g TLY_FDR_PQ_THR_SWELL d, hyst := s.g TLY_FDR_PQ_THR2_HYST d, int := s.g TLY_FDR_PQ_THR2_INT d,
    latch := s.g TLY_FDR_LATCH_N d,
    kfs := (List.range 7).map fun k => s.g TLY_CH_KFS_KFS (dTch (7 * f + k)),
    hpf := (List.range 7).map fun k => s.chHpf (7 * f + k) }

/-! ## Correction (R273) -/

/-- The gain and delay of a channel at the last die temperature take effect. -/
def State.chUpdate (s : State) (ch : Nat) : State :=
  match s.tly.temp with
  | none => s
  | some t =>
    let d := dTch ch
    let pts := List.range (max 1 (min 16 (s.chNpts ch)))
    let at_ : Nat → Int := fun k => toSigned 16 (s.g TLY_CH_CAL_T_TEMP (d + 0xC * k))
    let g := interpolate (pts.map fun k => (at_ k, (Fp.widen (s.g TLY_CH_CAL_G_GAIN (d + 0xC * k))).1)) t
    let dl := interpolate (pts.map fun k => (at_ k, fInt (toSigned 32 (s.g TLY_CH_CAL_D_DELAY (d + 0xC * k))))) t
    let near := (Fp.toInt true (-65536) 65536 dl).1
    (s.p TLY_CH_GAIN_NOW_G d (Fp.narrow g)).p TLY_CH_DELAY_NOW_D d (ofSigned 32 near)

/-- A code of a channel corrected with what is in force (R273): `h` lists the samples before it, newest first. -/
def State.chCorrect (s : State) (ch n : Nat) (code : Int) (kfs : Nat) (hpf : Bool) (h : List TlyCode) : TlyCode :=
  let d := dTch ch
  let v := correct kfs (s.g TLY_CH_GAIN_NOW_G d) (toSigned 32 (s.g TLY_CH_DELAY_NOW_D d)) (code :: (h.take 3).map (·.code))
  let y := match h with
    | p :: _ => highPass v p.pre p.out
    | [] => highPass v 0 0
  ⟨n, code, v, if hpf && decide (ch < 28) then y else v⟩

/-- A channel takes its code (R271): CLIP where it lay beyond the limit, and the corrected value. -/
def State.chSample (s : State) (ch : Nat) (code : Int) (kfs : Nat) (hpf : Bool) : Nat × State :=
  let x := s.tch ch
  let c := limitCode code
  let e := s.chCorrect ch s.tly.n c.1 kfs hpf x.hist
  let s := if c.2 then s.hw TLY_CH_STATE_CLIP (dTch ch) 1 else s
  (e.out, s.setTch ch { hist := (e :: x.hist).take 800 })

/-- The samples of a channel from an instant on, corrected anew with what is in force from there (R273). -/
def State.chAgain (s : State) (ch kfs : Nat) (hpf : Bool) (from_ : Rat) : List TlyCode → List TlyCode
  | [] => []
  | e :: t =>
    if from_ ≤ (e.n : Rat) then
      let t' := State.chAgain s ch kfs hpf from_ t
      s.chCorrect ch e.n e.code kfs hpf t' :: t'
    else e :: t

/-- The samples of a feeder that its new cycle has taken before its opening was known take the cycle's correction (R273):
within one cycle every sample is corrected alike. -/
def State.fdrAgain (s : State) (f : Nat) (from_ : Rat) : State :=
  let c := (s.fdr f).cfg
  (List.range 7).foldl (fun s k =>
    let h := s.chAgain (7 * f + k) (c.kfs.getD k 0) (c.hpf.getD k true) from_ (s.tch (7 * f + k)).hist
    let x := s.fdr f
    let rows := x.samples.map fun y =>
      match (if from_ ≤ (y.1 : Rat) then h.find? fun e => e.n = y.1 else none) with
      | some e => (y.1, y.2.set k e.out)
      | none => y
    (s.setTch (7 * f + k) { hist := h }).setFdr f { x with samples := rows }) s

/-! ## Pulse outputs (R296 to R298) -/

/-- A pulse falls due on output `j`: into the backlog, or dropped, by mode. -/
def State.pulseDue (s : State) (j : Nat) : State :=
  let d := dPo j
  let x := s.pulse j
  let s := s.setPulse j { x with lastDue := some s.tly.n, gap := x.lastDue.map fun l => s.tly.n - l }
  if s.mode = STANDBY ∨ s.mode = PROVISION then s
  else if s.mode = SAFE then s.incSat TLY_PO_STATUS_DROPPED d
  else if s.g TLY_PO_STATUS_BACKLOG d < 16 then s.inc TLY_PO_STATUS_BACKLOG d
  else (s.hw TLY_PO_STATUS_OVERFLOW d 1).incSat TLY_PO_STATUS_DROPPED d

/-- The accumulator's whiles (R296), bounded by a count of pulses that no energy passes. -/
def State.pulseDrain : Nat → State → Nat → State
  | 0, s, _ => s
  | f + 1, s, j =>
    let w := fInt (s.g TLY_PO_WEIGHT_WEIGHT (dPo j))
    let x := s.pulse j
    if fLe w x.acc then State.pulseDrain f ((s.setPulse j { x with acc := fSub x.acc w }).pulseDue j) j
    else if fLe x.acc (Fp.neg w) then State.pulseDrain f (s.setPulse j { x with acc := fAdd x.acc w }) j
    else s

/-- Energy (binary64) for an output. -/
def State.pulseAdd (s : State) (j e : Nat) : State :=
  if s.poOn j && s.mode != PROVISION then
    let x := s.pulse j
    let a := fAdd x.acc e
    let w := max 1 (s.g TLY_PO_WEIGHT_WEIGHT (dPo j))
    ((s.setPulse j { x with acc := a }).pulseDrain ((Fp.toRat a).floor.natAbs / w + 2) j)
  else s

/-- Each change of register mode clears every accumulator and backlog (R289). -/
def State.clearPulses (s : State) : State :=
  (List.range 8).foldl (fun s j =>
    (s.setPulse j { s.pulse j with acc := 0, lastDue := none, gap := none }).p TLY_PO_STATUS_BACKLOG (dPo j) 0) s

/-! ## Register modes (R288, R289) -/

/-- The register mode of a device mode; none in SAFE, which keeps it. -/
def regMode (m : Nat) : Option Nat :=
  if m = RUN ∨ m = STANDBY then some 1 else if m = COMMISSION ∨ m = FACTORY then some 2
  else if m = PROVISION then some 0 else none

/-- SYS_MODE.TRANSIT returns to 0 once every enabled quay and Tally have taken up the mode (R41); a claim of the pair
keeps it (R404). -/
def State.transitCheck (s : State) : State :=
  if s.on SYS_MODE_TRANSIT && s.pair.claim.isNone && !(s.on TLY_CTRL_ENABLE && s.on TLY_STATUS_TRANSIT) &&
      (List.range 6).all (fun q => !s.on BRN_QUAY_CTRL_ENABLE (dQuay q) || (s.quay q).cmdAt.isNone) then
    s.p SYS_MODE_TRANSIT 0 0
  else s

/-- TRANSIT and DELTA_MODE; SAFE keeps what is in force, and nothing waits (R288). -/
def State.tlyTransit (s : State) : State :=
  let t := s.tly.target
  let wait := s.mode != SAFE && ( (List.range 4).any (fun f => s.fdrOn f && (s.fdr f).mode != t) ||
    (List.range 32).any (fun c => s.thOn c && (s.thm c).mode != t))
  let s := s.p TLY_STATUS_TRANSIT 0 (bit wait)
  if wait || s.mode == SAFE then s else (s.p TLY_STATUS_DELTA_MODE 0 (bit (t == 2))).transitCheck

def zeros (n : Nat) : List Nat := List.replicate n 0

/-- A feeder's deltas go to its registers (R290). -/
def State.fdrLatch (s : State) (f : Nat) (part : Bool) : State :=
  let d := dFdr f
  let x := s.fdr f
  let s := (List.range 16).foldl (fun s i => s.p TLY_FDR_DELTA_VALUE (d + 4 * i) (ofSigned 32 (x.delta.getD i 0))) s
  let s := ((s.inc TLY_FDR_DELTA_STATUS_SEQ d).p TLY_FDR_DELTA_STATUS_PARTIAL d (bit part)).setFdr f
    { x with delta := List.replicate 16 0, window := 0 }
  s.fireEdge srcTlyLatch

/-- A feeder takes up the register mode; in SAFE the one in force stays (R288). -/
def State.fdrTakeup (s : State) (f : Nat) : State :=
  let x := s.fdr f
  let t := s.tly.target
  if x.mode = t ∨ s.mode = SAFE then s
  else
    let s := if x.mode = 2 ∧ 0 < x.window then s.fdrLatch f true else s
    let x := s.fdr f
    let x := if t = 2 then { x with dres := zeros 16, delta := List.replicate 16 0, window := 0 } else x
    ((s.setFdr f { x with mode := t }).clearPulses).tlyTransit

/-- A thermal channel's two deltas go to its registers, saturating at 32 bits (R290, R291). -/
def State.thLatch (s : State) (c : Nat) (part : Bool) : State :=
  let d := dTh c
  let x := s.thm c
  let one : State → Nat → State := fun s i =>
    let v := x.delta.getD i 0
    let w : Int := max (-2147483648) (min 2147483647 v)
    let s := s.p TLY_TH_DELTA_VALUE (d + 4 * i) (ofSigned 32 w)
    if w = v then s else s.p TLY_TH_STATUS_DELTA_SAT d 1
  let s := (List.range 2).foldl one (s.p TLY_TH_STATUS_DELTA_SAT d 0)
  let s := ((s.inc TLY_TH_DELTA_STATUS_SEQ d).p TLY_TH_DELTA_STATUS_PARTIAL d (bit part)).setThm c
    { x with delta := [0, 0], window := 0 }
  s.fireEdge srcTlyLatch

/-- A thermal channel takes up the register mode; in SAFE the one in force stays (R288). -/
def State.thTakeup (s : State) (c : Nat) : State :=
  let x := s.thm c
  let t := s.tly.target
  if x.mode = t ∨ s.mode = SAFE then s
  else
    let s := if x.mode = 2 ∧ 0 < x.window then s.thLatch c true else s
    let x := s.thm c
    let x := if t = 2 then { x with dres := zeros 2, delta := [0, 0], window := 0 } else x
    ((s.setThm c { x with mode := t }).clearPulses).tlyTransit

/-- The device mode has changed: disabled feeders and channels take the register mode at once, the others at their next
boundary or sample (R289). -/
def State.tlyMode (s : State) (m : Nat) : State :=
  match regMode m with
  | none => s.tlyTransit
  | some t =>
    let s := { s with tly := { s.tly with target := t } }
    let s := (List.range 4).foldl (fun s f => if s.fdrOn f then s else s.fdrTakeup f) s
    let s := (List.range 32).foldl (fun s c => if s.thOn c then s else s.thTakeup c) s
    s.tlyTransit

/-! ## Samples (R271, R273, R275, R296) -/

/-- The counted crossing rules (R275): whether the voltage has passed −10 %, or +10 %, of √2 · UDIN. -/
def beyond (v udin : Nat) : Bool :=
  let x := Fp.toRat v
  let u := Fp.toRat (Fp.widen udin).1
  decide (2 * u * u < 100 * x * x)

/-- A crossing counts from 1/69 s to 1/42.5 s after the boundary of its kind before it. -/
def inTime (before : Option Rat) (at_ : Rat) : Bool :=
  match before with
  | some l => decide ((32000 : Rat) / 69 ≤ at_ - l ∧ at_ - l ≤ (64000 : Rat) / 85)
  | none => true

/-- Whether the open cycle has no half-cycle boundary yet: there is one between two boundaries. -/
def Fdr.halfDue (x : Fdr) : Bool :=
  match x.bnd, x.half with
  | none, _ => false
  | some _, none => true
  | some b, some h => decide (h < b)

/-- The half-cycle boundary that the next one is measured from: the one of the cycle before; none where that cycle had none. -/
def Fdr.halfRef (x : Fdr) : Option Rat :=
  match x.bnd0, x.half with
  | some b, some h => if b ≤ h then some h else none
  | _, _ => none

/-- A half-cycle boundary at an instant. -/
def Fdr.halved (x : Fdr) (at_ : Rat) : Fdr := { x with pend := x.pend ++ [(false, at_)], half := some at_, halfAt := none }

/-- A feeder takes its sample: the values join the cycle, crossings are found (R275, R276). -/
def State.fdrSample (s : State) (f : Nat) (vals : List Nat) : State :=
  let x := s.fdr f
  let n := s.tly.n
  let k := 2 * x.cfg.phase
  let v1 := vals.getD k 0
  let v0 : Option Nat := x.samples.getLast?.map fun y => y.2.getD k 0
  let x := { x with samples := x.samples ++ [(n, vals)] }
  let low := fLt v1 0 && beyond v1 x.cfg.udin
  let high := fLt 0 v1 && beyond v1 x.cfg.udin
  let x := match v0 with
    | none => x
    | some v0 =>
      let at_ : Rat := (n : Rat) - 1 + Fp.toRat v0 / (Fp.toRat v0 - Fp.toRat v1)
      let upward := fLt v0 0 && fLe 0 v1
      let downward := fLt 0 v0 && fLe v1 0
      if upward && x.dipped && inTime x.bnd at_ then
        { x with pend := x.pend ++ [(true, at_)], dipped := false, halfAt := none, bnd := some at_, bnd0 := x.bnd }
      else if downward && x.risen && x.halfDue && inTime x.halfRef at_ then { x.halved at_ with risen := false }
      else x
  let x := match x.halfAt with
    | some h => if h ≤ (n : Rat) then x.halved h else x
    | none => x
  s.setFdr f { x with dipped := x.dipped || low, risen := x.risen || high }

/-- The energy of a sample for outputs of KIND 0 and 1, in mWh (R296). -/
def State.pulseSample (s : State) (f : Nat) (vals : List Nat) : State :=
  let mask := (s.fdr f).cfg.mask
  (List.range 8).foldl (fun s j =>
    let d := dPo j
    let src := s.g TLY_PO_CFG_SOURCE d
    let kind := s.g TLY_PO_CFG_KIND d
    if kind < 2 ∧ src / 2 % 4 = f then
      let g := src / 8
      let ph := (List.range 3).filter fun p => mask.testBit p && (g == 3 || g == p)
      let ui := fSum (ph.map fun p => fMul (vals.getD (2 * p) 0) (vals.getD (2 * p + 1) 0))
      let e := fDiv (fDiv ui (fInt 32000)) (fRatio 36 10)
      s.pulseAdd j (if kind = 1 then Fp.neg e else e)
    else s) s

/-- TALLY_SAMPLE (R271, R273): a sample of every channel reaches CLK_FAB: what its filter gives, before the limit, for
channels 0 to 27 of the feeders and for the general channels 28 to 31. -/
def execTallySample (codes general : List (BitVec 32)) (s : State) : Out' :=
  .next (if s.tlyOn then
      let n := s.tly.n + 1
      let s := { s with tly := { s.tly with n := n, stamp := (s.tideNs + 2 ^ 64 - 750000) % 2 ^ 64,
                                            thDue := s.tly.thDue || n % 3200 == 0 } }
      let code : Nat → Int := fun ch => (if ch < 28 then codes.getD ch 0 else general.getD (ch - 28) 0).toInt
      let s := (List.range 4).foldl (fun s f =>
        let c := (s.fdr f).cfg
        let x := (List.range 7).foldl (fun (acc : List Nat × State) k =>
          let ch := 7 * f + k
          let y := acc.2.chSample ch (code ch) (c.kfs.getD k 0) (c.hpf.getD k true)
          (acc.1 ++ [y.1], y.2)) ([], s)
        if x.2.fdrOn f then (x.2.fdrSample f x.1).pulseSample f x.1 else x.2) s
      (List.range 4).foldl (fun s k =>
        let ch := 28 + k
        let y := s.chSample ch (code ch) (s.tly.genKfs.getD k 0) false
        let a := AMap.get (0, 0, 0) y.2.tly.gens k
        let b := (fAdd a.1 y.1, fAdd a.2.1 (fMul y.1 y.1), a.2.2 + 1)
        { y.2 with tly := { y.2.tly with gens := AMap.set (0, 0, 0) y.2.tly.gens k b } }) s
    else s)

/-! ## The report ring (R283) -/

def State.tlyEntry (s : State) (octets : List Byte) : State :=
  let k := s.g TLY_EVT_CFG_LOG2_SIZE
  let h := s.g TLY_EVT_HEAD_INDEX
  let t := s.g TLY_EVT_TAIL_INDEX
  let used := ringUsed k h t
  if used = 2 ^ k then s.incSat TLY_EVT_LOST_COUNT 0
  else
    let s := s.wbsEcc (s.g TLY_EVT_BASE_ADDR + 32 * (t % 2 ^ k)) octets
    let s := s.p TLY_EVT_TAIL_INDEX 0 (ringNext k t)
    if used = 0 then s.fireEdge srcTlyEvent else s

/-- An event entry, and its snapshot trigger (R282, R283, R439). TYPE 1 sag, 2 swell, 3 interruption. -/
def State.eventEntry (s : State) (f type edge : Nat) (e : PqEvent) : State :=
  let start := edge = 0
  let s := s.tlyEntry (leBytes 1 type ++ leBytes 1 edge ++ leBytes 1 f ++ leBytes 1 e.phases ++
    leBytes 4 (if start then 0 else e.dur) ++ leBytes 4 (Fp.narrow e.ext) ++ leBytes 4 (Fp.narrow e.ref) ++
    leBytes 8 (if start then 0 else e.start) ++ leBytes 8 s.tly.stamp)
  let fires : Nat → Bool := fun d =>
    let sel := s.g LOG_SNAP_CFG_SEL (0x100 * d)
    s.g LOG_SNAP_CFG_TRIG (0x100 * d) == 3 && sel % 4 == f && sel.testBit (1 + type) &&
      sel.testBit (if start then 5 else 6)
  s.snapFire fires (type + 256 * edge + 65536 * f)

def State.fdrEvents (s : State) (f : Nat) : State :=
  let x := s.fdr f
  s.p TLY_FDR_CYCLE_IN_EVENT (dFdr f) (bit x.sag.isSome * 4 + bit x.swell.isSome * 2 + bit x.intr.isSome)

/-! ## Events (R280 to R282) -/

/-- A threshold in units of 0.01 % of a reference. -/
def level (ref : Nat) (thr : Int) : Nat := fDiv (fMul ref (fInt thr)) (fInt 10000)

/-- One kind of event at a refresh: which phases crossed the start threshold, whether it starts, whether it ends. -/
def State.pqKind (s : State) (f type : Nat) (cur : Option PqEvent) (phases : Nat) (starts ends : Bool) (ext ref : Nat) :
    Option PqEvent × State :=
  match cur with
  | none =>
    if starts then
      let e : PqEvent := ⟨s.tly.stamp, 1, ext, phases, ref⟩
      (some e, s.eventEntry f type 0 e)
    else (none, s)
  | some e =>
    if ends then (none, s.eventEntry f type 1 e)
    else (some { e with dur := e.dur + 1, phases := e.phases ||| phases,
                        ext := if type = 2 then fMax e.ext ext else fMin e.ext ext }, s)

/-- Urms(1/2) is refreshed over the samples of the cycle that ends now, and tested (R276, R281). -/
def State.refresh (s : State) (f : Nat) (lo hi : Rat) : State :=
  let x := s.fdr f
  let c := x.cfg
  let rows := x.samples.filter fun y => decide (lo ≤ (y.1 : Rat) ∧ (y.1 : Rat) < hi)
  let phases := (List.range 3).filter fun p => c.mask.testBit p
  let us : List (Nat × Nat) := phases.map fun p => (p, rms (rows.map fun y => y.2.getD (2 * p) 0))
  let s := us.foldl (fun s y => s.p TLY_FDR_RESULT_VALUE (dFdr f + 0x40 * y.1 + 48) (Fp.narrow y.2)) s
  let udin := (Fp.widen c.udin).1
  let ref := if c.sagRef then udin else x.usr
  let mark : (Nat → Bool) → Nat := fun p => (us.filter fun y => p y.2).foldl (fun m y => m + 2 ^ y.1) 0
  let least := us.foldl (fun m y => fMin m y.2) ((us.headD (0, 0)).2)
  let most := us.foldl (fun m y => fMax m y.2) ((us.headD (0, 0)).2)
  let below : Nat → Nat → Bool := fun l u => fLt u l
  let sagL := level ref c.sag
  let sagE := level ref (c.sag + c.hyst)
  let swL := level ref c.swell
  let swE := level ref (c.swell - c.hyst)
  let inL := level udin c.int
  let inE := level udin (c.int + c.hyst)
  let a := s.pqKind f 1 x.sag (mark (below sagL)) (us.any fun y => fLt y.2 sagL) (us.all fun y => fLe sagE y.2) least ref
  let b := a.2.pqKind f 2 x.swell (mark fun u => fLt swL u) (us.any fun y => fLt swL y.2) (us.all fun y => fLe y.2 swE)
    most ref
  let d := b.2.pqKind f 3 x.intr (mark (below inL)) (!us.isEmpty && us.all fun y => fLt y.2 inL)
    (us.any fun y => fLe inE y.2) least udin
  let s := d.2
  (s.setFdr f { s.fdr f with sag := a.1, swell := b.1, intr := d.1 }).fdrEvents f

/-- Events in progress end with EDGE 2 when their feeder or TLY is disabled (R282). -/
def State.fdrAbort (s : State) (f : Nat) : State :=
  let x := s.fdr f
  let one : State → Nat → Option PqEvent → State := fun s t e => match e with
    | some e => s.eventEntry f t 2 e
    | none => s
  let s := one (one (one s 1 x.sag) 2 x.swell) 3 x.intr
  (s.setFdr f { s.fdr f with sag := none, swell := none, intr := none }).fdrEvents f

/-! ## A line cycle closes (R275 to R280) -/

/-- Energy `e` (W·s) goes to the accumulator of its sign: the index of the positive one, the negative one following it.
Totals and deltas have residues of their own. -/
def State.energy (s : State) (f i e : Nat) : State :=
  let x := s.fdr f
  let neg := fLt e 0
  let i := if neg then i + 1 else i
  let v := if neg then Fp.neg e else e
  if x.mode = 0 then s
  else
    let units := fDiv v (if x.mode = 1 then fRatio 36 10 else fRatio 36 10000)
    let old := if x.mode = 1 then x.res else x.dres
    let w := wholeOf (fAdd (old.getD i 0) units)
    let res := (List.range 16).map fun k => if k = i then w.2 else old.getD k 0
    if x.mode = 1 then
      let d := dFdr f + 8 * i
      (s.setFdr f { x with res := res }).p TLY_FDR_TOTAL_VALUE d
        (ofSigned 64 (toSigned 64 (s.g TLY_FDR_TOTAL_VALUE d) + w.1))
    else
      let delta := (List.range 16).map fun k => if k = i then x.delta.getD k 0 + w.1 else x.delta.getD k 0
      s.setFdr f { x with dres := res, delta := delta }

/-- The quantities of the cycle from `lo` to `hi` go to their registers, its energy to the accumulators (R277, R279). -/
def State.cycleResults (s : State) (f : Nat) (lo hi : Rat) : State :=
  let d := dFdr f
  let x := s.fdr f
  let c := x.cfg
  let rows := x.samples.filter fun y => decide (lo ≤ (y.1 : Rat) ∧ (y.1 : Rat) < hi)
  let wide := x.samples.filter fun y => decide (lo - 2 ≤ (y.1 : Rat) ∧ (y.1 : Rat) < hi + 2)
  let col : Nat → List Nat := fun k => rows.map fun y => y.2.getD k 0
  let wcol : Nat → List (Nat × Nat) := fun k => wide.map fun y => (y.1, y.2.getD k 0)
  let phases := (List.range 3).filter fun p => c.mask.testBit p
  let qs := phases.map fun p =>
    (p, phaseQ (c.kfs.getD (2 * p) 0) (c.kfs.getD (2 * p + 1) 0) (col (2 * p)) (col (2 * p + 1)) (wcol (2 * p))
      (wcol (2 * p + 1)) lo (hi - lo))
  let put : State → Nat → Nat → Nat → State := fun s g r v =>
    s.p TLY_FDR_RESULT_VALUE (d + 0x40 * g + 4 * r) (Fp.narrow v)
  let s := qs.foldl (fun s y =>
    let q := y.2
    [q.urms, q.irms, q.u1, q.i1, q.p, q.q, q.s, q.p1, q.q1, q.s1, q.thdU, q.thdI].zipIdx.foldl
      (fun s z => put s y.1 z.2 z.1) s) s
  let sum : (PhaseQ → Nat) → Nat := fun g => fSum (qs.map fun y => g y.2)
  let s := [(4, sum (·.p)), (5, sum (·.q)), (6, sum (·.s)), (7, sum (·.p1)), (8, sum (·.q1)), (9, sum (·.s1))].foldl
    (fun s z => put s 3 z.1 z.2) s
  let s := s.p TLY_FDR_IN_RMS_VALUE d (Fp.narrow (rms (col 6)))
  let s := s.p TLY_FDR_IN_RMS1_VALUE d (Fp.narrow (harmonic (resample (wcol 6) lo (hi - lo)) 1).1)
  let s := qs.foldl (fun s y => (s.energy f (4 * y.1) y.2.e).energy f (4 * y.1 + 2) y.2.qe) s
  (s.energy f 12 (sum (·.e))).energy f 14 (sum (·.qe))

/-- The sliding reference (R280): each block of 10 or 12 cycles moves it, unless an event of the feeder is in progress. -/
def State.usrUpdate (s : State) (f : Nat) (lo hi : Rat) : State :=
  let x := s.fdr f
  let rows := x.samples.filter fun y => decide (lo ≤ (y.1 : Rat) ∧ (y.1 : Rat) < hi)
  let sums := (List.range 3).map fun p =>
    fAdd (x.blkSum.getD p 0) (fSum (rows.map fun y => fMul (y.2.getD (2 * p) 0) (y.2.getD (2 * p) 0)))
  let x := { x with blkSum := sums, blkN := x.blkN + rows.length, blkCycles := x.blkCycles + 1 }
  let block : Nat := if x.cfg.hz60 then 12 else 10
  if x.blkCycles < block then s.setFdr f x
  else
    let phases := (List.range 3).filter fun p => x.cfg.mask.testBit p
    let u := fDiv (fSum (phases.map fun p => fSqrt (fDiv (sums.getD p 0) (fInt x.blkN)))) (fInt phases.length)
    let busy := x.sag.isSome || x.swell.isSome || x.intr.isSome
    let usr := if busy then x.usr else fAdd (fMul (fRatio 9967 10000) x.usr) (fMul (fRatio 33 10000) u)
    (s.setFdr f { x with usr := usr, blkCycles := 0, blkN := 0, blkSum := [] }).p TLY_FDR_USR_VALUE (dFdr f)
      (Fp.narrow usr)

/-- A boundary of feeder `f`, counted or placed (R275, R277, R289, R290, R301). -/
def State.boundary (s : State) (f : Nat) (at_ : Rat) (counted : Bool) : State :=
  let d := dFdr f
  let x := s.fdr f
  let s := match x.last with
    | none => s
    | some lo =>
      let len := at_ - lo
      let x := if counted && x.counted then { x with held := some len } else x
      let s := s.setFdr f x
      let bad := s.eccIn (.feeder f)
      let s := if bad then (s.raise .tly TLY_ECC_UNCORR none f).eccGone (.feeder f)
        else ((s.p TLY_FDR_FREQ_VALUE d (Fp.narrow (Fp.ofRat (32000 / len)))).cycleResults f lo at_).usrUpdate f lo at_
      let s := (s.p TLY_FDR_CYCLE_VALID d 1).inc TLY_FDR_CYCLE_COUNT d
      let x := s.fdr f
      let s := if x.mode = 2 then
          let s := s.setFdr f { x with window := x.window + 1 }
          if x.cfg.latch ≤ x.window + 1 then s.fdrLatch f false else s
        else s
      if bad then s else s.refresh f lo at_
  let s := if counted then (if x.counted then s.p TLY_FDR_CYCLE_FREQ_HELD d 0 else s)
    else s.p TLY_FDR_CYCLE_FREQ_HELD d 1
  let s := s.fdrTakeup f
  let x := s.fdr f
  let old : Rat := max (at_ - 800) (min (at_ - 2) (x.lastHalf.getD at_))
  let s := s.setFdr f { x with last := some at_, counted := counted, cfg := s.fdrCfg f,
                               samples := x.samples.filter fun y => decide (old ≤ (y.1 : Rat)) }
  ((List.range 7).foldl (fun s k => s.chUpdate (7 * f + k)) s).fdrAgain f at_

/-- LINE_CYCLE_BOUNDARY (R275, R277): the next crossing found is an upward one that counts. -/
def execLineCycleBoundary (f : Fin 4) (s : State) : Out' :=
  let x := s.fdr f.val
  .next (if s.fdrOn f.val then
      match x.pend with
      | (true, at_) :: t => (s.setFdr f.val { x with pend := t }).boundary f.val at_ true
      | _ => s
    else s)

/-- The held period in samples (R275): the last measured, or the nominal. -/
def Fdr.period (x : Fdr) : Rat := x.held.getD (if x.cfg.hz60 then 32000 / 60 else 640)

/-- HALF_CYCLE_BOUNDARY (R276, R281): the next crossing found is a downward one. -/
def execHalfCycleBoundary (f : Fin 4) (s : State) : Out' :=
  let x := s.fdr f.val
  .next (if s.fdrOn f.val then
      match x.pend with
      | (false, at_) :: t =>
        let s := s.setFdr f.val { x with pend := t, lastHalf := some at_ }
        match x.lastHalf with
        | some lo => s.refresh f.val (if at_ - lo ≤ 64000 / 85 then lo else at_ - x.period) at_
        | none => s
      | _ => s
    else s)

/-- BOUNDARY_PLACED (R275): no crossing has counted by 1/42.5 s. -/
def execBoundaryPlaced (f : Fin 4) (s : State) : Out' :=
  let x := s.fdr f.val
  let limit : Rat := x.last.getD (x.since : Rat) + 64000 / 85
  .next (if s.fdrOn f.val && x.pend.isEmpty && decide (limit ≤ (s.tly.n : Rat)) then
      let at_ : Rat := match x.last with | some l => l + x.period | none => limit
      let s := s.boundary f.val at_ false
      s.setFdr f.val { s.fdr f.val with halfAt := some (at_ + x.period / 2), bnd := some at_, bnd0 := x.bnd }
    else s)

/-! ## Pulse pins (R297, R298) -/

/-- Whether an output may pulse now. -/
def State.pulseMay (s : State) (j : Nat) : Bool :=
  s.mode == RUN || ((s.mode == COMMISSION || s.mode == FACTORY) && s.on TLY_PO_CFG_COMM_EN (dPo j))

/-- PULSE_OUTPUT_START (R297): the idle output takes a pulse from its backlog. -/
def execPulseOutputStart (j : Fin 8) (s : State) : Out' :=
  let d := dPo j.val
  let x := s.pulse j.val
  .next (if s.poOn j.val && x.phase == 0 && s.g TLY_PO_STATUS_BACKLOG d != 0 && s.pulseMay j.val then
      let full := 32 * s.g TLY_PO_CFG_WIDTH_MS d
      let w := match x.gap with | some t => min full (max 32 (t / 2)) | none => full
      let s := (s.p TLY_PO_STATUS_BACKLOG d (s.g TLY_PO_STATUS_BACKLOG d - 1)).inc TLY_PO_COUNT_COUNT d
      s.setPulse j.val { x with phase := 1, width := w, until_ := s.tly.n + w }
    else s)

/-- PULSE_OUTPUT_END (R297): after w samples the pin returns to its inactive level. -/
def execPulseOutputEnd (j : Fin 8) (s : State) : Out' :=
  let x := s.pulse j.val
  .next (if x.phase == 1 && decide (x.until_ ≤ s.tly.n) then
      s.setPulse j.val { x with phase := 2, until_ := s.tly.n + x.width }
    else s)

/-- PULSE_OUTPUT_IDLE (R297): after w samples more the output is idle. -/
def execPulseOutputIdle (j : Fin 8) (s : State) : Out' :=
  let x := s.pulse j.val
  .next (if x.phase == 2 && decide (x.until_ ≤ s.tly.n) then s.setPulse j.val { x with phase := 0 } else s)

/-- The level of TLY_PULSE_j; none: released (R298). -/
def State.pulsePin (s : State) (j : Nat) : Option Bool :=
  if s.poOn j then some (((s.pulse j).phase == 1 && s.pulseMay j) == s.on TLY_PO_CFG_POL (dPo j)) else none

/-! ## Reads and the die sensor -/

/-- The registers of a feeder that a read of TLY_FDR_CYCLE captures, by window offset (R278). -/
def fdrCaptured (f : Nat) : List (Fld × Nat) :=
  let d := dFdr f
  [(TLY_FDR_FREQ_VALUE, d), (TLY_FDR_USR_VALUE, d), (TLY_FDR_IN_RMS_VALUE, d), (TLY_FDR_IN_RMS1_VALUE, d)] ++
    (List.range 4).flatMap fun g => (List.range 13).map fun r => (TLY_FDR_RESULT_VALUE, d + 0x40 * g + 4 * r)

def State.captureRegs (s : State) (l : List (Fld × Nat)) : State :=
  { s with capture := l.foldl (fun m x => AMap.ins m (x.1.off + x.2) (s.g x.1 x.2)) s.capture }

/-- TLY_CYCLE_READ (R278). -/
def execTlyCycleRead (f : Fin 4) (s : State) : Out' :=
  let d := dFdr f.val
  .next (s.query fun s => (s.captureRegs (fdrCaptured f.val)).answer true
    (s.g TLY_FDR_CYCLE_VALID d * 2 ^ 31 + s.g TLY_FDR_CYCLE_FREQ_HELD d * 2 ^ 30 + s.g TLY_FDR_CYCLE_IN_EVENT d * 2 ^ 27 +
      s.g TLY_FDR_CYCLE_COUNT d))

def thCaptured (c : Nat) : List (Fld × Nat) :=
  [TLY_TH_FLOW_VALUE, TLY_TH_TS_VALUE, TLY_TH_TR_VALUE, TLY_TH_POWER_VALUE].map fun x => (x, dTh c)

/-- TLY_TH_STATUS_READ (R287). -/
def execTlyThStatusRead (c : Fin 32) (s : State) : Out' :=
  let d := dTh c.val
  .next (s.query fun s => (s.captureRegs (thCaptured c.val)).answer true
    (s.g TLY_TH_STATUS_VALID d * 2 ^ 31 + s.g TLY_TH_STATUS_TEMP_CLAMP d * 2 ^ 30 + s.g TLY_TH_STATUS_DELTA_SAT d * 2 ^ 29 +
      s.g TLY_TH_STATUS_SOURCE_FAIL d * 2 ^ 28 + s.g TLY_TH_STATUS_REVERSALS d))

/-- DIE_TEMP_READING (R273, R496, R500): the die sensor's reading in 0.1 °C, or none where it fails. -/
def execDieTempReading (temp : Option (BitVec 16)) (s : State) : Out' :=
  .next (match temp with
    | none => (s.p TLY_STATUS_SENSOR_VALID 0 0).raise .tly TLY_SENSOR_ERR none 0
    | some b =>
      let t := b.toInt
      let s := { s with tly := { s.tly with temp := some t } }
      let s := (s.p TLY_STATUS_SENSOR_VALID 0 1).p TLY_STATUS_TEMP 0 b.toNat
      let s := (s.p PWR_TEMP_TJ 0 b.toNat).p PWR_TEMP_MAX 0 (ofSigned 16 (max t (toSigned 16 (s.g PWR_TEMP_MAX))))
      if (s.g PWR_TEMP_CFG_TJ_LIMIT : Int) < t then s.raise .pwr PWR_THERMAL none (ofSigned 12 (t / 10)) else s)

end Sys2Proof.Machine
end

