-- ==== Sys2Proof/Machine/TallyHeat.lean ====
section
/-! DEFINITION. The Tally's thermal channels, its totals in MRAM, presets, and its enable checks (R284 to R287, R291 to
R295, R301 to R303). Readings and choices: DESIGN CHOICE log 34; DEDUCED log 35. -/

namespace Sys2Proof.Machine

def dPt (t : Nat) : Nat := 0x800 * t

/-! ## Property tables (R285) -/

/-- A table's value at a temperature (binary64), and whether the temperature was clamped: the field of point 0. -/
def State.property (s : State) (t : Nat) (f : Fld) (x : Nat) : Nat × Bool :=
  let d := dPt t
  let t0 := (Fp.widen (s.g TLY_TAB_T0_T0 d)).1
  let st := (Fp.widen (s.g TLY_TAB_STEP_STEP d)).1
  let n := s.g TLY_TAB_NPTS_NPTS d
  let v : Nat → Nat := fun k => (Fp.widen (s.g f (d + 8 * k))).1
  let top := fAdd t0 (fMul (fInt (n - 1 : Nat)) st)
  if fLt x t0 then (v 0, true)
  else if fLt top x then (v (n - 1), true)
  else
    let p := fDiv (fSub x t0) st
    let k := min (Fp.toRat p).floor.toNat (n - 2)
    (fAdd (v k) (fMul (fSub (v (k + 1)) (v k)) (fSub p (fInt k))), false)

/-! ## Registers of a channel (R286, R288) -/

/-- Add to one of a channel's four totals (Wh, Wh, L, L), or in delta mode to its deltas (mWh) and interval sums. -/
def State.thAdd (s : State) (c i v : Nat) : State :=
  let x := s.thm c
  if x.mode = 0 then s
  else if x.mode = 1 then
    let w := wholeOf (fAdd (x.res.getD i 0) v)
    let res := (List.range 4).map fun k => if k = i then w.2 else x.res.getD k 0
    let d := dTh c + 8 * i
    (s.setThm c { x with res := res }).p TLY_TH_TOTAL_VALUE d
      (ofSigned 64 (toSigned 64 (s.g TLY_TH_TOTAL_VALUE d) + w.1))
  else
    let sums := (List.range 4).map fun k => if k = i then fAdd (x.sums.getD k 0) v else x.sums.getD k 0
    if i < 2 then
      let w := wholeOf (fAdd (x.dres.getD i 0) (fMul v (fInt 1000)))
      let res := (List.range 2).map fun k => if k = i then w.2 else x.dres.getD k 0
      let delta := (List.range 2).map fun k => if k = i then x.delta.getD k 0 + w.1 else x.delta.getD k 0
      s.setThm c { x with dres := res, delta := delta, sums := sums }
    else s.setThm c { x with sums := sums }

def State.thTotals (s : State) (c : Nat) : List Int :=
  (List.range 4).map fun k => toSigned 64 (s.g TLY_TH_TOTAL_VALUE (dTh c + 8 * k))

/-- Close an interval: its entry goes to the report ring (R283, R287). -/
def State.thInterval (s : State) (c : Nat) : State :=
  let x := s.thm c
  let now := s.thTotals c
  let diff : Nat → Int := fun i =>
    if x.mode = 2 then (wholeOf (x.sums.getD i 0)).1 else now.getD i 0 - x.opened.getD i 0
  let sat : Int → Int := fun v => max (-2147483648) (min 2147483647 v)
  let satU : Int → Nat := fun v => (max 0 (min 4294967295 v)).toNat
  let flags := bit x.fail + 2 * bit x.clamp + 4 * bit (x.mode == 2)
  let s := s.tlyEntry (leBytes 1 16 ++ leBytes 1 (s.g TLY_TH_STATUS_REVERSALS (dTh c)) ++ leBytes 1 c ++
    leBytes 1 flags ++ leBytes 4 (ofSigned 32 (sat (diff 0))) ++ leBytes 4 (ofSigned 32 (sat (diff 1))) ++
    leBytes 4 (satU (diff 2)) ++ leBytes 4 (satU (diff 3)) ++ leBytes 4 0 ++ leBytes 8 s.tly.stamp)
  let sums := (List.range 4).map fun k => (wholeOf (x.sums.getD k 0)).2
  (s.p TLY_TH_STATUS_REVERSALS (dTh c) 0).setThm c
    { s.thm c with count := 0, opened := now, sums := sums, fail := false, clamp := false }

/-! ## A thermal sample (R284, R286, R287) -/

/-- The ports that a channel reads: flow, unless it is a pulse input, supply and return. -/
def State.thPorts (s : State) (c : Nat) : List Nat :=
  let d := dTh c
  let l := [s.g TLY_TH_TS_PORT_PORT d, s.g TLY_TH_TR_PORT_PORT d]
  if s.on TLY_TH_CFG_FLOW_PULSE d then l else s.g TLY_TH_FLOW_PORT_PORT d :: l

/-- What counts a channel's pulses from here on (R301). -/
def State.thPulse (s : State) (c : Nat) (x : Thm) : Thm :=
  let d := dTh c
  { x with pulse := s.on TLY_TH_CFG_FLOW_PULSE d, pin := s.g TLY_TH_CFG_PULSE_IN d, dirEn := s.on TLY_TH_CFG_DIR_EN d }

/-- One channel's sample; `cut`: a Lock has cut off its reads (R398). A source read that ends with an error response, and an
uncorrectable error of the working memory, leave it out of the sums (R284, R302). -/
def State.thSample (s : State) (cut : Bool) (c : Nat) : State :=
  let d := dTh c
  let x := s.thPulse c (s.thm c)
  let pulse := s.on TLY_TH_CFG_FLOW_PULSE d
  let bad := (s.thPorts c).find? fun w => cut || s.portBad w
  let s := (s.p TLY_TH_STATUS_SOURCE_FAIL d (bit bad.isSome)).p TLY_TH_STATUS_VALID d 1
  let s : State := if let some w := bad then
      (s.raise .tly TLY_SOURCE_ERR (some ⟨0x20100000 + portOff w, 30, 1⟩) c).setThm c
        { x with fail := true, pulsesF := 0, pulsesR := 0 }
    else if s.eccIn (.thermal c) then
      ((s.raise .tly TLY_ECC_UNCORR none (32 + c)).eccGone (.thermal c)).setThm c { x with pulsesF := 0, pulsesR := 0 }
    else
      let scale := (Fp.widen (s.g TLY_TH_FLOW_SCALE_SCALE d)).1
      let raw := s.readPort (s.g TLY_TH_FLOW_PORT_PORT d)
      let ts := fDiv (fInt (s.readPort (s.g TLY_TH_TS_PORT_PORT d))) (fInt 1000)
      let tr := fDiv (fInt (s.readPort (s.g TLY_TH_TR_PORT_PORT d))) (fInt 1000)
      let vol := fDiv (fMul (fMul (fInt raw.natAbs) scale) (fRatio 1 10)) (fInt 3600)
      let vf := if pulse then fMul (fInt x.pulsesF) scale else if 0 ≤ raw then vol else 0
      let vr := if pulse then fMul (fInt x.pulsesR) scale else if 0 ≤ raw then 0 else vol
      let t := s.g TLY_TH_CFG_TABLE d
      let hs := s.property t TLY_TAB_ENTHALPY_ENTHALPY ts
      let hr := s.property t TLY_TAB_ENTHALPY_ENTHALPY tr
      let rho := s.property t TLY_TAB_DENSITY_DENSITY (if s.on TLY_TH_CFG_FLOW_AT d then ts else tr)
      let clamp := hs.2 || hr.2 || rho.2
      let dh := fSub hs.1 hr.1
      let ef := fMul (fMul (fDiv vf (fInt 1000)) rho.1) dh
      let er := fMul (fMul (fDiv vr (fInt 1000)) rho.1) dh
      let wh := fDiv ef (fInt 3600)
      let s := s.setThm c { x with pulsesF := 0, pulsesR := 0, clamp := x.clamp || clamp }
      let s := (((s.thAdd c 0 wh).thAdd c 1 (fDiv er (fInt 3600))).thAdd c 2 vf).thAdd c 3 vr
      let flow := if pulse then fMul (fSub vf vr) (fInt 36000) else fMul (fInt raw) scale
      let s := (s.p TLY_TH_STATUS_TEMP_CLAMP d (bit clamp)).p TLY_TH_FLOW_VALUE d (Fp.narrow flow)
      let s := (s.p TLY_TH_TS_VALUE d (Fp.narrow ts)).p TLY_TH_TR_VALUE d (Fp.narrow tr)
      let s := s.p TLY_TH_POWER_VALUE d (Fp.narrow (fDiv (fAdd ef er) (fRatio 1 10)))
      let s := if !pulse && raw != 0 then
          let y := s.thm c
          let s := s.setThm c { y with dir := raw.sign }
          if y.dir ≠ 0 ∧ y.dir ≠ raw.sign then s.incSat TLY_TH_STATUS_REVERSALS d else s
        else s
      (List.range 8).foldl (fun s j =>
        if s.g TLY_PO_CFG_KIND (dPo j) = 2 ∧ s.g TLY_PO_CFG_SOURCE (dPo j) = c then s.pulseAdd j wh else s) s
  let y := s.thm c
  let s := if y.mode = 2 then
      let s := s.setThm c { y with window := y.window + 1 }
      if s.g TLY_TH_LATCH_N d ≤ y.window + 1 then s.thLatch c false else s
    else s
  let s := s.thTakeup c
  let y := s.thm c
  let s := s.setThm c { y with count := y.count + 1 }
  if s.g TLY_TH_INTERVAL_S d ≤ y.count + 1 then s.thInterval c else s

/-- The KFS of the general channels (R301). -/
def State.genCfg (s : State) : List Nat := (List.range 4).map fun k => s.g TLY_CH_KFS_KFS (dTch (28 + k))

/-- THERMAL_SAMPLE (R284, R286): a thermal sample is due; `cut` lists the channels whose source reads a Lock cuts off, which
ends them in an error response (R398). -/
def execThermalSample (cut : List (Fin 32)) (s : State) : Out' :=
  .next (if s.tlyOn && s.tly.thDue then
      let s := { s with tly := { s.tly with thDue := false, writes := s.tly.writes + 1, genKfs := s.genCfg } }
      let s := (List.range 32).foldl (fun s c => if s.thOn c then s.thSample (cut.any (·.val == c)) c else s) s
      (List.range 4).foldl (fun s k =>
        let a := AMap.get (0, 0, 0) s.tly.gens k
        let n := fInt a.2.2
        let s := if a.2.2 = 0 then s else
          (s.p TLY_GEN_MEAN_VALUE (0x10 * k) (Fp.narrow (fDiv a.1 n))).p TLY_GEN_RMS_VALUE (0x10 * k)
            (Fp.narrow (fSqrt (fDiv a.2.1 n)))
        { s with tly := { s.tly with gens := AMap.set (0, 0, 0) s.tly.gens k (0, 0, 0) } }.chUpdate (28 + k)) s
    else s)

/-- FLOW_PULSE (R284, R287): a qualified rising edge of a pulse input; `high` is the level of the direction input. -/
def execFlowPulse (pin : Fin 64) (high : Bool) (s : State) : Out' :=
  .next ((List.range 32).foldl (fun s c =>
    let d := dTh c
    let x := s.thm c
    if s.thOn c && x.pulse && x.pin == pin.val then
      let back := x.dirEn && high
      let dir : Int := if back then -1 else 1
      let s := s.setThm c { x with pulsesF := x.pulsesF + bit (!back), pulsesR := x.pulsesR + bit back, dir := dir }
      if x.dir ≠ 0 ∧ x.dir ≠ dir then s.incSat TLY_TH_STATUS_REVERSALS d else s
    else s) s)

/-! ## Totals in MRAM (R292 to R295) -/

def tlyMram : Nat := mramBase + 0xE0000

/-- The 192 totals as they stand: 64 electrical, 128 thermal. -/
def State.tlyTotals (s : State) : List Nat :=
  ((List.range 64).map fun i => s.g TLY_FDR_TOTAL_VALUE (dFdr (i / 16) + 8 * (i % 16))) ++
    (List.range 128).map fun j => s.g TLY_TH_TOTAL_VALUE (dTh (j / 4) + 8 * (j % 4))

/-- A record (R292). -/
def tlyRecord (seq : Nat) (totals : List Nat) : List Byte :=
  let b := leBytes 4 0x594C4154 ++ leBytes 2 1 ++ leBytes 2 0 ++ leBytes 8 seq ++ totals.flatMap (leBytes 8)
  padTo' (b ++ leBytes 4 (crc32 b))
where
  /-- Zeros to the slot's 2,048 bytes. -/
  padTo' (l : List Byte) : List Byte := l ++ List.replicate (2048 - l.length) 0

/-- Write a record to the slot not written last (R293). A failed write leaves the slot's CRC open. -/
def State.writeRecord (s : State) (fail : Bool) : State :=
  let slot := 1 - s.g TLY_MRAM_STATUS_LAST_SLOT
  let seq := (s.g TLY_MRAM_SEQ_SEQ + 1) % 2 ^ 64
  let key := tlyMram + 2048 * slot
  let s := s.wbsEcc key (tlyRecord seq s.tlyTotals)
  let s := (s.p TLY_MRAM_SEQ_SEQ 0 seq).p TLY_MRAM_STATUS_LAST_SLOT 0 slot
  if fail then
    let x := s.draw
    ((x.2.wle (key + 1552) 4 (x.1 % 2 ^ 32)).incSat TLY_MRAM_STATUS_FAILS 0).raise .tly TLY_MRAM_ERR
      (some ⟨key, 30, 2⟩) 0
  else s

/-- TOTALS_RECORD_WRITE (R293): the record that waits is written; `fail` where its read-back fails. -/
def execTotalsRecordWrite (fail : Bool) (s : State) : Out' :=
  .next (if s.tly.writes = 0 then s
    else { s with tly := { s.tly with writes := s.tly.writes - 1 } }.writeRecord fail)

/-- Whether a slot holds a valid record (R294). -/
def State.slotValid (s : State) (slot : Nat) : Bool :=
  let l := s.rbs (tlyMram + 2048 * slot) 1556
  fldB l 0 4 == 0x594C4154 && fldB l 4 2 == 1 && fldB l 1552 4 == crc32 (l.take 1552)

/-- MRAM is ready: the totals are loaded from the valid slot with the higher SEQ (R294). -/
def State.tlyLoad (s : State) : State :=
  let seq : Nat → Nat := fun k => s.rle (tlyMram + 2048 * k + 8) 8
  let slot : Option Nat :=
    if s.slotValid 0 && s.slotValid 1 then some (if seq 0 < seq 1 then 1 else 0)
    else if s.slotValid 0 then some 0 else if s.slotValid 1 then some 1 else none
  let key := tlyMram + 2048 * slot.getD 0
  let v : Nat → Nat := fun i => if slot.isSome then s.rle (key + 16 + 8 * i) 8 else 0
  let s' := (List.range 64).foldl (fun t i => t.p TLY_FDR_TOTAL_VALUE (dFdr (i / 16) + 8 * (i % 16)) (v i)) s
  let s' := (List.range 128).foldl (fun t j => t.p TLY_TH_TOTAL_VALUE (dTh (j / 4) + 8 * (j % 4)) (v (64 + j))) s'
  let s' := s'.p TLY_STATUS_TOTALS_INIT 0 (bit slot.isNone)
  match slot with
  | some k => (s'.p TLY_MRAM_SEQ_SEQ 0 (seq k)).p TLY_MRAM_STATUS_LAST_SLOT 0 k
  | none => s'

/-- PRESET (R295): GO written to TLY_PRESET_CMD with an index, by a master. -/
def State.preset (s : State) (index master : Nat) : State :=
  let s := s.p TLY_PRESET_CMD_INDEX 0 index
  if s.mode ≠ PROVISION then s.p TLY_PRESET_CMD_REFUSAL 0 0x507
  else if 191 < index then s.p TLY_PRESET_CMD_REFUSAL 0 0x508
  else
    let v := s.g TLY_PRESET_VAL_VALUE
    let old := s.tlyTotals.getD index 0
    let drop : List Nat → Nat → List Nat := fun l i => l.zipIdx.map fun x => if x.2 = i then 0 else x.1
    let s := if index < 64 then
        let f := index / 16
        (s.p TLY_FDR_TOTAL_VALUE (dFdr f + 8 * (index % 16)) v).setFdr f
          { s.fdr f with res := drop (s.fdr f).res (index % 16) }
      else
        let c := (index - 64) / 4
        (s.p TLY_TH_TOTAL_VALUE (dTh c + 8 * ((index - 64) % 4)) v).setThm c
          { s.thm c with res := drop (s.thm c).res ((index - 64) % 4) }
    (s.writeRecord false).logFixed (0x5100 + index) master old (old / 2 ^ 32) v (v / 2 ^ 32)
/-- PRESET (R295): the register write as a command. -/
def execPreset (index : BitVec 8) (master : Fin 42) (s : State) : Out' :=
  .next (s.command fun s => s.preset index.toNat master.val)

/-! ## Enable checks (R291, R303) -/

/-- Whether a binary32 is finite and above 0. -/
def above0 (x : Nat) : Bool := x / 2 ^ 23 % 256 != 255 && x % 2 ^ 31 != 0 && x < 2 ^ 31
def fin32 (x : Nat) : Bool := x / 2 ^ 23 % 256 != 255

/-- TLY's check after its needs. -/
def State.tlyCheck (s : State) : Chk :=
  let a := s.g TLY_EVT_BASE_ADDR
  let k := s.g TLY_EVT_CFG_LOG2_SIZE
  firstFail [(a % 64 != 0 || outside k 4 16 || !inSram a (32 * 2 ^ k), 0x504, [])]

/-- The offset of a register of a channel. -/
def chReg (x : Fld) (ch : Nat) : Nat := x.off + dTch ch

/-- NPTS and the delays of a channel's points lie in range. -/
def State.chRangeOk (s : State) (ch : Nat) : Bool :=
  !outside (s.chNpts ch) 1 16 && (List.range (s.chNpts ch)).all fun i =>
    (toSigned 32 (s.g TLY_CH_CAL_D_DELAY (dTch ch + 0xC * i))).natAbs ≤ 65536

/-- A channel's calibration temperatures rise strictly, and its gains are finite and above 0. -/
def State.chPointsOk (s : State) (ch : Nat) : Bool :=
  let l := (List.range (s.chNpts ch)).map fun i => toSigned 16 (s.g TLY_CH_CAL_T_TEMP (dTch ch + 0xC * i))
  (l.zip (l.drop 1)).all (fun x => decide (x.1 < x.2)) &&
    (List.range (s.chNpts ch)).all fun i => above0 (s.g TLY_CH_CAL_G_GAIN (dTch ch + 0xC * i))

/-- The latch period of a feeder could wrap a delta (R291). -/
def FdrCfg.latchWraps (c : FdrCfg) : Bool :=
  let top : Nat → Rat := fun odd =>
    (((List.range 6).filter fun k => c.mask.testBit (k / 2) && k % 2 == odd).map fun k =>
      Fp.toRat (Fp.widen (c.kfs.getD k 0)).1).foldl max 0
  decide (2147483647 * (425 * 36 : Rat) / 100000 < c.latch * 3 * top 0 * top 1)

/-- FREQ_PHASE lies outside the mask. -/
def FdrCfg.phaseBad (c : FdrCfg) : Bool := decide (2 < c.phase) || !c.mask.testBit c.phase

/-- A general channel's fields, which TLY's check in a PROOF sees where one of them is staged (R65, R303). -/
def State.genCheck (s : State) (ch : Nat) : Chk :=
  firstFail [(!above0 (s.g TLY_CH_KFS_KFS (dTch ch)), 0x501, [chReg TLY_CH_KFS_KFS ch]),
    (!s.chRangeOk ch, 0x501, [chReg TLY_CHG_CFG_NPTS (ch - 28), chReg TLY_CH_CAL_D_DELAY ch]),
    (!s.chPointsOk ch, 0x502, [chReg TLY_CH_CAL_T_TEMP ch, chReg TLY_CH_CAL_G_GAIN ch])]

/-- A feeder's check (R291, R303). -/
def State.fdrCheck (s : State) (f : Nat) : Chk :=
  let d := dFdr f
  let c := s.fdrCfg f
  let o : Fld → List Nat := fun x => [x.off + d]
  let chs := (List.range 7).filter fun k => k = 6 || c.mask.testBit (k / 2)
  let ch : Fld → Nat → Nat := fun x k => chReg x (7 * f + k)
  firstFail [
    (c.mask == 0 || c.phaseBad, 0x501, o TLY_FDR_CFG_PHASE_MASK),
    (!above0 c.udin, 0x501, o TLY_FDR_UDIN_UDIN),
    (decide (20000 < c.sag) || decide (20000 < c.swell), 0x501, o TLY_FDR_PQ_THR_SAG),
    (decide (20000 < c.hyst) || decide (20000 < c.int) || decide (c.sag ≤ c.int), 0x501,
      o TLY_FDR_PQ_THR2_INT ++ o TLY_FDR_PQ_THR_SAG),
    (c.latch == 0, 0x501, o TLY_FDR_LATCH_N),
    (chs.any fun k => !above0 (c.kfs.getD k 0), 0x501, chs.map (ch TLY_CH_KFS_KFS)),
    (chs.any fun k => !s.chRangeOk (7 * f + k), 0x501, chs.map (ch TLY_CH_CFG_NPTS) ++ chs.map (ch TLY_CH_CAL_D_DELAY)),
    (chs.any fun k => !s.chPointsOk (7 * f + k), 0x502,
      chs.flatMap fun k => [ch TLY_CH_CAL_T_TEMP k, ch TLY_CH_CAL_G_GAIN k]),
    (c.latchWraps, 0x503,
      o TLY_FDR_LATCH_N ++ chs.map (ch TLY_CH_KFS_KFS))]

def State.thNeeds (s : State) (c : Nat) : Bool :=
  s.tlyOn && (!s.on TLY_TH_CFG_FLOW_PULSE (dTh c) || s.on PIO_CTRL_ENABLE) &&
    (s.thPorts c).all fun w => !(portK w == 1 && portUnit w < 6) || s.on BRN_QUAY_CTRL_ENABLE (dQuay (portUnit w))

/-- Whether a property table serves (R303): at least two points, STEP and densities above 0, entries finite. -/
def State.tableOk (s : State) (t : Nat) : Bool :=
  let d := dPt t
  above0 (s.g TLY_TAB_STEP_STEP d) && fin32 (s.g TLY_TAB_T0_T0 d) &&
    (List.range (s.g TLY_TAB_NPTS_NPTS d)).all fun k =>
      above0 (s.g TLY_TAB_DENSITY_DENSITY (d + 8 * k)) && fin32 (s.g TLY_TAB_ENTHALPY_ENTHALPY (d + 8 * k))

/-- PIO inputs a channel uses. -/
def State.thPins (s : State) (c : Nat) : List Nat :=
  let d := dTh c
  if s.on TLY_TH_CFG_FLOW_PULSE d then
    s.g TLY_TH_CFG_PULSE_IN d :: (if s.on TLY_TH_CFG_DIR_EN d then [s.g TLY_TH_CFG_DIR_IN d] else [])
  else []

/-- A thermal channel's check (R291, R303). -/
def State.thCheck (s : State) (c : Nat) : Chk :=
  let d := dTh c
  let o : Fld → List Nat := fun x => [x.off + d]
  let n := s.g TLY_TH_LATCH_N d
  let fs := s.g TLY_TH_FS_KW_KW d
  let t := s.g TLY_TH_CFG_TABLE d
  let others := ((List.range 32).filter fun k => k ≠ c ∧ s.thOn k = true).flatMap s.thPins
  firstFail [
    ((s.thPorts c).any fun w => portK w != 1 || !portRange 1 w, 0x501,
      o TLY_TH_FLOW_PORT_PORT ++ o TLY_TH_TS_PORT_PORT ++ o TLY_TH_TR_PORT_PORT),
    (!above0 (s.g TLY_TH_FLOW_SCALE_SCALE d), 0x501, o TLY_TH_FLOW_SCALE_SCALE),
    (outside fs 1 1000000, 0x501, o TLY_TH_FS_KW_KW),
    (n == 0, 0x501, o TLY_TH_LATCH_N),
    (outside (s.g TLY_TH_INTERVAL_S d) 1 36000, 0x501, o TLY_TH_INTERVAL_S),
    (outside (s.g TLY_TAB_NPTS_NPTS (dPt t)) 2 128, 0x501, [TLY_TAB_NPTS_NPTS.off + dPt t]),
    (decide (2147483647 * 36 < n * 1000 * fs), 0x503, o TLY_TH_LATCH_N ++ o TLY_TH_FS_KW_KW),
    (!s.tableOk t, 0x505, [TLY_TAB_T0_T0.off + dPt t, TLY_TAB_STEP_STEP.off + dPt t]),
    ((s.thPins c).any fun p => others.contains p, 0x506, o TLY_TH_CFG_PULSE_IN)]

/-- A pulse output's check (R303). -/
def State.poCheck (s : State) (j : Nat) : Chk :=
  let d := dPo j
  let kind := s.g TLY_PO_CFG_KIND d
  let src := s.g TLY_PO_CFG_SOURCE d
  let live := if kind < 2 then s.on TLY_FDR_CTRL_ENABLE (dFdr (src / 2 % 4)) else s.on TLY_TH_CTRL_ENABLE (dTh src)
  firstFail [
    (outside (s.g TLY_PO_CFG_WIDTH_MS d) 5 100 || s.g TLY_PO_WEIGHT_WEIGHT d == 0 || kind == 3 ||
      (decide (kind < 2) && src % 2 == 1), 0x501, []),
    (!live, 0x506, [])]

/-! ## Enabling and disabling (R275, R278, R280, R282, R293) -/

def State.fdrEnable (s : State) (f : Nat) : State :=
  let d := dFdr f
  let c := s.fdrCfg f
  let x := s.fdr f
  let s := s.setFdr f { cfg := c, since := s.tly.n, usr := (Fp.widen c.udin).1, mode := s.tly.target, res := x.res,
                        dres := zeros 16, delta := List.replicate 16 0 }
  let s := (s.p TLY_FDR_CYCLE_VALID d 0).p TLY_FDR_CYCLE_FREQ_HELD d 0
  let s := (s.p TLY_FDR_USR_VALUE d c.udin).fdrEvents f
  (List.range 7).foldl (fun s k => s.chUpdate (7 * f + k)) s
def State.thEnable (s : State) (c : Nat) : State :=
  let x := s.thm c
  ((s.setThm c (s.thPulse c { mode := s.tly.target, res := x.res, delta := [0, 0], opened := s.thTotals c })).p TLY_TH_STATUS_VALID
    (dTh c) 0).p TLY_TH_STATUS_REVERSALS (dTh c) 0
def State.poEnable (s : State) (j : Nat) : State := s.setPulse j {}
def State.tlyEnable (s : State) : State :=
  { s with tly := { s.tly with n := 0, thDue := false, gens := [], chs := [], genKfs := s.genCfg } }
/-- A feeder is disabled: its events end, and it takes the register mode up at once (R282, R289). -/
def State.fdrDisable (s : State) (f : Nat) : State := ((s.fdrAbort f).fdrTakeup f).tlyTransit
/-- A thermal channel is disabled (R289). -/
def State.thDisable (s : State) (c : Nat) : State := (s.thTakeup c).tlyTransit
/-- TLY is disabled: a final record is to be written (R293). -/
def State.tlyDisable (s : State) : State :=
  let s := (List.range 4).foldl (fun s f => s.fdrDisable f) s
  let s := (List.range 32).foldl (fun s c => s.thDisable c) s
  ({ s with tly := { s.tly with writes := s.tly.writes + 1 } }).tlyTransit

end Sys2Proof.Machine
end

