-- ==== Sys2Proof/Machine/Modes.lean ====
section
/-! DEFINITION. Modes (R37 to R47): the mode command, a claim of the pair, what each quay does as it takes a mode up, and
SAFE entry (R426). Readings and choices: DEDUCED log 25, 26. -/

namespace Sys2Proof.Machine

def mCOMMAND : Nat := 0x4D44
def bDONE : Nat := 2
def bFAILED : Nat := 3

def State.modeRefuse (s : State) (code : Nat) : State := s.p SYS_MODE_REFUSAL 0 code

/-- MODE and PREV_MODE, with the Logbook's record (R40, R437). -/
def State.setMode (s : State) (m master : Nat) : State :=
  let old := s.mode
  ((s.p SYS_MODE_PREV_MODE 0 old).p SYS_MODE_MODE 0 m).logFixed 0x0002 master m old 0 0

/-- Whether any quay is enabled. -/
def State.anyQuay (s : State) : Bool := (List.range 6).any fun q => s.on BRN_QUAY_CTRL_ENABLE (dQuay q)

/-- The device enters STANDBY: no copy has been taken up, no epoch adopted (R409, R416), and every overlay is empty. -/
def State.enterStandby (s : State) : State :=
  let s := (List.range 8).foldl (fun s i =>
    (s.p PAIR_STREAM_STATUS_TAKEN (dStream i) 0).setStream i { lastDone := s.fab }) s
  let s := (List.range 6).foldl (fun s q => s.setQuay q { s.quay q with overlay := [], halted := false }) s
  { s with pair := { s.pair with adopted := false, swept := 0, swapNoted := false, released := false } }.p
    PAIR_STATUS_BCN_SYNCED 0 0

/-- Debug requests that no boundary has taken are gone in a mode in which BRN_CORE_DEBUG does not act (R136). -/
def State.dropDebug (s : State) : State :=
  (List.range 24).foldl (fun s c => s.setCore c { s.core c with haltReq := false, stepping := false }) s

/-- A mode command is accepted (R40, R41): every enabled quay is to take the mode up, and Tally with it; one to RUN resumes
every debug-halted core (R136). -/
def State.modeAccept (s : State) (m master : Nat) : State :=
  let s := ((s.setMode m master).p SYS_MODE_TRANSIT 0 1).modeRefuse 0
  let s := (List.range 6).foldl (fun s q =>
    if s.on BRN_QUAY_CTRL_ENABLE (dQuay q) then s.setQuay q { s.quay q with cmdAt := some s.fab } else s) s
  let s := if m = STANDBY then s.enterStandby else s
  let s := if m = RUN then (List.range 24).foldl (fun s c => s.setCore c (s.core c).resume) s else s
  let s := if m = RUN ∨ m = STANDBY then s.dropDebug else s
  (s.tlyMode m).transitCheck

/-- A reaction fault is registered at Breakwater in this fabric cycle (R40, R42): it has been, or its registration waits in
the queue, which holds what the cycle brings. -/
def State.reactsNow (s : State) : Bool :=
  s.reactAt == some s.fab || (!s.reactions.isEmpty && s.pending.contains .reactionFault)

/-- The code that refuses a mode command, 0 where it is accepted: the tests of R40 in their order, then the conditions of
R39. -/
def State.modeCode (s : State) (confirm m : Nat) : Nat :=
  let boot := s.g SYS_BOOT_STATUS_STATE
  if confirm ≠ mCOMMAND then 0x028
  else if s.on SYS_MODE_TRANSIT then 0x029
  else if s.reactsNow then 0x02A
  else if boot = bFAILED then 0x023
  else if s.mode = COMMISSION ∧ (m = RUN ∨ m = PROVISION) then 0
  else if s.mode ≠ PROVISION ∨ m = PROVISION ∨ m = SAFE ∨ 6 ≤ m then 0x020
  else if m = FACTORY then (if s.bst.unlocked && s.on BST_STATUS_TEST_ROOT then 0 else 0x026)
  else if boot ≠ bDONE then 0x023
  else if s.on SYS_MODE_ID_SEEN = false then 0x021
  else if s.anyQuay = false then 0x022
  else if m = STANDBY then
    (if !(s.on PAIR_CTRL_ENABLE && s.on PAIR_STATUS_LINK) then 0x024 else if s.on PAIR_STATUS_PEER_OWN then 0 else 0x025)
  else if s.on PAIR_CTRL_ENABLE && s.on PAIR_STATUS_PEER_OWN then 0x027
  else 0

/-- A write of SYS_MODE_CMD (R40); with PAIR enabled the way from PROVISION to COMMISSION or RUN begins with a claim
(R404). -/
def State.modeCommand (s : State) (confirm m master : Nat) : State :=
  let code := s.modeCode confirm m
  if code ≠ 0 then s.modeRefuse code
  else if s.mode = PROVISION ∧ s.on PAIR_CTRL_ENABLE = true ∧ (m = COMMISSION ∨ m = RUN) then
    let s := ((s.p PAIR_STATUS_OWN 0 1).p PAIR_STATUS_CLAIM 0 1).p SYS_MODE_TRANSIT 0 1
    { s with pair := { s.pair with claim := some (s.fab, m, master, true), releasing := false } }
  else s.modeAccept m master

/-- MODE_COMMAND (R40): a write of SYS_MODE_CMD by a master: its fields CONFIRM and TARGET. -/
def execModeCommand (confirm : BitVec 16) (target : Fin 8) (master : Fin 42) (s : State) : Out' :=
  .next (s.command fun s => s.modeCommand confirm.toNat target.val master.val)

/-- PAIR_CLAIM_DECIDED (R404): 4 µs after a claim began. -/
def execPairClaimDecided (s : State) : Out' :=
  .next (match s.pair.claim with
    | some (t, m, master, rel) =>
      if t + 4 * usCycles ≤ s.fab then
        let s := { s with pair := { s.pair with claim := none } }.p PAIR_STATUS_CLAIM 0 0
        if rel || s.g PAIR_CTRL_UNIT == 0 then
          { s with pair := { s.pair with grace := some s.fab } }.modeAccept m master
        else ((s.p PAIR_STATUS_OWN 0 0).p SYS_MODE_TRANSIT 0 0).modeRefuse 0x027
      else s
    | none => s)

/-! ## Taking a mode up (R41, R47) -/

/-- A quay's tasks end: nothing is released, nothing waits. -/
def State.stopQuay (s : State) (q : Nat) : State :=
  let s := (List.range 8).foldl (fun s k => s.p BRN_ERR_STATS_QUEUED (dEvt q k) 0) s
  s.setQuay q { s.quay q with tasks := [], port := [], acts := [], actNow := [], started := false, startFrom := none }

/-- Enabled cores of a quay leave reset and idle (R135). -/
def State.idleCores (s : State) (q : Nat) : State :=
  (List.range 4).foldl (fun s i =>
    let k := s.core (4 * q + i)
    if k.run = .reset then s.setCore (4 * q + i) { k with run := .idle, cycBase := s.fab } else s) s

/-- A quay takes the commanded mode up at its scan boundary. -/
def State.quayTakeup (s : State) (q : Nat) : State :=
  let k := s.quay q
  match k.cmdAt with
  | none => s
  | some t =>
    if s.atBoundary q then
      let s := s.setQuay q { k with mode := s.mode, cmdAt := none, forced := false }
      let s := if s.mode = PROVISION then s.stopQuay q
        else if k.mode = PROVISION then (s.idleCores q).armStartup q t else s
      s.transitCheck
    else s

/-- QUAY_MODE_TAKEUP (R41): an enabled quay reaches a scan boundary after a mode command. -/
def execQuayModeTakeup (q : Fin 6) (s : State) : Out' := .next (s.quayTakeup q)

/-! ## SAFE entry (R42, R426, R427) -/

/-- A quay is in SAFE (R37): its programs go on without the overlay of a standby; one that was in PROVISION begins with
its start-up task. -/
def State.quaySafe (s : State) (q : Nat) : State :=
  let k := s.quay q
  if s.on BRN_QUAY_CTRL_ENABLE (dQuay q) then
    let s := s.setQuay q { k with mode := SAFE, cmdAt := none, forced := false, overlay := [], halted := false }
    if k.mode = PROVISION then (s.idleCores q).armStartup q s.fab else s
  else s

/-- A safe duty is forced at once (R426, R494). -/
def State.forcePwm (s : State) : State :=
  (List.range 16).foldl (fun s n =>
    if s.on PIO_PWM_CFG_ENABLE (dPwm n) then s.p PIO_PWM_APPLIED_DUTY (dPwm n) (s.g BKW_SAFE_PWM_DUTY (4 * n)) else s) s

/-- A set that is armed is not applied (R72). -/
def State.disarm (s : State) : State :=
  if s.prf = pARMED then (s.setPrf pPROVEN).p PRF_STATUS_REFUSAL 0 0x009 else s

/-- Entry to SAFE for the fault of a source and bit: a claim, a transition, a planned swap and a takeover are abandoned;
the copies stop; OWN_N is to be released; SAFE_OUT frames follow unless a FIT partner takes over. -/
def State.enterSafe (s : State) (src fbit : Nat) (injected : Bool) : State :=
  let owns := s.on PAIR_STATUS_OWN
  let out := !(s.on PAIR_CTRL_ENABLE && s.on PAIR_STATUS_PEER_FIT)
  let swap := s.pair.swapTime.isSome
  let s := (((s.p SYS_MODE_PREV_MODE 0 s.mode).p SYS_MODE_MODE 0 SAFE).p SYS_MODE_TRANSIT 0 0).p PAIR_STATUS_CLAIM 0 0
  let s := { s with pair := { s.pair with claim := none, grace := none, swapTime := none, swapAt := none, finals := false,
                                          takeover := false, bcnWait := false, safeOut := out, safeAt := none,
                                          releasing := owns } }
  let s := if swap then s.p PAIR_SWAP_CMD_SWAP_STATE 0 0 else s
  let s := s.cutCopies
  let s := ((List.range 6).foldl (fun s q => s.quaySafe q) s).dropDebug
  let s := (((s.p BKW_STATE_SAFE 0 1).p BKW_STATE_INJECTED 0 (bit injected)).p BKW_STATE_CAUSE_SRC 0 src).p
    BKW_STATE_CAUSE_BIT 0 fbit
  let s := (s.tlyMode SAFE).disarm.forcePwm
  let s := s.putTime BKW_SAFE_TIME_NS_NANOSECONDS 0 s.tideNs
  s.logFixed 0x0003 0xFF (2 ^ 31 + bit injected * 2 ^ 30 + src * 2 ^ 16 + fbit) 0 0 0

/-- REACTION_FAULT (R426): the oldest reaction fault is registered at Breakwater. SAFE is entered once. -/
def execReactionFault (s : State) : Out' :=
  .next (match s.reactions with
    | (src, fbit, inj) :: rest =>
      let s := { s with reactions := rest, reactAt := some s.fab }
      if s.mode = SAFE then s else s.enterSafe src fbit inj
    | [] => s)

/-- OWN_N_RELEASE (R426): the last Mooring message in transmission has ended. -/
def execOwnNRelease (s : State) : Out' :=
  .next (if s.pair.releasing then { s with pair := { s.pair with releasing := false } }.p PAIR_STATUS_OWN 0 0 else s)

/-- ALIVE_TOGGLE (R428): outside SAFE a driven ALIVE changes level 500 µs after its last edge, or after it was first driven. -/
def execAliveToggle (s : State) : Out' :=
  let next := s.pair.aliveAt + 500 * usCycles
  .next (match s.pair.alive with
    | some b =>
      if s.mode = SAFE ∨ s.fab < next then s else { s with pair := { s.pair with alive := some (!b), aliveAt := next } }
    | none => s)

/-- A write of BKW_INJECT (R431): in FACTORY, with GO, of a fault bit that exists. -/
def State.inject (s : State) (src fbit : Nat) : State :=
  if s.mode = FACTORY then
    match FBlk.ofSrc src with
    | some b => if fbit < b.width then s.raise b fbit none 0xFFF true else s
    | none => s
  else s

/-- FAULT_INJECT (R431): BKW_INJECT written with GO, a source and a bit. -/
def execFaultInject (src : Fin 512) (fbit : Fin 32) (s : State) : Out' := .next (s.command fun s => s.inject src.val fbit.val)

/-- CONFLICT_GRACE_END (R406): 8 µs after a claim was accepted; a partner still registered as owning conflicts. -/
def execConflictGraceEnd (s : State) : Out' :=
  .next (match s.pair.grace with
    | some t =>
      if t + 8 * usCycles ≤ s.fab then
        let s := { s with pair := { s.pair with grace := none } }
        if s.on PAIR_STATUS_PEER_OWN && s.on PAIR_STATUS_OWN then s.raise .pair PAIR_ROLE_CONFLICT none 0 else s
      else s
    | none => s)

end Sys2Proof.Machine
end

