-- ==== Sys2Proof/Machine/PairTake.lean ====
section
/-! DEFINITION. Copies of the pair: stream 6's content, the final copies of a swap, what a standby's take-up writes, and
the takeover (R195, R330, R411 to R418, R421). The layout of a context's 48 bytes, of a group's and of the Tide state
within a line is the model's own. Readings and choices: DEDUCED log 40. -/

namespace Sys2Proof.Machine

/-! ## Stream 6 (R195, R330) -/

/-- Registers of a context's dynamic state, in the order of a line: E1 to E3, U1 to U3, APPLIED, UOUT. -/
def ctxWords (c : Nat) : List (Fld × Nat) :=
  ([0, 1, 2, 4, 5, 6].map fun j => (GRV_CTX_HIST_MANTISSA, dHist c j)) ++
    [(GRV_CTX_APPLIED_VALUE, dCtx c), (GRV_CTX_UOUT_MANTISSA, dCtx c)]

/-- The flags of GRV_CTX_STATUS, by their bit. -/
def ctxFlags : List (Fld × Nat) :=
  [(GRV_CTX_STATUS_SEEDED, 31), (GRV_CTX_STATUS_TRACKING, 30), (GRV_CTX_STATUS_CLAMP_HI, 29),
    (GRV_CTX_STATUS_CLAMP_LO, 28), (GRV_CTX_STATUS_WON, 27), (GRV_CTX_STATUS_SAT, 0)]

/-- A context's line: 48 bytes of dynamic state, then zeros. -/
def State.ctxLine (s : State) (c : Nat) : List Byte :=
  let d := dCtx c
  ((ctxWords c).flatMap fun x => leBytes 4 (s.g x.1 x.2)) ++ leBytes 8 (ofSigned 64 (s.gctx c).prevPos) ++
    leBytes 4 ((ctxFlags.map fun x => s.g x.1 d * 2 ^ x.2).sum) ++
    [BitVec.ofNat 8 (s.g GRV_CTX_EXPS_E_STATE d), BitVec.ofNat 8 (s.g GRV_CTX_EXPS_E_OUT d)] ++ List.replicate 18 0

/-- Replace a context's dynamic state by a line's. -/
def State.putCtxLine (s : State) (c : Nat) (bs : List Byte) : State :=
  let d := dCtx c
  let s := (ctxWords c).zipIdx.foldl (fun s x => s.p x.1.1 x.1.2 (fldB bs (4 * x.2) 4)) s
  let s := ctxFlags.foldl (fun s x => s.p x.1 d (bits (fldB bs 40 4) x.2 1)) s
  ((s.p GRV_CTX_EXPS_E_STATE d (fldB bs 44 1)).p GRV_CTX_EXPS_E_OUT d (fldB bs 45 1)).setGctx c
    { s.gctx c with prevPos := toSigned 64 (fldB bs 32 8) }

/-- A group's line: WINNER and APPLIED. -/
def State.grpLine (s : State) (g : Nat) : List Byte :=
  leBytes 4 (s.g GRV_GRP_STATUS_WINNER (dGrp g)) ++ leBytes 4 (s.g GRV_GRP_APPLIED_VALUE (dGrp g)) ++
    List.replicate 56 0

/-- The Tide line: ACTIVE, then for each port and domain the next sequenceId of Sync and of Pdelay_Resp. -/
def State.tideLine (s : State) : List Byte :=
  leBytes 4 (s.g TID_SELECT_ACTIVE) ++ ((List.range 8).flatMap fun i =>
    leBytes 2 (s.g NET_PTP_COUNT_SYNC_TX (dPtp (i / 2) (i % 2))) ++
      leBytes 2 (AMap.get {} (s.port (i / 2)).ptp (i % 2)).respSeq) ++ List.replicate 28 0

/-- Take a Tide line: a switch where ACTIVE differs (R326), and the sequence numbers of each port and domain in MASTER
state. -/
def State.putTideLine (s : State) (bs : List Byte) : State :=
  (List.range 8).foldl (fun s i =>
    let p := i / 2
    let d := i % 2
    if s.ptpState p d = 2 then
      let k := s.port p
      let x := AMap.get {} k.ptp d
      (s.p NET_PTP_COUNT_SYNC_TX (dPtp p d) (fldB bs (4 + 4 * i) 2)).setPort p
        { k with ptp := AMap.set {} k.ptp d { x with respSeq := fldB bs (6 + 4 * i) 2 } }
    else s) (if s.domActive (fldB bs 0 1 % 2) then s else s.switchTo (fldB bs 0 1 % 2))

/-- The line records of stream 6: region 5 contexts and, from octet 8,192, groups; region 6 the Tide state. -/
def State.gravLines (s : State) : List (Nat × List Byte) :=
  ((List.range 128).filterMap fun c => if s.ctxOn c then some (5 * 2 ^ 60 + 64 * c, s.ctxLine c) else none) ++
  ((List.range 32).filterMap fun g =>
    if s.on GRV_GRP_CTRL_ENABLE (dGrp g) then some (5 * 2 ^ 60 + 8192 + 64 * g, s.grpLine g) else none) ++
  [(6 * 2 ^ 60, s.tideLine)]

/-- A copy of stream 6, which always carries all of it. -/
def State.gravCopy (s : State) : State :=
  if s.copyNow 6 then (s.cutCopy 6).sendCopy 6 s.gravLines 0 0 [] false 0 else s

/-- GRAVER_COPY_POINT (R411): every GRV_PERIOD_US, which the model counts in CLK_FAB from reset (log 40); nothing elsewhere. -/
def execGraverCopyPoint (s : State) : Out' :=
  .next (if s.atCycle 251 (usCycles * s.g PAIR_COPY_CFG_GRV_PERIOD_US) then (s.takeInstant 251).gravCopy else s)

/-! ## Final copies of a planned swap (R421) -/

/-- Once the swap has started, every enabled quay stands at a boundary and no chain is being sent, a final copy of every
stream 0 to 6 is sent. -/
def State.swapFinals (s : State) : State :=
  if s.pair.swapAt.isSome && (List.range 7).all (fun i => s.copyNow i) &&
      (List.range 6).all (fun q => !s.on BRN_QUAY_CTRL_ENABLE (dQuay q) || s.atBoundary q) then
    let s := (List.range 6).foldl (fun s q => if s.streamOn q then s.copyPoint q else s) s
    { s.gravCopy with pair := { s.gravCopy.pair with finals := true } }
  else s

/-! ## Take-up (R414, R415) -/

/-- Write a line of a copy into the standby's own memories. -/
def State.takeLine (s : State) (i : Nat) (r : Nat × List Byte) : State :=
  let o := r.1 % 2 ^ 60
  if i < 6 then s.wbsEcc (lineKey i r.1) (r.2.take 64)
  else if i = 6 then
    if r.1 / 2 ^ 60 = 6 then s.putTideLine r.2
    else if o < 8192 then s.putCtxLine (o / 64) r.2
    else (s.p GRV_GRP_STATUS_WINNER (dGrp ((o - 8192) / 64)) (fldB r.2 0 4)).p GRV_GRP_APPLIED_VALUE
      (dGrp ((o - 8192) / 64)) (fldB r.2 4 4)
  else s.bcnTakeLine r

/-- A quay's copy is taken up: its generation, its stations' DATA_OUT SEQ, and its overlay discarded. -/
def State.takeQuay (s : State) (q : Nat) (c : CopyRec) : State :=
  let s := s.p BRN_QUAY_GEN_GEN (dQuay q) c.gen
  let s := c.seqs.foldl (fun s x =>
    match s.station x.1 with
    | some t => s.setStation x.1 (some { t with txSeq := x.2, txFirst := false })
    | none => s) s
  s.setQuay q { s.quay q with overlay := [], halted := false }

/-- A committed copy has been taken up. -/
def State.takeUp (s : State) (i : Nat) (c : CopyRec) : State :=
  let s := c.lines.foldl (fun s r => s.takeLine i r) s
  let s := if i < 6 then s.takeQuay i c else s
  let x := s.stream i
  let rest := x.committed.tail
  let s := s.setStream i { x with committed := rest, digest := c.digest }
  let d := dStream i
  (((s.p PAIR_STREAM_STATUS_TAKEN d 1).p PAIR_STREAM_STATUS_CHAIN d (bit (rest.any (·.chain)))).p PAIR_STREAM_SEQ_SEQ d
    c.seq).p PAIR_STREAM_LAST_OCTETS d (copyOctets c.lines.length)

/-- Whether the take-up of a copy can have ended: 8 octets a fabric cycle since the copy's commit and the take-up before it
(R414). -/
def State.takenBy (s : State) (c : CopyRec) : Bool := max c.at_ s.pair.takeFree + 8 * c.lines.length ≤ s.fab

/-- Whether a copy of a stream can be taken up now: streams 0 to 6 go before 7; Graver's between samples (R195, R414). -/
def State.canTake (s : State) (i : Nat) : Bool :=
  if i = 7 then (List.range 7).all fun k => (s.stream k).committed.isEmpty
  else if i = 6 then s.grv.ctx.all fun x => x.2.phase == .none
  else true

/-! ## Takeover (R418) -/

/-- A quay of a takeover: its shadow scans are abandoned, and it begins at its next release. -/
def State.quayTakeover (s : State) (q : Nat) : State :=
  if s.on BRN_QUAY_CTRL_ENABLE (dQuay q) then
    let s := s.stopQuay q
    let s := s.setQuay q { s.quay q with mode := RUN, cmdAt := none, forced := false, started := true }
    let s := (List.range 4).foldl (fun s i => s.idleCore (4 * q + i)) s
    (List.range 4).foldl (fun s i =>
      s.setCore (4 * q + i) { s.core (4 * q + i) with rl := 0, hstk := [], stacked := [], rsm := false }) s
  else s

/-- The PWM channels that Graver drives take what it applied last. -/
def State.drivePwm (s : State) : State :=
  s.outPorts.foldl (fun s x =>
    if portK x.2 = 3 then
      (s.writePort x.2 (if x.1 < 128 then s.gs GRV_CTX_APPLIED_VALUE (dCtx x.1)
        else s.gs GRV_GRP_APPLIED_VALUE (dGrp (x.1 - 128))) RUN).2
    else s) s

/-- Take-up of streams 0 to 6 has ended: the outputs are driven from the DOUT areas and from Graver, and the quays run. -/
def State.takeoverEnd (s : State) : State :=
  if s.pair.takeover && (List.range 7).all (fun k => (s.stream k).committed.isEmpty) then
    let s := { s with pair := { s.pair with takeover := false } }
    let s := (List.range 48).foldl (fun s i =>
      if s.on BRN_QUAY_CTRL_ENABLE (dQuay (i / 8)) && s.on BRN_TASK_CFG_ON (dTask (i / 8) (i % 8)) then
        s.driveDout (i / 8) (i % 8) else s) s
    (List.range 6).foldl (fun s q => s.quayTakeover q) s.drivePwm
  else s

/-- The Beacon's part of a takeover follows the take-up of stream 7. -/
def State.bcnTakeoverEnd (s : State) : State :=
  if s.pair.bcnWait && !s.pair.takeover && (s.stream 7).committed.isEmpty then
    ({ s with pair := { s.pair with bcnWait := false } }).bcnTakeover
  else s

/-- The takeover at a pair tick: ownership, RUN, the next role epoch; copies not complete and overlays are discarded. -/
def State.takeoverStart (s : State) : State :=
  let s := s.p PAIR_STATUS_OWN 0 1
  let s := s.setMode RUN 0xFF
  let s := s.inc PAIR_ROLE_ROLE_EPOCH 0
  let s := (List.range 8).foldl (fun s i => s.setStream i { s.stream i with rx := none, rxBad := false }) s
  let s := (List.range 6).foldl (fun s q => s.setQuay q { s.quay q with overlay := [], halted := false }) s
  let s := { s with pair := { s.pair with takeover := true, bcnWait := true, swapNoted := false, releasing := false } }
  (s.tlyMode RUN).takeoverEnd.bcnTakeoverEnd

/-- COPY_TAKE_UP_END (R414): the oldest committed copy of a stream has been written into the standby's memories, which takes 8 octets a
fabric cycle; in a takeover, the last of streams 0 to 6 lets the outputs be driven (R418). -/
def execCopyTakeUpEnd (stream : Fin 8) (s : State) : Out' :=
  .next (match (s.stream stream.val).committed with
    | c :: _ =>
      if s.canTake stream.val && s.takenBy c && (s.mode == STANDBY || s.pair.takeover || s.pair.bcnWait) then
        ({ s with pair := { s.pair with takeFree := s.fab } }.takeUp stream.val c).takeoverEnd.bcnTakeoverEnd
      else s
    | [] => s)

end Sys2Proof.Machine
end

