-- ==== Sys2Proof/Machine/PairRows.lean ====
section
/-! DEFINITION. Pair and Breakwater commands: ownership lines, the Mooring link and its messages, planned swaps, safe
Cargo frames (R403 to R427). STATUS carries, as the model lays it out, the SEQ of each stream and then the sequence
numbers acknowledged. Readings and choices: DEDUCED log 40, 41. -/

namespace Sys2Proof.Machine

/-- PEER_OWN_CHANGE (R403, R406): a filtered change of PEER_OWN_N is registered. -/
def execPeerOwnChange (asserted : Bool) (s : State) : Out' :=
  .next (if s.on PAIR_STATUS_PEER_OWN = asserted then s
    else
      let s := s.p PAIR_STATUS_PEER_OWN 0 (bit asserted)
      let claim := s.pair.claim.map fun c => (c.1, c.2.1, c.2.2.1, c.2.2.2 && !asserted)
      let s := { s with pair := { s.pair with claim := claim, released := !asserted } }
      if asserted && s.on PAIR_STATUS_OWN && claim.isNone && s.pair.grace.isNone then
        s.raise .pair PAIR_ROLE_CONFLICT none 0
      else s)

/-! ## The link (R407, R408) -/

/-- Fabric cycles for which a STATUS counts toward LINK. -/
def statusLife : Nat := 30 * usCycles

/-- LINK rises where both of its conditions hold: the epoch of participant 26 increments (R375). -/
def State.linkCheck (s : State) : State :=
  match s.pair.statusAt with
  | some t =>
    if s.pair.lanes && !s.on PAIR_STATUS_LINK && decide (s.fab ≤ t + statusLife) then
      (({ s with pair := { s.pair with seen := [], acks := [] } }).p PAIR_STATUS_LINK 0 1).bumpEpoch 26
    else s
  | none => s

/-- LINK falls (R380, R413, R423): the channels into 26 are emptied; messages that wait are lost; a copy being received is
incomplete; LINK_LOST while ENABLE is 1. -/
def State.linkFall (s : State) : State :=
  if s.on PAIR_STATUS_LINK then
    let s := (s.p PAIR_STATUS_LINK 0 0).cutCopies
    let s := { s with pair := { s.pair with statusAt := none, linkFree := s.fab, unacked := [], acks := [] } }
    let s := (List.range 8).foldl (fun s i =>
      let x := s.stream i
      if x.rx.isSome then (s.incSat PAIR_STREAM_COUNT_INCOMPLETE (dStream i)).setStream i { x with rx := none, rxBad := false }
      else s) s
    let s := s.resetReceivers [26]
    if s.on PAIR_CTRL_ENABLE then s.raise .pair PAIR_LINK_LOST none 0 else s
  else s

/-- MOORING_LINK_UP (R407): both lanes hold block lock and lane alignment. LINK rises with it where a STATUS has come in
the last 30 µs, else with the next one. -/
def execMooringLinkUp (s : State) : Out' := .next ({ s with pair := { s.pair with lanes := true } }).linkCheck

/-- MOORING_LINK_DOWN (R407): a lane loses lock, or (`lanes` false) 30 µs have passed without a STATUS. -/
def execMooringLinkDown (lanes : Bool) (s : State) : Out' :=
  .next (if lanes then ({ s with pair := { s.pair with lanes := false } }).linkFall
    else match s.pair.statusAt with
      | some t => if t + statusLife < s.fab then s.linkFall else s
      | none => s.linkFall)

/-- The STATUS of a pair tick: flags, the SEQ of each stream, the acknowledgements owed. -/
def State.sendStatus (s : State) : State :=
  let body := ((List.range 8).flatMap fun i => beBytes 4 (s.g PAIR_STREAM_SEQ_SEQ (dStream i))) ++
    s.pair.acks.flatMap (beBytes 4)
  let s := s.mooringEmit 3 0 s.pair.txSeq 0 body
  { s with pair := { s.pair with txSeq := (s.pair.txSeq + 1) % 2 ^ 32, acks := [] } }

/-- Unacknowledged messages are sent again; after a third repeat the link is taken down (R408). -/
def State.repeatMessages (s : State) : State :=
  if s.on PAIR_STATUS_LINK then
    if s.pair.unacked.any (·.repeats == 3) then s.linkFall
    else
      let s := s.pair.unacked.foldl (fun s m => s.mooringEmit m.type m.stream m.seq m.arg m.payload) s
      { s with pair := { s.pair with unacked := s.pair.unacked.map fun m => { m with repeats := m.repeats + 1 } } }
  else s

/-- At the first tick after the partner's release a standby takes over if it is FIT, or raises NO_TAKEOVER (R418). -/
def State.tickTakeover (s : State) : State :=
  if s.mode == STANDBY && s.pair.released && !s.on PAIR_STATUS_PEER_OWN then
    let s' := { s with pair := { s.pair with released := false } }
    if s.fit then s'.takeoverStart else s'.raise .pair PAIR_NO_TAKEOVER none 0
  else s

/-- PAIR_TICK (R407, R408, R418, R421): every 10 µs of CLK_FAB, counted from reset; nothing elsewhere. -/
def execPairTick (s : State) : Out' :=
  .next (if s.on PAIR_CTRL_ENABLE && s.atCycle 250 (10 * usCycles) then (s.takeInstant 250).tickTakeover.repeatMessages.sendStatus.swapFinals else s)

/-! ## Received messages (R408 to R410). `fault` 1: the message's CRC fails; 2: an uncorrectable error in the link
buffers -/

/-- A message dropped for its role epoch. -/
def State.roleDrop (s : State) (type stream epoch unit : Nat) : State :=
  (s.logFixed 0xA001 0xFF (type + 256 * stream) epoch (s.g PAIR_ROLE_ROLE_EPOCH) unit).incSat PAIR_ROLE_ROLE_DROPS 0

/-- Whether a COPY_DATA, COPY_END, SWAP or EXCHANGE message is taken. -/
def State.roleOk (s : State) (owns : Bool) (epoch : Nat) : Bool :=
  s.mode == STANDBY && owns && epoch == s.g PAIR_ROLE_ROLE_EPOCH

def State.epochOk (s : State) (epoch : Nat) : Bool := epoch == s.g PAIR_ROLE_ROLE_EPOCH

/-- A message received with a fault is dropped. -/
def State.badMessage (s : State) (fault : Nat) : State := if fault = 2 then s.raise .pair PAIR_ECC_UNCORR none 0 else s

/-- A message to be acknowledged: answers whether it is new. -/
def State.ack (s : State) (seq : Nat) : Bool × State :=
  (!s.pair.seen.contains seq,
    { s with pair := { s.pair with acks := s.pair.acks ++ [seq],
                                   seen := if s.pair.seen.contains seq then s.pair.seen else s.pair.seen ++ [seq] } })

/-- Every line of streams 0 to 5 becomes dirty, and the Beacon's copy full (R416). -/
def State.markAll (s : State) : State :=
  ((List.range 6).foldl (fun s i => s.setStream i { s.stream i with full := true }) s).bcnFull

/-- The active device gives the field up (R421): all final copies have been taken up. -/
def State.swapRelease (s : State) (taken : List Nat) : State :=
  if s.pair.finals && (List.range 7).all (fun i => !s.streamOn i || taken.getD i 0 == s.g PAIR_STREAM_SEQ_SEQ (dStream i)) then
    let s := (s.p PAIR_STATUS_OWN 0 0).setMode STANDBY 0xFF
    let s := (List.range 6).foldl (fun s q =>
      if s.on BRN_QUAY_CTRL_ENABLE (dQuay q) then
        s.setQuay q { s.quay q with mode := STANDBY, cmdAt := none, forced := false } else s) s
    let s := { s with pair := { s.pair with swapTime := none, swapAt := none, finals := false } }.p
      PAIR_SWAP_CMD_SWAP_STATE 0 2
    s.enterStandby.tlyMode STANDBY
  else s

/-- A standby takes an epoch from an owning partner (R409). -/
def State.adopt (s : State) (owns : Bool) (epoch : Nat) : State :=
  let ahead := (epoch + 2 ^ 16 - s.g PAIR_ROLE_ROLE_EPOCH) % 2 ^ 16
  if owns && (!s.pair.adopted || (1 ≤ ahead && ahead ≤ 32767)) then
    { s with pair := { s.pair with adopted := true } }.p PAIR_ROLE_ROLE_EPOCH 0 epoch
  else s

/-- What a STATUS says of the partner: FIT and MODE (R410, R416, R417). -/
def State.partnerSays (s : State) (fit : Bool) (mode : Nat) : State :=
  let fell := s.on PAIR_STATUS_PEER_FIT && !fit
  let s := s.p PAIR_STATUS_PEER_FIT 0 (bit fit)
  let entered := mode = STANDBY ∧ s.pair.peerMode ≠ STANDBY
  let s := { s with pair := { s.pair with peerMode := mode } }
  let s := if entered then s.markAll else s
  if fell && s.on PAIR_STATUS_OWN then s.raise .pair PAIR_PEER_UNFIT none 0 else s

/-- A STATUS of the other unit. -/
def State.statusIn (s : State) (owns fit : Bool) (mode epoch unit : Nat) (acks taken : List Nat) : State :=
  let s := { s with pair := { s.pair with statusAt := some s.fab,
                                          unacked := s.pair.unacked.filter fun m => !acks.contains m.seq } }.linkCheck
  if s.mode = STANDBY then ((s.adopt owns epoch).partnerSays fit mode)
  else if s.epochOk epoch then (s.partnerSays fit mode).swapRelease taken
  else { s with pair := { s.pair with peerMode := mode } }.roleDrop 3 0 epoch unit

/-- MOORING_STATUS (R405, R407, R409, R410, R421): a STATUS arrives: its flags, MODE, epoch, UNIT, acknowledgements and
the SEQ it reports for each stream. -/
def execMooringStatus (owns fit : Bool) (mode : Fin 8) (epoch : BitVec 16) (unit : Fin 2) (acks taken : List (BitVec 32))
    (fault : Fin 3) (s : State) : Out' :=
  .next (if s.on PAIR_CTRL_ENABLE = false then s
    else if fault.val ≠ 0 then s.badMessage fault.val
    else if unit.val = s.g PAIR_CTRL_UNIT then s.hw PAIR_STATUS_UNIT_CLASH 0 1
    else (s.statusIn owns fit mode.val epoch.toNat unit.val (acks.map (·.toNat)) (taken.map (·.toNat))).swapFinals)

/-- The copy being received on a stream is the one of a SEQ; another is incomplete (R413). -/
def State.rxOpen (s : State) (i seq : Nat) : State :=
  let x := s.stream i
  match x.rx with
  | some (q, _) =>
    if q = seq then s
    else (s.incSat PAIR_STREAM_COUNT_INCOMPLETE (dStream i)).setStream i { x with rx := some (seq, []), rxBad := false }
  | none => s.setStream i { x with rx := some (seq, []), rxBad := false }

/-- The copy being received lacks a message. -/
def State.rxBad (s : State) (i : Nat) : State := s.setStream i { s.stream i with rxBad := true }

/-- MOORING_COPY_DATA (R410, R413): line records of a copy of a stream. -/
def execMooringCopyData (stream : Fin 8) (owns : Bool) (epoch : BitVec 16) (unit : Fin 2) (seq : BitVec 32)
    (lines : List (BitVec 64 × List (BitVec 8))) (fault : Fin 3) (s : State) : Out' :=
  let i := stream.val
  .next (if s.on PAIR_CTRL_ENABLE && s.on PAIR_STATUS_LINK then
      if fault.val ≠ 0 then ((s.badMessage fault.val).rxOpen i seq.toNat).rxBad i
      else if s.roleOk owns epoch.toNat then
        let s := s.rxOpen i seq.toNat
        let x := s.stream i
        match x.rx with
        | some (q, l) => s.setStream i { x with rx := some (q, l ++ lines.map fun r => (r.1.toNat, r.2)) }
        | none => s
      else ((s.roleDrop 1 i epoch.toNat unit.val).rxOpen i seq.toNat).rxBad i
    else s)

/-- The copy of a stream ends: complete, it is committed; else it is discarded and counted (R412, R413). -/
def State.rxEnd (s : State) (i lines gen digest : Nat) (crcOk : Bool) (seqs : List (Nat × Nat)) : State :=
  let x := s.stream i
  match x.rx with
  | none => s
  | some (seq, l) =>
    let x' := { x with rx := none, rxBad := false }
    let d := dStream i
    if !x.rxBad && crcOk && l.length == lines then
      let chain := i ≤ 6 && decide (s.g PAIR_COPY_CFG_COPY_MAX_KB * 1024 < copyOctets lines)
      let s := s.setStream i
        { x' with committed := x.committed ++ [⟨seq, s.fab, l, gen, digest, seqs, chain⟩], lastDone := s.fab, stale := false }
      if chain then (s.incSat PAIR_STREAM_COUNT_CHAINS d).p PAIR_STREAM_STATUS_CHAIN d 1 else s
    else (s.setStream i x').incSat PAIR_STREAM_COUNT_INCOMPLETE d

/-- MOORING_COPY_END (R408, R410, R413): LINES, GEN, DIGEST, whether its CRC agrees with the line records, and the
DATA_OUT SEQ of the quay's stations. -/
def execMooringCopyEnd (stream : Fin 8) (owns : Bool) (epoch : BitVec 16) (unit : Fin 2) (seq lines gen digest : BitVec 32)
    (crcOk : Bool) (seqs : List (Fin 2048 × BitVec 16)) (fault : Fin 3) (s : State) : Out' :=
  let i := stream.val
  .next (if s.on PAIR_CTRL_ENABLE && s.on PAIR_STATUS_LINK then
      if fault.val ≠ 0 then ((s.badMessage fault.val).rxOpen i seq.toNat).rxBad i
      else if s.roleOk owns epoch.toNat then
        (s.rxOpen i seq.toNat).rxEnd i lines.toNat gen.toNat digest.toNat crcOk (seqs.map fun x => (x.1.val, x.2.toNat))
      else ((s.roleDrop 2 i epoch.toNat unit.val).rxOpen i seq.toNat).rxBad i
    else s)

/-- MOORING_BERTH (R380, R410): a word of the partner's participant for ours; a repeat is acknowledged and no more. -/
def execMooringBerth (participant : Fin 26) (epoch : BitVec 16) (unit : Fin 2) (seq word : BitVec 32) (fault : Fin 3)
    (s : State) : Out' :=
  .next (if s.on PAIR_CTRL_ENABLE && s.on PAIR_STATUS_LINK then
      if fault.val ≠ 0 then s.badMessage fault.val
      else if s.epochOk epoch.toNat then
        let a := s.ack seq.toNat
        if a.1 then (a.2.post 26 participant.val word.toNat).2 else a.2
      else s.roleDrop 4 participant.val epoch.toNat unit.val
    else s)

/-- MOORING_BERTH_TAKEN (R380, R410): the partner's participant has taken our participant's word. -/
def execMooringBerthTaken (participant : Fin 26) (epoch : BitVec 16) (unit : Fin 2) (seq : BitVec 32) (fault : Fin 3)
    (s : State) : Out' :=
  .next (if s.on PAIR_CTRL_ENABLE && s.on PAIR_STATUS_LINK then
      if fault.val ≠ 0 then s.badMessage fault.val
      else if s.epochOk epoch.toNat then
        let a := s.ack seq.toNat
        if a.1 then a.2.setChan participant.val 26 none else a.2
      else s.roleDrop 5 participant.val epoch.toNat unit.val
    else s)

/-- MOORING_SWAP (R410, R421): the partner announces a planned swap. -/
def execMooringSwap (owns : Bool) (epoch : BitVec 16) (unit : Fin 2) (seq : BitVec 32) (fault : Fin 3) (s : State) : Out' :=
  .next (if s.on PAIR_CTRL_ENABLE && s.on PAIR_STATUS_LINK then
      if fault.val ≠ 0 then s.badMessage fault.val
      else if s.roleOk owns epoch.toNat then
        let a := s.ack seq.toNat
        { a.2 with pair := { a.2.pair with swapNoted := true } }
      else s.roleDrop 6 0 epoch.toNat unit.val
    else s)

/-- MOORING_EXCHANGE (R410, R422): the loaded package of equal digest is applied as with ALLOW_SKIP = 1. -/
def execMooringExchange (owns : Bool) (epoch : BitVec 16) (unit : Fin 2) (seq digest : BitVec 32) (fault : Fin 3)
    (s : State) : Out' :=
  .next (if s.on PAIR_CTRL_ENABLE && s.on PAIR_STATUS_LINK then
      if fault.val ≠ 0 then s.badMessage fault.val
      else if s.roleOk owns epoch.toNat then
        let a := s.ack seq.toNat
        if a.1 then
          (List.range 6).foldl (fun s q =>
            if s.xState q = xLOADED ∧ (s.quay q).xchg.digest % 2 ^ 32 = digest.toNat then s.xchgApply q true else s) a.2
        else a.2
      else s.roleDrop 7 0 epoch.toNat unit.val
    else s)

/-- COPY_STALE (R417): no complete copy of an enabled stream for STALE_MS, while LINK is 1 and the partner in RUN. -/
def execCopyStale (stream : Fin 7) (s : State) : Out' :=
  let i := stream.val
  let x := s.stream i
  .next (if s.mode == STANDBY && s.on PAIR_STATUS_LINK && s.pair.peerMode == RUN && s.streamOn i && !x.stale &&
      decide (x.lastDone + s.g PAIR_COPY_LOCK_STALE_MS * 1000 * usCycles ≤ s.fab) then
    (s.setStream i { x with stale := true }).raise .pair PAIR_COPY_STALE none i
  else s)

/-! ## Planned swaps (R421) -/

def State.swapCommand (s : State) : State :=
  let t := s.timeNs PAIR_SWAP_TIME_NS_NANOSECONDS
  let refuse : Nat → State := fun c => s.p PAIR_SWAP_CMD_REFUSAL 0 c
  if s.mode ≠ RUN ∨ s.on PAIR_CTRL_ENABLE = false ∨ s.on PAIR_STATUS_PEER_FIT = false ∨ s.pair.swapTime.isSome then
    refuse 0xA03
  else if t < s.tideNs + 1000000 ∨ s.tideNs + 3600000000000 < t then refuse 0xA04
  else
    let s := ((refuse 0).p PAIR_SWAP_CMD_SWAP_STATE 0 1).mooringSend 6 0 0 []
    { s with pair := { s.pair with swapTime := some t } }

/-- SWAP_COMMAND (R421): GO written to PAIR_SWAP_CMD. -/
def execSwapCommand (s : State) : Out' := .next (s.command fun s => s.swapCommand)

/-- SWAP_START (R421): the first cycle at or after the named time: scan starts are held, and the final copies follow at the
quays' boundaries. -/
def execSwapStart (s : State) : Out' :=
  .next (match s.pair.swapTime with
    | some t =>
      if t ≤ s.tideNs ∧ s.pair.swapAt = none then
        ({ s with pair := { s.pair with swapAt := some s.fab } }).swapFinals else s
    | none => s)

/-- SWAP_TIMEOUT (R421): 10 ms after the named time the swap has not been released. -/
def execSwapTimeout (s : State) : Out' :=
  .next (match s.pair.swapTime with
    | some t =>
      if t + 10000000 ≤ s.tideNs then
        let s := { s with pair := { s.pair with swapTime := none, swapAt := none, finals := false } }.p
          PAIR_SWAP_CMD_SWAP_STATE 0 3
        s.raise .pair PAIR_PEER_UNFIT none 0
      else s
    | none => s)

/-! ## Safe Cargo frames (R427) -/

/-- Queue one SAFE_OUT frame of a station on every enabled field port of its mask. -/
def State.safeOut (s : State) (n : Nat) (e : List Byte) : State :=
  match s.station n with
  | none => s
  | some x =>
    let seq := x.nextSeq
    let data := (List.range (entOutLen e)).map fun i => s.stationByte n (384 + i)
    let msg := cargoHeader 2 0 n seq data.length s.tideNs (s.g NET_CARGO_SYSID_SYSTEM_ID) ++ data
    let size := frameOctets (entTransport e) msg.length (entVlan e)
    let s := s.setStation n (some { x with txSeq := seq, txFirst := false })
    (List.range 4).foldl (fun s p =>
      if (entRxMask e).testBit p && s.on NET_PORT_CTRL_ENABLE (dPort p) then
        let f := s.buildFrame p (s.cargoCarrier e) 0x88B5 msg
        f.2.queueOther p (.octets f.1) size
      else s) s

/-- SAFE_OUT_SEND (R427): in SAFE with Cargo enabled, at once and then every SAFE_REPEAT_MS (0: once). -/
def execSafeOutSend (s : State) : Out' :=
  let rep := s.g BKW_SAFE_CARGO_SAFE_REPEAT_MS
  let due := match s.pair.safeAt with | none => true | some t => rep ≠ 0 && t + rep * 1000 * usCycles ≤ s.fab
  .next (if s.mode == SAFE && s.on NET_CARGO_CTRL_ENABLE && s.pair.safeOut && due then
    let s := { s with pair := { s.pair with safeAt := some s.fab } }
    s.liveStations.foldl (fun s x =>
      if 1 ≤ entOutLen x.2 ∧ s.on BRN_QUAY_CTRL_ENABLE (dQuay (entQuay x.2)) = true then
        if s.eccIn (.safeFrame x.1) then s.raise .bkw BKW_ECC_UNCORR none 0 else s.safeOut x.1 x.2
      else s) s
  else s)

/-! ## The enable check of PAIR (R433) -/

/-- Whether DDR has been initialised. -/
def State.ddrReady (s : State) : Bool := s.on MEM_CTRL_DDR_READY

def State.pairNeeds (s : State) : Bool := s.on TID_CTRL_ENABLE && s.on MEM_CTRL_ENABLE

def State.pairCheck (s : State) : Chk :=
  let kb := s.g PAIR_COPY_CFG_COPY_MAX_KB
  let us := s.g PAIR_COPY_CFG_GRV_PERIOD_US
  let hold := s.g PAIR_COPY_LOCK_HOLD
  let st := s.g PAIR_COPY_LOCK_STALE_MS
  let a := s.g PAIR_LAND_BASE_ADDR
  firstFail [
    (!(1 ≤ kb && kb ≤ 64 && 100 ≤ us && us ≤ 60000), 0xA01, [PAIR_COPY_CFG_COPY_MAX_KB.off]),
    (!(1 ≤ st && st ≤ 10000 && 1 ≤ s.g PAIR_COPY_LOCK_QUOTA && 4 ≤ hold && hold ≤ 256), 0xA01, [PAIR_COPY_LOCK_HOLD.off]),
    (!(a % 2 ^ 20 == 0 && s.inDdr a (64 * 2 ^ 20)), 0xA02, []),
    (s.mode != PROVISION, 0xA05, [])]

end Sys2Proof.Machine
end

