-- ==== Sys2Proof/Machine/Pio.lean ====
section
/-! DEFINITION. Local plant I/O: filtered inputs, outputs, PWM channels, encoders (R46, R426, R430, R432, R493 to
R495). Readings and choices: DEDUCED log 47. -/

namespace Sys2Proof.Machine

/-- DIN_FILTER_CHANGE (R493): a pin has held a new level for FILTER_US + 1 samples. -/
def execDinFilterChange (pin : Fin 64) (level : Bool) (s : State) : Out' :=
  .next (if s.on PIO_CTRL_ENABLE && (s.g PIO_DIN_DIN).testBit pin.val != level then
      let s := s.setBit PIO_DIN_DIN 0 pin.val level
      if level then s.fireEdge (srcPioDin pin.val) else s
    else s)

/-! ## Outputs -/

/-- Whether points that are PAIRED are released (R403, R426, R430): PAIR is enabled and the device does not own the field,
still claims it, has not ended its take-up, or is in SAFE. -/
def State.pairedOff (s : State) : Bool :=
  s.on PAIR_CTRL_ENABLE &&
    (!s.on PAIR_STATUS_OWN || s.pair.claim.isSome || s.pair.takeover || s.mode == SAFE)

/-- Whether a mode holds every point that is not PAIRED at its safe level (R430, R432). R37 and R47 release field outputs in
PROVISION; R430, R432 and R493 give these pins their safe level there: DEDUCED, log 47. -/
def holdsSafe (m : Nat) : Bool := m == PROVISION || m == STANDBY || m == SAFE

/-- Whether a mode asks for commissioning enables (R46). -/
def commMode (m : Nat) : Bool := m == COMMISSION || m == FACTORY

/-- The quay of the enabled cyclic task that owns an output bit (R137, R493). -/
def State.doutOwner (s : State) (n : Nat) : Option Nat :=
  ((List.range 48).find? fun i =>
    s.on BRN_QUAY_CTRL_ENABLE (dQuay (i / 8)) && s.on BRN_TASK_CFG_ON (dTask (i / 8) (i % 8)) &&
      (s.doutMask (i / 8) (i % 8)).testBit n).map (· / 8)

/-- Whether the pin of an output is driven at all. -/
def State.doutDriven (s : State) (n : Nat) : Bool :=
  s.on PIO_CTRL_ENABLE && (s.g PIO_DIR_DIR).testBit n && !((s.g BKW_PAIRED_DOUT_MASK).testBit n && s.pairedOff)

/-- Whether an output stands at its safe level: by the mode of its task's quay, which takes a mode up at its scan boundary
(R41, R47); STANDBY and SAFE hold at once. -/
def State.doutSafe (s : State) (n : Nat) : Bool :=
  match s.doutOwner n with
  | none => true
  | some q =>
    s.mode == STANDBY || s.mode == SAFE || holdsSafe (s.quay q).mode ||
      (commMode (s.quay q).mode && !(s.g PIO_COMM_EN_COMM_EN).testBit n)

/-- The level of an output pin: none where it is released. -/
def State.dout (s : State) (n : Nat) : Option Bool :=
  if s.doutDriven n then
    some (if s.doutSafe n then (s.g BKW_SAFE_DOUT_LEVEL).testBit n else s.pio.latch.testBit n)
  else none

/-- PIO_DOUT (R493): the levels being driven; a released pin reads 0. -/
def State.doutWord (s : State) : Nat :=
  ((List.range 64).map fun n => if s.dout n = some true then 2 ^ n else 0).sum

/-! ## PWM (R494) -/

/-- The commissioning enable of a channel: that of the Graver context or group that drives it, else its own (R186). -/
def State.pwmComm (s : State) (n : Nat) : Bool :=
  match s.outPorts.find? fun x => portK x.2 == 3 && portUnit x.2 == n with
  | some (c, _) => if c < 128 then s.on GRV_CTX_LIVE_COMM_EN (dCtx c) else s.on GRV_GRP_CTRL_COMM_EN (dGrp (c - 128))
  | none => s.on PIO_PWM_CFG_COMM_EN (dPwm n)

/-- Whether a channel is held at its safe duty. -/
def State.pwmSafe (s : State) (n : Nat) : Bool := holdsSafe s.mode || (commMode s.mode && !s.pwmComm n)

/-- PWM_PERIOD_START (R494): a period begins, PERIOD cycles after the one before: the duty in force is taken up. -/
def execPwmPeriodStart (channel : Fin 16) (s : State) : Out' :=
  let n := channel.val
  .next (if s.on PIO_PWM_CFG_ENABLE (dPwm n) && decide (AMap.get 0 s.pio.pwmAt n ≤ s.fab) then
      let s := { s with pio := { s.pio with pwmAt := AMap.set 0 s.pio.pwmAt n (s.fab + s.g PIO_PWM_PERIOD_CYCLES (dPwm n)) } }
      s.p PIO_PWM_APPLIED_DUTY (dPwm n) (if s.pwmSafe n then s.g BKW_SAFE_PWM_DUTY (4 * n) else s.g PIO_PWM_DUTY_DUTY (dPwm n))
    else s)

/-- CLK_FAB cycles of a period at the active level: DUTY × PERIOD / 65,536 rounded to nearest, ties to even (R494). -/
def State.pwmActive (s : State) (n : Nat) : Nat :=
  let x := s.g PIO_PWM_APPLIED_DUTY (dPwm n) * s.g PIO_PWM_PERIOD_CYCLES (dPwm n)
  let q := x / 65536
  let r := x % 65536
  if 32768 < r ∨ (r = 32768 ∧ q % 2 = 1) then q + 1 else q

/-! ## Encoders (R495) -/

/-- ENC_ERR of a channel. -/
def State.encErr (s : State) (n : Nat) : State :=
  (s.incSat PIO_ENC_STATUS_ERRORS (dEnc n)).raise .pio PIO_ENC_ERR none n

/-- Place of the inputs (A in bit 1, B in bit 0) in the cycle 00, 10, 11, 01 that counts up. -/
def quadPlace (ab : Nat) : Nat := match ab with | 0 => 0 | 2 => 1 | 3 => 2 | _ => 3

/-- ENCODER_EDGE (R495): the sampled levels of A and B. One changed input counts; both changed are an error. -/
def execEncoderEdge (channel : Fin 16) (a b : Bool) (s : State) : Out' :=
  let n := channel.val
  let new := 2 * bit a + bit b
  let old := AMap.get 0 s.pio.encIn n
  let s := { s with pio := { s.pio with encIn := AMap.set 0 s.pio.encIn n new } }
  .next (if s.on PIO_ENC_CFG_ENABLE (dEnc n) && !s.on PIO_ENC_CFG_SSI (dEnc n) then
      let step := (quadPlace new + 4 - quadPlace old) % 4
      let pos := s.g PIO_ENC_POS_COUNT (dEnc n)
      if step = 1 then s.p PIO_ENC_POS_COUNT (dEnc n) (pos + 1)
      else if step = 3 then s.p PIO_ENC_POS_COUNT (dEnc n) (pos + 2 ^ 32 - 1)
      else if step = 2 then s.encErr n
      else s
    else s)

/-- ENCODER_INDEX (R495): a rising edge of ENCn_Z. -/
def execEncoderIndex (channel : Fin 16) (s : State) : Out' :=
  let d := dEnc channel.val
  .next (if s.on PIO_ENC_CFG_ENABLE d && !s.on PIO_ENC_CFG_SSI d then s.p PIO_ENC_ZPOS_COUNT d (s.g PIO_ENC_POS_COUNT d) else s)

/-- Gray code to binary, over `k` bits from the top. -/
def grayBits : Nat → Nat → Nat
  | 0, _ => 0
  | k + 1, x => x ^^^ grayBits k (x / 2)

/-- SSI_FRAME_START (R495): a frame begins, FRAME_US after the one before; one whose data line is not high at idle is discarded. -/
def execSsiFrameStart (channel : Fin 16) (idleHigh : Bool) (s : State) : Out' :=
  let n := channel.val
  .next (if s.on PIO_ENC_CFG_ENABLE (dEnc n) && s.on PIO_ENC_CFG_SSI (dEnc n) &&
        decide (AMap.get 0 s.pio.ssiAt n ≤ s.fab) then
      let s := { s with pio := { s.pio with
        ssiAt := AMap.set 0 s.pio.ssiAt n (s.fab + usCycles * s.g PIO_ENC_SSI_FRAME_US (dEnc n)) } }
      if idleHigh then
        { s with pio := { s.pio with ssiBusy := if s.pio.ssiBusy.contains n then s.pio.ssiBusy else s.pio.ssiBusy ++ [n] } }
      else s.encErr n
    else s)

/-- SSI_FRAME_END (R495): BITS bits have been read. POS adds the difference from the frame before; the first frame since
ENABLE has none. -/
def execSsiFrameEnd (channel : Fin 16) (data : BitVec 32) (s : State) : Out' :=
  let n := channel.val
  let d := dEnc n
  .next (if s.pio.ssiBusy.contains n then
      let w := s.g PIO_ENC_CFG_BITS d
      let raw := data.toNat % 2 ^ w
      let v := if s.on PIO_ENC_CFG_GRAY d then grayBits w raw else raw
      let pos := s.g PIO_ENC_POS_COUNT d
      let s := match AMap.get none s.pio.ssiPos n with
        | some old => s.p PIO_ENC_POS_COUNT d (ofSigned 32 (toSigned w (v + 2 ^ w - old) + toSigned 32 pos))
        | none => s
      { s with pio := { s.pio with ssiBusy := s.pio.ssiBusy.filter (· != n),
                                   ssiPos := AMap.set none s.pio.ssiPos n (some v) } }
    else s)

/-- An encoder channel is disabled: its frames end, and its next frame is a first one. -/
def State.encDisable (s : State) (n : Nat) : State :=
  { s with pio := { s.pio with ssiBusy := s.pio.ssiBusy.filter (· != n), ssiPos := AMap.set none s.pio.ssiPos n none
                               ssiAt := AMap.set 0 s.pio.ssiAt n 0 } }

end Sys2Proof.Machine
end

