-- ==== Sys2Proof/Machine/QuayCheck.lean ====
section
/-! DEFINITION. The checks of a quay (R135, R145, R146, R167), of Cargo (R154) and of the Locks (R400), and the change of
a live station table (R155). A check reads a State, which PROOF gives with the staged copies laid over the live ones.
Readings and choices: DEDUCED log 21, 22. -/

namespace Sys2Proof.Machine

/-- Whether two ranges of bytes (start, length) meet. -/
def meets (a b : Nat × Nat) : Bool := 0 < a.2 && 0 < b.2 && a.1 < b.1 + b.2 && b.1 < a.1 + a.2

/-- Whether a range leaves an area of `n` bytes. -/
def leaves (n : Nat) (a : Nat × Nat) : Bool := n < a.1 + a.2

/-- The window offsets of a task's configuration and save registers. -/
def taskRegs (q t : Nat) : List Nat :=
  if t < 8 then [BRN_TASK_SAVE_SAVE.off + dTask q t, BRN_TASK_ENTRY_ENTRY.off + dTask q t, BRN_TASK_CFG_ON.off + dTask q t]
  else if t < 16 then [BRN_EVT_SAVE_SAVE.off + dEvt q (t - 8), BRN_EVT_ENTRY_ENTRY.off + dEvt q (t - 8),
    BRN_EVT_CFG_ON.off + dEvt q (t - 8)]
  else [BRN_ERR_SAVE_SAVE.off + dEvt q (t - 16), BRN_ERR_ENTRY_ENTRY.off + dEvt q (t - 16),
    BRN_ERR_CFG_ON.off + dEvt q (t - 16)]

/-- The configured tasks of a quay, the start-up task apart. -/
def State.onTasks (s : State) (q : Nat) : List Nat := (List.range 24).filter (s.taskOn q)

/-- The image areas of a quay's tasks (R167): start, length and the registers that name them: DIN, DOUT, activation
records. -/
def State.ioAreas (s : State) (q : Nat) : List (Nat × Nat × List Nat) :=
  ((s.onTasks q).flatMap fun t =>
    let r := if t < 8 then [BRN_TASK_IO_IO_OFF.off + dTask q t] else if t < 16 then [BRN_EVT_IO_IO_OFF.off + dEvt q (t - 8)]
      else [BRN_ERR_ARG_ARG_OFF.off + dEvt q (t - 16)]
    (match s.taskDin q t with | some o => [(o, 8, r)] | none => []) ++
    (if t < 8 ∧ s.doutMask q t ≠ 0 then [(8 * s.g BRN_TASK_IO_IO_OFF (dTask q t) + 8, 8, r)] else []) ++
    (if tERR ≤ t then [(8 * s.g BRN_ERR_ARG_ARG_OFF (dEvt q (t - tERR)), 16, r)] else []))

/-- The status array of a quay (R158). -/
def State.statusArea (s : State) (q : Nat) : Nat × Nat × List Nat :=
  (8192 * s.g BRN_QUAY_IMAGE_STATUS_BASE (dQuay q), 8192, [BRN_QUAY_IMAGE_STATUS_BASE.off + dQuay q])

/-- A copy's fabric cycles without its stations (R146). -/
def State.copyBase (s : State) (q extra : Nat) : Nat := 8 + extra + s.cargoLock q

/-- The copy times of a cyclic task, in fabric cycles, over some stations' IN_LEN and OUT_LEN (R146). -/
def State.copyTime (s : State) (q t : Nat) (stns : List (Nat × Nat)) : Nat :=
  s.copyBase q (bit (s.taskDin q t).isSome) + s.copyBase q (bit (s.doutMask q t ≠ 0)) +
    (stns.map fun x => 8 + ceilDiv x.1 32 + ceilDiv x.2 32).sum

/-- Whether copy times in fabric cycles are not below a task's period. -/
def State.copyTooLong (s : State) (q t cycles : Nat) : Bool :=
  100000 * s.g BRN_TASK_PERIOD_VALUE (dTask q t) ≤ 25 * cycles

/-- What a quay needs (R167). -/
def State.quayNeeds (s : State) : Bool := s.on TID_CTRL_ENABLE

/-- Every pair of a list. -/
def pairsOf {α : Type} : List α → List (α × α)
  | [] => []
  | a :: t => t.map (fun b => (a, b)) ++ pairsOf t

/-- Whether the stack of a core is wrong (R135). -/
def State.stackBad (s : State) (c : Nat) : Bool :=
  let sp := s.g BRN_CORE_STACK_SP (dCore c)
  let l := s.g BRN_CORE_STACK_SLIMIT (dCore c)
  sp ≤ l || sp % 8 != 0 || l % 8 != 0 || decide (sp - l < 64)

/-- Whether an entry or a save area of a task is wrong. -/
def State.entryBad (s : State) (q t : Nat) : Bool := leaves 0x20000 (s.taskEntry q t, 4) || leaves 0x10000 (s.taskSave q t, 192)

/-- The registers of the first element that a test finds. -/
def firstOf {α : Type} (l : List α) (bad : α → Bool) (regs : α → List Nat) : Bool × List Nat :=
  match l.find? bad with | some x => (true, regs x) | none => (false, [])

/-- A quay's check after its need (R135, R167). -/
def State.quayCheck (s : State) (q : Nat) : Chk :=
  let on := s.onTasks q
  let cyc := on.filter (· < 8)
  let period : Nat → Nat := fun t => s.g BRN_TASK_PERIOD_VALUE (dTask q t)
  let c103 := firstOf cyc
    (fun t => !(5 ≤ period t && period t ≤ 1000000 && s.g BRN_TASK_PHASE_VALUE (dTask q t) < period t))
    (fun t => [BRN_TASK_PERIOD_VALUE.off + dTask q t, BRN_TASK_PHASE_VALUE.off + dTask q t, BRN_TASK_CFG_ON.off + dTask q t])
  let entry := firstOf on (s.entryBad q) (taskRegs q)
  let clash : Nat × Nat → Bool := fun x => s.taskCore q x.1 == s.taskCore q x.2 &&
    meets (s.taskSave q x.1, 192) (s.taskSave q x.2, 192)
  let saves := firstOf (pairsOf (on ++ [tSTART])) clash
    (fun x => taskRegs q x.1 ++ if x.2 = tSTART then [] else taskRegs q x.2)
  let owners : List (Nat × Nat) := (List.range 6).flatMap fun j =>
    if j = q ∨ s.on BRN_QUAY_CTRL_ENABLE (dQuay j) = true then
      ((s.onTasks j).filter (· < 8)).map fun t => (j, t) else []
  let c105 := firstOf (pairsOf owners)
    (fun x => (x.1.1 == q || x.2.1 == q) && s.doutMask x.1.1 x.1.2 &&& s.doutMask x.2.1 x.2.2 != 0)
    (fun x => [x.1, x.2].flatMap fun y => [BRN_TASK_DOUT_MASK_MASK.off + dTask y.1 y.2, BRN_TASK_CFG_ON.off + dTask y.1 y.2])
  let areas := s.statusArea q :: s.ioAreas q
  let out := firstOf areas (fun a => leaves 0x100000 (a.1, a.2.1)) (·.2.2)
  let c106 := firstOf (pairsOf areas) (fun x => meets (x.1.1, x.1.2.1) (x.2.1, x.2.2.1)) (fun x => x.1.2.2 ++ x.2.2.2)
  let c108 := firstOf cyc (fun t => s.copyTooLong q t (s.copyTime q t [])) (fun t => [BRN_TASK_PERIOD_VALUE.off + dTask q t])
  firstFail [
    ((List.range 4).any fun i => leaves 0x20000 (16384 * s.g BRN_CORE_BOOT_VBASE (dCore (4 * q + i)), 16384), 0x101, []),
    ((List.range 4).any fun i => s.stackBad (4 * q + i), 0x102, []),
    (c103.1, 0x103, c103.2), (entry.1, 0x104, entry.2), (saves.1, 0x104, saves.2), (c105.1, 0x105, c105.2),
    (out.1, 0x106, out.2), (c106.1, 0x106, c106.2),
    (s.entryBad q tSTART, 0x107, []),
    (c108.1, 0x108, c108.2), ((s.quay q).xchg.partly, 0x11B, [])]

/-! ## Cargo (R154) -/

/-- The stations that Cargo's check sees: those of the table, where it lies in shared SRAM. -/
def State.cargoStations (s : State) : List (Nat × List Byte) :=
  let b := s.g NET_CARGO_TABLE_BASE
  if inSram b (2048 * 1024) then s.tableStations b else []

/-- What Cargo needs: TID, the quays of its stations, the ports they are received on. Answers the station concerned. -/
def State.cargoNeeds (s : State) : Option (Option Nat) :=
  if !s.on TID_CTRL_ENABLE then some none
  else
    let bad : List Byte → Bool := fun e =>
      (entQuay e < 6 && !s.on BRN_QUAY_CTRL_ENABLE (dQuay (entQuay e))) ||
        (List.range 4).any fun p => (entRxMask e).testBit p && !s.on NET_PORT_CTRL_ENABLE (dPort p)
    (s.cargoStations.find? fun x => bad x.2).map fun x => some x.1

/-- Whether a field of an entry is out of range, or one marked 0 is not 0 (R153). -/
def State.entryRange (s : State) (n : Nat) (e : List Byte) : Bool :=
  let f := entField e 0 4
  bits f 14 2 != 0 || bits f 23 9 != 0 || 6 ≤ entQuay e || entTransport e == 3 || entMissLimit e == 0 ||
    256 < entInLen e || 256 < entOutLen e || (0 < entOutLen e && 512 ≤ entPath e) || entField e 26 6 != 0 ||
    entField e 50 14 != 0 || (entTransport e == 1 && entField e 36 12 != 0) ||
    leNat (s.rbs (s.g NET_CARGO_TABLE_BASE + 1024 * n + 672) 352) != 0

/-- Whether two stations share a receive address on a common port. -/
def sharesRx (a b : List Byte) : Bool :=
  entRxMask a &&& entRxMask b != 0 && entTransport a == entTransport b &&
    (if entTransport a = 0 then entMac a == entMac b else entIp a == entIp b && entUdp a == entUdp b)

def inArea (e : List Byte) : Nat × Nat := (entInOff e, entInLen e)
def outArea (e : List Byte) : Nat × Nat := (entOutOff e, entOutLen e)

/-- Whether a station's areas leave the image SRAM, or meet another station's or an area of the quay. -/
def State.areaBad (s : State) (all : List (Nat × List Byte)) (x : Nat × List Byte) : Bool :=
  let mine := [inArea x.2, outArea x.2]
  let q := entQuay x.2
  let others := (all.filter fun y => y.1 != x.1 && entQuay y.2 == q).flatMap fun y => [inArea y.2, outArea y.2]
  let fixed := (s.statusArea q :: s.ioAreas q).map fun a => (a.1, a.2.1)
  mine.any fun a => leaves 0x100000 a || (others ++ fixed).any (meets a)

/-- Cargo's check after its needs (R154): the code and the station it concerns. -/
def State.cargoCheck (s : State) : Option (Nat × Option Nat) :=
  let b := s.g NET_CARGO_TABLE_BASE
  let area := sramBase + 0x400000 * s.g NET_CARGO_CTRL_AREA
  let all : List (Nat × List Byte) := s.cargoStations
  let one : Nat → (Nat × List Byte → Bool) → Option (Nat × Option Nat) := fun code f =>
    (all.find? f).map fun x => (code, some x.1)
  let sends : List (Nat × List Byte) := all.filter fun x => 0 < entOutLen x.2
  let late : (Nat × Nat) → Bool := fun x =>
    let mine : List (Nat × List Byte) := all.filter fun y => entQuay y.2 == x.1 && entTask y.2 == x.2
    !mine.isEmpty && s.copyTooLong x.1 x.2 (s.copyTime x.1 x.2 (mine.map fun (y : Nat × List Byte) => (entInLen y.2, entOutLen y.2)))
  if b % 4096 ≠ 0 ∨ !inSram b 0x200000 ∨ meets (b, 0x200000) (area, 0x400000) then some (0x680, none)
  else
    [one 0x681 (fun (x : Nat × List Byte) => s.entryRange x.1 x.2),
     one 0x682 (fun (x : Nat × List Byte) => !s.on BRN_TASK_CFG_ON (dTask (entQuay x.2) (entTask x.2))),
     (sends.find? fun (x : Nat × List Byte) => s.pathKind (entPath x.2) != kCARGO || sends.any fun (y : Nat × List Byte) => entPath y.2 == entPath x.2 &&
       (entQuay y.2 != entQuay x.2 || entTask y.2 != entTask x.2)).map (fun (x : Nat × List Byte) => (0x683, some x.1)),
     one 0x684 (fun (x : Nat × List Byte) => all.any fun (y : Nat × List Byte) => y.1 != x.1 && sharesRx x.2 y.2),
     one 0x685 (s.areaBad all),
     if ((List.range 6).flatMap fun q => (List.range 8).map fun t => (q, t)).any late then some (0x686, none) else none
    ].findSome? id

/-- NET_CARGO_FAIL (R154). -/
def State.cargoFail (s : State) (n : Option Nat) : State :=
  (s.p NET_CARGO_FAIL_VALID 0 (bit n.isSome)).p NET_CARGO_FAIL_STATION 0 (n.getD 0)

/-- Write the status arrays of the enabled quays (R158). -/
def State.statusArrays (s : State) : State :=
  (List.range 6).foldl (fun s q => if s.on BRN_QUAY_CTRL_ENABLE (dQuay q) then s.writeStatusArray q else s) s

/-- Cargo is enabled: every station of the table starts WAITING. NET_CARGO_FAIL, which names the station of a refusal (R154), then
names none: DESIGN CHOICE log 53. -/
def State.cargoEnable (s : State) : State :=
  let s := { s with stations := (s.tableStations (s.g NET_CARGO_TABLE_BASE)).map fun (x : Nat × List Byte) =>
             (x.1, some { entry := x.2 }) }
  (s.cargoFail none).statusArrays

/-- Cargo is disabled: no station is in service. -/
def State.cargoDisable (s : State) : State :=
  { (s.liveStations.foldl (fun s x => s.droppedBit x.1 false) s) with stations := [] }

/-- A new station table is live (R155). -/
def State.cargoTableChange (s : State) : State :=
  let b := s.g NET_CARGO_TABLE_BASE
  let s := (List.range 2048).foldl (fun s n =>
    let e := s.tableEntry b n
    match s.station n, entOn e with
    | some x, true => if keepsState x.entry e then s.setStation n (some { x with entry := e })
        else (s.setStation n (some { entry := e })).droppedBit n false
    | none, true => s.setStation n (some { entry := e })
    | some _, false => (s.setStation n none).droppedBit n false
    | none, false => s) s
  s.statusArrays

/-! ## Lock (R400) -/

/-- The first Lock that a test finds, with its registers; every register of a Lock is a candidate. -/
def lockOf (bad : Nat → Bool) : Bool × List Nat :=
  firstOf (List.range 21) bad fun l => (LCK_CFG_MODE.off + dLock l) :: (List.range 32).map fun r => LCK_REQ_PRIO.off + dReq l r

/-- The Lock's own conditions. -/
def State.lckCheck (s : State) : Chk :=
  let own : Nat → List Nat := fun l => (slotsOf l).filter (· != 19)
  let range := lockOf fun l =>
    let w := s.g LCK_CFG_WINDOW (dLock l)
    !(256 ≤ w && w ≤ 65535) || (List.range 32).any fun r => r != 19 &&
      !(4 ≤ s.g LCK_REQ_HOLD (dReq l r) && s.g LCK_REQ_HOLD (dReq l r) ≤ 256)
  let window := lockOf fun l =>
    s.g LCK_CFG_WINDOW (dLock l) < ((slotsOf l).map fun r => max (s.lockQuota l r) 1 * s.lockHold l r).sum
  let quota := lockOf fun l => (own l).any fun r => s.g LCK_REQ_QUOTA (dReq l r) == 0 &&
    (own l).any fun o => s.g LCK_REQ_PRIO (dReq l o) < s.g LCK_REQ_PRIO (dReq l r)
  firstFail [(range.1, 0x901, range.2), (window.1, 0x902, window.2), (quota.1, 0x903, quota.2)]

end Sys2Proof.Machine
end

