-- ==== Sys2Proof/Machine/Enable.lean ====
section
/-! DEFINITION. The enable check (R73 to R76): the ENABLE bits, what each needs, its check, what setting and clearing it
does, and the cascade. The ENABLE of an output path is ContractRows'. Readings and choices: DEDUCED log 20, 23. -/

namespace Sys2Proof.Machine

/-- The blocks and instances that carry an ENABLE (R73). BTH, MST, LCK and BKW are always enabled (R369, R433). -/
inductive En where
  | tid | mem | alm | bst | pio | log | hst | pwr
  | quay (q : Nat) | cargo | port (p : Nat) | grv | drf | bcn | tly | can (n : Nat) | mbs (u : Nat) | pair
  | dom (d : Nat) | tout (o : Nat) | tin (i : Nat) | alarm (a : Nat) | grp (g : Nat) | ctx (c : Nat)
  | fdr (f : Nat) | th (c : Nat) | po (j : Nat) | pwm (n : Nat) | enc (n : Nat) | ring (r : Nat)
deriving DecidableEq, Repr

/-- ENABLE, REFUSAL and the displacement of the instance. -/
def En.flds : En → Fld × Fld × Nat
  | .tid => (TID_CTRL_ENABLE, TID_CTRL_REFUSAL, 0)
  | .mem => (MEM_CTRL_ENABLE, MEM_CTRL_REFUSAL, 0)
  | .alm => (ALM_CTRL_ENABLE, ALM_CTRL_REFUSAL, 0)
  | .bst => (BST_CTRL_ENABLE, BST_CTRL_REFUSAL, 0)
  | .pio => (PIO_CTRL_ENABLE, PIO_CTRL_REFUSAL, 0)
  | .log => (LOG_CTRL_ENABLE, LOG_CTRL_REFUSAL, 0)
  | .hst => (HST_CTRL_ENABLE, HST_CTRL_REFUSAL, 0)
  | .pwr => (PWR_CTRL_ENABLE, PWR_CTRL_REFUSAL, 0)
  | .quay q => (BRN_QUAY_CTRL_ENABLE, BRN_QUAY_CTRL_REFUSAL, dQuay q)
  | .cargo => (NET_CARGO_CTRL_ENABLE, NET_CARGO_CTRL_REFUSAL, 0)
  | .port p => (NET_PORT_CTRL_ENABLE, NET_PORT_CTRL_REFUSAL, dPort p)
  | .grv => (GRV_CTRL_ENABLE, GRV_CTRL_REFUSAL, 0)
  | .drf => (DRF_CTRL_ENABLE, DRF_CTRL_REFUSAL, 0)
  | .bcn => (BCN_CTRL_ENABLE, BCN_CTRL_REFUSAL, 0)
  | .tly => (TLY_CTRL_ENABLE, TLY_CTRL_REFUSAL, 0)
  | .can n => (FBS_CTL_CTRL_ENABLE, FBS_CTL_CTRL_REFUSAL, dCan n)
  | .mbs u => (MBS_CFG_ENABLE, MBS_CFG_REFUSAL, dUart u)
  | .pair => (PAIR_CTRL_ENABLE, PAIR_CTRL_REFUSAL, 0)
  | .dom d => (TID_DOM_CFG_ENABLE, TID_DOM_CFG_REFUSAL, dDom d)
  | .tout o => (TIDE_OUT_CTRL_ENABLE, TIDE_OUT_CTRL_REFUSAL, dPin o)
  | .tin i => (TIDE_IN_CFG_ENABLE, TIDE_IN_CFG_REFUSAL, dPin i)
  | .alarm a => (ALM_ALARM_CTRL_ENABLE, ALM_ALARM_CTRL_REFUSAL, dAlarm a)
  | .grp g => (GRV_GRP_CTRL_ENABLE, GRV_GRP_CTRL_REFUSAL, dGrp g)
  | .ctx c => (GRV_CTX_CTRL_ENABLE, GRV_CTX_CTRL_REFUSAL, dCtx c)
  | .fdr f => (TLY_FDR_CTRL_ENABLE, TLY_FDR_CTRL_REFUSAL, dFdr f)
  | .th c => (TLY_TH_CTRL_ENABLE, TLY_TH_CTRL_REFUSAL, dTh c)
  | .po j => (TLY_PO_CFG_ENABLE, TLY_PO_CFG_REFUSAL, dPo j)
  | .pwm n => (PIO_PWM_CFG_ENABLE, PIO_PWM_CFG_REFUSAL, dPwm n)
  | .enc n => (PIO_ENC_CFG_ENABLE, PIO_ENC_CFG_REFUSAL, dEnc n)
  | .ring r => (HST_RING_CFG_ENABLE, HST_RING_CFG_REFUSAL, dRing r)

def En.off (e : En) : Nat := e.flds.1.off + e.flds.2.2
def En.key (e : En) : Nat := e.flds.1.key e.flds.2.2

/-- Every ENABLE, what is needed before what needs it. -/
def enAll : List En :=
  let n : Nat → (Nat → En) → List En := fun k f => (List.range k).map f
  [.tid, .mem, .alm, .bst, .pio, .log, .hst, .pwr] ++ n 6 .quay ++ [.cargo] ++ n 5 .port ++ [.grv, .drf, .bcn, .tly] ++
    n 8 .can ++ n 8 .mbs ++ [.pair] ++ n 2 .dom ++ n 8 .tout ++ n 4 .tin ++ n 2 .alarm ++ n 32 .grp ++ n 128 .ctx ++
    n 4 .fdr ++ n 32 .th ++ n 8 .po ++ n 16 .pwm ++ n 16 .enc ++ n 16 .ring

/-- The ENABLE of the register at a window offset. -/
def enAt (off : Nat) : Option En := enAll.find? fun e => e.off == off

def State.isOn (s : State) (e : En) : Bool := s.on e.flds.1 e.flds.2.2
def State.enSet (s : State) (e : En) (b : Bool) : State := s.p e.flds.1 e.flds.2.2 (bit b)
def State.enRefuse (s : State) (e : En) (code : Nat) : State := s.p e.flds.2.1 e.flds.2.2 code

/-! ## Needs (R76) -/

/-- The needs that cascade (R75): those on a quay and on a port do not. -/
def State.needsKept (s : State) (e : En) : Bool :=
  let tid := s.on TID_CTRL_ENABLE
  let pioPort : Fld → Nat → Bool := fun f d => portK (s.g f d) != 3 || s.on PIO_CTRL_ENABLE
  match e with
  | .quay _ | .cargo | .grv | .tly | .can _ | .dom _ | .tout _ | .tin _ => tid
  | .port p => s.netNeeds p
  | .drf => tid && (s.g DRF_SPILL_SIZE_MB == 0 || s.on MEM_CTRL_ENABLE)
  | .bcn => tid && s.on ALM_CTRL_ENABLE && s.on MEM_CTRL_ENABLE && s.on BST_CTRL_ENABLE
  | .pair => s.pairNeeds
  | .grp g => s.on GRV_CTRL_ENABLE && pioPort GRV_GRP_OUT_PORT (dGrp g)
  | .ctx c =>
    let g := s.g GRV_CTX_CFG_GROUP (dCtx c)
    s.on GRV_CTRL_ENABLE && (g == 0 || 32 < g || s.on GRV_GRP_CTRL_ENABLE (dGrp (g - 1))) &&
      [GRV_CTX_SP_PORT, GRV_CTX_MEAS_PORT, GRV_CTX_FFPOS_PORT, GRV_CTX_OUT_PORT].all fun f => pioPort f (dCtx c)
  | .fdr _ | .po _ => s.on TLY_CTRL_ENABLE
  | .th c => s.on TLY_CTRL_ENABLE && (!s.on TLY_TH_CFG_FLOW_PULSE (dTh c) || s.on PIO_CTRL_ENABLE)
  | .tid | .mem | .alm | .bst | .pio | .log | .hst | .pwr | .mbs _ | .alarm _ | .pwm _ | .enc _ | .ring _ => true

/-- Every need. -/
def State.needs (s : State) (e : En) : Bool :=
  s.needsKept e &&
    match e with
    | .cargo => s.cargoNeeds.isNone
    | .bcn => s.bcnNeeds
    | .grp g => s.grpNeeds g
    | .ctx c => s.ctxNeeds c
    | .th c => s.thNeeds c
    | _ => true

/-- Whether the memory that a block uses is initialised. -/
def State.memoryReady (s : State) (e : En) : Bool :=
  match e with
  | .drf => s.g DRF_SPILL_SIZE_MB == 0 || s.ddrReady
  | .bcn | .pair => s.ddrReady
  | _ => true

/-- Whether an ENABLE may be set in SAFE: those of LOG, BST, HST and MEM. -/
def En.inSafe : En → Bool
  | .log | .bst | .hst | .mem => true
  | _ => false

/-! ## Checks (R73): over a view in which the ENABLE reads 1 -/

/-- The block's own conditions. -/
def State.checkOf (s : State) (e : En) : Option Nat :=
  let c : Chk → Option Nat := fun x => x.map (·.1)
  match e with
  | .tid => c s.tidCheck
  | .mem => c s.memCheck
  | .log => c s.logCheck
  | .hst => c s.hstCheck
  | .quay q => c (s.quayCheck q)
  | .cargo => s.cargoCheck.map (·.1)
  | .port p => c (s.netCheck p)
  | .drf => c s.drfCheck
  | .bcn => c s.bcnCheck
  | .tly => c s.tlyCheck
  | .can n => c (s.canCheck n)
  | .mbs u => c (s.mbsCheck u)
  | .pair => c s.pairCheck
  | .dom d => c (s.domCheck d)
  | .tout o => c (s.outCheck o (AMap.get 0 s.tid.outAt o))
  | .tin i => c (s.inCheck i)
  | .alarm a => if s.alarmCheck a = 0 then none else some (s.alarmCheck a)
  | .grp g => c (s.grpCheck g)
  | .ctx x => c (s.ctxCheck x)
  | .fdr f => c (s.fdrCheck f)
  | .th x => c (s.thCheck x)
  | .po j => c (s.poCheck j)
  | .ring r => c (s.ringCheck r)
  | .alm | .bst | .pio | .pwr | .grv | .pwm _ | .enc _ => none

/-- The station that a refusal of Cargo names (R154). -/
def State.failNote (s : State) (e : En) : State :=
  match e with
  | .cargo =>
    match s.cargoNeeds with
    | some n => s.cargoFail n
    | none => s.cargoFail (match s.cargoCheck with | some x => x.2 | none => none)
  | _ => s

/-! ## What setting and clearing do -/

/-- A quay is enabled (R41, R59, R135, R158): its cores leave reset and idle, its status array written; outside PROVISION its
start-up task is to run. That leaving reset so gives their registers the values of log 3 also where the quay had not been reset
since ENABLE was cleared is no rule's: DESIGN CHOICE log 53. -/
def State.quayEnable (s : State) (q : Nat) : State :=
  let s := s.stopQuay q
  let s := s.setQuay q { s.quay q with mode := s.mode, cmdAt := none, forced := false, overlay := [], halted := false }
  let s := (List.range 4).foldl (fun s i => s.setCore (4 * q + i) { run := .idle, cycBase := s.fab }) s
  let s := s.writeStatusArray q
  if s.mode = PROVISION then s else s.armStartup q s.fab

/-- A quay is disabled: its tasks end, its cores are in reset, and the transition does not wait for it (R41, R52). -/
def State.quayDisable (s : State) (q : Nat) : State :=
  let s := s.stopQuay q
  let s := (List.range 4).foldl (fun s i =>
    let k := s.core (4 * q + i)
    let s := s.setCore (4 * q + i) { k with run := .reset, task := none, stacked := [], held := none, kept := [],
                                            recvFrom := none, booted := false }
    k.unentered.foldl State.returnHeld s) s
  (s.setQuay q { s.quay q with cmdAt := none, forced := false }).transitCheck

/-- A ring is disabled: its fetched commands go (R74, R85). -/
def State.ringDisable (s : State) (r : Nat) : State :=
  let s := ((s.ring r).cmds.filterMap (·.item)).foldl State.itemGone s
  { s with ringProof := s.ringProof.filter (· != r) }.setRing r { s.ring r with cmds := [] }

/-- PAIR is disabled (R433): copies and a planned swap end; OWN_N keeps its level. -/
def State.pairDisable (s : State) : State :=
  let s := if s.pair.swapTime.isSome || s.pair.swapAt.isSome then s.p PAIR_SWAP_CMD_SWAP_STATE 0 0 else s
  let s := (List.range 8).foldl (fun s i => s.setStream i { s.stream i with rx := none, rxBad := false }) s.cutCopies
  { s with pair := { s.pair with unacked := [], swapTime := none, swapAt := none, finals := false } }

/-- What the ENABLE's change to 1 does beside it. -/
def State.enabled (s : State) (e : En) : State :=
  match e with
  | .quay q => s.quayEnable q
  | .cargo => s.cargoEnable
  | .port p => s.portEnable p
  | .hst => { s with hostLost := false }
  | .bcn => s.bcnEnable
  | .tly => s.tlyEnable
  | .can n => s.canEnable n
  | .alm => s.almLevels
  | .dom d => s.domEnable d
  | .tout o => s.outEnable o (AMap.get 0 s.tid.outAt o)
  | .grp g => s.grpEnable g
  | .ctx c => s.ctxEnable c
  | .fdr f => s.fdrEnable f
  | .th c => s.thEnable c
  | .po j => s.poEnable j
  | .ring r => s.setRing r {}
  | .tid | .mem | .bst | .pio | .log | .pwr | .grv | .drf | .mbs _ | .pair | .tin _ | .alarm _ | .pwm _ | .enc _ => s

/-- What its change to 0 does beside it (R74). -/
def State.disabled (s : State) (e : En) : State :=
  match e with
  | .quay q => s.quayDisable q
  | .cargo => s.cargoDisable
  | .port p => s.portDisable p
  | .hst => s.hostLose
  | .drf => s.drfDisable
  | .bcn => s.bcnDisable
  | .tly => s.tlyDisable
  | .can n => s.canDisable n
  | .mbs u => s.mbsDisable u
  | .alm => s.almLevels
  | .pair => s.pairDisable
  | .tout o => s.outDisable o
  | .alarm a => { s with alm := { s.alm with armed := s.alm.armed.filter (· != a) } }
  | .grp _ => s.grvMembers
  | .ctx c => s.ctxDisable c
  | .fdr f => s.fdrDisable f
  | .th c => s.thDisable c
  | .enc n => s.encDisable n
  | .pwm n => { s with pio := { s.pio with pwmAt := AMap.set 0 s.pio.pwmAt n 0 } }
  | .log => { s with log := { s.log with caps := [], running := none } }
  | .ring r => s.ringDisable r
  | .tid | .mem | .bst | .pio | .pwr | .grv | .dom _ | .tin _ | .po _ => s

/-- One ENABLE becomes 0: the bit first, then its effects. A check of it that runs is abandoned. -/
def State.clearOne (s : State) (e : En) : State :=
  ({ s.enSet e false with checking := s.checking.filter (· != e.key) }).disabled e

/-- The cascade (R75): every ENABLE one of whose needs has gone becomes 0 with 0x014. -/
def State.cascade (s : State) : State :=
  enAll.foldl (fun s e => if s.isOn e && !s.needsKept e then (s.clearOne e).enRefuse e 0x014 else s) s

/-- An ENABLE that reads 1 becomes 0, by software or by hardware (R67, R74, R75). -/
def State.enClear (s : State) (e : En) : State :=
  if s.isOn e then ((s.clearOne e).cascade).voidProof
  else { s with checking := s.checking.filter (· != e.key) }

/-! ## The rows -/

/-- The power domain of an ENABLE (R488). -/
def En.domain : En → Option Nat
  | .quay q => some q
  | .drf => some 6
  | _ => none

/-- A write of 1 to an ENABLE (R73). -/
def State.enStart (s : State) (e : En) : State :=
  if s.isOn e then s
  else if s.mode = SAFE ∧ e.inSafe = false then s.enRefuse e 0x010
  else if s.checking.contains e.key then s.enRefuse e 0x012
  else
    let s := match e.domain with | some d => s.wake d | none => s
    if s.needs e = false then (s.failNote e).enRefuse e 0x011
    else if s.memoryReady e = false then s.enRefuse e 0x013
    else
      let s := { s with checking := s.checking ++ [e.key] }
      match e with
      | .tout o => { s with tid := { s.tid with outAt := AMap.set 0 s.tid.outAt o s.tideNs } }
      | _ => s

/-- The end of a check: the tests of R73 hold to its end. -/
def State.enEnd (s : State) (e : En) : State :=
  let s := { s with checking := s.checking.filter (· != e.key) }
  if s.mode = SAFE ∧ e.inSafe = false then s.enRefuse e 0x010
  else if s.needs e = false then (s.failNote e).enRefuse e 0x011
  else if s.memoryReady e = false then s.enRefuse e 0x013
  else
    let v := s.enSet e true
    match v.checkOf e with
    | some code => (s.failNote e).enRefuse e code
    | none => ((v.enRefuse e 0).enabled e).voidProof

/-- Whether the domain of an ENABLE is powered. -/
def State.powered (s : State) (e : En) : Bool := match e.domain with | some d => !s.gated d | none => true

/-- ENABLE_SET (R73, R76): 1 is written to the ENABLE of the register at a window offset; a path's runs its admission
check. -/
def execEnableSet (off : BitVec 25) (s : State) : Out' :=
  .next (s.command fun s => match enAt off.toNat with
    | some e => s.enStart e
    | none => s)

/-- ENABLE_CHECK_END (R73): the check that runs on an ENABLE ends; with none running, or its domain still being woken,
nothing changes. -/
def execEnableCheckEnd (off : BitVec 25) (s : State) : Out' :=
  .next (match enAt off.toNat with
    | some e => if s.checking.contains e.key && s.powered e then s.enEnd e else s
    | none => s)

/-- ENABLE_CLEAR (R74, R75): 0 is written to an ENABLE. -/
def execEnableClear (off : BitVec 25) (s : State) : Out' :=
  .next (s.command fun s => match enAt off.toNat with
    | some e => s.enClear e
    | none => s)

end Sys2Proof.Machine
end

