-- ==== Sys2Proof/Machine/PrfRows.lean ====
section
/-! DEFINITION. Staging, PROOF, PULL and DISCARD (R60 to R72), and the scan start, which may be the application cycle of a
quay PULL (R69, R143). A PROOF sees the live values with the staged copies laid over them.
Readings and choices: DEDUCED log 21, 23. -/

namespace Sys2Proof.Machine

/-! ## Staging (R60 to R63) -/

/-- The PS fields of a register. -/
def Reg.ps (r : Reg) : List Fld := r.flds.filter (·.acc == .ps)

/-- Whether the register of an instance is staged. -/
def State.isStaged (s : State) (r : Reg) (d : Nat) : Bool := r.ps.any fun f => (AMap.find s.staged (f.key d)).isSome

/-- Put the PS fields of a value written to a register in its staged copy. -/
def State.stageFields (s : State) (r : Reg) (d v : Nat) : State :=
  { s with staged := r.ps.foldl (fun m f => AMap.ins m (f.key d) (bits v f.lo f.w)) s.staged }

/-- The PS fields of a write by a master (R60 to R63). -/
def State.psStage (s : State) (r : Reg) (d v master : Nat) : State :=
  if s.prf ≠ pIDLE ∧ s.g PRF_STATUS_OWNER ≠ master then s.hw PRF_STATUS_FOREIGN 0 1
  else if s.prf = pPROVING ∨ s.prf = pPROVEN ∨ s.prf = pARMED then s.hw PRF_STATUS_LOCKED_WRITE 0 1
  else
    let s := if s.prf = pIDLE then (s.setPrf pSTAGED).p PRF_STATUS_OWNER 0 master else s
    let n := s.g PRF_STAGED_COUNT
    if s.isStaged r d then s.stageFields r d v
    else if n < 8192 then (s.stageFields r d v).p PRF_STAGED_COUNT 0 (n + 1)
    else s.p PRF_STATUS_OVERFLOW 0 1

/-- The staging set is empty. -/
def State.unstage (s : State) : State :=
  (((({ s with staged := [] }.p PRF_STAGED_COUNT 0 0).p PRF_STATUS_OVERFLOW 0 0).p PRF_STATUS_OWNER 0 0).setPrf pIDLE).ringProofEnd

/-- Whether a staged field's register lies in a range of window offsets. -/
def State.stagedIn (s : State) (lo hi : Nat) : Bool := s.staged.any fun x => lo ≤ x.1 / 32 && x.1 / 32 < hi

/-! ## PROOF (R65, R66, R400) -/

/-- What a check of a PROOF finds: a code and the registers it may hold responsible, with the State in which the check
has noted what else it reports. -/
abbrev Proved := State × Option (Nat × List Nat)

/-- The range of a staged field: the field, whether a value lies outside it, the code, and whose ENABLE counts. -/
def psRanges : List (Fld × (Nat → Bool) × Nat × (Nat → En)) :=
  let ctx : Nat → En := fun d => .ctx (d / 0x100)
  let fdr : Nat → En := fun d => .fdr (d / 0x400)
  let ch : Nat → En := fun d => .fdr (d / 0x100 / 7)
  let th : Nat → En := fun d => .th (d / 0x100)
  let tly : Nat → En := fun _ => .tly
  let bcn : Nat → En := fun _ => .bcn
  let port : Nat → En := fun d => .port (d / 0x10000)
  let quay : Nat → En := fun d => .quay (d / 0x10000)
  let pair : Nat → En := fun _ => .pair
  [(BRN_TASK_PERIOD_VALUE, fun v => outside v 5 1000000, 0x103, quay), (BRN_TASK_PHASE_VALUE, fun v => decide (999999 < v), 0x103, quay),
   (GRV_GRP_OUT_PORT, fun v => !portRange 3 v, 0x201, fun d => .grp (d / 0x10)),
   (GRV_CTX_CFG_GROUP, fun v => decide (32 < v), 0x201, ctx), (GRV_CTX_CFG_FF_SIGN, fun v => v == 3, 0x201, ctx),
   (GRV_CTX_PERIOD_VALUE, fun v => outside v 40 10000000, 0x201, ctx),
   (GRV_CTX_PHASE_VALUE, fun v => decide (9999999 < v), 0x201, ctx),
   (GRV_CTX_SP_PORT, fun v => !portRange 0 v, 0x201, ctx), (GRV_CTX_MEAS_PORT, fun v => !portRange 1 v, 0x201, ctx),
   (GRV_CTX_FFPOS_PORT, fun v => !portRange 2 v, 0x201, ctx), (GRV_CTX_OUT_PORT, fun v => !portRange 3 v, 0x201, ctx)] ++
  [(BCN_CFG_FALLBACK_DEM, fun v => decide (1000 < v), 0x402, bcn), (BCN_CFG_EVAL_PERIOD_MS, fun v => outside v 100 60000, 0x402, bcn),
   (BCN_CFG2_REFRESH_S, fun v => v != 0 && decide (v < 60), 0x402, bcn),
   (BCN_TIMEOUT_LANT_SILENT_S, fun v => decide (v < 10), 0x402, bcn), (BCN_TIMEOUT_GW_SILENT_S, fun v => decide (v < 10), 0x402, bcn),
   (BCN_TEMP_AGE_TEMP_AGE_S, fun v => decide (v < 10), 0x402, bcn), (BCN_LDB_COUNT_COUNT, fun v => outside v 1 262144, 0x402, bcn),
   (BCN_SOLAR_LAT_LAT, fun v => decide (65000000 < (toSigned 32 v).natAbs), 0x402, bcn),
   (BCN_SOLAR_LON_LON, fun v => decide (180000000 < (toSigned 32 v).natAbs), 0x402, bcn),
   (BCN_SOLAR_CFG_UTC_OFF_MIN, fun v => decide (840 < (toSigned 12 v).natAbs), 0x402, bcn)] ++
  [(TLY_FDR_CFG_PHASE_MASK, fun v => v == 0, 0x501, fdr), (TLY_FDR_CFG_FREQ_PHASE, fun v => v == 3, 0x501, fdr), (TLY_FDR_UDIN_UDIN, fun v => !above0 v, 0x501, fdr),
   (TLY_FDR_PQ_THR_SWELL, fun v => decide (20000 < v), 0x501, fdr), (TLY_FDR_PQ_THR_SAG, fun v => decide (20000 < v), 0x501, fdr),
   (TLY_FDR_PQ_THR2_HYST, fun v => decide (20000 < v), 0x501, fdr), (TLY_FDR_PQ_THR2_INT, fun v => decide (20000 < v), 0x501, fdr),
   (TLY_FDR_LATCH_N, fun v => v == 0, 0x501, fdr), (TLY_CH_CFG_NPTS, fun v => outside v 1 16, 0x501, ch),
   (TLY_CH_CAL_D_DELAY, fun v => decide (65536 < (toSigned 32 v).natAbs), 0x501, ch),
   (TLY_CH_KFS_KFS, fun v => !above0 v, 0x501, ch), (TLY_CHG_CFG_NPTS, fun v => outside v 1 16, 0x501, tly),
   (TLY_TH_FLOW_PORT_PORT, fun v => !portRange 1 v, 0x501, th), (TLY_TH_TS_PORT_PORT, fun v => !portRange 1 v, 0x501, th),
   (TLY_TH_TR_PORT_PORT, fun v => !portRange 1 v, 0x501, th), (TLY_TH_FLOW_SCALE_SCALE, fun v => !above0 v, 0x501, th),
   (TLY_TH_FS_KW_KW, fun v => outside v 1 1000000, 0x501, th), (TLY_TH_LATCH_N, fun v => v == 0, 0x501, th),
   (TLY_TH_INTERVAL_S, fun v => outside v 1 36000, 0x501, th), (TLY_TAB_NPTS_NPTS, fun v => outside v 2 128, 0x501, tly)] ++
  [(NET_GCL_ADMIN_LEN_LEN, fun v => decide (256 < v), 0x610, port),
   (NET_GCL_ADMIN_CYCLE_CYCLE_NS, fun v => outside v 8 1000000000 || v % 8 != 0, 0x610, port),
   (NET_GCL_ADMIN_ENTRY_INTERVAL, fun v => v == 0, 0x610, port),
   (FBS_CTL_EXT_EXT_MAX_BITS, fun v => outside v 1 20000, 0x701, fun d => .can (d / 0x8000)),
   (PAIR_COPY_CFG_COPY_MAX_KB, fun v => outside v 1 64, 0xA01, pair), (PAIR_COPY_CFG_GRV_PERIOD_US, fun v => outside v 100 60000, 0xA01, pair),
   (PAIR_COPY_LOCK_STALE_MS, fun v => outside v 1 10000, 0xA01, pair), (PAIR_COPY_LOCK_QUOTA, fun v => v == 0, 0xA01, pair),
   (PAIR_COPY_LOCK_HOLD, fun v => outside v 4 256, 0xA01, pair)]

/-- A staged field with its instance. -/
def fieldOf (key : Nat) : Option (Fld × Nat) :=
  match findReg (key / 32) regTable with
  | some (r, d) => (r.flds.find? fun f => f.key d == key).map fun f => (f, d)
  | none => none

/-- The range check of the staged fields of disabled blocks (R65). -/
def State.rangeCheck (s : State) : Option (Nat × List Nat) :=
  s.staged.findSome? fun x =>
    match fieldOf x.1 with
    | some (f, d) =>
      match psRanges.find? fun e => e.1 == f with
      | some e => if !s.isOn (e.2.2.2 d) && e.2.1 x.2 then some (e.2.2.1, [x.1 / 32]) else none
      | none => none
    | none => none

/-- Whether a staged register bears on the timing contract's terms. -/
def bearsOnPaths (off : Nat) : Bool :=
  (0x200000 ≤ off && off < 0x260000) || (0x800000 ≤ off && off < 0x900000) || (0xA00000 ≤ off && off < 0xA80000) ||
    (0xD00000 ≤ off && off < 0xE80000)

/-- The admission check over every enabled path with the staged view (R28, R29, R65). -/
def State.proofPaths (s : State) (view : State) : Proved :=
  match (admView s view none).check none with
  | none => (s, none)
  | some (_, p) =>
    ((s.p SYS_CTR_CHECK_LAST_REFUSAL 0 0x04B).p SYS_CTR_CHECK_PATH 0 p,
      some (0x04B, (s.staged.map fun x => x.1 / 32).filter bearsOnPaths))

/-- The Locks' check (R400, R433): their own conditions, and the bounds that other blocks take from the Lock waits; a pass is one of
the Graver's bound too, which reports (R172). -/
def State.proofLocks (s : State) (view : State) : Proved :=
  match view.lckCheck with
  | some x => (s, some x)
  | none =>
    let regs := (s.staged.map fun x => x.1 / 32).filter fun o => 0xD00000 ≤ o && o < 0xE80000
    let a := s.proofPaths view
    if a.2.isSome then a
    else if s.on GRV_CTRL_ENABLE && !view.grvFits then (s, some (0x206, regs))
    else if s.on DRF_CTRL_ENABLE && decide (640 < view.drfLock) then (s, some (0x302, regs))
    else if s.on BCN_CTRL_ENABLE && decide (500000 * view.g BCN_CFG_EVAL_PERIOD_MS < view.tPass) then (s, some (0x404, regs))
    else ((if s.on GRV_CTRL_ENABLE then s.grvReportOf view else s), none)

/-- A register of a Tally channel is staged. -/
def State.chStaged (s : State) (ch : Nat) : Bool := s.stagedIn (0x703000 + dTch ch) (0x703100 + dTch ch)

/-- A register of a feeder or of one of its channels is staged. -/
def State.fdrStaged (s : State) (f : Nat) : Bool :=
  s.stagedIn (0x701000 + dFdr f) (0x701400 + dFdr f) || (List.range 7).any fun k => s.chStaged (7 * f + k)

/-- The staged fields of a feeder whose ENABLE is 0, over the view (R65): FREQ_PHASE within the mask, INT below SAG, and
R291's bound. -/
def State.fdrRange (s view : State) (f : Nat) : Chk :=
  let d := dFdr f
  let c := view.fdrCfg f
  if s.fdrOn f || !s.fdrStaged f then none
  else firstFail [
    (s.stagedIn (TLY_FDR_CFG_PHASE_MASK.off + d) (TLY_FDR_CFG_PHASE_MASK.off + d + 4) && c.phaseBad, 0x501,
      [TLY_FDR_CFG_PHASE_MASK.off + d]),
    (s.stagedIn (TLY_FDR_PQ_THR_SAG.off + d) (TLY_FDR_PQ_THR_SAG.off + d + 8) && decide (c.sag ≤ c.int), 0x501,
      [TLY_FDR_PQ_THR2_INT.off + d, TLY_FDR_PQ_THR_SAG.off + d]),
    (c.latchWraps, 0x503, (TLY_FDR_LATCH_N.off + d) :: (List.range 7).map fun k => chReg TLY_CH_KFS_KFS (7 * f + k))]

/-- The Tally's check of its enabled feeders and channels, and of the general channels that a staged field concerns. -/
def State.tlyProof (s : State) : Chk :=
  let gens := ((List.range 4).map (28 + ·)).filter s.chStaged
  ((((List.range 4).filter s.fdrOn).findSome? s.fdrCheck).orElse fun _ =>
    gens.findSome? s.genCheck).orElse fun _ => ((List.range 32).filter s.thOn).findSome? s.thCheck

/-- One block's check in a PROOF: whether it is enabled and has a staged register, and what it finds. -/
def State.proofBlock (s view : State) (e : En) (lo hi : Nat) (c : State → Chk) : Option (Nat × List Nat) :=
  if s.isOn e && s.stagedIn lo hi then
    if view.needs e then c view else some (0x011, [])
  else none

/-- The blocks' checks, by window offset (R65). -/
def State.proofBlocks (s view : State) : Proved :=
  let quays : List (Option (Nat × List Nat)) := (List.range 6).map fun q =>
    s.proofBlock view (.quay q) (0x200000 + dQuay q) (0x210000 + dQuay q) (·.quayCheck q)
  let ports : List (Option (Nat × List Nat)) := (List.range 5).map fun p =>
    s.proofBlock view (.port p) (0x800000 + dPort p) (0x810000 + dPort p) (·.netCheck p)
  let cans : List (Option (Nat × List Nat)) := (List.range 8).map fun n =>
    s.proofBlock view (.can n) (0xA00000 + dCan n) (0xA08000 + dCan n) (·.canCheck n)
  let grv : Option (Nat × List Nat) := s.proofBlock view .grv 0x400000 0x500000 (·.grvCheck)
  let s := if (quays.findSome? id).isNone && grv.isNone && s.on GRV_CTRL_ENABLE && s.stagedIn 0x400000 0x500000 then
      s.grvReportOf view else s
  let pure : Option (Nat × List Nat) → Proved := fun x => (s, x)
  let first : List (Option (Nat × List Nat)) := quays ++ [grv,
    s.proofBlock view .bcn 0x600000 0x700000 (·.bcnCheck), s.proofBlock view .tly 0x700000 0x800000 (·.tlyProof)] ++ ports
  let pairs : Proved → Proved := fun x =>
    if x.2.isSome then x else (x.1, s.proofBlock view .pair 0xE00000 0xE80000 (·.pairCheck))
  match first.findSome? id with
  | some x => pure (some x)
  | none =>
    let o := NET_CARGO_TABLE_BASE.off
    let cargo : Option (Nat × Option Nat) :=
      if s.on NET_CARGO_CTRL_ENABLE && s.stagedIn o (o + 8) then
        match view.cargoNeeds with | some n => some (0x011, n) | none => view.cargoCheck
      else none
    match cargo with
    | some (code, n) => (s.cargoFail n, some (code, [o]))
    | none =>
      match cans.findSome? id with
      | some x => pure (some x)
      | none => pairs (if s.stagedIn 0xD00000 0xE80000 then s.proofLocks view else pure none)

/-- The ports whose administrative list is staged. -/
def State.stagedLists (s : State) : List Nat :=
  (List.range 4).filter fun p => s.stagedIn (0x800200 + dPort p) (0x80021C + dPort p) ||
    s.stagedIn (0x801000 + dPort p) (0x801400 + dPort p)

/-- ALIGNED reports which case a check of a new list finds (R315). -/
def State.noteAligned (s view : State) : State :=
  s.stagedLists.foldl (fun s p =>
    s.p NET_GCL_STATUS_ALIGNED (dPort p) (bit (alignedChange (s.operList p) (view.adminList p)))) s

/-- The whole check. -/
def State.proofRun (s : State) : Proved :=
  let view := s.stagedView
  let s := s.noteAligned view
  let x := s.proofBlocks view
  if x.2.isSome then x
  else
    match x.1.rangeCheck.orElse fun _ => (List.range 4).findSome? (x.1.fdrRange view) with
    | some r => (x.1, some r)
    | none => x.1.proofPaths view

/-- The end of a PROOF (R66): PROVEN, or STAGED with the code and the first staged register that the check holds
responsible. -/
def State.proofEnd (s : State) : State :=
  let x := s.proofRun
  match x.2 with
  | none => (((x.1.setPrf pPROVEN).p PRF_STATUS_REFUSAL 0 0).busyNow).ringProofEnd
  | some (code, regs) =>
    let reg := regs.find? fun o => x.1.stagedIn o (o + 4)
    let s := ((x.1.setPrf pSTAGED).p PRF_STATUS_REFUSAL 0 code).busyNow
    ((s.p PRF_FAIL_ADDR_VALID 0 (bit reg.isSome)).p PRF_FAIL_ADDR_OFFSET 0 (reg.getD 0)).ringProofEnd

def State.prfRefuse (s : State) (code : Nat) : State := s.p PRF_STATUS_REFUSAL 0 code

/-- Whether a PRF command of a master is ignored (R62). -/
def State.prfForeign (s : State) (master : Nat) : Bool := s.prf != pIDLE && s.g PRF_STATUS_OWNER != master

/-- PRF_CMD PROOF: the code that refuses it, 0 where it is accepted (R65). -/
def State.proofCode (s : State) : Nat :=
  if s.prf = pIDLE then 0x001 else if s.prf = pPROVING then 0x002
  else if s.prf = pPROVEN ∨ s.prf = pARMED then 0x003 else if s.on PRF_STATUS_OVERFLOW then 0x004 else 0

def State.proofCmd (s : State) (master : Nat) : State :=
  if s.prfForeign master then s.hw PRF_STATUS_FOREIGN 0 1
  else if s.proofCode ≠ 0 then s.prfRefuse s.proofCode
  else (s.setPrf pPROVING).busyNow

/-- PROOF (R65): PRF_CMD written with OP 1 by a master. -/
def execProof (master : Fin 42) (s : State) : Out' := .next (s.command fun s => s.proofCmd master.val)

/-- PROOF_END (R66): the running proof completes. -/
def execProofEnd (s : State) : Out' := .next (if s.prf = pPROVING then s.proofEnd else s)

/-! ## PULL and DISCARD (R64, R68 to R72) -/

/-- The code that refuses a PULL, 0 where it is accepted (R68). -/
def State.pullCode (s : State) : Nat :=
  let q := s.g PRF_PULL_AT_QUAY
  let t := s.timeNs PRF_PULL_TIME_NS_NANOSECONDS
  if s.mode = SAFE then 0x009
  else if s.prf ≠ pPROVEN then 0x003
  else if s.on PRF_PULL_AT_BY_QUAY then
    if 5 < q ∨ s.on BRN_QUAY_CTRL_ENABLE (dQuay q) = false ∨ s.mode = PROVISION ∨
      s.on BRN_TASK_CFG_ON (dTask q (s.g PRF_PULL_AT_TASK)) = false then 0x007 else 0
  else if s.on TID_CTRL_ENABLE = false then 0x00C
  else if t < s.tideNs + 20000 then 0x005
  else if s.tideNs + 3600000000000 < t then 0x006
  else 0

/-- PRF_CMD PULL: an accepted one is armed for the instant that PRF_PULL_AT names then. -/
def State.pullCmd (s : State) (master : Nat) : State :=
  if s.prfForeign master then s.hw PRF_STATUS_FOREIGN 0 1
  else if s.pullCode ≠ 0 then s.prfRefuse s.pullCode
  else { s with pullAt := s.tide,
                pull := ⟨s.on PRF_PULL_AT_BY_QUAY, s.g PRF_PULL_AT_QUAY, s.g PRF_PULL_AT_TASK,
                  s.timeNs PRF_PULL_TIME_NS_NANOSECONDS⟩ }.setPrf pARMED

/-- PULL (R68): PRF_CMD written with OP 2 by a master. -/
def execPull (master : Fin 42) (s : State) : Out' := .next (s.command fun s => s.pullCmd master.val)

/-- The blocks take the new values up (R69, R155, R172, R246, R314, R334); `at_` is the application instant in ns. -/
def State.takeStaged (s before : State) (at_ : Nat) : State :=
  let s := if s.on NET_CARGO_CTRL_ENABLE && s.g NET_CARGO_TABLE_BASE != before.g NET_CARGO_TABLE_BASE then
      s.cargoTableChange else s
  let s := before.stagedLists.foldl (fun s p => s.listPulled p at_) s
  let s := (List.range 8).foldl (fun s n =>
    if s.on FBS_CTL_CTRL_ENABLE (dCan n) && before.stagedIn (FBS_CTL_NBT_NBRP.off + dCan n) (FBS_CTL_EXT_EXT_MAX_BITS.off + dCan n)
    then s.setCan n { s.canCtl n with newTiming := true } else s) s
  let s := if s.on GRV_CTRL_ENABLE && before.stagedIn 0x400000 0x500000 then s.grvMembers else s
  let s := if s.on BCN_CTRL_ENABLE && before.stagedIn 0x600000 0x700000 then s.bcnReport else s
  (admView s s none).writeWorst s

/-- The application cycle (R69): every staged copy becomes live. -/
def State.applySet (s : State) (at_ : Nat) : State :=
  let t := s.staged.foldl (fun s x => match fieldOf x.1 with | some (f, d) => s.p f d x.2 | none => s) s
  let t := ((t.takeStaged s at_).unstage).hw PRF_STATUS_APPLIED 0 1
  t.putTime PRF_APPLIED_TIME_NS_NANOSECONDS 0 s.tideNs

/-- Whether the armed set is to be applied at the scan start of a task. -/
def State.pullNames (s : State) (q t : Nat) : Bool :=
  s.prf == pARMED && s.pull.byQuay && s.pull.quay == q && s.pull.task == t && !s.reactsNow

/-- The application cycle of an armed Tide-time PULL has come: Tide time is at or after the named time (R69), and no reaction
fault goes first (R72). -/
def State.pullDue (s : State) : Bool :=
  s.prf == pARMED && !s.pull.byQuay && decide (s.pull.time ≤ s.tideNs) && !s.reactsNow

/-- The application instant of a Tide-time PULL in ns: the named time, which the first cycle at or after it follows by less
than a cycle; where Tide time has stepped past it, the cycle after the step (R71). -/
def State.pullInstant (s : State) : Nat := if s.tideNs < s.pull.time + 5 then s.pull.time else s.tideNs

/-- PULL_APPLY (R69): the application cycle has come: the named Tide time, or the start of the named task's scan, which
the scheduler is then about to start. -/
def execPullApply (s : State) : Out' :=
  let q := s.pull.quay
  let t := s.pull.task
  .next (if s.pullDue then s.applySet s.pullInstant
    else if s.pullNames q t && s.nextStart q (s.taskCore q t) == some t then s.applySet s.tideNs
    else s)

/-- PRF_CMD DISCARD (R62, R64): always taken from the host's masters. In the application cycle the application goes first,
and the DISCARD finds IDLE (R72). -/
def State.discardCmd (s : State) (master : Nat) : State :=
  if s.pullDue then s.applySet s.pullInstant
  else if s.prfForeign master && !(master == 24 || master == 25) then s.hw PRF_STATUS_FOREIGN 0 1
  else s.unstage.busyNow

/-- DISCARD (R64): PRF_CMD written with OP 3 by a master. -/
def execDiscard (master : Fin 42) (s : State) : Out' := .next (s.command fun s => s.discardCmd master.val)

/-- QUAY_PULL_TIMEOUT (R68): the named task has not started within twice its period plus 1 s of the PULL. -/
def execQuayPullTimeout (s : State) : Out' :=
  let p := s.g BRN_TASK_PERIOD_VALUE (dTask s.pull.quay s.pull.task)
  .next (if s.prf == pARMED && s.pull.byQuay && decide (s.pullAt + (20000 * p + 1000000000) * 65536 ≤ s.tide) then
      (s.setPrf pPROVEN).prfRefuse 0x00D
    else s)

/-! ## The scan start (R142, R143) -/

/-- SCAN_START (R143): the scheduler starts the task that is next on a core of a quay; a set armed for that scan is
applied first (R69). -/
def execScanStart (q : Fin 6) (core : Fin 4) (s : State) : Out' :=
  .next (match s.nextStart q core with
    | some t => (if s.pullNames q t then s.applySet s.tideNs else s).startScan q t
    | none => s)

end Sys2Proof.Machine
end

