-- ==== Sys2Proof/Machine/JoraSys.lean ====
section
/-! DEFINITION. Joraone system instructions and special registers (R111, R123 to R125, R136).
Readings and choices: DEDUCED log 4, 28; DESIGN CHOICE log 5. -/

namespace Sys2Proof.Machine

/-- NOP (R123). -/
def execJNop (c : Fin 24) (s : State) : Out' := .next (s.simple c 1 fun k => .ok (k, 0))

/-- WAIT (R123): idles until Mast offers the core a source. -/
def execJWait (c : Fin 24) (s : State) : Out' :=
  .next (if s.executes c then (s.fetchSeen c).setCore c { s.core c with run := .wait, entering := none } else s.unissued c)

/-- TRAP (R123): raises TRAP after the instruction, with its code. -/
def execJTrap (c : Fin 24) (imm : BitVec 8) (s : State) : Out' :=
  .next (if s.executes c then
    let k := s.core c
    let s := (s.fetchSeen c).setCore c { k with instret := k.instret + 1, pc := k.pc + 4 }
    let s := s.takeExc c ⟨xTRAP, none⟩ (k.pc + 4) imm.toNat
    s.setCore c (s.core c).boundary
  else s.unissued c)

/-- Whether BRN_CORE_DEBUG acts: in PROVISION, COMMISSION and FACTORY only (R136). -/
def State.debugActs (s : State) : Bool := s.mode = PROVISION || s.mode = COMMISSION || s.mode = FACTORY

/-- BREAK (R123, R136): raises BREAK; halts where debug is enabled and acts, with no fault. -/
def execJBreak (c : Fin 24) (s : State) : Out' :=
  .next (if s.executes c then
    let k := s.core c
    let k' := { k with instret := k.instret + 1, pc := k.pc + 4 }
    let s := s.fetchSeen c
    if s.debugActs ∧ s.on BRN_CORE_DEBUG_ENABLE (dCore c) then
      s.setCore c { k' with run := .halted, haltCause := 4, entering := none, stepping := false }
    else
      let s := (s.setCore c k').takeExc c ⟨xBREAK, none⟩ (k.pc + 4)
      s.setCore c (s.core c).boundary
  else s.unissued c)

/-- The XCAUSE register. -/
def Core.xcauseWord (k : Core) : Nat := bit k.ximp * 2 ^ 31 + k.xcode.toNat * 2 ^ 16 + k.xcause.toNat

/-- CYCLE: core cycles since the core left reset, none while it is in reset; the clock gives two in a fabric cycle. -/
def State.cycleOf (s : State) (c : Nat) : Nat :=
  let k := s.core c
  if k.run = .reset then 0 else (k.cyc + 2 * (s.fab - k.cycBase)) % 2 ^ 64

/-- A special register's value (R124); none for an unlisted number. -/
def State.sreg (s : State) (c n : Nat) : Option Nat :=
  let k := s.core c
  match n with
  | 0x00 => some (bit k.ba * 16 + bit k.z * 8 + bit k.n * 4 + bit k.c * 2 + bit k.v)
  | 0x01 => some k.sf.toNat
  | 0x02 => some k.te.toNat
  | 0x03 => some k.rl
  | 0x04 => some (bit k.ie)
  | 0x05 => some k.sp.toNat
  | 0x06 => some k.slimit.toNat
  | 0x07 => some k.vbase.toNat
  | 0x08 => some k.xcauseWord
  | 0x09 => some k.xpc.toNat
  | 0x0A => some k.xaddr.toNat
  | 0x0B => some (s.cycleOf c)
  | 0x0C => some k.nest
  | 0x0D => some c
  | 0x0E => some k.recvLeft.toNat
  | 0x0F => some k.instret.toNat
  | _ => none

/-- MFS (R123, R124). -/
def execJMfs (c : Fin 24) (w : Fin 16) (sreg : BitVec 8) (s : State) : Out' :=
  .next (s.simple c 1 fun k =>
    match s.sreg c sreg.toNat with
    | some v => .ok ({ k with w := k.w.set w (BitVec.ofNat 64 v) }, 0)
    | none => .error ⟨xILLEGAL, none⟩)

/-- A write of a special register in its writable fields, and the sticky flags it newly sets (R124, R125); a read-only
register takes nothing. -/
def Core.mts (k : Core) (n : Nat) (v : BitVec 64) : Core × BitVec 7 :=
  match n with
  | 0x00 => ({ k with ba := v.getLsbD 4, z := v.getLsbD 3, n := v.getLsbD 2, c := v.getLsbD 1, v := v.getLsbD 0 }, 0)
  | 0x01 => ({ k with sf := v.truncate 7 }, v.truncate 7 &&& ~~~k.sf)
  | 0x02 => ({ k with te := v.truncate 7 }, 0)
  | 0x04 => ({ k with ie := v.getLsbD 0 }, 0)
  | 0x05 => ({ k with sp := v.truncate 16 &&& 0xFFF8 }, 0)
  | 0x06 => ({ k with slimit := v.truncate 16 &&& 0xFFF8 }, 0)
  | 0x07 => ({ k with vbase := v.truncate 17 &&& 0x1C000 }, 0)
  | 0x0E => ({ k with recvLeft := v.truncate 32 }, 0)
  | _ => (k, 0)

/-- MTS (R123, R124). -/
def execJMts (c : Fin 24) (sreg : BitVec 8) (w : Fin 16) (s : State) : Out' :=
  .next (s.simple c 1 fun k =>
    if sreg.toNat < 0x10 then .ok (k.mts sreg.toNat (k.w.get w)) else .error ⟨xILLEGAL, none⟩)

/-- EI (R123). -/
def execJEi (c : Fin 24) (s : State) : Out' := .next (s.simple c 1 fun k => .ok ({ k with ie := true }, 0))

/-- DI (R123). -/
def execJDi (c : Fin 24) (s : State) : Out' := .next (s.simple c 1 fun k => .ok ({ k with ie := false }, 0))

/-- FENCE (R111): every earlier posted store has had its response, since a store completes with its command. -/
def execJFence (c : Fin 24) (s : State) : Out' := .next (s.simple c 1 fun k => .ok (k, 0))

/-- RDTIME (R123): the core's copy of Tide time, of an age the spec bounds by 22 ns and leaves open. -/
def execJRdtime (c : Fin 24) (w : Fin 16) (s : State) : Out' :=
  let x := s.draw
  .next (if s.executes c then
    x.2.simple c 1 fun k => .ok ({ k with w := k.w.set w (BitVec.ofNat 64 (s.tideNs - x.1 % 23)) }, 0)
  else s.unissued c)

/-- RDSCAN (R123): the stamp of R115. -/
def execJRdscan (c : Fin 24) (w : Fin 16) (s : State) : Out' :=
  .next (s.simple c 1 fun k => .ok ({ k with w := k.w.set w k.stamp }, 0))

/-- DEBUG_HALT_REQ (R136): halts the core at its next instruction boundary; a running core stands at one. -/
def State.debugHalt (s : State) (c : Nat) : State :=
  let k := s.core c
  if s.debugActs ∧ k.run ≠ .halted ∧ k.run ≠ .reset then s.setCore c { k with haltReq := true }.boundary else s

def State.debugResume (s : State) (c : Nat) : State :=
  if s.debugActs then s.setCore c (s.core c).resume else s

/-- DEBUG_HALT_REQ (R136). -/
def execDebugHaltReq (c : Fin 24) (s : State) : Out' := .next (s.command fun s => s.debugHalt c)

/-- DEBUG_RESUME (R136). -/
def execDebugResume (c : Fin 24) (s : State) : Out' := .next (s.command fun s => s.debugResume c)

end Sys2Proof.Machine
end

