-- ==== Sys2Proof/Machine/System.lean ====
section
/-! DEFINITION. Resets, power-up and the watchdog (R48 to R57), the function-level reset (R53, R459), CONTRACT_BREACH
(R33, R34). Readings and choices: DESIGN CHOICE log 9; DEDUCED log 25, 26. -/

namespace Sys2Proof.Machine

/-! ## Device reset (R50) -/

/-- The register fields that a device reset keeps: the cause register and the VBAT domain (R50, R354). -/
def keptFields : List (Fld × Nat) :=
  [SYS_RESET_CAUSE_LAST_MODE, SYS_RESET_CAUSE_FLR, SYS_RESET_CAUSE_QUAY, SYS_RESET_CAUSE_FROM_SAFE, SYS_RESET_CAUSE_WDT,
    SYS_RESET_CAUSE_HOST, SYS_RESET_CAUSE_PIN, SYS_RESET_CAUSE_POR, ALM_STATUS_OSF, ALM_NOW_SUB_OSF, ALM_NOW_SUB_WEEKDAY,
    ALM_NOW_SUB_SUB, ALM_NOW_TIME_HOUR, ALM_NOW_TIME_MINUTE, ALM_NOW_TIME_SECOND, ALM_NOW_DATE_YEAR, ALM_NOW_DATE_MONTH,
    ALM_NOW_DATE_DAY, ALM_TAI_OFFSET_OFFSET].map (·, 0) ++
  (alarmFields.map (·, dAlarm 0) ++ alarmFields.map (·, dAlarm 1))

def keptKeys : List Nat := keptFields.map fun x => x.1.key x.2

/-- The memories that a device reset keeps: MRAM, and what lies outside the device. -/
def keptMem (k : Nat) : Bool := (mramBase ≤ k && k < mramEnd) || Space.flash.base ≤ k

/-- What the Logbook keeps in MRAM: its stores, counters and the last clear; queued records are lost (R436, R444). -/
def LogSt.kept (x : LogSt) : LogSt :=
  { fixed := x.fixed, seq := x.seq, snaps := x.snaps, snapSeq := x.snapSeq, clearCnt := x.clearCnt, opSec := x.opSec,
    pcyc := x.pcyc, counted := x.counted, lastClear := x.lastClear }

/-- The bytes of a quay's instruction and data SRAMs are partly those of another memory: which of them is open (R166). -/
def State.mixPrograms (s : State) (q : Nat) (other : List Host.Cell) : State :=
  let own : Nat → Bool := fun k => (List.range 4).any fun i =>
    let c := 4 * q + i
    (instrKey c 0 ≤ k && k < instrKey (c + 1) 0) || (dataKey c 0 ≤ k && k < dataKey (c + 1) 0)
  ((s.mem ++ other).map (·.1)).foldl (fun s k =>
    if own k then
      let x := s.draw
      if x.1 % 2 = 1 then x.2.wb k (AMap.get memUnlisted other k) else x.2
    else s) s

/-- A quay whose program exchange a reset cuts is partly written (R166). -/
def State.cutXchg (s : State) (q : Nat) : Bool := (s.quay q).xchg.partly || s.xState q == xHOLD

/-- DEVICE_RESET (R50): everything returns to its reset value but the cause register, the Almanac, what MRAM holds, and
what lies outside: the flash, host memory, the pins and the commands that wait. -/
def State.deviceReset (s : State) (phase : Phase) : State :=
  let t : State :=
    { pending := s.pending, regs := s.regs.filter fun x => keptKeys.contains x.1, mem := s.mem.filter fun x => keptMem x.1,
      resp := s.resp, outbox := s.outbox, phase := phase, resetN := s.resetN, debugEn := s.debugEn,
      supplies := s.supplies, vbat := s.vbat, freeCnt := s.freeCnt, log := s.log.kept,
      bst := { prod := s.bst.prod, test := s.bst.test, draws := s.bst.draws }, alm := { s.alm with cmd := none },
      bootCtr := s.bootCtr, eccOne := s.eccOne.filter keptMem,
      eccBad := s.eccBad.filter fun x => match x with | .word k => keptMem k | _ => false }
  (List.range 6).foldl (fun t q =>
    if s.cutXchg q then t.setQuay q { t.quay q with xchg := { partly := true } } else t) t

/-- The phase a reset leaves: held while RESET_N is low. -/
def State.afterReset (s : State) : Phase := if s.resetN then .released else .held

/-- The watchdog's period has passed since it began (R54). -/
def State.wdtDue (s : State) : Bool :=
  s.on SYS_WDT_CTRL_ENABLE && decide (s.wdtAt + s.g SYS_WDT_CTRL_PERIOD_MS * 1000 * usCycles ≤ s.fab)

/-- A device reset other than power-on records its cause, the mode it met and whether it left SAFE; of sources that act in
one fabric cycle the second meets no mode, and an expiry due in that cycle is recorded too (R48, R54, R55). -/
def State.resetBy (s : State) (cause : Fld) (phase : Phase) : State :=
  let old := s.mode
  let t := (s.deviceReset phase).hw cause 0 1
  let t := if s.wdtDue then t.hw SYS_RESET_CAUSE_WDT 0 1 else t
  let t := if old = SAFE then t.hw SYS_RESET_CAUSE_FROM_SAFE 0 1 else t
  if old = PROVISION ∧ s.fab = 0 then t else t.p SYS_RESET_CAUSE_LAST_MODE 0 old

/-- A power-on reset clears every other field of the cause register; the power cycle is still to be counted (R434). -/
def State.powerOnReset (s : State) (phase : Phase) : State :=
  let t := s.deviceReset phase
  let t := [SYS_RESET_CAUSE_LAST_MODE, SYS_RESET_CAUSE_FLR, SYS_RESET_CAUSE_QUAY, SYS_RESET_CAUSE_FROM_SAFE,
    SYS_RESET_CAUSE_WDT, SYS_RESET_CAUSE_HOST, SYS_RESET_CAUSE_PIN].foldl (fun t f => t.p f 0 0) t
  { t with log := { t.log with counted := false } }.hw SYS_RESET_CAUSE_POR 0 1

/-- POWER_ON (R48): the supplies enter their ranges; DEBUG_EN is sampled; the Almanac is reset where VBAT was absent. -/
def execPowerOn (debugEn vbatAbsent : Bool) (s : State) : Out' :=
  let t := { s with supplies := true, debugEn := debugEn }
  let t := t.powerOnReset t.afterReset
  .next (if vbatAbsent then t.vbatFirst else t)

/-- SUPPLY_UNDERVOLTAGE (R482): a monitored supply is below its threshold for 1 µs: a power-on reset, in which the device
stays until every supply is in range. -/
def execSupplyUndervoltage (s : State) : Out' :=
  .next ({ s with supplies := false }.powerOnReset .off)

/-- RESET_N_ASSERT (R49): low for 1 µs: a device reset, held while low. -/
def execResetNAssert (s : State) : Out' :=
  .next ({ s with resetN := false }.resetBy SYS_RESET_CAUSE_PIN (if s.supplies then .held else .off))

/-- RESET_N_RELEASE (R56, R491): high after its filter: t0, from the reset state; DEBUG_EN is sampled. -/
def execResetNRelease (debugEn : Bool) (s : State) : Out' :=
  .next (let s := { s with resetN := true }
    if s.phase = .held then { s.deviceReset .released with debugEn := debugEn } else s)

/-- PLL_LOCK (R56): the clocks start. -/
def execPllLock (s : State) : Out' := .next (if s.phase = .released then { s with phase := .clocks } else s)

/-- FUSE_READ (R56): SYS_ID, UID and TEST_ROOT are valid, the boot ROM starts; TEST_ROOT is debug's where the fuse allows
it (R454, R491); the random generator has started (R453). -/
def execFuseRead (s : State) : Out' :=
  .next (if s.phase = .clocks then
    ({ s with phase := .fuses }.p BST_STATUS_TEST_ROOT 0 (bit (s.debugEn && !Config.debugLock))).p BST_STATUS_DRBG_OK 0 1
  else s)

/-- SYS_RESET_CAUSE as a word. -/
def State.causeWord (s : State) : Nat :=
  s.g SYS_RESET_CAUSE_LAST_MODE * 2 ^ 20 + s.g SYS_RESET_CAUSE_FLR * 2 ^ 16 + s.g SYS_RESET_CAUSE_QUAY * 2 ^ 8 +
    s.g SYS_RESET_CAUSE_FROM_SAFE * 16 + s.g SYS_RESET_CAUSE_WDT * 8 + s.g SYS_RESET_CAUSE_HOST * 4 +
    s.g SYS_RESET_CAUSE_PIN * 2 + s.g SYS_RESET_CAUSE_POR

/-- MRAM_READY (R56): after a power-on the power cycle counts (R434); the Tally's totals load (R294); the last clear reads
again (R444); the reset is recorded, and a test root (R437). -/
def execMramReady (s : State) : Out' :=
  .next (if s.phase = .fuses then
    let s := { s with phase := .mram, log := { s.log with opAt := s.fab } }
    let s := if s.log.counted then s
      else { s with log := { s.log with counted := true, pcyc := (s.log.pcyc + 1) % 2 ^ 32 } }
    let s := (List.range 8).foldl (fun s k => s.p LOG_LAST_CLEAR_WORD (4 * k) (s.log.lastClear.getD k 0)) s.tlyLoad
    let s := s.logFixed 0x0001 0xFF s.causeWord 0 0 0
    if s.on BST_STATUS_TEST_ROOT then s.logFixed 0x0008 0xFF 0 0 0 0 else s
  else s)

/-- SRAM_CLEAR_END (R56): shared SRAM reads 0; the boot image is being read. -/
def execSramClearEnd (s : State) : Out' :=
  .next (if s.phase = .mram then
    { s with phase := .sram, mem := s.mem.filter fun x => !(sramBase ≤ x.1 && x.1 < sramEnd) }.p SYS_BOOT_STATUS_STATE 0 1
  else s)

/-- The header of the boot image in the flash (R471). -/
def State.bootHeader (s : State) : List Byte := s.rbs (flashKey 0) 256

/-- What the fitted flash answers to (R470): the modes 1S-1S-1S, 8S-8S-8S and 8D-8D-8D, and the highest clock in MHz. -/
structure FlashPart where
  s1  : Bool
  s8  : Bool
  d8  : Bool
  mhz : Nat

def FlashPart.answers (x : FlashPart) (mode mhz : Nat) : Bool :=
  (if mode = 0 then x.s1 else if mode = 1 then x.s8 else x.d8) && mhz ≤ x.mhz

/-- What is wrong with the boot image in the flash (R57, R470, R471): 1 no answer, to the read of the header in 1S-1S-1S at
25 MHz or to that of the image in the header's mode and clock; 2 its header; 3 the hash of its key; 4 its signature over
bytes 0 to 127 and the image; 5 its counter; 0 nothing. -/
def State.bootFail (s : State) (x : FlashPart) : Nat :=
  let hdr := s.bootHeader
  let f : Nat → Nat → Nat := fun o n => leNat ((hdr.drop o).take n)
  let key := (hdr.drop 32).take 96
  if !x.answers 0 25 then 1
  else if ¬ (f 0 4 = 0x42495659 ∧ f 4 1 ≤ 2 ∧ 25 ≤ f 5 1 ∧ f 5 1 ≤ 200 ∧ f 6 2 = 0 ∧ 4 ≤ f 8 4 ∧
      f 8 4 ≤ 8388608 ∧ f 24 8 = 0 ∧ f 224 32 = 0) then 2
  else if !x.answers (f 4 1) (f 5 1) then 1
  else if sha384 key ≠ Config.bootKey then 3
  else if !ecdsaVerify 1 key (sha384 (hdr.take 128 ++ s.rbs (flashKey 256) (f 8 4))) ((hdr.drop 128).take 96) then 4
  else if f 12 4 < s.bootCtr then 5 else 0

/-- BOOT_END (R56, R57, R471): the image has been read from the flash, hashed and its signature checked; the operands say what
the flash answers to. A pass raises the boot counter, presents the header's PCI identifiers (R460) and drives ALIVE outside
SAFE (R428). -/
def execBootEnd (s1 s8 d8 : Bool) (mhz : BitVec 8) (s : State) : Out' :=
  .next (if s.phase = .sram then
    let code := s.bootFail ⟨s1, s8, d8, mhz.toNat⟩
    let f : Nat → Nat → Nat := fun o n => leNat ((s.bootHeader.drop o).take n)
    if code = 0 then
      { s with phase := .booted, bootCtr := max s.bootCtr (f 12 4), pciIds := some (f 16 8),
               pair := { s.pair with alive := if s.mode = SAFE then none else some false, aliveAt := s.fab } }.p SYS_BOOT_STATUS_STATE 0 bDONE
    else
      (({ s with phase := .bootFailed }.p SYS_BOOT_STATUS_STATE 0 bFAILED).p SYS_BOOT_STATUS_FAIL 0 code).logFixed
        0x0007 0xFF code 0 0 0
  else s)

/-! ## Host resets (R48, R52) -/

def mRESET : Nat := 0x5253

/-- A quay's program exchange is cut by its reset (R166): a hold leaves it partly written; an APPLY that waits goes back to
LOADED. -/
def State.xchgReset (s : State) (q : Nat) : State :=
  let k := s.quay q
  if s.xState q = xHOLD then
    ((s.mixPrograms q (s.settle q).mem).setQuay q { k with xchg := { k.xchg with partly := true } }).setXState q xIDLE
  else if s.xState q = xWAITING then s.setXState q xLOADED
  else s

/-- A per-quay reset (R52): cores, scheduler and Mast targets; ENABLE; the channels into the cores; their epochs; the
generation that makes every instance new (R114). It voids a proof where it changes the quay's ENABLE, and not where that
reads 0 already: DEDUCED from R67, which R72 names; log 21. -/
def State.quayReset (s : State) (q : Nat) : State :=
  let cores := [4 * q, 4 * q + 1, 4 * q + 2, 4 * q + 3]
  let was := s.on BRN_QUAY_CTRL_ENABLE (dQuay q)
  let s := (s.mastQuayReset q).xchgReset q
  let s := (s.enSet (.quay q) false).stopQuay q
  let s := { s with checking := s.checking.filter (· != (En.quay q).key) }
  let s := cores.foldl (fun s c => (s.setCore c {}).bumpEpoch c) s
  let s := (s.resetReceivers cores).setQuay q { s.quay q with cmdAt := none, forced := false, halted := false }
  let g := s.g BRN_QUAY_GEN_GEN (dQuay q)
  let s := s.p BRN_QUAY_GEN_GEN (dQuay q) (if g = 0xFFFFFF then 1 else g + 1)
  let s := (s.hw SYS_RESET_CAUSE_QUAY 0 (2 ^ q)).transitCheck
  if was then s.voidProof else s

/-- A write of SYS_RESET_CMD (R48): CONFIRM other than 0x5253, and quays 6 and 7, have no effect. -/
def State.resetCmd (s : State) (confirm : Nat) (scope : Bool) (q : Nat) : State :=
  if confirm ≠ mRESET then s
  else if scope then (if q < 6 then s.quayReset q else s)
  else s.resetBy SYS_RESET_CAUSE_HOST s.afterReset

/-- HOST_RESET (R48): SYS_RESET_CMD written with SCOPE 0. -/
def execHostReset (confirm : BitVec 16) (s : State) : Out' := .next (s.command fun s => s.resetCmd confirm.toNat false 0)

/-- QUAY_RESET (R52): SYS_RESET_CMD written with SCOPE 1. -/
def execQuayReset (confirm : BitVec 16) (q : Fin 8) (s : State) : Out' :=
  .next (s.command fun s => s.resetCmd confirm.toNat true q.val)

/-! ## Watchdog (R54) -/

/-- WATCHDOG_EXPIRY (R54): the period has passed since it began. -/
def execWatchdogExpiry (s : State) : Out' :=
  .next (if s.wdtDue then s.resetBy SYS_RESET_CAUSE_WDT s.afterReset else s)

/-- A write of SYS_WDT_KICK: 0x5A as the next write after 0xA5 restarts the period. -/
def State.kick (s : State) (key : Nat) : State :=
  if s.wdtKey = 0xA5 ∧ key = 0x5A then { s with wdtKey := key, wdtAt := s.fab } else { s with wdtKey := key }

/-- WDT_KICK (R54). -/
def execWdtKick (key : BitVec 8) (s : State) : Out' := .next (s.command fun s => s.kick key.toNat)

/-! ## Function-level reset (R53, R459, R464) -/

/-- The fields of the command rings, and of the MSI-X table. -/
def ringFields : List Fld :=
  [HST_RING_CFG_ENABLE, HST_RING_CFG_REFUSAL, HST_RING_CFG_LOG2_SIZE, HST_RING_CFG_PATH, HST_RING_SQ_BASE_BASE,
   HST_RING_CQ_BASE_BASE, HST_RING_SQ_TAIL_INDEX, HST_RING_SQ_HEAD_INDEX, HST_RING_CQ_TAIL_INDEX, HST_RING_CQ_HEAD_INDEX,
   HST_RING_IRQ_VECTOR]
def msixFields : List Fld := [HST_MSIX_ADDR_LO_ADDR, HST_MSIX_ADDR_HI_ADDR, HST_MSIX_DATA_DATA, HST_MSIX_CTRL_MASKED]

/-- Return fields of instances to their reset values. -/
def State.clrAll (s : State) (fs : List Fld) (n stride : Nat) : State :=
  (List.range n).foldl (fun s i => fs.foldl (fun s f => s.clr f (stride * i)) s) s

/-- The function-level reset: HST ENABLE, rings, MSI-X, the BARs and BAR4's window; participant 24's epoch and the channels
into it; the host's paths are a lost medium. It voids a proof where it changes an ENABLE bit, and not where HST and the
rings are disabled already: DEDUCED from R67, which R72 names; log 21. -/
def State.flr (s : State) : State :=
  let rings := (List.range 16).map En.ring
  let was := s.isOn .hst || rings.any s.isOn
  let s := (s.enSet .hst false).hostLose
  let s := { s with checking := s.checking.filter fun k => k != En.hst.key && !(rings.map En.key).contains k,
                    rings := [], ringProof := none, msixMask := false, bars := [] }
  let s := (s.clrAll ringFields 16 0x40).clrAll msixFields 64 16
  let s := ((s.p HST_MSIX_PBA_PEND 0 0).p HST_MSIX_PBA_PEND 4 0).p HST_WIN_BASE_ADDR 0 0
  let s := (s.bumpEpoch 24).resetReceivers [24]
  let s := s.hw SYS_RESET_CAUSE_FLR 0 1
  if was then s.voidProof else s

/-- PCIE_FLR (R53). -/
def execPcieFlr (s : State) : Out' := .next s.flr

/-- PCIE_PERST (R459): PCIE_PERST_N asserted acts as a function-level reset; the link is down until it trains again. -/
def execPciePerst (s : State) : Out' :=
  .next ((((s.p HST_STATUS_LINK 0 0).p HST_STATUS_GEN 0 0).p HST_STATUS_WIDTH 0 0).flr)

/-! ## CONTRACT_BREACH (R33, R34) -/

/-- An item is discarded by what holds it. -/
def State.discard (s : State) (id : Nat) : State :=
  let s := { s with
    ports := s.ports.map fun (x : Nat × NetPort) => (x.1, { x.2 with queue := x.2.queue.filter fun f => f.item != some id })
    can := s.can.map fun (x : Nat × CanCtl) => (x.1, { x.2 with items := x.2.items.filter fun i => i.item != id })
    ringProof := s.ringProof.filter fun r => !((s.ring r).cmds.head?.any fun (x : RingCmd) => x.item == some id),
    rings := s.rings.map fun (x : Nat × HostRing) => (x.1, { x.2 with cmds := x.2.cmds.filter fun r => r.item != some id }) }
  let job := (List.range 64).find? fun n => match s.drfJob n with | some j => j.item == id | none => false
  let s := match job with
    | some n =>
      let s := match s.drf.run with | some r => if r.slot = n then s.setRun none else s | none => s
      ({ s with drf := { s.drf with posts := s.drf.posts.filter fun x => x.slot != n } }.setJob n none).drfStatus
    | none => s
  s.itemGone id

/-- CONTRACT_BREACH (R33): the deadline of an accepted item has passed before its delivery: a SYS fault, the item
discarded, the first breach recorded. -/
def execContractBreach (item : Nat) (s : State) : Out' :=
  .next (match s.adm.items.find? (·.id == item) with
    | some x =>
      if x.deadline < s.tide then
        let s := if s.on SYS_BREACH_PATH_VALID then s
          else
            let ns := x.deadline / 65536
            (((s.p SYS_BREACH_PATH_VALID 0 1).p SYS_BREACH_PATH_PATH 0 x.path).p SYS_BREACH_SEC_SECONDS 0
              (ns / 1000000000)).p SYS_BREACH_NS_NANOSECONDS 0 (ns % 1000000000)
        (s.raise .sys SYS_CONTRACT_BREACH none x.path).discard item
      else s
    | none => s)

end Sys2Proof.Machine
end

