-- ==== Sys2Proof/Machine/RegRead.lean ====
section
/-! DEFINITION. Reads of registers (R5 to R9): what a read returns, the registers that show state held elsewhere, the reads
that act, and the capture of wide values (R8). Readings and choices: DEDUCED log 16, 49. -/

namespace Sys2Proof.Machine

/-! ## Registers that show other state -/

/-- The core of a displacement of BRN_CORE registers. -/
def coreOfDisp (d : Nat) : Nat := d / 0x10000 * 4 + d % 0x10000 / 0x100

/-- BRN_CORE_STATUS.STATE. -/
def RunSt.code : RunSt → Nat
  | .reset => 0 | .running => 1 | .wait => 2 | .recv => 3 | .halted => 4 | .idle => 5

/-- BRN_CORE_STATUS and BRN_CORE_XCAUSE of a core. -/
def State.viewCoreStatus (s : State) (d : Nat) : State :=
  let k := s.core (coreOfDisp d)
  (((s.p BRN_CORE_STATUS_HALT_CAUSE d k.haltCause).p BRN_CORE_STATUS_NEST d k.nest).p BRN_CORE_STATUS_RL d k.rl).p
    BRN_CORE_STATUS_STATE d k.run.code
def State.viewXcause (s : State) (d : Nat) : State :=
  let k := s.core (coreOfDisp d)
  (((s.p BRN_CORE_XCAUSE_IMPRECISE d (bit k.ximp)).p BRN_CORE_XCAUSE_CODE d k.xcode.toNat).p BRN_CORE_XCAUSE_COUNT d
    k.xcount).p BRN_CORE_XCAUSE_CAUSE d k.xcause.toNat

/-- A number with bit `i` set for each of the first `n` for which `f` holds. -/
def bitsOf (n : Nat) (f : Nat → Bool) : Nat := ((List.range n).map fun i => if f i then 2 ^ i else 0).sum

/-- BRN_QUAY_STATUS. -/
def State.viewQuayStatus (s : State) (d : Nat) : State :=
  let q := d / 0x10000
  let k := s.quay q
  let inScan : Nat → Bool := fun t => (k.task t).phase != .idle
  ((((s.p BRN_QUAY_STATUS_BOUNDARY d (bit (s.on BRN_QUAY_CTRL_ENABLE (dQuay q) && s.atBoundary q))).p BRN_QUAY_STATUS_HOLD d
    (bit (k.forced || s.xState q == xHOLD))).p BRN_QUAY_STATUS_STARTUP d (bit (inScan 24))).p BRN_QUAY_STATUS_IN_SCAN d
    (bitsOf 8 inScan)).p BRN_QUAY_STATUS_PENDING d (bitsOf 8 fun t => (k.task t).pend)

/-- TID_TIME (R317): nanoseconds, seconds, and the fraction of a nanosecond in 2⁻¹⁶ ns. -/
def State.viewTime (s : State) (_ : Nat) : State :=
  (s.putTime TID_TIME_NS_NANOSECONDS 0 s.tideNs).p TID_TIME_HI_FRACTION 0 (s.tide % 65536)

/-- MST_CORE_STATE. -/
def State.viewMstCore (s : State) (d : Nat) : State :=
  let k := s.core (d / 0x10)
  let s := match k.held with
    | some h => (s.p MST_CORE_STATE_HELD d 1).p MST_CORE_STATE_VECTOR d h.vec
    | none => s
  (s.p MST_CORE_STATE_RL d k.rl).p MST_CORE_STATE_BASE d k.base

/-- LCK_REQ of slot 19 reads back what PAIR gives (R397). -/
def State.viewLckReq (s : State) (d : Nat) : State :=
  if d % 0x1000 = 4 * 19 then
    (s.p LCK_REQ_QUOTA d (s.g PAIR_COPY_LOCK_QUOTA)).p LCK_REQ_HOLD d (s.g PAIR_COPY_LOCK_HOLD)
  else s

/-- A key slot's and a session entry's registers (R445). -/
def State.viewSlot (s : State) (d : Nat) : State :=
  let x := s.slot (d / 8)
  ((((s.p BST_SLOT_INFO_STATE d x.state).p BST_SLOT_INFO_DEPTH d x.depth).p BST_SLOT_INFO_PARENT d x.parent).p
    BST_SLOT_INFO_KIND d x.kind).p BST_SLOT_CTR_COUNTER d x.ctr
def State.viewSess (s : State) (d : Nat) : State :=
  let x := AMap.get ({} : SessEntry) s.bank.sess (d / 8)
  (s.p BST_SESS_INFO_INSTALLED d (bit x.k0.isSome + 2 * bit x.k1.isSome)).p BST_SESS_CTR_COUNTER d x.ctr

/-- The registers that show state held elsewhere, by offset of the first instance: the State in which their fields hold
what a read of the instance returns. -/
def regViews : List (Nat × (Nat → State → State)) :=
  [(BRN_CORE_STATUS_STATE.off, fun d s => s.viewCoreStatus d),
   (BRN_CORE_PC_PC.off, fun d s => s.p BRN_CORE_PC_PC d ((s.core (coreOfDisp d)).pc.toNat / 4)),
   (BRN_CORE_XCAUSE_CAUSE.off, fun d s => s.viewXcause d),
   (BRN_CORE_CYCLE_COUNT.off, fun d s => s.p BRN_CORE_CYCLE_COUNT d (s.cycleOf (coreOfDisp d))),
   (BRN_CORE_INSTRET_COUNT.off, fun d s => s.p BRN_CORE_INSTRET_COUNT d (s.core (coreOfDisp d)).instret.toNat),
   (BRN_QUAY_STATUS_BOUNDARY.off, fun d s => s.viewQuayStatus d),
   (TID_TIME_NS_NANOSECONDS.off, fun d s => s.viewTime d), (TID_TIME_LO_SECONDS_LO.off, fun d s => s.viewTime d),
   (TID_TIME_HI_SECONDS_HI.off, fun d s => s.viewTime d),
   (TID_SLEW_LEFT_NS.off, fun _ s => s.p TID_SLEW_LEFT_NS 0 (ofSigned 32 s.slewLeft)),
   (BTH_FULL_FULL.off, fun d s => s.p BTH_FULL_FULL d (bitsOf 32 fun a => (s.chan a (d / 4)).isSome)),
   (BTH_EPOCH_EPOCHS.off, fun d s =>
     s.p BTH_EPOCH_EPOCHS d ((List.range 8).map fun j => s.epoch (2 * d + j) * 16 ^ j).sum)] ++
  [(MST_CORE_STATE_BASE.off, fun d s => s.viewMstCore d),
   (MST_SRC_CFG_EDGE.off, fun d s => s.p MST_SRC_CFG_EDGE d (bit (srcEdge (d / 0x10)))),
   (MST_SRC_STATE_PEND.off, fun d s => s.p MST_SRC_STATE_PEND d (bit (s.srcPending (d / 0x10)))),
   (LCK_REQ_HOLD.off, fun d s => s.viewLckReq d),
   (PAIR_STATUS_FIT.off, fun _ s => s.p PAIR_STATUS_FIT 0 (bit s.fit)),
   (PAIR_STREAM_STATUS_ENABLED.off, fun d s => s.p PAIR_STREAM_STATUS_ENABLED d (bit (s.streamOn (d / 0x10)))),
   (PIO_DOUT_DOUT.off, fun _ s => s.p PIO_DOUT_DOUT 0 s.doutWord),
   (FBS_CTL_STATUS_RESTRICTED.off, fun d s => s.p FBS_CTL_STATUS_RESTRICTED d (bit (s.canRestricted (d / 0x8000)))),
   (HST_FUSE_ID_VENDOR.off, fun _ s =>
     (s.p HST_FUSE_ID_VENDOR 0 (Config.fuseId / 65536)).p HST_FUSE_ID_DEVICE 0 Config.fuseId),
   (LOG_COUNTS_FX_COUNT.off, fun _ s =>
     (s.p LOG_COUNTS_FX_COUNT 0 s.log.fixed.length).p LOG_COUNTS_SNAP_COUNT 0 s.log.snaps.length),
   (LOG_OPHOURS_OP_SECONDS.off, fun _ s => s.p LOG_OPHOURS_OP_SECONDS 0 s.log.opSec),
   (LOG_PCYCLES_POWER_CYCLES.off, fun _ s => s.p LOG_PCYCLES_POWER_CYCLES 0 s.log.pcyc),
   (BST_UID_UID.off, fun d s => s.p BST_UID_UID d (Config.uid / 2 ^ (8 * d))),
   (BST_SLOT_INFO_STATE.off, fun d s => s.viewSlot d), (BST_SLOT_CTR_COUNTER.off, fun d s => s.viewSlot d),
   (BST_SESS_INFO_INSTALLED.off, fun d s => s.viewSess d), (BST_SESS_CTR_COUNTER.off, fun d s => s.viewSess d),
   (BST_UNLOCK_CTR_COUNTER.off, fun _ s => s.p BST_UNLOCK_CTR_COUNTER 0 s.bank.unlock)]

/-! ## What a read returns (R9) -/

/-- A field as read: 0 where write-only, the staged copy where proof-staged (R60). -/
def State.fldRead (s : State) (f : Fld) (d : Nat) : Nat :=
  match f.acc with
  | .wo => 0
  | .ps => AMap.get (s.g f d) s.staged (f.key d)
  | .rw | .ro | .w1c | .w1s => s.g f d

/-- A register as it stands. -/
def State.regValue (s : State) (r : Reg) (d : Nat) : Nat :=
  let t := match AMap.find regViews r.off with
    | some v => v d s
    | none => s
  (r.flds.map fun f => t.fldRead f d * 2 ^ f.lo).sum

/-! ## Reads that act -/

/-- A read of SYS_ID by master 24 or 25 sets ID_SEEN (R58). -/
def State.idRead (s : State) (master : Nat) : State :=
  if master = 24 ∨ master = 25 then s.p SYS_MODE_ID_SEEN 0 1 else s

/-- The read's own value where the read makes it. -/
def readOwn (x : State) : Option Nat × State := (some x.resp.val, x)
def readPair (x : Nat × State) : Option Nat × State := (some x.1, x.2)

/-- The reads that act, by offset of the first instance: the value where the read makes it, and the State after. -/
def readHooks : List (Nat × (Nat → Nat → State → Option Nat × State)) :=
  [(SYS_ID_PART.off, fun m _ s => (none, s.idRead m)),
   (BTH_TX_POST_POSTED.off, fun m _ s => readOwn (s.bthPost m)), (BTH_RX_TAKE_VALID.off, fun m _ s => readOwn (s.bthTake m)),
   (BTH_RX_ANY_VALID.off, fun m _ s => readOwn (s.bthAny m)),
   (TIDE_IN_TS_NS_VALID.off, fun _ d s => readPair (s.inRead (d / 0x20))),
   (FBS_CLS_SUBMIT_ACCEPTED.off, fun _ d s => readPair (s.canSubmit (d / 0x8000) (d % 0x8000 / 0x40))),
   (FBS_CLS_CANCEL_CODE.off, fun _ d s => readPair (s.canCancel (d / 0x8000) (d % 0x8000 / 0x40))),
   (TLY_FDR_CYCLE_VALID.off, fun _ d s => (none, s.captureRegs (fdrCaptured (d / 0x400)))),
   (TLY_TH_STATUS_VALID.off, fun _ d s => (none, s.captureRegs (thCaptured (d / 0x100))))]

/-- PROG_PERMYRIAD registers: a read captures POSITION and TOTAL (R81). -/
def progOffs : List Nat :=
  [BRN_XCHG_PROG_PERMYRIAD_VAL.off, DRF_PROG_PERMYRIAD_VAL.off, BCN_CAMP_PROG_PERMYRIAD_VAL.off,
   LOG_EXP_PROG_PERMYRIAD_VAL.off, BST_BATCH_PROG_PERMYRIAD_VAL.off, MEM_DDR_PROG_PERMYRIAD_VAL.off,
   MEM_MRAM_PROG_PERMYRIAD_VAL.off]

/-- The registers of BTH that only participant 24, or 25, reaches (R373). -/
def bthOwner (off : Nat) : Option Nat :=
  if (0xC00100 ≤ off ∧ off < 0xC00140) ∨ (0xC00200 ≤ off ∧ off < 0xC00240) then some (24 + off / 0x20 % 2) else none

/-! ## Wide values (R8) -/

/-- How many words the value that begins at a register has, where it is one of those read as several words. -/
def wideWords (r : Reg) (i : Nat) : Nat :=
  if r.wide = 4 then (if i = 0 then 4 else 1) else if progOffs.contains r.off then 3 else max r.wide 1

/-- The word of its 4-word value that an instance is. -/
def wordOf4 (r : Reg) (off : Nat) : Nat := (off - r.off) / 4 % 4

/-- The word at a window offset as it stands. -/
def State.wordAt (s : State) (off : Nat) : Nat :=
  match findReg off regTable with
  | some (r, d) => s.regValue r d / 2 ^ (8 * (off - r.off - d)) % 2 ^ 32
  | none => 0

/-- Capture the words after the lowest of a value of `n` words. -/
def State.captureWords (s : State) (off n : Nat) : State :=
  let cap := (List.range (n - 1)).foldl (fun m i => AMap.ins m (off + 4 * (i + 1)) (s.wordAt (off + 4 * (i + 1)))) s.capture
  { s with capture := cap }

/-- A read of `n` bytes, 4 or 8, of the register that holds a window offset. The read of a value's lowest word
captures the others; a higher word reads as captured. -/
def State.regRead (s : State) (master off n : Nat) (r : Reg) (d : Nat) : Nat × State :=
  if n = 4 ∧ off ≠ r.off + d then
    (AMap.get (s.wordAt off) s.capture off, s)
  else
    let x : Option Nat × State := match AMap.find readHooks r.off with
      | some h => h master d s
      | none => (none, s)
    let v := match x.1 with
      | some v => v
      | none => AMap.get (s.regValue r d) s.capture off
    if r.words = 2 then
      let t := { x.2 with capture := AMap.ins x.2.capture (off + 4) (v / 2 ^ 32) }
      (if n = 8 then v else v % 2 ^ 32, t)
    else if x.1.isSome then (v, x.2)
    else (v, x.2.captureWords off (wideWords r (wordOf4 r off)))

end Sys2Proof.Machine
end

