-- ==== Sys2Proof/Machine/RegWrite.lean ====
section
/-! DEFINITION. Writes of registers (R5 to R9): the fields taken by their access codes, the ranges to which a value is
brought, the fields an ENABLE locks, the writes that act, and wide values written word by word (R8).
Readings and choices: DEDUCED log 16. -/

namespace Sys2Proof.Machine

/-! ## Values brought to the nearest limit (R54's PERIOD_MS, R430, R496) -/

def nearest (lo hi v : Nat) : Nat := if v < lo then lo else if hi < v then hi else v

def clampTab : List (Fld × Nat × Nat) :=
  [(SYS_WDT_CTRL_PERIOD_MS, 10, 600000), (PIO_PWM_PERIOD_CYCLES, 16, 4000000), (PIO_PWM_DUTY_DUTY, 0, 65536),
   (PIO_ENC_CFG_BITS, 8, 32), (PIO_ENC_SSI_FRAME_US, 10, 1000), (PIO_ENC_SSI_CLOCK_KHZ, 100, 4000),
   (PWR_RAIL_GUARD_GUARD_HI, 1, 500), (PWR_TEMP_CFG_TJ_LIMIT, 850, 1250), (BKW_SAFE_CARGO_SAFE_REPEAT_MS, 0, 60000),
   (BKW_SAFE_PWM_DUTY, 0, 65536)]

def clampFld (f : Fld) (v : Nat) : Nat :=
  match clampTab.find? fun x => x.1 == f with
  | some x => nearest x.2.1 x.2.2 v
  | none => v

/-! ## Fields that take nothing while an ENABLE is 1 -/

/-- The registers, by offset of the first instance, with the ENABLE of an instance. -/
def lockTab : List (List Nat × (Nat → En)) :=
  [([BRN_CORE_BOOT_VBASE.off, BRN_CORE_STACK_SP.off, BRN_START_CFG_CORE.off, BRN_START_ENTRY_ENTRY.off,
     BRN_START_SAVE_SAVE.off], fun d => .quay (d / 0x10000)),
   ([NET_CARGO_SYSID_SYSTEM_ID.off, NET_CARGO_UDP_PORT.off], fun _ => .cargo),
   ([DRF_SPILL_BASE_ADDR.off, DRF_SPILL_SIZE_MB.off], fun _ => .drf),
   ([BCN_SYSID_SYSTEM_ID.off, BCN_UDP_PORT.off, BCN_CAMP_AREA_ADDR.off, BCN_FEV_BASE_ADDR.off,
     BCN_FEV_CFG_LOG2_SIZE.off], fun _ => .bcn),
   ([TLY_EVT_BASE_ADDR.off, TLY_EVT_CFG_LOG2_SIZE.off], fun _ => .tly),
   ([TLY_PO_CFG_KIND.off, TLY_PO_WEIGHT_WEIGHT.off], fun d => .po (d / 0x20)),
   ([NET_PORT_CTRL_RATE.off, NET_PORT_MAC_LO_OCTETS_0_3.off, NET_PORT_MAC_HI_OCTETS_4_5.off,
     NET_PORT_NEXTHOP_LO_OCTETS_0_3.off, NET_PORT_NEXTHOP_HI_OCTETS_4_5.off, NET_PORT_IPV4_ADDR.off,
     NET_PORT_IPV6_ADDR.off, NET_PORT_RXQ_BASE_ADDR.off, NET_PORT_RXQ_CFG_LOG2_SIZE.off, NET_PORT_TXQ_BASE_ADDR.off,
     NET_PORT_TXQ_CFG_LOG2_SIZE.off], fun d => .port (d / 0x10000)),
   ([TIDE_OUT_CTRL_MODE.off, TIDE_OUT_START_NS_NANOSECONDS.off, TIDE_OUT_START_LO_SECONDS_LO.off,
     TIDE_OUT_START_HI_SECONDS_HI.off, TIDE_OUT_PERIOD_NS.off, TIDE_OUT_WIDTH_NS.off], fun d => .tout (d / 0x20))] ++
  [([FBS_CTL_CTRL_FORMATS.off, FBS_FIFO_BASE_ADDR.off, FBS_FIFO_CFG_DATA_MAX.off], fun d => .can (d / 0x8000)),
   ([MBS_CFG_BAUD.off, MBS_TIMING_GAP.off, MBS_RESP_RESP_BITS.off], fun d => .mbs (d / 0x1000)),
   ([ALM_ALARM_CTRL_WEEKDAY.off, ALM_ALARM_TIME_HOUR.off, ALM_ALARM_DATE_YEAR.off], fun d => .alarm (d / 0x10)),
   ([PAIR_LAND_BASE_ADDR.off, PAIR_COPY_CFG_COPY_MAX_KB.off, PAIR_COPY_LOCK_STALE_MS.off], fun _ => .pair),
   ([LOG_SNAP_CFG_TRIG.off, LOG_SNAP_ADDR_OFFSET.off], fun _ => .log),
   ([HST_RING_SQ_BASE_BASE.off, HST_RING_CQ_BASE_BASE.off], fun d => .ring (d / 0x40)),
   ([MEM_DDR_CFG_SPEED.off], fun _ => .mem), ([PIO_DIR_DIR.off, PIO_OD_OD.off], fun _ => .pio),
   ([PIO_ENC_CFG_BITS.off, PIO_ENC_SSI_FRAME_US.off], fun d => .enc (d / 0x20)), ([PWR_RAIL_CFG_PAGE.off], fun _ => .pwr)]

/-- Fields of those registers that are taken all the same. -/
def lockFree : List Fld := [TLY_PO_CFG_COMM_EN, MBS_CFG_COMM_EN, PWR_RAIL_CFG_AVS_ON]

/-- Whether a register's fields are locked by the ENABLE they belong to. -/
def State.regLocked (s : State) (r : Reg) (d : Nat) : Bool :=
  match lockTab.find? fun x => x.1.contains r.off with
  | some x => s.isOn (x.2 d)
  | none => false

/-- The registers of Breakwater that are written in PROVISION, COMMISSION and FACTORY alone (R430). -/
def bkwSafe (off : Nat) : Bool := 0xE80050 ≤ off && off < 0xE80068 || 0xE80080 ≤ off && off < 0xE800C0

/-- Whether a write of a register by its access codes is taken at all: R430; LCK_REQ of slot 19 is read-only. -/
def State.regOpen (s : State) (r : Reg) (d : Nat) : Bool :=
  if bkwSafe r.off then s.mode == PROVISION || s.mode == COMMISSION || s.mode == FACTORY
  else !(r.off == LCK_REQ_HOLD.off && d % 0x1000 == 4 * 19)

/-! ## The access codes (R9) -/

/-- One field of a written register value. -/
def State.putFld (s : State) (locked : Bool) (d v : Nat) (f : Fld) : State :=
  let x := bits v f.lo f.w
  match f.acc with
  | .rw => if locked && !lockFree.contains f then s else s.p f d (clampFld f x)
  | .w1c => s.w1c f d x
  | .w1s => s.p f d (s.g f d ||| x)
  | .ro | .wo | .ps => s

/-- The write of an ENABLE in bit 31 (R73, R74). -/
def State.writeEnable (s : State) (r : Reg) (d v : Nat) : State :=
  match enAt (r.off + d) with
  | some e => if v.testBit 31 then s.enStart e else s.enClear e
  | none => s

/-- REGISTER_WRITE by the access codes: the fields other than an ENABLE, the staging of the PS fields (R60), then the
ENABLE. -/
def State.regPut (s : State) (r : Reg) (master d v : Nat) : State :=
  if s.regOpen r d then
    let locked := s.regLocked r d
    let en := match enAt (r.off + d) with | some e => [e.flds.1] | none => []
    let s := (r.flds.filter fun f => !en.contains f).foldl (fun s f => s.putFld locked d v f) s
    let s := if r.ps.isEmpty || locked then s else s.psStage r d v master
    s.writeEnable r d v
  else s

/-! ## Fault sets (R423 to R425) -/

/-- Every block that has a fault set. -/
def fblks : List FBlk := (rangeFrom 0x40 0x5E).filterMap FBlk.ofSrc

/-- The fault set whose registers hold a window offset, and the offset in it. -/
def faultAt (off : Nat) : Option (FBlk × Nat) :=
  (fblks.find? fun b => b.F ≤ off && off < b.F + 0x28).map fun b => (b, off - b.F)

/-- Clear a first-error capture and rearm it; one loaded in the same fabric cycle stands (R9). -/
def State.fecClear (s : State) (b : FBlk) : State :=
  if (AMap.get 0 s.setNow ((fsValid b.F).key 0)).testBit 0 then s
  else [fsValid b.F, fsHasAccess b.F, fsBit b.F, fsMaster b.F, fsAccess b.F, fsDetail b.F, fsAddrLo b.F, fsAddrHi b.F,
    fsTimeNs b.F, fsTimeLo b.F, fsTimeHi b.F].foldl (fun s f => s.p f 0 0) s

/-- A write of a fault set's register. -/
def State.faultWrite (s : State) (b : FBlk) (o v : Nat) : State :=
  if o = 0 then
    let f := fsStatus b.F b.width
    (s.w1c f 0 v).faultLevel b
  else if o = 4 then (s.p (fsIrqEn b.F) 0 v).faultLevel b
  else if o = 8 then s.writeReact b v
  else if o = 0xC then (if v.testBit 31 then s.fecClear b else s)
  else s

/-! ## Writes that act -/

/-- An output path's fields take nothing while it is enabled or draining (R23). -/
def State.pathPut (s : State) (r : Reg) (master d v : Nat) : State :=
  let p := d / 0x20
  if s.pathOn p || s.draining p then s else s.regPut r master d v

/-- SYS_CTR_PATH: its fields, then the path's ENABLE (R22 to R24). -/
def State.pathWrite (s : State) (d v : Nat) : State :=
  let p := d / 0x20
  let s := if s.pathOn p || s.draining p then s
    else ((s.p SYS_CTR_PATH_TARGET d (bits v 16 12)).p SYS_CTR_PATH_PRIO d (bits v 8 3)).p SYS_CTR_PATH_KIND d (bits v 4 3)
  if v.testBit 0 then s.pathEnable p else s.pathDisable p

/-- SYS_WDT_CTRL (R54): PERIOD_MS takes nothing while ENABLE is 1; setting ENABLE starts the first period. -/
def State.wdtWrite (s : State) (v : Nat) : State :=
  if s.on SYS_WDT_CTRL_ENABLE then s
  else
    let s := s.p SYS_WDT_CTRL_PERIOD_MS 0 (clampFld SYS_WDT_CTRL_PERIOD_MS (bits v 0 20))
    if v.testBit 31 then { s with wdtAt := s.fab }.p SYS_WDT_CTRL_ENABLE 0 1 else s

/-- PRF_CMD. -/
def State.prfWrite (s : State) (master op : Nat) : State :=
  if op = 1 then s.proofCmd master else if op = 2 then s.pullCmd master else if op = 3 then s.discardCmd master else s

/-- DEBUG_STEP (R136): a halted core is to execute one instruction. -/
def State.debugStep (s : State) (c : Nat) : State :=
  if s.debugActs && (s.core c).run == .halted then s.setCore c { s.core c with stepping := true } else s

/-- BRN_CORE_DEBUG (R136). -/
def State.debugWrite (s : State) (d v : Nat) : State :=
  let c := coreOfDisp d
  if s.debugActs then
    let s := s.p BRN_CORE_DEBUG_ENABLE d (bits v 31 1)
    let s := if v.testBit 0 then s.debugHalt c else s
    let s := if v.testBit 1 then s.debugResume c else s
    if v.testBit 2 then s.debugStep c else s
  else s

/-- BRN_CORE_ECC: writing 1 to UNCORR also sets the counts to 0. -/
def State.coreEccWrite (s : State) (r : Reg) (master d v : Nat) : State :=
  let s := s.regPut r master d v
  if v.testBit 31 then ((s.p BRN_CORE_ECC_IMAGE d 0).p BRN_CORE_ECC_DATA d 0).p BRN_CORE_ECC_INSTR d 0 else s

/-- PIO_PWM_DUTY (R185): ignored from a master other than the Graver while a context or group drives the channel. -/
def State.dutyWrite (s : State) (r : Reg) (master d v : Nat) : State :=
  if master != 27 && s.grvDrives (d / 0x20) then s else s.regPut r master d v

/-- BRN_XCHG_CMD (R163). -/
def State.xchgWrite (s : State) (q v : Nat) : State :=
  let op := v % 16
  if op = 1 then s.xchgLoad q else if op = 2 then s.xchgApply q (v.testBit 8) else if op = 3 then s.xchgCancel q else s

/-- BCN_CAMP_CMD (R262 to R266). -/
def State.campWrite (s : State) (c op : Nat) : State :=
  if op = 1 then s.campStart c else if op = 2 then s.campAbort c else if op = 3 then s.campClear c else s

/-- BCN_PT_CMD (R258): no effect while BUSY. -/
def State.ptWrite (s : State) (v : Nat) : State :=
  if s.on BCN_PT_CMD_BUSY then s
  else if v.testBit 30 then s.passthru (bits v 16 10) (bits v 0 11)
  else (s.p BCN_PT_CMD_GATEWAY 0 (bits v 16 10)).p BCN_PT_CMD_LENGTH 0 (bits v 0 11)

/-- A HEAD index that software advances over a ring of 2^k entries (R84). -/
def State.headWrite (s : State) (head tail : Fld) (k d v : Nat) : State :=
  if headOk k (s.g head d) (s.g tail d) v then s.p head d v else s

/-- The host's ring indices: bits above LOG2_SIZE are ignored (R83, R84). -/
def State.ringHead (s : State) (d v : Nat) : State :=
  let k := s.g HST_RING_CFG_LOG2_SIZE d
  s.headWrite HST_RING_CQ_HEAD_INDEX HST_RING_CQ_TAIL_INDEX k d (v % 2 ^ 13 % 2 ^ (k + 1))
def State.ringTail (s : State) (d v : Nat) : State :=
  let k := s.g HST_RING_CFG_LOG2_SIZE d
  let x := v % 2 ^ 13 % 2 ^ (k + 1)
  if tailOk k (s.g HST_RING_SQ_HEAD_INDEX d) x then s.p HST_RING_SQ_TAIL_INDEX d x else s

/-- TID_SLEW and TID_SELECT: while TID ENABLE is 1 a value out of range is ignored with 0x640 (R502); a change of ACTIVE
requests a switch (R325). -/
def State.slewWrite (s : State) (v : Nat) : State :=
  let m := bits v 0 19
  if s.on TID_CTRL_ENABLE && (m == 0 || decide (500000 < m)) then s.tidRefuse 0x640 else s.p TID_SLEW_SLEW_MAX 0 m
def State.selectWrite (s : State) (v : Nat) : State :=
  if s.on TID_CTRL_ENABLE && bits v 12 8 == 0 then s.tidRefuse 0x640
  else
    let s := (s.p TID_SELECT_AUTO 0 (bits v 31 1)).p TID_SELECT_LOSS_INTERVALS 0 (bits v 12 8)
    let s := if v.testBit 30 then s.w1c TID_SELECT_WIDE 0 1 else s
    s.switchRequest (v % 2)

/-- NET_PTP_CFG: a second SLAVE in an enabled domain takes nothing. -/
def State.ptpWrite (s : State) (r : Reg) (master d v : Nat) : State :=
  let p := d / 0x10000
  let k := d % 0x10000 / 0x20
  if bits v 30 2 = 1 ∧ s.on TID_DOM_CFG_ENABLE (dDom k) = true ∧
      (List.range 4).any (fun o => o != p && s.ptpState o k == 1) = true then s
  else s.regPut r master d v

/-- MST_SRC_CFG: clearing ON acts under R391. -/
def State.srcWrite (s : State) (d v : Nat) : State :=
  let s := { s.eccGone (.source (d / 0x10)) with srcLost := s.srcLost.filter (· != d / 0x10) }
  let s := ((s.p MST_SRC_CFG_HOST_EN d (bits v 29 1)).p MST_SRC_CFG_HOST_VEC d (bits v 16 6)).p MST_SRC_CFG_PRIO d (bits v 0 4)
  if v.testBit 31 then s.p MST_SRC_CFG_ON d 1 else if s.on MST_SRC_CFG_ON d then s.sourceOff (d / 0x10) else s

/-- PAIR_CTRL: UNIT is not changed while ENABLE is 1 (0xA06, R433). -/
def State.pairCtrlWrite (s : State) (r : Reg) (d v : Nat) : State :=
  let u := v % 2
  let s := if s.on PAIR_CTRL_ENABLE then
      (if u = s.g PAIR_CTRL_UNIT then s else s.p PAIR_CTRL_REFUSAL 0 0xA06)
    else s.p PAIR_CTRL_UNIT 0 u
  s.writeEnable r d v

/-- LOG_CLR_CMD (R443). -/
def State.clrWrite (s : State) (master v : Nat) : State :=
  if v % 4 = 1 then s.challenge else if v % 4 = 2 then s.logClear master (bits v 8 2) else s

/-- PWR_RAIL_GUARD: GUARD_LO lies from 1 to GUARD_HI (R496). -/
def State.guardWrite (s : State) (d v : Nat) : State :=
  let hi := clampFld PWR_RAIL_GUARD_GUARD_HI (bits v 16 16)
  (s.p PWR_RAIL_GUARD_GUARD_HI d hi).p PWR_RAIL_GUARD_GUARD_LO d (nearest 1 hi (bits v 0 16))

/-- A write that acts: register, master, displacement, value. -/
abbrev WriteHook := Reg → Nat → Nat → Nat → State → State

/-- The writes that act, by offset of the first instance: SYS, PRF, BRN, GRV. -/
def writeHooks1 : List (Nat × WriteHook) :=
  [(SYS_CTR_PATH_ENABLE.off, fun _ _ d v s => s.pathWrite d v), (SYS_CTR_SIZE_MAX_SIZE.off, fun r m d v s => s.pathPut r m d v),
   (SYS_CTR_RATE_MAX_ITEMS.off, fun r m d v s => s.pathPut r m d v), (SYS_CTR_BOUND_BOUND_NS.off, fun r m d v s => s.pathPut r m d v),
   (SYS_MODE_CMD_TARGET.off, fun _ m _ v s => s.modeCommand (bits v 16 16) (v % 8) m),
   (SYS_RESET_CMD_QUAY.off, fun _ _ _ v s => s.resetCmd (bits v 16 16) (v.testBit 8) (v % 8)),
   (SYS_WDT_CTRL_ENABLE.off, fun _ _ _ v s => s.wdtWrite v), (SYS_WDT_KICK_KEY.off, fun _ _ _ v s => s.kick (v % 256)),
   (PRF_CMD_OP.off, fun _ m _ v s => s.prfWrite m (v % 16)),
   (BRN_CORE_DEBUG_ENABLE.off, fun _ _ d v s => s.debugWrite d v),
   (BRN_CORE_ECC_UNCORR.off, fun r m d v s => s.coreEccWrite r m d v),
   (BRN_TASK_STATS_CLEAR.off, fun _ _ d v s =>
     if v.testBit 31 then (s.p BRN_TASK_STATS_OVERRUNS d 0).p BRN_TASK_STATS_SKIPPED d 0 else s),
   (BRN_EVT_TRIG_FIRE.off, fun _ _ d v s => if v.testBit 0 then s.eventRelease (d / 0x10000) (d % 0x10000 / 0x20) else s),
   (BRN_XCHG_CMD_OP.off, fun _ _ d v s => s.xchgWrite (d / 0x10000) v),
   (NET_CARGO_CTRL_AREA.off, fun r _ d v s => (s.cargoAreaWrite (v % 4)).writeEnable r d v),
   (GRV_FF_CTRL_ACTIVE_BANK.off, fun _ _ d v s => s.ffSwap (d / 0x20) (v % 2)),
   (GRV_FF_CMD_REBUILD.off, fun _ _ d v s => if v.testBit 0 then s.ffRebuild (d / 0x20) else s),
   (GRV_CTX_LIVE_RESEED.off, fun r m d v s =>
     let s := s.regPut r m d v
     if v.testBit 1 then s.reseed (d / 0x100) else s)]

/-- The writes that act, by offset of the first instance: DRF, BCN, TLY, NET. -/
def writeHooks2 : List (Nat × WriteHook) :=
  [(DRF_SUBMIT_ADDR.off, fun _ m _ v s => (s.submit m (v.testBit 40) (v % 2 ^ 40)).2),
   (DRF_CANCEL_SLOT.off, fun _ m _ v s => (s.drfCancel m (v % 64) (bits v 16 16)).2),
   (BCN_PROF_CTRL_ACTIVE_BANK.off, fun _ _ _ v s => s.bcnSwap (v % 2)),
   (BCN_PROF_CMD_REBUILD.off, fun _ _ _ v s => if v.testBit 0 then s.bcnRebuild else s),
   (BCN_PT_CMD_GO.off, fun _ _ _ v s => s.ptWrite v), (BCN_CAMP_CMD_OP.off, fun _ _ d v s => s.campWrite (d / 0x40) (v % 4)),
   (BCN_CAMP_CFG_PATH.off, fun r m d v s => if s.campState (d / 0x40) = 0 then s.regPut r m d v else s),
   (BCN_CAMP_TIMING_KEY_SLOT.off, fun r m d v s => if s.campState (d / 0x40) = 0 then s.regPut r m d v else s),
   (BCN_FEV_HEAD_INDEX.off, fun _ _ d v s => s.headWrite BCN_FEV_HEAD_INDEX BCN_FEV_TAIL_INDEX (s.g BCN_FEV_CFG_LOG2_SIZE) d (v % 2 ^ 17)),
   (TLY_EVT_HEAD_INDEX.off, fun _ _ d v s => s.headWrite TLY_EVT_HEAD_INDEX TLY_EVT_TAIL_INDEX (s.g TLY_EVT_CFG_LOG2_SIZE) d (v % 2 ^ 17)),
   (TLY_PRESET_CMD_GO.off, fun r m d v s => if v.testBit 31 then s.preset (v % 256) m else s.regPut r m d v),
   (NET_PORT_OTHER_OTHER_TC.off, fun _ _ d v s => s.otherWrite (d / 0x10000) (bits v 24 3) (bits v 0 11)),
   (NET_PORT_MDIO_BUSY.off, fun _ _ d v s => s.mdioWrite (d / 0x10000) v),
   (NET_PORT_TXQ_TAIL_INDEX.off, fun _ _ d v s => s.txTailWrite (d / 0x10000) (v % 2 ^ NET_PORT_TXQ_TAIL_INDEX.w)),
   (NET_PORT_RXQ_HEAD_INDEX.off, fun _ _ d v s => s.rxHeadWrite (d / 0x10000) (v % 2 ^ NET_PORT_RXQ_HEAD_INDEX.w)),
   (NET_PTP_CFG_STATE.off, fun r m d v s => s.ptpWrite r m d v)]

/-- The writes that act, by offset of the first instance: TID to BST. -/
def writeHooks3 : List (Nat × WriteHook) :=
  [(TID_ADJ_CMD_OP.off, fun _ _ _ v s => if v % 4 = 1 then s.tidStep else if v % 4 = 2 then s.tidSlew else s),
   (TID_SLEW_SLEW_MAX.off, fun _ _ _ v s => s.slewWrite v), (TID_SELECT_ACTIVE.off, fun _ _ _ v s => s.selectWrite v),
   (FBS_FIFO_HEAD_INDEX.off, fun _ _ d v s => s.canHeadWrite (d / 0x8000) (d % 0x8000 / 0x20) (v % 128)),
   (FBS_CTL_MEAS_MEASURE.off, fun _ _ d v s => s.canMeasure (d / 0x8000) (v.testBit 31) (v % 2 ^ 16)),
   (MBS_CMD_SEND.off, fun _ _ d v s => if v.testBit 31 then s.mbsSend (d / 0x1000) (v % 1024) else s),
   (ALM_CMD_OP.off, fun _ m _ v s => s.almCmd (v % 4) m),
   (ALM_ALARM_STATUS_FIRED.off, fun r m d v s => (s.regPut r m d v).almLevels),
   (MST_SRC_CFG_ON.off, fun _ _ d v s => s.srcWrite d v),
   (MST_SRC_STATE_PEND.off, fun _ _ d v s => if v.testBit 31 then s.setPending (d / 0x10) else s),
   (LCK_REQ_WAIT_MAX.off, fun _ _ d _ s => s.p LCK_REQ_WAIT_MAX d 0),
   (PAIR_CTRL_UNIT.off, fun r _ d v s => s.pairCtrlWrite r d v),
   (PAIR_SWAP_CMD_GO.off, fun _ _ _ v s => if v.testBit 31 then s.swapCommand else s),
   (BKW_INJECT_GO.off, fun _ _ _ v s => if v.testBit 31 then s.inject (bits v 16 9) (v % 32) else s),
   (LOG_READ_SEL_AGE.off, fun _ _ _ v s => s.logRead (bits v 16 1) (v % 2 ^ 14)),
   (LOG_CLR_CMD_OP.off, fun _ m _ v s => s.clrWrite m v),
   (LOG_EXP_CMD_GO.off, fun _ _ _ v s => if v.testBit 31 then s.logExport (v % 2) else s),
   (BST_BATCH_CMD_GO.off, fun _ m _ v s => if v.testBit 31 then s.keyBatch m (v % 2 ^ 13) else s)]

/-- The writes that act, by offset of the first instance: HST to PWR. -/
def writeHooks4 : List (Nat × WriteHook) :=
  [(HST_RING_SQ_TAIL_INDEX.off, fun _ _ d v s => s.ringTail d v), (HST_RING_CQ_HEAD_INDEX.off, fun _ _ d v s => s.ringHead d v),
   (HST_MSIX_CTRL_MASKED.off, fun r m d v s => (s.regPut r m d v).msixFlush),
   (PIO_PWM_DUTY_DUTY.off, fun r m d v s => s.dutyWrite r m d v),
   (MEM_DDR_CMD_OP.off, fun _ _ _ v s => if v % 4 = 1 then s.ddrInit (v.testBit 4) else s),
   (MEM_MRAM_CMD_OP.off, fun _ _ _ v s => if v % 4 = 1 then s.mramScrub else s),
   (MEM_FLASH_CMD_BUSY.off, fun _ _ _ v s => if v.testBit 31 then s.flashStart (v % 8) else s.p MEM_FLASH_CMD_OP 0 (v % 8)),
   (PWR_GATE_QUAY.off, fun _ _ _ v s => s.gateWrite (v % 128)), (PWR_RAIL_GUARD_GUARD_HI.off, fun _ _ d v s => s.guardWrite d v)]

def writeHooks : List (Nat × WriteHook) := writeHooks1 ++ writeHooks2 ++ writeHooks3 ++ writeHooks4

/-- A whole value written to a register. -/
def State.regWriteAll (s : State) (r : Reg) (master d v : Nat) : State :=
  match faultAt (r.off + d) with
  | some (b, o) => s.faultWrite b o v
  | none =>
    match AMap.find writeHooks r.off with
    | some h => h r master d v s
    | none => s.regPut r master d v

/-! ## Wide values (R8) -/

/-- Whether a register is a higher word of a value that begins at a register before it. -/
def higherWord (off : Nat) : Bool :=
  let starts : Nat → Nat → Bool := fun back n => back ≤ off &&
    match findReg (off - back) regTable with
    | some (r, d) => n ≤ r.wide && r.words == 1 && r.wide != 4 && r.off + d == off - back
    | none => false
  let inFour : Bool := match findReg off regTable with
    | some (r, _) => r.wide == 4 && wordOf4 r off != 0
    | none => false
  starts 4 2 || starts 8 3 || inFour

/-- Hold a higher word, where the register has a field that a write changes. -/
def State.holdWord (s : State) (r : Reg) (off v : Nat) : State :=
  if r.flds.all (·.acc == .ro) then s else { s with held := AMap.ins s.held off v }

/-- Forget the words held for the value at an offset. -/
def State.dropHeld (s : State) (off n : Nat) : State :=
  { s with held := AMap.keep (fun k => !(off < k && k < off + 4 * n)) s.held }

/-- The words held for the registers after the lowest of a value of `n` words are written. -/
def State.writeHeld (s : State) (master off n : Nat) : State :=
  (List.range (n - 1)).foldl (fun s i =>
    let o := off + 4 * (i + 1)
    match AMap.find s.held o, findReg o regTable with
    | some v, some (r, d) => s.regWriteAll r master d v
    | _, _ => s) s

/-- A write of `n` bytes, 4 or 8, of the register that holds a window offset. A higher word is held; the lowest makes the
value take effect whole. -/
def State.regWrite (s : State) (master off n v : Nat) (r : Reg) (d : Nat) : State :=
  if r.words = 2 then
    if n = 8 then (s.dropHeld off 2).regWriteAll r master d v
    else if off ≠ r.off + d then s.holdWord r off v
    else
      let hi := match AMap.find s.held (off + 4) with
        | some h => h
        | none => s.regValue r d / 2 ^ 32
      (s.dropHeld off 2).regWriteAll r master d (hi * 2 ^ 32 + v)
  else if higherWord off then s.holdWord r off v
  else
    let w := max r.wide 1
    ((s.writeHeld master off w).dropHeld off w).regWriteAll r master d v

end Sys2Proof.Machine
end

