-- ==== Sys2Proof/Machine/Bus.lean ====
section
/-! DEFINITION. The bus: reads and writes of any address by a master (R5, R7, R18, R19, R461, R473, R474), and the rows of
register accesses. Readings and choices: DESIGN CHOICE log 13; DEDUCED log 17, 46. -/

namespace Sys2Proof.Machine

/-- An error response that no rule records, but for master 24, whose are all recorded under R7 (R461). -/
def State.errResp (s : State) (a master kind : Nat) : State :=
  if master = 24 then s.busError a master kind else s.answer false 0

/-! ## The parts of the windows that are not registers -/

/-- What lies at a window offset. -/
inductive Place where
  | table | profile | ffTable | mbsTx | mbsRx | flashPage | ddrTiming | regs
deriving DecidableEq, Repr

/-- The Beacon's table port and profile banks, the Graver's table window, the UARTs' buffers, the flash page, and the DDR
channels' timing words, whose layout is the controller's own. -/
def placeOf (o : Nat) : Place :=
  if 0x680000 ≤ o ∧ o < 0x6C0000 then .table
  else if 0x6C0000 ≤ o ∧ o < 0x700000 then .profile
  else if 0x480000 ≤ o ∧ o < 0x4A0000 then .ffTable
  else if 0xA81000 ≤ o ∧ o < 0xA89000 ∧ 0x400 ≤ o % 0x1000 ∧ o % 0x1000 < 0x600 then .mbsTx
  else if 0xA81000 ≤ o ∧ o < 0xA89000 ∧ 0x600 ≤ o % 0x1000 ∧ o % 0x1000 < 0x800 then .mbsRx
  else if 0x1100500 ≤ o ∧ o < 0x1100600 then .flashPage
  else if (0x1100110 ≤ o ∧ o < 0x1100200) ∨ (0x1100210 ≤ o ∧ o < 0x1100300) then .ddrTiming
  else .regs

/-- Whether a place takes an access of `n` bytes at an offset: the tables and the UARTs' buffers take bytes; elsewhere the
widths of R5. -/
def placeOk (x : Place) (o n : Nat) : Bool :=
  match x with
  | .table | .profile | .mbsTx | .mbsRx => [1, 2, 4, 8, 16, 32].contains n && o % n == 0
  | .ffTable | .flashPage | .ddrTiming => n == 4 && o % 4 == 0
  | .regs => (n == 4 || n == 8) && o % n == 0

/-- The bits of each byte of a group, zone and gateway entry that software writes (R238 to R241): neither the bits that are
0 nor the fields marked state. -/
def grpMask : List Nat :=
  [0xFF, 0, 0xFF, 0x0F, 0xFF, 0x07, 0, 0, 0xFF, 0x07, 0xFF, 0, 0xFF, 0xFF, 0xFF, 0xFF]
def zoneMask : List Nat :=
  [0xFF, 0xFF, 0xFF, 0xFF, 0xFF, 0xFF, 0xFF, 0, 0xFF, 0xFF, 0xFF, 0xFF]
def gwMask : List Nat := [0xFF, 0, 0, 0] ++ List.replicate 24 0xFF
def tableMask (o : Nat) : Nat :=
  if o < 0x6A0000 then grpMask.getD (o % 0x20) 0
  else if o < 0x6B0000 then zoneMask.getD (o % 0x20) 0
  else gwMask.getD (o % 0x40) 0

/-- A write of bytes through the table port. -/
def State.tableWrite : State → Nat → List Byte → State
  | s, _, [] => s
  | s, o, b :: t =>
    let m := BitVec.ofNat 8 (tableMask o)
    State.tableWrite (s.wb (winBase + o) ((s.rb (winBase + o) &&& ~~~m) ||| (b &&& m))) (o + 1) t

/-- A read of a register: an unimplemented offset reads 0; 8 bytes only of a register pair. -/
def State.winReg (s : State) (master o n : Nat) : Option (Nat × State) :=
  match findReg o regTable with
  | some (r, d) => if n = 4 ∨ (r.words = 2 ∧ o = r.off + d) then some (s.regRead master o n r d) else none
  | none => if n = 4 then some (0, s) else none

/-- Whether a master may reach an offset: the sets of participants 24 and 25 are theirs alone (R373). -/
def reaches (master o : Nat) : Bool := match bthOwner o with | some w => w == master | none => true

/-- A read in the register windows: none where it ends in an error response. -/
def State.winRead (s : State) (master o n : Nat) : Option (Nat × State) :=
  let x := placeOf o
  if placeOk x o n && reaches master o then
    match x with
    | .regs => s.winReg master o n
    | .ddrTiming => let y := s.draw; some (y.1 % 2 ^ 32, y.2)
    | .table => some (s.tableRead o n, s)
    | .profile | .ffTable | .mbsTx | .mbsRx | .flashPage => some (s.rle (winBase + o) n, s)
  else none

/-- A write in the register windows: none where it ends in an error response. -/
def State.winWrite (s : State) (master o n v : Nat) : Option State :=
  let x := placeOf o
  if placeOk x o n && reaches master o then
    match x with
    | .regs =>
      match findReg o regTable with
      | some (r, d) => if n = 4 ∨ (r.words = 2 ∧ o = r.off + d) then some (s.regWrite master o n v r d) else none
      | none => if n = 4 then some s else none
    | .table => some (s.tableWrite o (leBytes n v))
    | .mbsTx | .flashPage => some (s.wle (winBase + o) n v)
    | .profile | .ffTable | .mbsRx | .ddrTiming => some s
  else none

/-! ## Memory regions -/

/-- What a read of MRAM returns (R474): the Tally's slots; 0 in the Bonded Store's banks (R445) and where reserved; open
where the spec gives no layout. -/
def State.mramRead (s : State) (a n : Nat) : Nat × State :=
  let o := a - mramBase
  if (0xE0000 ≤ o ∧ o < 0xE1000) then (s.rle a n, s)
  else if (0xC0000 ≤ o ∧ o < 0xE0000) ∨ 0xE3000 ≤ o then (0, s)
  else let y := s.draw; (y.1 % 2 ^ (8 * n), y.2)

/-- Whether a write would touch the area of a campaign that is not IDLE, the Beacon alone writing there (R263). -/
def State.campGuard (s : State) (master a n : Nat) : Bool :=
  master != 29 && (List.range 8).any fun c =>
    let b := s.g BCN_CAMP_AREA_ADDR + 2 ^ 22 * c
    s.campState c != 0 && decide (a < b + 2 ^ 22) && decide (b < a + n)

/-- A read of shared SRAM or of DDR that answers, through its ECC (R469, R473). -/
def State.ramRead (s : State) (master a n : Nat) : Option Nat × State :=
  if s.eccUncorr a n then (none, (s.memUncorr a master).errResp a master 1)
  else (some (s.rle a n), s.eccSeen a n)

/-- A read of MRAM through its ECC (R475). -/
def State.mramBus (s : State) (master a n : Nat) : Option Nat × State :=
  if s.eccUncorr a n then
    (none, (s.raise .mem MEM_MRAM_UNCORR (some ⟨a, master, 1⟩) 0).errResp a master 1)
  else let x := (s.eccFix a n).mramRead a n; (some x.1, x.2)

/-- Whether DDR answers a master: everyone once DDR_READY is 1, before it masters 32 and 33 alone (R468, R476). -/
def State.ddrOpen (s : State) (master : Nat) : Bool := s.ddrReady || master == 32 || master == 33

/-- A BUS read of `n` bytes by a master: none where it ends in an error response, which the State has noted. A device held
in reset answers none. -/
def State.busRead (s : State) (master a n : Nat) : Option Nat × State :=
  if s.inReset then (none, s.answer false 0)
  else if inWindow a n then
    match s.winRead master (a - winBase) n with
    | some (v, t) => (some v, t)
    | none => (none, s.errResp a master 1)
  else if inSram a n then s.ramRead master a n
  else if s.inDdr a n then (if s.ddrOpen master then s.ramRead master a n else (none, s.errResp a master 1))
  else if inMram a n then s.mramBus master a n
  else if inRom a n then let y := s.draw; (some (y.1 % 2 ^ (8 * n)), y.2)
  else (none, s.busError a master 1)

/-- A BUS write of the low `n` bytes of a value by a master: whether it completed without an error response. -/
def State.busWrite (s : State) (master a n v : Nat) : Bool × State :=
  if s.inReset then (false, s.answer false 0)
  else if inWindow a n then
    match s.winWrite master (a - winBase) n v with
    | some t => (true, t)
    | none => (false, s.errResp a master 2)
  else if inSram a n || s.inDdr a n then
    if (!inSram a n && !s.ddrOpen master) || s.campGuard master a n then (false, s.errResp a master 2)
    else (true, (s.wle a n v).eccWritten a n)
  else if inMram a n || inRom a n then (false, s.errResp a master 2)
  else (false, s.busError a master 2)

/-- Answer a read, and a write. -/
def answerRead (x : Option Nat × State) : State :=
  match x.1 with
  | some v => x.2.answer true v
  | none => x.2.answer false 0
def answerWrite (x : Bool × State) : State := x.2.answer x.1 0

/-! ## The rows -/

/-- WIDE_READ_CAPTURE (R5, R8): a read by a master, of any size; a read of the lowest word of a wide value captures its
higher words. Any address may be read. -/
def execWideReadCapture (master : Fin 42) (addr : Addr) (size : AccSize) (s : State) : Out' :=
  .next (answerRead (s.busRead master.val addr.toNat size.bytes))

/-- SYS_ID_READ (R58). -/
def execSysIdRead (master : Fin 42) (s : State) : Out' :=
  .next (answerRead (s.busRead master.val winBase 4))

/-- PROG_READ (R81): a read of a PROG_PERMYRIAD captures POSITION and TOTAL: which of the seven progress sets, and the
instance of the exchange's (quay) and the campaigns' (campaign). -/
def execProgRead (set : Fin 7) (inst : Fin 8) (s : State) : Out' :=
  let d := if set.val = 0 then dQuay (inst.val % 6) else if set.val = 2 then dCamp inst.val else 0
  .next (answerRead (s.busRead 24 (winBase + progOffs.getD set.val 0 + d) 4))

end Sys2Proof.Machine
end

