-- ==== Sys2Proof/Machine/JoraBits.lean ====
section
/-! DEFINITION. Joraone bit logic, bit stores, BA and the nesting stack (R95 to R97). -/

namespace Sys2Proof.Machine

/-- The byte a bit operand names (R96), its key and the bit number, free of uncorrectable errors (R127). -/
def State.bitTarget (s : State) (c : Nat) (r : BitRef) : Except Exc (View × Nat × Nat) :=
  match Sys2Proof.Machine.bitTarget (s.core c) r with
  | .error e => .error e
  | .ok (v, i) =>
    match localKey c v with
    | none => .error ⟨xDBUS, none⟩
    | some a => if s.viewBad c 1 v then .error ⟨xECC, some (BitVec.ofNat 40 v.addr)⟩ else .ok (v, a, i)

/-- Bit logic: BA takes `f BA b` of the addressed bit (R95). -/
def State.bitLogic (s : State) (c : Nat) (r : BitRef) (f : Bool → Bool → Bool) : State :=
  if s.executes c then
    let k := s.core c
    match s.bitTarget c r with
    | .error e => s.fail c e
    | .ok (v, a, i) =>
      let b := (s.lrb (c / 4) a).toNat.testBit i
      (s.viewSeen c 1 v).retire c { k with ba := f k.ba b } (k.pc + 4) 1
  else s.unissued c

/-- A byte with bit `i` set to `b`. -/
def setByteBit (x : Byte) (i : Nat) (b : Bool) : Byte :=
  if b then x ||| (1 : Byte) <<< i else x &&& ~~~((1 : Byte) <<< i)

/-- Bit store: the addressed bit takes `f BA b`; only that bit changes (R95, R96). -/
def State.bitStore (s : State) (c : Nat) (r : BitRef) (f : Bool → Bool → Bool) : State :=
  if s.executes c then
    let k := s.core c
    match s.bitTarget c r with
    | .error e => s.fail c e
    | .ok (v, a, i) =>
      if s.overlayFull (c / 4) 1 then s.shadowHalt (c / 4)
      else
        let x := s.lrb (c / 4) a
        let y := setByteBit x i (f k.ba (x.toNat.testBit i))
        ((s.viewSeen c 1 v).lwbs (c / 4) (lineOf c v) a [y]).retire c k (k.pc + 4) 1
  else s.unissued c

/-- LD (R95). -/
def execJLd (c : Fin 24) (r : BitRef) (s : State) : Out' :=
  .next (s.bitLogic c r (fun _ b => b))

/-- LDN (R95). -/
def execJLdn (c : Fin 24) (r : BitRef) (s : State) : Out' :=
  .next (s.bitLogic c r (fun _ b => !b))

/-- AND (R95). -/
def execJAnd (c : Fin 24) (r : BitRef) (s : State) : Out' :=
  .next (s.bitLogic c r (fun a b => a && b))

/-- ANDN (R95). -/
def execJAndn (c : Fin 24) (r : BitRef) (s : State) : Out' :=
  .next (s.bitLogic c r (fun a b => a && !b))

/-- OR (R95). -/
def execJOr (c : Fin 24) (r : BitRef) (s : State) : Out' :=
  .next (s.bitLogic c r (fun a b => a || b))

/-- ORN (R95). -/
def execJOrn (c : Fin 24) (r : BitRef) (s : State) : Out' :=
  .next (s.bitLogic c r (fun a b => a || !b))

/-- XOR (R95). -/
def execJXor (c : Fin 24) (r : BitRef) (s : State) : Out' :=
  .next (s.bitLogic c r (fun a b => a != b))

/-- XORN (R95). -/
def execJXorn (c : Fin 24) (r : BitRef) (s : State) : Out' :=
  .next (s.bitLogic c r (fun a b => a == b))

/-- ST (R95). -/
def execJSt (c : Fin 24) (r : BitRef) (s : State) : Out' :=
  .next (s.bitStore c r (fun a _ => a))

/-- STN (R95). -/
def execJStn (c : Fin 24) (r : BitRef) (s : State) : Out' :=
  .next (s.bitStore c r (fun a _ => !a))

/-- SET (R95). -/
def execJSet (c : Fin 24) (r : BitRef) (s : State) : Out' :=
  .next (s.bitStore c r (fun a b => a || b))

/-- CLR (R95). -/
def execJClr (c : Fin 24) (r : BitRef) (s : State) : Out' :=
  .next (s.bitStore c r (fun a b => !a && b))

/-- NOT (R97). -/
def execJNot (c : Fin 24) (s : State) : Out' :=
  .next (s.simple c 1 fun k => .ok ({ k with ba := !k.ba }, 0))

/-- BA1 (R97). -/
def execJBa1 (c : Fin 24) (s : State) : Out' :=
  .next (s.simple c 1 fun k => .ok ({ k with ba := true }, 0))

/-- BA0 (R97). -/
def execJBa0 (c : Fin 24) (s : State) : Out' :=
  .next (s.simple c 1 fun k => .ok ({ k with ba := false }, 0))

/-- Entry `i` of the nesting stack, and the stack with it replaced: [3] the saved BA, [2:0] the operation. -/
def nestEntry (x : BitVec 64) (i : Nat) : Nat := x.toNat / 2 ^ (4 * i) % 16
def nestPut (x : BitVec 64) (i e : Nat) : BitVec 64 :=
  BitVec.ofNat 64 (x.toNat - nestEntry x i * 2 ^ (4 * i) + e * 2 ^ (4 * i))

/-- The combining operations of CLOSE (R97): 0 AND, 1 ANDN, 2 OR, 3 ORN, 4 XOR, 5 XORN. -/
def nestOp (op : Nat) (a b : Bool) : Bool :=
  match op with
  | 0 => a && b | 1 => a && !b | 2 => a || b | 3 => a || !b | 4 => a != b | _ => a == b

/-- OPEN (R97): pushes BA and its operation; NEST_OVF at depth 16; operations 6 and 7 are ILLEGAL. -/
def execJOpen (c : Fin 24) (op : BitVec 3) (s : State) : Out' :=
  .next (s.simple c 1 fun k =>
    if 5 < op.toNat then .error ⟨xILLEGAL, none⟩
    else if k.nest = 16 then .error ⟨xNEST_OVF, none⟩
    else .ok ({ k with nstk := nestPut k.nstk k.nest (bit k.ba * 8 + op.toNat), nest := k.nest + 1 }, 0))

/-- CLOSE (R97): pops and combines the saved BA with BA; NEST_UNF at depth 0. -/
def execJClose (c : Fin 24) (s : State) : Out' :=
  .next (s.simple c 1 fun k =>
    if k.nest = 0 then .error ⟨xNEST_UNF, none⟩
    else
      let e := nestEntry k.nstk (k.nest - 1)
      .ok ({ k with nest := k.nest - 1, ba := nestOp (e % 8) (8 ≤ e) k.ba }, 0))

end Sys2Proof.Machine
end

