-- ==== Sys2Proof/Machine/JoraFlow.lean ====
section
/-! DEFINITION. Joraone branches, calls, returns, loops and long forms (R106 to R109). -/

namespace Sys2Proof.Machine

/-- A branch (R106): taken when the condition holds; a target outside instruction SRAM raises IFETCH when taken. -/
def State.branch (s : State) (c : Nat) (disp : BitVec 22) (cond : Core → Bool) : State :=
  if s.executes c then
    let k := s.core c
    if cond k then
      match jumpTarget k.pc disp with
      | .ok t => s.retire c k t 2
      | .error e => s.fail c e
    else s.retire c k (k.pc + 4) 1
  else s.unissued c

/-- B (R106). -/
def execJB (c : Fin 24) (disp : BitVec 22) (s : State) : Out' :=
  .next (s.branch c disp fun _ => true)

/-- BT (R106). -/
def execJBt (c : Fin 24) (disp : BitVec 22) (s : State) : Out' :=
  .next (s.branch c disp fun k => k.ba)

/-- BF (R106). -/
def execJBf (c : Fin 24) (disp : BitVec 22) (s : State) : Out' :=
  .next (s.branch c disp fun k => !k.ba)

/-- BEQ (R106). -/
def execJBeq (c : Fin 24) (disp : BitVec 22) (s : State) : Out' :=
  .next (s.branch c disp fun k => k.z)

/-- BNE (R106). -/
def execJBne (c : Fin 24) (disp : BitVec 22) (s : State) : Out' :=
  .next (s.branch c disp fun k => !k.z)

/-- BLT (R106). -/
def execJBlt (c : Fin 24) (disp : BitVec 22) (s : State) : Out' :=
  .next (s.branch c disp fun k => k.n != k.v)

/-- BGE (R106). -/
def execJBge (c : Fin 24) (disp : BitVec 22) (s : State) : Out' :=
  .next (s.branch c disp fun k => k.n == k.v)

/-- BLTU (R106). -/
def execJBltu (c : Fin 24) (disp : BitVec 22) (s : State) : Out' :=
  .next (s.branch c disp fun k => k.c)

/-- BGEU (R106). -/
def execJBgeu (c : Fin 24) (disp : BitVec 22) (s : State) : Out' :=
  .next (s.branch c disp fun k => !k.c)

/-- BMI (R106). -/
def execJBmi (c : Fin 24) (disp : BitVec 22) (s : State) : Out' :=
  .next (s.branch c disp fun k => k.n)

/-- BPL (R106). -/
def execJBpl (c : Fin 24) (disp : BitVec 22) (s : State) : Out' :=
  .next (s.branch c disp fun k => !k.n)

/-- BVS (R106). -/
def execJBvs (c : Fin 24) (disp : BitVec 22) (s : State) : Out' :=
  .next (s.branch c disp fun k => k.v)

/-- BVC (R106). -/
def execJBvc (c : Fin 24) (disp : BitVec 22) (s : State) : Out' :=
  .next (s.branch c disp fun k => !k.v)

/-- Push the return address as 64 bits and go on at `t` (R107); the core halts with XSTACK where SP would pass SLIMIT
(R108). -/
def State.callTo (s : State) (c : Nat) (t : BitVec 17) : State :=
  let k := s.core c
  if k.noRoom 8 then s.haltCore c 2
  else if s.overlayFull (c / 4) 8 then s.shadowHalt (c / 4)
  else
    let a := k.sp.toNat - 8
    let s := s.lwbs (c / 4) (lineOf c (.data a)) (dataKey c a) (leBytes 8 (k.pc + 4).toNat)
    s.retire c { k with sp := BitVec.ofNat 16 a } t 2

/-- CALL (R107). -/
def execJCall (c : Fin 24) (disp : BitVec 18) (s : State) : Out' :=
  .next (if s.executes c then
    match jumpTarget (s.core c).pc disp with
    | .ok t => s.callTo c t
    | .error e => s.fail c e
  else s.unissued c)

/-- CALLP (R107): the target is P − 0x00_2020_0000; outside instruction SRAM it raises IFETCH. -/
def execJCallp (c : Fin 24) (p : Fin 4) (s : State) : Out' :=
  .next (if s.executes c then
    match viewOf ((s.core c).p.get p).toNat with
    | .instr o => s.callTo c (BitVec.ofNat 17 (o / 4 * 4))
    | _ => s.fail c ⟨xIFETCH, none⟩
  else s.unissued c)

/-- RET (R107): PC takes bits [16:0] of the 64-bit word at SP, SP rises by 8. A word not a multiple of 4 has its low
bits read as 0 (R87); one that leaves instruction SRAM raises IFETCH (R127). -/
def execJRet (c : Fin 24) (s : State) : Out' :=
  .next (if s.executes c then
    let k := s.core c
    if 0x10000 < k.sp.toNat + 8 then s.fail c ⟨xDBUS, some (BitVec.ofNat 40 (0x20000000 + k.sp.toNat))⟩
    else s.checked c 8 (.data k.sp.toNat) fun s =>
      let x := leNat (s.lrbs (c / 4) (dataKey c k.sp.toNat) 8)
      s.retire c { k with sp := k.sp + 8 } (BitVec.ofNat 17 (x % 2 ^ 17 / 4 * 4)) 3
  else s.unissued c)

/-- LOOP (R107): decrements and branches while the result is not 0; flags unchanged. -/
def execJLoop (c : Fin 24) (wd : Fin 16) (disp : BitVec 18) (s : State) : Out' :=
  .next (if s.executes c then
    let k := s.core c
    let x := k.w.get wd - 1
    let k' := { k with w := k.w.set wd x }
    if x = 0 then s.retire c k' (k.pc + 4) 1
    else match jumpTarget k.pc disp with
      | .ok t => s.retire c k' t 2
      | .error e => s.fail c e
  else s.unissued c)

/-- A long form, two words, the second fetched after the first (R109). -/
def State.long (s : State) (c : Nat) (f : Core → Core × BitVec 7) : State :=
  if s.executes c then
    s.checked c 4 (.instr ((s.core c).pc + 4).toNat) fun s =>
      let r := f (s.core c)
      s.retire c r.1 ((s.core c).pc + 8) 2 r.2
  else s.unissued c

/-- LDI (R109). -/
def execJLdi (c : Fin 24) (wd : Fin 16) (imm : BitVec 32) (s : State) : Out' :=
  .next (s.long c fun k => ({ k with w := k.w.set wd (sx64 imm) }, 0))

/-- LDIH (R109). -/
def execJLdih (c : Fin 24) (wd : Fin 16) (imm : BitVec 32) (s : State) : Out' :=
  .next (s.long c fun k => ({ k with w := k.w.set wd (imm ++ (k.w.get wd).truncate 32) }, 0))

/-- FLDI (R109): the immediate read as binary32, widened exactly. -/
def execJFldi (c : Fin 24) (wd : Fin 16) (imm : BitVec 32) (s : State) : Out' :=
  .next (s.long c fun k => (k.fp wd (Fp.widen imm.toNat), BitVec.ofNat 7 (Fp.widen imm.toNat).2))

/-- LPI (R109). -/
def execJLpi (c : Fin 24) (pd : Fin 4) (imm8 : BitVec 8) (imm : BitVec 32) (s : State) : Out' :=
  .next (s.long c fun k => ({ k with p := k.p.set pd (imm8 ++ imm) }, 0))

end Sys2Proof.Machine
end

