-- ==== Sys2Proof/Machine/JoraFp.lean ====
section
/-! DEFINITION. Joraone FP64, compare, move, convert and pointer instructions (R102 to R105). -/

namespace Sys2Proof.Machine

/-- The bits of a word register as a number. -/
def Core.wn (k : Core) (i : Fin 16) : Nat := (k.w.get i).toNat

/-- An FP64 instruction: WD takes the result, the sticky flags are set (R102). -/
def State.fpOp (s : State) (c : Nat) (wd : Fin 16) (cyc : Nat) (f : Core → Nat × Nat) : State :=
  s.simple c cyc fun k => .ok (k.fp wd (f k), BitVec.ofNat 7 (f k).2)

/-- The second operand of a compare, sign-extended. -/
def cmpOperand (k : Core) : CmpRef → BitVec 64
  | .reg wb => k.w.get wb
  | .imm i => sx64 i

/-- An integer compare (R103): the condition goes into BA by M; an M of 4 to 7 is ILLEGAL. -/
def State.cmpOp (s : State) (c : Nat) (m : BitVec 3) (wa : Fin 16) (o : CmpRef) (f : BitVec 64 → BitVec 64 → Bool) :
    State :=
  s.simple c 1 fun k =>
    if 3 < m.toNat then .error ⟨xILLEGAL, none⟩
    else .ok ({ k with ba := combine m.toNat k.ba (f (k.w.get wa) (cmpOperand k o)) }, 0)

/-- An FP64 compare (R103): `f` gives the condition, `quiet` says that only a signalling NaN sets FI. -/
def State.fcmpOp (s : State) (c : Nat) (m : BitVec 3) (wa wb : Fin 16) (quiet : Bool) (f : Fp.Cmp → Bool) : State :=
  s.simple c 1 fun k =>
    if 3 < m.toNat then .error ⟨xILLEGAL, none⟩
    else
      let x := Fp.cmp (k.wn wa) (k.wn wb)
      let fl : BitVec 7 := if x.snan || (x.un && !quiet) then 16 else 0
      .ok ({ k with ba := combine m.toNat k.ba (f x), sf := k.sf ||| fl }, fl)

/-- A conversion to an integer of 64 bits (R104). -/
def convInt (r : Int × Nat) : Nat × Nat := (ofSigned 64 r.1, r.2)

/-- FADD (R102). -/
def execJFadd (c : Fin 24) (wd wa wb : Fin 16) (s : State) : Out' :=
  .next (s.fpOp c wd 1 fun k => Fp.add (k.wn wa) (k.wn wb))

/-- FSUB (R102). -/
def execJFsub (c : Fin 24) (wd wa wb : Fin 16) (s : State) : Out' :=
  .next (s.fpOp c wd 1 fun k => Fp.sub (k.wn wa) (k.wn wb))

/-- FMUL (R102). -/
def execJFmul (c : Fin 24) (wd wa wb : Fin 16) (s : State) : Out' :=
  .next (s.fpOp c wd 1 fun k => Fp.mul (k.wn wa) (k.wn wb))

/-- FDIV (R102). -/
def execJFdiv (c : Fin 24) (wd wa wb : Fin 16) (s : State) : Out' :=
  .next (s.fpOp c wd 22 fun k => Fp.div (k.wn wa) (k.wn wb))

/-- FMIN (R102). -/
def execJFmin (c : Fin 24) (wd wa wb : Fin 16) (s : State) : Out' :=
  .next (s.fpOp c wd 1 fun k => Fp.minmax false (k.wn wa) (k.wn wb))

/-- FMAX (R102). -/
def execJFmax (c : Fin 24) (wd wa wb : Fin 16) (s : State) : Out' :=
  .next (s.fpOp c wd 1 fun k => Fp.minmax true (k.wn wa) (k.wn wb))

/-- FMA (R102): one rounding. -/
def execJFma (c : Fin 24) (wd wa wb : Fin 16) (s : State) : Out' :=
  .next (s.fpOp c wd 1 fun k => Fp.fma false (k.wn wd) (k.wn wa) (k.wn wb))

/-- FMS (R102): one rounding. -/
def execJFms (c : Fin 24) (wd wa wb : Fin 16) (s : State) : Out' :=
  .next (s.fpOp c wd 1 fun k => Fp.fma true (k.wn wd) (k.wn wa) (k.wn wb))

/-- FSQRT (R102). -/
def execJFsqrt (c : Fin 24) (wd wa : Fin 16) (s : State) : Out' :=
  .next (s.fpOp c wd 24 fun k => Fp.sqrt (k.wn wa))

/-- FABS (R102): a NaN gives the quiet NaN, as every NaN result is (log 28). -/
def execJFabs (c : Fin 24) (wd wa : Fin 16) (s : State) : Out' :=
  .next (s.fpOp c wd 1 fun k => (Fp.quiet (k.wn wa) (Fp.abs (k.wn wa)), 0))

/-- FNEG (R102): a NaN gives the quiet NaN (log 28). -/
def execJFneg (c : Fin 24) (wd wa : Fin 16) (s : State) : Out' :=
  .next (s.fpOp c wd 1 fun k => (Fp.quiet (k.wn wa) (Fp.neg (k.wn wa)), 0))

/-- EQ (R103). -/
def execJEq (c : Fin 24) (m : BitVec 3) (wa : Fin 16) (o : CmpRef) (s : State) : Out' :=
  .next (s.cmpOp c m wa o fun a b => a == b)

/-- NE (R103). -/
def execJNe (c : Fin 24) (m : BitVec 3) (wa : Fin 16) (o : CmpRef) (s : State) : Out' :=
  .next (s.cmpOp c m wa o fun a b => a != b)

/-- LT (R103). -/
def execJLt (c : Fin 24) (m : BitVec 3) (wa : Fin 16) (o : CmpRef) (s : State) : Out' :=
  .next (s.cmpOp c m wa o fun a b => a.slt b)

/-- LE (R103). -/
def execJLe (c : Fin 24) (m : BitVec 3) (wa : Fin 16) (o : CmpRef) (s : State) : Out' :=
  .next (s.cmpOp c m wa o fun a b => a.sle b)

/-- GT (R103). -/
def execJGt (c : Fin 24) (m : BitVec 3) (wa : Fin 16) (o : CmpRef) (s : State) : Out' :=
  .next (s.cmpOp c m wa o fun a b => b.slt a)

/-- GE (R103). -/
def execJGe (c : Fin 24) (m : BitVec 3) (wa : Fin 16) (o : CmpRef) (s : State) : Out' :=
  .next (s.cmpOp c m wa o fun a b => b.sle a)

/-- LTU (R103). -/
def execJLtu (c : Fin 24) (m : BitVec 3) (wa : Fin 16) (o : CmpRef) (s : State) : Out' :=
  .next (s.cmpOp c m wa o fun a b => a.ult b)

/-- LEU (R103). -/
def execJLeu (c : Fin 24) (m : BitVec 3) (wa : Fin 16) (o : CmpRef) (s : State) : Out' :=
  .next (s.cmpOp c m wa o fun a b => a.ule b)

/-- GTU (R103). -/
def execJGtu (c : Fin 24) (m : BitVec 3) (wa : Fin 16) (o : CmpRef) (s : State) : Out' :=
  .next (s.cmpOp c m wa o fun a b => b.ult a)

/-- GEU (R103). -/
def execJGeu (c : Fin 24) (m : BitVec 3) (wa : Fin 16) (o : CmpRef) (s : State) : Out' :=
  .next (s.cmpOp c m wa o fun a b => b.ule a)

/-- FEQ (R103). -/
def execJFeq (c : Fin 24) (m : BitVec 3) (wa wb : Fin 16) (s : State) : Out' :=
  .next (s.fcmpOp c m wa wb true fun x => !x.un && x.eq)

/-- FNE (R103). -/
def execJFne (c : Fin 24) (m : BitVec 3) (wa wb : Fin 16) (s : State) : Out' :=
  .next (s.fcmpOp c m wa wb true fun x => x.un || !x.eq)

/-- FLT (R103). -/
def execJFlt (c : Fin 24) (m : BitVec 3) (wa wb : Fin 16) (s : State) : Out' :=
  .next (s.fcmpOp c m wa wb false fun x => !x.un && x.lt)

/-- FLE (R103). -/
def execJFle (c : Fin 24) (m : BitVec 3) (wa wb : Fin 16) (s : State) : Out' :=
  .next (s.fcmpOp c m wa wb false fun x => !x.un && (x.lt || x.eq))

/-- FGT (R103). -/
def execJFgt (c : Fin 24) (m : BitVec 3) (wa wb : Fin 16) (s : State) : Out' :=
  .next (s.fcmpOp c m wa wb false fun x => !x.un && !x.lt && !x.eq)

/-- FGE (R103). -/
def execJFge (c : Fin 24) (m : BitVec 3) (wa wb : Fin 16) (s : State) : Out' :=
  .next (s.fcmpOp c m wa wb false fun x => !x.un && !x.lt)

/-- FUN (R103). -/
def execJFun (c : Fin 24) (m : BitVec 3) (wa wb : Fin 16) (s : State) : Out' :=
  .next (s.fcmpOp c m wa wb true fun x => x.un)

/-- MOV (R104). -/
def execJMov (c : Fin 24) (wd wa : Fin 16) (s : State) : Out' :=
  .next (s.simple c 1 fun k => .ok ({ k with w := k.w.set wd (k.w.get wa) }, 0))

/-- ITOF (R104). -/
def execJItof (c : Fin 24) (wd wa : Fin 16) (s : State) : Out' :=
  .next (s.fpOp c wd 1 fun k => Fp.ofInt (k.w.get wa).toInt)

/-- UTOF (R104). -/
def execJUtof (c : Fin 24) (wd wa : Fin 16) (s : State) : Out' :=
  .next (s.fpOp c wd 1 fun k => Fp.ofInt (k.wn wa))

/-- FTOI (R104). -/
def execJFtoi (c : Fin 24) (wd wa : Fin 16) (s : State) : Out' :=
  .next (s.fpOp c wd 1 fun k => convInt (Fp.toInt false (-(2 ^ 63)) (2 ^ 63 - 1) (k.wn wa)))

/-- FTOIR (R104). -/
def execJFtoir (c : Fin 24) (wd wa : Fin 16) (s : State) : Out' :=
  .next (s.fpOp c wd 1 fun k => convInt (Fp.toInt true (-(2 ^ 63)) (2 ^ 63 - 1) (k.wn wa)))

/-- FTOU (R104). -/
def execJFtou (c : Fin 24) (wd wa : Fin 16) (s : State) : Out' :=
  .next (s.fpOp c wd 1 fun k => convInt (Fp.toInt false 0 (2 ^ 64 - 1) (k.wn wa)))

/-- BATOW (R104). -/
def execJBatow (c : Fin 24) (wd : Fin 16) (s : State) : Out' :=
  .next (s.simple c 1 fun k => .ok ({ k with w := k.w.set wd (BitVec.ofNat 64 (bit k.ba)) }, 0))

/-- WTOBA (R104): WA ≠ 0 goes into BA by M. -/
def execJWtoba (c : Fin 24) (m : BitVec 3) (wa : Fin 16) (s : State) : Out' :=
  .next (s.cmpOp c m wa (.imm 0) fun a b => a != b)

/-- A pointer instruction: P[PD] takes a value (R105). -/
def State.ptrOp (s : State) (c : Nat) (pd : Fin 4) (f : Core → BitVec 40) : State :=
  s.simple c 1 fun k => .ok ({ k with p := k.p.set pd (f k) }, 0)

/-- MOVP (R105). -/
def execJMovp (c : Fin 24) (pd : Fin 4) (wa : Fin 16) (s : State) : Out' :=
  .next (s.ptrOp c pd fun k => (k.w.get wa).truncate 40)

/-- MOVWP (R105). -/
def execJMovwp (c : Fin 24) (pd : Fin 4) (wa : Fin 16) (s : State) : Out' :=
  .next (s.simple c 1 fun k => .ok ({ k with w := k.w.set wa ((k.p.get pd).zeroExtend 64) }, 0))

/-- ADDP (R105): modulo 2⁴⁰. -/
def execJAddp (c : Fin 24) (pd : Fin 4) (imm : BitVec 16) (s : State) : Out' :=
  .next (s.ptrOp c pd fun k => k.p.get pd + sx40 imm)

/-- ADDPW (R105): modulo 2⁴⁰. -/
def execJAddpw (c : Fin 24) (pd : Fin 4) (wa : Fin 16) (s : State) : Out' :=
  .next (s.ptrOp c pd fun k => k.p.get pd + (k.w.get wa).truncate 40)

end Sys2Proof.Machine
end

