-- ==== Sys2Proof/Machine/JoraInst.lean ====
section
/-! DEFINITION. Joraone timer, counter and edge instances (R112 to R119). -/

namespace Sys2Proof.Machine

/-- The KEY and the CTRL word of the instance at a data SRAM offset, and a 64-bit field of it. -/
def State.instKey (s : State) (c o : Nat) : Nat := leNat (s.lrbs (c / 4) (dataKey c o) 4)
def State.instCtrl (s : State) (c o : Nat) : Nat := leNat (s.lrbs (c / 4) (dataKey c (o + 4)) 4)
def State.instField (s : State) (c o : Nat) : Nat := leNat (s.lrbs (c / 4) (dataKey c o) 8)

/-- Write `n` bytes of an instance; every field lies in one copy line. -/
def State.instPut (s : State) (c o n v : Nat) : State :=
  s.lwbs (c / 4) (lineOf c (.data o)) (dataKey c o) (leBytes n v)

/-- The checks of R113: alignment and place, KEY, KIND; an instance that cannot be read raises ECC (R127). -/
def State.instCheck (s : State) (c size : Nat) (r : InstRef) (kinds : List Nat) : Except Exc Nat :=
  match instTarget (s.core c) size r with
  | .error e => .error e
  | .ok o =>
    if s.viewBad c size (.data o) then .error ⟨xECC, some (BitVec.ofNat 40 (0x20000000 + o))⟩
    else if s.instKey c o = 0 ∨ bits (s.instCtrl c o) 4 4 ∉ kinds then
      .error ⟨xINSTANCE, some (BitVec.ofNat 40 (0x20000000 + o))⟩
    else .ok o

/-- The quay's generation (R114). -/
def State.gen (s : State) (c : Nat) : Nat := s.g BRN_QUAY_GEN_GEN (dQuay (c / 4))

/-- The frame of every instance instruction: checks, the effect on the instance and BA at its offset, retirement. -/
def State.instOp (s : State) (c size n : Nat) (r : InstRef) (kinds : List Nat) (cyc : Nat)
    (f : Nat → Bool × State) : State :=
  if s.executes c then
    match s.instCheck c size r kinds with
    | .error e => s.fail c e
    | .ok o =>
      if s.overlayFull (c / 4) n then s.shadowHalt (c / 4)
      else
        let x := f o
        (x.2.viewSeen c size (.data o)).retire c { x.2.core c with ba := x.1 } ((x.2.core c).pc + 4) cyc
  else s.unissued c

/-! ## Timers (R114 to R116) -/

structure Timer where
  pt     : Nat
  et     : Nat
  last   : Nat
  q      : Bool
  inPrev : Bool
  run    : Bool

/-- The interval of an evaluation (R115). -/
def timerDelta (stamp last : Nat) : Nat := (toSigned 64 (ofSigned 64 ((stamp : Int) - last))).toNat

def Timer.ton (x : Timer) (i : Bool) (d : Nat) : Timer :=
  let et := if i && x.inPrev then min (x.et + d) x.pt else 0
  { x with et := et, q := i && x.pt ≤ et }

def Timer.tof (x : Timer) (i : Bool) (d : Nat) : Timer :=
  if i then { x with et := 0, run := false, q := true }
  else if x.inPrev then { x with et := 0, run := true, q := 0 < x.pt }
  else if x.run then
    let et := min (x.et + d) x.pt
    { x with et := et, q := et < x.pt, run := et < x.pt }
  else { x with q := false }

def Timer.tp (x : Timer) (i : Bool) (d : Nat) : Timer :=
  let y : Timer :=
    if x.run then let et := min (x.et + d) x.pt; { x with et := et, run := et < x.pt }
    else if i && !x.inPrev then { x with et := 0, run := 0 < x.pt }
    else if !i then { x with et := 0 }
    else x
  { y with q := y.run }

/-- The timer at an offset, initialised where it is in first use (R114). -/
def State.timerAt (s : State) (c o : Nat) (i : Bool) (stamp : Nat) : Timer :=
  let ctrl := s.instCtrl c o
  if ctrl / 256 = s.gen c then
    ⟨s.instField c (o + 8), s.instField c (o + 16), s.instField c (o + 24), ctrl.testBit 0, ctrl.testBit 1,
      ctrl.testBit 2⟩
  else ⟨s.instField c (o + 8), 0, stamp, false, i, false⟩

/-- A timer instruction: `f` is its evaluation (R116). -/
def State.timerOp (s : State) (c kind : Nat) (r : InstRef) (f : Timer → Bool → Nat → Timer) : State :=
  s.instOp c 32 20 r [kind] 6 fun o =>
    let i := (s.core c).ba
    let stamp := (s.core c).stamp.toNat
    let x := s.timerAt c o i stamp
    let y := f x i (timerDelta stamp x.last)
    let ctrl := s.gen c * 256 + s.instCtrl c o % 256 / 8 * 8 + bit y.run * 4 + bit i * 2 + bit y.q
    (y.q, ((s.instPut c (o + 4) 4 ctrl).instPut c (o + 16) 8 y.et).instPut c (o + 24) 8 stamp)

/-- TON (R116). -/
def execJTon (c : Fin 24) (r : InstRef) (s : State) : Out' := .next (s.timerOp c 1 r Timer.ton)

/-- TOF (R116). -/
def execJTof (c : Fin 24) (r : InstRef) (s : State) : Out' := .next (s.timerOp c 2 r Timer.tof)

/-- TP (R116). -/
def execJTp (c : Fin 24) (r : InstRef) (s : State) : Out' := .next (s.timerOp c 3 r Timer.tp)

/-! ## Counters (R114, R117) -/

structure Counter where
  pv     : Int
  cv     : Int
  lLevel : Bool
  rLevel : Bool
  cdPrev : Bool
  cuPrev : Bool

/-- Saturation at −2⁶³ and 2⁶³ − 1. -/
def satCv (i : Int) : Int := max (-(2 ^ 63)) (min (2 ^ 63 - 1) i)

def State.counterAt (s : State) (c o : Nat) (i : Bool) : Counter :=
  let ctrl := s.instCtrl c o
  if ctrl / 256 = s.gen c then
    ⟨toSigned 64 (s.instField c (o + 8)), toSigned 64 (s.instField c (o + 16)), ctrl.testBit 3, ctrl.testBit 2,
      ctrl.testBit 1, ctrl.testBit 0⟩
  else ⟨toSigned 64 (s.instField c (o + 8)), toSigned 64 (s.instField c (o + 24)), false, false, i, i⟩

/-- A counter instruction: `f` gives BA and the counter (R117). -/
def State.counterOp (s : State) (c : Nat) (kinds : List Nat) (r : InstRef) (f : Counter → Bool → Bool × Counter) :
    State :=
  s.instOp c 32 12 r kinds 3 fun o =>
    let i := (s.core c).ba
    let x := f (s.counterAt c o i) i
    let y := x.2
    let kind := bits (s.instCtrl c o) 4 4
    let ctrl := s.gen c * 256 + kind * 16 + bit y.lLevel * 8 + bit y.rLevel * 4 + bit y.cdPrev * 2 + bit y.cuPrev
    (x.1, (s.instPut c (o + 4) 4 ctrl).instPut c (o + 16) 8 (ofSigned 64 y.cv))

/-- CU (R117). -/
def execJCu (c : Fin 24) (r : InstRef) (s : State) : Out' :=
  .next (s.counterOp c [4, 6] r fun x i =>
    (i, { x with cv := if i && !x.cuPrev && !x.rLevel then satCv (x.cv + 1) else x.cv, cuPrev := i }))

/-- CD (R117). -/
def execJCd (c : Fin 24) (r : InstRef) (s : State) : Out' :=
  .next (s.counterOp c [5, 6] r fun x i =>
    (i, { x with cv := if i && !x.cdPrev && !x.lLevel then satCv (x.cv - 1) else x.cv, cdPrev := i }))

/-- CR (R117). -/
def execJCr (c : Fin 24) (r : InstRef) (s : State) : Out' :=
  .next (s.counterOp c [4, 6] r fun x i => (i, { x with rLevel := i, cv := if i then 0 else x.cv }))

/-- CL (R117). -/
def execJCl (c : Fin 24) (r : InstRef) (s : State) : Out' :=
  .next (s.counterOp c [5, 6] r fun x i => (i, { x with lLevel := i, cv := if i then x.pv else x.cv }))

/-- CQU (R117). -/
def execJCqu (c : Fin 24) (r : InstRef) (s : State) : Out' :=
  .next (s.counterOp c [4, 5, 6] r fun x _ => (x.pv ≤ x.cv, x))

/-- CQD (R117). -/
def execJCqd (c : Fin 24) (r : InstRef) (s : State) : Out' :=
  .next (s.counterOp c [4, 5, 6] r fun x _ => (x.cv ≤ 0, x))

/-! ## Edges (R114, R118) -/

/-- An edge instruction: `f` gives BA from the input and MEM. -/
def State.edgeOp (s : State) (c : Nat) (r : InstRef) (f : Bool → Bool → Bool) : State :=
  s.instOp c 8 4 r [7] 2 fun o =>
    let i := (s.core c).ba
    let ctrl := s.instCtrl c o
    let m := if ctrl / 256 = s.gen c then ctrl.testBit 0 else i
    (f i m, s.instPut c (o + 4) 4 (s.gen c * 256 + ctrl % 256 / 2 * 2 + bit i))

/-- EDGP (R118). -/
def execJEdgp (c : Fin 24) (r : InstRef) (s : State) : Out' := .next (s.edgeOp c r fun i m => i && !m)

/-- EDGN (R118). -/
def execJEdgn (c : Fin 24) (r : InstRef) (s : State) : Out' := .next (s.edgeOp c r fun i m => !i && m)

end Sys2Proof.Machine
end

