-- ==== Sys2Proof/Machine/JoraInt.lean ====
section
/-! DEFINITION. Joraone integer instructions (R100, R101). -/

namespace Sys2Proof.Machine

/-- Register form: WD takes the result of WA and WB, with the flags and sticky flags it gives. -/
def State.aluRR (s : State) (c : Nat) (wd wa wb : Fin 16) (cyc : Nat) (f : BitVec 64 → BitVec 64 → AluRes) : State :=
  s.simple c cyc fun k => let r := f (k.w.get wa) (k.w.get wb); .ok (k.alu wd r, r.sf)

/-- Immediate form: the second operand is the sign-extended 14-bit immediate. -/
def State.aluRI (s : State) (c : Nat) (wd wa : Fin 16) (imm : BitVec 14) (f : BitVec 64 → BitVec 64 → AluRes) : State :=
  s.simple c 1 fun k => let r := f (k.w.get wa) (sx64 imm); .ok (k.alu wd r, r.sf)

/-- ADD (R100). -/
def execJAdd (c : Fin 24) (wd wa wb : Fin 16) (s : State) : Out' :=
  .next (s.aluRR c wd wa wb 1 aluAdd)

/-- SUB (R100). -/
def execJSub (c : Fin 24) (wd wa wb : Fin 16) (s : State) : Out' :=
  .next (s.aluRR c wd wa wb 1 aluSub)

/-- IAND (R100). -/
def execJIand (c : Fin 24) (wd wa wb : Fin 16) (s : State) : Out' :=
  .next (s.aluRR c wd wa wb 1 aluAnd)

/-- IOR (R100). -/
def execJIor (c : Fin 24) (wd wa wb : Fin 16) (s : State) : Out' :=
  .next (s.aluRR c wd wa wb 1 aluOr)

/-- IXOR (R100). -/
def execJIxor (c : Fin 24) (wd wa wb : Fin 16) (s : State) : Out' :=
  .next (s.aluRR c wd wa wb 1 aluXor)

/-- SHL (R100). -/
def execJShl (c : Fin 24) (wd wa wb : Fin 16) (s : State) : Out' :=
  .next (s.aluRR c wd wa wb 1 aluShl)

/-- SHR (R100). -/
def execJShr (c : Fin 24) (wd wa wb : Fin 16) (s : State) : Out' :=
  .next (s.aluRR c wd wa wb 1 aluShr)

/-- SAR (R100). -/
def execJSar (c : Fin 24) (wd wa wb : Fin 16) (s : State) : Out' :=
  .next (s.aluRR c wd wa wb 1 aluSar)

/-- MUL (R100). -/
def execJMul (c : Fin 24) (wd wa wb : Fin 16) (s : State) : Out' :=
  .next (s.aluRR c wd wa wb 1 aluMul)

/-- MULHS (R100). -/
def execJMulhs (c : Fin 24) (wd wa wb : Fin 16) (s : State) : Out' :=
  .next (s.aluRR c wd wa wb 1 aluMulhs)

/-- MULHU (R100). -/
def execJMulhu (c : Fin 24) (wd wa wb : Fin 16) (s : State) : Out' :=
  .next (s.aluRR c wd wa wb 1 aluMulhu)

/-- DIVS (R100). -/
def execJDivs (c : Fin 24) (wd wa wb : Fin 16) (s : State) : Out' :=
  .next (s.aluRR c wd wa wb 34 aluDivs)

/-- DIVU (R100). -/
def execJDivu (c : Fin 24) (wd wa wb : Fin 16) (s : State) : Out' :=
  .next (s.aluRR c wd wa wb 34 aluDivu)

/-- REMS (R100). -/
def execJRems (c : Fin 24) (wd wa wb : Fin 16) (s : State) : Out' :=
  .next (s.aluRR c wd wa wb 34 aluRems)

/-- REMU (R100). -/
def execJRemu (c : Fin 24) (wd wa wb : Fin 16) (s : State) : Out' :=
  .next (s.aluRR c wd wa wb 34 aluRemu)

/-- MIN (R100). -/
def execJMin (c : Fin 24) (wd wa wb : Fin 16) (s : State) : Out' :=
  .next (s.aluRR c wd wa wb 1 aluMin)

/-- MAX (R100). -/
def execJMax (c : Fin 24) (wd wa wb : Fin 16) (s : State) : Out' :=
  .next (s.aluRR c wd wa wb 1 aluMax)

/-- MINU (R100). -/
def execJMinu (c : Fin 24) (wd wa wb : Fin 16) (s : State) : Out' :=
  .next (s.aluRR c wd wa wb 1 aluMinu)

/-- MAXU (R100). -/
def execJMaxu (c : Fin 24) (wd wa wb : Fin 16) (s : State) : Out' :=
  .next (s.aluRR c wd wa wb 1 aluMaxu)

/-- ADDSAT (R100). -/
def execJAddsat (c : Fin 24) (wd wa wb : Fin 16) (s : State) : Out' :=
  .next (s.aluRR c wd wa wb 1 aluAddsat)

/-- SUBSAT (R100). -/
def execJSubsat (c : Fin 24) (wd wa wb : Fin 16) (s : State) : Out' :=
  .next (s.aluRR c wd wa wb 1 aluSubsat)

/-- ABS (R100). WB plays no part. -/
def execJAbs (c : Fin 24) (wd wa wb : Fin 16) (s : State) : Out' :=
  .next (s.aluRR c wd wa wb 1 aluAbs)

/-- NEG (R100). WB plays no part. -/
def execJNeg (c : Fin 24) (wd wa wb : Fin 16) (s : State) : Out' :=
  .next (s.aluRR c wd wa wb 1 aluNeg)

/-- ADDI (R100). -/
def execJAddi (c : Fin 24) (wd wa : Fin 16) (imm : BitVec 14) (s : State) : Out' :=
  .next (s.aluRI c wd wa imm aluAdd)

/-- ANDI (R100). -/
def execJAndi (c : Fin 24) (wd wa : Fin 16) (imm : BitVec 14) (s : State) : Out' :=
  .next (s.aluRI c wd wa imm aluAnd)

/-- ORI (R100). -/
def execJOri (c : Fin 24) (wd wa : Fin 16) (imm : BitVec 14) (s : State) : Out' :=
  .next (s.aluRI c wd wa imm aluOr)

/-- XORI (R100). -/
def execJXori (c : Fin 24) (wd wa : Fin 16) (imm : BitVec 14) (s : State) : Out' :=
  .next (s.aluRI c wd wa imm aluXor)

/-- SHLI (R100). -/
def execJShli (c : Fin 24) (wd wa : Fin 16) (imm : BitVec 14) (s : State) : Out' :=
  .next (s.aluRI c wd wa imm aluShl)

/-- SHRI (R100). -/
def execJShri (c : Fin 24) (wd wa : Fin 16) (imm : BitVec 14) (s : State) : Out' :=
  .next (s.aluRI c wd wa imm aluShr)

/-- SARI (R100). -/
def execJSari (c : Fin 24) (wd wa : Fin 16) (imm : BitVec 14) (s : State) : Out' :=
  .next (s.aluRI c wd wa imm aluSar)

/-- MULI (R100). -/
def execJMuli (c : Fin 24) (wd wa : Fin 16) (imm : BitVec 14) (s : State) : Out' :=
  .next (s.aluRI c wd wa imm aluMul)

end Sys2Proof.Machine
end

