-- ==== Sys2Proof/Machine/JoraMem.lean ====
section
/-! DEFINITION. Joraone word loads and stores (R99, R89, R415), and the error response to a posted store (R128).
Readings and choices: DEDUCED log 4, 29; DESIGN CHOICE log 15. -/

namespace Sys2Proof.Machine

/-- The cycles a load occupies the core (R110): 1 from its own SRAMs; 18 from shared SRAM; from DDR or MRAM with a memory
time, and from a window within 200 ns, that the spec leaves open. -/
def State.loadCycles (s : State) (a : Nat) : Nat × State :=
  if inSram a 1 then (18, s)
  else
    let x := s.draw
    (if inWindow a 1 then x.1 % 161 else 18 + x.1, x.2)

/-- The value of `n` bytes that a load of core `c` finds, at an address of its view: its own SRAMs under the overlay; the
device map through the fabric, where a standby's own stores show (R415). -/
def State.loadView (s : State) (c n : Nat) : View → Except Exc Nat × State
  | .data o => (.ok (leNat (s.lrbs (c / 4) (dataKey c o) n)), s)
  | .image o => (.ok (leNat (s.lrbs (c / 4) (imageKey (c / 4) o) n)), s)
  | .instr o => (.ok (s.rle (instrKey c o) n), s)
  | .dev a =>
    let laid := (List.range n).map fun i => AMap.find (s.quay (c / 4)).overlay (a + i)
    match s.busRead c a n with
    | (some v, t) =>
      (.ok (leNat ((leBytes n v).zipWith (fun b o => match o with | some x => x | none => b) laid)), t)
    | (none, t) => (.error ⟨xDBUS, some (BitVec.ofNat 40 a)⟩, t)

/-- A load of `n` bytes: the register takes `f` of the value. -/
def State.load (s : State) (c n : Nat) (w : Fin 16) (r : WordRef) (f : Nat → BitVec 64) : State :=
  if s.executes c then
    match wordTarget (s.core c) n r with
    | .error e => s.fail c e
    | .ok v => s.checked c n v fun s =>
      match s.loadView c n v with
      | (.error e, t) => t.fail c e
      | (.ok x, t) =>
        let y : Nat × State := match v with | .dev a => t.loadCycles a | _ => (1, t)
        let k := y.2.core c
        y.2.retire c { k with w := k.w.set w (f x) } (k.pc + 4) y.1
  else s.unissued c

/-- An error response to a posted store waits for the next instruction boundary (R128). -/
def State.postError (s : State) (c a : Nat) : State :=
  s.setCore c { s.core c with postErr := (s.core c).postErr ++ [BitVec.ofNat 40 a] }

/-- A store of the low `n` bytes of a register. In STANDBY it lands in the quay's overlay (R415); to the instruction SRAM it
raises DBUS (R89); through the fabric it is posted. -/
def State.store (s : State) (c n : Nat) (w : Fin 16) (r : WordRef) : State :=
  if s.executes c then
    let k := s.core c
    let x := (k.w.get w).toNat % 2 ^ (8 * n)
    match wordTarget k n r with
    | .error e => s.fail c e
    | .ok (.instr o) => s.fail c ⟨xDBUS, some (BitVec.ofNat 40 (0x20200000 + o))⟩
    | .ok v =>
      if s.overlayFull (c / 4) n then s.shadowHalt (c / 4)
      else
        let t := match v, localKey c v with
          | _, some key => s.lwbs (c / 4) (lineOf c v) key (leBytes n x)
          | .dev a, none =>
            if s.shadow then s.lwbs (c / 4) 0 a (leBytes n x)
            else
              let y := s.busWrite c a n x
              if y.1 then y.2 else y.2.postError c a
          | _, none => s
        t.retire c (t.core c) (k.pc + 4) 1
  else s.unissued c

/-- LD8 (R99). -/
def execLd8 (c : Fin 24) (w : Fin 16) (r : WordRef) (s : State) : Out' :=
  .next (s.load c 1 w r fun x => (BitVec.ofNat 8 x).signExtend 64)

/-- LD8U (R99). -/
def execLd8u (c : Fin 24) (w : Fin 16) (r : WordRef) (s : State) : Out' := .next (s.load c 1 w r (BitVec.ofNat 64))

/-- LD16 (R99). -/
def execLd16 (c : Fin 24) (w : Fin 16) (r : WordRef) (s : State) : Out' :=
  .next (s.load c 2 w r fun x => (BitVec.ofNat 16 x).signExtend 64)

/-- LD16U (R99). -/
def execLd16u (c : Fin 24) (w : Fin 16) (r : WordRef) (s : State) : Out' := .next (s.load c 2 w r (BitVec.ofNat 64))

/-- LD32 (R99). -/
def execLd32 (c : Fin 24) (w : Fin 16) (r : WordRef) (s : State) : Out' :=
  .next (s.load c 4 w r fun x => (BitVec.ofNat 32 x).signExtend 64)

/-- LD32U (R99). -/
def execLd32u (c : Fin 24) (w : Fin 16) (r : WordRef) (s : State) : Out' := .next (s.load c 4 w r (BitVec.ofNat 64))

/-- LD64 (R99). -/
def execLd64 (c : Fin 24) (w : Fin 16) (r : WordRef) (s : State) : Out' := .next (s.load c 8 w r (BitVec.ofNat 64))

/-- ST8 (R99). -/
def execSt8 (c : Fin 24) (w : Fin 16) (r : WordRef) (s : State) : Out' := .next (s.store c 1 w r)

/-- ST16 (R99). -/
def execSt16 (c : Fin 24) (w : Fin 16) (r : WordRef) (s : State) : Out' := .next (s.store c 2 w r)

/-- ST32 (R99). -/
def execSt32 (c : Fin 24) (w : Fin 16) (r : WordRef) (s : State) : Out' := .next (s.store c 4 w r)

/-- ST64 (R99). -/
def execSt64 (c : Fin 24) (w : Fin 16) (r : WordRef) (s : State) : Out' := .next (s.store c 8 w r)

/-- POSTED_STORE_ERROR (R128): the oldest error response is taken at the next instruction boundary, at RL 17, whatever the
level and IE: the store's address in XADDR, the next instruction in XPC. A core that waits ends its wait for it. -/
def execPostedStoreError (c : Fin 24) (s : State) : Out' :=
  let k := s.interrupted c
  .next (match k.postErr with
    | [] => s
    | a :: rest =>
      if k.run = .running then (s.setCore c { k with postErr := rest }).takeExc c ⟨xDBUS, some a⟩ k.pc 0 true
      else s)

end Sys2Proof.Machine
end

