-- ==== Sys2Proof/Machine/JoraWord.lean ====
section
/-! DEFINITION. The instruction words (R92 to R94): what the word at a core's PC does, for the one instruction of a debug step
(R136); the rows that write registers, among them the one that steps a core.
Readings and choices: DESIGN CHOICE log 6; DEDUCED log 28. -/

namespace Sys2Proof.Machine

/-! ## Words -/

/-- A register, a pointer, a peer from a field of a word. -/
def regAt (w lo : Nat) : Fin 16 := Fin.ofNat 16 (bits w lo 4)
def ptrAt (w lo : Nat) : Fin 4 := Fin.ofNat 4 (bits w lo 2)
def peerAt (w lo : Nat) : Fin 32 := Fin.ofNat 32 (bits w lo 5)
def fieldAt (n w lo : Nat) : BitVec n := BitVec.ofNat n (bits w lo n)

/-- ILLEGAL (R93): an unassigned encoding, or a field that must be 0 and is not. -/
def illegal (c : Nat) (s : State) : Out' := .next (if s.executes c then s.fail c ⟨xILLEGAL, none⟩ else s.unissued c)

/-- MAJ 0x01 to 0x03: bit logic (R95). -/
def bitLogicWord (c : Fin 24) (f : Nat) (r : BitRef) (s : State) : Out' :=
  match f with
  | 0 => execJLd c r s | 1 => execJLdn c r s | 2 => execJAnd c r s | 3 => execJAndn c r s
  | 4 => execJOr c r s | 5 => execJOrn c r s | 6 => execJXor c r s | 7 => execJXorn c r s
  | _ => illegal c s

/-- MAJ 0x04 to 0x06: bit stores (R95). -/
def bitStoreWord (c : Fin 24) (f : Nat) (r : BitRef) (s : State) : Out' :=
  match f with
  | 0 => execJSt c r s | 1 => execJStn c r s | 2 => execJSet c r s | 3 => execJClr c r s
  | _ => illegal c s

/-- MAJ 0x07: BA and nesting (R97). -/
def baWord (c : Fin 24) (w : Nat) (s : State) : Out' :=
  if bits w 0 20 ≠ 0 then illegal c s
  else match bits w 23 3 with
    | 0 => execJNot c s | 1 => execJBa1 c s | 2 => execJBa0 c s | 3 => execJOpen c (fieldAt 3 w 20) s
    | 4 => execJClose c s | _ => illegal c s

/-- MAJ 0x08 to 0x0A: word loads and stores (R99). -/
def memWord (c : Fin 24) (w : Nat) (r : WordRef) (s : State) : Out' :=
  let d := regAt w 18
  match bits w 22 4 with
  | 0 => execLd8 c d r s | 1 => execLd8u c d r s | 2 => execLd16 c d r s | 3 => execLd16u c d r s
  | 4 => execLd32 c d r s | 5 => execLd32u c d r s | 6 => execLd64 c d r s
  | 8 => execSt8 c d r s | 9 => execSt16 c d r s | 10 => execSt32 c d r s | 11 => execSt64 c d r s
  | _ => illegal c s

/-- MAJ 0x0B: integer, register form (R100). -/
def intWord (c : Fin 24) (f : Nat) (d a b : Fin 16) (s : State) : Out' :=
  match f with
  | 0x00 => execJAdd c d a b s | 0x01 => execJSub c d a b s | 0x02 => execJIand c d a b s | 0x03 => execJIor c d a b s
  | 0x04 => execJIxor c d a b s | 0x05 => execJShl c d a b s | 0x06 => execJShr c d a b s | 0x07 => execJSar c d a b s
  | 0x08 => execJMul c d a b s | 0x09 => execJMulhs c d a b s | 0x0A => execJMulhu c d a b s
  | 0x0B => execJDivs c d a b s | 0x0C => execJDivu c d a b s | 0x0D => execJRems c d a b s
  | 0x0E => execJRemu c d a b s | 0x0F => execJMin c d a b s | 0x10 => execJMax c d a b s
  | 0x11 => execJMinu c d a b s | 0x12 => execJMaxu c d a b s | 0x13 => execJAddsat c d a b s
  | 0x14 => execJSubsat c d a b s | 0x15 => execJAbs c d a b s | 0x16 => execJNeg c d a b s
  | _ => illegal c s

/-- MAJ 0x0C: integer, immediate form (R100). -/
def immWord (c : Fin 24) (w : Nat) (s : State) : Out' :=
  let d := regAt w 18
  let a := regAt w 14
  let i := fieldAt 14 w 0
  match bits w 22 4 with
  | 0 => execJAddi c d a i s | 1 => execJAndi c d a i s | 2 => execJOri c d a i s | 3 => execJXori c d a i s
  | 4 => execJShli c d a i s | 5 => execJShri c d a i s | 6 => execJSari c d a i s | 7 => execJMuli c d a i s
  | _ => illegal c s

/-- MAJ 0x0D: FP64 (R102). -/
def fpWord (c : Fin 24) (f : Nat) (d a b : Fin 16) (s : State) : Out' :=
  match f with
  | 0x00 => execJFadd c d a b s | 0x01 => execJFsub c d a b s | 0x02 => execJFmul c d a b s | 0x03 => execJFdiv c d a b s
  | 0x04 => execJFsqrt c d a s | 0x05 => execJFma c d a b s | 0x06 => execJFms c d a b s | 0x07 => execJFmin c d a b s
  | 0x08 => execJFmax c d a b s | 0x09 => execJFabs c d a s | 0x0A => execJFneg c d a s
  | _ => illegal c s

/-- The compares of integers (R103), and MAJ 0x0E and 0x0F. -/
def cmpWord (c : Fin 24) (f : Nat) (m : BitVec 3) (a : Fin 16) (o : CmpRef) (s : State) : Out' :=
  match f with
  | 0x00 => execJEq c m a o s | 0x01 => execJNe c m a o s | 0x02 => execJLt c m a o s | 0x03 => execJLe c m a o s
  | 0x04 => execJGt c m a o s | 0x05 => execJGe c m a o s | 0x06 => execJLtu c m a o s | 0x07 => execJLeu c m a o s
  | 0x08 => execJGtu c m a o s | 0x09 => execJGeu c m a o s
  | _ => illegal c s
def cmpRegWord (c : Fin 24) (f : Nat) (m : BitVec 3) (a b : Fin 16) (s : State) : Out' :=
  match f with
  | 0x10 => execJFeq c m a b s | 0x11 => execJFne c m a b s | 0x12 => execJFlt c m a b s | 0x13 => execJFle c m a b s
  | 0x14 => execJFgt c m a b s | 0x15 => execJFge c m a b s | 0x16 => execJFun c m a b s
  | _ => cmpWord c f m a (.reg b) s

/-- MAJ 0x10: move and convert (R104). -/
def movWord (c : Fin 24) (f : Nat) (m : BitVec 3) (d a : Fin 16) (s : State) : Out' :=
  match f with
  | 0x00 => execJMov c d a s | 0x01 => execJItof c d a s | 0x02 => execJUtof c d a s | 0x03 => execJFtoi c d a s
  | 0x04 => execJFtoir c d a s | 0x05 => execJFtou c d a s | 0x06 => execJBatow c d s | 0x07 => execJWtoba c m a s
  | _ => illegal c s

/-- The RR formats, whose bits [4:0] are 0. -/
def rrWord (c : Fin 24) (maj w : Nat) (s : State) : Out' :=
  let f := bits w 20 6
  let d := regAt w 16
  let a := regAt w 12
  let b := regAt w 8
  let m := fieldAt 3 w 5
  if bits w 0 5 ≠ 0 then illegal c s
  else match maj with
    | 0x0B => intWord c f d a b s
    | 0x0D => fpWord c f d a b s
    | 0x0E => cmpRegWord c f m a b s
    | _ => movWord c f m d a s

/-- MAJ 0x11: pointers (R105). -/
def ptrWord (c : Fin 24) (w : Nat) (s : State) : Out' :=
  let p := ptrAt w 20
  let a := regAt w 16
  match bits w 22 4 with
  | 0 => execJMovp c p a s | 1 => execJMovwp c p a s | 2 => execJAddp c p (fieldAt 16 w 0) s | 3 => execJAddpw c p a s
  | _ => illegal c s

/-- MAJ 0x12: branches (R106). -/
def branchWord (c : Fin 24) (w : Nat) (s : State) : Out' :=
  let d := fieldAt 22 w 0
  match bits w 22 4 with
  | 0 => execJB c d s | 1 => execJBt c d s | 2 => execJBf c d s | 3 => execJBeq c d s | 4 => execJBne c d s
  | 5 => execJBlt c d s | 6 => execJBge c d s | 7 => execJBltu c d s | 8 => execJBgeu c d s | 9 => execJBmi c d s
  | 10 => execJBpl c d s | 11 => execJBvs c d s | 12 => execJBvc c d s
  | _ => illegal c s

/-- MAJ 0x13: call, return, loop (R107). -/
def callWord (c : Fin 24) (w : Nat) (s : State) : Out' :=
  match bits w 22 4 with
  | 0 => if bits w 18 4 = 0 then execJCall c (fieldAt 18 w 0) s else illegal c s
  | 1 => if bits w 0 20 = 0 then execJRet c s else illegal c s
  | 2 => if bits w 0 20 = 0 then execJCallp c (ptrAt w 20) s else illegal c s
  | 3 => execJLoop c (regAt w 18) (fieldAt 18 w 0) s
  | _ => illegal c s

/-- MAJ 0x14: instances (R118). -/
def instWord (c : Fin 24) (w : Nat) (s : State) : Out' :=
  let r : InstRef := if bits w 21 1 = 1 then .ptr (ptrAt w 19) (fieldAt 16 w 0) else .abs (fieldAt 16 w 0)
  if bits w 16 3 ≠ 0 then illegal c s
  else match bits w 22 4 with
    | 0 => execJTon c r s | 1 => execJTof c r s | 2 => execJTp c r s | 3 => execJCu c r s | 4 => execJCd c r s
    | 5 => execJCr c r s | 6 => execJCl c r s | 7 => execJCqu c r s | 8 => execJCqd c r s | 9 => execJEdgp c r s
    | 10 => execJEdgn c r s
    | _ => illegal c s

/-- MAJ 0x15: Berths (R120). -/
def berthWord (c : Fin 24) (w : Nat) (s : State) : Out' :=
  let d := regAt w 18
  let p := peerAt w 13
  let b := regAt w 9
  if bits w 0 9 ≠ 0 then illegal c s
  else match bits w 22 4 with
    | 0 => execJSend c d p s | 1 => execJRecv c d b p s
    | 2 => if p.val = 0 then execJRecvany c d b s else illegal c s
    | 3 => execJPoll c p s
    | 4 => if p.val = 0 then execJPollany c s else illegal c s
    | _ => illegal c s

/-- MAJ 0x00: system (R123). -/
def sysWord (c : Fin 24) (w : Nat) (s : State) : Out' :=
  let d := regAt w 16
  let r := fieldAt 8 w 8
  match bits w 20 6 with
  | 0x00 => execJNop c s | 0x01 => execJWait c s | 0x02 => execJTend c s | 0x03 => execJReti c s
  | 0x04 => execJTrap c (fieldAt 8 w 0) s | 0x05 => execJBreak c s | 0x06 => execJMfs c d r s | 0x07 => execJMts c r d s
  | 0x08 => execJEi c s | 0x09 => execJDi c s | 0x0A => execJFence c s | 0x0B => execJRdtime c d s
  | 0x0C => execJRdscan c d s
  | _ => illegal c s

/-- MAJ 0x3E: long forms (R109), with their second word; the fields that a form does not use are 0. -/
def longWord (c : Fin 24) (w : Nat) (imm : BitVec 32) (s : State) : Out' :=
  let d := regAt w 16
  let low := bits w 0 16
  match bits w 20 6 with
  | 0x00 => if low = 0 then execJLdi c d imm s else illegal c s
  | 0x01 => if low = 0 then execJLdih c d imm s else illegal c s
  | 0x02 => if low = 0 then execJFldi c d imm s else illegal c s
  | 0x03 => if bits w 16 4 = 0 ∧ bits w 8 6 = 0 then execJLpi c (ptrAt w 14) (fieldAt 8 w 0) imm s else illegal c s
  | 0x04 => if bits w 14 2 = 0 ∧ bits w 0 9 = 0 then execJRecvi c d (peerAt w 9) imm s else illegal c s
  | _ => illegal c s

/-- The instruction of a word (R94), `imm` being the word that follows it. -/
def runWord (c : Fin 24) (w : Nat) (imm : BitVec 32) (s : State) : Out' :=
  let maj := bits w 26 6
  match maj with
  | 0x00 => sysWord c w s
  | 0x01 => bitLogicWord c (bits w 23 3) (.data (fieldAt 23 w 0)) s
  | 0x02 => bitLogicWord c (bits w 23 3) (.image (fieldAt 23 w 0)) s
  | 0x03 => bitLogicWord c (bits w 23 3) (.ptr (ptrAt w 21) (fieldAt 21 w 0)) s
  | 0x04 => bitStoreWord c (bits w 23 3) (.data (fieldAt 23 w 0)) s
  | 0x05 => bitStoreWord c (bits w 23 3) (.image (fieldAt 23 w 0)) s
  | 0x06 => bitStoreWord c (bits w 23 3) (.ptr (ptrAt w 21) (fieldAt 21 w 0)) s
  | 0x07 => baWord c w s
  | 0x08 => memWord c w (.data (fieldAt 18 w 0)) s
  | 0x09 => memWord c w (.image (fieldAt 18 w 0)) s
  | 0x0A => memWord c w (.ptr (ptrAt w 16) (fieldAt 16 w 0)) s
  | 0x0C => immWord c w s
  | 0x0F => cmpWord c (bits w 22 4) (fieldAt 3 w 19) (regAt w 15) (.imm (fieldAt 15 w 0)) s
  | 0x11 => ptrWord c w s
  | 0x12 => branchWord c w s
  | 0x13 => callWord c w s
  | 0x14 => instWord c w s
  | 0x15 => berthWord c w s
  | 0x3E => longWord c w imm s
  | _ => if [0x0B, 0x0D, 0x0E, 0x10].contains maj then rrWord c maj w s else illegal c s

/-! ## A debug step (R136) -/

/-- A core that is stepping executes the instruction at its PC and halts again, whatever that instruction began; where it is a
WAIT, or a RECV that waits, it halts again at the boundary at which the wait ends. -/
def State.stepCore (s : State) (c : Fin 24) : Out' :=
  let k := s.core c
  if k.stepping && k.run == .halted then
    let a := instrKey c k.pc.toNat
    match runWord c (s.rle a 4) (BitVec.ofNat 32 (s.rle (instrKey c ((k.pc + 4).toNat)) 4)) s with
    | .next t =>
      let k := t.core c
      let waits := k.run = .wait ∨ k.run = .recv
      .next { t.setCore c (if waits then k else { k with stepping := false }) with resp := s.resp }
    | x => x
  else .next s

/-- Every core that is stepping does so, in order. -/
def stepAll : List (Fin 24) → State → Out'
  | [], s => .next s
  | c :: t, s =>
    match s.stepCore c with
    | .next u => stepAll t u
    | x => x
def State.stepCores (s : State) : Out' := stepAll (List.finRange 24) s

/-- DEBUG_STEP (R136): STEP is written to a halted core. -/
def execDebugStep (c : Fin 24) (s : State) : Out' := (s.command fun s => s.debugStep c.val).stepCore c

/-! ## Register writes -/

/-- REGISTER_WRITE (R5, R9): a write by a master to any address, of any size. -/
def execRegisterWrite (master : Fin 42) (addr : Addr) (size : AccSize) (value : BitVec 256) (s : State) : Out' :=
  let n := size.bytes
  (answerWrite (s.busWrite master.val addr.toNat n (value.toNat % 2 ^ (8 * n)))).stepCores

/-- PS_WRITE (R60 to R63): a write to a register with PS fields, by its window offset. -/
def execPsWrite (master : Fin 42) (off : BitVec 25) (size : AccSize) (value : BitVec 256) (s : State) : Out' :=
  let n := size.bytes
  .next (match findReg off.toNat regTable with
    | some (r, _) =>
      if r.ps.isEmpty then s
      else answerWrite (s.busWrite master.val (winBase + off.toNat) n (value.toNat % 2 ^ (8 * n)))
    | none => s)

end Sys2Proof.Machine
end

