-- ==== Sys2Proof/Machine/Rings.lean ====
section
/-! DEFINITION. Host command rings: descriptors, the general and Drafting opcodes, completion records, DMA errors (R82 to
R86, R202, R462, R463). Host memory is outside the device: what it answers is a command's operand.
Readings and choices: DEDUCED log 24. -/

namespace Sys2Proof.Machine

/-! ## Descriptors (R85, R86) -/

def dOpcode (d : List Byte) : Nat := fld d 0 2
def dFlags (d : List Byte) : Nat := fld d 2 2
def dTag (d : List Byte) : Nat := fld d 4 4
def dBound (d : List Byte) : Nat := fld d 8 4

def opNOP : Nat := 1
def opREG_WRITE : Nat := 2
def opREG_READ : Nat := 3
def opCOPY : Nat := 4
def opPROOF : Nat := 5
def opPULL : Nat := 6
def opDISCARD : Nat := 7
def opMODE : Nat := 8
def opSUBMIT : Nat := 0x3001
def opCANCEL : Nat := 0x3002

def ringOpcodes : List Nat :=
  [opNOP, opREG_WRITE, opREG_READ, opCOPY, opPROOF, opPULL, opDISCARD, opMODE, opSUBMIT, opCANCEL]

/-- The operands of COPY: source, destination, LENGTH. -/
def copySrc (d : List Byte) : Nat := fld d 16 8
def copyDst (d : List Byte) : Nat := fld d 24 8
def copyLen (d : List Byte) : Nat := fld d 32 4

/-- The register offsets a REG_WRITE or REG_READ names. -/
def regOffsets (d : List Byte) : List Nat :=
  (List.range (fld d 16 4)).map fun i => if dOpcode d = opREG_WRITE then fld d (20 + 8 * i) 4 else fld d (20 + 4 * i) 4

/-- E, the worst execution time of a descriptor, in ns (R86, R202). -/
def descE (d : List Byte) : Nat :=
  let o := dOpcode d
  if o = opNOP then 100 else if o = opREG_WRITE ∨ o = opREG_READ then 700
  else if o = opCOPY then 2000 + copyLen d / 2 else if o = opPROOF then 5000000 else if o = opPULL then 2000
  else if o = opSUBMIT then 600 else 200

/-- Whether an address begins in shared SRAM or DDR. -/
def State.deviceSide (s : State) (a : Nat) : Bool := inSram a 1 || s.inDdr a 1

/-- The device's side of a COPY. -/
def State.copyDevice (s : State) (d : List Byte) : Nat := if s.deviceSide (copySrc d) then copySrc d else copyDst d

/-- The tests of a descriptor itself, in ascending order of their codes (R86); 0 where it passes. -/
def State.descCode (s : State) (d : List Byte) : Nat :=
  let o := dOpcode d
  let count := fld d 16 4
  let regs := o = opREG_WRITE ∨ o = opREG_READ
  let n := copyLen d
  if ringOpcodes.contains o = false then 0x030
  else if dFlags d / 2 ≠ 0 ∨ fld d 12 4 ≠ 0 then 0x031
  else if regs ∧ (count = 0 ∨ (if o = opREG_WRITE then 5 else 4) < count) then 0x031
  else if o = opCOPY ∧ (n < 4 ∨ 65536 < n ∨ n % 4 ≠ 0) then 0x031
  else if regs ∧ (regOffsets d).any (fun x => decide (winEnd ≤ x) || x % 4 != 0) = true then 0x032
  else if o = opCOPY ∧ s.deviceSide (copySrc d) = s.deviceSide (copyDst d) then 0x032
  else if o = opCOPY ∧ s.inRam (s.copyDevice d) n = false then 0x034
  else 0

/-- The code that refuses a descriptor, 0 where it is accepted (R30, R85). -/
def State.ringCode (s : State) (p : Nat) (d : List Byte) : Nat :=
  let c := s.descCode d
  if c ≠ 0 then c else s.offerCode p (descE d) (decide (s.g SYS_CTR_WORST_WORST_NS (dPath p) ≤ dBound d))

/-! ## Fetch (R83) -/

def State.ringLog2 (s : State) (r : Nat) : Nat := s.g HST_RING_CFG_LOG2_SIZE (dRing r)

/-- Whether host commands are offered (R31, R37): not in PROVISION, STANDBY and FACTORY. -/
def State.hostOffers (s : State) : Bool := s.mode == COMMISSION || s.mode == RUN || s.mode == SAFE

/-- Whether the ring fetches: in a mode that offers, enabled on a link, a descriptor waiting and a completion entry free for it. -/
def State.canFetch (s : State) (r : Nat) : Bool :=
  let k := s.ringLog2 r
  let i : Fld → Nat := fun f => s.g f (dRing r)
  s.hostOffers && s.on HST_RING_CFG_ENABLE (dRing r) && s.on HST_CTRL_ENABLE && s.on HST_STATUS_LINK && !s.hostLost &&
    ringUsed k (i HST_RING_SQ_HEAD_INDEX) (i HST_RING_SQ_TAIL_INDEX) != 0 &&
    decide (ringUsed k (i HST_RING_CQ_HEAD_INDEX) (i HST_RING_CQ_TAIL_INDEX) + (s.ring r).cmds.length < 2 ^ k)

/-- A fetched descriptor meets its acceptance test. -/
def State.fetched (s : State) (r : Nat) (d : List Byte) : State :=
  let i := s.g HST_RING_SQ_HEAD_INDEX (dRing r)
  let s := s.p HST_RING_SQ_HEAD_INDEX (dRing r) (ringNext (s.ringLog2 r) i)
  let p := s.g HST_RING_CFG_PATH (dRing r)
  let code := s.ringCode p d
  let x : Option Nat × State :=
    if code ≠ 0 then (none, s.rejectItem p) else let y := s.acceptItem p; (some y.1, y.2)
  let c : RingCmd := ⟨d, i, x.1, code, s.tideNs, if code ≠ 0 then some (1, code, []) else none⟩
  x.2.setRing r { x.2.ring r with cmds := (x.2.ring r).cmds ++ [c] }

/-- DESCRIPTOR_FETCH (R83, R85): a ring's next descriptor, of the 64 bytes that host memory answers. -/
def execDescriptorFetch (r : Fin 16) (desc : List Byte) (s : State) : Out' :=
  .next (if s.canFetch r && desc.length == 64 then s.fetched r desc else s)

/-! ## Execution (R85, R86) -/

/-- The ring's first command that has not ended. -/
def State.ringExec (s : State) (r : Nat) : Option RingCmd := (s.ring r).cmds.find? (·.done.isNone)

/-- Execute the ring's command where its opcode is the given one and it does not run already; an uncorrectable error of the
ring's memory ends it (R477). -/
def State.ringRun (s : State) (r op : Nat) (f : List Byte → State → State) : State :=
  match s.ringExec r with
  | some c =>
    if dOpcode c.desc = op ∧ s.ringProof ≠ some r then
      if s.eccIn (.ring r) then ((s.eccGone (.ring r)).raise .hst HST_ECC_UNCORR none 0).ringEnd r 2 0xC30 [] else f c.desc s
    else s
  | none => s

/-- RING_NOP (R86). -/
def execRingNop (r : Fin 16) (s : State) : Out' :=
  .next (s.ringRun r opNOP fun _ s => s.ringEnd r 0 0 [])

/-- The writes of a REG_WRITE, in order, as master 24. -/
def State.ringWrites (s : State) (d : List Byte) : State :=
  (List.range (fld d 16 4)).foldl (fun s i =>
    (s.busWrite 24 (winBase + fld d (20 + 8 * i) 4) 4 (fld d (24 + 8 * i) 4)).2) s

/-- RING_REG_WRITE (R86). -/
def execRingRegWrite (r : Fin 16) (s : State) : Out' :=
  (s.ringRun r opREG_WRITE fun d s => (s.ringWrites d).ringEnd r 0 0 []).stepCores

/-- The reads of a REG_READ, in order, as master 24: their values, 0 for an error response. -/
def State.ringReads (s : State) (offs : List Nat) : List Byte × State :=
  offs.foldl (fun (x : List Byte × State) o =>
    let y := x.2.busRead 24 (winBase + o) 4
    (x.1 ++ leBytes 4 (y.1.getD 0), y.2)) ([], s)

/-- RING_REG_READ (R86). -/
def execRingRegRead (r : Fin 16) (s : State) : Out' :=
  .next (s.ringRun r opREG_READ fun d s =>
    let x := s.ringReads (regOffsets d)
    x.2.ringEnd r 0 0 x.1)

/-- A COPY: from host memory, whose bytes `data` are, into the device, or from the device to host memory. -/
def State.ringCopy (s : State) (r : Nat) (d data : List Byte) : State :=
  let a := s.copyDevice d
  let n := copyLen d
  let toHost := s.deviceSide (copySrc d)
  if !inSram a n && !s.ddrReady then s.ringEnd r 2 0xC30 []
  else if toHost then
    if s.eccUncorr a n then (if ddrKey a then s.memUncorr a 35 else s).ringEnd r 2 0xC30 []
    else ((s.eccSeen a n).emit (.hostWrite (copyDst d) (s.rbs a n))).ringEnd r 0 0 []
  else if s.campGuard 24 a n then s.ringEnd r 2 0xC30 []
  else if data.length = n then (s.wbsEcc a data).ringEnd r 0 0 []
  else s

/-- RING_COPY (R86): with the bytes that host memory answers, where it is the source. -/
def execRingCopy (r : Fin 16) (data : List Byte) (s : State) : Out' :=
  .next (s.ringRun r opCOPY fun d s => s.ringCopy r d data)

/-- A PROOF begins, or is refused; one that begins ends with the proof. -/
def State.ringProofStart (s : State) (r : Nat) : State :=
  let foreign := s.prfForeign 24
  let t := s.proofCmd 24
  let code := s.proofCode
  if !foreign && code == 0 then { t with ringProof := some r }
  else t.ringEnd r (if foreign then 0 else 2) (if foreign then 0 else code)
    (leBytes 4 (t.g PRF_STATUS_REFUSAL) ++ leBytes 4 t.failAddr)

/-- RING_PROOF (R86). -/
def execRingProof (r : Fin 16) (s : State) : Out' :=
  .next (s.ringRun r opPROOF fun _ s => s.ringProofStart r)

/-- A PULL with the image of PRF_PULL_AT and the time in the order of PRF_PULL_TIME, whose lowest word is written last so
that it takes effect whole (R8). -/
def State.ringPull (s : State) (r : Nat) (d : List Byte) : State :=
  let s := [0, 3, 2, 1].foldl (fun (s : State) i =>
    (s.busWrite 24 (winBase + PRF_PULL_AT_QUAY.off + 4 * i) 4 (fld d (16 + 4 * i) 4)).2) s
  let foreign := s.prfForeign 24
  let code := if foreign then 0 else s.pullCode
  let t := s.pullCmd 24
  t.ringEnd r (if code = 0 then 0 else 2) code (leBytes 4 (t.g PRF_STATUS_REFUSAL))

/-- RING_PULL (R86). -/
def execRingPull (r : Fin 16) (s : State) : Out' :=
  .next (s.ringRun r opPULL fun d s => s.ringPull r d)

/-- RING_DISCARD (R86). -/
def execRingDiscard (r : Fin 16) (s : State) : Out' :=
  .next (s.ringRun r opDISCARD fun _ s => (s.discardCmd 24).ringEnd r 0 0 [])

/-- RING_MODE (R86): the image of SYS_MODE_CMD; the result is SYS_MODE after its evaluation. -/
def execRingMode (r : Fin 16) (s : State) : Out' :=
  .next (s.ringRun r opMODE fun d s =>
    let t := s.modeCommand (fld d 18 2) (fld d 16 1 % 8) 24
    let x := t.busRead 24 (winBase + SYS_MODE_MODE.off) 4
    x.2.ringEnd r 0 0 (leBytes 4 (x.1.getD 0)))

/-- RING_SUBMIT (R202). -/
def execRingSubmit (r : Fin 16) (s : State) : Out' :=
  .next (s.ringRun r opSUBMIT fun d s =>
    let x := s.submit 24 ((fld d 24 1).testBit 0) (fld d 16 8)
    match x.1 with
    | .ok n => x.2.ringEnd r 0 0 [BitVec.ofNat 8 n]
    | .error code => x.2.ringEnd r 2 code [])

/-- RING_CANCEL (R202). -/
def execRingCancel (r : Fin 16) (s : State) : Out' :=
  .next (s.ringRun r opCANCEL fun d s =>
    let x := s.drfCancel 24 (fld d 16 1) (fld d 20 4)
    x.2.ringEnd r (if x.1 = 0 then 0 else 2) x.1 [])

/-! ## Completion (R85, R463) -/

/-- The 32-byte completion record. -/
def cqRecord (c : RingCmd) (phase : Bool) (kind code : Nat) (result : List Byte) : List Byte :=
  leBytes 4 (dTag c.desc) ++ leBytes 2 (bit phase * 2 ^ 15 + kind * 2 ^ 12 + code) ++ leBytes 2 c.idx ++
    leBytes 4 (c.acc % 1000000000) ++ leBytes 4 (c.acc / 1000000000) ++ result ++
    List.replicate (16 - result.length) 0

/-- The record of the ring's oldest command leaves: CQ_TAIL advances, PHASE turns at each wrap, the item is delivered. -/
def State.ringComplete (s : State) (r : Nat) (c : RingCmd) (e : Nat × Nat × List Byte) : State :=
  let k := s.ringLog2 r
  let t := s.g HST_RING_CQ_TAIL_INDEX (dRing r)
  let x := s.ring r
  let s := s.emit (.hostWrite (s.g HST_RING_CQ_BASE_BASE (dRing r) + 32 * (t % 2 ^ k)) (cqRecord c x.phase e.1 e.2.1 e.2.2))
  let s := s.p HST_RING_CQ_TAIL_INDEX (dRing r) (ringNext k t)
  let s := s.setRing r { cmds := x.cmds.drop 1, phase := if (t + 1) % 2 ^ k = 0 then !x.phase else x.phase }
  let s := if (dFlags c.desc).testBit 0 then s.msixSend (s.g HST_RING_IRQ_VECTOR (dRing r)) else s
  match c.item with
  | some id => s.itemGone id
  | none => s

/-- COMMAND_COMPLETE (R85, R463): a ring's oldest command has ended and its record leaves, after `creditWait` ns in which
it, or a write ahead of it, waited only for posted credits. -/
def execCommandComplete (r : Fin 16) (creditWait : BitVec 32) (s : State) : Out' :=
  .next (match (s.ring r).cmds with
    | c :: _ =>
      match c.done with
      | some e =>
        let s := s.addSat HST_CREDIT_WAIT_NS 0 creditWait.toNat
        (s.moveDeadlines (fun p => s.pathKind p == kHOST) creditWait.toNat).ringComplete r c e
      | none => s
    | [] => s)

/-! ## DMA errors (R462) -/

/-- A failed DMA: of a descriptor fetch, which leaves SQ_HEAD and clears the ring's ENABLE, or of the executing command. -/
def State.dmaFail (s : State) (r addr : Nat) (fetch write : Bool) : State :=
  let acc : Access := if write then ⟨addr, 35, 2⟩ else ⟨addr, 34, 1⟩
  let s := s.raise .hst HST_DMA_ERR (some acc) 0
  if fetch then s.enClear (.ring r) else s.ringEnd r 2 0xC30 []

/-- Whether a DMA of the ring is outstanding: a fetch, or the COPY or the record of its command. -/
def State.dmaBusy (s : State) (r : Nat) (fetch : Bool) : Bool :=
  if fetch then s.canFetch r else (s.ringExec r).any fun (c : RingCmd) => dOpcode c.desc == opCOPY

/-- DMA_ERROR (R462): an error or poisoned completion of a ring's DMA at a host address. -/
def execDmaError (r : Fin 16) (addr : BitVec 64) (fetch : Bool) (write : Bool) (s : State) : Out' :=
  .next (if s.dmaBusy r fetch then s.dmaFail r addr.toNat fetch (write && !fetch) else s)

/-- DMA_COMPLETION_TIMEOUT (R462): a completion of a DMA read has not come within 50 ms. -/
def execDmaCompletionTimeout (r : Fin 16) (addr : BitVec 64) (fetch : Bool) (s : State) : Out' :=
  .next (if s.dmaBusy r fetch then s.dmaFail r addr.toNat fetch false else s)

end Sys2Proof.Machine
end

