-- ==== Sys2Proof/Machine/Snapshot.lean ====
section
/-! DEFINITION. Snapshot captures and their records (R438 to R440). Readings and choices: DEDUCED log 42, 46. -/

namespace Sys2Proof.Machine

/-- Read a capture's words in list order, as the Logbook's master; a read that ends in an error response gives 0. -/
def State.captureRead (s : State) (offs : List Nat) : (List Nat × Bool) × State :=
  offs.foldl (fun (x : (List Nat × Bool) × State) o =>
    let y := x.2.busRead 31 (winBase + o) 4
    ((x.1.1 ++ [y.1.getD 0], x.1.2 || y.1.isNone), y.2)) (([], false), s)

/-- The word list of a definition. -/
def State.snapList (s : State) (d : Nat) : List Nat :=
  (List.range (s.g LOG_SNAP_CFG_WORDS (0x100 * d))).map fun k => s.g LOG_SNAP_ADDR_OFFSET (0x100 * d + 4 * k)

/-- SNAPSHOT_CAPTURE_START (R440): the first capture queued begins, none running, and reads its words. -/
def execSnapshotCaptureStart (s : State) : Out' :=
  .next (match s.log.running, s.log.caps with
    | none, c :: t =>
      let x := s.captureRead (s.snapList c.dfn)
      x.2.setLog { x.2.log with caps := t, running := some { c with data := x.1.1, err := x.1.2 } }
    | _, _ => s)

/-- The record of a capture goes into the store of 1,024, in place of the oldest or, without SNAP_WRAP, not at all. -/
def State.putSnap (s : State) (c : Capture) : State :=
  let full := decide (1024 ≤ s.log.snaps.length)
  if full && !s.on LOG_CFG_SNAP_WRAP then s.incSat LOG_DROPS_SNAP_LOST 0
  else
    let r : SnapRec := ⟨c.dfn, c.err, s.log.snapSeq, s.log.pcyc, s.log.opSec, c.tide, c.arg, c.data⟩
    let l := (if full then s.log.snaps.drop 1 else s.log.snaps) ++ [r]
    (s.setLog { s.log with snaps := l, snapSeq := (s.log.snapSeq + 1) % 2 ^ 32 }).inc LOG_SNAP_STATUS_FIRES (0x100 * c.dfn)

/-- SNAPSHOT_RECORD_WRITTEN (R440): the running capture's record is written; it waits for a clear of the snapshot store
that runs (R444). -/
def execSnapshotRecordWritten (s : State) : Out' :=
  .next (match s.log.running with
    | some c =>
      if s.log.clearing.any fun x => x.1.testBit 1 then s
      else (s.putSnap c).setLog { (s.putSnap c).log with running := none }
    | none => s)

end Sys2Proof.Machine
end

