-- ==== Sys2Proof/Machine/Dispatch.lean ====
section
/-! DEFINITION. The dispatcher: one direct call of a meaning per constructor. -/

namespace Sys2Proof.Machine

def exec (i : Instr) (s : State) : Host.Outcome State Fault Refusal :=
  match i with
  | .registerWrite master addr size value => Sys2Proof.Machine.execRegisterWrite master addr size value s
  | .wideReadCapture master addr size => Sys2Proof.Machine.execWideReadCapture master addr size s
  | .sysIdRead master => Sys2Proof.Machine.execSysIdRead master s
  | .pathEnable p => Sys2Proof.Machine.execPathEnable p s
  | .admissionCheckEnd => Sys2Proof.Machine.execAdmissionCheckEnd s
  | .pathDisable p => Sys2Proof.Machine.execPathDisable p s
  | .contractBreach item => Sys2Proof.Machine.execContractBreach item s
  | .cargoAreaWrite area => Sys2Proof.Machine.execCargoAreaWrite area s
  | .modeCommand confirm target master => Sys2Proof.Machine.execModeCommand confirm target master s
  | .pairClaimDecided => Sys2Proof.Machine.execPairClaimDecided s
  | .quayModeTakeup q => Sys2Proof.Machine.execQuayModeTakeup q s
  | .forcedBoundary q => Sys2Proof.Machine.execForcedBoundary q s
  | .startupOverrun q => Sys2Proof.Machine.execStartupOverrun q s
  | .powerOn debugEn vbatAbsent => Sys2Proof.Machine.execPowerOn debugEn vbatAbsent s
  | .supplyUndervoltage => Sys2Proof.Machine.execSupplyUndervoltage s
  | .resetNAssert => Sys2Proof.Machine.execResetNAssert s
  | .resetNRelease debugEn => Sys2Proof.Machine.execResetNRelease debugEn s
  | .pllLock => Sys2Proof.Machine.execPllLock s
  | .fuseRead => Sys2Proof.Machine.execFuseRead s
  | .mramReady => Sys2Proof.Machine.execMramReady s
  | .sramClearEnd => Sys2Proof.Machine.execSramClearEnd s
  | .bootEnd s1 s8 d8 mhz => Sys2Proof.Machine.execBootEnd s1 s8 d8 mhz s
  | .hostReset confirm => Sys2Proof.Machine.execHostReset confirm s
  | .quayReset confirm q => Sys2Proof.Machine.execQuayReset confirm q s
  | .watchdogExpiry => Sys2Proof.Machine.execWatchdogExpiry s
  | .wdtKick key => Sys2Proof.Machine.execWdtKick key s
  | .pcieFlr => Sys2Proof.Machine.execPcieFlr s
  | .pciePerst => Sys2Proof.Machine.execPciePerst s
  | .psWrite master off size value => Sys2Proof.Machine.execPsWrite master off size value s
  | .proof master => Sys2Proof.Machine.execProof master s
  | .proofEnd => Sys2Proof.Machine.execProofEnd s
  | .pull master => Sys2Proof.Machine.execPull master s
  | .discard master => Sys2Proof.Machine.execDiscard master s
  | .pullApply => Sys2Proof.Machine.execPullApply s
  | .quayPullTimeout => Sys2Proof.Machine.execQuayPullTimeout s
  | .enableSet off => Sys2Proof.Machine.execEnableSet off s
  | .enableCheckEnd off => Sys2Proof.Machine.execEnableCheckEnd off s
  | .enableClear off => Sys2Proof.Machine.execEnableClear off s
  | .progRead set inst => Sys2Proof.Machine.execProgRead set inst s
  | .descriptorFetch r desc => Sys2Proof.Machine.execDescriptorFetch r desc s
  | .commandComplete r creditWait => Sys2Proof.Machine.execCommandComplete r creditWait s
  | .ringNop r => Sys2Proof.Machine.execRingNop r s
  | .ringRegWrite r => Sys2Proof.Machine.execRingRegWrite r s
  | .ringRegRead r => Sys2Proof.Machine.execRingRegRead r s
  | .ringCopy r data => Sys2Proof.Machine.execRingCopy r data s
  | .ringProof r => Sys2Proof.Machine.execRingProof r s
  | .ringPull r => Sys2Proof.Machine.execRingPull r s
  | .ringDiscard r => Sys2Proof.Machine.execRingDiscard r s
  | .ringMode r => Sys2Proof.Machine.execRingMode r s
  | .ringSubmit r => Sys2Proof.Machine.execRingSubmit r s
  | .ringCancel r => Sys2Proof.Machine.execRingCancel r s
  | .jLd c r => Sys2Proof.Machine.execJLd c r s
  | .jLdn c r => Sys2Proof.Machine.execJLdn c r s
  | .jAnd c r => Sys2Proof.Machine.execJAnd c r s
  | .jAndn c r => Sys2Proof.Machine.execJAndn c r s
  | .jOr c r => Sys2Proof.Machine.execJOr c r s
  | .jOrn c r => Sys2Proof.Machine.execJOrn c r s
  | .jXor c r => Sys2Proof.Machine.execJXor c r s
  | .jXorn c r => Sys2Proof.Machine.execJXorn c r s
  | .jSt c r => Sys2Proof.Machine.execJSt c r s
  | .jStn c r => Sys2Proof.Machine.execJStn c r s
  | .jSet c r => Sys2Proof.Machine.execJSet c r s
  | .jClr c r => Sys2Proof.Machine.execJClr c r s
  | .jNot c => Sys2Proof.Machine.execJNot c s
  | .jBa1 c => Sys2Proof.Machine.execJBa1 c s
  | .jBa0 c => Sys2Proof.Machine.execJBa0 c s
  | .jOpen c op => Sys2Proof.Machine.execJOpen c op s
  | .jClose c => Sys2Proof.Machine.execJClose c s
  | .ld8 c w r => Sys2Proof.Machine.execLd8 c w r s
  | .ld8u c w r => Sys2Proof.Machine.execLd8u c w r s
  | .ld16 c w r => Sys2Proof.Machine.execLd16 c w r s
  | .ld16u c w r => Sys2Proof.Machine.execLd16u c w r s
  | .ld32 c w r => Sys2Proof.Machine.execLd32 c w r s
  | .ld32u c w r => Sys2Proof.Machine.execLd32u c w r s
  | .ld64 c w r => Sys2Proof.Machine.execLd64 c w r s
  | .st8 c w r => Sys2Proof.Machine.execSt8 c w r s
  | .st16 c w r => Sys2Proof.Machine.execSt16 c w r s
  | .st32 c w r => Sys2Proof.Machine.execSt32 c w r s
  | .st64 c w r => Sys2Proof.Machine.execSt64 c w r s
  | .postedStoreError c => Sys2Proof.Machine.execPostedStoreError c s
  | .jAdd c wd wa wb => Sys2Proof.Machine.execJAdd c wd wa wb s
  | .jAddi c wd wa imm => Sys2Proof.Machine.execJAddi c wd wa imm s
  | .jSub c wd wa wb => Sys2Proof.Machine.execJSub c wd wa wb s
  | .jIand c wd wa wb => Sys2Proof.Machine.execJIand c wd wa wb s
  | .jAndi c wd wa imm => Sys2Proof.Machine.execJAndi c wd wa imm s
  | .jIor c wd wa wb => Sys2Proof.Machine.execJIor c wd wa wb s
  | .jOri c wd wa imm => Sys2Proof.Machine.execJOri c wd wa imm s
  | .jIxor c wd wa wb => Sys2Proof.Machine.execJIxor c wd wa wb s
  | .jXori c wd wa imm => Sys2Proof.Machine.execJXori c wd wa imm s
  | .jShl c wd wa wb => Sys2Proof.Machine.execJShl c wd wa wb s
  | .jShli c wd wa imm => Sys2Proof.Machine.execJShli c wd wa imm s
  | .jShr c wd wa wb => Sys2Proof.Machine.execJShr c wd wa wb s
  | .jShri c wd wa imm => Sys2Proof.Machine.execJShri c wd wa imm s
  | .jSar c wd wa wb => Sys2Proof.Machine.execJSar c wd wa wb s
  | .jSari c wd wa imm => Sys2Proof.Machine.execJSari c wd wa imm s
  | .jMul c wd wa wb => Sys2Proof.Machine.execJMul c wd wa wb s
  | .jMuli c wd wa imm => Sys2Proof.Machine.execJMuli c wd wa imm s
  | .jMulhs c wd wa wb => Sys2Proof.Machine.execJMulhs c wd wa wb s
  | .jMulhu c wd wa wb => Sys2Proof.Machine.execJMulhu c wd wa wb s
  | .jDivs c wd wa wb => Sys2Proof.Machine.execJDivs c wd wa wb s
  | .jDivu c wd wa wb => Sys2Proof.Machine.execJDivu c wd wa wb s
  | .jRems c wd wa wb => Sys2Proof.Machine.execJRems c wd wa wb s
  | .jRemu c wd wa wb => Sys2Proof.Machine.execJRemu c wd wa wb s
  | .jMin c wd wa wb => Sys2Proof.Machine.execJMin c wd wa wb s
  | .jMax c wd wa wb => Sys2Proof.Machine.execJMax c wd wa wb s
  | .jMinu c wd wa wb => Sys2Proof.Machine.execJMinu c wd wa wb s
  | .jMaxu c wd wa wb => Sys2Proof.Machine.execJMaxu c wd wa wb s
  | .jAddsat c wd wa wb => Sys2Proof.Machine.execJAddsat c wd wa wb s
  | .jSubsat c wd wa wb => Sys2Proof.Machine.execJSubsat c wd wa wb s
  | .jAbs c wd wa wb => Sys2Proof.Machine.execJAbs c wd wa wb s
  | .jNeg c wd wa wb => Sys2Proof.Machine.execJNeg c wd wa wb s
  | .jFadd c wd wa wb => Sys2Proof.Machine.execJFadd c wd wa wb s
  | .jFsub c wd wa wb => Sys2Proof.Machine.execJFsub c wd wa wb s
  | .jFmul c wd wa wb => Sys2Proof.Machine.execJFmul c wd wa wb s
  | .jFdiv c wd wa wb => Sys2Proof.Machine.execJFdiv c wd wa wb s
  | .jFsqrt c wd wa => Sys2Proof.Machine.execJFsqrt c wd wa s
  | .jFma c wd wa wb => Sys2Proof.Machine.execJFma c wd wa wb s
  | .jFms c wd wa wb => Sys2Proof.Machine.execJFms c wd wa wb s
  | .jFmin c wd wa wb => Sys2Proof.Machine.execJFmin c wd wa wb s
  | .jFmax c wd wa wb => Sys2Proof.Machine.execJFmax c wd wa wb s
  | .jFabs c wd wa => Sys2Proof.Machine.execJFabs c wd wa s
  | .jFneg c wd wa => Sys2Proof.Machine.execJFneg c wd wa s
  | .jEq c m wa o => Sys2Proof.Machine.execJEq c m wa o s
  | .jNe c m wa o => Sys2Proof.Machine.execJNe c m wa o s
  | .jLt c m wa o => Sys2Proof.Machine.execJLt c m wa o s
  | .jLe c m wa o => Sys2Proof.Machine.execJLe c m wa o s
  | .jGt c m wa o => Sys2Proof.Machine.execJGt c m wa o s
  | .jGe c m wa o => Sys2Proof.Machine.execJGe c m wa o s
  | .jLtu c m wa o => Sys2Proof.Machine.execJLtu c m wa o s
  | .jLeu c m wa o => Sys2Proof.Machine.execJLeu c m wa o s
  | .jGtu c m wa o => Sys2Proof.Machine.execJGtu c m wa o s
  | .jGeu c m wa o => Sys2Proof.Machine.execJGeu c m wa o s
  | .jFeq c m wa wb => Sys2Proof.Machine.execJFeq c m wa wb s
  | .jFne c m wa wb => Sys2Proof.Machine.execJFne c m wa wb s
  | .jFlt c m wa wb => Sys2Proof.Machine.execJFlt c m wa wb s
  | .jFle c m wa wb => Sys2Proof.Machine.execJFle c m wa wb s
  | .jFgt c m wa wb => Sys2Proof.Machine.execJFgt c m wa wb s
  | .jFge c m wa wb => Sys2Proof.Machine.execJFge c m wa wb s
  | .jFun c m wa wb => Sys2Proof.Machine.execJFun c m wa wb s
  | .jMov c wd wa => Sys2Proof.Machine.execJMov c wd wa s
  | .jItof c wd wa => Sys2Proof.Machine.execJItof c wd wa s
  | .jUtof c wd wa => Sys2Proof.Machine.execJUtof c wd wa s
  | .jFtoi c wd wa => Sys2Proof.Machine.execJFtoi c wd wa s
  | .jFtoir c wd wa => Sys2Proof.Machine.execJFtoir c wd wa s
  | .jFtou c wd wa => Sys2Proof.Machine.execJFtou c wd wa s
  | .jBatow c wd => Sys2Proof.Machine.execJBatow c wd s
  | .jWtoba c m wa => Sys2Proof.Machine.execJWtoba c m wa s
  | .jMovp c pd wa => Sys2Proof.Machine.execJMovp c pd wa s
  | .jMovwp c pd wa => Sys2Proof.Machine.execJMovwp c pd wa s
  | .jAddp c pd imm => Sys2Proof.Machine.execJAddp c pd imm s
  | .jAddpw c pd wa => Sys2Proof.Machine.execJAddpw c pd wa s
  | .jB c disp => Sys2Proof.Machine.execJB c disp s
  | .jBt c disp => Sys2Proof.Machine.execJBt c disp s
  | .jBf c disp => Sys2Proof.Machine.execJBf c disp s
  | .jBeq c disp => Sys2Proof.Machine.execJBeq c disp s
  | .jBne c disp => Sys2Proof.Machine.execJBne c disp s
  | .jBlt c disp => Sys2Proof.Machine.execJBlt c disp s
  | .jBge c disp => Sys2Proof.Machine.execJBge c disp s
  | .jBltu c disp => Sys2Proof.Machine.execJBltu c disp s
  | .jBgeu c disp => Sys2Proof.Machine.execJBgeu c disp s
  | .jBmi c disp => Sys2Proof.Machine.execJBmi c disp s
  | .jBpl c disp => Sys2Proof.Machine.execJBpl c disp s
  | .jBvs c disp => Sys2Proof.Machine.execJBvs c disp s
  | .jBvc c disp => Sys2Proof.Machine.execJBvc c disp s
  | .jCall c disp => Sys2Proof.Machine.execJCall c disp s
  | .jRet c => Sys2Proof.Machine.execJRet c s
  | .jCallp c p => Sys2Proof.Machine.execJCallp c p s
  | .jLoop c wd disp => Sys2Proof.Machine.execJLoop c wd disp s
  | .jLdi c wd imm => Sys2Proof.Machine.execJLdi c wd imm s
  | .jLdih c wd imm => Sys2Proof.Machine.execJLdih c wd imm s
  | .jFldi c wd imm => Sys2Proof.Machine.execJFldi c wd imm s
  | .jLpi c pd imm8 imm => Sys2Proof.Machine.execJLpi c pd imm8 imm s
  | .jRecvi c wd peer imm => Sys2Proof.Machine.execJRecvi c wd peer imm s
  | .jTon c r => Sys2Proof.Machine.execJTon c r s
  | .jTof c r => Sys2Proof.Machine.execJTof c r s
  | .jTp c r => Sys2Proof.Machine.execJTp c r s
  | .jCu c r => Sys2Proof.Machine.execJCu c r s
  | .jCd c r => Sys2Proof.Machine.execJCd c r s
  | .jCr c r => Sys2Proof.Machine.execJCr c r s
  | .jCl c r => Sys2Proof.Machine.execJCl c r s
  | .jCqu c r => Sys2Proof.Machine.execJCqu c r s
  | .jCqd c r => Sys2Proof.Machine.execJCqd c r s
  | .jEdgp c r => Sys2Proof.Machine.execJEdgp c r s
  | .jEdgn c r => Sys2Proof.Machine.execJEdgn c r s
  | .jSend c w peer => Sys2Proof.Machine.execJSend c w peer s
  | .jRecv c w wb peer => Sys2Proof.Machine.execJRecv c w wb peer s
  | .jRecvany c w wb => Sys2Proof.Machine.execJRecvany c w wb s
  | .jPoll c peer => Sys2Proof.Machine.execJPoll c peer s
  | .jPollany c => Sys2Proof.Machine.execJPollany c s
  | .recvTimeout c => Sys2Proof.Machine.execRecvTimeout c s
  | .jNop c => Sys2Proof.Machine.execJNop c s
  | .jWait c => Sys2Proof.Machine.execJWait c s
  | .jTend c => Sys2Proof.Machine.execJTend c s
  | .jReti c => Sys2Proof.Machine.execJReti c s
  | .jTrap c imm => Sys2Proof.Machine.execJTrap c imm s
  | .jBreak c => Sys2Proof.Machine.execJBreak c s
  | .jMfs c w sreg => Sys2Proof.Machine.execJMfs c w sreg s
  | .jMts c sreg w => Sys2Proof.Machine.execJMts c sreg w s
  | .jEi c => Sys2Proof.Machine.execJEi c s
  | .jDi c => Sys2Proof.Machine.execJDi c s
  | .jFence c => Sys2Proof.Machine.execJFence c s
  | .jRdtime c w => Sys2Proof.Machine.execJRdtime c w s
  | .jRdscan c w => Sys2Proof.Machine.execJRdscan c w s
  | .debugHaltReq c => Sys2Proof.Machine.execDebugHaltReq c s
  | .debugResume c => Sys2Proof.Machine.execDebugResume c s
  | .debugStep c => Sys2Proof.Machine.execDebugStep c s
  | .mastDeliveryEntry c => Sys2Proof.Machine.execMastDeliveryEntry c s
  | .taskRelease q t => Sys2Proof.Machine.execTaskRelease q t s
  | .eventFire q e => Sys2Proof.Machine.execEventFire q e s
  | .scanStart q core => Sys2Proof.Machine.execScanStart q core s
  | .copyInDone q => Sys2Proof.Machine.execCopyInDone q s
  | .taskPreempt c => Sys2Proof.Machine.execTaskPreempt c s
  | .copyOutDone q => Sys2Proof.Machine.execCopyOutDone q s
  | .cargoDataIn port transport mac ip udp msg => Sys2Proof.Machine.execCargoDataIn port transport mac ip udp msg s
  | .xchgLoad q => Sys2Proof.Machine.execXchgLoad q s
  | .xchgLoadEnd q => Sys2Proof.Machine.execXchgLoadEnd q s
  | .xchgApply q allowSkip => Sys2Proof.Machine.execXchgApply q allowSkip s
  | .xchgCancel q => Sys2Proof.Machine.execXchgCancel q s
  | .xchgHoldStart q => Sys2Proof.Machine.execXchgHoldStart q s
  | .xchgHoldEnd q => Sys2Proof.Machine.execXchgHoldEnd q s
  | .xchgApplyTimeout q => Sys2Proof.Machine.execXchgApplyTimeout q s
  | .contextRelease c => Sys2Proof.Machine.execContextRelease c s
  | .sampleStart => Sys2Proof.Machine.execSampleStart s
  | .sampleOutputWrite => Sys2Proof.Machine.execSampleOutputWrite s
  | .coefSetSwitch c set => Sys2Proof.Machine.execCoefSetSwitch c set s
  | .reseed c => Sys2Proof.Machine.execReseed c s
  | .grvRebuild t => Sys2Proof.Machine.execGrvRebuild t s
  | .grvRebuildEnd t readErr => Sys2Proof.Machine.execGrvRebuildEnd t readErr s
  | .grvBankSwap t bank => Sys2Proof.Machine.execGrvBankSwap t bank s
  | .graverCopyPoint => Sys2Proof.Machine.execGraverCopyPoint s
  | .drfSubmit master notify addr => Sys2Proof.Machine.execDrfSubmit master notify addr s
  | .drfCancel master slot tag => Sys2Proof.Machine.execDrfCancel master slot tag s
  | .jobStart => Sys2Proof.Machine.execJobStart s
  | .iterateComplete writeErr => Sys2Proof.Machine.execIterateComplete writeErr s
  | .jobTimeEnd => Sys2Proof.Machine.execJobTimeEnd s
  | .jobExpired slot => Sys2Proof.Machine.execJobExpired slot s
  | .resultPosted writeErr => Sys2Proof.Machine.execResultPosted writeErr s
  | .evaluationStart ddrErr => Sys2Proof.Machine.execEvaluationStart ddrErr s
  | .bcnPassEnd => Sys2Proof.Machine.execBcnPassEnd s
  | .bcnRebuild => Sys2Proof.Machine.execBcnRebuild s
  | .bcnRebuildEnd readErr => Sys2Proof.Machine.execBcnRebuildEnd readErr s
  | .bcnBankSwap bank => Sys2Proof.Machine.execBcnBankSwap bank s
  | .beaconFrameReceived port v6 ip udp payload => Sys2Proof.Machine.execBeaconFrameReceived port v6 ip udp payload s
  | .report => Sys2Proof.Machine.execReport s
  | .count => Sys2Proof.Machine.execCount s
  | .fwAck => Sys2Proof.Machine.execFwAck s
  | .bcnAlive => Sys2Proof.Machine.execBcnAlive s
  | .gatewaySilent w => Sys2Proof.Machine.execGatewaySilent w s
  | .passthruSend gateway length => Sys2Proof.Machine.execPassthruSend gateway length s
  | .campaignStart c => Sys2Proof.Machine.execCampaignStart c s
  | .campaignVerifyEnd c readErr => Sys2Proof.Machine.execCampaignVerifyEnd c readErr s
  | .campaignFrameTurn c => Sys2Proof.Machine.execCampaignFrameTurn c s
  | .campaignAckTimeout c w => Sys2Proof.Machine.execCampaignAckTimeout c w s
  | .campaignAbort c => Sys2Proof.Machine.execCampaignAbort c s
  | .campaignClear c => Sys2Proof.Machine.execCampaignClear c s
  | .tallySample codes general => Sys2Proof.Machine.execTallySample codes general s
  | .lineCycleBoundary f => Sys2Proof.Machine.execLineCycleBoundary f s
  | .boundaryPlaced f => Sys2Proof.Machine.execBoundaryPlaced f s
  | .halfCycleBoundary f => Sys2Proof.Machine.execHalfCycleBoundary f s
  | .thermalSample cut => Sys2Proof.Machine.execThermalSample cut s
  | .totalsRecordWrite fail => Sys2Proof.Machine.execTotalsRecordWrite fail s
  | .flowPulse pin high => Sys2Proof.Machine.execFlowPulse pin high s
  | .pulseOutputStart j => Sys2Proof.Machine.execPulseOutputStart j s
  | .pulseOutputEnd j => Sys2Proof.Machine.execPulseOutputEnd j s
  | .pulseOutputIdle j => Sys2Proof.Machine.execPulseOutputIdle j s
  | .dieTempReading temp => Sys2Proof.Machine.execDieTempReading temp s
  | .preset index master => Sys2Proof.Machine.execPreset index master s
  | .tlyCycleRead f => Sys2Proof.Machine.execTlyCycleRead f s
  | .tlyThStatusRead c => Sys2Proof.Machine.execTlyThStatusRead c s
  | .portLinkUp port seen => Sys2Proof.Machine.execPortLinkUp port seen s
  | .portLinkDown port => Sys2Proof.Machine.execPortLinkDown port s
  | .frameReceived port fcsOk fault addr frame => Sys2Proof.Machine.execFrameReceived port fcsOk fault addr frame s
  | .ethFrameStart port fault addr => Sys2Proof.Machine.execEthFrameStart port fault addr s
  | .gateEntryChange port => Sys2Proof.Machine.execGateEntryChange port s
  | .gateListChangeover port => Sys2Proof.Machine.execGateListChangeover port s
  | .otherWrite port tc max => Sys2Proof.Machine.execOtherWrite port tc max s
  | .mdioOp port value => Sys2Proof.Machine.execMdioOp port value s
  | .mdioOpEnd port data => Sys2Proof.Machine.execMdioOpEnd port data s
  | .sync port dn seq two origin corr => Sys2Proof.Machine.execSync port dn seq two origin corr s
  | .followUp port dn seq origin corr => Sys2Proof.Machine.execFollowUp port dn seq origin corr s
  | .delayReq port dn seq src corr => Sys2Proof.Machine.execDelayReq port dn seq src corr s
  | .delayResp port dn seq req recv corr => Sys2Proof.Machine.execDelayResp port dn seq req recv corr s
  | .pdelayReq port dn seq src corr => Sys2Proof.Machine.execPdelayReq port dn seq src corr s
  | .pdelayResp port dn seq two req recv corr => Sys2Proof.Machine.execPdelayResp port dn seq two req recv corr s
  | .pdelayRespFollowUp port dn seq req origin corr => Sys2Proof.Machine.execPdelayRespFollowUp port dn seq req origin corr s
  | .syncSend port domain => Sys2Proof.Machine.execSyncSend port domain s
  | .delayReqSend port domain => Sys2Proof.Machine.execDelayReqSend port domain s
  | .tidStep => Sys2Proof.Machine.execTidStep s
  | .tidSlew => Sys2Proof.Machine.execTidSlew s
  | .domainSwitchRequest active => Sys2Proof.Machine.execDomainSwitchRequest active s
  | .domainLoss d => Sys2Proof.Machine.execDomainLoss d s
  | .tideOutPulse o => Sys2Proof.Machine.execTideOutPulse o s
  | .tideInEdge ix rising => Sys2Proof.Machine.execTideInEdge ix rising s
  | .tideInRead ix => Sys2Proof.Machine.execTideInRead ix s
  | .canSubmit ctl cls => Sys2Proof.Machine.execCanSubmit ctl cls s
  | .canFetchDone ctl cls cut ecc => Sys2Proof.Machine.execCanFetchDone ctl cls cut ecc s
  | .canFrameStart ctl => Sys2Proof.Machine.execCanFrameStart ctl s
  | .canArbitrationLost ctl ns => Sys2Proof.Machine.execCanArbitrationLost ctl ns s
  | .canErrorFrame ctl overload ns tec rec_ => Sys2Proof.Machine.execCanErrorFrame ctl overload ns tec rec_ s
  | .canFrameSent ctl ns tec rec_ => Sys2Proof.Machine.execCanFrameSent ctl ns tec rec_ s
  | .canFrameReceived ctl id format flags sdt vcid af sof data rec_ fault addr => Sys2Proof.Machine.execCanFrameReceived ctl id format flags sdt vcid af sof data rec_ fault addr s
  | .canBusOff ctl => Sys2Proof.Machine.execCanBusOff ctl s
  | .canIntegrationEnd ctl => Sys2Proof.Machine.execCanIntegrationEnd ctl s
  | .canCancel ctl cls => Sys2Proof.Machine.execCanCancel ctl cls s
  | .canMeasure ctl window => Sys2Proof.Machine.execCanMeasure ctl window s
  | .canMeasureEnd ctl intervals => Sys2Proof.Machine.execCanMeasureEnd ctl intervals s
  | .canTimingTakeup ctl => Sys2Proof.Machine.execCanTimingTakeup ctl s
  | .mbsSend uart length => Sys2Proof.Machine.execMbsSend uart length s
  | .mbsTelegramSent uart => Sys2Proof.Machine.execMbsTelegramSent uart s
  | .mbsTelegramEnd uart octets parity framing ecc => Sys2Proof.Machine.execMbsTelegramEnd uart octets parity framing ecc s
  | .mbsResponseTimeout uart => Sys2Proof.Machine.execMbsResponseTimeout uart s
  | .vbatFirstApplied => Sys2Proof.Machine.execVbatFirstApplied s
  | .supplySwitchover => Sys2Proof.Machine.execSupplySwitchover s
  | .calendarWrap => Sys2Proof.Machine.execCalendarWrap s
  | .weekdayAdvance => Sys2Proof.Machine.execWeekdayAdvance s
  | .oscillatorStop => Sys2Proof.Machine.execOscillatorStop s
  | .oscillatorRestart => Sys2Proof.Machine.execOscillatorRestart s
  | .almNowRead => Sys2Proof.Machine.execAlmNowRead s
  | .almSet master => Sys2Proof.Machine.execAlmSet master s
  | .almShift master => Sys2Proof.Machine.execAlmShift master s
  | .almWeekday master => Sys2Proof.Machine.execAlmWeekday master s
  | .almCommandApply => Sys2Proof.Machine.execAlmCommandApply s
  | .alarmFire a => Sys2Proof.Machine.execAlarmFire a s
  | .bthTxPost agent => Sys2Proof.Machine.execBthTxPost agent s
  | .bthRxTake agent => Sys2Proof.Machine.execBthRxTake agent s
  | .bthRxAny agent => Sys2Proof.Machine.execBthRxAny agent s
  | .domainWakeDone d => Sys2Proof.Machine.execDomainWakeDone d s
  | .mastSourceFire src => Sys2Proof.Machine.execMastSourceFire src s
  | .setPending src => Sys2Proof.Machine.execSetPending src s
  | .mastOffer => Sys2Proof.Machine.execMastOffer s
  | .mastClaimGrant cs => Sys2Proof.Machine.execMastClaimGrant cs s
  | .mastSourceOff src => Sys2Proof.Machine.execMastSourceOff src s
  | .moderationEnd src => Sys2Proof.Machine.execModerationEnd src s
  | .lockGrant l masters => Sys2Proof.Machine.execLockGrant l masters s
  | .lockTransferEnd l => Sys2Proof.Machine.execLockTransferEnd l s
  | .holdCutoff l addr write => Sys2Proof.Machine.execHoldCutoff l addr write s
  | .quotaUnmask l => Sys2Proof.Machine.execQuotaUnmask l s
  | .peerOwnChange asserted => Sys2Proof.Machine.execPeerOwnChange asserted s
  | .mooringLinkUp => Sys2Proof.Machine.execMooringLinkUp s
  | .mooringLinkDown lanes => Sys2Proof.Machine.execMooringLinkDown lanes s
  | .pairTick => Sys2Proof.Machine.execPairTick s
  | .mooringStatus owns fit mode epoch unit acks taken fault => Sys2Proof.Machine.execMooringStatus owns fit mode epoch unit acks taken fault s
  | .mooringCopyData stream owns epoch unit seq lines fault => Sys2Proof.Machine.execMooringCopyData stream owns epoch unit seq lines fault s
  | .mooringCopyEnd stream owns epoch unit seq lines gen digest crcOk seqs fault => Sys2Proof.Machine.execMooringCopyEnd stream owns epoch unit seq lines gen digest crcOk seqs fault s
  | .mooringBerth participant epoch unit seq word fault => Sys2Proof.Machine.execMooringBerth participant epoch unit seq word fault s
  | .mooringBerthTaken participant epoch unit seq fault => Sys2Proof.Machine.execMooringBerthTaken participant epoch unit seq fault s
  | .mooringSwap owns epoch unit seq fault => Sys2Proof.Machine.execMooringSwap owns epoch unit seq fault s
  | .mooringExchange owns epoch unit seq digest fault => Sys2Proof.Machine.execMooringExchange owns epoch unit seq digest fault s
  | .copyTakeUpEnd stream => Sys2Proof.Machine.execCopyTakeUpEnd stream s
  | .copyStale stream => Sys2Proof.Machine.execCopyStale stream s
  | .swapCommand => Sys2Proof.Machine.execSwapCommand s
  | .swapStart => Sys2Proof.Machine.execSwapStart s
  | .swapTimeout => Sys2Proof.Machine.execSwapTimeout s
  | .reactionFault => Sys2Proof.Machine.execReactionFault s
  | .ownNRelease => Sys2Proof.Machine.execOwnNRelease s
  | .safeOutSend => Sys2Proof.Machine.execSafeOutSend s
  | .aliveToggle => Sys2Proof.Machine.execAliveToggle s
  | .faultInject src fbit => Sys2Proof.Machine.execFaultInject src fbit s
  | .opSecondTick => Sys2Proof.Machine.execOpSecondTick s
  | .fixedRecordWrite fault => Sys2Proof.Machine.execFixedRecordWrite fault s
  | .snapshotCaptureStart => Sys2Proof.Machine.execSnapshotCaptureStart s
  | .snapshotRecordWritten => Sys2Proof.Machine.execSnapshotRecordWritten s
  | .logRead store age => Sys2Proof.Machine.execLogRead store age s
  | .logReadDone => Sys2Proof.Machine.execLogReadDone s
  | .logExport store => Sys2Proof.Machine.execLogExport store s
  | .logExportEnd errAfter => Sys2Proof.Machine.execLogExportEnd errAfter s
  | .logChallenge => Sys2Proof.Machine.execLogChallenge s
  | .logClear master scope => Sys2Proof.Machine.execLogClear master scope s
  | .logClearCommit => Sys2Proof.Machine.execLogClearCommit s
  | .nonceExpiry => Sys2Proof.Machine.execNonceExpiry s
  | .keyBatch master count => Sys2Proof.Machine.execKeyBatch master count s
  | .keyWrite fault => Sys2Proof.Machine.execKeyWrite fault s
  | .keyInvalidate fault => Sys2Proof.Machine.execKeyInvalidate fault s
  | .sessionInstall fault => Sys2Proof.Machine.execSessionInstall fault s
  | .factoryUnlock fault => Sys2Proof.Machine.execFactoryUnlock fault s
  | .entropyFail => Sys2Proof.Machine.execEntropyFail s
  | .pcieLinkUp gen width => Sys2Proof.Machine.execPcieLinkUp gen width s
  | .pcieLinkDown => Sys2Proof.Machine.execPcieLinkDown s
  | .dmaError r addr fetch write => Sys2Proof.Machine.execDmaError r addr fetch write s
  | .dmaCompletionTimeout r addr fetch => Sys2Proof.Machine.execDmaCompletionTimeout r addr fetch s
  | .msixUnmask vector => Sys2Proof.Machine.execMsixUnmask vector s
  | .ddrInit test => Sys2Proof.Machine.execDdrInit test s
  | .ddrTrainingEnd failed => Sys2Proof.Machine.execDdrTrainingEnd failed s
  | .ddrBlockDone channel failed => Sys2Proof.Machine.execDdrBlockDone channel failed s
  | .ddrInitEnd => Sys2Proof.Machine.execDdrInitEnd s
  | .mramScrub => Sys2Proof.Machine.execMramScrub s
  | .mramScrubEnd uncorrectable => Sys2Proof.Machine.execMramScrubEnd uncorrectable s
  | .flashRead => Sys2Proof.Machine.execFlashRead s
  | .flashProgram => Sys2Proof.Machine.execFlashProgram s
  | .flashErase4k => Sys2Proof.Machine.execFlashErase4k s
  | .flashErase64k => Sys2Proof.Machine.execFlashErase64k s
  | .flashOpEnd => Sys2Proof.Machine.execFlashOpEnd s
  | .avsUpdate rail margin readVout => Sys2Proof.Machine.execAvsUpdate rail margin readVout s
  | .pmbusTransactionEnd rail ok => Sys2Proof.Machine.execPmbusTransactionEnd rail ok s
  | .pmbusTimeout rail => Sys2Proof.Machine.execPmbusTimeout rail s
  | .gateRequest domains => Sys2Proof.Machine.execGateRequest domains s
  | .domainGated domain => Sys2Proof.Machine.execDomainGated domain s
  | .dinFilterChange pin level => Sys2Proof.Machine.execDinFilterChange pin level s
  | .pwmPeriodStart channel => Sys2Proof.Machine.execPwmPeriodStart channel s
  | .encoderEdge channel a b => Sys2Proof.Machine.execEncoderEdge channel a b s
  | .encoderIndex channel => Sys2Proof.Machine.execEncoderIndex channel s
  | .ssiFrameStart channel idleHigh => Sys2Proof.Machine.execSsiFrameStart channel idleHigh s
  | .ssiFrameEnd channel data => Sys2Proof.Machine.execSsiFrameEnd channel data s
  | .tick => Sys2Proof.Machine.execTick s
  | .conflictGraceEnd => Sys2Proof.Machine.execConflictGraceEnd s
  | .jobAborted why => Sys2Proof.Machine.execJobAborted why s

end Sys2Proof.Machine
end

