-- ==== Sys2Proof/WellFormed.lean ====
section
/-! DEFINITION. Which commands are well formed: the lengths and the values that the spec gives an operand whose type
admits more. A descriptor has 64 bytes (R82), a COPY at most 65,536 (R86), an Ethernet payload
1,500 and a CAN XL one 2,048, a Tally sample 28 codes of feeders and 4 others (R271), a Mooring data message 56 line records of 64 octets at most
(R410, R412), a STATUS one SEQ per stream; PCIe trains to Gen1 to Gen4 on 1, 2 or 4 lanes (R458). -/

namespace Sys2Proof

def WellFormed (i : Instr) : Bool :=
  match i with
  | .descriptorFetch _ desc => desc.length == 64
  | .ringCopy _ data => decide (data.length ≤ 65536)
  | .cargoDataIn _ _ _ _ _ msg => decide (msg.length ≤ 1500)
  | .evaluationStart ddrErr => decide ddrErr.Nodup
  | .beaconFrameReceived _ _ _ _ payload => decide (payload.length ≤ 1500)
  | .tallySample codes general => codes.length == 28 && general.length == 4
  | .canFrameReceived _ _ _ _ _ _ _ _ data _ _ _ => decide (data.length ≤ 2048)
  | .mbsTelegramEnd _ octets _ _ _ => !octets.isEmpty
  | .mastClaimGrant cs => decide cs.Nodup
  | .lockGrant _ masters => decide masters.Nodup
  | .mooringStatus _ _ _ _ _ _ taken _ => taken.length == 8
  | .mooringCopyData _ _ _ _ _ lines _ => decide (lines.length ≤ 56) && lines.all fun l => l.2.length == 64
  | .pcieLinkUp gen width => decide (gen.val ≠ 0) && (width.val == 1 || width.val == 2 || width.val == 4)
  | .registerWrite _ _ _ _ | .wideReadCapture _ _ _ | .sysIdRead _ | .pathEnable _ | .admissionCheckEnd
  | .pathDisable _ | .contractBreach _ | .cargoAreaWrite _ | .modeCommand _ _ _ | .pairClaimDecided
  | .quayModeTakeup _ | .forcedBoundary _ | .startupOverrun _ | .powerOn _ _ | .supplyUndervoltage | .resetNAssert
  | .resetNRelease _ | .pllLock | .fuseRead | .mramReady | .sramClearEnd | .bootEnd _ _ _ _ | .hostReset _
  | .quayReset _ _ | .watchdogExpiry | .wdtKick _ | .pcieFlr | .pciePerst | .psWrite _ _ _ _ | .proof _ | .proofEnd
  | .pull _ | .discard _ | .pullApply | .quayPullTimeout | .enableSet _ | .enableCheckEnd _ | .enableClear _
  | .progRead _ _ | .commandComplete _ _ | .ringNop _ | .ringRegWrite _ | .ringRegRead _ | .ringProof _
  | .ringPull _ | .ringDiscard _ | .ringMode _ | .ringSubmit _ | .ringCancel _ | .jLd _ _ | .jLdn _ _ | .jAnd _ _
  | .jAndn _ _ | .jOr _ _ | .jOrn _ _ | .jXor _ _ | .jXorn _ _ | .jSt _ _ | .jStn _ _ | .jSet _ _ | .jClr _ _
  | .jNot _ | .jBa1 _ | .jBa0 _ | .jOpen _ _ | .jClose _ | .ld8 _ _ _ | .ld8u _ _ _ | .ld16 _ _ _ | .ld16u _ _ _
  | .ld32 _ _ _ | .ld32u _ _ _ | .ld64 _ _ _ | .st8 _ _ _ | .st16 _ _ _ | .st32 _ _ _ | .st64 _ _ _
  | .postedStoreError _ | .jAdd _ _ _ _ | .jAddi _ _ _ _ | .jSub _ _ _ _ | .jIand _ _ _ _ | .jAndi _ _ _ _
  | .jIor _ _ _ _ | .jOri _ _ _ _ | .jIxor _ _ _ _ | .jXori _ _ _ _ | .jShl _ _ _ _ | .jShli _ _ _ _
  | .jShr _ _ _ _ | .jShri _ _ _ _ | .jSar _ _ _ _ | .jSari _ _ _ _ | .jMul _ _ _ _ | .jMuli _ _ _ _
  | .jMulhs _ _ _ _ | .jMulhu _ _ _ _ | .jDivs _ _ _ _ | .jDivu _ _ _ _ | .jRems _ _ _ _ | .jRemu _ _ _ _
  | .jMin _ _ _ _ | .jMax _ _ _ _ | .jMinu _ _ _ _ | .jMaxu _ _ _ _ | .jAddsat _ _ _ _ | .jSubsat _ _ _ _
  | .jAbs _ _ _ _ | .jNeg _ _ _ _ | .jFadd _ _ _ _ | .jFsub _ _ _ _ | .jFmul _ _ _ _ | .jFdiv _ _ _ _
  | .jFsqrt _ _ _ | .jFma _ _ _ _ | .jFms _ _ _ _ | .jFmin _ _ _ _ | .jFmax _ _ _ _ | .jFabs _ _ _ | .jFneg _ _ _
  | .jEq _ _ _ _ | .jNe _ _ _ _ | .jLt _ _ _ _ | .jLe _ _ _ _ | .jGt _ _ _ _ | .jGe _ _ _ _ | .jLtu _ _ _ _
  | .jLeu _ _ _ _ | .jGtu _ _ _ _ | .jGeu _ _ _ _ | .jFeq _ _ _ _ | .jFne _ _ _ _ | .jFlt _ _ _ _ | .jFle _ _ _ _
  | .jFgt _ _ _ _ | .jFge _ _ _ _ | .jFun _ _ _ _ | .jMov _ _ _ | .jItof _ _ _ | .jUtof _ _ _ | .jFtoi _ _ _
  | .jFtoir _ _ _ | .jFtou _ _ _ | .jBatow _ _ | .jWtoba _ _ _ | .jMovp _ _ _ | .jMovwp _ _ _ | .jAddp _ _ _
  | .jAddpw _ _ _ | .jB _ _ | .jBt _ _ | .jBf _ _ | .jBeq _ _ | .jBne _ _ | .jBlt _ _ | .jBge _ _ | .jBltu _ _
  | .jBgeu _ _ | .jBmi _ _ | .jBpl _ _ | .jBvs _ _ | .jBvc _ _ | .jCall _ _ | .jRet _ | .jCallp _ _ | .jLoop _ _ _
  | .jLdi _ _ _ | .jLdih _ _ _ | .jFldi _ _ _ | .jLpi _ _ _ _ | .jRecvi _ _ _ _ | .jTon _ _ | .jTof _ _ | .jTp _ _
  | .jCu _ _ | .jCd _ _ | .jCr _ _ | .jCl _ _ | .jCqu _ _ | .jCqd _ _ | .jEdgp _ _ | .jEdgn _ _ | .jSend _ _ _
  | .jRecv _ _ _ _ | .jRecvany _ _ _ | .jPoll _ _ | .jPollany _ | .recvTimeout _ | .jNop _ | .jWait _ | .jTend _
  | .jReti _ | .jTrap _ _ | .jBreak _ | .jMfs _ _ _ | .jMts _ _ _ | .jEi _ | .jDi _ | .jFence _ | .jRdtime _ _
  | .jRdscan _ _ | .debugHaltReq _ | .debugResume _ | .debugStep _ | .mastDeliveryEntry _ | .taskRelease _ _
  | .eventFire _ _ | .scanStart _ _ | .copyInDone _ | .taskPreempt _ | .copyOutDone _ | .xchgLoad _
  | .xchgLoadEnd _ | .xchgApply _ _ | .xchgCancel _ | .xchgHoldStart _ | .xchgHoldEnd _ | .xchgApplyTimeout _
  | .contextRelease _ | .sampleStart | .sampleOutputWrite | .coefSetSwitch _ _ | .reseed _ | .grvRebuild _
  | .grvRebuildEnd _ _ | .grvBankSwap _ _ | .graverCopyPoint | .drfSubmit _ _ _ | .drfCancel _ _ _ | .jobStart
  | .iterateComplete _ | .jobTimeEnd | .jobExpired _ | .resultPosted _ | .bcnPassEnd | .bcnRebuild
  | .bcnRebuildEnd _ | .bcnBankSwap _ | .report | .count | .fwAck | .bcnAlive | .gatewaySilent _
  | .passthruSend _ _ | .campaignStart _ | .campaignVerifyEnd _ _ | .campaignFrameTurn _ | .campaignAckTimeout _ _
  | .campaignAbort _ | .campaignClear _ | .lineCycleBoundary _ | .boundaryPlaced _ | .halfCycleBoundary _
  | .thermalSample _ | .totalsRecordWrite _ | .flowPulse _ _ | .pulseOutputStart _ | .pulseOutputEnd _
  | .pulseOutputIdle _ | .dieTempReading _ | .preset _ _ | .tlyCycleRead _ | .tlyThStatusRead _ | .portLinkUp _ _
  | .portLinkDown _ | .frameReceived _ _ _ _ _ | .ethFrameStart _ _ _ | .gateEntryChange _ | .gateListChangeover _
  | .otherWrite _ _ _ | .mdioOp _ _ | .mdioOpEnd _ _ | .sync _ _ _ _ _ _ | .followUp _ _ _ _ _
  | .delayReq _ _ _ _ _ | .delayResp _ _ _ _ _ _ | .pdelayReq _ _ _ _ _ | .pdelayResp _ _ _ _ _ _ _
  | .pdelayRespFollowUp _ _ _ _ _ _ | .syncSend _ _ | .delayReqSend _ _ | .tidStep | .tidSlew
  | .domainSwitchRequest _ | .domainLoss _ | .tideOutPulse _ | .tideInEdge _ _ | .tideInRead _ | .canSubmit _ _
  | .canFetchDone _ _ _ _ | .canFrameStart _ | .canArbitrationLost _ _ | .canErrorFrame _ _ _ _ _
  | .canFrameSent _ _ _ _ | .canBusOff _ | .canIntegrationEnd _ | .canCancel _ _ | .canMeasure _ _
  | .canMeasureEnd _ _ | .canTimingTakeup _ | .mbsSend _ _ | .mbsTelegramSent _ | .mbsResponseTimeout _
  | .vbatFirstApplied | .supplySwitchover | .calendarWrap | .weekdayAdvance | .oscillatorStop | .oscillatorRestart
  | .almNowRead | .almSet _ | .almShift _ | .almWeekday _ | .almCommandApply | .alarmFire _ | .bthTxPost _
  | .bthRxTake _ | .bthRxAny _ | .domainWakeDone _ | .mastSourceFire _ | .setPending _ | .mastOffer
  | .mastSourceOff _ | .moderationEnd _ | .lockTransferEnd _ | .holdCutoff _ _ _ | .quotaUnmask _
  | .peerOwnChange _ | .mooringLinkUp | .mooringLinkDown _ | .pairTick | .mooringCopyEnd _ _ _ _ _ _ _ _ _ _ _
  | .mooringBerth _ _ _ _ _ _ | .mooringBerthTaken _ _ _ _ _ | .mooringSwap _ _ _ _ _
  | .mooringExchange _ _ _ _ _ _ | .copyTakeUpEnd _ | .copyStale _ | .swapCommand | .swapStart | .swapTimeout
  | .reactionFault | .ownNRelease | .safeOutSend | .aliveToggle | .faultInject _ _ | .opSecondTick
  | .fixedRecordWrite _ | .snapshotCaptureStart | .snapshotRecordWritten | .logRead _ _ | .logReadDone
  | .logExport _ | .logExportEnd _ | .logChallenge | .logClear _ _ | .logClearCommit | .nonceExpiry | .keyBatch _ _
  | .keyWrite _ | .keyInvalidate _ | .sessionInstall _ | .factoryUnlock _ | .entropyFail | .pcieLinkDown
  | .dmaError _ _ _ _ | .dmaCompletionTimeout _ _ _ | .msixUnmask _ | .ddrInit _ | .ddrTrainingEnd _
  | .ddrBlockDone _ _ | .ddrInitEnd | .mramScrub | .mramScrubEnd _ | .flashRead | .flashProgram | .flashErase4k
  | .flashErase64k | .flashOpEnd | .avsUpdate _ _ _ | .pmbusTransactionEnd _ _ | .pmbusTimeout _ | .gateRequest _
  | .domainGated _ | .dinFilterChange _ _ | .pwmPeriodStart _ | .encoderEdge _ _ _ | .encoderIndex _
  | .ssiFrameStart _ _ | .ssiFrameEnd _ _ | .tick | .conflictGraceEnd | .jobAborted _ => true

end Sys2Proof
end

