-- ==== Sys2Proof/Safety.lean ====
section
/-! DEFINITION. What counts as a good state, and as a step that keeps it.
Readings and choices: DESIGN CHOICE log 2. -/

namespace Sys2Proof.Safety

open Sys2Proof.Machine

/-- The byte map of the memories is in its canonical form, so that equal memories are equal data. -/
def MemOk (s : State) : Prop := Memory.wf s.mem

/-- Every waiting command is well formed. -/
def QueueOk (s : State) : Prop := ∀ c ∈ s.pending, WellFormed c = true

/-- Two States whose memories read alike at every key of a set. -/
def sameBytes (keys : Nat → Prop) (s t : State) : Prop := ∀ a, keys a → t.rb a = s.rb a

/-- Two States whose memories read alike everywhere but at the `n` bytes from a key. -/
def sameBytesBut (a n : Nat) (s t : State) : Prop := sameBytes (fun x => x < a ∨ a + n ≤ x) s t

/-- Two States that agree in everything but one core. -/
def sameButCore (c : Nat) (s t : State) : Prop := t = { s with cores := t.cores } ∧ ∀ d, d ≠ c → t.core d = s.core d

end Sys2Proof.Safety
end

