-- ==== Sys2Proof/Certificates/Slice0/Obligations.lean ====
section
/-! DEFINITION. The statements for the provers, each of the model and of no program. -/

open Sys2Proof Sys2Proof.Machine Sys2Proof.Safety

/-- A step is exec of the front command on the queue's rest; on an empty queue a fabric cycle passes (log entry 1, the
model's choice). -/
def Obligations.StepRunsFrontCommand : Prop :=
  (∀ (c : Instr) (q : List Instr) (s : State), step { s with pending := c :: q } = exec c { s with pending := q }) ∧
  (∀ s : State, s.pending = [] → ∃ t, step s = .next t ∧ t.pending = [] ∧ t.fab = s.fab + 1 ∧ t.tidePrev = s.tide ∧
    t.instants = [] ∧ t.mem = s.mem ∧ t.cores = s.cores ∧
    (s.eccOne = [] → s.eccBad = [] → (∀ i, (s.stream i).sending = none) → (∀ k, (s.rail k).step = none) →
      t.regs = s.regs ∧ t.quays = s.quays ∧ t.outbox = s.outbox))

/-- Completion of an instruction, and one that cannot be fetched (R125, R127, R129, R136; log 52 and 53, the model's choice). -/
def Obligations.InstructionCompletion : Prop :=
  ∀ (s : State) (c : Nat) (k : Core) (n : BitVec 17) (cyc : Nat) (raised : BitVec 7),
    let k' : Core := { k with pc := n, instret := k.instret + 1, cyc := k.cyc + cyc, entering := none }
    let u := s.fetchSeen c
    (s.eccOne = [] → u = s) ∧ u.mem = s.mem ∧ u.cores = s.cores ∧
    (raised &&& k.te = 0 →
      (s.retire c k n cyc raised).core c = k'.boundary ∧ sameButCore c u (s.retire c k n cyc raised)) ∧
    (raised &&& k.te ≠ 0 →
      let t := (u.setCore c k').takeExc c ⟨if raised &&& k.te &&& 31 ≠ 0 then xFP_TRAP else xINT_TRAP, none⟩ n
      s.retire c k n cyc raised = t.setCore c (t.core c).boundary) ∧
    ∀ d : Fin 24, s.issues d = true → s.fetches d = false → ∃ t, exec (.jNop d) s = .next t ∧
      (t.core d).xcause = BitVec.ofNat 5 xECC ∧ (t.core d).xpc = (s.core d).pc ∧
      (t.core d).xaddr = BitVec.ofNat 40 (0x20200000 + (s.core d).pc.toNat) ∧ (t.core d).w = (s.core d).w ∧
      (t.faultStatus (.brn (d / 4))).testBit BRN_ECC_UNCORR = true

/-- The entry into a synchronous exception (R127, R131, R133). -/
def Obligations.ExceptionEntry : Prop :=
  ∀ (s : State) (c : Nat) (e : Exc) (x : BitVec 17) (code : Nat) (imp : Bool),
    (s.core c).rl ≠ 17 → (s.core c).noRoom 16 = false →
    let k := s.core c
    let t := s.takeExc c e x code imp
    let a := dataKey c (k.sp.toNat - 16)
    ((t.core c).ximp = imp ∧ (t.core c).xcode = BitVec.ofNat 8 code ∧ (t.core c).xcause = BitVec.ofNat 5 e.cause ∧
      (t.core c).xpc = x ∧ (t.core c).xaddr = e.addr.getD k.xaddr ∧ (t.core c).xcount = min (k.xcount + 1) 2047) ∧
    ((t.core c).sp = BitVec.ofNat 16 (k.sp.toNat - 16) ∧ (t.core c).rl = 17 ∧
      (t.core c).pc = k.vbase + BitVec.ofNat 17 (16 * (0x200 + e.cause))) ∧
    ((t.core c).w = k.w ∧ (t.core c).p = k.p ∧ (t.core c).ba = k.ba ∧ (t.core c).nest = k.nest ∧
      (t.core c).nstk = k.nstk ∧ (t.core c).z = k.z ∧ (t.core c).n = k.n ∧ (t.core c).c = k.c ∧ (t.core c).v = k.v ∧
      (t.core c).ie = k.ie ∧ (t.core c).sf = k.sf ∧ (t.core c).te = k.te) ∧
    (s.mode = STANDBY → t.mem = s.mem) ∧
    (s.mode ≠ STANDBY → t.rle a 4 = x.toNat ∧ t.rle (a + 4) 4 = k.status % 2 ^ 32 ∧ t.rle (a + 8) 4 = k.recvLeft.toNat ∧
      t.rle (a + 12) 4 = (0x200 + e.cause) % 2 ^ 32 ∧ sameBytesBut a 16 s t) ∧
    ∀ d, d ≠ c → t.core d = s.core d

/-- Where no entry can be made the core halts (R108, R129). -/
def Obligations.ExceptionHalts : Prop :=
  ∀ (s : State) (c : Fin 24) (e : Exc) (x : BitVec 17) (code : Nat) (imp : Bool),
    let k := s.core c
    let t := s.takeExc c e x code imp
    (k.rl = 17 ∨ k.noRoom 16 = true) →
    (t.core c).run = .halted ∧ (t.core c).haltCause = (if k.rl = 17 then 1 else 2) ∧ (t.core c).xpc = x ∧
      (t.faultStatus (.brn (c / 4))).testBit BRN_CORE_HALT = true ∧ t.mem = s.mem

/-- Bit logic (R95). -/
def Obligations.BitLogicSetsBa : Prop :=
  ∀ (c : Fin 24) (r : BitRef) (s : State), s.executes c = true →
    let k := s.core c
    (∀ (v : View) (i a : Nat), bitTarget k r = .ok (v, i) → localKey c v = some a → s.viewBad c 1 v = false →
      let b := (s.lrb (c / 4) a).toNat.testBit i
      let done : Bool → Host.Outcome State Fault Refusal := fun x =>
        .next ((s.viewSeen c 1 v).retire c { k with ba := x } (k.pc + 4) 1)
      exec (.jLd c r) s = done b ∧ exec (.jLdn c r) s = done (!b) ∧ exec (.jAnd c r) s = done (k.ba && b) ∧
      exec (.jAndn c r) s = done (k.ba && !b) ∧ exec (.jOr c r) s = done (k.ba || b) ∧
      exec (.jOrn c r) s = done (k.ba || !b) ∧ exec (.jXor c r) s = done (xor k.ba b) ∧
      exec (.jXorn c r) s = done (xor k.ba (!b))) ∧
    (∀ e, (bitTarget k r = .error e ∨ ∃ v i, bitTarget k r = .ok (v, i) ∧ (localKey c v).isSome = true ∧
        s.viewBad c 1 v = true ∧ e = ⟨xECC, some (BitVec.ofNat 40 v.addr)⟩) →
      ∀ ins ∈ [Instr.jLd c r, .jLdn c r, .jAnd c r, .jAndn c r, .jOr c r, .jOrn c r, .jXor c r, .jXorn c r, .jSt c r,
        .jStn c r, .jSet c r, .jClr c r], exec ins s = .next (s.fail c e))

/-- Bit stores (R95, R96). -/
def Obligations.BitStoreChangesOneBit : Prop :=
  ∀ (c : Fin 24) (r : BitRef) (s : State) (v : View) (i a : Nat), s.executes c = true → s.mode ≠ STANDBY →
    bitTarget (s.core c) r = .ok (v, i) → localKey c v = some a → s.viewBad c 1 v = false → i < 8 →
    AMap.find (s.quay (c / 4)).overlay a = none →
    let k := s.core c
    let old := (s.rb a).getLsbD i
    let is : Instr → Bool → Prop := fun ins x => ∃ t, exec ins s = .next t ∧
      (∀ j < 8, (t.rb a).getLsbD j = if j = i then x else (s.rb a).getLsbD j) ∧ sameBytesBut a 1 s t ∧
      (t.core c).w = k.w ∧ (t.core c).p = k.p ∧ (t.core c).ba = k.ba ∧ (t.core c).pc = k.pc + 4 ∧
      ∀ d, d ≠ c.val → t.core d = s.core d
    is (.jSt c r) k.ba ∧ is (.jStn c r) (!k.ba) ∧ is (.jSet c r) (k.ba || old) ∧ is (.jClr c r) (!k.ba && old)

/-- BA and nesting (R97). -/
def Obligations.BaAndNesting : Prop :=
  ∀ (c : Fin 24) (s : State), s.executes c = true →
    let k := s.core c
    let done : Core → Host.Outcome State Fault Refusal := fun x => .next (s.retire c x (k.pc + 4) 1)
    exec (.jNot c) s = done { k with ba := !k.ba } ∧ exec (.jBa1 c) s = done { k with ba := true } ∧
    exec (.jBa0 c) s = done { k with ba := false } ∧
    (∀ op : BitVec 3, op.toNat ≤ 5 → k.nest < 16 →
      exec (.jOpen c op) s =
        done { k with nstk := nestPut k.nstk k.nest (bit k.ba * 8 + op.toNat), nest := k.nest + 1 }) ∧
    (∀ op : BitVec 3, 5 < op.toNat → exec (.jOpen c op) s = .next (s.fail c ⟨xILLEGAL, none⟩)) ∧
    (∀ op : BitVec 3, op.toNat ≤ 5 → k.nest = 16 → exec (.jOpen c op) s = .next (s.fail c ⟨xNEST_OVF, none⟩)) ∧
    (k.nest = 0 → exec (.jClose c) s = .next (s.fail c ⟨xNEST_UNF, none⟩)) ∧
    (0 < k.nest →
      let e := nestEntry k.nstk (k.nest - 1)
      exec (.jClose c) s = done { k with nest := k.nest - 1, ba := nestOp (e % 8) (8 ≤ e) k.ba })

/-- OPEN, then CLOSE (R97). -/
def Obligations.OpenThenCloseCombines : Prop :=
  ∀ (stk : BitVec 64) (depth : Nat) (saved x : Bool) (op : BitVec 3), depth < 16 → op.toNat ≤ 5 →
    let stk' := nestPut stk depth (bit saved * 8 + op.toNat)
    let e := nestEntry stk' depth
    nestOp (e % 8) (8 ≤ e) x =
      (match op.toNat with
       | 0 => saved && x | 1 => saved && !x | 2 => saved || x | 3 => saved || !x | 4 => xor saved x
       | _ => xor saved (!x)) ∧
    ∀ j < 16, j ≠ depth → nestEntry stk' j = nestEntry stk j

/-- Loads (R99). -/
def Obligations.LoadsExtend : Prop :=
  ∀ (c : Fin 24) (w : Fin 16) (r : WordRef) (s : State), s.executes c = true →
    let k := s.core c
    let loads : Nat → (Nat → BitVec 64) → Instr → Prop := fun n f i =>
      (∀ v a, wordTarget k n r = .ok v → localKey c v = some a → s.viewBad c n v = false →
        exec i s = .next ((s.viewSeen c n v).retire c { k with w := k.w.set w (f (leNat (s.lrbs (c / 4) a n))) }
          (k.pc + 4) 1)) ∧
      (∀ a, wordTarget k n r = .ok (.dev a) → inSram a n = true → inWindow a n = false → s.inReset = false →
        s.eccUncorr a n = false → (s.quay (c / 4)).overlay = [] →
        exec i s = .next ((s.eccSeen a n).retire c { k with w := k.w.set w (f (s.rle a n)) } (k.pc + 4) 18)) ∧
      (∀ o, wordTarget k n r = .ok (.instr o) → s.viewBad c n (.instr o) = false →
        exec i s = .next ((s.viewSeen c n (.instr o)).retire c { k with w := k.w.set w (f (s.rle (instrKey c o) n)) }
          (k.pc + 4) 1)) ∧
      (∀ v, wordTarget k n r = .ok v → s.viewBad c n v = true →
        exec i s = .next (s.fail c ⟨xECC, some (BitVec.ofNat 40 v.addr)⟩)) ∧
      (∀ a x t, wordTarget k n r = .ok (.dev a) → s.loadView c n (.dev a) = (.ok x, t) →
        let y := t.loadCycles a
        exec i s = .next (y.2.retire c { y.2.core c with w := (y.2.core c).w.set w (f x) } ((y.2.core c).pc + 4) y.1)) ∧
      (∀ v e t, wordTarget k n r = .ok v → s.loadView c n v = (.error e, t) → exec i s = .next (t.fail c e)) ∧
      (∀ e, wordTarget k n r = .error e → exec i s = .next (s.fail c e))
    loads 1 (fun x => (BitVec.ofNat 8 x).signExtend 64) (.ld8 c w r) ∧
    loads 1 (fun x => (BitVec.ofNat 8 x).zeroExtend 64) (.ld8u c w r) ∧
    loads 2 (fun x => (BitVec.ofNat 16 x).signExtend 64) (.ld16 c w r) ∧
    loads 2 (fun x => (BitVec.ofNat 16 x).zeroExtend 64) (.ld16u c w r) ∧
    loads 4 (fun x => (BitVec.ofNat 32 x).signExtend 64) (.ld32 c w r) ∧
    loads 4 (fun x => (BitVec.ofNat 32 x).zeroExtend 64) (.ld32u c w r) ∧
    loads 8 (fun x => BitVec.ofNat 64 x) (.ld64 c w r)

/-- Stores (R99, R89). -/
def Obligations.StoresWriteTheirBytes : Prop :=
  ∀ (c : Fin 24) (w : Fin 16) (r : WordRef) (s : State), s.executes c = true →
    let k := s.core c
    let stores : Nat → Instr → Prop := fun n i =>
      (∀ v a, s.mode ≠ STANDBY → wordTarget k n r = .ok v → localKey c v = some a →
        ∃ t, exec i s = .next t ∧ t.rle a n = (k.w.get w).toNat % 2 ^ (8 * n) ∧ sameBytesBut a n s t ∧
          (t.core c).w = k.w ∧ (t.core c).p = k.p ∧ (t.core c).ba = k.ba ∧ (t.core c).z = k.z ∧ (t.core c).n = k.n ∧
          (t.core c).c = k.c ∧ (t.core c).v = k.v ∧ (t.core c).pc = k.pc + 4 ∧
          ∀ d, d ≠ c.val → t.core d = s.core d) ∧
      (∀ o, wordTarget k n r = .ok (.instr o) →
        exec i s = .next (s.fail c ⟨xDBUS, some (BitVec.ofNat 40 (0x20200000 + o))⟩)) ∧
      (∀ a, s.mode ≠ STANDBY → wordTarget k n r = .ok (.dev a) →
        let y := s.busWrite c a n ((k.w.get w).toNat % 2 ^ (8 * n))
        let t := if y.1 then y.2 else y.2.postError c a
        exec i s = .next (t.retire c (t.core c) (k.pc + 4) 1)) ∧
      (∀ e, wordTarget k n r = .error e → exec i s = .next (s.fail c e))
    stores 1 (.st8 c w r) ∧ stores 2 (.st16 c w r) ∧ stores 4 (.st32 c w r) ∧ stores 8 (.st64 c w r)

/-- Stores of a standby (R415). -/
def Obligations.StandbyStoresStayInOverlay : Prop :=
  ∀ (c : Fin 24) (w : Fin 16) (s : State), s.executes c = true → s.mode = STANDBY →
    let full : Nat → State → Prop := fun n t => s.overlayFull (c / 4) n = true →
      (t.quay (c / 4)).halted = true ∧ t.core c = s.core c ∧
        t.g PAIR_STATUS_SHADOW_FULL = min (s.g PAIR_STATUS_SHADOW_FULL + 1) (2 ^ PAIR_STATUS_SHADOW_FULL.w - 1)
    (∀ (disp : BitVec 18) (p : Fin 4), ∀ ins ∈ [Instr.jCall c disp, .jCallp c p],
      ∃ t, exec ins s = .next t ∧ t.mem = s.mem) ∧
    (∀ r v i a, bitTarget (s.core c) r = .ok (v, i) → localKey c v = some a → s.viewBad c 1 v = false →
      ∀ ins ∈ [Instr.jSt c r, .jStn c r, .jSet c r, .jClr c r],
        ∃ t, exec ins s = .next t ∧ t.mem = s.mem ∧ full 1 t) ∧
    (∀ r v n ins, (n, ins) ∈ [(1, Instr.st8 c w r), (2, .st16 c w r), (4, .st32 c w r), (8, .st64 c w r)] →
      wordTarget (s.core c) n r = .ok v → (∀ o, v ≠ .instr o) →
        ∃ t, exec ins s = .next t ∧ t.mem = s.mem ∧ full n t)

/-- Integer instructions, register form (R100, R101). -/
def Obligations.IntegerResults : Prop :=
  ∀ (c : Fin 24) (wd wa wb : Fin 16) (s : State), s.executes c = true →
    let k := s.core c
    let a := k.w.get wa
    let b := k.w.get wb
    let n := shCount b
    let put : Nat → BitVec 64 → Bool → Bool → BitVec 7 → Host.Outcome State Fault Refusal := fun cyc x cf vf sf =>
      .next (s.retire c { k with w := k.w.set wd x, z := x == 0, n := x.msb, c := cf, v := vf, sf := k.sf ||| sf }
        (k.pc + 4) cyc sf)
    let iov : Bool → BitVec 7 := fun v => if v then 64 else 0
    let putV : Nat → BitVec 64 → Bool → Bool → Host.Outcome State Fault Refusal := fun cyc x cf vf =>
      put cyc x cf vf (iov vf)
    let sat : Int → BitVec 64 × Bool := fun i =>
      if i < -(2 ^ 63) then (0x8000000000000000#64, true) else if 2 ^ 63 ≤ i then (0x7FFFFFFFFFFFFFFF#64, true)
      else (BitVec.ofInt 64 i, false)
    (exec (.jAdd c wd wa wb) s =
        putV 1 (a + b) (2 ^ 64 ≤ a.toNat + b.toNat) ((a + b).toInt ≠ a.toInt + b.toInt) ∧
      exec (.jSub c wd wa wb) s = putV 1 (a - b) (a.toNat < b.toNat) ((a - b).toInt ≠ a.toInt - b.toInt) ∧
      exec (.jIand c wd wa wb) s = put 1 (a &&& b) false false 0 ∧
      exec (.jIor c wd wa wb) s = put 1 (a ||| b) false false 0 ∧
      exec (.jIxor c wd wa wb) s = put 1 (a ^^^ b) false false 0 ∧
      exec (.jShl c wd wa wb) s = put 1 (a <<< n) (0 < n && a.getLsbD (64 - n)) false 0 ∧
      exec (.jShr c wd wa wb) s = put 1 (a >>> n) (0 < n && a.getLsbD (n - 1)) false 0 ∧
      exec (.jSar c wd wa wb) s = put 1 (a.sshiftRight n) (0 < n && a.getLsbD (n - 1)) false 0) ∧
    (exec (.jMul c wd wa wb) s = putV 1 (a * b) false ((a * b).toInt ≠ a.toInt * b.toInt) ∧
      exec (.jMulhs c wd wa wb) s = put 1 (BitVec.ofInt 64 (a.toInt * b.toInt / 2 ^ 64)) false false 0 ∧
      exec (.jMulhu c wd wa wb) s = put 1 (BitVec.ofNat 64 (a.toNat * b.toNat / 2 ^ 64)) false false 0) ∧
    (b = 0 → exec (.jDivs c wd wa wb) s = put 34 0 false true 32 ∧ exec (.jDivu c wd wa wb) s = put 34 0 false true 32 ∧
      exec (.jRems c wd wa wb) s = put 34 a false true 32 ∧ exec (.jRemu c wd wa wb) s = put 34 a false true 32) ∧
    (a = 0x8000000000000000#64 → b = -1 → exec (.jDivs c wd wa wb) s = putV 34 a false true ∧
      exec (.jRems c wd wa wb) s = putV 34 0 false true) ∧
    (b ≠ 0 → exec (.jDivu c wd wa wb) s = put 34 (BitVec.ofNat 64 (a.toNat / b.toNat)) false false 0 ∧
      exec (.jRemu c wd wa wb) s = put 34 (BitVec.ofNat 64 (a.toNat % b.toNat)) false false 0) ∧
    (b ≠ 0 → ¬ (a = 0x8000000000000000#64 ∧ b = -1) →
      exec (.jDivs c wd wa wb) s = put 34 (BitVec.ofInt 64 (a.toInt.tdiv b.toInt)) false false 0 ∧
      exec (.jRems c wd wa wb) s = put 34 (BitVec.ofInt 64 (a.toInt.tmod b.toInt)) false false 0) ∧
    (exec (.jMin c wd wa wb) s = put 1 (if a.toInt ≤ b.toInt then a else b) k.c k.v 0 ∧
      exec (.jMax c wd wa wb) s = put 1 (if b.toInt ≤ a.toInt then a else b) k.c k.v 0 ∧
      exec (.jMinu c wd wa wb) s = put 1 (if a.toNat ≤ b.toNat then a else b) k.c k.v 0 ∧
      exec (.jMaxu c wd wa wb) s = put 1 (if b.toNat ≤ a.toNat then a else b) k.c k.v 0) ∧
    exec (.jAddsat c wd wa wb) s = putV 1 (sat (a.toInt + b.toInt)).1 false (sat (a.toInt + b.toInt)).2 ∧
    exec (.jSubsat c wd wa wb) s = putV 1 (sat (a.toInt - b.toInt)).1 false (sat (a.toInt - b.toInt)).2 ∧
    exec (.jAbs c wd wa wb) s =
      putV 1 (if a.toInt < 0 then -a else a) false (a = 0x8000000000000000#64) ∧
    exec (.jNeg c wd wa wb) s = putV 1 (-a) false (a = 0x8000000000000000#64)

/-- Integer instructions, immediate form (R100). -/
def Obligations.IntegerImmediates : Prop :=
  ∀ (c : Fin 24) (wd wa : Fin 16) (imm : BitVec 14) (s : State), s.executes c = true →
    let k := s.core c
    let a := k.w.get wa
    let b := imm.signExtend 64
    let n := b.toNat % 64
    let put : BitVec 64 → Bool → Bool → BitVec 7 → Host.Outcome State Fault Refusal := fun x cf vf sf =>
      .next (s.retire c { k with w := k.w.set wd x, z := x == 0, n := x.msb, c := cf, v := vf, sf := k.sf ||| sf }
        (k.pc + 4) 1 sf)
    let putV : BitVec 64 → Bool → Bool → Host.Outcome State Fault Refusal := fun x cf vf =>
      put x cf vf (if vf then 64 else 0)
    exec (.jAddi c wd wa imm) s =
      putV (a + b) (2 ^ 64 ≤ a.toNat + b.toNat) ((a + b).toInt ≠ a.toInt + b.toInt) ∧
    exec (.jAndi c wd wa imm) s = put (a &&& b) false false 0 ∧
    exec (.jOri c wd wa imm) s = put (a ||| b) false false 0 ∧
    exec (.jXori c wd wa imm) s = put (a ^^^ b) false false 0 ∧
    exec (.jShli c wd wa imm) s = put (a <<< n) (0 < n && a.getLsbD (64 - n)) false 0 ∧
    exec (.jShri c wd wa imm) s = put (a >>> n) (0 < n && a.getLsbD (n - 1)) false 0 ∧
    exec (.jSari c wd wa imm) s = put (a.sshiftRight n) (0 < n && a.getLsbD (n - 1)) false 0 ∧
    exec (.jMuli c wd wa imm) s = putV (a * b) false ((a * b).toInt ≠ a.toInt * b.toInt)

/-- Division (R100, R101). -/
def Obligations.DivisionRebuildsDividend : Prop :=
  ∀ (c : Fin 24) (wd wa wb : Fin 16) (s : State), s.executes c = true → (s.core c).te = 0 →
    let a := (s.core c).w.get wa
    let b := (s.core c).w.get wb
    ∃ tq tr uq ur, exec (.jDivs c wd wa wb) s = .next tq ∧ exec (.jRems c wd wa wb) s = .next tr ∧
      exec (.jDivu c wd wa wb) s = .next uq ∧ exec (.jRemu c wd wa wb) s = .next ur ∧
      let q := (tq.core c).w.get wd
      let r := (tr.core c).w.get wd
      let q' := (uq.core c).w.get wd
      let r' := (ur.core c).w.get wd
      (b ≠ 0 → ¬ (a = 0x8000000000000000#64 ∧ b = -1) →
        a.toInt = q.toInt * b.toInt + r.toInt ∧ r.toInt.natAbs < b.toInt.natAbs ∧
          (r.toInt = 0 ∨ (r.toInt < 0 ↔ a.toInt < 0))) ∧
      (b ≠ 0 → a.toNat = q'.toNat * b.toNat + r'.toNat ∧ r'.toNat < b.toNat) ∧
      (b = 0 → q = 0 ∧ r = a ∧ q' = 0 ∧ r' = a ∧ (tq.core c).v = true ∧ (tr.core c).v = true ∧
        (tq.core c).sf &&& 32 = 32 ∧ (uq.core c).sf &&& 32 = 32)

/-- FP64 instructions (R102, R104). -/
def Obligations.FpResults : Prop :=
  ∀ (c : Fin 24) (wd wa wb : Fin 16) (s : State), s.executes c = true →
    let k := s.core c
    let x := (k.w.get wa).toNat
    let y := (k.w.get wb).toNat
    let d := (k.w.get wd).toNat
    let put : Nat → Nat × Nat → Host.Outcome State Fault Refusal := fun cyc r =>
      .next (s.retire c { k with w := k.w.set wd (BitVec.ofNat 64 r.1), sf := k.sf ||| BitVec.ofNat 7 r.2 } (k.pc + 4) cyc
        (BitVec.ofNat 7 r.2))
    let int : Int × Nat → Nat × Nat := fun r => ((r.1 % 2 ^ 64).toNat, r.2)
    (exec (.jFadd c wd wa wb) s = put 1 (Fp.add x y) ∧ exec (.jFsub c wd wa wb) s = put 1 (Fp.sub x y) ∧
      exec (.jFmul c wd wa wb) s = put 1 (Fp.mul x y) ∧ exec (.jFdiv c wd wa wb) s = put 22 (Fp.div x y) ∧
      exec (.jFsqrt c wd wa) s = put 24 (Fp.sqrt x) ∧ exec (.jFma c wd wa wb) s = put 1 (Fp.fma false d x y) ∧
      exec (.jFms c wd wa wb) s = put 1 (Fp.fma true d x y) ∧
      exec (.jFmin c wd wa wb) s = put 1 (Fp.minmax false x y) ∧
      exec (.jFmax c wd wa wb) s = put 1 (Fp.minmax true x y)) ∧
    (exec (.jFabs c wd wa) s = put 1 (if (Fp.b64.unpack x).isNan then 0x7FF8000000000000 else x % 2 ^ 63, 0) ∧
      exec (.jFneg c wd wa) s = put 1 (if (Fp.b64.unpack x).isNan then 0x7FF8000000000000
        else if x < 2 ^ 63 then x + 2 ^ 63 else x - 2 ^ 63, 0)) ∧
    exec (.jItof c wd wa) s = put 1 (Fp.ofInt (k.w.get wa).toInt) ∧ exec (.jUtof c wd wa) s = put 1 (Fp.ofInt x) ∧
    exec (.jFtoi c wd wa) s = put 1 (int (Fp.toInt false (-(2 ^ 63)) (2 ^ 63 - 1) x)) ∧
    exec (.jFtoir c wd wa) s = put 1 (int (Fp.toInt true (-(2 ^ 63)) (2 ^ 63 - 1) x)) ∧
    exec (.jFtou c wd wa) s = put 1 (int (Fp.toInt false 0 (2 ^ 64 - 1) x))

/-- Compares (R103) and WTOBA (R104). -/
def Obligations.ComparesSetBa : Prop :=
  ∀ (c : Fin 24) (m : BitVec 3) (wa wb : Fin 16) (o : CmpRef) (s : State), s.executes c = true →
    let k := s.core c
    let a := k.w.get wa
    let b : BitVec 64 := match o with | .reg r => k.w.get r | .imm i => i.signExtend 64
    let x := Fp.cmp a.toNat (k.w.get wb).toNat
    let into : Bool → Bool := fun q =>
      if m.toNat = 0 then q else if m.toNat = 1 then k.ba && q else if m.toNat = 2 then k.ba || q else xor k.ba q
    let is : Instr → Bool → Bool → Prop := fun i q fi =>
      exec i s = (if 3 < m.toNat then .next (s.fail c ⟨xILLEGAL, none⟩)
        else .next (s.retire c { k with ba := into q, sf := k.sf ||| (if fi then 16 else 0) } (k.pc + 4) 1
          (if fi then 16 else 0)))
    (is (.jEq c m wa o) (a = b) false ∧ is (.jNe c m wa o) (a ≠ b) false ∧ is (.jLt c m wa o) (a.toInt < b.toInt) false ∧
      is (.jLe c m wa o) (a.toInt ≤ b.toInt) false ∧ is (.jGt c m wa o) (b.toInt < a.toInt) false ∧
      is (.jGe c m wa o) (b.toInt ≤ a.toInt) false ∧ is (.jLtu c m wa o) (a.toNat < b.toNat) false ∧
      is (.jLeu c m wa o) (a.toNat ≤ b.toNat) false ∧ is (.jGtu c m wa o) (b.toNat < a.toNat) false ∧
      is (.jGeu c m wa o) (b.toNat ≤ a.toNat) false ∧ is (.jWtoba c m wa) (a ≠ 0) false) ∧
    is (.jFeq c m wa wb) (!x.un && x.eq) x.snan ∧ is (.jFne c m wa wb) (x.un || !x.eq) x.snan ∧
    is (.jFlt c m wa wb) (!x.un && x.lt) (x.snan || x.un) ∧ is (.jFle c m wa wb) (!x.un && (x.lt || x.eq)) (x.snan || x.un) ∧
    is (.jFgt c m wa wb) (!x.un && !x.lt && !x.eq) (x.snan || x.un) ∧
    is (.jFge c m wa wb) (!x.un && !x.lt) (x.snan || x.un) ∧ is (.jFun c m wa wb) x.un x.snan

/-- Moves, pointers, long forms (R104, R105, R109). -/
def Obligations.MovesAndLongForms : Prop :=
  ∀ (c : Fin 24) (wd wa : Fin 16) (pd : Fin 4) (i16 : BitVec 16) (i8 : BitVec 8) (imm : BitVec 32) (s : State),
    s.executes c = true →
    let k := s.core c
    let one : Core → Host.Outcome State Fault Refusal := fun x => .next (s.retire c x (k.pc + 4) 1)
    let second : View := .instr (k.pc + 4).toNat
    let u := s.viewSeen c 4 second
    let two : Instr → Core → Prop := fun i x =>
      (s.viewBad c 4 second = false → exec i s = .next (u.retire c x (k.pc + 8) 2)) ∧
      (s.viewBad c 4 second = true → exec i s = .next (s.fail c ⟨xECC, some (BitVec.ofNat 40 second.addr)⟩))
    let f := Fp.widen imm.toNat
    exec (.jMov c wd wa) s = one { k with w := k.w.set wd (k.w.get wa) } ∧
    exec (.jBatow c wd) s = one { k with w := k.w.set wd (if k.ba then 1 else 0) } ∧
    exec (.jMovp c pd wa) s = one { k with p := k.p.set pd ((k.w.get wa).truncate 40) } ∧
    exec (.jMovwp c pd wa) s = one { k with w := k.w.set wa ((k.p.get pd).zeroExtend 64) } ∧
    exec (.jAddp c pd i16) s = one { k with p := k.p.set pd (k.p.get pd + i16.signExtend 40) } ∧
    exec (.jAddpw c pd wa) s = one { k with p := k.p.set pd (k.p.get pd + (k.w.get wa).truncate 40) } ∧
    two (.jLdi c wd imm) { k with w := k.w.set wd (imm.signExtend 64) } ∧
    two (.jLdih c wd imm) { k with w := k.w.set wd (imm ++ (k.w.get wd).truncate 32) } ∧
    (s.viewBad c 4 second = false → exec (.jFldi c wd imm) s = .next (u.retire c
      { k with w := k.w.set wd (BitVec.ofNat 64 f.1), sf := k.sf ||| BitVec.ofNat 7 f.2 } (k.pc + 8) 2
      (BitVec.ofNat 7 f.2))) ∧
    two (.jLpi c pd i8 imm) { k with p := k.p.set pd (i8 ++ imm) }

/-- Branches (R106). -/
def Obligations.BranchesByCondition : Prop :=
  ∀ (c : Fin 24) (disp : BitVec 22) (s : State), s.executes c = true →
    let k := s.core c
    let t : Int := k.pc.toNat + 4 * disp.toInt
    let is : Instr → Bool → Prop := fun i q =>
      (q = false → exec i s = .next (s.retire c k (k.pc + 4) 1)) ∧
      (q = true → 0 ≤ t → t ≤ 0x1FFFC → exec i s = .next (s.retire c k (BitVec.ofInt 17 t) 2)) ∧
      (q = true → (t < 0 ∨ 0x1FFFC < t) → exec i s = .next (s.fail c ⟨xIFETCH, none⟩))
    is (.jB c disp) true ∧ is (.jBt c disp) k.ba ∧ is (.jBf c disp) (!k.ba) ∧ is (.jBeq c disp) k.z ∧
    is (.jBne c disp) (!k.z) ∧ is (.jBlt c disp) (xor k.n k.v) ∧ is (.jBge c disp) (!(xor k.n k.v)) ∧
    is (.jBltu c disp) k.c ∧ is (.jBgeu c disp) (!k.c) ∧ is (.jBmi c disp) k.n ∧ is (.jBpl c disp) (!k.n) ∧
    is (.jBvs c disp) k.v ∧ is (.jBvc c disp) (!k.v)

/-- Calls, return, loop (R107, R108). -/
def Obligations.CallsReturnsLoops : Prop :=
  ∀ (c : Fin 24) (disp : BitVec 18) (p : Fin 4) (wd : Fin 16) (s : State), s.executes c = true → s.mode ≠ STANDBY →
    let k := s.core c
    let calls : Instr → BitVec 17 → Prop := fun i t =>
      (k.noRoom 8 = true → exec i s = .next (s.haltCore c 2)) ∧
      (k.noRoom 8 = false → 8 ≤ k.sp.toNat →
        ∃ u, exec i s = .next u ∧ (u.core c).sp = BitVec.ofNat 16 (k.sp.toNat - 8) ∧ (u.core c).pc = t ∧
          (u.core c).w = k.w ∧ (u.core c).p = k.p ∧ (u.core c).ba = k.ba ∧ (u.core c).cyc = k.cyc + 2 ∧
          u.rle (dataKey c (k.sp.toNat - 8)) 8 = (k.pc + 4).toNat ∧ sameBytesBut (dataKey c (k.sp.toNat - 8)) 8 s u)
    (∀ t, jumpTarget k.pc disp = .ok t → calls (.jCall c disp) t) ∧
    (∀ o, viewOf (k.p.get p).toNat = .instr o → calls (.jCallp c p) (BitVec.ofNat 17 (o / 4 * 4))) ∧
    ((∀ o, viewOf (k.p.get p).toNat ≠ .instr o) → exec (.jCallp c p) s = .next (s.fail c ⟨xIFETCH, none⟩)) ∧
    (k.sp.toNat + 8 ≤ 0x10000 → s.viewBad c 8 (.data k.sp.toNat) = false → exec (.jRet c) s =
      .next ((s.viewSeen c 8 (.data k.sp.toNat)).retire c { k with sp := k.sp + 8 }
        (BitVec.ofNat 17 (leNat (s.lrbs (c / 4) (dataKey c k.sp.toNat) 8) % 2 ^ 17 / 4 * 4)) 3)) ∧
    (let x := k.w.get wd - 1
     let k' : Core := { k with w := k.w.set wd x }
     (x = 0 → exec (.jLoop c wd disp) s = .next (s.retire c k' (k.pc + 4) 1)) ∧
     (∀ t, x ≠ 0 → jumpTarget k.pc disp = .ok t → exec (.jLoop c wd disp) s = .next (s.retire c k' t 2)))

/-- CALL, then RET (R107). -/
def Obligations.CallThenRetReturns : Prop :=
  ∀ (c : Fin 24) (disp : BitVec 18) (s : State) (t : BitVec 17), s.executes c = true → s.mode ≠ STANDBY →
    let k := s.core c
    s.eccBad = [] → (s.quay (c / 4)).overlay = [] → k.noRoom 8 = false → k.haltReq = false → k.stepping = false → k.run = .running →
    k.pc.toNat % 4 = 0 → jumpTarget k.pc disp = .ok t →
    ∃ u v, exec (.jCall c disp) s = .next u ∧ exec (.jRet c) u = .next v ∧
      (v.core c).pc = k.pc + 4 ∧ (v.core c).sp = k.sp ∧ (v.core c).w = k.w ∧ (v.core c).p = k.p ∧
      (v.core c).ba = k.ba ∧ (v.core c).nest = k.nest ∧ (v.core c).z = k.z ∧ (v.core c).n = k.n ∧
      (v.core c).c = k.c ∧ (v.core c).v = k.v

/-- Timer instances (R113 to R116). -/
def Obligations.TimerInstances : Prop :=
  ∀ (c : Fin 24) (r : InstRef) (s : State) (kind : Nat) (ins : Instr),
    (kind, ins) ∈ [(1, Instr.jTon c r), (2, .jTof c r), (3, .jTp c r)] → s.executes c = true → s.mode ≠ STANDBY →
    (∀ e, s.instCheck c 32 r [kind] = .error e → exec ins s = .next (s.fail c e)) ∧
    (∀ o, s.instCheck c 32 r [kind] = .ok o →
      let i := (s.core c).ba
      let stamp := (s.core c).stamp.toNat
      let x := s.timerAt c o i stamp
      let d := timerDelta stamp x.last
      let et' := min (x.et + d) x.pt
      let y : Nat × Bool × Bool :=
        if kind = 1 then let et := if i && x.inPrev then et' else 0; (et, i && x.pt ≤ et, x.run)
        else if kind = 2 then
          if i then (0, true, false)
          else if x.inPrev then (0, 0 < x.pt, true)
          else if x.run then (et', et' < x.pt, et' < x.pt) else (x.et, false, x.run)
        else if x.run then (et', et' < x.pt, et' < x.pt)
        else if i && !x.inPrev then (0, 0 < x.pt, 0 < x.pt)
        else (if i then x.et else 0, x.run, x.run)
      ∃ t, exec ins s = .next t ∧ (t.core c).ba = y.2.1 ∧ (t.core c).w = (s.core c).w ∧
        t.rle (dataKey c (o + 16)) 8 = y.1 % 2 ^ 64 ∧ t.rle (dataKey c (o + 24)) 8 = stamp % 2 ^ 64 ∧
        t.rle (dataKey c (o + 4)) 4 =
          (s.gen c * 256 + s.instCtrl c o % 256 / 8 * 8 + bit y.2.2 * 4 + bit i * 2 + bit y.2.1) % 2 ^ 32 ∧
        sameBytes (fun a => a < dataKey c (o + 4) ∨ (dataKey c (o + 8) ≤ a ∧ a < dataKey c (o + 16)) ∨
          dataKey c (o + 32) ≤ a) s t)

/-- Counter and edge instances (R117, R118). -/
def Obligations.CounterAndEdgeInstances : Prop :=
  ∀ (c : Fin 24) (r : InstRef) (s : State), s.executes c = true → s.mode ≠ STANDBY →
    let k := s.core c
    let i := k.ba
    let up : Int → Int := fun v => if v + 1 ≤ 2 ^ 63 - 1 then v + 1 else v
    let down : Int → Int := fun v => if -(2 ^ 63) ≤ v - 1 then v - 1 else v
    let counts : List Nat → Instr → (Counter → Bool × Int) → Prop := fun kinds ins f =>
      (∀ e, s.instCheck c 32 r kinds = .error e → exec ins s = .next (s.fail c e)) ∧
      (∀ o, s.instCheck c 32 r kinds = .ok o →
        let x := s.counterAt c o i
        ∃ t, exec ins s = .next t ∧ (t.core c).ba = (f x).1 ∧ (t.core c).w = k.w ∧
          toSigned 64 (t.rle (dataKey c (o + 16)) 8) = (f x).2 ∧
          t.rle (dataKey c (o + 4)) 4 / 256 = s.gen c % 2 ^ 24 ∧
          sameBytes (fun a => a < dataKey c (o + 4) ∨ (dataKey c (o + 8) ≤ a ∧ a < dataKey c (o + 16)) ∨
            dataKey c (o + 24) ≤ a) s t)
    let edges : Instr → (Bool → Bool) → Prop := fun ins f =>
      (∀ e, s.instCheck c 8 r [7] = .error e → exec ins s = .next (s.fail c e)) ∧
      (∀ o, s.instCheck c 8 r [7] = .ok o →
        let m := if s.instCtrl c o / 256 = s.gen c then (s.instCtrl c o).testBit 0 else i
        ∃ t, exec ins s = .next t ∧ (t.core c).ba = f m ∧ (t.core c).w = k.w ∧
          t.rle (dataKey c (o + 4)) 4 = (s.gen c * 256 + s.instCtrl c o % 256 / 2 * 2 + bit i) % 2 ^ 32 ∧
          sameBytesBut (dataKey c (o + 4)) 4 s t)
    counts [4, 6] (.jCu c r) (fun x => (i, if i && !x.cuPrev && !x.rLevel then up x.cv else x.cv)) ∧
    counts [5, 6] (.jCd c r) (fun x => (i, if i && !x.cdPrev && !x.lLevel then down x.cv else x.cv)) ∧
    counts [4, 6] (.jCr c r) (fun x => (i, if i then 0 else x.cv)) ∧
    counts [5, 6] (.jCl c r) (fun x => (i, if i then x.pv else x.cv)) ∧
    counts [4, 5, 6] (.jCqu c r) (fun x => (x.pv ≤ x.cv, x.cv)) ∧
    counts [4, 5, 6] (.jCqd c r) (fun x => (x.cv ≤ 0, x.cv)) ∧
    edges (.jEdgp c r) (fun m => i && !m) ∧ edges (.jEdgn c r) (fun m => !i && m)

/-- Berths instructions (R120, R121, R109). -/
def Obligations.BerthsInstructions : Prop :=
  ∀ (c : Fin 24) (w wb : Fin 16) (p : Fin 32) (imm : BitVec 32) (s : State), s.executes c = true →
    let k := s.core c
    let x := s.chan p c
    let second := s.viewBad c 4 (.instr (k.pc + 4).toNat) = false
    let sound : Nat → Prop := fun a => s.eccIn (.channel a c) = false
    (p.val < 24 → (s.chan c p).isSome = false → s.waitsFor p c = false → s.gated (p / 4) = false →
      ∃ t, exec (.jSend c w p) s = .next t ∧ (t.core c).ba = true ∧
        t.chan c p = some ⟨(k.w.get w).toNat % 2 ^ 32, c, s.epoch c⟩) ∧
    ((s.chan c p).isSome = true → ∃ t, exec (.jSend c w p) s = .next t ∧ (t.core c).ba = false ∧
      t.channels = s.channels ∧
      t.g BTH_COUNT_FULL_REFUSED = min (s.g BTH_COUNT_FULL_REFUSED + 1) (2 ^ BTH_COUNT_FULL_REFUSED.w - 1)) ∧
    (∀ y, x = some y → sound p → second → ∀ ins ∈ [Instr.jRecv c w wb p, .jRecvi c w p imm],
      ∃ t, exec ins s = .next t ∧ (t.core c).ba = true ∧ (t.core c).w = k.w.set w (BitVec.ofNat 64 y.pack) ∧
        t.chan p c = none) ∧
    (x.isSome = true → ¬ sound p → ∃ t, exec (.jRecv c w wb p) s = .next t ∧ t.chan p c = none ∧
      (t.faultStatus .bth).testBit BTH_ECC_UNCORR = true) ∧
    (∀ a y, s.firstFull c k.anyPos = some a → s.chan a c = some y → sound a →
      ∃ t, exec (.jRecvany c w wb) s = .next t ∧ (t.core c).ba = true ∧
        (t.core c).w = k.w.set w (BitVec.ofNat 64 y.pack) ∧ t.chan a c = none ∧ (t.core c).anyPos = (a + 1) % 32) ∧
    (x = none → k.rsm = false → (k.w.get wb).toNat % 2 ^ 32 = 0 → exec (.jRecv c w wb p) s =
      .next (s.retire c { k with ba := false, rsm := false, recvLeft := 0 } (k.pc + 4) 18)) ∧
    (x = none → k.rsm = false → imm ≠ 0 → second →
      ∃ t, exec (.jRecvi c w p imm) s = .next t ∧ (t.core c).run = .recv ∧ (t.core c).recvFrom = some p.val ∧
        (t.core c).recvLeft = imm ∧ (t.core c).pc = k.pc ∧ (t.core c).w = k.w ∧ t.channels = s.channels) ∧
    exec (.jPoll c p) s = .next (s.retire c { k with ba := x.isSome } (k.pc + 4) 18) ∧
    exec (.jPollany c) s =
      .next (s.retire c { k with ba := (List.range 32).any fun a => (s.chan a c).isSome } (k.pc + 4) 18) ∧
    ∀ (d : Fin 24), (s.core d).run = .recv → s.recvRemains d = 0 →
      ∃ t, exec (.recvTimeout d) s = .next t ∧ (t.core d).ba = false ∧ (t.core d).w = (s.core d).w ∧
        (t.core d).pc = (s.core d).recvNext ∧ sameButCore d (s.fetchSeen d) t

/-- System instructions (R123, R124). FENCE's completion at once and RDTIME's age are the model's choice (log entries 4
and 5). -/
def Obligations.SystemInstructions : Prop :=
  ∀ (c : Fin 24) (w : Fin 16) (n : BitVec 8) (s : State), s.executes c = true →
    let k := s.core c
    let one : Core → Host.Outcome State Fault Refusal := fun x => .next (s.retire c x (k.pc + 4) 1)
    exec (.jNop c) s = one k ∧ exec (.jFence c) s = one k ∧
    exec (.jWait c) s = .next ((s.fetchSeen c).setCore c { k with run := .wait, entering := none }) ∧
    exec (.jEi c) s = one { k with ie := true } ∧ exec (.jDi c) s = one { k with ie := false } ∧
    (∀ v, s.sreg c n.toNat = some v → exec (.jMfs c w n) s = one { k with w := k.w.set w (BitVec.ofNat 64 v) }) ∧
    (0x10 ≤ n.toNat → exec (.jMfs c w n) s = .next (s.fail c ⟨xILLEGAL, none⟩) ∧
      exec (.jMts c n w) s = .next (s.fail c ⟨xILLEGAL, none⟩)) ∧
    (n.toNat < 0x10 → exec (.jMts c n w) s =
      .next (s.retire c (k.mts n.toNat (k.w.get w)).1 (k.pc + 4) 1 (k.mts n.toNat (k.w.get w)).2)) ∧
    exec (.jRdscan c w) s = one { k with w := k.w.set w k.stamp } ∧
    ∃ t age, age ≤ 22 ∧ exec (.jRdtime c w) s = .next t ∧
      (t.core c).w = k.w.set w (BitVec.ofNat 64 (s.tideNs - age)) ∧ t.regs = (s.fetchSeen c).regs ∧ t.mem = s.mem

/-- Special registers written and read back (R124). -/
def Obligations.SpecialRegistersReadBack : Prop :=
  ∀ (c : Fin 24) (w : Fin 16) (s : State), s.executes c = true → (s.core c).te = 0 →
    let x := (s.core c).w.get w
    let wrote : BitVec 8 → Nat → Prop := fun n v =>
      ∃ t, exec (.jMts c n w) s = .next t ∧ t.sreg c n.toNat = some v
    wrote 0x00 (x.toNat % 2 ^ 5) ∧ wrote 0x01 (x.toNat % 2 ^ 7) ∧ wrote 0x02 (x.toNat % 2 ^ 7) ∧
    wrote 0x04 (x.toNat % 2) ∧ wrote 0x05 (x.toNat % 2 ^ 16 / 8 * 8) ∧ wrote 0x06 (x.toNat % 2 ^ 16 / 8 * 8) ∧
    wrote 0x07 (x.toNat % 2 ^ 17 / 2 ^ 14 * 2 ^ 14) ∧ wrote 0x0E (x.toNat % 2 ^ 32) ∧
    ∀ n ∈ [(0x03 : BitVec 8), 0x08, 0x09, 0x0A, 0x0C, 0x0D],
      ∃ t, exec (.jMts c n w) s = .next t ∧ t.sreg c n.toNat = s.sreg c n.toNat

/-- TRAP and BREAK (R123, R136). -/
def Obligations.TrapAndBreak : Prop :=
  ∀ (c : Fin 24) (imm : BitVec 8) (s : State), s.executes c = true →
    let k := s.core c
    let s1 := (s.fetchSeen c).setCore c { k with instret := k.instret + 1, pc := k.pc + 4 }
    let after : State → Host.Outcome State Fault Refusal := fun t => .next (t.setCore c (t.core c).boundary)
    let dbg := (s.mode = PROVISION ∨ s.mode = COMMISSION ∨ s.mode = FACTORY) ∧ s.on BRN_CORE_DEBUG_ENABLE (dCore c) = true
    exec (.jTrap c imm) s = after (s1.takeExc c ⟨xTRAP, none⟩ (k.pc + 4) imm.toNat) ∧
    (¬ dbg → exec (.jBreak c) s = after (s1.takeExc c ⟨xBREAK, none⟩ (k.pc + 4))) ∧
    (dbg →
      let h : Core := { k with instret := k.instret + 1, run := .halted, haltCause := 4 }
      exec (.jBreak c) s = .next ((s.fetchSeen c).setCore c { h with pc := k.pc + 4, entering := none, stepping := false }))

/-- Delivery entry and RETI (R131, R134, R388, R389). -/
def Obligations.DeliveryEntryAndReturn : Prop :=
  (∀ (c : Fin 24) (h : Held) (s : State), (s.core c).held = some h →
    let k := s.core c
    (k.run = .running ∨ k.run = .wait ∨ k.run = .recv) → s.mode ≠ STANDBY →
    s.g BRN_XCHG_STATUS_STATE (dQuay (c / 4)) ≠ 4 → k.ie = true →
    k.rl < h.prio + 1 → (s.quay (c / 4)).halted = false → k.entering = none → k.noRoom 16 = false →
    ∃ t, exec (.mastDeliveryEntry c) s = .next t ∧ (t.core c).rl = h.prio + 1 ∧
      (t.core c).pc = k.vbase + BitVec.ofNat 17 (16 * h.vec) ∧ (t.core c).sp.toNat = k.sp.toNat - 16 ∧
      (t.core c).held = k.kept.head? ∧ (t.core c).w = k.w ∧
      t.rle (dataKey c (k.sp.toNat - 16)) 4 = (if k.run = .wait then k.pc + 4 else k.pc).toNat ∧ t.rle (dataKey c (k.sp.toNat - 4)) 4 = h.vec % 2 ^ 32 ∧
      sameBytesBut (dataKey c (k.sp.toNat - 16)) 16 s t) ∧
  (∀ (c : Fin 24) (s : State), s.executes c = true →
    let k := s.core c
    let word : Nat → Nat := fun o => leNat (s.lrbs (c / 4) (dataKey c (k.sp.toNat + o)) 4)
    (k.rl = 0 → exec (.jReti c) s = .next (s.fail c ⟨xILLEGAL, none⟩)) ∧
    (k.rl ≠ 0 → k.sp.toNat + 16 ≤ 0x10000 → s.viewBad c 16 (.data k.sp.toNat) = false → k.held = none →
      ∃ t, exec (.jReti c) s = .next t ∧ (t.core c).pc = BitVec.ofNat 17 (word 0 % 2 ^ 17 / 4 * 4) ∧
        (t.core c).rl = bits (word 4) 26 5 ∧ (t.core c).ie = (word 4).testBit 31 ∧
        (t.core c).ba = (word 4).testBit 20 ∧ (t.core c).nest = bits (word 4) 21 5 ∧
        (t.core c).recvLeft = BitVec.ofNat 32 (word 8) ∧ (t.core c).sp = k.sp + 16 ∧ (t.core c).w = k.w ∧
        t.mem = s.mem ∧
        ∀ v r rest, k.hstk = (v, r) :: rest → v < 512 → s.g MST_SRC_STATE_OWNER (dSrc v) = c →
          t.on MST_SRC_STATE_ACTIVE (dSrc v) = false))

/-- Debug and posted-store errors (R136, R128). -/
def Obligations.DebugAndPostedErrors : Prop :=
  ∀ (c : Fin 24) (s : State), s.inReset = false →
    let k := s.core c
    let dbg := s.mode = PROVISION ∨ s.mode = COMMISSION ∨ s.mode = FACTORY
    (dbg → k.run = .running → k.stepping = false → exec (.debugHaltReq c) s =
      .next ((s.setCore c { k with run := .halted, haltReq := false, haltCause := 3 }).answer true 0)) ∧
    (¬ dbg → exec (.debugHaltReq c) s = .next (s.answer true 0) ∧ exec (.debugResume c) s = .next (s.answer true 0)) ∧
    (dbg → k.run = .halted → k.haltCause = 3 → exec (.debugResume c) s =
      .next ((s.setCore c { k with run := .running, haltCause := 0 }).answer true 0)) ∧
    (∀ a rest, k.run = .running → k.postErr = a :: rest → exec (.postedStoreError c) s =
      .next ((s.setCore c { k with postErr := rest }).takeExc c ⟨xDBUS, some a⟩ k.pc 0 true)) ∧
    (k.postErr = [] → k.run = .running → exec (.postedStoreError c) s = .next s) ∧
    (¬ dbg → k.stepping = false → exec (.debugStep c) s = .next (s.answer true 0)) ∧
    (dbg → k.run = .halted →
      let u := (s.setCore c { k with stepping := true }).answer true 0
      let a := instrKey c k.pc.toNat
      ∀ t, runWord c (s.rle a 4) (BitVec.ofNat 32 (s.rle (instrKey c ((k.pc + 4).toNat)) 4)) u = .next t →
        exec (.debugStep c) s = .next { t.setCore c (if (t.core c).run = .wait ∨ (t.core c).run = .recv then t.core c
          else { t.core c with stepping := false }) with resp := u.resp })

/-- The Joraone encodings, first half: decode of encode (R92 to R95, R99, R106, R107, R109, R123). -/
def Obligations.EncodedMemoryAndFlowRuns : Prop :=
  ∀ (c : Fin 24) (s : State),
    let runs : Nat → BitVec 32 → Instr → Prop := fun w imm i => runWord c w imm s = exec i s
    let maj : Nat → Nat → Nat := fun m rest => m * 2 ^ 26 + rest
    -- bit logic and bit stores: MAJ 0x01 to 0x06, F in [25:23]
    (∀ (f : Fin 8) (b : BitVec 23) (p : Fin 4) (d : BitVec 21) (m : Nat) (r : BitRef),
      (m, r) ∈ [(1, BitRef.data b), (2, .image b), (3, .ptr p d)] →
      let rest := f.val * 2 ^ 23 + (if m = 3 then p.val * 2 ^ 21 + d.toNat else b.toNat)
      runs (maj m rest) 0 ([Instr.jLd c r, .jLdn c r, .jAnd c r, .jAndn c r, .jOr c r, .jOrn c r, .jXor c r,
        .jXorn c r].getD f (.jNop c)) ∧
      (f.val < 4 → runs (maj (m + 3) rest) 0 ([Instr.jSt c r, .jStn c r, .jSet c r, .jClr c r].getD f (.jNop c)))) ∧
    -- word loads and stores: MAJ 0x08 to 0x0A, F in [25:22], WD in [21:18]
    (∀ (f wd : Fin 16) (o : BitVec 18) (p : Fin 4) (d : BitVec 16) (m : Nat) (r : WordRef),
      (m, r) ∈ [(8, WordRef.data o), (9, .image o), (10, .ptr p d)] → f.val ≠ 7 → f.val < 12 →
      runs (maj m (f.val * 2 ^ 22 + wd.val * 2 ^ 18 + (if m = 10 then p.val * 2 ^ 16 + d.toNat else o.toNat))) 0
        ([Instr.ld8 c wd r, .ld8u c wd r, .ld16 c wd r, .ld16u c wd r, .ld32 c wd r, .ld32u c wd r, .ld64 c wd r,
          .jNop c, .st8 c wd r, .st16 c wd r, .st32 c wd r, .st64 c wd r].getD f (.jNop c))) ∧
    -- branches, calls and loop: MAJ 0x12 and 0x13, C or F in [25:22]
    (∀ (f : Fin 13) (d : BitVec 22), runs (maj 0x12 (f.val * 2 ^ 22 + d.toNat)) 0
      ([Instr.jB c d, .jBt c d, .jBf c d, .jBeq c d, .jBne c d, .jBlt c d, .jBge c d, .jBltu c d, .jBgeu c d, .jBmi c d,
        .jBpl c d, .jBvs c d, .jBvc c d].getD f (.jNop c))) ∧
    (∀ (d : BitVec 18) (p : Fin 4) (wd : Fin 16), runs (maj 0x13 d.toNat) 0 (.jCall c d) ∧
      runs (maj 0x13 (1 * 2 ^ 22)) 0 (.jRet c) ∧ runs (maj 0x13 (2 * 2 ^ 22 + p.val * 2 ^ 20)) 0 (.jCallp c p) ∧
      runs (maj 0x13 (3 * 2 ^ 22 + wd.val * 2 ^ 18 + d.toNat)) 0 (.jLoop c wd d)) ∧
    -- instances: MAJ 0x14, F in [25:22]
    (∀ (f : Fin 11) (o : BitVec 16) (p : Fin 4) (r : InstRef) (x : Nat),
      (r, x) ∈ [(InstRef.abs o, o.toNat), (.ptr p o, 2 ^ 21 + p.val * 2 ^ 19 + o.toNat)] →
      runs (maj 0x14 (f.val * 2 ^ 22 + x)) 0
        ([Instr.jTon c r, .jTof c r, .jTp c r, .jCu c r, .jCd c r, .jCr c r, .jCl c r, .jCqu c r, .jCqd c r, .jEdgp c r,
          .jEdgn c r].getD f (.jNop c))) ∧
    -- system: MAJ 0x00, F in [25:20]
    (∀ (r8 : BitVec 8) (w : Fin 16), runs 0 0 (.jNop c) ∧ runs (1 * 2 ^ 20) 0 (.jWait c) ∧ runs (2 * 2 ^ 20) 0 (.jTend c) ∧
      runs (3 * 2 ^ 20) 0 (.jReti c) ∧ runs (4 * 2 ^ 20 + r8.toNat) 0 (.jTrap c r8) ∧
      runs (5 * 2 ^ 20) 0 (.jBreak c) ∧ runs (6 * 2 ^ 20 + w.val * 2 ^ 16 + r8.toNat * 2 ^ 8) 0 (.jMfs c w r8) ∧
      runs (7 * 2 ^ 20 + w.val * 2 ^ 16 + r8.toNat * 2 ^ 8) 0 (.jMts c r8 w) ∧ runs (8 * 2 ^ 20) 0 (.jEi c) ∧
      runs (9 * 2 ^ 20) 0 (.jDi c) ∧ runs (10 * 2 ^ 20) 0 (.jFence c) ∧
      runs (11 * 2 ^ 20 + w.val * 2 ^ 16) 0 (.jRdtime c w) ∧ runs (12 * 2 ^ 20 + w.val * 2 ^ 16) 0 (.jRdscan c w)) ∧
    -- long forms: MAJ 0x3E, F in [25:20], with their second word
    (∀ (wd : Fin 16) (p : Fin 4) (peer : Fin 32) (i8 : BitVec 8) (imm : BitVec 32),
      runs (maj 0x3E (wd.val * 2 ^ 16)) imm (.jLdi c wd imm) ∧
      runs (maj 0x3E (1 * 2 ^ 20 + wd.val * 2 ^ 16)) imm (.jLdih c wd imm) ∧
      runs (maj 0x3E (2 * 2 ^ 20 + wd.val * 2 ^ 16)) imm (.jFldi c wd imm) ∧
      runs (maj 0x3E (3 * 2 ^ 20 + p.val * 2 ^ 14 + i8.toNat)) imm (.jLpi c p i8 imm) ∧
      runs (maj 0x3E (4 * 2 ^ 20 + wd.val * 2 ^ 16 + peer.val * 2 ^ 9)) imm (.jRecvi c wd peer imm))

/-- The Joraone encodings, second half: decode of encode (R92 to R94, R97, R100, R102 to R105, R120). -/
def Obligations.EncodedArithmeticRuns : Prop :=
  ∀ (c : Fin 24) (s : State),
    let runs : Nat → Instr → Prop := fun w i => runWord c w 0 s = exec i s
    let rr : Nat → Nat → Fin 16 → Fin 16 → Fin 16 → Nat → Nat := fun maj f d a b m =>
      maj * 2 ^ 26 + f * 2 ^ 20 + d.val * 2 ^ 16 + a.val * 2 ^ 12 + b.val * 2 ^ 8 + m * 2 ^ 5
    -- BA and nesting: MAJ 0x07, F in [25:23], OP in [22:20]
    (∀ op : BitVec 3, runs (7 * 2 ^ 26) (.jNot c) ∧ runs (7 * 2 ^ 26 + 1 * 2 ^ 23) (.jBa1 c) ∧
      runs (7 * 2 ^ 26 + 2 * 2 ^ 23) (.jBa0 c) ∧ runs (7 * 2 ^ 26 + 3 * 2 ^ 23 + op.toNat * 2 ^ 20) (.jOpen c op) ∧
      runs (7 * 2 ^ 26 + 4 * 2 ^ 23) (.jClose c)) ∧
    -- register forms: MAJ 0x0B, 0x0D, 0x0E, 0x10; F in [25:20]
    (∀ (f : Fin 23) (d a b : Fin 16), runs (rr 0x0B f d a b 0)
      ([Instr.jAdd c d a b, .jSub c d a b, .jIand c d a b, .jIor c d a b, .jIxor c d a b, .jShl c d a b, .jShr c d a b,
        .jSar c d a b, .jMul c d a b, .jMulhs c d a b, .jMulhu c d a b, .jDivs c d a b, .jDivu c d a b, .jRems c d a b,
        .jRemu c d a b, .jMin c d a b, .jMax c d a b, .jMinu c d a b, .jMaxu c d a b, .jAddsat c d a b,
        .jSubsat c d a b, .jAbs c d a b, .jNeg c d a b].getD f (.jNop c))) ∧
    (∀ (f : Fin 11) (d a b : Fin 16), runs (rr 0x0D f d a b 0)
      ([Instr.jFadd c d a b, .jFsub c d a b, .jFmul c d a b, .jFdiv c d a b, .jFsqrt c d a, .jFma c d a b, .jFms c d a b,
        .jFmin c d a b, .jFmax c d a b, .jFabs c d a, .jFneg c d a].getD f (.jNop c))) ∧
    (∀ (f : Fin 10) (m : BitVec 3) (d a b : Fin 16) (i : BitVec 15),
      let at_ : CmpRef → Instr := fun o =>
        [Instr.jEq c m a o, .jNe c m a o, .jLt c m a o, .jLe c m a o, .jGt c m a o, .jGe c m a o, .jLtu c m a o,
          .jLeu c m a o, .jGtu c m a o, .jGeu c m a o].getD f (.jNop c)
      runs (rr 0x0E f d a b m.toNat) (at_ (.reg b)) ∧
      runs (0x0F * 2 ^ 26 + f.val * 2 ^ 22 + m.toNat * 2 ^ 19 + a.val * 2 ^ 15 + i.toNat) (at_ (.imm i))) ∧
    (∀ (f : Fin 7) (m : BitVec 3) (d a b : Fin 16), runs (rr 0x0E (0x10 + f.val) d a b m.toNat)
      ([Instr.jFeq c m a b, .jFne c m a b, .jFlt c m a b, .jFle c m a b, .jFgt c m a b, .jFge c m a b,
        .jFun c m a b].getD f (.jNop c))) ∧
    (∀ (f : Fin 8) (m : BitVec 3) (d a b : Fin 16), runs (rr 0x10 f d a b m.toNat)
      ([Instr.jMov c d a, .jItof c d a, .jUtof c d a, .jFtoi c d a, .jFtoir c d a, .jFtou c d a, .jBatow c d,
        .jWtoba c m a].getD f (.jNop c))) ∧
    -- immediate forms: MAJ 0x0C; pointers: MAJ 0x11; Berths: MAJ 0x15
    (∀ (f : Fin 8) (d a : Fin 16) (i : BitVec 14),
      runs (0x0C * 2 ^ 26 + f.val * 2 ^ 22 + d.val * 2 ^ 18 + a.val * 2 ^ 14 + i.toNat)
        ([Instr.jAddi c d a i, .jAndi c d a i, .jOri c d a i, .jXori c d a i, .jShli c d a i, .jShri c d a i,
          .jSari c d a i, .jMuli c d a i].getD f (.jNop c))) ∧
    (∀ (f : Fin 4) (p : Fin 4) (a : Fin 16) (i : BitVec 16),
      runs (0x11 * 2 ^ 26 + f.val * 2 ^ 22 + p.val * 2 ^ 20 + a.val * 2 ^ 16 + i.toNat)
        ([Instr.jMovp c p a, .jMovwp c p a, .jAddp c p i, .jAddpw c p a].getD f (.jNop c))) ∧
    ∀ (f : Fin 5) (w wb : Fin 16) (p : Fin 32), (f.val = 2 ∨ f.val = 4 → p.val = 0) →
      runs (0x15 * 2 ^ 26 + f.val * 2 ^ 22 + w.val * 2 ^ 18 + p.val * 2 ^ 13 + wb.val * 2 ^ 9)
        ([Instr.jSend c w p, .jRecv c w wb p, .jRecvany c w wb, .jPoll c p, .jPollany c].getD f (.jNop c))

/-- Commands of the timing contract (R22 to R24, R29, R33). -/
def Obligations.ContractCommands : Prop :=
  ∀ (p : Fin 512) (s : State), s.inReset = false →
    let d := dPath p.val
    let on := s.on SYS_CTR_PATH_ENABLE d
    let kept : State → Prop := fun t => t.mem = s.mem ∧ t.cores = s.cores
    (on = true → exec (.pathEnable p) s = .next (s.answer true 0)) ∧
    (on = false → s.mode = SAFE → exec (.pathEnable p) s = .next ((s.p SYS_CTR_STATUS_REFUSAL d 0x010).answer true 0)) ∧
    (on = false → s.mode ≠ SAFE → s.on SYS_CTR_CHECK_BUSY = true →
      exec (.pathEnable p) s = .next ((s.p SYS_CTR_STATUS_REFUSAL d 0x04C).answer true 0)) ∧
    (on = false → s.mode ≠ SAFE → s.on SYS_CTR_CHECK_BUSY = false →
      ∃ t, exec (.pathEnable p) s = .next t ∧ t.adm.running = some p.val ∧ t.on SYS_CTR_CHECK_BUSY = true ∧
        t.on SYS_CTR_PATH_ENABLE d = false ∧ t.adm.items = s.adm.items ∧ kept t) ∧
    (s.adm.running = some p.val → ∃ t, exec .admissionCheckEnd s = .next t ∧ t.adm.running = none ∧ kept t ∧
      match (admView s s (some p.val)).check (some p.val) with
      | none => t.on SYS_CTR_PATH_ENABLE d = true ∧ t.on SYS_CTR_STATUS_DRAINING d = false ∧ t.g SYS_CTR_STATUS_REFUSAL d = 0
      | some (code, _) => t.on SYS_CTR_PATH_ENABLE d = on ∧
          t.g SYS_CTR_STATUS_REFUSAL d = code % 2 ^ SYS_CTR_STATUS_REFUSAL.w ∧
          t.g SYS_CTR_CHECK_LAST_REFUSAL = code % 2 ^ SYS_CTR_CHECK_LAST_REFUSAL.w) ∧
    (s.adm.running = some p.val → ∃ t, exec (.pathDisable p) s = .next t ∧ t.adm.running = none ∧ kept t) ∧
    (s.adm.running ≠ some p.val → on = true → ∃ t, exec (.pathDisable p) s = .next t ∧
      t.on SYS_CTR_PATH_ENABLE d = false ∧ (s.outstanding p.val = true → t.on SYS_CTR_STATUS_DRAINING d = true) ∧ kept t) ∧
    (∀ area : Fin 4,
      (s.on NET_CARGO_CTRL_ENABLE = true → exec (.cargoAreaWrite area) s = .next (s.answer true 0)) ∧
      (s.on NET_CARGO_CTRL_ENABLE = false →
        (∀ x, x < 512 → s.pathKind x = kCARGO → s.pathOn x = false ∧ s.draining x = false) →
        ∃ t, exec (.cargoAreaWrite area) s = .next t ∧ t.g NET_CARGO_CTRL_AREA = area.val ∧ kept t)) ∧
    ∀ (id : Nat) (it : Item), s.adm.items.find? (·.id == id) = some it →
      (s.tide ≤ it.deadline → exec (.contractBreach id) s = .next s) ∧
      (it.deadline < s.tide → ∃ t, exec (.contractBreach id) s = .next t ∧
        (t.faultStatus .sys).testBit SYS_CONTRACT_BREACH = true ∧ t.adm.items.all (·.id != id) = true ∧
        t.on SYS_BREACH_PATH_VALID = true ∧
        (s.on SYS_BREACH_PATH_VALID = true → t.g SYS_BREACH_PATH_PATH = s.g SYS_BREACH_PATH_PATH) ∧
        (s.on SYS_BREACH_PATH_VALID = false →
          t.g SYS_BREACH_PATH_PATH = it.path % 2 ^ SYS_BREACH_PATH_PATH.w ∧
          t.g SYS_BREACH_NS_NANOSECONDS = it.deadline / 65536 % 1000000000))

/-- Register and memory accesses (R5, R7, R8, R58, R81, R328, R359, R469). -/
def Obligations.BusAccesses : Prop :=
  ∀ (m : Fin 42) (a : Addr) (size : AccSize) (v : BitVec 256) (s : State), s.inReset = false →
    (∀ c, (s.core c).stepping = false) →
    let n := size.bytes
    let x := a.toNat
    let o := x - winBase
    let read := exec (.wideReadCapture m a size) s
    let write := exec (.registerWrite m a size v) s
    let kept : State → Prop := fun t => t.mem = s.mem ∧ t.cores = s.cores
    let refused : State → Prop := fun t => t.resp = ⟨false, 0⟩ ∧ kept t ∧
      (m.val = 24 → (t.faultStatus .sys).testBit SYS_BUS_ERR = true)
    let ram := inSram x n = true ∨ (inSram x n = false ∧ s.inDdr x n = true ∧ (s.ddrReady = true ∨ m.val = 32 ∨ m.val = 33))
    (ram → s.campGuard m.val x n = false → ∃ t, write = .next t ∧ t.resp.ok = true ∧
      t.rle x n = v.toNat % 2 ^ (8 * n) ∧ sameBytesBut x n s t ∧ t.regs = s.regs ∧ t.cores = s.cores) ∧
    (ram → s.campGuard m.val x n = true → ∃ t, write = .next t ∧ refused t) ∧
    (ram → s.eccUncorr x n = false → read = .next ((s.eccSeen x n).answer true (s.rle x n))) ∧
    (ram → s.eccUncorr x n = true → ∃ t, read = .next t ∧ refused t ∧
      (t.faultStatus .mem).testBit MEM_ECC_UNCORR = true) ∧
    (s.inDdr x n = true → s.ddrReady = false → m.val ≠ 32 → m.val ≠ 33 → ∀ y ∈ [read, write], ∃ t, y = .next t ∧ refused t) ∧
    (inMram x n = true ∨ inRom x n = true → ∃ t, write = .next t ∧ refused t) ∧
    (inWindow x n = true → placeOf o = .regs → reaches m.val o = true →
      (n = 4 → o % 4 = 0 → findReg o regTable = none →
        read = .next (s.answer true 0) ∧ write = .next (s.answer true 0)) ∧
      ((n ≠ 4 ∧ n ≠ 8) ∨ o % n ≠ 0 → (∀ y ∈ [read, write], ∃ t, y = .next t ∧ refused t) ∧
        (m.val ≠ 24 → read = .next (s.answer false 0) ∧ write = .next (s.answer false 0))) ∧
      ∀ r d, n = 4 → o % 4 = 0 → findReg o regTable = some (r, d) → o = r.off + d → r.words = 1 →
        (AMap.find readHooks r.off = none → ∃ t, read = .next t ∧ kept t ∧ t.regs = s.regs ∧
          t.resp = ⟨true, AMap.get (s.regValue r d) s.capture o⟩ ∧
          (r.wide = 2 → progOffs.contains r.off = false → AMap.find t.capture (o + 4) = some (s.wordAt (o + 4)))) ∧
        (r.wide ≤ 1 → higherWord o = false → faultAt o = none → AMap.find writeHooks r.off = none → enAt o = none →
          s.regOpen r d = true → s.regLocked r d = false → r.ps = [] → (r.flds.map (·.key d)).Nodup →
          ∃ t, write = .next t ∧ t.resp.ok = true ∧ kept t ∧
            (∀ f ∈ r.flds, f.acc = .rw → t.g f d = clampFld f (bits (v.toNat % 2 ^ 32) f.lo f.w) % 2 ^ f.w) ∧
            (∀ f ∈ r.flds, f.acc = .ro ∨ f.acc = .wo → t.g f d = s.g f d) ∧
            ∀ (f : Fld) e, f.key e ∉ r.flds.map (·.key d) → t.g f e = s.g f e)) ∧
    (inWindow x n = false → inSram x n = false → s.inDdr x n = false → inMram x n = false →
      inRom x n = false → ∀ y ∈ [read, write], ∃ t, y = .next t ∧ t.resp = ⟨false, 0⟩ ∧
        (t.faultStatus .sys).testBit SYS_BUS_ERR = true ∧ kept t) ∧
    (∃ t, exec (.sysIdRead m) s = .next t ∧ kept t ∧ t.on SYS_MODE_ID_SEEN = (s.on SYS_MODE_ID_SEEN || m.val == 24 || m.val == 25) ∧
      (AMap.find s.capture 0 = none → t.resp = ⟨true, s.g SYS_ID_PART * 2 ^ 16 + s.g SYS_ID_MAJOR * 2 ^ 12 + s.g SYS_ID_MINOR * 2 ^ 8⟩)) ∧
    (∀ (k : Fin 7) (i : Fin 8), ∃ y, exec (.progRead k i) s = exec (.wideReadCapture 24 y .b4) s ∧
      y.toNat = winBase + progOffs.getD k.val 0 +
        (if k.val = 0 then dQuay (i.val % 6) else if k.val = 2 then dCamp i.val else 0) ∧
      ∃ t, exec (.progRead k i) s = .next t ∧ kept t) ∧
    (∀ f : Fin 4, ∃ t, exec (.tlyCycleRead f) s = .next t ∧ kept t ∧ t.regs = s.regs ∧
      (s.g TLY_FDR_CYCLE_COUNT (dFdr f.val) < 2 ^ 24 → t.resp.val % 2 ^ 24 = s.g TLY_FDR_CYCLE_COUNT (dFdr f.val))) ∧
    (∀ c : Fin 32, ∃ t, exec (.tlyThStatusRead c) s = .next t ∧ kept t ∧ t.regs = s.regs ∧
      (s.g TLY_TH_STATUS_REVERSALS (dTh c.val) < 2 ^ 8 →
        t.resp.val % 2 ^ 8 = s.g TLY_TH_STATUS_REVERSALS (dTh c.val))) ∧
    (∀ i : Fin 4, ∃ t, exec (.tideInRead i) s = .next t ∧ kept t ∧ t.inFifo i.val = (s.inFifo i.val).tail ∧
      t.resp = ⟨true, match s.inFifo i.val with
        | [] => 0
        | (r, z) :: _ => bit r * 2 ^ 31 + 2 ^ 30 + z / 65536 % 1000000000⟩) ∧
    ∃ t, exec .almNowRead s = .next t ∧ kept t ∧ t.regs = s.regs ∧ t.resp = ⟨true, s.almNow.getD 0 0⟩ ∧
      AMap.find t.capture 0xB00014 = some (s.almNow.getD 1 0) ∧ AMap.find t.capture 0xB00018 = some (s.almNow.getD 2 0)

/-- Modes and Breakwater (R40, R41, R404, R406, R426, R428, R431). -/
def Obligations.ModeCommands : Prop :=
  ∀ (conf : BitVec 16) (m : Fin 8) (master : Fin 42) (q : Fin 6) (s : State), s.inReset = false →
    let code := s.modeCode conf.toNat m.val
    let claim := s.mode = PROVISION ∧ s.on PAIR_CTRL_ENABLE = true ∧ (m.val = COMMISSION ∨ m.val = RUN)
    let x := exec (.modeCommand conf m master) s
    let taken : State → Nat → Prop := fun t tgt => t.mode = tgt % 2 ^ SYS_MODE_MODE.w ∧
      t.g SYS_MODE_PREV_MODE = s.mode % 2 ^ SYS_MODE_PREV_MODE.w ∧ t.g SYS_MODE_REFUSAL = 0
    let k := s.quay q.val
    (code ≠ 0 → x = .next ((s.p SYS_MODE_REFUSAL 0 code).answer true 0)) ∧
    (code = 0 → claim → ∃ t, x = .next t ∧ t.mode = s.mode ∧ t.on PAIR_STATUS_OWN = true ∧ t.on PAIR_STATUS_CLAIM = true ∧
      t.on SYS_MODE_TRANSIT = true ∧ t.pair.claim = some (s.fab, m.val, master.val, true)) ∧
    (code = 0 → ¬ claim → ∃ t, x = .next t ∧ taken t m.val) ∧
    (∀ t0 tgt ms rel, s.pair.claim = some (t0, tgt, ms, rel) → t0 + 1600 ≤ s.fab →
      ∃ t, exec .pairClaimDecided s = .next t ∧ t.pair.claim = none ∧
        if rel = true ∨ s.g PAIR_CTRL_UNIT = 0 then taken t tgt
        else t.mode = s.mode ∧ t.on PAIR_STATUS_OWN = false ∧ t.on SYS_MODE_TRANSIT = false ∧ t.g SYS_MODE_REFUSAL = 0x027) ∧
    (k.cmdAt.isSome = true → s.atBoundary q.val = true → ∃ t, exec (.quayModeTakeup q) s = .next t ∧
      (t.quay q.val).mode = s.mode ∧ (t.quay q.val).cmdAt = none ∧ t.mode = s.mode ∧ t.mem = s.mem) ∧
    (∀ t0, k.cmdAt = some t0 → t0 + 800000 ≤ s.fab → ∃ t, exec (.forcedBoundary q) s = .next t ∧
      t.scansHeld q.val = true ∧ t.regs = s.regs ∧ t.mem = s.mem ∧ t.cores = s.cores) ∧
    (∀ t0, k.startFrom = some t0 → t0 + 40000000 ≤ s.fab → ∃ t, exec (.startupOverrun q) s = .next t ∧
      (t.faultStatus (.brn q.val)).testBit BRN_STARTUP_OVERRUN = true ∧ (t.quay q.val).startFrom = none ∧ t.mem = s.mem) ∧
    (∀ t0, s.pair.grace = some t0 → t0 + 3200 ≤ s.fab → ∃ t, exec .conflictGraceEnd s = .next t ∧ t.pair.grace = none ∧
      (s.on PAIR_STATUS_PEER_OWN = true → s.on PAIR_STATUS_OWN = true →
        (t.faultStatus .pair).testBit PAIR_ROLE_CONFLICT = true) ∧ t.mem = s.mem) ∧
    (∀ src fbit inj rest, s.reactions = (src, fbit, inj) :: rest → ∃ t, exec .reactionFault s = .next t ∧ t.mode = SAFE ∧
      t.reactions = rest ∧ t.mem = s.mem ∧ (s.mode ≠ SAFE →
        t.on BKW_STATE_SAFE = true ∧ t.g BKW_STATE_CAUSE_SRC = src % 2 ^ BKW_STATE_CAUSE_SRC.w ∧
        t.g BKW_STATE_CAUSE_BIT = fbit % 2 ^ BKW_STATE_CAUSE_BIT.w ∧ t.g SYS_MODE_PREV_MODE = s.mode % 2 ^ SYS_MODE_PREV_MODE.w ∧
        t.on SYS_MODE_TRANSIT = false)) ∧
    (s.pair.releasing = true → ∃ t, exec .ownNRelease s = .next t ∧ t.on PAIR_STATUS_OWN = false ∧
      t.pair.releasing = false ∧ t.mem = s.mem) ∧
    (∀ b, s.pair.alive = some b → s.mode ≠ SAFE → s.pair.aliveAt + 200000 ≤ s.fab →
      exec .aliveToggle s = .next { s with pair := { s.pair with alive := some (!b), aliveAt := s.pair.aliveAt + 200000 } }) ∧
    (s.mode = SAFE → s.on NET_CARGO_CTRL_ENABLE = true → s.pair.safeOut = true → s.pair.safeAt = none →
      ∃ t, exec .safeOutSend s = .next t ∧ t.pair.safeAt = some s.fab ∧ t.mode = SAFE ∧ t.mem = s.mem ∧ t.cores = s.cores) ∧
    ∀ (src : Fin 512) (fbit : Fin 32),
      (s.mode ≠ FACTORY → exec (.faultInject src fbit) s = .next (s.answer true 0)) ∧
      ∀ b, s.mode = FACTORY → FBlk.ofSrc src.val = some b → fbit.val < b.width →
        ∃ t, exec (.faultInject src fbit) s = .next t ∧ (t.faultStatus b).testBit fbit.val = true ∧ t.mem = s.mem

/-- Resets and power-up (R48 to R57, R459, R482). -/
def Obligations.ResetCommands : Prop :=
  ∀ (dbg vb : Bool) (conf : BitVec 16) (s : State),
    let wiped : State → Prop := fun t => t.mode = PROVISION ∧ t.pending = s.pending ∧
      ∀ a, t.rb a = if keptMem a then s.rb a else 0
    let met : State → Prop := fun t => wiped t ∧ (s.mode ≠ PROVISION → t.g SYS_RESET_CAUSE_LAST_MODE = s.mode % 2 ^ SYS_RESET_CAUSE_LAST_MODE.w)
    (∃ t, exec (.powerOn dbg vb) s = .next t ∧ wiped t ∧ t.on SYS_RESET_CAUSE_POR = true ∧ t.g SYS_RESET_CAUSE_LAST_MODE = 0 ∧
      t.debugEn = dbg ∧ t.phase = (if s.resetN then .released else .held)) ∧
    (∃ t, exec .supplyUndervoltage s = .next t ∧ wiped t ∧ t.on SYS_RESET_CAUSE_POR = true ∧ t.phase = .off) ∧
    (∃ t, exec .resetNAssert s = .next t ∧ met t ∧ t.on SYS_RESET_CAUSE_PIN = true ∧
      t.phase = (if s.supplies then .held else .off)) ∧
    (s.phase = .held → ∃ t, exec (.resetNRelease dbg) s = .next t ∧ wiped t ∧ t.phase = .released ∧ t.debugEn = dbg) ∧
    (s.phase = .released → exec .pllLock s = .next { s with phase := .clocks }) ∧
    (s.phase = .clocks → ∃ t, exec .fuseRead s = .next t ∧ t.phase = .fuses ∧ t.on BST_STATUS_DRBG_OK = true ∧
      t.on BST_STATUS_TEST_ROOT = (s.debugEn && !Config.debugLock) ∧ t.mem = s.mem) ∧
    (s.phase = .fuses → ∃ t, exec .mramReady s = .next t ∧ t.phase = .mram ∧
      t.log.pcyc = (if s.log.counted then s.log.pcyc else (s.log.pcyc + 1) % 2 ^ 32)) ∧
    (s.phase = .mram → ∃ t, exec .sramClearEnd s = .next t ∧ t.phase = .sram ∧ t.g SYS_BOOT_STATUS_STATE = 1 ∧
      ∀ a, t.rb a = if sramBase ≤ a ∧ a < sramEnd then 0 else s.rb a) ∧
    (∀ s1 s8 d8 mhz, s.phase = .sram → ∃ t, exec (.bootEnd s1 s8 d8 mhz) s = .next t ∧ t.mem = s.mem ∧
      let code := s.bootFail ⟨s1, s8, d8, mhz.toNat⟩
      if code = 0 then t.phase = .booted ∧ t.g SYS_BOOT_STATUS_STATE = 2
      else t.phase = .bootFailed ∧ t.g SYS_BOOT_STATUS_STATE = 3 ∧ t.g SYS_BOOT_STATUS_FAIL = code % 2 ^ SYS_BOOT_STATUS_FAIL.w) ∧
    (s.inReset = true → ∀ (m : Fin 42) a n k q, ∀ x ∈ [Instr.hostReset conf, .quayReset conf q, .wdtKick k, .wideReadCapture m a n],
      exec x s = .next (s.answer false 0)) ∧
    (s.inReset = false → conf.toNat = 0x5253 → ∃ t, exec (.hostReset conf) s = .next t ∧ met t ∧ t.on SYS_RESET_CAUSE_HOST = true) ∧
    (s.inReset = false → conf.toNat ≠ 0x5253 → exec (.hostReset conf) s = .next (s.answer true 0) ∧
      ∀ q, exec (.quayReset conf q) s = .next (s.answer true 0)) ∧
    (∀ q : Fin 8, q.val < 6 → s.inReset = false → conf.toNat = 0x5253 → ∃ t, exec (.quayReset conf q) s = .next t ∧
      t.on BRN_QUAY_CTRL_ENABLE (dQuay q.val) = false ∧ (t.g SYS_RESET_CAUSE_QUAY).testBit q.val = true ∧
      t.g BRN_QUAY_GEN_GEN (dQuay q.val) =
        (if s.g BRN_QUAY_GEN_GEN (dQuay q.val) = 0xFFFFFF then 1
         else (s.g BRN_QUAY_GEN_GEN (dQuay q.val) + 1) % 2 ^ BRN_QUAY_GEN_GEN.w) ∧
      ∀ c, c / 4 = q.val → t.epoch c = (s.epoch c + 1) % 16) ∧
    (s.on SYS_WDT_CTRL_ENABLE = true → s.wdtAt + s.g SYS_WDT_CTRL_PERIOD_MS * 400000 ≤ s.fab →
      ∃ t, exec .watchdogExpiry s = .next t ∧ met t ∧ t.on SYS_RESET_CAUSE_WDT = true ∧
        (s.mode = SAFE → t.on SYS_RESET_CAUSE_FROM_SAFE = true)) ∧
    (s.inReset = false → s.wdtKey = 0xA5 → exec (.wdtKick 0x5A) s = .next ({ s with wdtKey := 0x5A, wdtAt := s.fab }.answer true 0)) ∧
    (∀ x ∈ [Instr.pcieFlr, .pciePerst], ∃ t, exec x s = .next t ∧ t.on HST_CTRL_ENABLE = false ∧ t.rings = [] ∧
      t.epoch 24 = (s.epoch 24 + 1) % 16 ∧ t.on SYS_RESET_CAUSE_FLR = true ∧ t.mode = s.mode ∧ t.mem = s.mem) ∧
    ∃ t, exec .pciePerst s = .next t ∧ t.on HST_STATUS_LINK = false

/-- DISCARD (R64). -/
def Obligations.DiscardEmptiesTheSet : Prop :=
  ∀ (m : Fin 42) (s : State), s.inReset = false →
    (m.val = 24 ∨ m.val = 25 ∨ s.prf = pIDLE ∨ s.g PRF_STATUS_OWNER = m.val →
      ∃ t, exec (.discard m) s = .next t ∧
        (∀ f d, t.fldRead { f with acc := .ps } d = t.g f d) ∧
        (s.pullDue = false → t.mem = s.mem ∧ t.cores = s.cores ∧ ∀ f d, (∀ x ∈ [PRF_STATUS_STATE, PRF_STATUS_OVERFLOW, PRF_STATUS_OWNER, PRF_STAGED_COUNT, SYS_CTR_CHECK_BUSY],
          f.key d ≠ x.key 0) → t.g f d = s.g f d) ∧
        t.prf = pIDLE ∧ t.on PRF_STATUS_OVERFLOW = false ∧ t.g PRF_STATUS_OWNER = 0 ∧
        exec .proofEnd t = .next t ∧ exec .pullApply t = .next t) ∧
    (m.val ≠ 24 → m.val ≠ 25 → s.prf ≠ pIDLE → s.g PRF_STATUS_OWNER ≠ m.val → s.pullDue = false →
      exec (.discard m) s = .next ((s.hw PRF_STATUS_FOREIGN 0 1).answer true 0))

/-- PS_WRITE, PROOF, PROOF_END, PULL, PULL_APPLY, QUAY_PULL_TIMEOUT (R60 to R72). -/
def Obligations.ProofAndPull : Prop :=
  ∀ (m : Fin 42) (s : State), s.inReset = false →
    let kept : State → Prop := fun t => t.mem = s.mem ∧ t.cores = s.cores
    let foreign := s.prf ≠ pIDLE ∧ s.g PRF_STATUS_OWNER ≠ m.val
    let busy := s.prf = pPROVING ∨ s.prf = pPROVEN ∨ s.prf = pARMED
    (∀ (off : BitVec 25) (v : BitVec 256) (r : Reg) (d : Nat), findReg off.toNat regTable = some (r, d) →
      off.toNat = r.off + d → off.toNat % 4 = 0 → placeOf off.toNat = .regs → reaches m.val off.toNat = true →
      inWindow (winBase + off.toNat) 4 = true → r.words = 1 → r.wide = 0 → higherWord off.toNat = false →
      faultAt off.toNat = none → AMap.find writeHooks r.off = none → enAt off.toNat = none → s.regOpen r d = true →
      s.regLocked r d = false → r.flds = r.ps → r.flds ≠ [] → (r.flds.map fun f => f.key d).Nodup →
      (s.isStaged r d = true ∨ s.g PRF_STAGED_COUNT < 8192) →
      ∃ t, exec (.psWrite m off .b4 v) s = .next t ∧ t.resp = ⟨true, 0⟩ ∧ kept t ∧
        (foreign → t.on PRF_STATUS_FOREIGN = true ∧ t.staged = s.staged) ∧
        (¬ foreign → busy → t.on PRF_STATUS_LOCKED_WRITE = true ∧ t.staged = s.staged) ∧
        (¬ foreign → ¬ busy → (s.prf = pIDLE ∨ s.prf = pSTAGED) →
          t.prf = pSTAGED ∧ t.g PRF_STATUS_OWNER = (if s.prf = pIDLE then m.val else s.g PRF_STATUS_OWNER) ∧
          (∀ f ∈ r.flds, AMap.find t.staged (f.key d) = some (bits (v.toNat % 2 ^ 32) f.lo f.w)) ∧
          ∀ k, (∀ x ∈ [PRF_STATUS_STATE, PRF_STATUS_OWNER, PRF_STAGED_COUNT], k ≠ x.key 0) →
            AMap.get 0 t.regs k = AMap.get 0 s.regs k)) ∧
    (foreign → ∀ x ∈ [Instr.proof m, .pull m], exec x s = .next ((s.hw PRF_STATUS_FOREIGN 0 1).answer true 0)) ∧
    (¬ foreign → s.proofCode ≠ 0 → exec (.proof m) s = .next ((s.p PRF_STATUS_REFUSAL 0 s.proofCode).answer true 0)) ∧
    (¬ foreign → s.proofCode = 0 → ∃ t, exec (.proof m) s = .next t ∧ t.prf = pPROVING ∧ t.on SYS_CTR_CHECK_BUSY = true ∧
      t.staged = s.staged ∧ kept t) ∧
    (s.prf = pPROVING → ∃ t, exec .proofEnd s = .next t ∧ match s.proofRun.2 with
      | none => t.prf = pPROVEN ∧ t.g PRF_STATUS_REFUSAL = 0
      | some (code, _) => t.prf = pSTAGED ∧ t.g PRF_STATUS_REFUSAL = code % 2 ^ PRF_STATUS_REFUSAL.w) ∧
    (¬ foreign → s.pullCode ≠ 0 → exec (.pull m) s = .next ((s.p PRF_STATUS_REFUSAL 0 s.pullCode).answer true 0)) ∧
    (¬ foreign → s.pullCode = 0 → ∃ t, exec (.pull m) s = .next t ∧ t.prf = pARMED ∧ t.staged = s.staged ∧ kept t ∧
      t.pullAt = s.tide ∧ t.pull.byQuay = s.on PRF_PULL_AT_BY_QUAY ∧ t.pull.quay = s.g PRF_PULL_AT_QUAY ∧
      t.pull.task = s.g PRF_PULL_AT_TASK ∧ t.pull.time = s.timeNs PRF_PULL_TIME_NS_NANOSECONDS) ∧
    (s.prf = pARMED → s.pull.byQuay = false → s.pull.time ≤ s.tideNs → s.reactsNow = false →
      ∃ t, exec .pullApply s = .next t ∧ t.prf = pIDLE ∧ t.staged = [] ∧ t.on PRF_STATUS_APPLIED = true ∧
        ∀ (q : Fin 6) (k : Fin 8) (v : Nat), (s.staged.map (·.1)).Nodup →
          AMap.find s.staged (BRN_TASK_PERIOD_VALUE.key (dTask q.val k.val)) = some v →
          t.g BRN_TASK_PERIOD_VALUE (dTask q.val k.val) = v % 2 ^ BRN_TASK_PERIOD_VALUE.w) ∧
    (s.prf = pARMED → s.pull.byQuay = true →
      s.pullAt + (20000 * s.g BRN_TASK_PERIOD_VALUE (dTask s.pull.quay s.pull.task) + 1000000000) * 65536 ≤ s.tide →
      ∃ t, exec .quayPullTimeout s = .next t ∧ t.prf = pPROVEN ∧ t.g PRF_STATUS_REFUSAL = 0x00D ∧ t.staged = s.staged ∧ kept t)

/-- ENABLE_SET, ENABLE_CHECK_END, ENABLE_CLEAR (R73 to R76). -/
def Obligations.EnableBits : Prop :=
  ∀ (off : BitVec 25) (e : En) (s : State), enAt off.toNat = some e → s.inReset = false →
    let set := exec (.enableSet off) s
    let end_ := exec (.enableCheckEnd off) s
    let clear := exec (.enableClear off) s
    let w := match e.domain with | some d => s.wake d | none => s
    let u := { s with checking := s.checking.filter (· != e.key) }
    let z := u.enSet e false
    let open_ := s.mode = SAFE → e.inSafe = true
    (s.isOn e = true → set = .next (s.answer true 0)) ∧
    (s.isOn e = false → ¬ open_ → set = .next ((s.enRefuse e 0x010).answer true 0)) ∧
    (s.isOn e = false → open_ → s.checking.contains e.key = true → set = .next ((s.enRefuse e 0x012).answer true 0)) ∧
    (s.isOn e = false → open_ → s.checking.contains e.key = false →
      (w.needs e = false → set = .next (((w.failNote e).enRefuse e 0x011).answer true 0)) ∧
      (w.needs e = true → w.memoryReady e = false → set = .next ((w.enRefuse e 0x013).answer true 0)) ∧
      (w.needs e = true → w.memoryReady e = true → ∃ t, set = .next t ∧ t.checking = s.checking ++ [e.key] ∧
        t.isOn e = false ∧ t.regs = w.regs ∧ t.mem = s.mem ∧ t.cores = s.cores)) ∧
    (s.checking.contains e.key = true → s.powered e = true →
      (¬ open_ → end_ = .next (u.enRefuse e 0x010)) ∧
      (open_ → u.needs e = false → end_ = .next ((u.failNote e).enRefuse e 0x011)) ∧
      (open_ → u.needs e = true → u.memoryReady e = false → end_ = .next (u.enRefuse e 0x013)) ∧
      (open_ → u.needs e = true → u.memoryReady e = true →
        (∀ c, (u.enSet e true).checkOf e = some c → end_ = .next ((u.failNote e).enRefuse e c)) ∧
        ((u.enSet e true).checkOf e = none →
          (match e with
            | .tid | .mem | .bst | .pio | .log | .pwr | .grv | .drf | .mbs _ | .pair | .pwm _ | .enc _ => True
            | _ => False) →
          ∃ t, end_ = .next t ∧ t.isOn e = true ∧ t.g e.flds.2.1 e.flds.2.2 = 0 ∧ t.checking = u.checking ∧
            t.mem = s.mem ∧ t.cores = s.cores))) ∧
    (s.isOn e = false → clear = .next (u.answer true 0)) ∧
    (s.isOn e = true → (s.prf = pIDLE ∨ s.prf = pSTAGED) → 
      (∀ x ∈ enAll, (z.disabled e).isOn x = true → (z.disabled e).needsKept x = true) →
      (match e with
        | .tid | .mem | .bst | .pio | .pwr | .grv | .dom _ | .tin _ | .th _ | .po _ | .pwm _ => True
        | _ => False) → clear = .next ((z.disabled e).answer true 0) ∧ (z.disabled e).isOn e = false ∧
          (z.disabled e).mem = s.mem ∧ (z.disabled e).cores = s.cores ∧
          (match e with | .th _ => True | _ => (z.disabled e).regs = z.regs))

/-- Host command rings (R83 to R86, R202, R462). -/
def Obligations.HostRings : Prop :=
  ∀ (r : Fin 16) (s : State),
    let d := dRing r.val
    let cmds : State → List RingCmd := fun t => (t.ring r.val).cmds
    let ended : State → Nat × Nat × List Byte → Prop := fun t e => cmds t = endFirst e (cmds s)
    (∀ desc : List Byte, s.canFetch r.val = true → desc.length = 64 →
      let p := s.g HST_RING_CFG_PATH d
      let i := s.g HST_RING_SQ_HEAD_INDEX d
      let u := s.p HST_RING_SQ_HEAD_INDEX d (ringNext (s.ringLog2 r.val) i)
      let code := u.ringCode p desc
      ∃ t, exec (.descriptorFetch r desc) s = .next t ∧
        t.g HST_RING_SQ_HEAD_INDEX d = ringNext (s.ringLog2 r.val) i % 2 ^ HST_RING_SQ_HEAD_INDEX.w ∧
        t.mem = s.mem ∧ ∃ c, cmds t = cmds s ++ [c] ∧ c.desc = desc ∧ c.idx = i ∧
        if code = 0 then c.done = none ∧ c.item = some s.adm.nextId ∧ t.outstanding p = true
        else c.done = some (1, code, []) ∧ c.item = none ∧
          t.g SYS_CTR_REJECTED_COUNT (dPath p) = (s.g SYS_CTR_REJECTED_COUNT (dPath p) + 1) % 2 ^ SYS_CTR_REJECTED_COUNT.w) ∧
    (∀ c : RingCmd, s.ringExec r.val = some c → s.ringProof ≠ some r.val → s.eccIn (.ring r.val) = false →
      let x := c.desc
      let a := s.copyDevice x
      let n := copyLen x
      (dOpcode x = opNOP → exec (.ringNop r) s = .next (s.ringEnd r.val 0 0 [])) ∧
      (dOpcode x = opREG_WRITE → (∀ k, ((s.ringWrites x).core k).stepping = false) →
        exec (.ringRegWrite r) s = .next ((s.ringWrites x).ringEnd r.val 0 0 [])) ∧
      (dOpcode x = opREG_READ → exec (.ringRegRead r) s =
        .next ((s.ringReads (regOffsets x)).2.ringEnd r.val 0 0 (s.ringReads (regOffsets x)).1)) ∧
      (∀ data : List Byte, dOpcode x = opCOPY → inSram a n = true →
        (s.deviceSide (copySrc x) = false → s.campGuard 24 a n = false → data.length = n →
          ∃ t, exec (.ringCopy r data) s = .next t ∧ t.rbs a n = data ∧ sameBytesBut a n s t ∧ ended t (0, 0, [])) ∧
        (s.deviceSide (copySrc x) = true → s.eccUncorr a n = false → ∃ t, exec (.ringCopy r data) s = .next t ∧
          t.outbox = s.outbox ++ [.hostWrite (copyDst x) (s.rbs a n)] ∧ t.mem = s.mem ∧ ended t (0, 0, []))) ∧
      (dOpcode x = opPROOF → s.prf = pSTAGED → s.g PRF_STATUS_OWNER = 24 → s.on PRF_STATUS_OVERFLOW = false →
        ∃ t, exec (.ringProof r) s = .next t ∧ t.prf = pPROVING ∧ t.ringProof = some r.val ∧ cmds t = cmds s) ∧
      (dOpcode x = opPULL →
        let u := [0, 3, 2, 1].foldl (fun (u : State) i =>
          (u.busWrite 24 (winBase + PRF_PULL_AT_QUAY.off + 4 * i) 4 (fld x (16 + 4 * i) 4)).2) s
        ∃ t, exec (.ringPull r) s = .next t ∧ (u.prfForeign 24 = false →
          (u.pullCode = 0 → t.prf = pARMED ∧ ∃ res, cmds t = endFirst (0, 0, res) (cmds u)) ∧
          (u.pullCode ≠ 0 → t.prf = u.prf ∧ t.g PRF_STATUS_REFUSAL = u.pullCode ∧
            ∃ res, cmds t = endFirst (2, u.pullCode, res) (cmds u)))) ∧
      (dOpcode x = opDISCARD → s.ringProof = none → s.pullDue = false → ∃ t, exec (.ringDiscard r) s = .next t ∧ t.prf = pIDLE ∧ t.staged = [] ∧
        ended t (0, 0, [])) ∧
      (dOpcode x = opMODE → s.modeCode (fld x 18 2) (fld x 16 1 % 8) ≠ 0 → ∃ t, exec (.ringMode r) s = .next t ∧
        t.mode = s.mode ∧ t.g SYS_MODE_REFUSAL = s.modeCode (fld x 18 2) (fld x 16 1 % 8) % 2 ^ SYS_MODE_REFUSAL.w ∧
        ∃ res, ended t (0, 0, res)) ∧
      (dOpcode x = opSUBMIT →
        let y := s.submit 24 ((fld x 24 1).testBit 0) (fld x 16 8)
        (∀ k, y.1 = .ok k → exec (.ringSubmit r) s = .next (y.2.ringEnd r.val 0 0 [BitVec.ofNat 8 k])) ∧
        ∀ code, y.1 = .error code → exec (.ringSubmit r) s = .next (y.2.ringEnd r.val 2 code [])) ∧
      (dOpcode x = opCANCEL →
        let y := s.drfCancel 24 (fld x 16 1) (fld x 20 4)
        exec (.ringCancel r) s = .next (y.2.ringEnd r.val (if y.1 = 0 then 0 else 2) y.1 [])) ∧
      (dOpcode x = opCOPY → ∀ (w : BitVec 64) (b : Bool), ∀ i ∈ [Instr.dmaError r w false b, .dmaCompletionTimeout r w false],
        ∃ t, exec i s = .next t ∧ (t.faultStatus .hst).testBit HST_DMA_ERR = true ∧ ended t (2, 0xC30, []) ∧ t.mem = s.mem)) ∧
    (∀ c : RingCmd, s.ringExec r.val = some c → s.ringProof ≠ some r.val → s.eccIn (.ring r.val) = true →
      dOpcode c.desc = opNOP → ∃ t, exec (.ringNop r) s = .next t ∧ (t.faultStatus .hst).testBit HST_ECC_UNCORR = true ∧
        t.mem = s.mem ∧ ended t (2, 0xC30, [])) ∧
    (∀ (w : BitVec 64) (b : Bool), s.canFetch r.val = true →
      ∀ i ∈ [Instr.dmaError r w true b, .dmaCompletionTimeout r w true],
        exec i s = .next ((s.raise .hst HST_DMA_ERR (some ⟨w.toNat, 34, 1⟩) 0).enClear (.ring r.val))) ∧
    ∀ (c : RingCmd) (rest : List RingCmd) (e : Nat × Nat × List Byte) (w : BitVec 32),
      cmds s = c :: rest → c.done = some e → e.2.2.length ≤ 16 →
      ∃ t, exec (.commandComplete r w) s = .next t ∧ cmds t = rest ∧
        t.g HST_RING_CQ_TAIL_INDEX d =
          ringNext (s.ringLog2 r.val) (s.g HST_RING_CQ_TAIL_INDEX d) % 2 ^ HST_RING_CQ_TAIL_INDEX.w ∧
        ∃ bs, bs.length = 32 ∧ .hostWrite (s.g HST_RING_CQ_BASE_BASE d +
          32 * (s.g HST_RING_CQ_TAIL_INDEX d % 2 ^ s.ringLog2 r.val)) bs ∈ t.outbox

/-- TEND with open nesting (R98). -/
def Obligations.TendWithOpenNesting : Prop :=
  ∀ (c : Fin 24) (s : State), s.executes c = true → (s.core c).nest ≠ 0 →
    ∃ t, exec (.jTend c) s = .next t ∧ t = s.fail c ⟨xNEST_OPEN, none⟩ ∧ (t.core c).task = (s.core c).task ∧
      (t.core c).xcause = BitVec.ofNat 5 xNEST_OPEN ∧
      ∀ q n, ((t.quay q).task n).phase = ((s.quay q).task n).phase

/-- The scan of a task (R139 to R150). -/
def Obligations.ScanCommands : Prop :=
  ∀ (q : Fin 6) (s : State), s.inReset = false →
    let k := s.quay q.val
    let ph : State → Nat → TaskPhase := fun t n => ((t.quay q.val).task n).phase
    (∀ n : Fin 8, s.quayRuns q.val = true → k.started = true → s.on BRN_TASK_CFG_ON (dTask q.val n.val) = true →
      let d := dTask q.val n.val
      let id := 8 * q.val + n.val
      let due := s.atInstant id (10000 * s.g BRN_TASK_PERIOD_VALUE d) (10000 * s.g BRN_TASK_PHASE_VALUE d) = true
      let hold := s.xState q.val = xHOLD ∧ k.xchg.allowSkip = true
      (¬ due → exec (.taskRelease q n) s = .next s) ∧
      (due → hold → exec (.taskRelease q n) s = .next ((s.takeInstant id).incSat BRN_TASK_STATS_SKIPPED d)) ∧
      (due → ¬ hold → (k.task n.val).pend = false → k.inScan n.val = false → ∃ t, exec (.taskRelease q n) s = .next t ∧
        ((t.quay q.val).task n.val).pend = true ∧ ((t.quay q.val).task n.val).relAt = s.tide ∧ t.regs = s.regs ∧
        t.mem = s.mem ∧ t.cores = s.cores) ∧
      (due → ¬ hold → (k.task n.val).pend = true ∨ k.inScan n.val = true → ∃ t, exec (.taskRelease q n) s = .next t ∧
        t.g BRN_TASK_STATS_OVERRUNS d = min (s.g BRN_TASK_STATS_OVERRUNS d + 1) (2 ^ BRN_TASK_STATS_OVERRUNS.w - 1) ∧
        t.mem = s.mem ∧ t.cores = s.cores)) ∧
    (∀ e : Fin 8, s.quayRuns q.val = true → s.on BRN_EVT_CFG_ON (dEvt q.val e.val) = true →
      ((k.task (8 + e.val)).pend = true →
        exec (.eventFire q e) s = .next ((s.incSat BRN_EVT_STATS_LOST (dEvt q.val e.val)).answer true 0)) ∧
      ((k.task (8 + e.val)).pend = false → ∃ t, exec (.eventFire q e) s = .next t ∧
        ((t.quay q.val).task (8 + e.val)).pend = true ∧ t.regs = s.regs ∧ t.mem = s.mem ∧ t.cores = s.cores)) ∧
    (∀ (i : Fin 4) (n : Nat), s.nextStart q.val i.val = some n → s.pullNames q.val n = false →
      ∃ t, exec (.scanStart q i) s = .next t ∧ ph t n = .copyIn ∧ ((t.quay q.val).task n).stamp = s.tideNs ∧
        (t.quay q.val).port = k.port ++ [(n, false)] ∧ t.mem = s.mem ∧
        (n < 8 → t.g BRN_TASK_STATS_CONSEC (dTask q.val n) = 0 ∧ ((t.quay q.val).task n).pend = false)) ∧
    (∀ n rest, k.port = (n, false) :: rest → ∃ t, exec (.copyInDone q) s = .next t ∧ (t.quay q.val).port = rest ∧
      (ph s n = .copyIn → (s.core (4 * q.val + (k.task n).cfg.core)).run ≠ .idle → ph t n = .ready ∧ t.cores = s.cores)) ∧
    (∀ n rest, k.port = (n, true) :: rest → ∃ t, exec (.copyOutDone q) s = .next t ∧ (t.quay q.val).port = rest ∧
      ph t n = .idle ∧ t.cores = s.cores) ∧
    ∀ (c : Fin 24), c.val / 4 = q.val →
      let x := s.core c
      (∀ n r, x.task = some n → s.firstTask q.val (s.readyTasks q.val (c.val % 4)) = some r → x.run = .running → x.rl = 0 →
        (s.scanCfg q.val n).prio < (s.scanCfg q.val r).prio → s.overlayFull q.val 192 = false →
        ∃ t, exec (.taskPreempt c) s = .next t ∧ (t.core c).task = some r ∧ (t.core c).stacked = n :: x.stacked ∧
          (t.core c).run = .running ∧ (t.core c).ba = false ∧ (t.core c).nest = 0 ∧ ph t n = .preempted ∧ ph t r = .running) ∧
      (∀ n, s.executes c = true → x.nest = 0 → x.task = some n → n < 8 → x.stacked = [] → x.stepping = false →
        (∀ r, r < 25 → ph s r ≠ .ready) →
        ∃ t, exec (.jTend c) s = .next t ∧ ph t n = .copyOut ∧ (t.quay q.val).port = k.port ++ [(n, true)] ∧
          (t.core c).run = .idle ∧ (t.core c).task = none ∧ (t.core c).cyc = x.cyc + 2 ∧
          (t.core c).instret = x.instret + 1 ∧ t.mem = s.mem)

/-- Program exchange and Cargo receive (R161 to R166). -/
def Obligations.ExchangeAndCargo : Prop :=
  ∀ (q : Fin 6) (s : State), s.inReset = false →
    let d := dQuay q.val
    let k := s.quay q.val
    let refused : Instr → Nat → Prop := fun i code => exec i s = .next ((s.p BRN_XCHG_STATUS_REFUSAL d code).answer true 0)
    let area := s.g BRN_XCHG_AREA_ADDR d
    let len := s.g BRN_XCHG_LEN_BYTES d
    let code := s.pkgCheck q.val (s.g BRN_XCHG_PKG_ADDR d) len
    (s.mode = SAFE → ∀ i ∈ [Instr.xchgLoad q, .xchgApply q true, .xchgApply q false, .xchgCancel q], refused i 0x116) ∧
    (s.mode ≠ SAFE → s.xState q.val = xLOADING → refused (.xchgCancel q) 0x118) ∧
    (s.mode ≠ SAFE → s.xState q.val ∈ [xLOADING, xWAITING, xHOLD] →
      ∀ i ∈ [Instr.xchgLoad q, .xchgApply q true, .xchgApply q false], refused i 0x118) ∧
    (s.xBusyCode q.val = 0 → area = 0 ∨ inSram area 0x20000 = false → refused (.xchgLoad q) 0x11A) ∧
    (s.xBusyCode q.val = 0 → area ≠ 0 → inSram area 0x20000 = true → ∃ t, exec (.xchgLoad q) s = .next t ∧
      t.xState q.val = xLOADING ∧ t.g BRN_XCHG_PROG_TOTAL_VAL d = ceilDiv len 1024 % 2 ^ BRN_XCHG_PROG_TOTAL_VAL.w ∧
      t.g BRN_XCHG_PROG_POSITION_VAL d = 0 ∧ t.mem = s.mem ∧ t.cores = s.cores) ∧
    (s.xState q.val = xLOADING → ∃ t, exec (.xchgLoadEnd q) s = .next t ∧ t.mem = s.mem ∧ t.cores = s.cores ∧
      if code = 0 then t.xState q.val = xLOADED ∧ t.g BRN_XCHG_PROG_PERMYRIAD_STATE d = 2 ∧
        t.g BRN_XCHG_PROG_PERMYRIAD_VAL d = 10000
      else t.xState q.val = xIDLE ∧ t.g BRN_XCHG_STATUS_REFUSAL d = code % 2 ^ BRN_XCHG_STATUS_REFUSAL.w ∧
        t.g BRN_XCHG_PROG_PERMYRIAD_STATE d = 3) ∧
    (∀ b, s.xBusyCode q.val = 0 → s.xState q.val ≠ xLOADED → refused (.xchgApply q b) 0x115) ∧
    (∀ b, s.mode ≠ SAFE → s.xState q.val = xLOADED → s.staged = [] → s.on BRN_QUAY_CTRL_ENABLE d = true →
      ∃ t, exec (.xchgApply q b) s = .next t ∧ t.xState q.val = xWAITING ∧ (t.quay q.val).xchg.allowSkip = b ∧
        (t.quay q.val).xchg.waitSince = s.fab ∧ t.mem = s.mem ∧ t.cores = s.cores) ∧
    (s.mode ≠ SAFE → s.xState q.val ∈ [xLOADED, xWAITING] → ∃ t, exec (.xchgCancel q) s = .next t ∧
      t.xState q.val = xIDLE ∧ t.mem = s.mem ∧ t.cores = s.cores) ∧
    (s.xState q.val = xWAITING → s.holdReady q.val = true → ∃ t, exec (.xchgHoldStart q) s = .next t ∧
      t.xState q.val = xHOLD ∧ t.mem = s.mem ∧ t.cores = s.cores) ∧
    (s.xState q.val = xHOLD → ∃ t, exec (.xchgHoldEnd q) s = .next t ∧ t.xState q.val = xIDLE ∧
      (t.quay q.val).xchg.presentDigest = k.xchg.digest ∧ t.cores = s.cores) ∧
    (s.xState q.val = xWAITING → k.xchg.allowSkip = false → k.xchg.waitSince + 400000000 ≤ s.fab →
      ∃ t, exec (.xchgApplyTimeout q) s = .next t ∧ t.xState q.val = xLOADED ∧ t.g BRN_XCHG_STATUS_REFUSAL d = 0x114 ∧
        t.mem = s.mem ∧ t.cores = s.cores) ∧
    ∀ (port : Fin 4) (tr : Fin 3) (mac : BitVec 48) (ip : BitVec 128) (udp : BitVec 16) (msg : List Byte),
      let x := exec (.cargoDataIn port tr mac ip udp msg) s
      let f : Nat → Nat → Nat := fun o n => beNat ((msg.drop o).take n)
      let from_ := s.cargoCandidate port.val tr.val (beBytes 6 mac.toNat)
        (if tr.val = 1 then beBytes 4 (ip.toNat % 2 ^ 32) else beBytes 16 ip.toNat) udp.toNat
      (s.on NET_CARGO_CTRL_ENABLE = false → x = .next s) ∧
      (s.on NET_CARGO_CTRL_ENABLE = true → from_ = none → x = .next (s.inc NET_CARGO_ERR_COUNT 0)) ∧
      ∀ n y, s.on NET_CARGO_CTRL_ENABLE = true → from_ = some (n, y) → 20 + entInLen y.entry ≤ msg.length → f 0 1 = 0x11 →
        f 2 2 = n → f 6 2 = entInLen y.entry → f 16 4 = s.g NET_CARGO_SYSID_SYSTEM_ID →
        (y.state = 1 → 1 ≤ (f 4 2 + 65536 - y.rxSeq) % 65536 ∧ (f 4 2 + 65536 - y.rxSeq) % 65536 ≤ 32767) →
        let older := if y.freshNow && y.rxAt < s.fab then some y.latest else y.prior
        x = .next (s.setStation n (some { y with rxSeq := f 4 2, latest := (msg.drop 20).take (entInLen y.entry),
                                                 rxAt := s.fab, prior := older, freshNow := true }))

/-- The Graver (R168 to R198, R411). -/
def Obligations.GraverCommands : Prop :=
  ∀ (c : Fin 128) (n : Fin 16) (s : State), s.inReset = false →
    let d := dCtx c.val
    let x := s.gctx c.val
    let td := dTab n.val
    let src := s.g GRV_FF_SRC_ADDR td
    let from_ := AMap.get 0 s.grv.srcs n.val
    let bank := 1 - s.g GRV_FF_CTRL_ACTIVE_BANK td
    let last := s.rle (from_ + 4096) 4
    let due := s.atInstant (64 + c.val) (1000 * s.g GRV_CTX_PERIOD_VALUE d) (1000 * s.g GRV_CTX_PHASE_VALUE d) = true
    (¬ due → exec (.contextRelease c) s = .next s) ∧
    (due → ∃ t, exec (.contextRelease c) s = .next t ∧ t.mem = s.mem ∧ t.cores = s.cores ∧
      ∀ k ∈ s.releasedWith c.val, s.on GRV_CTRL_ENABLE = true → s.ctxOn k = true → s.mode ≠ PROVISION →
        ((s.gctx k).phase = .none → (s.inputPorts k).find? s.portBad = none → (t.gctx k).phase = .released ∧
          (t.gctx k).relAt = s.tide ∧ (t.gctx k).mode = s.mode ∧ (t.gctx k).cfg = s.grvCfg k ∧
          (t.gctx k).spLive = (portK (s.g GRV_CTX_SP_PORT (dCtx k)) == 0) ∧
          (t.gctx k).meas = s.readPort (s.g GRV_CTX_MEAS_PORT (dCtx k))) ∧
        (∀ w, (s.gctx k).phase = .none → (s.inputPorts k).find? s.portBad = some w → t.gctx k = s.gctx k ∧
          (t.faultStatus .grv).testBit GRV_INPUT_ERR = true) ∧
        ((s.gctx k).phase ≠ .none → t.g GRV_CTX_OVERRUNS_COUNT (dCtx k) =
            min (s.g GRV_CTX_OVERRUNS_COUNT (dCtx k) + 1) (2 ^ GRV_CTX_OVERRUNS_COUNT.w - 1) ∧
          (t.faultStatus .grv).testBit GRV_SAMPLE_OVERRUN = true ∧ t.gctx k = s.gctx k)) ∧
    (s.nextSample = some c.val → x.cfg.group = 0 → s.sampleBad c.val = true →
      ∃ t, exec .sampleStart s = .next t ∧ (t.faultStatus .grv).testBit GRV_ECC_UNCORR = true ∧
        (t.gctx c.val).phase = .none ∧ t.grv.writes = s.grv.writes ∧ t.mem = s.mem ∧ t.cores = s.cores) ∧
    (s.nextSample = some c.val → x.cfg.group = 0 → s.sampleBad c.val = false →
      s.gs GRV_CTX_OUT_MIN_VALUE d ≤ s.gs GRV_CTX_OUT_MAX_VALUE d →
      ∃ t a, exec .sampleStart s = .next t ∧ s.gs GRV_CTX_OUT_MIN_VALUE d ≤ a ∧ a ≤ s.gs GRV_CTX_OUT_MAX_VALUE d ∧
        t.g GRV_CTX_APPLIED_VALUE d = ofSigned GRV_CTX_APPLIED_VALUE.w a % 2 ^ GRV_CTX_APPLIED_VALUE.w ∧
        t.on GRV_CTX_STATUS_SEEDED d = true ∧ (t.gctx c.val).phase = .result ∧
        t.grv.writes = s.grv.writes ++ [(false, c.val, a, x.mode, x.cfg.out)] ∧ t.mem = s.mem ∧ t.cores = s.cores) ∧
    (∀ grp k a m w rest, s.grv.writes = (grp, k, a, m, w) :: rest → ∃ t, exec .sampleOutputWrite s = .next t ∧
      t.grv.writes = rest ∧ t.cores = s.cores ∧
      (grp = false → k < 128 → (t.gctx k).phase = .none ∧ t.g GRV_CTX_SAMPLES_COUNT (dCtx k) =
          (s.g GRV_CTX_SAMPLES_COUNT (dCtx k) + 1) % 2 ^ GRV_CTX_SAMPLES_COUNT.w ∧
        (portK w = 0 → t.mem = s.mem) ∧
        (s.portDead w = true → t.mem = s.mem ∧ (t.faultStatus .grv).testBit GRV_OUTPUT_ERR = true) ∧
        (portK w = 1 → s.portDead w = false → s.mode ≠ STANDBY →
          let key := imageKey (portUnit w) (portOff w)
          t.rle key 4 = ofSigned 32 a % 2 ^ 32 ∧ sameBytesBut key 4 s t))) ∧
    (∀ b : Bool, exec (.coefSetSwitch c b) s = .next ((s.p GRV_CTX_LIVE_ACTIVE_SET d (bit b)).answer true 0)) ∧
    (∃ t, exec (.reseed c) s = .next t ∧ t.on GRV_CTX_STATUS_SEEDED d = false ∧ t.mem = s.mem ∧ t.cores = s.cores) ∧
    (s.on GRV_CTRL_ENABLE = false →
      exec (.grvRebuild n) s = .next ((s.p GRV_FF_CTRL_REFUSAL td 0x011).answer true 0)) ∧
    (s.on GRV_CTRL_ENABLE = true → s.g GRV_FF_CTRL_SHADOW td = ffREBUILDING ∨ src % 64 ≠ 0 ∨ inSram src 4100 = false →
      exec (.grvRebuild n) s = .next ((s.p GRV_FF_CTRL_REFUSAL td 0x208).answer true 0)) ∧
    (s.on GRV_CTRL_ENABLE = true → s.g GRV_FF_CTRL_SHADOW td ≠ ffREBUILDING → src % 64 = 0 → inSram src 4100 = true →
      ∃ t, exec (.grvRebuild n) s = .next t ∧ t.g GRV_FF_CTRL_SHADOW td = ffREBUILDING ∧
        AMap.get 0 t.grv.srcs n.val = src ∧ t.mem = s.mem) ∧
    (s.g GRV_FF_CTRL_SHADOW td = ffREBUILDING →
      (∀ b, b = true ∨ s.eccUncorr from_ 4100 = true → ∃ t, exec (.grvRebuildEnd n b) s = .next t ∧
        t.g GRV_FF_CTRL_SHADOW td = ffFAILED ∧ (t.faultStatus .grv).testBit GRV_REBUILD_ERR = true ∧ t.mem = s.mem) ∧
      (256 ≤ last → s.eccUncorr from_ 4100 = false →
        ∃ t, exec (.grvRebuildEnd n false) s = .next t ∧ t.g GRV_FF_CTRL_SHADOW td = ffFAILED ∧ t.mem = s.mem) ∧
      (last < 256 → s.eccUncorr from_ 4100 = false →
        ∃ t, exec (.grvRebuildEnd n false) s = .next t ∧ t.g GRV_FF_CTRL_SHADOW td = ffREADY ∧
        t.rbs (ffAddr n.val bank 0) 4096 = s.rbs from_ 4096 ∧ sameBytesBut (ffAddr n.val bank 0) 4096 s t)) ∧
    (∀ b : Bool, s.g GRV_FF_CTRL_ACTIVE_BANK td ≠ bit b →
      (s.g GRV_FF_CTRL_SHADOW td ≠ ffREADY →
        exec (.grvBankSwap n b) s = .next ((s.p GRV_FF_CTRL_REFUSAL td 0x207).answer true 0)) ∧
      (s.g GRV_FF_CTRL_SHADOW td = ffREADY → ∃ t, exec (.grvBankSwap n b) s = .next t ∧
        t.g GRV_FF_CTRL_ACTIVE_BANK td = bit b ∧
        t.on GRV_FF_CTRL_ACTIVE_EMPTY td = !s.grv.filled.contains (2 * n.val + bit b) ∧ t.mem = s.mem)) ∧
    (s.atCycle 251 (usCycles * s.g PAIR_COPY_CFG_GRV_PERIOD_US) = true → s.copyNow 6 = true →
      ∃ t, exec .graverCopyPoint s = .next t ∧ t.g PAIR_STREAM_SEQ_SEQ (dStream 6) =
        (s.g PAIR_STREAM_SEQ_SEQ (dStream 6) + 1) % 2 ^ PAIR_STREAM_SEQ_SEQ.w ∧ t.mem = s.mem ∧ t.cores = s.cores)

/-- Drafting (R199 to R232). -/
def Obligations.DraftingCommands : Prop :=
  ∀ (m : Fin 42) (note : Bool) (a : BitVec 40) (slot : Fin 64) (tag : BitVec 16) (s : State), s.inReset = false →
    let desc := s.rbs a.toNat 128
    let code := (s.submitCode a.toNat desc).1
    let running : State → Nat → Prop := fun t n => ∃ r, t.drf.run = some r ∧ r.slot = n
    let endedIn : State → State → Nat → Nat → Prop := fun u t n st => t.drf.run = none ∧
      ∃ ad oct, t.drf.posts = u.drf.posts ++ [(⟨n, ad, oct, st, true⟩ : DrfPost)]
    let ended := endedIn s
    let bad := s.eccUncorr a.toNat 128 = true
    (bad → a.toNat % 64 = 0 → inSram a.toNat 128 = true → (s.mode = COMMISSION ∨ s.mode = RUN) →
      ∃ t, exec (.drfSubmit m note a) s = .next t ∧ t.g DRF_LAST_REFUSAL_CODE = 0x30C ∧
        (t.faultStatus .drf).testBit DRF_INPUT_ERR = true ∧ t.drf.jobs = s.drf.jobs) ∧
    (code ≠ 0 → ¬ bad → ∃ t, exec (.drfSubmit m note a) s = .next t ∧ t.on DRF_LAST_REFUSAL_VALID = true ∧
      t.g DRF_LAST_REFUSAL_CODE = code % 2 ^ DRF_LAST_REFUSAL_CODE.w ∧ t.g DRF_LAST_REFUSAL_MASTER = m.val ∧
      t.drf.jobs = s.drf.jobs) ∧
    (code = 0 → ¬ bad → s.freeSlot = none →
      exec (.drfSubmit m note a) s = .next (((s.eccSeen a.toNat 128).drfRefuse m.val 0x048).answer true 0)) ∧
    (∀ n, code = 0 → ¬ bad → s.freeSlot = some n → ∃ t, exec (.drfSubmit m note a) s = .next t ∧
      t.drfJob n = some ⟨desc, s.adm.nextId, s.tide, m.val, note, 1⟩ ∧ t.outstanding (fld desc 2 2) = true ∧ t.mem = s.mem) ∧
    ((s.drfJob slot.val = none ∨ ∃ j, s.drfJob slot.val = some j ∧ (fld j.desc 4 4 % 65536 ≠ tag.toNat ∨ (j.state = 3 ∧ s.drf.cut = none))) →
      exec (.drfCancel m slot tag) s = .next ((s.drfRefuse m.val 0x30D).answer true 0)) ∧
    (∀ j, s.drfJob slot.val = some j → j.state = 1 →
      let queued : Instr → Nat → Prop := fun i st => ∃ t ad oct, exec i s = .next t ∧
        t.drfJob slot.val = some { j with state := 3 } ∧
        t.drf.posts = s.drf.posts ++ [(⟨slot.val, ad, oct, st, false⟩ : DrfPost)] ∧ t.mem = s.mem ∧ t.drf.run = s.drf.run ∧
        (s.drf.run = none → t.g DRF_PROG_PERMYRIAD_STATE = drfProgState st)
      (fld j.desc 4 4 % 65536 = tag.toNat → queued (.drfCancel m slot tag) stCANCELLED) ∧
      (s.lastStart j ≤ s.tide → queued (.jobExpired slot) stEXPIRED)) ∧
    (∀ n j, s.drf.run = none → s.drf.posts.any (·.ran) = false → s.expireJobs.nextJob = some (n, j) →
      ∃ t, exec .jobStart s = .next t ∧ t.cores = s.cores ∧
        ((running t n ∧ t.drf.posts = s.expireJobs.drf.posts) ∨ ∃ st, endedIn s.expireJobs t n st)) ∧
    (∀ r j, s.drf.run = some r → s.drfJob r.slot = some j →
      (s.tide < s.timeEnd j r →
        (∃ t, exec (.iterateComplete true) s = .next t ∧ ended t r.slot stMEMERR ∧
          (t.faultStatus .drf).testBit DRF_OUTPUT_ERR = true) ∧
        (∃ t, exec (.iterateComplete false) s = .next t ∧ t.cores = s.cores ∧
          (running t r.slot ∨ ∃ st, ended t r.slot st) ∧
          (fld r.desc 0 1 = tNETWORK → r.next = 0 → r.net.good r.net.isolated r.netCold
            (r.net.power (r.eng.at 6) r.net.isolated r.netCold) = false → ended t r.slot stOVERFLOW) ∧
          (fld r.desc 0 1 ≠ tNETWORK → fld r.desc 0 1 ≠ tQP → r.next = 0 → running t r.slot ∧
            t.rbs (bufAddr r.desc 0) (8 * (fld r.desc 64 4 * fld r.desc 68 1)) =
              List.replicate (8 * (fld r.desc 64 4 * fld r.desc 68 1)) 0)) ∧
        (j.state = 2 → r.slot = slot.val → fld j.desc 4 4 % 65536 = tag.toNat →
          ∃ t, exec (.drfCancel m slot tag) s = .next t ∧ ended t r.slot stCANCELLED ∧ t.mem = s.mem)) ∧
      (s.timeEnd j r ≤ s.tide → ∃ t, exec .jobTimeEnd s = .next t ∧ ended t r.slot stDEADLINE ∧ t.mem = s.mem ∧
        t.g DRF_PROG_PERMYRIAD_STATE = 4) ∧
      ∀ (why : JobAbort), ∃ t, exec (.jobAborted why) s = .next t ∧ t.mem = s.mem ∧
        let failed : Nat → Prop := fun b => ended t r.slot stMEMERR ∧ (t.faultStatus .drf).testBit b = true
        match why with
        | .overflow => ended t r.slot stOVERFLOW
        | .input _ => failed DRF_INPUT_ERR
        | .spill => failed DRF_SPILL_ERR
        | .solver => failed DRF_ECC_UNCORR) ∧
    ∀ p rest, s.drf.posts = p :: rest →
      (∃ t, exec (.resultPosted false) s = .next t ∧ t.drf.posts = rest ∧ t.drfJob p.slot = none ∧
        t.rbs p.addr p.octets.length = p.octets ∧ sameBytesBut p.addr p.octets.length s t ∧
        t.g DRF_DONE_RECORDS = (s.g DRF_DONE_RECORDS + 1) % 2 ^ DRF_DONE_RECORDS.w) ∧
      ∃ t, exec (.resultPosted true) s = .next t ∧ t.drf.posts = rest ∧ t.drfJob p.slot = none ∧ t.mem = s.mem ∧
        (t.faultStatus .drf).testBit DRF_OUTPUT_ERR = true

/-- The Beacon's evaluations and tables (R242 to R260). -/
def Obligations.BeaconEvaluations : Prop :=
  ∀ (s : State), s.inReset = false →
    let src := s.g BCN_PROF_SRC_ADDR
    let shadow := s.g BCN_PROF_CTRL_SHADOW
    let bad := shadow = 1 ∨ src % 64 ≠ 0 ∨ s.inRam src profBytes = false
    let other := bcnBank (1 - s.g BCN_PROF_CTRL_ACTIVE_BANK)
    let due := s.atInstant 255 (1000000 * s.g BCN_CFG_EVAL_PERIOD_MS) 0 = true
    (∀ errs, ¬ due → exec (.evaluationStart errs) s = .next s) ∧
    (∀ errs, due → s.on BCN_CTRL_ENABLE = true → s.pair.bcnWait = false →
      (s.bcn.run.isSome = true → ∃ t, exec (.evaluationStart errs) s = .next t ∧ t.bcn = s.bcn ∧ t.mem = s.mem ∧
        t.g BCN_EVALS_SKIPPED = min (s.g BCN_EVALS_SKIPPED + 1) (2 ^ BCN_EVALS_SKIPPED.w - 1) ∧
        (t.faultStatus .bcn).testBit BCN_EVAL_OVERRUN = true) ∧
      (s.bcn.run = none → ∃ t, exec (.evaluationStart errs) s = .next t ∧ t.bcn.run.isSome = true ∧
        t.on BCN_STATUS_PASS = true ∧ t.cores = s.cores)) ∧
    (s.bcn.run.isSome = true → ∃ t, exec .bcnPassEnd s = .next t ∧ t.bcn.run = none ∧ t.bcn.first = false ∧
      t.on BCN_STATUS_PASS = false ∧ t.on BCN_STATUS_FIRST_DONE = true ∧ t.cores = s.cores) ∧
    (bad → exec .bcnRebuild s = .next ((s.p BCN_PROF_CTRL_REFUSAL 0 0x406).answer true 0)) ∧
    (¬ bad → ∃ t, exec .bcnRebuild s = .next t ∧ t.g BCN_PROF_CTRL_SHADOW = 1 ∧ t.mem = s.mem ∧ t.cores = s.cores) ∧
    (shadow = 1 →
      (∀ o, ∃ t, exec (.bcnRebuildEnd (some o)) s = .next t ∧ t.g BCN_PROF_CTRL_SHADOW = 3 ∧
        t.g BCN_PROF_FAIL_OFFSET = o.val % 2 ^ BCN_PROF_FAIL_OFFSET.w ∧ (t.faultStatus .bcn).testBit BCN_REBUILD_ERR = true ∧
        t.mem = s.mem) ∧
      (∀ o, s.eccUncorr src profBytes = false → s.profFault src = some o → ∃ t, exec (.bcnRebuildEnd none) s = .next t ∧ t.g BCN_PROF_CTRL_SHADOW = 3 ∧
        t.g BCN_PROF_FAIL_OFFSET = o % 2 ^ BCN_PROF_FAIL_OFFSET.w ∧ t.mem = s.mem) ∧
      (s.eccUncorr src profBytes = true → ∃ t, exec (.bcnRebuildEnd none) s = .next t ∧ t.g BCN_PROF_CTRL_SHADOW = 3 ∧
        (t.faultStatus .bcn).testBit BCN_REBUILD_ERR = true ∧ t.mem = s.mem) ∧
      (s.eccUncorr src profBytes = false → s.profFault src = none → ∃ t, exec (.bcnRebuildEnd none) s = .next t ∧ t.g BCN_PROF_CTRL_SHADOW = 2 ∧
        t.rbs other profBytes = s.rbs src profBytes ∧ sameBytesBut other profBytes s t)) ∧
    (∀ b : Fin 2, s.g BCN_PROF_CTRL_ACTIVE_BANK ≠ b.val →
      (shadow ≠ 2 → exec (.bcnBankSwap b) s = .next ((s.p BCN_PROF_CTRL_REFUSAL 0 0x405).answer true 0)) ∧
      (shadow = 2 → ∃ t, exec (.bcnBankSwap b) s = .next t ∧ t.g BCN_PROF_CTRL_ACTIVE_BANK = b.val ∧
        t.on BCN_PROF_CTRL_ACTIVE_EMPTY = !s.bcn.filled.contains b.val ∧ t.mem = s.mem ∧ t.cores = s.cores)) ∧
    ∀ (w : Fin 1024),
      (∀ len : Fin 2048, s.on BCN_PT_CMD_BUSY = false → ∃ t, exec (.passthruSend w len) s = .next t ∧
        t.g BCN_PT_CMD_GATEWAY = w.val ∧ t.g BCN_PT_CMD_LENGTH = len.val ∧ t.mem = s.mem ∧ t.cores = s.cores ∧
        let a := s.g BCN_PT_SRC_ADDR
        (1 ≤ len.val → len.val ≤ 1024 → inSram a len.val = true → t.on BCN_PT_CMD_BUSY = true ∧
          t.bcn.pt = some (w.val, s.rbs a len.val))) ∧
      (s.on BCN_CTRL_ENABLE = true →
        s.bcnCfg.silentS ≤ (s.tideNs / 1000000000 + 2 ^ 32 - s.wget w.val oLASTRX 4) % 2 ^ 32 →
        s.g BCN_FEV_CFG_LOG2_SIZE ≤ 16 → s.g BCN_FEV_BASE_ADDR + 2 ^ 20 ≤ winBase →
        ∃ t, exec (.gatewaySilent w) s = .next t ∧ t.gwUp w.val = false ∧ t.cores = s.cores)

/-- The Beacon's receive side and campaigns (R256 to R266). -/
def Obligations.BeaconReceiveAndCampaigns : Prop :=
  ∀ (s : State), s.inReset = false →
    (∀ (port : Fin 5) (v6 : Bool) (ip : BitVec 128) (udp : BitVec 16) (l : List Byte),
      let x := exec (.beaconFrameReceived port v6 ip udp l) s
      let on := s.on BCN_CTRL_ENABLE = true ∧ s.on NET_PORT_CTRL_ENABLE (dPort port.val) = true
      let err : Nat → Prop := fun k => x = .next (s.inc BCN_RX_ERR_COUNT (4 * k))
      let w := beNat ((l.drop 4).take 2)
      let c := s.wcfg w
      let seq := beNat ((l.drop 6).take 6)
      let rx := s.wget w oRXSEQ 8
      let phase := (beNat ((l.drop 2).take 1)) % 2
      let head := l.take 16
      let cipher := (l.drop 16).take (l.length - 32)
      let nonce := bcnNonce 1 phase w seq
      (¬ on → x = .next s) ∧
      (on → s.on BCN_STATUS_FIRST_DONE = false → err 6) ∧
      (on → s.on BCN_STATUS_FIRST_DONE = true → 4096 ≤ s.bcn.rx.length → err 5) ∧
      ∀ key plain ms, on → s.on BCN_STATUS_FIRST_DONE = true → s.bcn.rx.length < 4096 → w < 1024 → s.gwUsable w = true →
        c.trans = (if v6 then 2 else 1) → c.udp = udp.toNat →
        (if v6 then c.ip = beBytes 16 ip.toNat else c.ip.take 4 = beBytes 4 (ip.toNat % 2 ^ 32)) → 32 ≤ l.length →
        fldB l 0 1 = 1 → fldB l 1 1 = 1 → phase = fldB l 2 1 % 2 → beNat ((l.drop 12).take 4) = s.g BCN_SYSID_SYSTEM_ID →
        rx < seq → s.sessKey c.session phase = some key →
        aesGcmOpen key nonce head cipher (l.drop (l.length - 16)) = some plain →
        splitMsgs cipher.length (aesGcm key nonce head cipher).1 = some ms →
        s.g BCN_FEV_CFG_LOG2_SIZE ≤ 16 → s.g BCN_FEV_BASE_ADDR + 2 ^ 20 ≤ winBase →
        ∃ t, x = .next t ∧ t.wget w oRXSEQ 8 = seq ∧ t.wget w oLASTRX 4 = s.tideNs / 1000000000 % 2 ^ 32 ∧
          t.cores = s.cores) ∧
    (∀ w b stamp u, s.takeMsg 0x81 = some (w, b, stamp, u) → s.eccUncorr (s.revKey w (beNat (b.take 2))) 4 = false →
      (∀ n, s.recBad n = false) → ∃ t, exec .report s = .next t ∧ t.cores = s.cores ∧
      match u.revFind w (beNat (b.take 2)) with
      | none => t.g BCN_MSG_NO_LANTERN = min (s.g BCN_MSG_NO_LANTERN + 1) (2 ^ BCN_MSG_NO_LANTERN.w - 1) ∧ t.mem = s.mem
      | some n => t.lget n oREPORT 8 = stamp % 2 ^ 64 ∧ t.lget n oTEMP 2 = beNat ((b.drop 4).take 2) % 2 ^ 16 ∧
          t.lget n oARCNOW 1 = fldB b 10 1 % 2 ^ 8) ∧
    (∀ w b stamp u, s.takeMsg 0x82 = some (w, b, stamp, u) → ∃ t, exec .count s = .next t ∧ t.cores = s.cores ∧
      let z := beNat (b.take 2)
      let a := bcnZone z
      if z < 2048 then t.rle (a + 16) 4 = (s.rle (a + 16) 4 + beNat ((b.drop 2).take 2)) % 2 ^ 32 ∧
        sameBytes (fun y => y < a + 16 ∨ (a + 20 ≤ y ∧ y < a + 24) ∨ a + 32 ≤ y) s t
      else t.mem = s.mem) ∧
    (∀ w b stamp u, s.takeMsg 0x83 = some (w, b, stamp, u) → ∃ t, exec .fwAck s = .next t ∧ t.cores = s.cores ∧
      ∀ y, (s.camp (fldB b 0 1)).targets.find? (fun t => t.gw = w ∧ t.laddr = beNat ((b.drop 4).take 2)) = some y →
        fldB b 0 1 < 8 → s.campState (fldB b 0 1) = 2 →
        ∃ y' ∈ (t.camp (fldB b 0 1)).targets, y'.lantern = y.lantern ∧ y'.acked = max y.acked (beNat ((b.drop 2).take 2))) ∧
    (∀ w b stamp u, s.takeMsg 0x84 = some (w, b, stamp, u) → exec .bcnAlive s = .next u.msgDone ∧ u.msgDone.mem = s.mem) ∧
    ∀ (c : Fin 8),
      let d := dCamp c.val
      let st := s.campState c.val
      let x := s.camp c.val
      let len := s.g BCN_CAMP_LEN_BYTES d
      let img := s.g BCN_CAMP_IMAGE_ADDR d
      let sig := s.g BCN_CAMP_SIG_ADDR d
      let area := s.g BCN_CAMP_AREA_ADDR + 0x400000 * c.val
      let refused : Instr → Prop := fun i => exec i s = .next ((s.p BCN_CAMP_STATUS_REFUSAL d 0x407).answer true 0)
      let ready := s.on BCN_CTRL_ENABLE = true ∧ st = 0 ∧ (s.mode = COMMISSION ∨ s.mode = RUN)
      (¬ ready → refused (.campaignStart c)) ∧
      (ready → 0 < len → len ≤ 4194304 → img % 64 = 0 → sig % 64 = 0 → s.inRam img len = true →
        s.inRam sig (if s.on BCN_CAMP_CFG_ALG d then 96 else 64) = true → s.pathOn (s.g BCN_CAMP_CFG_PATH d) = true →
        s.pathKind (s.g BCN_CAMP_CFG_PATH d) = kBEACON → outside (s.g BCN_CAMP_CFG_WAVE_SIZE d) 1 1024 = false →
        outside (s.g BCN_CAMP_TIMING_ACK_TIMEOUT_MS d) 10 60000 = false →
        ∃ t, exec (.campaignStart c) s = .next t ∧ t.campState c.val = 1 ∧ t.rbs area len = s.rbs img len ∧
          sameBytesBut area len s t ∧ t.cores = s.cores) ∧
      (s.on BCN_CTRL_ENABLE = true → st = 1 → ∀ err : Bool, ∃ t, exec (.campaignVerifyEnd c err) s = .next t ∧
        ((t.campState c.val = 4 ∧ t.mem = s.mem ∧
            t.g BCN_CAMP_STATUS_FAIL d = (if err || s.campBad c.val then 6 else match s.campVerify c.val with
              | none => 2 | some false => 1 | some true => 3)) ∨
          (err = false ∧ s.campBad c.val = false ∧ s.campVerify c.val = some true ∧ t.campState c.val = 2 ∧ (t.camp c.val).targets ≠ []))) ∧
      (s.on BCN_CTRL_ENABLE = true → st = 2 → (s.mode = COMMISSION ∨ s.mode = RUN) → s.eccUncorr area len = false → ∀ w,
        ((s.campTurn c.val).find? fun w => s.gwUsable w && (s.campMsg c.val w).isSome) = some w →
        ∃ t, exec (.campaignFrameTurn c) s = .next t ∧ (t.camp c.val).last = some w ∧ t.cores = s.cores) ∧
      (∀ w : Fin 1024, s.on BCN_CTRL_ENABLE = true → st = 2 → (x.gw w.val).waiting = true →
        (x.gw w.val).since + 400000 * s.g BCN_CAMP_TIMING_ACK_TIMEOUT_MS d ≤ s.campClock → ∃ t, exec (.campaignAckTimeout c w) s = .next t ∧
          ((t.camp c.val).gw w.val).fails = (x.gw w.val).fails + 1 ∧ ((t.camp c.val).gw w.val).waiting = false ∧
          t.cores = s.cores ∧
          if s.g BCN_CAMP_CFG_RETRIES d ≤ (x.gw w.val).fails + 1 then (t.camp c.val).finished w.val = true
          else t.mem = s.mem ∧ t.regs = s.regs) ∧
      (st = 1 ∨ st = 2 → ∃ t, exec (.campaignAbort c) s = .next t ∧ t.campState c.val = 4 ∧
        t.g BCN_CAMP_STATUS_FAIL d = 4 ∧ (t.camp c.val).targets.all CampTarget.final = true ∧ t.cores = s.cores) ∧
      (st = 3 ∨ st = 4 → ∃ t, exec (.campaignClear c) s = .next t ∧ t.campState c.val = 0 ∧
        t.camp c.val = {} ∧ t.mem = s.mem ∧ t.cores = s.cores) ∧
      (st ≠ 1 ∧ st ≠ 2 → refused (.campaignAbort c)) ∧
      (st ≠ 3 ∧ st ≠ 4 → refused (.campaignClear c))

/-- The Tally's commands (R271 to R303), its reads apart. -/
def Obligations.TallyCommands : Prop :=
  ∀ (s : State), s.inReset = false →
    let slot := 1 - s.g TLY_MRAM_STATUS_LAST_SLOT
    let seq := (s.g TLY_MRAM_SEQ_SEQ + 1) % 2 ^ 64
    let key := tlyMram + 2048 * slot
    (∀ codes general, s.tlyOn = true → ∃ t, exec (.tallySample codes general) s = .next t ∧ t.tly.n = s.tly.n + 1 ∧
      t.tly.stamp = (s.tideNs + 2 ^ 64 - 750000) % 2 ^ 64 ∧ t.mem = s.mem ∧ t.cores = s.cores ∧
      t.tly.thDue = (s.tly.thDue || (s.tly.n + 1) % 3200 == 0)) ∧
    (∀ f : Fin 4,
      let d := dFdr f.val
      let x := s.fdr f.val
      let after : State → Prop := fun t => x.last.isSome = true →
        t.on TLY_FDR_CYCLE_VALID d = true ∧ t.g TLY_FDR_CYCLE_COUNT d = (s.g TLY_FDR_CYCLE_COUNT d + 1) % 2 ^ TLY_FDR_CYCLE_COUNT.w
      let limit : Rat := x.last.getD (x.since : Rat) + 64000 / 85
      s.fdrOn f.val = true →
      (∀ at_ r, x.pend = (true, at_) :: r → ∃ t, exec (.lineCycleBoundary f) s = .next t ∧ (t.fdr f.val).last = some at_ ∧
        (t.fdr f.val).counted = true ∧ (t.fdr f.val).pend = r ∧ (t.fdr f.val).cfg = s.fdrCfg f.val ∧ after t ∧
        (x.counted = true → t.on TLY_FDR_CYCLE_FREQ_HELD d = false) ∧ t.cores = s.cores) ∧
      (∀ at_ r, x.pend = (false, at_) :: r → ∃ t, exec (.halfCycleBoundary f) s = .next t ∧
        (t.fdr f.val).lastHalf = some at_ ∧ (t.fdr f.val).pend = r ∧ (t.fdr f.val).last = x.last ∧ t.cores = s.cores) ∧
      (x.pend = [] → limit ≤ (s.tly.n : Rat) → ∃ t, exec (.boundaryPlaced f) s = .next t ∧
        (t.fdr f.val).counted = false ∧ t.on TLY_FDR_CYCLE_FREQ_HELD d = true ∧ after t ∧ t.cores = s.cores ∧
        (t.fdr f.val).last = some (match x.last with
          | some l => l + x.held.getD (if x.cfg.hz60 then 32000 / 60 else 640)
          | none => limit))) ∧
    (∀ cut, s.tlyOn = true → s.tly.thDue = true → ∃ t, exec (.thermalSample cut) s = .next t ∧ t.tly.thDue = false ∧
      t.tly.writes = s.tly.writes + 1 ∧ t.cores = s.cores) ∧
    (s.tly.writes ≠ 0 → ∀ fail, ∃ t, exec (.totalsRecordWrite fail) s = .next t ∧ t.tly.writes = s.tly.writes - 1 ∧
      t.g TLY_MRAM_SEQ_SEQ = seq ∧ t.g TLY_MRAM_STATUS_LAST_SLOT = slot ∧ sameBytesBut key 2048 s t ∧ t.cores = s.cores ∧
      (fail = false → t.rbs key 2048 = tlyRecord seq s.tlyTotals) ∧
      (fail = true → (t.faultStatus .tly).testBit TLY_MRAM_ERR = true ∧
        t.g TLY_MRAM_STATUS_FAILS = min (s.g TLY_MRAM_STATUS_FAILS + 1) (2 ^ TLY_MRAM_STATUS_FAILS.w - 1))) ∧
    (∀ (pin : Fin 64) (high : Bool), ∃ t, exec (.flowPulse pin high) s = .next t ∧ t.mem = s.mem ∧ t.cores = s.cores ∧
      ∀ c : Fin 32,
        let x := s.thm c.val
        let back := x.dirEn && high
        if s.thOn c.val && x.pulse && x.pin == pin.val then
          (t.thm c.val).pulsesF = (s.thm c.val).pulsesF + bit (!back) ∧
          (t.thm c.val).pulsesR = (s.thm c.val).pulsesR + bit back ∧ (t.thm c.val).dir = (if back then -1 else 1)
        else t.thm c.val = s.thm c.val) ∧
    (∀ j : Fin 8,
      let d := dPo j.val
      let x := s.pulse j.val
      (s.poOn j.val = true → x.phase = 0 → s.g TLY_PO_STATUS_BACKLOG d ≠ 0 → s.pulseMay j.val = true →
        ∃ t, exec (.pulseOutputStart j) s = .next t ∧ (t.pulse j.val).phase = 1 ∧
          t.g TLY_PO_STATUS_BACKLOG d = (s.g TLY_PO_STATUS_BACKLOG d - 1) % 2 ^ TLY_PO_STATUS_BACKLOG.w ∧
          t.g TLY_PO_COUNT_COUNT d = (s.g TLY_PO_COUNT_COUNT d + 1) % 2 ^ TLY_PO_COUNT_COUNT.w ∧
          (t.pulse j.val).until_ = s.tly.n + (t.pulse j.val).width ∧
          (t.pulse j.val).width ≤ 32 * s.g TLY_PO_CFG_WIDTH_MS d ∧ t.mem = s.mem ∧ t.cores = s.cores) ∧
      (x.phase = 1 → x.until_ ≤ s.tly.n →
        exec (.pulseOutputEnd j) s = .next (s.setPulse j.val { x with phase := 2, until_ := s.tly.n + x.width })) ∧
      (x.phase = 2 → x.until_ ≤ s.tly.n → exec (.pulseOutputIdle j) s = .next (s.setPulse j.val { x with phase := 0 }))) ∧
    (∃ t, exec (.dieTempReading none) s = .next t ∧ t.on TLY_STATUS_SENSOR_VALID = false ∧
      (t.faultStatus .tly).testBit TLY_SENSOR_ERR = true ∧ t.mem = s.mem ∧ t.cores = s.cores) ∧
    (∀ b : BitVec 16, ∃ t, exec (.dieTempReading (some b)) s = .next t ∧ t.on TLY_STATUS_SENSOR_VALID = true ∧
      t.g TLY_STATUS_TEMP = b.toNat ∧ t.g PWR_TEMP_TJ = b.toNat ∧ t.tly.temp = some b.toInt ∧ t.mem = s.mem ∧
      t.cores = s.cores ∧
      ((s.g PWR_TEMP_CFG_TJ_LIMIT : Int) < b.toInt → (t.faultStatus .pwr).testBit PWR_THERMAL = true)) ∧
    (∀ (i : BitVec 8) (m : Fin 42),
      let s1 := s.p TLY_PRESET_CMD_INDEX 0 i.toNat
      (s.mode ≠ PROVISION → exec (.preset i m) s = .next ((s1.p TLY_PRESET_CMD_REFUSAL 0 0x507).answer true 0)) ∧
      (s.mode = PROVISION → 191 < i.toNat →
        exec (.preset i m) s = .next ((s1.p TLY_PRESET_CMD_REFUSAL 0 0x508).answer true 0)) ∧
      (s.mode = PROVISION → i.toNat ≤ 191 → ∃ t, exec (.preset i m) s = .next t ∧
        (∀ k, k < 192 → t.tlyTotals.getD k 0 =
          if k = i.toNat then s.g TLY_PRESET_VAL_VALUE % 2 ^ 64 else s.tlyTotals.getD k 0) ∧
        t.g TLY_MRAM_SEQ_SEQ = seq ∧ t.rbs key 2048 = tlyRecord seq t.tlyTotals ∧ sameBytesBut key 2048 s t ∧
        t.cores = s.cores))

/-- Ethernet port commands (R304 to R315, R331). -/
def Obligations.EthernetPortCommands : Prop :=
  ∀ (s : State) (port : Fin 5),
    let p := port.val
    let d := dPort p
    let on := s.on NET_PORT_CTRL_ENABLE d = true
    let link := s.on NET_PORT_STATUS_LINK d = true
    let ifc := s.g NET_PORT_CTRL_IF d
    (on → ¬ link → ∀ seen : Fin 16, ∃ t, exec (.portLinkUp port seen) s = .next t ∧ t.mem = s.mem ∧ t.cores = s.cores ∧
      (∀ e, e ≠ p → t.port e = s.port e) ∧ (t.port p).queue = (s.port p).queue ∧ (t.port p).lost = (s.port p).lost ∧
      t.on NET_PORT_STATUS_LINK d = (ifc == 3 || seen.val == s.g NET_PORT_CTRL_RATE d) ∧
      (t.on NET_PORT_STATUS_LINK d = true → (t.port p).fell = false) ∧
      (ifc = 0 ∨ ifc = 2 → t.g NET_PORT_STATUS_RATE_SEEN d = seen.val)) ∧
    (on → link → ∃ t, exec (.portLinkDown port) s = .next t ∧ t.on NET_PORT_STATUS_LINK d = false ∧
      t.g NET_PORT_STATUS_LINK_DOWNS d =
        min (s.g NET_PORT_STATUS_LINK_DOWNS d + 1) (2 ^ NET_PORT_STATUS_LINK_DOWNS.w - 1) ∧
      (t.port p).lost = true ∧ (t.port p).fell = true ∧ (t.port p).busy = none ∧ t.mem = s.mem ∧ t.cores = s.cores) ∧
    (∀ (ok : Bool) (fault : Fin 3) (addr : BitVec 40) (l : List Byte),
      let x := exec (.frameReceived port ok fault addr l) s
      let count : Nat → Prop := fun c => x = .next (s.inc NET_PORT_COUNT_COUNT (d + 4 * c))
      let n := l.length + 4
      let type := beNat ((l.drop 12).take 2)
      let sized := 64 ≤ n ∧ n ≤ (if type = 0x8100 then 1522 else 1518)
      let b := etherBody l
      (¬ on ∨ ¬ link → x = .next s) ∧
      (on → link → (ok = false ∨ ¬ sized → count 1) ∧
        (ok = true → sized → fault.val = 2 ∨ s.eccIn (.port p) = true → ∃ t, x = .next t ∧ (t.faultStatus (.net p)).testBit NET_PORT_ECC_UNCORR = true ∧
          t.mem = s.mem ∧ t.cores = s.cores) ∧
        (ok = true → sized → fault.val ≠ 2 → s.eccIn (.port p) = false →
          (b.1 = 0x8808 → count 4) ∧
          (b.1 ≠ 0x8808 → s.destOk p (l.take 6) = false → count 2) ∧
          (b.1 ≠ 0x8808 → s.destOk p (l.take 6) = true → ip4Bad b.1 b.2 = true → count 1) ∧
          (b.1 ≠ 0x8808 → s.destOk p (l.take 6) = true → ip4Bad b.1 b.2 = false →
            (fault.val = 1 → ∃ t, x = .next t ∧ (t.faultStatus (.net p)).testBit NET_PORT_RX_DMA_ERR = true ∧
              t.g NET_PORT_COUNT_COUNT d = (s.g NET_PORT_COUNT_COUNT d + 1) % 2 ^ 32 ∧ t.mem = s.mem) ∧
            (fault.val = 0 → b.1 ≠ 0x88B5 → b.1 ≠ 0x88F7 → udpIn b.1 b.2 = none → ∃ t, x = .next t ∧ t.cores = s.cores ∧
              t.g NET_PORT_COUNT_COUNT d = (s.g NET_PORT_COUNT_COUNT d + 1) % 2 ^ 32 ∧
              let k := s.g NET_PORT_RXQ_CFG_LOG2_SIZE d
              let tail := s.g NET_PORT_RXQ_TAIL_INDEX d
              if ringUsed k (s.g NET_PORT_RXQ_HEAD_INDEX d) tail = 2 ^ k then t.mem = s.mem ∧
                t.g NET_PORT_COUNT_COUNT (d + 12) = (s.g NET_PORT_COUNT_COUNT (d + 12) + 1) % 2 ^ 32
              else t.rle (s.rxEntry p) 2 = l.length ∧ t.rbs (s.rxEntry p + 18) l.length = l ∧
                sameBytesBut (s.rxEntry p) (18 + l.length) s t ∧
                t.g NET_PORT_RXQ_TAIL_INDEX d = ringNext k tail % 2 ^ NET_PORT_RXQ_TAIL_INDEX.w))))) ∧
    (∀ (fault : Fin 3) (addr : BitVec 40),
      let u := State.passOversize 8192 s p
      let x := exec (.ethFrameStart port fault addr) s
      on → link → (∀ e, (s.port p).busy = some e → e ≤ s.fab) →
        (u.nextFrame p = none → x = .next u) ∧
        (∀ i f, u.nextFrame p = some (i, f) → ∃ t, x = .next t ∧ t.cores = s.cores ∧
          (t.port p).busy = some (s.fab + ceilDiv (ethService (u.waitLen p f) (u.portRate p)) 250) ∧
          let bad := if s.eccIn (.port p) = true then 2
            else if f.body = .ring ∧ u.eccUncorr (u.txEntry p) (18 + u.rle (u.txEntry p) 2) = true then 1 else fault.val
          (f.body ≠ .ring → t.mem = s.mem) ∧
          ((∀ m, f.body ≠ .ptp m) → (t.port p).queue = (u.port p).queue.eraseIdx i) ∧
          (∀ bs, bad = 0 → f.body = .octets bs → f.item = none → t.outbox = s.outbox ++ [.eth p bs]) ∧
          (bad = 0 → t.g NET_PORT_COUNT_COUNT (d + 20) = (s.g NET_PORT_COUNT_COUNT (d + 20) + 1) % 2 ^ 32) ∧
          (bad = 1 → (t.faultStatus (.net p)).testBit NET_PORT_TX_DMA_ERR = true) ∧
          (bad = 2 → (t.faultStatus (.net p)).testBit NET_PORT_ECC_UNCORR = true))) ∧
    (∀ f : Fin 4, ∃ t, exec (.gateEntryChange f) s = .next t ∧ t = { s with ports := t.ports } ∧
      (t.port f.val).gates = (s.operList f.val).gatesAt s.tideNs ∧
      (t.port f.val).queue = (s.port f.val).queue ∧ ∀ e, e ≠ f.val → t.port e = s.port e) ∧
    (∀ (f : Fin 4) (at_ : Nat),
      let k := dPort f.val
      let len := s.g NET_GCL_ADMIN_LEN_LEN k
      (s.port f.val).chg = some at_ → at_ ≤ s.tideNs → len ≤ 256 → s.g NET_GCL_STATUS_OPER_LEN k ≤ 256 →
      ∃ t, exec (.gateListChangeover f) s = .next t ∧ t.mem = s.mem ∧ t.cores = s.cores ∧ (t.port f.val).chg = none ∧
        t.on NET_GCL_STATUS_PENDING k = false ∧ t.g NET_GCL_STATUS_OPER_LEN k = len ∧
        t.g NET_GCL_OPER_CYCLE_CYCLE_NS k = s.g NET_GCL_ADMIN_CYCLE_CYCLE_NS k % 2 ^ 32 ∧
        (t.port f.val).gates = (t.operList f.val).gatesAt s.tideNs ∧
        ∀ e, e < len →
          t.g NET_GCL_OPER_ENTRY_GATES (k + 4 * e) = s.g NET_GCL_ADMIN_ENTRY_GATES (k + 4 * e) % 2 ^ 8 ∧
          t.g NET_GCL_OPER_ENTRY_INTERVAL (k + 4 * e) = s.g NET_GCL_ADMIN_ENTRY_INTERVAL (k + 4 * e) % 2 ^ 24) ∧
    (∀ (tc : Fin 8) (most : Fin 2048),
      let x := exec (.otherWrite port tc most) s
      let w := (s.p NET_PORT_OTHER_OTHER_TC d tc.val).p NET_PORT_OTHER_OTHER_MAX d most.val
      s.inReset = false →
      (on → most.val < 64 ∨ 1518 < most.val → x = .next ((s.p NET_PORT_CTRL_REFUSAL d 0x604).answer true 0)) ∧
      ((¬ on ∨ (64 ≤ most.val ∧ most.val ≤ 1518)) → s.anyPath = false → x = .next (w.answer true 0)) ∧
      ((64 ≤ most.val ∧ most.val ≤ 1518) → s.anyPath = true → w ≠ s → (s.admitChange w).1 = false →
        ∃ t, x = .next t ∧ t.g NET_PORT_CTRL_REFUSAL d = 0x04B)) ∧
    (∀ v : BitVec 32, s.inReset = false → s.on NET_PORT_MDIO_BUSY d = false → ∃ t, exec (.mdioOp port v) s = .next t ∧ t.mem = s.mem ∧
      t.cores = s.cores ∧ t.g NET_PORT_MDIO_REGAD d = bits v.toNat 18 5 ∧ t.g NET_PORT_MDIO_DATA d = bits v.toNat 0 16 ∧
      t.on NET_PORT_MDIO_BUSY d = v.toNat.testBit 31 ∧
      (v.toNat.testBit 31 = true → (t.port p).mdio = some v.toNat ∧
        t.outbox = s.outbox ++ [.mdio p (v.toNat % 2 ^ 31)])) ∧
    (∀ (v : Nat) (data : BitVec 16), (s.port p).mdio = some v → ∃ t, exec (.mdioOpEnd port data) s = .next t ∧
      t.mem = s.mem ∧ t.cores = s.cores ∧ t.on NET_PORT_MDIO_BUSY d = false ∧ (t.port p).mdio = none ∧
      (2 ≤ bits v 28 2 → t.g NET_PORT_MDIO_DATA d = data.toNat))

/-- The PTP engine (R319 to R323). -/
def Obligations.PtpMessages : Prop :=
  ∀ (s : State) (port : Fin 4),
    let p := port.val
    let keeps : State → Prop := fun t => t.mem = s.mem ∧ t.cores = s.cores ∧ t.stations = s.stations
    let half : Int → Nat → Prop := fun x m => m = ofSigned 32 (x / 2) ∨ (x % 2 ≠ 0 ∧ m = ofSigned 32 (x / 2 + 1))
    let sent : State → Nat → (PtpMsg → Prop) → Prop := fun t type ok =>
      ∃ f m, (t.port p).queue = (s.port p).queue ++ [f] ∧ f.body = .ptp m ∧ f.cls = s.g NET_PORT_OTHER_OTHER_TC (dPort p) ∧
        m.type = type ∧ ok m
    (∀ (dn : BitVec 8) (seq : BitVec 16) (two : Bool) (org req recv : BitVec 80) (corr : BitVec 64),
      s.msgDomain p dn.toNat = none →
        exec (.sync port dn seq two org corr) s = .next s ∧ exec (.followUp port dn seq org corr) s = .next s ∧
        exec (.delayReq port dn seq req corr) s = .next s ∧ exec (.delayResp port dn seq req recv corr) s = .next s ∧
        exec (.pdelayReq port dn seq req corr) s = .next s ∧
        exec (.pdelayResp port dn seq two req recv corr) s = .next s ∧
        exec (.pdelayRespFollowUp port dn seq req org corr) s = .next s) ∧
    (∀ (dn : BitVec 8) (seq : BitVec 16) (org req recv : BitVec 80) (corr : BitVec 64) (d : Nat),
      let k := dPtp p d
      let x := s.ptpPort p d
      let sampled : State → Nat → Int → Prop := fun t t2 t1 => keeps t ∧ (t.ptpPort p d).sync = none ∧
        (t.ptpPort p d).lastSync = some (t2, t1) ∧
        t.g NET_PTP_COUNT_SYNC_RX k = (s.g NET_PTP_COUNT_SYNC_RX k + 1) % 2 ^ 16 ∧
        t.g TID_DOM_STATUS_SAMPLES (dDom d) = (s.g TID_DOM_STATUS_SAMPLES (dDom d) + 1) % 2 ^ 16 ∧
        t.g TID_DOM_OFFSET_OFFSET (dDom d) = ofSigned 64 ((t2 : Int) - t1 - s.g NET_PTP_DELAY_MEAN_DELAY k)
      s.msgDomain p dn.toNat = some d →
      (s.ptpState p d = 1 → (∃ t, exec (.sync port dn seq true org corr) s = .next t ∧ t = { s with ports := t.ports } ∧
        (t.ptpPort p d).sync = some (seq.toNat, s.rxStamp p, corr.toInt) ∧ (t.port p).queue = (s.port p).queue)) ∧
      (s.ptpState p d = 1 → s.eccIn .tide = false → ∃ t, exec (.sync port dn seq false org corr) s = .next t ∧
        sampled t (s.rxStamp p) (wireTime org.toNat + corr.toInt)) ∧
      (∀ t2 c, s.ptpState p d = 1 → s.eccIn .tide = false → x.sync = some (seq.toNat, t2, c) → ∃ t, exec (.followUp port dn seq org corr) s = .next t ∧
        sampled t t2 (wireTime org.toNat + c + corr.toInt)) ∧
      (∀ t1 t2 t3, s.ptpState p d = 1 → s.on NET_PTP_CFG_P2P k = false → req.toNat = s.portIdentity p →
        x.req = some (seq.toNat, some t3) → x.lastSync = some (t2, t1) →
        ∃ t, exec (.delayResp port dn seq req recv corr) s = .next t ∧ keeps t ∧ (t.ptpPort p d).req = none ∧
          half (((t2 : Int) - t3) + (wireTime recv.toNat - t1) - corr.toInt) (t.g NET_PTP_DELAY_MEAN_DELAY k)) ∧
      (∀ t1, s.on NET_PTP_CFG_P2P k = true → req.toNat = s.portIdentity p → x.req = some (seq.toNat, some t1) →
        (∃ t, exec (.pdelayResp port dn seq false req recv corr) s = .next t ∧ keeps t ∧ (t.ptpPort p d).req = none ∧
          half (((s.rxStamp p : Nat) : Int) - t1 - corr.toInt) (t.g NET_PTP_DELAY_MEAN_DELAY k)) ∧
        (∃ t, exec (.pdelayResp port dn seq true req recv corr) s = .next t ∧ t = { s with ports := t.ports } ∧
          (t.ptpPort p d).presp = some ((wireTime recv.toNat).toNat, s.rxStamp p, corr.toInt) ∧
          (t.ptpPort p d).req = x.req) ∧
        (∀ t2 t4 c, x.presp = some (t2, t4, c) → ∃ t, exec (.pdelayRespFollowUp port dn seq req org corr) s = .next t ∧
          keeps t ∧ (t.ptpPort p d).req = none ∧ (t.ptpPort p d).presp = none ∧
          (t.ptpPort p d).prev = some (wireTime org.toNat + corr.toInt, t4) ∧
          half (((t4 : Int) - t1) - (wireTime org.toNat - t2) - c - corr.toInt) (t.g NET_PTP_DELAY_MEAN_DELAY k))) ∧
      (s.ptpState p d = 2 → s.on NET_PTP_CFG_P2P k = false → ∃ t, exec (.delayReq port dn seq req corr) s = .next t ∧
        t = { s with ports := t.ports } ∧
        sent t mDelayResp fun m => m.seq = seq.toNat ∧ m.req = req.toNat ∧ m.dom = dn.toNat) ∧
      (s.ptpState p d = 2 → s.on NET_PTP_CFG_P2P k = true → ∃ t, exec (.pdelayReq port dn seq req corr) s = .next t ∧
        t = { s with ports := t.ports } ∧ (t.ptpPort p d).respSeq = (seq.toNat + 1) % 65536 ∧
        sent t mPdelayResp fun m => m.seq = seq.toNat ∧ m.req = req.toNat ∧ m.two = !s.on NET_PTP_CFG_ONE_STEP_TX k)) ∧
    (∀ d : Fin 2,
      let k := dPtp p d.val
      let x := s.ptpPort p d.val
      s.ptpRuns p d.val = true →
      (s.ptpState p d.val = 2 → s.intervalOver x.syncAt (s.g NET_PTP_CFG_LOG_SYNC k) = false →
        exec (.syncSend port d) s = .next s) ∧
      (s.ptpState p d.val = 2 → s.intervalOver x.syncAt (s.g NET_PTP_CFG_LOG_SYNC k) = true →
        ∃ t, exec (.syncSend port d) s = .next t ∧ keeps t ∧ (t.ptpPort p d.val).syncAt = some s.fab ∧
        t.g NET_PTP_COUNT_SYNC_TX k = (s.g NET_PTP_COUNT_SYNC_TX k + 1) % 2 ^ 16 ∧
        sent t mSync fun m => m.seq = s.g NET_PTP_COUNT_SYNC_TX k ∧ m.two = !s.on NET_PTP_CFG_ONE_STEP_TX k) ∧
      (s.ptpState p d.val = 1 → s.intervalOver x.reqAt (s.g NET_PTP_CFG_LOG_DELAY k) = false →
        exec (.delayReqSend port d) s = .next s) ∧
      (s.ptpState p d.val = 1 → s.intervalOver x.reqAt (s.g NET_PTP_CFG_LOG_DELAY k) = true →
        ∃ t, exec (.delayReqSend port d) s = .next t ∧ t = { s with ports := t.ports } ∧
        (t.ptpPort p d.val).reqAt = some s.fab ∧ (t.ptpPort p d.val).req = some (x.reqSeq, none) ∧ (t.ptpPort p d.val).reqSeq = (x.reqSeq + 1) % 65536 ∧
        sent t (if s.on NET_PTP_CFG_P2P k then mPdelayReq else mDelayReq) fun m => m.seq = x.reqSeq))

/-- The Tide clock's commands (R316 to R328). -/
def Obligations.TideCommands : Prop :=
  ∀ (s : State),
    let keeps : State → Prop := fun t => t.mem = s.mem ∧ t.cores = s.cores ∧ t.ports = s.ports
    let refused : Instr → Nat → Prop := fun i c => exec i s = .next ((s.p TID_CTRL_REFUSAL 0 c).answer true 0)
    let ns := s.g TID_ADJ_VAL_NS_NANOSECONDS
    let ofs := toSigned 32 (s.g TID_ADJ_OFS_OFFSET_NS)
    let switched : State → Nat → Prop := fun t d => keeps t ∧ t.g TID_SELECT_ACTIVE = d ∧ t.tide = s.tide ∧
      t.g TID_SELECT_SWITCHES = min (s.g TID_SELECT_SWITCHES + 1) (2 ^ 8 - 1)
    (s.inReset = false → 1000000000 ≤ ns → refused .tidStep 0x640) ∧
    (s.inReset = false → ns < 1000000000 → s.anyPath = true → refused .tidStep 0x645) ∧
    (s.inReset = false → ns < 1000000000 → s.anyPath = false → ∃ t, exec .tidStep s = .next t ∧ keeps t ∧
      t.tide = s.timeNs TID_ADJ_VAL_NS_NANOSECONDS * 65536) ∧
    (s.inReset = false → 1000000000 < ofs.natAbs → refused .tidSlew 0x640) ∧
    (s.inReset = false → ofs.natAbs ≤ 1000000000 → exec .tidSlew s = .next
      ({ s with tid := { s.tid with slew := s.tid.slew + ofs * 65536 } }.answer true 0)) ∧
    (∀ d : Fin 2,
      let k := dDom d.val
      let active := s.g TID_SELECT_ACTIVE = d.val
      let o := 1 - d.val
      let ready : Nat → Prop := fun e => s.on TID_DOM_CFG_ENABLE (dDom e) = true ∧ s.servoState e = sLOCKED
      (s.inReset = false → active → exec (.domainSwitchRequest d) s = .next (s.answer true 0)) ∧
      (s.inReset = false → ¬ active → ¬ ready d.val → refused (.domainSwitchRequest d) 0x641) ∧
      (s.inReset = false → ¬ active → ready d.val → ∃ t, exec (.domainSwitchRequest d) s = .next t ∧ switched t d.val) ∧
      (∀ p, s.slavePort d.val = some p → s.on TID_CTRL_ENABLE = true → s.on TID_DOM_CFG_ENABLE k = true →
        s.servoState d.val < sHOLDOVER → (s.servo d.val).lastAt + s.lossCycles p d.val ≤ s.fab →
        (¬ active → exec (.domainLoss d) s = .next (s.p TID_DOM_STATUS_SERVO k 3)) ∧
        (active → s.on TID_SELECT_AUTO = true → ready o → ∃ t, exec (.domainLoss d) s = .next t ∧ switched t o ∧
          t.servoState d.val = sLOST) ∧
        (active → s.on TID_SELECT_AUTO = false ∨ ¬ ready o → ∃ t, exec (.domainLoss d) s = .next t ∧ keeps t ∧
          t.servoState d.val = sHOLDOVER ∧ t.g TID_SELECT_ACTIVE = d.val ∧
          (t.faultStatus .tid).testBit TID_DOMAIN_LOST = true))) ∧
    (∀ (o : Fin 8) (at_ : Nat),
      let d := dPin o.val
      let periodic := s.g TIDE_OUT_CTRL_MODE d = 2
      s.outNext o.val = some at_ → at_ ≤ s.tideNs → ∃ t, exec (.tideOutPulse o) s = .next t ∧ keeps t ∧
        (periodic → t.outNext o.val = some (at_ + s.g TIDE_OUT_PERIOD_NS d)) ∧
        (¬ periodic → t.outNext o.val = none ∧ t.on TIDE_OUT_STATUS_DONE d = true) ∧
        (s.outDriven o.val = true → t.outbox = s.outbox ++ [.tideOut o.val at_] ∧
          t.g TIDE_OUT_STATUS_PULSES d = (s.g TIDE_OUT_STATUS_PULSES d + 1) % 2 ^ 16) ∧
        (s.outDriven o.val = false → t.outbox = s.outbox ∧ t.g TIDE_OUT_STATUS_PULSES d = s.g TIDE_OUT_STATUS_PULSES d)) ∧
    ∀ i : Fin 4,
      let d := dPin i.val
      let l := s.inFifo i.val
      (∀ rising : Bool,
        let takes := s.on TIDE_IN_CFG_ENABLE d && (s.g TIDE_IN_CFG_EDGE d).testBit (if rising then 0 else 1)
        (takes = false → exec (.tideInEdge i rising) s = .next s) ∧
        (takes = true → 16 ≤ l.length → exec (.tideInEdge i rising) s = .next (s.hw TIDE_IN_STATUS_OVERFLOW d 1)) ∧
        (takes = true → l.length < 16 → ∃ t, exec (.tideInEdge i rising) s = .next t ∧ keeps t ∧
          t.inFifo i.val = l ++ [(rising, ((s.tide : Int) + toSigned 32 (s.g TIDE_IN_LAT_IN_LAT d)).toNat)] ∧
          t.g TIDE_IN_STATUS_COUNT d = l.length + 1)) ∧
      (s.inReset = false → ∃ t, exec (.tideInRead i) s = .next t ∧ keeps t ∧ t.inFifo i.val = l.drop 1 ∧ t.resp.ok = true ∧
        t.resp.val = match l with
          | [] => 0
          | (r, at_) :: _ => bit r * 2 ^ 31 + 2 ^ 30 + at_ / 65536 % 1000000000)

/-- CAN commands (R333 to R346). -/
def Obligations.CanCommands : Prop :=
  ∀ (s : State) (ctl : Fin 8),
    let n := ctl.val
    let d := dCan n
    let c := s.canCtl n
    let keeps : State → Prop := fun t => t.mem = s.mem ∧ t.cores = s.cores
    let extended : State → Nat → Prop := fun t ns => t.g FBS_CTL_EXTEND_NS d = min (s.g FBS_CTL_EXTEND_NS d + ns) (2 ^ 32 - 1)
    let errs : State → BitVec 8 → BitVec 8 → Prop := fun t tec rec_ => t.g FBS_CTL_STATUS_TEC d = tec.toNat ∧
      t.g FBS_CTL_STATUS_REC d = rec_.toNat ∧
      (s.canState n < kBUSOFF → t.canState n = if 127 < tec.toNat ∨ 127 < rec_.toNat then kPASSIVE else kACTIVE)
    (∀ cls : Fin 8,
      let k := dCls n cls.val
      let code := (s.canOfferCode n cls.val).1
      let seq := AMap.get 0 c.seqs cls.val
      let a := s.g FBS_CLS_ADDR_ADDR k
      let cseq := s.g FBS_CLS_CANCEL_SEQ_SEQ k
      (a % 8 ≠ 0 ∨ inSram a 32 = false → code = 0x708) ∧
      (code ≠ 0x708 → s.mode = SAFE → s.on FBS_CLS_CFG_BOUND k = true → code = 0x04D) ∧
      (s.inReset = false → code ≠ 0 → ∃ t, exec (.canSubmit ctl cls) s = .next t ∧ keeps t ∧ t.can = s.can ∧ t.adm = s.adm ∧
        t.resp = ⟨true, code * 65536⟩ ∧ t.on FBS_CLS_SUBMIT_ACCEPTED k = false ∧
        t.g FBS_CLS_SUBMIT_CODE k = code % 2 ^ 12) ∧
      (s.inReset = false → code = 0 → ∃ t, exec (.canSubmit ctl cls) s = .next t ∧ keeps t ∧ t.resp = ⟨true, 2 ^ 31 + seq⟩ ∧
        t.on FBS_CLS_SUBMIT_ACCEPTED k = true ∧
        (t.canCtl n).items = c.items ++ [⟨cls.val, seq, s.adm.nextId, a, false, false, []⟩] ∧
        AMap.get 0 (t.canCtl n).seqs cls.val = (seq + 1) % 65536) ∧
      (∀ it, c.items.find? (fun x => x.cls == cls.val && !x.fetched) = some it → ∀ cut ecc : Bool,
        let n := 32 + s.rle (it.addr + 6) 2
        let bad := cut || s.eccUncorr it.addr n
        ∃ t, exec (.canFetchDone ctl cls cut ecc) s = .next t ∧ keeps t ∧
          (bad = false → ecc = false → t.g FBS_CLS_PROG_FETCHED_SEQ k = it.seq % 65536 ∧
            ∃ x ∈ (t.canCtl ctl.val).items, x = { it with fetched := true, octets := s.rbs it.addr n }) ∧
          (bad = true ∨ ecc = true → (∀ x ∈ (t.canCtl ctl.val).items, x.item ≠ it.item) ∧
            (t.faultStatus .fbs).testBit (if bad then FBS_TX_DMA_ERR else FBS_ECC_UNCORR) = true)) ∧
      (s.inReset = false → ∃ t, exec (.canCancel ctl cls) s = .next t ∧ keeps t ∧
        match c.items.find? (fun x => x.cls == cls.val && x.seq == cseq) with
        | none => t.can = s.can ∧ t.resp = ⟨true, 0x707⟩ ∧ t.g FBS_CLS_CANCEL_CODE k = 0x707
        | some it => if it.sof then t.can = s.can ∧ t.resp = ⟨true, 0x706⟩ ∧ t.g FBS_CLS_CANCEL_CODE k = 0x706
          else t.resp = ⟨true, 0⟩ ∧ t.g FBS_CLS_CANCEL_CODE k = 0 ∧
            (t.canCtl n).items = c.items.filter (fun x => x.item ≠ it.item))) ∧
    (s.canJoined n = true → s.canListen n = false → c.sending = none → ∀ it, s.canNext n = some it →
      ∃ t, exec (.canFrameStart ctl) s = .next t ∧ keeps t ∧ (t.canCtl n).sending = some (it.cls, it.seq, it.sof) ∧
        t.outbox = s.outbox ++ [.can n it.cls it.seq] ∧
        (it.sof = false → t.g FBS_CLS_PROG_SENT_SEQ (dCls n it.cls) = it.seq % 65536)) ∧
    (∀ ns : BitVec 32, s.canJoined n = true → c.sending.isSome = true →
      ∃ t, exec (.canArbitrationLost ctl ns) s = .next t ∧ keeps t ∧ (t.canCtl n).sending = none ∧
        (t.canCtl n).items = c.items ∧ extended t ns.toNat) ∧
    (∀ (ovl : Bool) (ns : BitVec 32) (tec rec_ : BitVec 8), s.canJoined n = true →
      ∃ t, exec (.canErrorFrame ctl ovl ns tec rec_) s = .next t ∧ keeps t ∧ (t.canCtl n).items = c.items ∧
        (t.canCtl n).sending = (if ovl then c.sending else none) ∧ extended t ns.toNat ∧ errs t tec rec_) ∧
    (∀ k seq again, c.sending = some (k, seq, again) → ∀ (ns : BitVec 32) (tec rec_ : BitVec 8),
      ∃ t, exec (.canFrameSent ctl ns tec rec_) s = .next t ∧ keeps t ∧ (t.canCtl n).sending = none ∧
        (t.canCtl n).items = c.items.filter (fun x => !(x.cls == k && x.seq == seq)) ∧ errs t tec rec_ ∧
        t.g FBS_CTL_COUNT_COUNT d = (s.g FBS_CTL_COUNT_COUNT d + 1) % 2 ^ 32 ∧
        extended t (if again then ns.toNat else 0)) ∧
    (∀ (id : BitVec 31) (format : Fin 3) (fl sdt vcid : BitVec 8) (af : BitVec 32) (sof : BitVec 64) (data : List Byte)
        (rec_ : BitVec 8) (fault : Fin 3) (addr : BitVec 40), s.canJoined n = true →
      let r := s.canRoute n id.toNat format.val
      ∃ t, exec (.canFrameReceived ctl id format fl sdt vcid af sof data rec_ fault addr) s = .next t ∧ t.cores = s.cores ∧
        t.can = s.can ∧ t.g FBS_CTL_STATUS_REC d = rec_.toNat ∧
        (fault.val = 2 → t.mem = s.mem ∧ (t.faultStatus .fbs).testBit FBS_ECC_UNCORR = true) ∧
        (fault.val ≠ 2 → t.g FBS_CTL_COUNT_COUNT (d + 4) = (s.g FBS_CTL_COUNT_COUNT (d + 4) + 1) % 2 ^ 32 ∧
          (r.1 = none → t.mem = s.mem) ∧
          ∀ f, r.1 = some f →
            let k := dFifo n f
            let m := dataMax (s.g FBS_FIFO_CFG_DATA_MAX k)
            let tail := s.g FBS_FIFO_TAIL_INDEX k
            let slot := s.g FBS_FIFO_BASE_ADDR k + (32 + m) * (tail % 64)
            (fault.val = 1 → t.mem = s.mem ∧ (t.faultStatus .fbs).testBit FBS_RX_DMA_ERR = true) ∧
            (fault.val = 0 → m < data.length → t.mem = s.mem ∧
              t.g FBS_CTL_COUNT_COUNT (d + 8) = (s.g FBS_CTL_COUNT_COUNT (d + 8) + 1) % 2 ^ 32) ∧
            (fault.val = 0 → data.length ≤ m → ringUsed 6 (s.g FBS_FIFO_HEAD_INDEX k) tail = 64 → t.mem = s.mem ∧
              t.g FBS_CTL_COUNT_COUNT (d + 12) = (s.g FBS_CTL_COUNT_COUNT (d + 12) + 1) % 2 ^ 32) ∧
            (fault.val = 0 → data.length ≤ m → ringUsed 6 (s.g FBS_FIFO_HEAD_INDEX k) tail ≠ 64 →
              t.rle slot 4 = id.toNat ∧ t.rle (slot + 6) 2 = data.length ∧ t.rle (slot + 16) 8 = sof.toNat ∧
              t.rbs (slot + 32) data.length = data ∧ sameBytesBut slot (32 + data.length) s t ∧
              t.g FBS_FIFO_TAIL_INDEX k = ringNext 6 tail % 2 ^ 7))) ∧
    (s.canJoined n = true → ∃ t, exec (.canBusOff ctl) s = .next t ∧ keeps t ∧ t.on FBS_CTL_CTRL_ENABLE d = false ∧
      t.canState n = kBUSOFF ∧ (t.canCtl n).items = [] ∧ (t.canCtl n).sending = none ∧
      (t.faultStatus .fbs).testBit FBS_BUS_OFF = true) ∧
    (s.on FBS_CTL_CTRL_ENABLE d = true → s.canState n = kINTEGRATING → exec (.canIntegrationEnd ctl) s = .next
      (((s.p FBS_CTL_STATUS_STATE d kACTIVE).p FBS_CTL_STATUS_TEC d 0).p FBS_CTL_STATUS_REC d 0)) ∧
    (c.newTiming = true → c.sending = none → ∃ t, exec (.canTimingTakeup ctl) s = .next t ∧ keeps t ∧
      (t.canCtl n).newTiming = false ∧ t.g FBS_CTL_RATE_T_N d = s.canTn n % 65536 ∧
      t.g FBS_CTL_RATE_T_D d = s.canTd n % 65536) ∧
    (∀ w : BitVec 16, s.inReset = false →
      let ok := s.on FBS_CTL_CTRL_ENABLE d = true ∧ s.canListen n = true ∧ s.on FBS_CTL_MEAS_MEASURE d = false
      (ok → ∃ t, exec (.canMeasure ctl w) s = .next t ∧ keeps t ∧ t.on FBS_CTL_MEAS_MEASURE d = true ∧
        t.on FBS_CTL_MEAS_DONE d = false ∧ t.g FBS_CTL_MEAS_WINDOW_MS d = w.toNat ∧
        (t.canCtl n).measEnd = s.fab + 400000 * w.toNat) ∧
      (¬ ok → exec (.canMeasure ctl w) s =
        .next (((s.p FBS_CTL_MEAS_WINDOW_MS d w.toNat).p FBS_CTL_CTRL_REFUSAL d 0x705).answer true 0))) ∧
    (∀ l, s.on FBS_CTL_MEAS_MEASURE d = true → c.measEnd ≤ s.fab → ∃ t, exec (.canMeasureEnd ctl l) s = .next t ∧ keeps t ∧
      t.on FBS_CTL_MEAS_MEASURE d = false ∧ t.on FBS_CTL_MEAS_DONE d = true ∧
      (l ≠ [] → t.g FBS_CTL_MEAS_SHORTEST d = min (listMin (l.map BitVec.toNat)) (2 ^ 14 - 1)))

/-- M-Bus commands (R347 to R352). -/
def Obligations.MeterBusCommands : Prop :=
  ∀ (s : State) (uart : Fin 8),
    let u := uart.val
    let d := dUart u
    let x := s.uart u
    let sends := s.mode = COMMISSION ∨ s.mode = RUN ∨ s.mode = FACTORY
    let may := s.on MBS_CFG_ENABLE d = true ∧ sends ∧ x.phase = 0 ∧ (s.mode = RUN ∨ s.on MBS_CFG_COMM_EN d = true)
    (∀ len : Fin 1024, s.inReset = false →
      (¬ may → exec (.mbsSend uart len) s = .next ((s.p MBS_STATUS_REFUSAL d 0x741).answer true 0)) ∧
      (may → len.val = 0 ∨ 512 < len.val →
        exec (.mbsSend uart len) s = .next ((s.p MBS_STATUS_REFUSAL d 0x742).answer true 0)) ∧
      (may → 1 ≤ len.val → len.val ≤ 512 → ∃ t, exec (.mbsSend uart len) s = .next t ∧ t.mem = s.mem ∧
        t.cores = s.cores ∧ t.uart u = ⟨1, s.rbs (mbsTx u) len.val, s.fab + s.sendCycles u len.val⟩ ∧ t.on MBS_STATUS_BUSY d = true ∧
        ∀ v, v ≠ u → t.uart v = s.uart v)) ∧
    (x.phase = 1 → s.fab < x.due → exec (.mbsTelegramSent uart) s = .next s) ∧
    (x.phase = 1 → x.due ≤ s.fab → ∃ t, exec (.mbsTelegramSent uart) s = .next t ∧ t.mem = s.mem ∧ t.cores = s.cores ∧ t.regs = s.regs ∧
      t.uart u = ⟨2, [], s.fab + s.respCycles u⟩ ∧ (sends → t.outbox = s.outbox ++ [.uart u x.tx])) ∧
    (∀ (l : List Byte) (par fr : BitVec 16) (ecc : Bool), s.on MBS_CFG_ENABLE d = true → l ≠ [] →
      ¬ (s.on MBS_CFG_HALF_DUPLEX d = true ∧ x.phase = 1) →
      ∃ t, exec (.mbsTelegramEnd uart l par fr ecc) s = .next t ∧ t.cores = s.cores ∧
        t.uart u = (if x.phase = 2 then {} else x) ∧ (x.phase = 2 → t.on MBS_STATUS_BUSY d = false) ∧
        (ecc = true → t.mem = s.mem ∧ (t.faultStatus .mbs).testBit MBS_ECC_UNCORR = true) ∧
        (ecc = false → t.rbs (mbsRx u) (min l.length 512) = l.take 512 ∧ sameBytesBut (mbsRx u) (min l.length 512) s t ∧
          t.g MBS_STATUS_RX_LEN d = min l.length 512 ∧ t.on MBS_STATUS_OVERRUN d = decide (512 < l.length) ∧
          t.on MBS_STATUS_CHAR_ERR d = decide (0 < par.toNat + fr.toNat) ∧
          t.on MBS_STATUS_BAD_FRAME d = (s.on MBS_CFG_FRAME_CHECK d && !mbusFrameOk l) ∧
          t.on MBS_STATUS_RX_DONE d = true ∧
          t.g MBS_COUNT_PARITY d = min (s.g MBS_COUNT_PARITY d + par.toNat) (2 ^ MBS_COUNT_PARITY.w - 1))) ∧
    (x.phase = 2 → s.fab < x.due → exec (.mbsResponseTimeout uart) s = .next s) ∧
    (x.phase = 2 → x.due ≤ s.fab → ∃ t, exec (.mbsResponseTimeout uart) s = .next t ∧ t.mem = s.mem ∧ t.cores = s.cores ∧ t.uart u = {} ∧
      t.on MBS_STATUS_BUSY d = false ∧ t.on MBS_STATUS_TIMEOUT d = true)

/-- The Almanac (R354 to R366). -/
def Obligations.AlmanacCommands : Prop :=
  ∀ (s : State),
    let keeps : State → Prop := fun t => t.mem = s.mem ∧ t.cores = s.cores
    let now := (s.cal.ticks + 1) % tickEnd
    let wd := if now % tickDay = 0 then (s.weekday + 1) % 7 else s.weekday
    let fires : Nat → Prop := fun a => a ∈ s.alm.armed ∧ (s.alarmSet a).matchAt now wd = true
    let goes := s.alm.stopped = false
    let refused : Instr → Nat → Prop := fun i c => exec i s = .next ((s.p ALM_STATUS_REFUSAL 0 c).answer true 0)
    let taken : Instr → AlmCmd → Prop := fun i c => exec i s =
      .next (({ s with alm := { s.alm with cmd := some c } }.p ALM_STATUS_BUSY 0 1).answer true 0)
    let sw := s.g ALM_SET_SUB_WEEKDAY
    let c : Cal := ⟨s.g ALM_SET_DATE_YEAR, s.g ALM_SET_DATE_MONTH, s.g ALM_SET_DATE_DAY, s.g ALM_SET_TIME_HOUR,
      s.g ALM_SET_TIME_MINUTE, s.g ALM_SET_TIME_SECOND, s.g ALM_SET_SUB_SUB⟩
    let dated := dateOk c.year c.month c.day = true
    let timed := c.hour ≤ 23 ∧ c.minute ≤ 59 ∧ c.second ≤ 59 ∧ (s.on ALM_SET_SUB_SET_WD = true → sw ≤ 6)
    let k := toSigned 17 (s.g ALM_SHIFT_K)
    let shifted := (s.cal.ticks : Int) + 1 + k
    (s.alm.stopped = true → exec .tick s = .next s) ∧
    (goes → ∃ t, exec .tick s = .next t ∧ keeps t ∧ t.cal = Cal.ofTicks now ∧ t.weekday = wd ∧
      t.osf = (s.osf || s.cal.ticks + 1 ≥ tickEnd) ∧ ∀ a : Fin 2, fires a.val → t.on ALM_ALARM_STATUS_FIRED (dAlarm a.val) = true) ∧
    (goes → s.cal.ticks + 1 = tickEnd → ∃ t, exec .calendarWrap s = .next t ∧ keeps t ∧ t.cal = ⟨2000, 1, 1, 0, 0, 0, 0⟩ ∧
      t.osf = true) ∧
    (goes → (s.cal.ticks + 1) % tickDay = 0 → ∃ t, exec .weekdayAdvance s = .next t ∧ keeps t ∧
      t.weekday = (s.weekday + 1) % 7 ∧ t.cal = Cal.ofTicks now) ∧
    (∀ a : Fin 2, goes → fires a.val → ∃ t, exec (.alarmFire a) s = .next t ∧ keeps t ∧
      t.on ALM_ALARM_STATUS_FIRED (dAlarm a.val) = true ∧ t.cal = Cal.ofTicks now) ∧
    (∃ t, exec .oscillatorStop s = .next t ∧ keeps t ∧ t.alm.stopped = true ∧ t.osf = true ∧ t.cal = s.cal) ∧
    exec .oscillatorRestart s = .next { s with alm := { s.alm with stopped := false } } ∧
    exec .supplySwitchover s = .next s ∧
    (∃ t, exec .vbatFirstApplied s = .next t ∧ keeps t ∧ t.cal = ⟨2000, 1, 1, 0, 0, 0, 0⟩ ∧ t.weekday = 0 ∧ t.osf = true ∧
      t.alm = {} ∧ t.g ALM_TAI_OFFSET_OFFSET = 0 ∧ ∀ a : Fin 2, t.on ALM_ALARM_STATUS_FIRED (dAlarm a.val) = false ∧
        t.on ALM_ALARM_CTRL_ENABLE (dAlarm a.val) = false) ∧
    (∀ m : Fin 42, s.inReset = false →
      (s.on ALM_STATUS_BUSY = true → refused (.almSet m) 0x805 ∧ refused (.almShift m) 0x805 ∧ refused (.almWeekday m) 0x805) ∧
      (s.on ALM_STATUS_BUSY = false →
        (¬ dated → refused (.almSet m) 0x801) ∧
        (dated → ¬ timed → refused (.almSet m) 0x802) ∧
        (dated → timed → taken (.almSet m) ⟨1, c.ticks, if s.on ALM_SET_SUB_SET_WD then some sw else none, m.val⟩) ∧
        (32768 < k.natAbs → refused (.almShift m) 0x803) ∧
        (k.natAbs ≤ 32768 → shifted < 0 ∨ (tickEnd : Int) ≤ shifted → refused (.almShift m) 0x804) ∧
        (k.natAbs ≤ 32768 → 0 ≤ shifted → shifted < tickEnd → taken (.almShift m) ⟨2, k, none, m.val⟩) ∧
        (6 < sw → refused (.almWeekday m) 0x802) ∧
        (sw ≤ 6 → taken (.almWeekday m) ⟨3, 0, some sw, m.val⟩))) ∧
    ∀ x : AlmCmd, s.alm.cmd = some x → goes → ∃ t, exec .almCommandApply s = .next t ∧ keeps t ∧ t.alm.cmd = none ∧
      t.on ALM_STATUS_BUSY = false ∧ t.g ALM_APPLIED_TIDE_NS_NANOSECONDS = s.tideNs % 1000000000 ∧
      (x.op = 1 → t.cal = Cal.ofTicks (x.val.toNat % tickEnd) ∧ t.osf = false) ∧
      (x.op = 2 → t.cal = Cal.ofTicks (((s.cal.ticks + 1 : Nat) + x.val).toNat % tickEnd)) ∧
      (x.op = 3 → t.cal = Cal.ofTicks now ∧ t.log = s.log) ∧
      (∀ w, x.wd = some w → t.weekday = w % 8) ∧
      (x.op ≠ 3 → s.log.clearing = none → s.log.queue.length + s.log.hold.length < 256 →
        ∃ r, t.log.queue = s.log.queue ++ [r] ∧ r.code = 0x8000 + x.op ∧ r.master = x.master)

/-- Berths, Mast and Lock commands (R369 to R400). -/
def Obligations.BerthsMastAndLocks : Prop :=
  ∀ (s : State),
    (∀ agent : Bool, s.inReset = false →
      let m := 24 + bit agent
      let r := s.g BTH_TX_PEER_PEER (dBth m)
      let from_ := s.g BTH_RX_PEER_PEER (dBth m)
      let word := s.g BTH_TX_DATA_WORD (dBth m)
      let pos := AMap.get 0 s.bthPos m
      let woke := match domainOfPart r with | some d => s.gated d | none => false
      ((s.chan m r).isSome = true → exec (.bthTxPost agent) s =
        .next ((s.incSat BTH_COUNT_FULL_REFUSED 0).answer true 0)) ∧
      (s.chan m r = none → s.waitsFor r m = true → ∃ t, exec (.bthTxPost agent) s = .next t ∧ t.mem = s.mem ∧
        t.chan m r = none ∧ (t.core r).w = ((s.core r).receive ⟨word, m, s.epoch m⟩).w ∧ (t.core r).ba = true ∧
        ∀ c, c ≠ r → t.core c = s.core c) ∧
      (s.chan m r = none → s.waitsFor r m = false → r < 27 → ∃ t, exec (.bthTxPost agent) s = .next t ∧ t.mem = s.mem ∧
        t.cores = s.cores ∧ t.chan m r = some ⟨word, m, s.epoch m⟩ ∧ t.resp = ⟨true, 2 ^ 31 + bit woke * 2 ^ 30⟩) ∧
      (s.eccIn (.channel from_ m) = false → ∃ t, exec (.bthRxTake agent) s = .next t ∧ t.mem = s.mem ∧ t.cores = s.cores ∧
        t.chan from_ m = none ∧ t.resp = ⟨true, takenWord (s.chan from_ m)⟩) ∧
      (s.eccIn (.channel from_ m) = true → (s.chan from_ m).isSome = true → ∃ t, exec (.bthRxTake agent) s = .next t ∧
        t.mem = s.mem ∧ t.cores = s.cores ∧ t.chan from_ m = none ∧ t.resp = ⟨true, 0⟩ ∧
        (t.faultStatus .bth).testBit BTH_ECC_UNCORR = true) ∧
      (s.firstFull m pos = none → exec (.bthRxAny agent) s = .next (s.answer true 0)) ∧
      (∀ a, s.firstFull m pos = some a → s.eccIn (.channel a m) = false → ∃ t, exec (.bthRxAny agent) s = .next t ∧ t.mem = s.mem ∧ t.cores = s.cores ∧
        t.chan a m = none ∧ t.resp = ⟨true, takenWord (s.chan a m)⟩ ∧ AMap.get 0 t.bthPos m = (a + 1) % 32)) ∧
    (∀ d : Fin 7, d.val ∈ s.waking → ∃ t, exec (.domainWakeDone d) s = .next t ∧ t.mem = s.mem ∧ t.cores = s.cores ∧
      t.gated d.val = false ∧ d.val ∉ t.waking ∧ (d.val = 6 → ∀ a, a < 32 → t.chan a 28 = none)) ∧
    (∀ src : Fin 512,
      let k := dSrc src.val
      let counted : State → Prop := fun t => t.mem = s.mem ∧ t.cores = s.cores ∧
        t.g MST_SRC_STATE_COUNT k = min (s.g MST_SRC_STATE_COUNT k + 1) 15
      (srcEdge src = true → src.val < 0x180 → ∃ t, exec (.mastSourceFire src) s = .next t ∧ counted t) ∧
      (srcLevel src = true → ∃ t, exec (.mastSourceFire src) s = .next t ∧ t.mem = s.mem ∧ t.cores = s.cores ∧
        t.on MST_SRC_STATE_LEVEL k = s.levelInput src.val) ∧
      (srcNamed src = false → exec (.mastSourceFire src) s = .next s ∧
        (s.inReset = false → exec (.setPending src) s = .next (s.answer true 0))) ∧
      (s.inReset = false → srcEdge src = true → ∃ t, exec (.setPending src) s = .next t ∧ counted t) ∧
      (s.inReset = false → srcLevel src = true → ∃ t, exec (.setPending src) s = .next t ∧ t.mem = s.mem ∧ t.cores = s.cores ∧
        src.val ∈ t.soft ∧ t.quays = s.quays) ∧
      (s.inReset = false → ∃ t, exec (.mastSourceOff src) s = .next t ∧ t.mem = s.mem ∧ t.cores = s.cores ∧ t.on MST_SRC_CFG_ON k = false ∧
        ∀ c, c < 24 → t.offer c = match s.offer c with
          | some o => some (if o.src = src.val ∧ o.at_ + 4 < s.fab then { o with withdrawn := true } else o)
          | none => none) ∧
      (s.moderated src.val = true → exec (.moderationEnd src) s = .next s) ∧
      (s.moderated src.val = false →
        exec (.moderationEnd src) s = .next { s with grantAt := AMap.del s.grantAt src.val })) ∧
    (∃ t, exec .mastOffer s = .next t ∧ t.mem = s.mem ∧ ∀ c src, c < 24 →
      (∀ n, s.eccIn (.source n) = false) → s.offerable c = true → s.offer c = none →
      s.select c = some src → s.gated (c / 4) = false → ((s.core c).run ≠ .wait ∨ (s.core c).ie = true) →
      t.offer c = some ⟨src, s.fab, false, s.g MST_SRC_CFG_PRIO (dSrc src)⟩ ∧ t.core c = s.core c) ∧
    (∀ (c : Fin 24) (o : Offer),
      let k := s.core c.val
      let valid := o.withdrawn = false ∧ s.srcPending o.src = true ∧ s.on MST_SRC_STATE_ACTIVE (dSrc o.src) = false
      s.offer c.val = some o → o.src < 512 → k.held = none → k.run ≠ .idle → k.run ≠ .reset →
      (valid → ∃ t, exec (.mastClaimGrant [c]) s = .next t ∧ t.mem = s.mem ∧ t.offer c.val = none ∧
        t.on MST_SRC_STATE_ACTIVE (dSrc o.src) = true ∧ t.g MST_SRC_STATE_OWNER (dSrc o.src) = c.val ∧
        (t.core c.val).held = some ⟨o.src, o.prio, s.soft.contains o.src, false⟩ ∧ ∀ d, d ≠ c.val → t.core d = s.core d) ∧
      (¬ valid → ∃ t, exec (.mastClaimGrant [c]) s = .next t ∧ t.mem = s.mem ∧ t.offer c.val = none ∧
        (t.core c.val).held = some ⟨0x3FF, o.prio, false, false⟩ ∧ ∀ d, d ≠ c.val → t.core d = s.core d)) ∧
    ∀ l : Fin 21,
      let d := dLock l.val
      let k := s.lock l.val
      let busy := s.on LCK_STATUS_BUSY d = true
      let granted : State → Nat × Nat → Prop := fun t x => t.mem = s.mem ∧ t.cores = s.cores ∧ t.on LCK_STATUS_BUSY d = true ∧
        t.g LCK_STATUS_HOLDER d = waitSlot x % 32 ∧ (t.lock l.val).master = x.1 ∧ (t.lock l.val).grantAt = s.fab
      (∀ ms : List (Fin 42),
        let u := s.setLock l.val { k with waiting := k.waiting ++
          ((ms.map (·.val)).filter fun m => requests m l.val).map fun m => (m, s.fab) }
        (busy → exec (.lockGrant l ms) s = .next u) ∧
        (¬ busy → s.on LCK_STATUS_PARKED d = false → u.lockWinner l.val = none → exec (.lockGrant l ms) s = .next u) ∧
        (∀ x, ¬ busy → s.on LCK_STATUS_PARKED d = false → u.lockWinner l.val = some x →
          ∃ t, exec (.lockGrant l ms) s = .next t ∧ granted t x)) ∧
      (busy → s.on LCK_STATUS_PARKED d = false →
        (∀ x, (s.p LCK_STATUS_BUSY d 0).lockWinner l.val = some x →
          ∃ t, exec (.lockTransferEnd l) s = .next t ∧ granted t x) ∧
        (k.waiting = [] → ∃ t, exec (.lockTransferEnd l) s = .next t ∧ t.mem = s.mem ∧ t.cores = s.cores ∧ t.locks = s.locks ∧
          t.on LCK_STATUS_BUSY d = false ∧ t.on LCK_STATUS_PARKED d = s.on LCK_CFG_MODE d ∧
          t.g LCK_STATUS_HOLDER d = if s.on LCK_CFG_MODE d then s.g LCK_STATUS_HOLDER d else 0)) ∧
      (∀ (addr : Addr) (write : Bool),
        let r := s.g LCK_STATUS_HOLDER d
        busy → r < 21 → k.grantAt + s.lockHold l.val r ≤ s.fab → ∃ t, exec (.holdCutoff l addr write) s = .next t ∧
          (t.g LCK_CUT_CUT d).testBit r = true ∧ (t.faultStatus .lck).testBit LCK_HOLD_CUTOFF = true ∧
          (24 ≤ k.master → t.mem = s.mem ∧ t.cores = s.cores)) ∧
      (∃ t, exec (.quotaUnmask l) s = .next t ∧ t.mem = s.mem ∧ t.cores = s.cores ∧
        (busy → (t.lock l.val).grants = k.grants.filter fun g => s.fab < g.2 + s.g LCK_CFG_WINDOW d))

/-- Pair and Mooring commands (R403 to R422). -/
def Obligations.PairCommands : Prop :=
  ∀ (s : State),
    let p := s.pair
    let enabled := s.on PAIR_CTRL_ENABLE = true
    let link := s.on PAIR_STATUS_LINK = true
    let keeps : State → Prop := fun t => t.mem = s.mem ∧ t.cores = s.cores
    let fault : State → Nat → Prop := fun t b => (t.faultStatus .pair).testBit b = true
    let dropped : State → Prop := fun t => t.g PAIR_ROLE_ROLE_DROPS = min (s.g PAIR_ROLE_ROLE_DROPS + 1) (2 ^ PAIR_ROLE_ROLE_DROPS.w - 1)
    let epochNow := s.g PAIR_ROLE_ROLE_EPOCH
    (∀ a : Bool,
      (s.on PAIR_STATUS_PEER_OWN = a → exec (.peerOwnChange a) s = .next s) ∧
      (s.on PAIR_STATUS_PEER_OWN ≠ a → ∃ t, exec (.peerOwnChange a) s = .next t ∧ keeps t ∧
        t.on PAIR_STATUS_PEER_OWN = a ∧ t.pair.released = !a ∧
        (a = true → s.on PAIR_STATUS_OWN = true → p.claim = none → p.grace = none → fault t PAIR_ROLE_CONFLICT))) ∧
    (∃ t, exec .mooringLinkUp s = .next t ∧ keeps t ∧ t.pair.lanes = true ∧
      (¬ link → t.on PAIR_STATUS_LINK = (match p.statusAt with | some a => decide (s.fab ≤ a + statusLife) | none => false)) ∧
      (link → t.on PAIR_STATUS_LINK = true)) ∧
    (∀ lanes : Bool, link → lanes = true ∨ (∀ a, p.statusAt = some a → a + statusLife < s.fab) →
      ∃ t, exec (.mooringLinkDown lanes) s = .next t ∧ keeps t ∧ t.on PAIR_STATUS_LINK = false ∧ t.pair.unacked = [] ∧
        (∀ a, a < 32 → t.chan a 26 = none) ∧ (enabled → fault t PAIR_LINK_LOST)) ∧
    (enabled → s.atCycle 250 (10 * usCycles) = false → exec .pairTick s = .next s) ∧
    (enabled → s.atCycle 250 (10 * usCycles) = true →
      let quiet := s.mode ≠ STANDBY ∨ p.released = false ∨ s.on PAIR_STATUS_PEER_OWN = true
      (quiet → p.swapAt = none → (∀ m ∈ p.unacked, m.repeats ≠ 3) → ∃ t pre arg body, exec .pairTick s = .next t ∧ keeps t ∧
        t.outbox = s.outbox ++ pre ++ [.mooring 3 s.pairFlags epochNow 0 p.txSeq arg body] ∧ t.pair.acks = [] ∧
        t.pair.txSeq = (p.txSeq + 1) % 2 ^ 32) ∧
      (¬ quiet → s.fit = true → ∃ t, exec .pairTick s = .next t ∧ t.on PAIR_STATUS_OWN = true ∧ t.mode = RUN ∧
        t.g PAIR_ROLE_ROLE_EPOCH = (epochNow + 1) % 2 ^ 16) ∧
      (¬ quiet → s.fit = false → ∃ t, exec .pairTick s = .next t ∧ t.mode = STANDBY ∧ fault t PAIR_NO_TAKEOVER)) ∧
    (∀ (owns fit : Bool) (mode : Fin 8) (epoch : BitVec 16) (unit : Fin 2) (acks taken : List (BitVec 32)), enabled →
      let x := exec (.mooringStatus owns fit mode epoch unit acks taken 0) s
      (unit.val = s.g PAIR_CTRL_UNIT → x = .next (s.hw PAIR_STATUS_UNIT_CLASH 0 1)) ∧
      (unit.val ≠ s.g PAIR_CTRL_UNIT → s.mode = STANDBY → ∃ t, x = .next t ∧ t.pair.peerMode = mode.val ∧
        t.on PAIR_STATUS_PEER_FIT = fit ∧ (owns = true → p.adopted = false → t.g PAIR_ROLE_ROLE_EPOCH = epoch.toNat)) ∧
      (unit.val ≠ s.g PAIR_CTRL_UNIT → s.mode ≠ STANDBY → epoch.toNat ≠ epochNow → ∃ t, x = .next t ∧ dropped t ∧
        t.pair.peerMode = mode.val) ∧
      (unit.val ≠ s.g PAIR_CTRL_UNIT → s.mode ≠ STANDBY → epoch.toNat = epochNow → p.finals = false →
        ∃ t, x = .next t ∧ t.pair.peerMode = mode.val ∧ t.on PAIR_STATUS_PEER_FIT = fit)) ∧
    (∀ (i : Fin 8) (owns : Bool) (epoch : BitVec 16) (unit : Fin 2) (seq : BitVec 32) (flt : Fin 3), enabled → link →
      let x := s.stream i.val
      let got := match x.rx with | some (q, l) => if q = seq.toNat then l else [] | none => []
      let bad := match x.rx with | some (q, _) => x.rxBad && q == seq.toNat | none => false
      let role := s.roleOk owns epoch.toNat = true
      (∀ lines : List (BitVec 64 × List (BitVec 8)),
        (flt.val = 0 → role → ∃ t, exec (.mooringCopyData i owns epoch unit seq lines flt) s = .next t ∧ keeps t ∧
          (t.stream i.val).rx = some (seq.toNat, got ++ lines.map fun r => (r.1.toNat, r.2)) ∧ (t.stream i.val).rxBad = bad) ∧
        (flt.val = 0 → ¬ role → ∃ t, exec (.mooringCopyData i owns epoch unit seq lines flt) s = .next t ∧ keeps t ∧
          dropped t ∧ (t.stream i.val).rxBad = true) ∧
        (flt.val ≠ 0 → ∃ t, exec (.mooringCopyData i owns epoch unit seq lines flt) s = .next t ∧ keeps t ∧
          (t.stream i.val).rxBad = true ∧ (flt.val = 2 → fault t PAIR_ECC_UNCORR))) ∧
      ∀ (lines gen digest : BitVec 32) (crc : Bool) (seqs : List (Fin 2048 × BitVec 16)), flt.val = 0 → role →
        ∃ t, exec (.mooringCopyEnd i owns epoch unit seq lines gen digest crc seqs flt) s = .next t ∧ keeps t ∧
          (t.stream i.val).rx = none ∧
          if bad = false ∧ crc = true ∧ got.length = lines.toNat then ∃ c, (t.stream i.val).committed = x.committed ++ [c] ∧
            c.seq = seq.toNat ∧ c.lines = got ∧ c.gen = gen.toNat ∧ c.digest = digest.toNat
          else (t.stream i.val).committed = x.committed) ∧
    (∀ (w : Fin 26) (owns : Bool) (epoch : BitVec 16) (unit : Fin 2) (seq word : BitVec 32), enabled → link →
      let i := w.val
      (epoch.toNat = epochNow → seq.toNat ∉ p.seen → (s.chan 26 i) = none → s.waitsFor i 26 = false →
        ∃ t, exec (.mooringBerth w epoch unit seq word 0) s = .next t ∧ keeps t ∧ t.pair.acks = p.acks ++ [seq.toNat] ∧
          t.chan 26 i = some ⟨word.toNat, 26, s.epoch 26⟩) ∧
      (epoch.toNat = epochNow → seq.toNat ∉ p.seen → ∃ t, exec (.mooringBerthTaken w epoch unit seq 0) s = .next t ∧
        keeps t ∧ t.regs = s.regs ∧ t.chan i 26 = none ∧ t.pair.acks = p.acks ++ [seq.toNat]) ∧
      (epoch.toNat ≠ epochNow → (∃ t, exec (.mooringBerth w epoch unit seq word 0) s = .next t ∧ keeps t ∧ dropped t) ∧
        ∃ t, exec (.mooringBerthTaken w epoch unit seq 0) s = .next t ∧ keeps t ∧ dropped t) ∧
      (s.roleOk owns epoch.toNat = true → (∃ t, exec (.mooringSwap owns epoch unit seq 0) s = .next t ∧ keeps t ∧
          t.pair.swapNoted = true ∧ t.pair.acks = p.acks ++ [seq.toNat]) ∧
        ∃ t, exec (.mooringExchange owns epoch unit seq word 0) s = .next t ∧ seq.toNat ∈ t.pair.acks) ∧
      (s.roleOk owns epoch.toNat = false → (∃ t, exec (.mooringSwap owns epoch unit seq 0) s = .next t ∧ keeps t ∧ dropped t) ∧
        ∃ t, exec (.mooringExchange owns epoch unit seq word 0) s = .next t ∧ keeps t ∧ dropped t)) ∧
    (∀ (i : Fin 8) (c : CopyRec) (r : List CopyRec), (s.stream i.val).committed = c :: r → s.canTake i.val = true → s.takenBy c = true →
      s.mode = STANDBY → p.takeover = false → p.bcnWait = false → ∃ t, exec (.copyTakeUpEnd i) s = .next t ∧ t.pair.takeFree = s.fab ∧
        t.on PAIR_STREAM_STATUS_TAKEN (dStream i.val) = true ∧ t.g PAIR_STREAM_SEQ_SEQ (dStream i.val) = c.seq % 2 ^ 32 ∧
        (t.stream i.val).committed = r ∧ (t.stream i.val).digest = c.digest) ∧
    (∀ i : Fin 7, s.mode = STANDBY → link → p.peerMode = RUN → s.streamOn i.val = true → (s.stream i.val).stale = false →
      (s.stream i.val).lastDone + s.g PAIR_COPY_LOCK_STALE_MS * 1000 * usCycles ≤ s.fab →
      ∃ t, exec (.copyStale i) s = .next t ∧ keeps t ∧ (t.stream i.val).stale = true ∧ fault t PAIR_COPY_STALE) ∧
    (let at_ := s.timeNs PAIR_SWAP_TIME_NS_NANOSECONDS
      let may := s.mode = RUN ∧ enabled ∧ s.on PAIR_STATUS_PEER_FIT = true ∧ p.swapTime = none
      (s.inReset = false → ¬ may → exec .swapCommand s = .next ((s.p PAIR_SWAP_CMD_REFUSAL 0 0xA03).answer true 0)) ∧
      (s.inReset = false → may → at_ < s.tideNs + 1000000 ∨ s.tideNs + 3600000000000 < at_ →
        exec .swapCommand s = .next ((s.p PAIR_SWAP_CMD_REFUSAL 0 0xA04).answer true 0)) ∧
      (s.inReset = false → may → s.tideNs + 1000000 ≤ at_ → at_ ≤ s.tideNs + 3600000000000 → ∃ t, exec .swapCommand s = .next t ∧ keeps t ∧
        t.pair.swapTime = some at_ ∧ t.g PAIR_SWAP_CMD_SWAP_STATE = 1 ∧ ∃ m, t.pair.unacked = p.unacked ++ [m] ∧ m.type = 6)) ∧
    ∀ at_, p.swapTime = some at_ →
      (at_ ≤ s.tideNs → p.swapAt = none → ∃ t, exec .swapStart s = .next t ∧ t.pair.swapAt = some s.fab) ∧
      (at_ + 10000000 ≤ s.tideNs → ∃ t, exec .swapTimeout s = .next t ∧ keeps t ∧ t.pair.swapTime = none ∧
        t.pair.swapAt = none ∧ t.pair.finals = false ∧ t.g PAIR_SWAP_CMD_SWAP_STATE = 3 ∧ fault t PAIR_PEER_UNFIT)

/-- The Logbook (R434 to R444). -/
def Obligations.LogbookCommands : Prop :=
  ∀ (s : State),
    let l := s.log
    let keeps : State → Prop := fun t => t.mem = s.mem ∧ t.cores = s.cores
    let capped : List FixRec → List FixRec := fun x => if 16384 < x.length then x.drop 1 else x
    (∀ r rest (fault : Fin 3), s.mramReady = true → l.queue = r :: rest → l.dropped = 0 → ∃ t, exec (.fixedRecordWrite fault) s = .next t ∧
      keeps t ∧ t.log.queue = rest ∧ t.log.snaps = l.snaps ∧
      (fault.val = 2 → t.log.fixed = l.fixed ∧ t.log.seq = l.seq ∧ (t.faultStatus .log).testBit LOG_ECC_UNCORR = true) ∧
      (fault.val ≠ 2 → t.log.fixed = capped (l.fixed ++ [{ r with seq := l.seq }]) ∧ t.log.seq = (l.seq + 1) % 2 ^ 24) ∧
      (fault.val = 1 → (t.faultStatus .log).testBit LOG_MRAM_ERR = true)) ∧
    (s.mramReady = true → l.opAt + 400000000 ≤ s.fab → exec .opSecondTick s =
      .next { s with log := { l with opSec := (l.opSec + 1) % 2 ^ 40, opAt := l.opAt + 400000000 } }) ∧
    (s.mramReady = false ∨ s.fab < l.opAt + 400000000 → exec .opSecondTick s = .next s) ∧
    (∀ c rest, l.running = none → l.caps = c :: rest → ∃ t data err, exec .snapshotCaptureStart s = .next t ∧
      t.log.caps = rest ∧ t.log.running = some { c with data := data, err := err } ∧
      data.length = s.g LOG_SNAP_CFG_WORDS (0x100 * c.dfn)) ∧
    (∀ c, l.running = some c → (∀ x, l.clearing = some x → x.1.testBit 1 = false) →
      ∃ t, exec .snapshotRecordWritten s = .next t ∧ keeps t ∧ t.log.running = none ∧ t.log.fixed = l.fixed ∧
        if 1024 ≤ l.snaps.length ∧ s.on LOG_CFG_SNAP_WRAP = false then t.log.snaps = l.snaps ∧
          t.g LOG_DROPS_SNAP_LOST = min (s.g LOG_DROPS_SNAP_LOST + 1) (2 ^ 16 - 1)
        else t.log.snapSeq = (l.snapSeq + 1) % 2 ^ 32 ∧
          t.log.snaps = (if 1024 ≤ l.snaps.length then l.snaps.drop 1 else l.snaps) ++
            [⟨c.dfn, c.err, l.snapSeq, l.pcyc, l.opSec, c.tide, c.arg, c.data⟩]) ∧
    (∀ (store : Fin 2) (age : Fin 16384), s.inReset = false → ∃ t, exec (.logRead store age) s = .next t ∧ keeps t ∧
      t.g LOG_READ_SEL_STORE = store.val ∧ t.g LOG_READ_SEL_AGE = age.val ∧ t.on LOG_READ_SEL_READY = false ∧
      t.log.selBusy = true) ∧
    (l.selBusy = true →
      let r := s.logRecord (s.g LOG_READ_SEL_STORE) (s.g LOG_READ_SEL_AGE)
      ∃ t, exec .logReadDone s = .next t ∧ keeps t ∧ t.on LOG_READ_SEL_READY = true ∧ t.on LOG_READ_SEL_EMPTY = r.isNone ∧
        t.log.selBusy = false ∧ ∀ k, k < 64 → t.g LOG_READ_DATA_WORD (4 * k) = leNat (((r.getD []).drop (4 * k)).take 4)) ∧
    (∀ store : Fin 2, s.inReset = false →
      let a := s.g LOG_EXP_DEST_ADDR
      let recs := if store.val = 0 then l.fixed.map FixRec.octets else l.snaps.map SnapRec.octets
      let n := recs.length * (if store.val = 0 then 32 else 256)
      let placed := a % 64 = 0 ∧ s.inRam a n = true
      let idle := l.export_ = none ∧ l.clearing = none
      (¬ placed → exec (.logExport store) s = .next ((s.p LOG_EXP_CMD_REFUSAL 0 0xB05).answer true 0)) ∧
      (placed → ¬ idle → exec (.logExport store) s = .next ((s.p LOG_EXP_CMD_REFUSAL 0 0xB06).answer true 0)) ∧
      (placed → idle → ∃ t, exec (.logExport store) s = .next t ∧ keeps t ∧ t.log.export_ = some (recs, a))) ∧
    (∀ recs a (err : Option Nat), l.export_ = some (recs, a) →
      let some_ := match err with | some n => recs.take n | none => recs
      let good := some_.flatten
      ∃ t, exec (.logExportEnd err) s = .next t ∧ t.cores = s.cores ∧ t.log.export_ = none ∧ t.log.fixed = l.fixed ∧
        if s.ready a good.length then t.rbs a good.length = good ∧ sameBytesBut a good.length s t else t.mem = s.mem) ∧
    (s.inReset = false →
      let idle := l.export_ = none ∧ l.clearing = none
      (¬ idle → exec .logChallenge s = .next ((s.p LOG_CLR_STATUS_REFUSAL 0 0xB06).answer true 0)) ∧
      (idle → s.on BST_STATUS_DRBG_OK = false →
        exec .logChallenge s = .next ((s.p LOG_CLR_STATUS_REFUSAL 0 0xB19).answer true 0)) ∧
      (idle → s.on BST_STATUS_DRBG_OK = true → ∃ t n, exec .logChallenge s = .next t ∧ keeps t ∧
        t.log.nonce = some (n, l.opSec) ∧ n / 2 ^ 64 = (l.clearCnt + 1) % 2 ^ 64 ∧ t.on LOG_CLR_STATUS_LIVE = true ∧
        ∀ k, k < 4 → t.g LOG_NONCE_NONCE (4 * k) = n / 2 ^ (32 * k) % 2 ^ 32)) ∧
    (∀ (m : Fin 42) (scope : Fin 4), s.inReset = false →
      let code := s.clearCode scope.val
      ∃ t, exec (.logClear m scope) s = .next t ∧ keeps t ∧ t.log.nonce = none ∧ t.on LOG_CLR_STATUS_LIVE = false ∧
        t.log.fixed = l.fixed ∧
        (code = 0 → t.on LOG_CLR_STATUS_BUSY = true ∧ ∃ n, t.log.clearing = some (scope.val, n, m.val)) ∧
        (code ≠ 0 → t.g LOG_CLR_STATUS_REFUSAL = code ∧ t.log.clearing = l.clearing ∧
          (l.clearing = none → l.queue.length + l.hold.length < 256 →
            ∃ r, t.log.queue = l.queue ++ [r] ∧ r.code = 0x0005 ∧ r.master = m.val ∧ r.p0 = code)) ∧
        (s.mode ≠ PROVISION → s.mode ≠ FACTORY → code = 0xB07)) ∧
    (∀ scope n m, l.clearing = some (scope, n, m) → ∃ t, exec .logClearCommit s = .next t ∧ keeps t ∧ t.log.clearing = none ∧
      t.on LOG_CLR_STATUS_BUSY = false ∧ t.log.queue = l.hold ∧ t.log.hold = [] ∧
      t.log.snaps = (if scope.testBit 1 then [] else l.snaps) ∧
      ∃ r, t.log.fixed.getLast? = some r ∧ r.code = 0x0004 ∧ r.p0 = scope ∧ r.p3 = n ∧ r.master = m ∧
        (scope.testBit 0 = true → t.log.fixed = [r])) ∧
    ∀ n at_, l.nonce = some (n, at_) → at_ + 60 ≤ l.opSec → ∃ t, exec .nonceExpiry s = .next t ∧ keeps t ∧
      t.log = { l with nonce := none } ∧ t.on LOG_CLR_STATUS_LIVE = false

/-- The Bonded Store and the host link (R445 to R464). -/
def Obligations.BondedStoreAndHostLink : Prop :=
  ∀ (s : State),
    let a := s.g BST_BATCH_ADDR_ADDR
    let r := s.g BST_BATCH_RES_ADDR
    (∀ (m : Fin 42) (count : Fin 8192), s.inReset = false →
      let n := count.val
      let ok := s.on BST_CTRL_ENABLE = true ∧ s.bst.batch = none ∧ 1 ≤ n ∧ n ≤ 4096 ∧ a % 64 = 0 ∧ r % 64 = 0 ∧
        s.inRam a (160 * n) = true ∧ s.inRam r (4 * n) = true
      let ready := s.ready a (160 * n) = true ∧ s.ready r (4 * n) = true
      let code := s.msgCode (s.rbs a 160)
      (¬ ok → exec (.keyBatch m count) s = .next ((s.p BST_BATCH_CMD_REFUSAL 0 0xB18).answer true 0)) ∧
      (ok → ¬ ready → ∃ t, exec (.keyBatch m count) s = .next t ∧ t.mem = s.mem ∧ t.cores = s.cores ∧ t.bst = s.bst ∧
        t.g BST_BATCH_PROG_PERMYRIAD_STATE = 3) ∧
      let whole := s.eccUncorr a 160 = false
      (ok → ready → ¬ whole → ∃ t, exec (.keyBatch m count) s = .next t ∧ t.mem = s.mem ∧ t.cores = s.cores ∧
        t.bst.batch = none ∧ t.bank = s.bank ∧ t.g BST_BATCH_PROG_PERMYRIAD_STATE = 3 ∧
        (t.faultStatus .mem).testBit MEM_ECC_UNCORR = true) ∧
      (ok → ready → whole → code = 0 → ∃ t, exec (.keyBatch m count) s = .next t ∧ t.mem = s.mem ∧ t.cores = s.cores ∧
        t.bst.batch = some ⟨a, r, 0, n, m.val⟩ ∧ t.g BST_BATCH_PROG_TOTAL_VAL = n ∧ t.bank = s.bank) ∧
      (ok → ready → whole → code ≠ 0 → ∃ t, exec (.keyBatch m count) s = .next t ∧ t.rle r 4 = code ∧ t.bank = s.bank ∧
        sameBytesBut r (4 * n) s t ∧ t.cores = s.cores)) ∧
    (∀ b : BstBatch, s.bst.batch = some b → b.next < b.count →
      let m := s.nextMsg b
      let x := mTarget m
      let c := mCounter m
      let word := b.res + 4 * b.next
      let accepted : Nat → Prop := fun op => mOp m = op ∧ s.msgCode m = 0
      let done : State → Prop := fun t => t.rle word 4 = 2 ^ 31 ∧ t.cores = s.cores
      (accepted oWRITE → ∃ t, exec (.keyWrite 0) s = .next t ∧ done t ∧
        t.slot x = ⟨1, s.parentDepth (mParent m) + 1, mParent m, mKind m, c, (s.unwrapped m).getD []⟩ ∧
        (∀ j, j ≠ x → t.slot j = s.slot j) ∧ sameBytesBut word (4 * (b.count - b.next)) s t) ∧
      (accepted oINVALIDATE → ∃ t, exec (.keyInvalidate 0) s = .next t ∧ done t ∧ t.slot x = { ctr := c } ∧
        ∀ j, j ≠ x → t.slot j =
          if j ∈ s.descendants x then { s.slot j with state := 2, key := [] } else s.slot j) ∧
      (accepted oSESSION → ∃ t, exec (.sessionInstall 0) s = .next t ∧ done t ∧ (t.sess x).ctr = c ∧
        (mKind m = 0 → (t.sess x).k0 = s.unwrapped m ∧ (t.sess x).k1 = (s.sess x).k1) ∧
        (mKind m ≠ 0 → (t.sess x).k1 = s.unwrapped m ∧ (t.sess x).k0 = (s.sess x).k0) ∧
        ∀ j, t.slot j = s.slot j) ∧
      (accepted oUNLOCK → ∃ t, exec (.factoryUnlock 0) s = .next t ∧ done t ∧ t.on BST_STATUS_UNLOCKED = true ∧
        t.bst.unlocked = true ∧ t.bank.unlock = c ∧ t.bank.slots = s.bank.slots) ∧
      ∀ (i : Fin 4 → Instr) (op : Nat), (i = .keyWrite ∧ op = oWRITE) ∨ (i = .keyInvalidate ∧ op = oINVALIDATE) ∨
          (i = .sessionInstall ∧ op = oSESSION) ∨ (i = .factoryUnlock ∧ op = oUNLOCK) → accepted op →
        (∃ t, exec (i 1) s = .next t ∧ t.mem = s.mem ∧ t.bst.batch = none ∧ t.g BST_BATCH_PROG_PERMYRIAD_STATE = 3 ∧
          t.bank = s.bank) ∧
        (∃ t, exec (i 2) s = .next t ∧ t.rle word 4 = 0xB16 ∧ t.bank = s.bank ∧
          (t.faultStatus .bst).testBit BST_MRAM_ERR = true) ∧
        ∃ t, exec (i 3) s = .next t ∧ t.bank = s.bank ∧ (t.faultStatus .bst).testBit BST_ECC_UNCORR = true) ∧
    (∃ t, exec .entropyFail s = .next t ∧ t.mem = s.mem ∧ t.cores = s.cores ∧ t.on BST_STATUS_DRBG_OK = false ∧
      (t.faultStatus .bst).testBit BST_ENTROPY_ERR = true) ∧
    (∀ gen width : Fin 5, exec (.pcieLinkUp gen width) s =
      .next (((s.p HST_STATUS_LINK 0 1).p HST_STATUS_GEN 0 gen.val).p HST_STATUS_WIDTH 0 width.val)) ∧
    (s.on HST_STATUS_LINK = true → ∃ t, exec .pcieLinkDown s = .next t ∧ t.mem = s.mem ∧ t.cores = s.cores ∧
      t.on HST_STATUS_LINK = false ∧ t.g HST_STATUS_WIDTH = 0 ∧ t.hostLost = true ∧ t.ringProof = none ∧
      (∀ i, (t.ring i).cmds = []) ∧ (s.on HST_CTRL_ENABLE = true → (t.faultStatus .hst).testBit HST_LINK_DOWN = true)) ∧
    ∀ v : Fin 64,
      let pend : State → Bool := fun t => (t.g HST_MSIX_PBA_PEND (4 * (v.val / 32))).testBit (v.val % 32)
      let msg : Out := .msix (s.g HST_MSIX_ADDR_HI_ADDR (16 * v.val) * 2 ^ 32 + s.g HST_MSIX_ADDR_LO_ADDR (16 * v.val) * 4)
        (s.g HST_MSIX_DATA_DATA (16 * v.val))
      (∃ t, exec (.msixUnmask (some v)) s = .next t ∧ t.mem = s.mem ∧ t.cores = s.cores ∧
        t.on HST_MSIX_CTRL_MASKED (16 * v.val) = false ∧ (s.msixMask = true → pend t = pend s ∧ t.outbox = s.outbox) ∧
        (s.msixMask = false → pend t = false ∧ (pend s = true → msg ∈ t.outbox))) ∧
      (∃ t, exec (.msixUnmask none) s = .next t ∧ t.mem = s.mem ∧ t.cores = s.cores ∧ t.msixMask = false ∧
        (s.on HST_MSIX_CTRL_MASKED (16 * v.val) = false → pend t = false ∧ (pend s = true → msg ∈ t.outbox)))

/-- The memories' commands (R465 to R475). -/
def Obligations.MemoryCommands : Prop :=
  ∀ (s : State),
    let keeps : State → Prop := fun t => t.mem = s.mem ∧ t.cores = s.cores
    let used := s.on BCN_CTRL_ENABLE = true ∨ s.on PAIR_CTRL_ENABLE = true ∨
      (s.on DRF_CTRL_ENABLE = true ∧ s.g DRF_SPILL_SIZE_MB ≠ 0)
    let may := s.on MEM_CTRL_ENABLE = true ∧ s.memory.init = none
    (∀ test : Bool, s.inReset = false →
      let refused : Nat → Prop := fun c => exec (.ddrInit test) s = .next ((s.p MEM_DDR_CMD_REFUSAL 0 c).answer true 0)
      (used → refused 0xC10) ∧ (¬ used → ¬ may → refused 0xC11) ∧
      (¬ used → may → ∃ t, exec (.ddrInit test) s = .next t ∧ keeps t ∧ t.on MEM_CTRL_DDR_READY = false ∧
        t.memory.init = some ⟨test, false, 0, 0⟩ ∧ t.g MEM_DDR_PROG_PERMYRIAD_STATE = 1 ∧
        t.g MEM_DDR_PROG_TOTAL_VAL = s.ddrSize / 2 ^ 20 % 2 ^ 32)) ∧
    (∀ r, s.memory.init = some r →
      (r.trained = false →
        (∃ t, exec (.ddrTrainingEnd none) s = .next t ∧ keeps t ∧ t.memory.init = some { r with trained := true } ∧
          t.on MEM_DDR_STATUS_TRAINED = true ∧ t.on MEM_DDR_STATUS_TRAINED (dChan 1) = s.chan1) ∧
        ∀ c : Fin 2, ∃ t, exec (.ddrTrainingEnd (some c)) s = .next t ∧ keeps t ∧ t.memory.init = none ∧
          t.on MEM_DDR_STATUS_TRAINED (dChan c.val) = false ∧ t.g MEM_DDR_PROG_PERMYRIAD_STATE = 3 ∧
          (t.faultStatus .mem).testBit MEM_TRAIN_FAIL = true) ∧
      (∀ (c : Fin 2) (bad : Bool),
        let n := if c.val = 0 then r.done0 else r.done1
        r.trained = true → n < s.ddrBlocks c.val → ∃ t, exec (.ddrBlockDone c bad) s = .next t ∧ keeps t ∧
          ((bad && r.test) = true → t.memory.init = none ∧ t.g MEM_DDR_STATUS_FAIL_BLOCK (dChan c.val) = n % 2 ^ 8 ∧
            t.g MEM_DDR_PROG_PERMYRIAD_STATE = 3) ∧
          ((bad && r.test) = false → t.memory.init =
            some (if c.val = 0 then { r with done0 := n + 1 } else { r with done1 := n + 1 }))) ∧
      (r.trained = true → r.done0 = s.ddrBlocks 0 → r.done1 = s.ddrBlocks 1 → ∃ t, exec .ddrInitEnd s = .next t ∧
        t.cores = s.cores ∧ t.on MEM_CTRL_DDR_READY = true ∧ t.memory.init = none ∧
        (∀ w ∈ t.eccOne, ddrKey w = false) ∧ ∀ a, t.rb a = if ddrBase ≤ a ∧ a < winBase then 0 else s.rb a)) ∧
    (s.inReset = false → s.memory.scrub = true → exec .mramScrub s = .next (s.answer true 0)) ∧
    (s.inReset = false → s.memory.scrub = false → ∃ t, exec .mramScrub s = .next t ∧ keeps t ∧ t.memory.scrub = true ∧
      t.g MEM_MRAM_PROG_PERMYRIAD_STATE = 1 ∧ t.g MEM_MRAM_PROG_TOTAL_VAL = 1024) ∧
    (∀ bad, s.memory.scrub = true → ∃ t, exec (.mramScrubEnd bad) s = .next t ∧ keeps t ∧ t.memory.scrub = false ∧
      t.g MEM_MRAM_PROG_PERMYRIAD_STATE = 2 ∧ t.g MEM_MRAM_PROG_PERMYRIAD_VAL = 10000 ∧
      (∀ w ∈ t.eccOne, s.eccMeets mramBase (mramEnd - mramBase) w = false) ∧
      ((bad || s.mramBad.isSome) = true → (t.faultStatus .mem).testBit MEM_MRAM_UNCORR = true)) ∧
    (∀ (i : Instr) (op : Nat),
      (i = .flashRead ∧ op = 1) ∨ (i = .flashProgram ∧ op = 2) ∨ (i = .flashErase4k ∧ op = 3) ∨ (i = .flashErase64k ∧ op = 4) →
      s.inReset = false →
      let a := s.g MEM_FLASH_ADDR_ADDR
      let u := s.p MEM_FLASH_CMD_OP 0 op
      let size := 2 ^ s.g MEM_FLASH_CFG_LOG2_MB * 2 ^ 20
      let idle := s.on MEM_FLASH_CMD_BUSY = false ∧ (s.g SYS_BOOT_STATUS_STATE = 2 ∨ s.g SYS_BOOT_STATUS_STATE = 3)
      (¬ idle → exec i s = .next ((u.p MEM_FLASH_CMD_REFUSAL 0 0xC20).answer true 0)) ∧
      (idle → size ≤ a → exec i s = .next ((u.p MEM_FLASH_CMD_REFUSAL 0 0xC21).answer true 0)) ∧
      (idle → a < size → ∃ t, exec i s = .next t ∧ keeps t ∧ t.memory.flash = some (op, a) ∧
        t.on MEM_FLASH_CMD_BUSY = true)) ∧
    ∀ op a, s.memory.flash = some (op, a) →
      let page := flashKey (a / 256 * 256)
      let n := if op = 3 then 4096 else 65536
      let sector := flashKey (a / n * n)
      ∃ t, exec .flashOpEnd s = .next t ∧ t.cores = s.cores ∧ t.memory.flash = none ∧ t.on MEM_FLASH_CMD_BUSY = false ∧
        (op = 1 → t.rbs flashBuf 256 = s.rbs page 256 ∧ sameBytesBut flashBuf 256 s t) ∧
        (op = 2 → (∀ k, k < 256 → t.rb (page + k) = s.rb (page + k) &&& s.rb (flashBuf + k)) ∧ sameBytesBut page 256 s t) ∧
        (op = 3 ∨ op = 4 → (∀ k, k < n → t.rb (sector + k) = 0xFF) ∧ sameBytesBut sector n s t)

/-- Power and plant I/O (R486 to R495). -/
def Obligations.PowerAndPlantIo : Prop :=
  ∀ (s : State),
    let keeps : State → Prop := fun t => t.mem = s.mem ∧ t.cores = s.cores
    (∀ (r : Fin 2) (m out : BitVec 16),
      let d := dRail r.val
      let x := s.rail r.val
      let v := x.v.getD out.toNat
      let live := s.on PWR_CTRL_ENABLE = true ∧ s.on PWR_RAIL_CFG_AVS_ON d = true ∧
        (r.val = 1 → s.gated 6 = false) ∧ x.due ≤ s.fab
      (¬ live → exec (.avsUpdate r m out) s = .next s) ∧
      (live → ∃ t, exec (.avsUpdate r m out) s = .next t ∧ keeps t ∧ t.g PWR_RAIL_MARGIN_WORST d = ofSigned 16 m.toInt ∧
        t.g PWR_RAIL_MARGIN_UPDATES d = (s.g PWR_RAIL_MARGIN_UPDATES d + 1) % 2 ^ 16 ∧ (t.rail r.val).v = some v ∧
        (t.rail r.val).due = s.fab + 1000 * usCycles ∧
        (m.toInt < 0 → (t.faultStatus .pwr).testBit PWR_MARGIN_LOST = true) ∧
        (m.toInt < (s.g PWR_RAIL_GUARD_GUARD_LO d : Nat) → (t.rail r.val).above = 0 ∧
          (v + 10 ≤ railMax r.val → if s.railHeld r.val then (t.rail r.val).step = some (v + 10) ∧ t.outbox = s.outbox
            else (t.rail r.val).txn = some (v + 10, false) ∧ t.g PWR_RAIL_VOUT_MV d = v + 10)) ∧
        ((s.g PWR_RAIL_GUARD_GUARD_LO d : Nat) ≤ m.toInt → m.toInt ≤ (s.g PWR_RAIL_GUARD_GUARD_HI d : Nat) →
          (t.rail r.val).above = 0 ∧ (t.rail r.val).txn = x.txn))) ∧
    (∀ (r : Fin 2) (mv : Nat) (again : Bool),
      let x := s.rail r.val
      let fails : Instr → Prop := fun i => ∃ t, exec i s = .next t ∧ keeps t ∧ (t.rail r.val).v = x.v ∧
        if again then (t.rail r.val).txn = none ∧ (t.rail r.val).stuck = true ∧
          (t.faultStatus .pwr).testBit PWR_PMBUS_ERR = true
        else (t.rail r.val).txn = some (mv, true) ∧ t.outbox = s.outbox ++ [.pmbus r.val mv]
      x.txn = some (mv, again) → fails (.pmbusTransactionEnd r false) ∧
        (x.txnAt + 35000 * usCycles ≤ s.fab → fails (.pmbusTimeout r)) ∧
        (s.fab < x.txnAt + 35000 * usCycles → exec (.pmbusTimeout r) s = .next s) ∧
        exec (.pmbusTransactionEnd r true) s =
          .next (s.setRail r.val { x with v := some mv, txn := none, stuck := false })) ∧
    (∀ v : BitVec 7, s.inReset = false → ∃ t, exec (.gateRequest v) s = .next t ∧ keeps t ∧ t.g PWR_GATE_QUAY = v.toNat % 64 ∧
      t.on PWR_GATE_DRAFT = v.toNat.testBit 6) ∧
    (∀ d : Fin 7,
      let may := s.gateAsked d.val = true ∧ s.gateReady d.val = true ∧ s.gated d.val = false ∧ d.val ∉ s.waking
      (¬ may → exec (.domainGated d) s = .next s) ∧
      (may → ∃ t, exec (.domainGated d) s = .next t ∧ t.mem = s.mem ∧ t.gated d.val = true ∧
        (∀ e, e ≠ d.val → t.gated e = s.gated e) ∧
        ∀ c, t.core c = if d.val < 6 ∧ c / 4 = d.val then {} else s.core c)) ∧
    (∀ (pin : Fin 64) (level : Bool), s.on PIO_CTRL_ENABLE = true → ∃ t, exec (.dinFilterChange pin level) s = .next t ∧
      keeps t ∧ (∀ i, i < 64 → (t.g PIO_DIN_DIN).testBit i =
        if i = pin.val then level else (s.g PIO_DIN_DIN).testBit i)) ∧
    (∀ n : Fin 16, s.on PIO_PWM_CFG_ENABLE (dPwm n.val) = true →
      (s.fab < AMap.get 0 s.pio.pwmAt n.val → exec (.pwmPeriodStart n) s = .next s) ∧
      (AMap.get 0 s.pio.pwmAt n.val ≤ s.fab → exec (.pwmPeriodStart n) s = .next ({ s with
        pio := { s.pio with pwmAt := AMap.set 0 s.pio.pwmAt n.val (s.fab + s.g PIO_PWM_PERIOD_CYCLES (dPwm n.val)) } }.p PIO_PWM_APPLIED_DUTY (dPwm n.val)
        (if s.pwmSafe n.val then s.g BKW_SAFE_PWM_DUTY (4 * n.val) else s.g PIO_PWM_DUTY_DUTY (dPwm n.val))))) ∧
    ∀ n : Fin 16,
      let d := dEnc n.val
      let pos := s.g PIO_ENC_POS_COUNT d
      let failed : State → Prop := fun t => keeps t ∧ (t.faultStatus .pio).testBit PIO_ENC_ERR = true ∧
        t.g PIO_ENC_STATUS_ERRORS d = min (s.g PIO_ENC_STATUS_ERRORS d + 1) (2 ^ 16 - 1)
      (s.on PIO_ENC_CFG_ENABLE d = true → s.on PIO_ENC_CFG_SSI d = false →
        (∀ a b : Bool,
          let new := 2 * bit a + bit b
          let step := (quadPlace new + 4 - quadPlace (AMap.get 0 s.pio.encIn n.val)) % 4
          ∃ t, exec (.encoderEdge n a b) s = .next t ∧ keeps t ∧ AMap.get 0 t.pio.encIn n.val = new ∧
            t.g PIO_ENC_POS_COUNT d = (if step = 1 then (pos + 1) % 2 ^ 32 else if step = 3 then (pos + 2 ^ 32 - 1) % 2 ^ 32
              else pos) ∧ (step = 2 → failed t)) ∧
        exec (.encoderIndex n) s = .next (s.p PIO_ENC_ZPOS_COUNT d pos)) ∧
      let began : State → Prop := fun t => AMap.get 0 t.pio.ssiAt n.val = s.fab + usCycles * s.g PIO_ENC_SSI_FRAME_US d
      (s.on PIO_ENC_CFG_ENABLE d = true → s.on PIO_ENC_CFG_SSI d = true → AMap.get 0 s.pio.ssiAt n.val ≤ s.fab →
        (∃ t, exec (.ssiFrameStart n true) s = .next t ∧ keeps t ∧ n.val ∈ t.pio.ssiBusy ∧ t.regs = s.regs ∧ began t) ∧
        ∃ t, exec (.ssiFrameStart n false) s = .next t ∧ failed t ∧ began t ∧
          t.pio = { s.pio with ssiAt := t.pio.ssiAt }) ∧
      (n.val ∈ s.pio.ssiBusy → ∀ data : BitVec 32,
        let w := s.g PIO_ENC_CFG_BITS d
        let raw := data.toNat % 2 ^ w
        let v := if s.on PIO_ENC_CFG_GRAY d then grayBits w raw else raw
        ∃ t, exec (.ssiFrameEnd n data) s = .next t ∧ keeps t ∧ n.val ∉ t.pio.ssiBusy ∧
          AMap.get none t.pio.ssiPos n.val = some v ∧
          t.g PIO_ENC_POS_COUNT d = match AMap.get none s.pio.ssiPos n.val with
            | some old => ofSigned 32 (toSigned w (v + 2 ^ w - old) + toSigned 32 pos)
            | none => pos)

/-- The invariant of the memories; what an unlisted key reads as is the model's (log entry 2). -/
def Obligations.MemoryStaysCanonical : Prop :=
  (∀ s t : State, MemOk s → step s = .next t → MemOk t) ∧ ∀ (c : Instr) (s : State), ∃ t, exec c s = .next t

/-- What reset leaves (R50, R59). -/
def Obligations.ResetState : Prop :=
  let s := State.reset
  s.pending = [] ∧ s.mem = [] ∧ MemOk s ∧ s.g SYS_ID_PART = 0x4820 ∧ s.g SYS_ID_MAJOR = 1 ∧ s.mode = PROVISION ∧
  s.on SYS_WDT_CTRL_ENABLE = false ∧ s.prf = pIDLE ∧
  (∀ q : Fin 6, s.on BRN_QUAY_CTRL_ENABLE (dQuay q.val) = false) ∧
  (∀ p : Fin 5, s.on NET_PORT_CTRL_ENABLE (dPort p.val) = false) ∧
  (∀ n : Fin 8, s.on FBS_CTL_CTRL_ENABLE (dCan n.val) = false) ∧
  ([NET_CARGO_CTRL_ENABLE, GRV_CTRL_ENABLE, DRF_CTRL_ENABLE, BCN_CTRL_ENABLE, TLY_CTRL_ENABLE, TID_CTRL_ENABLE,
    PAIR_CTRL_ENABLE, LOG_CTRL_ENABLE, BST_CTRL_ENABLE, HST_CTRL_ENABLE, MEM_CTRL_ENABLE, PIO_CTRL_ENABLE,
    PWR_CTRL_ENABLE].all fun f => s.on f == false) = true ∧
  (∀ b : FBlk, s.faultStatus b = 0) ∧
  (s.react .sys).testBit SYS_CONTRACT_BREACH = true ∧ (s.react .pair).testBit PAIR_ROLE_CONFLICT = true ∧
  (∀ a r, s.chan a r = none) ∧ (∀ p, s.epoch p = 0) ∧ (∀ l : Fin 21, s.on LCK_STATUS_BUSY (dLock l.val) = false) ∧
  s.on PAIR_STATUS_OWN = false ∧ (∀ n : Fin 64, s.dout n.val = none) ∧ (∀ j : Fin 8, s.pulsePin j.val = none) ∧
  (∀ o : Fin 8, s.outDriven o.val = false) ∧ s.osf = true ∧ s.cal = ⟨2000, 1, 1, 0, 0, 0, 0⟩
end

