-- ==== Sys2Proof/Laws/Map.lean ====
section
/-! SUPPORT. Laws of the sparse map: what a key reads as after an update, and that updates keep the canonical form. -/

namespace Sys2Proof.AMap

variable {α : Type}

/-- Without any premise on the map: the key just listed, and every other key of a listing, read as they should. -/
theorem find_ins_same (m : AMap α) (x : Nat) (v : α) : find (ins m x v) x = some v := by
  induction m with
  | nil => simp [ins, find]
  | cons p t ih =>
    obtain ⟨k, w⟩ := p
    unfold ins
    split
    · simp [find]
    · split
      · simp [find]
      · next h1 h2 => simp [find, ih, Ne.symm h2]

theorem find_ins_ne (m : AMap α) (x y : Nat) (v : α) (h : x ≠ y) : find (ins m x v) y = find m y := by
  induction m with
  | nil => simp [ins, find, h]
  | cons p t ih =>
    obtain ⟨k, w⟩ := p
    unfold ins
    split
    · simp [find, h]
    · split
      · next h1 h2 => subst h2; simp [find, h]
      · simp [find, ih]

theorem find_del (m : AMap α) (x y : Nat) : find (del m x) y = if x = y then none else find m y := by
  induction m with
  | nil => simp [del, find]
  | cons p t ih =>
    obtain ⟨k, w⟩ := p
    have : del ((k, w) :: t) x = if k = x then del t x else (k, w) :: del t x := by
      by_cases hk : k = x <;> simp [del, hk]
    rw [this]
    by_cases hk : k = x
    · by_cases hy : x = y
      · rw [if_pos hk, ih, if_pos hy, if_pos hy]
      · rw [if_pos hk, ih, if_neg hy, if_neg hy, find, if_neg (hk ▸ hy)]
    · by_cases hy : x = y
      · subst hy; simp [hk, find, ih]
      · simp [hk, find, ih, hy]

/-- A key reads as the value just given to it. -/
@[simp] theorem get_set_same [DecidableEq α] (d : α) (m : AMap α) (x : Nat) (v : α) : get d (set d m x v) x = v := by
  unfold get set
  split
  · next h => simp [find_del, h]
  · simp [find_ins_same]

/-- Every other key reads as before. -/
theorem get_set_ne [DecidableEq α] (d e : α) (m : AMap α) (x y : Nat) (v : α) (h : x ≠ y) :
    get e (set d m x v) y = get e m y := by
  unfold get set
  split
  · simp [find_del, h]
  · simp [find_ins_ne _ _ _ _ h]

theorem get_set [DecidableEq α] (d : α) (m : AMap α) (x y : Nat) (v : α) :
    get d (set d m x v) y = if x = y then v else get d m y := by
  by_cases h : x = y
  · subst h; simp
  · simp [get_set_ne _ _ _ _ _ _ h, h]

@[simp] theorem get_nil (d : α) (x : Nat) : get d [] x = d := rfl

/-- What a filter of the keys leaves. -/
theorem find_filter (f : Nat → Bool) (m : AMap α) (x : Nat) :
    find (m.filter fun p => f p.1) x = if f x then find m x else none := by
  induction m with
  | nil => simp [find]
  | cons p t ih =>
    obtain ⟨k, w⟩ := p
    by_cases hk : f k
    · by_cases hx : k = x
      · subst hx; simp [find, hk]
      · simp [find, hk, hx, ih]
    · by_cases hx : k = x
      · subst hx; simp [hk, ih]
      · simp [find, hk, hx, ih]

theorem get_filter (d : α) (f : Nat → Bool) (m : AMap α) (x : Nat) :
    get d (m.filter fun p => f p.1) x = if f x then get d m x else d := by
  unfold get; rw [find_filter]; split <;> rfl

/-! ## The canonical form -/

theorem keys_ins (m : AMap α) (x k : Nat) (v : α) : k ∈ (ins m x v).map Prod.fst → k = x ∨ k ∈ m.map Prod.fst := by
  induction m with
  | nil => simp [ins]
  | cons p t ih =>
    obtain ⟨a, w⟩ := p
    unfold ins
    split
    · simp
    · split
      · next _ h => subst h; simp
      · simp only [List.map_cons, List.mem_cons]
        rintro (h | h)
        · exact .inr (.inl h)
        · rcases ih h with h | h
          · exact .inl h
          · exact .inr (.inr h)

theorem keysRise_ins (m : AMap α) (x : Nat) (v : α) (h : keysRise m) : keysRise (ins m x v) := by
  induction m with
  | nil => simp [ins, keysRise]
  | cons p t ih =>
    obtain ⟨a, w⟩ := p
    have h' := List.pairwise_cons.1 h
    unfold ins
    split
    · next hlt =>
      refine List.pairwise_cons.2 ⟨?_, h⟩
      intro b hb
      rcases List.mem_cons.1 hb with e | e
      · exact e ▸ hlt
      · exact lt_trans hlt (h'.1 b e)
    · split
      · next _ e => subst e; exact h
      · next h1 h2 =>
        refine List.pairwise_cons.2 ⟨?_, ih h'.2⟩
        intro b hb
        rcases keys_ins t x b v hb with e | e
        · subst e; exact lt_of_le_of_ne (not_lt.1 h1) (Ne.symm h2)
        · exact h'.1 b e

theorem keysRise_filter (f : Nat × α → Bool) (m : AMap α) (h : keysRise m) : keysRise (m.filter f) :=
  List.Pairwise.sublist (List.filter_sublist.map _) h

theorem mem_ins (m : AMap α) (x : Nat) (v : α) (p : Nat × α) : p ∈ ins m x v → p = (x, v) ∨ p ∈ m := by
  induction m with
  | nil => simp [ins]
  | cons q t ih =>
    obtain ⟨a, w⟩ := q
    unfold ins
    split
    · simp
    · split
      · intro h
        rcases List.mem_cons.1 h with e | e
        · exact .inl e
        · exact .inr (List.mem_cons_of_mem _ e)
      · intro h
        rcases List.mem_cons.1 h with e | e
        · exact .inr (e ▸ List.mem_cons_self)
        · rcases ih e with e | e
          · exact .inl e
          · exact .inr (List.mem_cons_of_mem _ e)

theorem canon_filter (d : α) (f : Nat × α → Bool) (m : AMap α) (h : canon d m) : canon d (m.filter f) :=
  ⟨keysRise_filter f m h.1, fun p hp => h.2 p (List.mem_of_mem_filter hp)⟩

/-- An update keeps the canonical form. -/
theorem canon_set [DecidableEq α] (d : α) (m : AMap α) (x : Nat) (v : α) (h : canon d m) : canon d (set d m x v) := by
  unfold set
  split
  · exact canon_filter d _ m h
  · next hv =>
    refine ⟨keysRise_ins m x v h.1, fun p hp => ?_⟩
    rcases mem_ins m x v p hp with e | e
    · subst e; exact hv
    · exact h.2 p e

end Sys2Proof.AMap
end

