-- ==== Sys2Proof/Laws/State.lean ====
section
/-! SUPPORT. One lemma per field of State and named update: what the update leaves as it was. -/

namespace Sys2Proof.Machine

variable (s : State)

/-! `p` writes `regs` alone. -/

@[simp] theorem State.p_pending (f : Fld) (d v : Nat) : (s.p f d v).pending = s.pending := rfl
@[simp] theorem State.p_staged (f : Fld) (d v : Nat) : (s.p f d v).staged = s.staged := rfl
@[simp] theorem State.p_held (f : Fld) (d v : Nat) : (s.p f d v).held = s.held := rfl
@[simp] theorem State.p_capture (f : Fld) (d v : Nat) : (s.p f d v).capture = s.capture := rfl
@[simp] theorem State.p_setNow (f : Fld) (d v : Nat) : (s.p f d v).setNow = s.setNow := rfl
@[simp] theorem State.p_mem (f : Fld) (d v : Nat) : (s.p f d v).mem = s.mem := rfl
@[simp] theorem State.p_eccOne (f : Fld) (d v : Nat) : (s.p f d v).eccOne = s.eccOne := rfl
@[simp] theorem State.p_eccBad (f : Fld) (d v : Nat) : (s.p f d v).eccBad = s.eccBad := rfl
@[simp] theorem State.p_resp (f : Fld) (d v : Nat) : (s.p f d v).resp = s.resp := rfl
@[simp] theorem State.p_outbox (f : Fld) (d v : Nat) : (s.p f d v).outbox = s.outbox := rfl
@[simp] theorem State.p_fab (f : Fld) (d v : Nat) : (s.p f d v).fab = s.fab := rfl
@[simp] theorem State.p_tide (f : Fld) (d v : Nat) : (s.p f d v).tide = s.tide := rfl
@[simp] theorem State.p_tidePrev (f : Fld) (d v : Nat) : (s.p f d v).tidePrev = s.tidePrev := rfl
@[simp] theorem State.p_instants (f : Fld) (d v : Nat) : (s.p f d v).instants = s.instants := rfl
@[simp] theorem State.p_phase (f : Fld) (d v : Nat) : (s.p f d v).phase = s.phase := rfl
@[simp] theorem State.p_resetN (f : Fld) (d v : Nat) : (s.p f d v).resetN = s.resetN := rfl
@[simp] theorem State.p_debugEn (f : Fld) (d v : Nat) : (s.p f d v).debugEn = s.debugEn := rfl
@[simp] theorem State.p_supplies (f : Fld) (d v : Nat) : (s.p f d v).supplies = s.supplies := rfl
@[simp] theorem State.p_vbat (f : Fld) (d v : Nat) : (s.p f d v).vbat = s.vbat := rfl
@[simp] theorem State.p_wdtKey (f : Fld) (d v : Nat) : (s.p f d v).wdtKey = s.wdtKey := rfl
@[simp] theorem State.p_wdtAt (f : Fld) (d v : Nat) : (s.p f d v).wdtAt = s.wdtAt := rfl
@[simp] theorem State.p_bootCtr (f : Fld) (d v : Nat) : (s.p f d v).bootCtr = s.bootCtr := rfl
@[simp] theorem State.p_pciIds (f : Fld) (d v : Nat) : (s.p f d v).pciIds = s.pciIds := rfl
@[simp] theorem State.p_reactions (f : Fld) (d v : Nat) : (s.p f d v).reactions = s.reactions := rfl
@[simp] theorem State.p_reactAt (f : Fld) (d v : Nat) : (s.p f d v).reactAt = s.reactAt := rfl
@[simp] theorem State.p_freeCnt (f : Fld) (d v : Nat) : (s.p f d v).freeCnt = s.freeCnt := rfl
@[simp] theorem State.p_adm (f : Fld) (d v : Nat) : (s.p f d v).adm = s.adm := rfl
@[simp] theorem State.p_checking (f : Fld) (d v : Nat) : (s.p f d v).checking = s.checking := rfl
@[simp] theorem State.p_pullAt (f : Fld) (d v : Nat) : (s.p f d v).pullAt = s.pullAt := rfl
@[simp] theorem State.p_pull (f : Fld) (d v : Nat) : (s.p f d v).pull = s.pull := rfl
@[simp] theorem State.p_log (f : Fld) (d v : Nat) : (s.p f d v).log = s.log := rfl
@[simp] theorem State.p_bst (f : Fld) (d v : Nat) : (s.p f d v).bst = s.bst := rfl
@[simp] theorem State.p_epochs (f : Fld) (d v : Nat) : (s.p f d v).epochs = s.epochs := rfl
@[simp] theorem State.p_channels (f : Fld) (d v : Nat) : (s.p f d v).channels = s.channels := rfl
@[simp] theorem State.p_bthPos (f : Fld) (d v : Nat) : (s.p f d v).bthPos = s.bthPos := rfl
@[simp] theorem State.p_soft (f : Fld) (d v : Nat) : (s.p f d v).soft = s.soft := rfl
@[simp] theorem State.p_grantAt (f : Fld) (d v : Nat) : (s.p f d v).grantAt = s.grantAt := rfl
@[simp] theorem State.p_offers (f : Fld) (d v : Nat) : (s.p f d v).offers = s.offers := rfl
@[simp] theorem State.p_locks (f : Fld) (d v : Nat) : (s.p f d v).locks = s.locks := rfl
@[simp] theorem State.p_msixMask (f : Fld) (d v : Nat) : (s.p f d v).msixMask = s.msixMask := rfl
@[simp] theorem State.p_waking (f : Fld) (d v : Nat) : (s.p f d v).waking = s.waking := rfl
@[simp] theorem State.p_pair (f : Fld) (d v : Nat) : (s.p f d v).pair = s.pair := rfl
@[simp] theorem State.p_ports (f : Fld) (d v : Nat) : (s.p f d v).ports = s.ports := rfl
@[simp] theorem State.p_srcLost (f : Fld) (d v : Nat) : (s.p f d v).srcLost = s.srcLost := rfl
@[simp] theorem State.p_hostLost (f : Fld) (d v : Nat) : (s.p f d v).hostLost = s.hostLost := rfl
@[simp] theorem State.p_bars (f : Fld) (d v : Nat) : (s.p f d v).bars = s.bars := rfl
@[simp] theorem State.p_tid (f : Fld) (d v : Nat) : (s.p f d v).tid = s.tid := rfl
@[simp] theorem State.p_pio (f : Fld) (d v : Nat) : (s.p f d v).pio = s.pio := rfl
@[simp] theorem State.p_grv (f : Fld) (d v : Nat) : (s.p f d v).grv = s.grv := rfl
@[simp] theorem State.p_drf (f : Fld) (d v : Nat) : (s.p f d v).drf = s.drf := rfl
@[simp] theorem State.p_alm (f : Fld) (d v : Nat) : (s.p f d v).alm = s.alm := rfl
@[simp] theorem State.p_bcn (f : Fld) (d v : Nat) : (s.p f d v).bcn = s.bcn := rfl
@[simp] theorem State.p_tly (f : Fld) (d v : Nat) : (s.p f d v).tly = s.tly := rfl
@[simp] theorem State.p_can (f : Fld) (d v : Nat) : (s.p f d v).can = s.can := rfl
@[simp] theorem State.p_uarts (f : Fld) (d v : Nat) : (s.p f d v).uarts = s.uarts := rfl
@[simp] theorem State.p_rings (f : Fld) (d v : Nat) : (s.p f d v).rings = s.rings := rfl
@[simp] theorem State.p_ringProof (f : Fld) (d v : Nat) : (s.p f d v).ringProof = s.ringProof := rfl
@[simp] theorem State.p_memory (f : Fld) (d v : Nat) : (s.p f d v).memory = s.memory := rfl
@[simp] theorem State.p_rails (f : Fld) (d v : Nat) : (s.p f d v).rails = s.rails := rfl
@[simp] theorem State.p_cores (f : Fld) (d v : Nat) : (s.p f d v).cores = s.cores := rfl
@[simp] theorem State.p_quays (f : Fld) (d v : Nat) : (s.p f d v).quays = s.quays := rfl
@[simp] theorem State.p_stations (f : Fld) (d v : Nat) : (s.p f d v).stations = s.stations := rfl

/-! `wb` writes `mem` alone. -/

@[simp] theorem State.wb_pending (a : Nat) (b : Byte) : (s.wb a b).pending = s.pending := rfl
@[simp] theorem State.wb_regs (a : Nat) (b : Byte) : (s.wb a b).regs = s.regs := rfl
@[simp] theorem State.wb_staged (a : Nat) (b : Byte) : (s.wb a b).staged = s.staged := rfl
@[simp] theorem State.wb_held (a : Nat) (b : Byte) : (s.wb a b).held = s.held := rfl
@[simp] theorem State.wb_capture (a : Nat) (b : Byte) : (s.wb a b).capture = s.capture := rfl
@[simp] theorem State.wb_setNow (a : Nat) (b : Byte) : (s.wb a b).setNow = s.setNow := rfl
@[simp] theorem State.wb_eccOne (a : Nat) (b : Byte) : (s.wb a b).eccOne = s.eccOne := rfl
@[simp] theorem State.wb_eccBad (a : Nat) (b : Byte) : (s.wb a b).eccBad = s.eccBad := rfl
@[simp] theorem State.wb_resp (a : Nat) (b : Byte) : (s.wb a b).resp = s.resp := rfl
@[simp] theorem State.wb_outbox (a : Nat) (b : Byte) : (s.wb a b).outbox = s.outbox := rfl
@[simp] theorem State.wb_fab (a : Nat) (b : Byte) : (s.wb a b).fab = s.fab := rfl
@[simp] theorem State.wb_tide (a : Nat) (b : Byte) : (s.wb a b).tide = s.tide := rfl
@[simp] theorem State.wb_tidePrev (a : Nat) (b : Byte) : (s.wb a b).tidePrev = s.tidePrev := rfl
@[simp] theorem State.wb_instants (a : Nat) (b : Byte) : (s.wb a b).instants = s.instants := rfl
@[simp] theorem State.wb_phase (a : Nat) (b : Byte) : (s.wb a b).phase = s.phase := rfl
@[simp] theorem State.wb_resetN (a : Nat) (b : Byte) : (s.wb a b).resetN = s.resetN := rfl
@[simp] theorem State.wb_debugEn (a : Nat) (b : Byte) : (s.wb a b).debugEn = s.debugEn := rfl
@[simp] theorem State.wb_supplies (a : Nat) (b : Byte) : (s.wb a b).supplies = s.supplies := rfl
@[simp] theorem State.wb_vbat (a : Nat) (b : Byte) : (s.wb a b).vbat = s.vbat := rfl
@[simp] theorem State.wb_wdtKey (a : Nat) (b : Byte) : (s.wb a b).wdtKey = s.wdtKey := rfl
@[simp] theorem State.wb_wdtAt (a : Nat) (b : Byte) : (s.wb a b).wdtAt = s.wdtAt := rfl
@[simp] theorem State.wb_bootCtr (a : Nat) (b : Byte) : (s.wb a b).bootCtr = s.bootCtr := rfl
@[simp] theorem State.wb_pciIds (a : Nat) (b : Byte) : (s.wb a b).pciIds = s.pciIds := rfl
@[simp] theorem State.wb_reactions (a : Nat) (b : Byte) : (s.wb a b).reactions = s.reactions := rfl
@[simp] theorem State.wb_reactAt (a : Nat) (b : Byte) : (s.wb a b).reactAt = s.reactAt := rfl
@[simp] theorem State.wb_freeCnt (a : Nat) (b : Byte) : (s.wb a b).freeCnt = s.freeCnt := rfl
@[simp] theorem State.wb_adm (a : Nat) (b : Byte) : (s.wb a b).adm = s.adm := rfl
@[simp] theorem State.wb_checking (a : Nat) (b : Byte) : (s.wb a b).checking = s.checking := rfl
@[simp] theorem State.wb_pullAt (a : Nat) (b : Byte) : (s.wb a b).pullAt = s.pullAt := rfl
@[simp] theorem State.wb_pull (a : Nat) (b : Byte) : (s.wb a b).pull = s.pull := rfl
@[simp] theorem State.wb_log (a : Nat) (b : Byte) : (s.wb a b).log = s.log := rfl
@[simp] theorem State.wb_bst (a : Nat) (b : Byte) : (s.wb a b).bst = s.bst := rfl
@[simp] theorem State.wb_epochs (a : Nat) (b : Byte) : (s.wb a b).epochs = s.epochs := rfl
@[simp] theorem State.wb_channels (a : Nat) (b : Byte) : (s.wb a b).channels = s.channels := rfl
@[simp] theorem State.wb_bthPos (a : Nat) (b : Byte) : (s.wb a b).bthPos = s.bthPos := rfl
@[simp] theorem State.wb_soft (a : Nat) (b : Byte) : (s.wb a b).soft = s.soft := rfl
@[simp] theorem State.wb_grantAt (a : Nat) (b : Byte) : (s.wb a b).grantAt = s.grantAt := rfl
@[simp] theorem State.wb_offers (a : Nat) (b : Byte) : (s.wb a b).offers = s.offers := rfl
@[simp] theorem State.wb_locks (a : Nat) (b : Byte) : (s.wb a b).locks = s.locks := rfl
@[simp] theorem State.wb_msixMask (a : Nat) (b : Byte) : (s.wb a b).msixMask = s.msixMask := rfl
@[simp] theorem State.wb_waking (a : Nat) (b : Byte) : (s.wb a b).waking = s.waking := rfl
@[simp] theorem State.wb_pair (a : Nat) (b : Byte) : (s.wb a b).pair = s.pair := rfl
@[simp] theorem State.wb_ports (a : Nat) (b : Byte) : (s.wb a b).ports = s.ports := rfl
@[simp] theorem State.wb_srcLost (a : Nat) (b : Byte) : (s.wb a b).srcLost = s.srcLost := rfl
@[simp] theorem State.wb_hostLost (a : Nat) (b : Byte) : (s.wb a b).hostLost = s.hostLost := rfl
@[simp] theorem State.wb_bars (a : Nat) (b : Byte) : (s.wb a b).bars = s.bars := rfl
@[simp] theorem State.wb_tid (a : Nat) (b : Byte) : (s.wb a b).tid = s.tid := rfl
@[simp] theorem State.wb_pio (a : Nat) (b : Byte) : (s.wb a b).pio = s.pio := rfl
@[simp] theorem State.wb_grv (a : Nat) (b : Byte) : (s.wb a b).grv = s.grv := rfl
@[simp] theorem State.wb_drf (a : Nat) (b : Byte) : (s.wb a b).drf = s.drf := rfl
@[simp] theorem State.wb_alm (a : Nat) (b : Byte) : (s.wb a b).alm = s.alm := rfl
@[simp] theorem State.wb_bcn (a : Nat) (b : Byte) : (s.wb a b).bcn = s.bcn := rfl
@[simp] theorem State.wb_tly (a : Nat) (b : Byte) : (s.wb a b).tly = s.tly := rfl
@[simp] theorem State.wb_can (a : Nat) (b : Byte) : (s.wb a b).can = s.can := rfl
@[simp] theorem State.wb_uarts (a : Nat) (b : Byte) : (s.wb a b).uarts = s.uarts := rfl
@[simp] theorem State.wb_rings (a : Nat) (b : Byte) : (s.wb a b).rings = s.rings := rfl
@[simp] theorem State.wb_ringProof (a : Nat) (b : Byte) : (s.wb a b).ringProof = s.ringProof := rfl
@[simp] theorem State.wb_memory (a : Nat) (b : Byte) : (s.wb a b).memory = s.memory := rfl
@[simp] theorem State.wb_rails (a : Nat) (b : Byte) : (s.wb a b).rails = s.rails := rfl
@[simp] theorem State.wb_cores (a : Nat) (b : Byte) : (s.wb a b).cores = s.cores := rfl
@[simp] theorem State.wb_quays (a : Nat) (b : Byte) : (s.wb a b).quays = s.quays := rfl
@[simp] theorem State.wb_stations (a : Nat) (b : Byte) : (s.wb a b).stations = s.stations := rfl

/-! `answer` writes `resp` alone. -/

@[simp] theorem State.answer_pending (ok : Bool) (v : Nat) : (s.answer ok v).pending = s.pending := rfl
@[simp] theorem State.answer_regs (ok : Bool) (v : Nat) : (s.answer ok v).regs = s.regs := rfl
@[simp] theorem State.answer_staged (ok : Bool) (v : Nat) : (s.answer ok v).staged = s.staged := rfl
@[simp] theorem State.answer_held (ok : Bool) (v : Nat) : (s.answer ok v).held = s.held := rfl
@[simp] theorem State.answer_capture (ok : Bool) (v : Nat) : (s.answer ok v).capture = s.capture := rfl
@[simp] theorem State.answer_setNow (ok : Bool) (v : Nat) : (s.answer ok v).setNow = s.setNow := rfl
@[simp] theorem State.answer_mem (ok : Bool) (v : Nat) : (s.answer ok v).mem = s.mem := rfl
@[simp] theorem State.answer_eccOne (ok : Bool) (v : Nat) : (s.answer ok v).eccOne = s.eccOne := rfl
@[simp] theorem State.answer_eccBad (ok : Bool) (v : Nat) : (s.answer ok v).eccBad = s.eccBad := rfl
@[simp] theorem State.answer_outbox (ok : Bool) (v : Nat) : (s.answer ok v).outbox = s.outbox := rfl
@[simp] theorem State.answer_fab (ok : Bool) (v : Nat) : (s.answer ok v).fab = s.fab := rfl
@[simp] theorem State.answer_tide (ok : Bool) (v : Nat) : (s.answer ok v).tide = s.tide := rfl
@[simp] theorem State.answer_tidePrev (ok : Bool) (v : Nat) : (s.answer ok v).tidePrev = s.tidePrev := rfl
@[simp] theorem State.answer_instants (ok : Bool) (v : Nat) : (s.answer ok v).instants = s.instants := rfl
@[simp] theorem State.answer_phase (ok : Bool) (v : Nat) : (s.answer ok v).phase = s.phase := rfl
@[simp] theorem State.answer_resetN (ok : Bool) (v : Nat) : (s.answer ok v).resetN = s.resetN := rfl
@[simp] theorem State.answer_debugEn (ok : Bool) (v : Nat) : (s.answer ok v).debugEn = s.debugEn := rfl
@[simp] theorem State.answer_supplies (ok : Bool) (v : Nat) : (s.answer ok v).supplies = s.supplies := rfl
@[simp] theorem State.answer_vbat (ok : Bool) (v : Nat) : (s.answer ok v).vbat = s.vbat := rfl
@[simp] theorem State.answer_wdtKey (ok : Bool) (v : Nat) : (s.answer ok v).wdtKey = s.wdtKey := rfl
@[simp] theorem State.answer_wdtAt (ok : Bool) (v : Nat) : (s.answer ok v).wdtAt = s.wdtAt := rfl
@[simp] theorem State.answer_bootCtr (ok : Bool) (v : Nat) : (s.answer ok v).bootCtr = s.bootCtr := rfl
@[simp] theorem State.answer_pciIds (ok : Bool) (v : Nat) : (s.answer ok v).pciIds = s.pciIds := rfl
@[simp] theorem State.answer_reactions (ok : Bool) (v : Nat) : (s.answer ok v).reactions = s.reactions := rfl
@[simp] theorem State.answer_reactAt (ok : Bool) (v : Nat) : (s.answer ok v).reactAt = s.reactAt := rfl
@[simp] theorem State.answer_freeCnt (ok : Bool) (v : Nat) : (s.answer ok v).freeCnt = s.freeCnt := rfl
@[simp] theorem State.answer_adm (ok : Bool) (v : Nat) : (s.answer ok v).adm = s.adm := rfl
@[simp] theorem State.answer_checking (ok : Bool) (v : Nat) : (s.answer ok v).checking = s.checking := rfl
@[simp] theorem State.answer_pullAt (ok : Bool) (v : Nat) : (s.answer ok v).pullAt = s.pullAt := rfl
@[simp] theorem State.answer_pull (ok : Bool) (v : Nat) : (s.answer ok v).pull = s.pull := rfl
@[simp] theorem State.answer_log (ok : Bool) (v : Nat) : (s.answer ok v).log = s.log := rfl
@[simp] theorem State.answer_bst (ok : Bool) (v : Nat) : (s.answer ok v).bst = s.bst := rfl
@[simp] theorem State.answer_epochs (ok : Bool) (v : Nat) : (s.answer ok v).epochs = s.epochs := rfl
@[simp] theorem State.answer_channels (ok : Bool) (v : Nat) : (s.answer ok v).channels = s.channels := rfl
@[simp] theorem State.answer_bthPos (ok : Bool) (v : Nat) : (s.answer ok v).bthPos = s.bthPos := rfl
@[simp] theorem State.answer_soft (ok : Bool) (v : Nat) : (s.answer ok v).soft = s.soft := rfl
@[simp] theorem State.answer_grantAt (ok : Bool) (v : Nat) : (s.answer ok v).grantAt = s.grantAt := rfl
@[simp] theorem State.answer_offers (ok : Bool) (v : Nat) : (s.answer ok v).offers = s.offers := rfl
@[simp] theorem State.answer_locks (ok : Bool) (v : Nat) : (s.answer ok v).locks = s.locks := rfl
@[simp] theorem State.answer_msixMask (ok : Bool) (v : Nat) : (s.answer ok v).msixMask = s.msixMask := rfl
@[simp] theorem State.answer_waking (ok : Bool) (v : Nat) : (s.answer ok v).waking = s.waking := rfl
@[simp] theorem State.answer_pair (ok : Bool) (v : Nat) : (s.answer ok v).pair = s.pair := rfl
@[simp] theorem State.answer_ports (ok : Bool) (v : Nat) : (s.answer ok v).ports = s.ports := rfl
@[simp] theorem State.answer_srcLost (ok : Bool) (v : Nat) : (s.answer ok v).srcLost = s.srcLost := rfl
@[simp] theorem State.answer_hostLost (ok : Bool) (v : Nat) : (s.answer ok v).hostLost = s.hostLost := rfl
@[simp] theorem State.answer_bars (ok : Bool) (v : Nat) : (s.answer ok v).bars = s.bars := rfl
@[simp] theorem State.answer_tid (ok : Bool) (v : Nat) : (s.answer ok v).tid = s.tid := rfl
@[simp] theorem State.answer_pio (ok : Bool) (v : Nat) : (s.answer ok v).pio = s.pio := rfl
@[simp] theorem State.answer_grv (ok : Bool) (v : Nat) : (s.answer ok v).grv = s.grv := rfl
@[simp] theorem State.answer_drf (ok : Bool) (v : Nat) : (s.answer ok v).drf = s.drf := rfl
@[simp] theorem State.answer_alm (ok : Bool) (v : Nat) : (s.answer ok v).alm = s.alm := rfl
@[simp] theorem State.answer_bcn (ok : Bool) (v : Nat) : (s.answer ok v).bcn = s.bcn := rfl
@[simp] theorem State.answer_tly (ok : Bool) (v : Nat) : (s.answer ok v).tly = s.tly := rfl
@[simp] theorem State.answer_can (ok : Bool) (v : Nat) : (s.answer ok v).can = s.can := rfl
@[simp] theorem State.answer_uarts (ok : Bool) (v : Nat) : (s.answer ok v).uarts = s.uarts := rfl
@[simp] theorem State.answer_rings (ok : Bool) (v : Nat) : (s.answer ok v).rings = s.rings := rfl
@[simp] theorem State.answer_ringProof (ok : Bool) (v : Nat) : (s.answer ok v).ringProof = s.ringProof := rfl
@[simp] theorem State.answer_memory (ok : Bool) (v : Nat) : (s.answer ok v).memory = s.memory := rfl
@[simp] theorem State.answer_rails (ok : Bool) (v : Nat) : (s.answer ok v).rails = s.rails := rfl
@[simp] theorem State.answer_cores (ok : Bool) (v : Nat) : (s.answer ok v).cores = s.cores := rfl
@[simp] theorem State.answer_quays (ok : Bool) (v : Nat) : (s.answer ok v).quays = s.quays := rfl
@[simp] theorem State.answer_stations (ok : Bool) (v : Nat) : (s.answer ok v).stations = s.stations := rfl

/-! `emit` writes `outbox` alone. -/

@[simp] theorem State.emit_pending (o : Out) : (s.emit o).pending = s.pending := rfl
@[simp] theorem State.emit_regs (o : Out) : (s.emit o).regs = s.regs := rfl
@[simp] theorem State.emit_staged (o : Out) : (s.emit o).staged = s.staged := rfl
@[simp] theorem State.emit_held (o : Out) : (s.emit o).held = s.held := rfl
@[simp] theorem State.emit_capture (o : Out) : (s.emit o).capture = s.capture := rfl
@[simp] theorem State.emit_setNow (o : Out) : (s.emit o).setNow = s.setNow := rfl
@[simp] theorem State.emit_mem (o : Out) : (s.emit o).mem = s.mem := rfl
@[simp] theorem State.emit_eccOne (o : Out) : (s.emit o).eccOne = s.eccOne := rfl
@[simp] theorem State.emit_eccBad (o : Out) : (s.emit o).eccBad = s.eccBad := rfl
@[simp] theorem State.emit_resp (o : Out) : (s.emit o).resp = s.resp := rfl
@[simp] theorem State.emit_fab (o : Out) : (s.emit o).fab = s.fab := rfl
@[simp] theorem State.emit_tide (o : Out) : (s.emit o).tide = s.tide := rfl
@[simp] theorem State.emit_tidePrev (o : Out) : (s.emit o).tidePrev = s.tidePrev := rfl
@[simp] theorem State.emit_instants (o : Out) : (s.emit o).instants = s.instants := rfl
@[simp] theorem State.emit_phase (o : Out) : (s.emit o).phase = s.phase := rfl
@[simp] theorem State.emit_resetN (o : Out) : (s.emit o).resetN = s.resetN := rfl
@[simp] theorem State.emit_debugEn (o : Out) : (s.emit o).debugEn = s.debugEn := rfl
@[simp] theorem State.emit_supplies (o : Out) : (s.emit o).supplies = s.supplies := rfl
@[simp] theorem State.emit_vbat (o : Out) : (s.emit o).vbat = s.vbat := rfl
@[simp] theorem State.emit_wdtKey (o : Out) : (s.emit o).wdtKey = s.wdtKey := rfl
@[simp] theorem State.emit_wdtAt (o : Out) : (s.emit o).wdtAt = s.wdtAt := rfl
@[simp] theorem State.emit_bootCtr (o : Out) : (s.emit o).bootCtr = s.bootCtr := rfl
@[simp] theorem State.emit_pciIds (o : Out) : (s.emit o).pciIds = s.pciIds := rfl
@[simp] theorem State.emit_reactions (o : Out) : (s.emit o).reactions = s.reactions := rfl
@[simp] theorem State.emit_reactAt (o : Out) : (s.emit o).reactAt = s.reactAt := rfl
@[simp] theorem State.emit_freeCnt (o : Out) : (s.emit o).freeCnt = s.freeCnt := rfl
@[simp] theorem State.emit_adm (o : Out) : (s.emit o).adm = s.adm := rfl
@[simp] theorem State.emit_checking (o : Out) : (s.emit o).checking = s.checking := rfl
@[simp] theorem State.emit_pullAt (o : Out) : (s.emit o).pullAt = s.pullAt := rfl
@[simp] theorem State.emit_pull (o : Out) : (s.emit o).pull = s.pull := rfl
@[simp] theorem State.emit_log (o : Out) : (s.emit o).log = s.log := rfl
@[simp] theorem State.emit_bst (o : Out) : (s.emit o).bst = s.bst := rfl
@[simp] theorem State.emit_epochs (o : Out) : (s.emit o).epochs = s.epochs := rfl
@[simp] theorem State.emit_channels (o : Out) : (s.emit o).channels = s.channels := rfl
@[simp] theorem State.emit_bthPos (o : Out) : (s.emit o).bthPos = s.bthPos := rfl
@[simp] theorem State.emit_soft (o : Out) : (s.emit o).soft = s.soft := rfl
@[simp] theorem State.emit_grantAt (o : Out) : (s.emit o).grantAt = s.grantAt := rfl
@[simp] theorem State.emit_offers (o : Out) : (s.emit o).offers = s.offers := rfl
@[simp] theorem State.emit_locks (o : Out) : (s.emit o).locks = s.locks := rfl
@[simp] theorem State.emit_msixMask (o : Out) : (s.emit o).msixMask = s.msixMask := rfl
@[simp] theorem State.emit_waking (o : Out) : (s.emit o).waking = s.waking := rfl
@[simp] theorem State.emit_pair (o : Out) : (s.emit o).pair = s.pair := rfl
@[simp] theorem State.emit_ports (o : Out) : (s.emit o).ports = s.ports := rfl
@[simp] theorem State.emit_srcLost (o : Out) : (s.emit o).srcLost = s.srcLost := rfl
@[simp] theorem State.emit_hostLost (o : Out) : (s.emit o).hostLost = s.hostLost := rfl
@[simp] theorem State.emit_bars (o : Out) : (s.emit o).bars = s.bars := rfl
@[simp] theorem State.emit_tid (o : Out) : (s.emit o).tid = s.tid := rfl
@[simp] theorem State.emit_pio (o : Out) : (s.emit o).pio = s.pio := rfl
@[simp] theorem State.emit_grv (o : Out) : (s.emit o).grv = s.grv := rfl
@[simp] theorem State.emit_drf (o : Out) : (s.emit o).drf = s.drf := rfl
@[simp] theorem State.emit_alm (o : Out) : (s.emit o).alm = s.alm := rfl
@[simp] theorem State.emit_bcn (o : Out) : (s.emit o).bcn = s.bcn := rfl
@[simp] theorem State.emit_tly (o : Out) : (s.emit o).tly = s.tly := rfl
@[simp] theorem State.emit_can (o : Out) : (s.emit o).can = s.can := rfl
@[simp] theorem State.emit_uarts (o : Out) : (s.emit o).uarts = s.uarts := rfl
@[simp] theorem State.emit_rings (o : Out) : (s.emit o).rings = s.rings := rfl
@[simp] theorem State.emit_ringProof (o : Out) : (s.emit o).ringProof = s.ringProof := rfl
@[simp] theorem State.emit_memory (o : Out) : (s.emit o).memory = s.memory := rfl
@[simp] theorem State.emit_rails (o : Out) : (s.emit o).rails = s.rails := rfl
@[simp] theorem State.emit_cores (o : Out) : (s.emit o).cores = s.cores := rfl
@[simp] theorem State.emit_quays (o : Out) : (s.emit o).quays = s.quays := rfl
@[simp] theorem State.emit_stations (o : Out) : (s.emit o).stations = s.stations := rfl

/-! `setCore` writes `cores` alone. -/

@[simp] theorem State.setCore_pending (c : Nat) (x : Core) : (s.setCore c x).pending = s.pending := rfl
@[simp] theorem State.setCore_regs (c : Nat) (x : Core) : (s.setCore c x).regs = s.regs := rfl
@[simp] theorem State.setCore_staged (c : Nat) (x : Core) : (s.setCore c x).staged = s.staged := rfl
@[simp] theorem State.setCore_held (c : Nat) (x : Core) : (s.setCore c x).held = s.held := rfl
@[simp] theorem State.setCore_capture (c : Nat) (x : Core) : (s.setCore c x).capture = s.capture := rfl
@[simp] theorem State.setCore_setNow (c : Nat) (x : Core) : (s.setCore c x).setNow = s.setNow := rfl
@[simp] theorem State.setCore_mem (c : Nat) (x : Core) : (s.setCore c x).mem = s.mem := rfl
@[simp] theorem State.setCore_eccOne (c : Nat) (x : Core) : (s.setCore c x).eccOne = s.eccOne := rfl
@[simp] theorem State.setCore_eccBad (c : Nat) (x : Core) : (s.setCore c x).eccBad = s.eccBad := rfl
@[simp] theorem State.setCore_resp (c : Nat) (x : Core) : (s.setCore c x).resp = s.resp := rfl
@[simp] theorem State.setCore_outbox (c : Nat) (x : Core) : (s.setCore c x).outbox = s.outbox := rfl
@[simp] theorem State.setCore_fab (c : Nat) (x : Core) : (s.setCore c x).fab = s.fab := rfl
@[simp] theorem State.setCore_tide (c : Nat) (x : Core) : (s.setCore c x).tide = s.tide := rfl
@[simp] theorem State.setCore_tidePrev (c : Nat) (x : Core) : (s.setCore c x).tidePrev = s.tidePrev := rfl
@[simp] theorem State.setCore_instants (c : Nat) (x : Core) : (s.setCore c x).instants = s.instants := rfl
@[simp] theorem State.setCore_phase (c : Nat) (x : Core) : (s.setCore c x).phase = s.phase := rfl
@[simp] theorem State.setCore_resetN (c : Nat) (x : Core) : (s.setCore c x).resetN = s.resetN := rfl
@[simp] theorem State.setCore_debugEn (c : Nat) (x : Core) : (s.setCore c x).debugEn = s.debugEn := rfl
@[simp] theorem State.setCore_supplies (c : Nat) (x : Core) : (s.setCore c x).supplies = s.supplies := rfl
@[simp] theorem State.setCore_vbat (c : Nat) (x : Core) : (s.setCore c x).vbat = s.vbat := rfl
@[simp] theorem State.setCore_wdtKey (c : Nat) (x : Core) : (s.setCore c x).wdtKey = s.wdtKey := rfl
@[simp] theorem State.setCore_wdtAt (c : Nat) (x : Core) : (s.setCore c x).wdtAt = s.wdtAt := rfl
@[simp] theorem State.setCore_bootCtr (c : Nat) (x : Core) : (s.setCore c x).bootCtr = s.bootCtr := rfl
@[simp] theorem State.setCore_pciIds (c : Nat) (x : Core) : (s.setCore c x).pciIds = s.pciIds := rfl
@[simp] theorem State.setCore_reactions (c : Nat) (x : Core) : (s.setCore c x).reactions = s.reactions := rfl
@[simp] theorem State.setCore_reactAt (c : Nat) (x : Core) : (s.setCore c x).reactAt = s.reactAt := rfl
@[simp] theorem State.setCore_freeCnt (c : Nat) (x : Core) : (s.setCore c x).freeCnt = s.freeCnt := rfl
@[simp] theorem State.setCore_adm (c : Nat) (x : Core) : (s.setCore c x).adm = s.adm := rfl
@[simp] theorem State.setCore_checking (c : Nat) (x : Core) : (s.setCore c x).checking = s.checking := rfl
@[simp] theorem State.setCore_pullAt (c : Nat) (x : Core) : (s.setCore c x).pullAt = s.pullAt := rfl
@[simp] theorem State.setCore_pull (c : Nat) (x : Core) : (s.setCore c x).pull = s.pull := rfl
@[simp] theorem State.setCore_log (c : Nat) (x : Core) : (s.setCore c x).log = s.log := rfl
@[simp] theorem State.setCore_bst (c : Nat) (x : Core) : (s.setCore c x).bst = s.bst := rfl
@[simp] theorem State.setCore_epochs (c : Nat) (x : Core) : (s.setCore c x).epochs = s.epochs := rfl
@[simp] theorem State.setCore_channels (c : Nat) (x : Core) : (s.setCore c x).channels = s.channels := rfl
@[simp] theorem State.setCore_bthPos (c : Nat) (x : Core) : (s.setCore c x).bthPos = s.bthPos := rfl
@[simp] theorem State.setCore_soft (c : Nat) (x : Core) : (s.setCore c x).soft = s.soft := rfl
@[simp] theorem State.setCore_grantAt (c : Nat) (x : Core) : (s.setCore c x).grantAt = s.grantAt := rfl
@[simp] theorem State.setCore_offers (c : Nat) (x : Core) : (s.setCore c x).offers = s.offers := rfl
@[simp] theorem State.setCore_locks (c : Nat) (x : Core) : (s.setCore c x).locks = s.locks := rfl
@[simp] theorem State.setCore_msixMask (c : Nat) (x : Core) : (s.setCore c x).msixMask = s.msixMask := rfl
@[simp] theorem State.setCore_waking (c : Nat) (x : Core) : (s.setCore c x).waking = s.waking := rfl
@[simp] theorem State.setCore_pair (c : Nat) (x : Core) : (s.setCore c x).pair = s.pair := rfl
@[simp] theorem State.setCore_ports (c : Nat) (x : Core) : (s.setCore c x).ports = s.ports := rfl
@[simp] theorem State.setCore_srcLost (c : Nat) (x : Core) : (s.setCore c x).srcLost = s.srcLost := rfl
@[simp] theorem State.setCore_hostLost (c : Nat) (x : Core) : (s.setCore c x).hostLost = s.hostLost := rfl
@[simp] theorem State.setCore_bars (c : Nat) (x : Core) : (s.setCore c x).bars = s.bars := rfl
@[simp] theorem State.setCore_tid (c : Nat) (x : Core) : (s.setCore c x).tid = s.tid := rfl
@[simp] theorem State.setCore_pio (c : Nat) (x : Core) : (s.setCore c x).pio = s.pio := rfl
@[simp] theorem State.setCore_grv (c : Nat) (x : Core) : (s.setCore c x).grv = s.grv := rfl
@[simp] theorem State.setCore_drf (c : Nat) (x : Core) : (s.setCore c x).drf = s.drf := rfl
@[simp] theorem State.setCore_alm (c : Nat) (x : Core) : (s.setCore c x).alm = s.alm := rfl
@[simp] theorem State.setCore_bcn (c : Nat) (x : Core) : (s.setCore c x).bcn = s.bcn := rfl
@[simp] theorem State.setCore_tly (c : Nat) (x : Core) : (s.setCore c x).tly = s.tly := rfl
@[simp] theorem State.setCore_can (c : Nat) (x : Core) : (s.setCore c x).can = s.can := rfl
@[simp] theorem State.setCore_uarts (c : Nat) (x : Core) : (s.setCore c x).uarts = s.uarts := rfl
@[simp] theorem State.setCore_rings (c : Nat) (x : Core) : (s.setCore c x).rings = s.rings := rfl
@[simp] theorem State.setCore_ringProof (c : Nat) (x : Core) : (s.setCore c x).ringProof = s.ringProof := rfl
@[simp] theorem State.setCore_memory (c : Nat) (x : Core) : (s.setCore c x).memory = s.memory := rfl
@[simp] theorem State.setCore_rails (c : Nat) (x : Core) : (s.setCore c x).rails = s.rails := rfl
@[simp] theorem State.setCore_quays (c : Nat) (x : Core) : (s.setCore c x).quays = s.quays := rfl
@[simp] theorem State.setCore_stations (c : Nat) (x : Core) : (s.setCore c x).stations = s.stations := rfl

/-! `setQuay` writes `quays` alone. -/

@[simp] theorem State.setQuay_pending (q : Nat) (x : QuaySt) : (s.setQuay q x).pending = s.pending := rfl
@[simp] theorem State.setQuay_regs (q : Nat) (x : QuaySt) : (s.setQuay q x).regs = s.regs := rfl
@[simp] theorem State.setQuay_staged (q : Nat) (x : QuaySt) : (s.setQuay q x).staged = s.staged := rfl
@[simp] theorem State.setQuay_held (q : Nat) (x : QuaySt) : (s.setQuay q x).held = s.held := rfl
@[simp] theorem State.setQuay_capture (q : Nat) (x : QuaySt) : (s.setQuay q x).capture = s.capture := rfl
@[simp] theorem State.setQuay_setNow (q : Nat) (x : QuaySt) : (s.setQuay q x).setNow = s.setNow := rfl
@[simp] theorem State.setQuay_mem (q : Nat) (x : QuaySt) : (s.setQuay q x).mem = s.mem := rfl
@[simp] theorem State.setQuay_eccOne (q : Nat) (x : QuaySt) : (s.setQuay q x).eccOne = s.eccOne := rfl
@[simp] theorem State.setQuay_eccBad (q : Nat) (x : QuaySt) : (s.setQuay q x).eccBad = s.eccBad := rfl
@[simp] theorem State.setQuay_resp (q : Nat) (x : QuaySt) : (s.setQuay q x).resp = s.resp := rfl
@[simp] theorem State.setQuay_outbox (q : Nat) (x : QuaySt) : (s.setQuay q x).outbox = s.outbox := rfl
@[simp] theorem State.setQuay_fab (q : Nat) (x : QuaySt) : (s.setQuay q x).fab = s.fab := rfl
@[simp] theorem State.setQuay_tide (q : Nat) (x : QuaySt) : (s.setQuay q x).tide = s.tide := rfl
@[simp] theorem State.setQuay_tidePrev (q : Nat) (x : QuaySt) : (s.setQuay q x).tidePrev = s.tidePrev := rfl
@[simp] theorem State.setQuay_instants (q : Nat) (x : QuaySt) : (s.setQuay q x).instants = s.instants := rfl
@[simp] theorem State.setQuay_phase (q : Nat) (x : QuaySt) : (s.setQuay q x).phase = s.phase := rfl
@[simp] theorem State.setQuay_resetN (q : Nat) (x : QuaySt) : (s.setQuay q x).resetN = s.resetN := rfl
@[simp] theorem State.setQuay_debugEn (q : Nat) (x : QuaySt) : (s.setQuay q x).debugEn = s.debugEn := rfl
@[simp] theorem State.setQuay_supplies (q : Nat) (x : QuaySt) : (s.setQuay q x).supplies = s.supplies := rfl
@[simp] theorem State.setQuay_vbat (q : Nat) (x : QuaySt) : (s.setQuay q x).vbat = s.vbat := rfl
@[simp] theorem State.setQuay_wdtKey (q : Nat) (x : QuaySt) : (s.setQuay q x).wdtKey = s.wdtKey := rfl
@[simp] theorem State.setQuay_wdtAt (q : Nat) (x : QuaySt) : (s.setQuay q x).wdtAt = s.wdtAt := rfl
@[simp] theorem State.setQuay_bootCtr (q : Nat) (x : QuaySt) : (s.setQuay q x).bootCtr = s.bootCtr := rfl
@[simp] theorem State.setQuay_pciIds (q : Nat) (x : QuaySt) : (s.setQuay q x).pciIds = s.pciIds := rfl
@[simp] theorem State.setQuay_reactions (q : Nat) (x : QuaySt) : (s.setQuay q x).reactions = s.reactions := rfl
@[simp] theorem State.setQuay_reactAt (q : Nat) (x : QuaySt) : (s.setQuay q x).reactAt = s.reactAt := rfl
@[simp] theorem State.setQuay_freeCnt (q : Nat) (x : QuaySt) : (s.setQuay q x).freeCnt = s.freeCnt := rfl
@[simp] theorem State.setQuay_adm (q : Nat) (x : QuaySt) : (s.setQuay q x).adm = s.adm := rfl
@[simp] theorem State.setQuay_checking (q : Nat) (x : QuaySt) : (s.setQuay q x).checking = s.checking := rfl
@[simp] theorem State.setQuay_pullAt (q : Nat) (x : QuaySt) : (s.setQuay q x).pullAt = s.pullAt := rfl
@[simp] theorem State.setQuay_pull (q : Nat) (x : QuaySt) : (s.setQuay q x).pull = s.pull := rfl
@[simp] theorem State.setQuay_log (q : Nat) (x : QuaySt) : (s.setQuay q x).log = s.log := rfl
@[simp] theorem State.setQuay_bst (q : Nat) (x : QuaySt) : (s.setQuay q x).bst = s.bst := rfl
@[simp] theorem State.setQuay_epochs (q : Nat) (x : QuaySt) : (s.setQuay q x).epochs = s.epochs := rfl
@[simp] theorem State.setQuay_channels (q : Nat) (x : QuaySt) : (s.setQuay q x).channels = s.channels := rfl
@[simp] theorem State.setQuay_bthPos (q : Nat) (x : QuaySt) : (s.setQuay q x).bthPos = s.bthPos := rfl
@[simp] theorem State.setQuay_soft (q : Nat) (x : QuaySt) : (s.setQuay q x).soft = s.soft := rfl
@[simp] theorem State.setQuay_grantAt (q : Nat) (x : QuaySt) : (s.setQuay q x).grantAt = s.grantAt := rfl
@[simp] theorem State.setQuay_offers (q : Nat) (x : QuaySt) : (s.setQuay q x).offers = s.offers := rfl
@[simp] theorem State.setQuay_locks (q : Nat) (x : QuaySt) : (s.setQuay q x).locks = s.locks := rfl
@[simp] theorem State.setQuay_msixMask (q : Nat) (x : QuaySt) : (s.setQuay q x).msixMask = s.msixMask := rfl
@[simp] theorem State.setQuay_waking (q : Nat) (x : QuaySt) : (s.setQuay q x).waking = s.waking := rfl
@[simp] theorem State.setQuay_pair (q : Nat) (x : QuaySt) : (s.setQuay q x).pair = s.pair := rfl
@[simp] theorem State.setQuay_ports (q : Nat) (x : QuaySt) : (s.setQuay q x).ports = s.ports := rfl
@[simp] theorem State.setQuay_srcLost (q : Nat) (x : QuaySt) : (s.setQuay q x).srcLost = s.srcLost := rfl
@[simp] theorem State.setQuay_hostLost (q : Nat) (x : QuaySt) : (s.setQuay q x).hostLost = s.hostLost := rfl
@[simp] theorem State.setQuay_bars (q : Nat) (x : QuaySt) : (s.setQuay q x).bars = s.bars := rfl
@[simp] theorem State.setQuay_tid (q : Nat) (x : QuaySt) : (s.setQuay q x).tid = s.tid := rfl
@[simp] theorem State.setQuay_pio (q : Nat) (x : QuaySt) : (s.setQuay q x).pio = s.pio := rfl
@[simp] theorem State.setQuay_grv (q : Nat) (x : QuaySt) : (s.setQuay q x).grv = s.grv := rfl
@[simp] theorem State.setQuay_drf (q : Nat) (x : QuaySt) : (s.setQuay q x).drf = s.drf := rfl
@[simp] theorem State.setQuay_alm (q : Nat) (x : QuaySt) : (s.setQuay q x).alm = s.alm := rfl
@[simp] theorem State.setQuay_bcn (q : Nat) (x : QuaySt) : (s.setQuay q x).bcn = s.bcn := rfl
@[simp] theorem State.setQuay_tly (q : Nat) (x : QuaySt) : (s.setQuay q x).tly = s.tly := rfl
@[simp] theorem State.setQuay_can (q : Nat) (x : QuaySt) : (s.setQuay q x).can = s.can := rfl
@[simp] theorem State.setQuay_uarts (q : Nat) (x : QuaySt) : (s.setQuay q x).uarts = s.uarts := rfl
@[simp] theorem State.setQuay_rings (q : Nat) (x : QuaySt) : (s.setQuay q x).rings = s.rings := rfl
@[simp] theorem State.setQuay_ringProof (q : Nat) (x : QuaySt) : (s.setQuay q x).ringProof = s.ringProof := rfl
@[simp] theorem State.setQuay_memory (q : Nat) (x : QuaySt) : (s.setQuay q x).memory = s.memory := rfl
@[simp] theorem State.setQuay_rails (q : Nat) (x : QuaySt) : (s.setQuay q x).rails = s.rails := rfl
@[simp] theorem State.setQuay_cores (q : Nat) (x : QuaySt) : (s.setQuay q x).cores = s.cores := rfl
@[simp] theorem State.setQuay_stations (q : Nat) (x : QuaySt) : (s.setQuay q x).stations = s.stations := rfl

/-! `setStation` writes `stations` alone. -/

@[simp] theorem State.setStation_pending (n : Nat) (x : Option Station) : (s.setStation n x).pending = s.pending := rfl
@[simp] theorem State.setStation_regs (n : Nat) (x : Option Station) : (s.setStation n x).regs = s.regs := rfl
@[simp] theorem State.setStation_staged (n : Nat) (x : Option Station) : (s.setStation n x).staged = s.staged := rfl
@[simp] theorem State.setStation_held (n : Nat) (x : Option Station) : (s.setStation n x).held = s.held := rfl
@[simp] theorem State.setStation_capture (n : Nat) (x : Option Station) : (s.setStation n x).capture = s.capture := rfl
@[simp] theorem State.setStation_setNow (n : Nat) (x : Option Station) : (s.setStation n x).setNow = s.setNow := rfl
@[simp] theorem State.setStation_mem (n : Nat) (x : Option Station) : (s.setStation n x).mem = s.mem := rfl
@[simp] theorem State.setStation_eccOne (n : Nat) (x : Option Station) : (s.setStation n x).eccOne = s.eccOne := rfl
@[simp] theorem State.setStation_eccBad (n : Nat) (x : Option Station) : (s.setStation n x).eccBad = s.eccBad := rfl
@[simp] theorem State.setStation_resp (n : Nat) (x : Option Station) : (s.setStation n x).resp = s.resp := rfl
@[simp] theorem State.setStation_outbox (n : Nat) (x : Option Station) : (s.setStation n x).outbox = s.outbox := rfl
@[simp] theorem State.setStation_fab (n : Nat) (x : Option Station) : (s.setStation n x).fab = s.fab := rfl
@[simp] theorem State.setStation_tide (n : Nat) (x : Option Station) : (s.setStation n x).tide = s.tide := rfl
@[simp] theorem State.setStation_tidePrev (n : Nat) (x : Option Station) : (s.setStation n x).tidePrev = s.tidePrev := rfl
@[simp] theorem State.setStation_instants (n : Nat) (x : Option Station) : (s.setStation n x).instants = s.instants := rfl
@[simp] theorem State.setStation_phase (n : Nat) (x : Option Station) : (s.setStation n x).phase = s.phase := rfl
@[simp] theorem State.setStation_resetN (n : Nat) (x : Option Station) : (s.setStation n x).resetN = s.resetN := rfl
@[simp] theorem State.setStation_debugEn (n : Nat) (x : Option Station) : (s.setStation n x).debugEn = s.debugEn := rfl
@[simp] theorem State.setStation_supplies (n : Nat) (x : Option Station) : (s.setStation n x).supplies = s.supplies := rfl
@[simp] theorem State.setStation_vbat (n : Nat) (x : Option Station) : (s.setStation n x).vbat = s.vbat := rfl
@[simp] theorem State.setStation_wdtKey (n : Nat) (x : Option Station) : (s.setStation n x).wdtKey = s.wdtKey := rfl
@[simp] theorem State.setStation_wdtAt (n : Nat) (x : Option Station) : (s.setStation n x).wdtAt = s.wdtAt := rfl
@[simp] theorem State.setStation_bootCtr (n : Nat) (x : Option Station) : (s.setStation n x).bootCtr = s.bootCtr := rfl
@[simp] theorem State.setStation_pciIds (n : Nat) (x : Option Station) : (s.setStation n x).pciIds = s.pciIds := rfl
@[simp] theorem State.setStation_reactions (n : Nat) (x : Option Station) : (s.setStation n x).reactions = s.reactions := rfl
@[simp] theorem State.setStation_reactAt (n : Nat) (x : Option Station) : (s.setStation n x).reactAt = s.reactAt := rfl
@[simp] theorem State.setStation_freeCnt (n : Nat) (x : Option Station) : (s.setStation n x).freeCnt = s.freeCnt := rfl
@[simp] theorem State.setStation_adm (n : Nat) (x : Option Station) : (s.setStation n x).adm = s.adm := rfl
@[simp] theorem State.setStation_checking (n : Nat) (x : Option Station) : (s.setStation n x).checking = s.checking := rfl
@[simp] theorem State.setStation_pullAt (n : Nat) (x : Option Station) : (s.setStation n x).pullAt = s.pullAt := rfl
@[simp] theorem State.setStation_pull (n : Nat) (x : Option Station) : (s.setStation n x).pull = s.pull := rfl
@[simp] theorem State.setStation_log (n : Nat) (x : Option Station) : (s.setStation n x).log = s.log := rfl
@[simp] theorem State.setStation_bst (n : Nat) (x : Option Station) : (s.setStation n x).bst = s.bst := rfl
@[simp] theorem State.setStation_epochs (n : Nat) (x : Option Station) : (s.setStation n x).epochs = s.epochs := rfl
@[simp] theorem State.setStation_channels (n : Nat) (x : Option Station) : (s.setStation n x).channels = s.channels := rfl
@[simp] theorem State.setStation_bthPos (n : Nat) (x : Option Station) : (s.setStation n x).bthPos = s.bthPos := rfl
@[simp] theorem State.setStation_soft (n : Nat) (x : Option Station) : (s.setStation n x).soft = s.soft := rfl
@[simp] theorem State.setStation_grantAt (n : Nat) (x : Option Station) : (s.setStation n x).grantAt = s.grantAt := rfl
@[simp] theorem State.setStation_offers (n : Nat) (x : Option Station) : (s.setStation n x).offers = s.offers := rfl
@[simp] theorem State.setStation_locks (n : Nat) (x : Option Station) : (s.setStation n x).locks = s.locks := rfl
@[simp] theorem State.setStation_msixMask (n : Nat) (x : Option Station) : (s.setStation n x).msixMask = s.msixMask := rfl
@[simp] theorem State.setStation_waking (n : Nat) (x : Option Station) : (s.setStation n x).waking = s.waking := rfl
@[simp] theorem State.setStation_pair (n : Nat) (x : Option Station) : (s.setStation n x).pair = s.pair := rfl
@[simp] theorem State.setStation_ports (n : Nat) (x : Option Station) : (s.setStation n x).ports = s.ports := rfl
@[simp] theorem State.setStation_srcLost (n : Nat) (x : Option Station) : (s.setStation n x).srcLost = s.srcLost := rfl
@[simp] theorem State.setStation_hostLost (n : Nat) (x : Option Station) : (s.setStation n x).hostLost = s.hostLost := rfl
@[simp] theorem State.setStation_bars (n : Nat) (x : Option Station) : (s.setStation n x).bars = s.bars := rfl
@[simp] theorem State.setStation_tid (n : Nat) (x : Option Station) : (s.setStation n x).tid = s.tid := rfl
@[simp] theorem State.setStation_pio (n : Nat) (x : Option Station) : (s.setStation n x).pio = s.pio := rfl
@[simp] theorem State.setStation_grv (n : Nat) (x : Option Station) : (s.setStation n x).grv = s.grv := rfl
@[simp] theorem State.setStation_drf (n : Nat) (x : Option Station) : (s.setStation n x).drf = s.drf := rfl
@[simp] theorem State.setStation_alm (n : Nat) (x : Option Station) : (s.setStation n x).alm = s.alm := rfl
@[simp] theorem State.setStation_bcn (n : Nat) (x : Option Station) : (s.setStation n x).bcn = s.bcn := rfl
@[simp] theorem State.setStation_tly (n : Nat) (x : Option Station) : (s.setStation n x).tly = s.tly := rfl
@[simp] theorem State.setStation_can (n : Nat) (x : Option Station) : (s.setStation n x).can = s.can := rfl
@[simp] theorem State.setStation_uarts (n : Nat) (x : Option Station) : (s.setStation n x).uarts = s.uarts := rfl
@[simp] theorem State.setStation_rings (n : Nat) (x : Option Station) : (s.setStation n x).rings = s.rings := rfl
@[simp] theorem State.setStation_ringProof (n : Nat) (x : Option Station) : (s.setStation n x).ringProof = s.ringProof := rfl
@[simp] theorem State.setStation_memory (n : Nat) (x : Option Station) : (s.setStation n x).memory = s.memory := rfl
@[simp] theorem State.setStation_rails (n : Nat) (x : Option Station) : (s.setStation n x).rails = s.rails := rfl
@[simp] theorem State.setStation_cores (n : Nat) (x : Option Station) : (s.setStation n x).cores = s.cores := rfl
@[simp] theorem State.setStation_quays (n : Nat) (x : Option Station) : (s.setStation n x).quays = s.quays := rfl

/-! `setLock` writes `locks` alone. -/

@[simp] theorem State.setLock_pending (l : Nat) (x : LockSt) : (s.setLock l x).pending = s.pending := rfl
@[simp] theorem State.setLock_regs (l : Nat) (x : LockSt) : (s.setLock l x).regs = s.regs := rfl
@[simp] theorem State.setLock_staged (l : Nat) (x : LockSt) : (s.setLock l x).staged = s.staged := rfl
@[simp] theorem State.setLock_held (l : Nat) (x : LockSt) : (s.setLock l x).held = s.held := rfl
@[simp] theorem State.setLock_capture (l : Nat) (x : LockSt) : (s.setLock l x).capture = s.capture := rfl
@[simp] theorem State.setLock_setNow (l : Nat) (x : LockSt) : (s.setLock l x).setNow = s.setNow := rfl
@[simp] theorem State.setLock_mem (l : Nat) (x : LockSt) : (s.setLock l x).mem = s.mem := rfl
@[simp] theorem State.setLock_eccOne (l : Nat) (x : LockSt) : (s.setLock l x).eccOne = s.eccOne := rfl
@[simp] theorem State.setLock_eccBad (l : Nat) (x : LockSt) : (s.setLock l x).eccBad = s.eccBad := rfl
@[simp] theorem State.setLock_resp (l : Nat) (x : LockSt) : (s.setLock l x).resp = s.resp := rfl
@[simp] theorem State.setLock_outbox (l : Nat) (x : LockSt) : (s.setLock l x).outbox = s.outbox := rfl
@[simp] theorem State.setLock_fab (l : Nat) (x : LockSt) : (s.setLock l x).fab = s.fab := rfl
@[simp] theorem State.setLock_tide (l : Nat) (x : LockSt) : (s.setLock l x).tide = s.tide := rfl
@[simp] theorem State.setLock_tidePrev (l : Nat) (x : LockSt) : (s.setLock l x).tidePrev = s.tidePrev := rfl
@[simp] theorem State.setLock_instants (l : Nat) (x : LockSt) : (s.setLock l x).instants = s.instants := rfl
@[simp] theorem State.setLock_phase (l : Nat) (x : LockSt) : (s.setLock l x).phase = s.phase := rfl
@[simp] theorem State.setLock_resetN (l : Nat) (x : LockSt) : (s.setLock l x).resetN = s.resetN := rfl
@[simp] theorem State.setLock_debugEn (l : Nat) (x : LockSt) : (s.setLock l x).debugEn = s.debugEn := rfl
@[simp] theorem State.setLock_supplies (l : Nat) (x : LockSt) : (s.setLock l x).supplies = s.supplies := rfl
@[simp] theorem State.setLock_vbat (l : Nat) (x : LockSt) : (s.setLock l x).vbat = s.vbat := rfl
@[simp] theorem State.setLock_wdtKey (l : Nat) (x : LockSt) : (s.setLock l x).wdtKey = s.wdtKey := rfl
@[simp] theorem State.setLock_wdtAt (l : Nat) (x : LockSt) : (s.setLock l x).wdtAt = s.wdtAt := rfl
@[simp] theorem State.setLock_bootCtr (l : Nat) (x : LockSt) : (s.setLock l x).bootCtr = s.bootCtr := rfl
@[simp] theorem State.setLock_pciIds (l : Nat) (x : LockSt) : (s.setLock l x).pciIds = s.pciIds := rfl
@[simp] theorem State.setLock_reactions (l : Nat) (x : LockSt) : (s.setLock l x).reactions = s.reactions := rfl
@[simp] theorem State.setLock_reactAt (l : Nat) (x : LockSt) : (s.setLock l x).reactAt = s.reactAt := rfl
@[simp] theorem State.setLock_freeCnt (l : Nat) (x : LockSt) : (s.setLock l x).freeCnt = s.freeCnt := rfl
@[simp] theorem State.setLock_adm (l : Nat) (x : LockSt) : (s.setLock l x).adm = s.adm := rfl
@[simp] theorem State.setLock_checking (l : Nat) (x : LockSt) : (s.setLock l x).checking = s.checking := rfl
@[simp] theorem State.setLock_pullAt (l : Nat) (x : LockSt) : (s.setLock l x).pullAt = s.pullAt := rfl
@[simp] theorem State.setLock_pull (l : Nat) (x : LockSt) : (s.setLock l x).pull = s.pull := rfl
@[simp] theorem State.setLock_log (l : Nat) (x : LockSt) : (s.setLock l x).log = s.log := rfl
@[simp] theorem State.setLock_bst (l : Nat) (x : LockSt) : (s.setLock l x).bst = s.bst := rfl
@[simp] theorem State.setLock_epochs (l : Nat) (x : LockSt) : (s.setLock l x).epochs = s.epochs := rfl
@[simp] theorem State.setLock_channels (l : Nat) (x : LockSt) : (s.setLock l x).channels = s.channels := rfl
@[simp] theorem State.setLock_bthPos (l : Nat) (x : LockSt) : (s.setLock l x).bthPos = s.bthPos := rfl
@[simp] theorem State.setLock_soft (l : Nat) (x : LockSt) : (s.setLock l x).soft = s.soft := rfl
@[simp] theorem State.setLock_grantAt (l : Nat) (x : LockSt) : (s.setLock l x).grantAt = s.grantAt := rfl
@[simp] theorem State.setLock_offers (l : Nat) (x : LockSt) : (s.setLock l x).offers = s.offers := rfl
@[simp] theorem State.setLock_msixMask (l : Nat) (x : LockSt) : (s.setLock l x).msixMask = s.msixMask := rfl
@[simp] theorem State.setLock_waking (l : Nat) (x : LockSt) : (s.setLock l x).waking = s.waking := rfl
@[simp] theorem State.setLock_pair (l : Nat) (x : LockSt) : (s.setLock l x).pair = s.pair := rfl
@[simp] theorem State.setLock_ports (l : Nat) (x : LockSt) : (s.setLock l x).ports = s.ports := rfl
@[simp] theorem State.setLock_srcLost (l : Nat) (x : LockSt) : (s.setLock l x).srcLost = s.srcLost := rfl
@[simp] theorem State.setLock_hostLost (l : Nat) (x : LockSt) : (s.setLock l x).hostLost = s.hostLost := rfl
@[simp] theorem State.setLock_bars (l : Nat) (x : LockSt) : (s.setLock l x).bars = s.bars := rfl
@[simp] theorem State.setLock_tid (l : Nat) (x : LockSt) : (s.setLock l x).tid = s.tid := rfl
@[simp] theorem State.setLock_pio (l : Nat) (x : LockSt) : (s.setLock l x).pio = s.pio := rfl
@[simp] theorem State.setLock_grv (l : Nat) (x : LockSt) : (s.setLock l x).grv = s.grv := rfl
@[simp] theorem State.setLock_drf (l : Nat) (x : LockSt) : (s.setLock l x).drf = s.drf := rfl
@[simp] theorem State.setLock_alm (l : Nat) (x : LockSt) : (s.setLock l x).alm = s.alm := rfl
@[simp] theorem State.setLock_bcn (l : Nat) (x : LockSt) : (s.setLock l x).bcn = s.bcn := rfl
@[simp] theorem State.setLock_tly (l : Nat) (x : LockSt) : (s.setLock l x).tly = s.tly := rfl
@[simp] theorem State.setLock_can (l : Nat) (x : LockSt) : (s.setLock l x).can = s.can := rfl
@[simp] theorem State.setLock_uarts (l : Nat) (x : LockSt) : (s.setLock l x).uarts = s.uarts := rfl
@[simp] theorem State.setLock_rings (l : Nat) (x : LockSt) : (s.setLock l x).rings = s.rings := rfl
@[simp] theorem State.setLock_ringProof (l : Nat) (x : LockSt) : (s.setLock l x).ringProof = s.ringProof := rfl
@[simp] theorem State.setLock_memory (l : Nat) (x : LockSt) : (s.setLock l x).memory = s.memory := rfl
@[simp] theorem State.setLock_rails (l : Nat) (x : LockSt) : (s.setLock l x).rails = s.rails := rfl
@[simp] theorem State.setLock_cores (l : Nat) (x : LockSt) : (s.setLock l x).cores = s.cores := rfl
@[simp] theorem State.setLock_quays (l : Nat) (x : LockSt) : (s.setLock l x).quays = s.quays := rfl
@[simp] theorem State.setLock_stations (l : Nat) (x : LockSt) : (s.setLock l x).stations = s.stations := rfl

/-! `setEpoch` writes `epochs` alone. -/

@[simp] theorem State.setEpoch_pending (p e : Nat) : (s.setEpoch p e).pending = s.pending := rfl
@[simp] theorem State.setEpoch_regs (p e : Nat) : (s.setEpoch p e).regs = s.regs := rfl
@[simp] theorem State.setEpoch_staged (p e : Nat) : (s.setEpoch p e).staged = s.staged := rfl
@[simp] theorem State.setEpoch_held (p e : Nat) : (s.setEpoch p e).held = s.held := rfl
@[simp] theorem State.setEpoch_capture (p e : Nat) : (s.setEpoch p e).capture = s.capture := rfl
@[simp] theorem State.setEpoch_setNow (p e : Nat) : (s.setEpoch p e).setNow = s.setNow := rfl
@[simp] theorem State.setEpoch_mem (p e : Nat) : (s.setEpoch p e).mem = s.mem := rfl
@[simp] theorem State.setEpoch_eccOne (p e : Nat) : (s.setEpoch p e).eccOne = s.eccOne := rfl
@[simp] theorem State.setEpoch_eccBad (p e : Nat) : (s.setEpoch p e).eccBad = s.eccBad := rfl
@[simp] theorem State.setEpoch_resp (p e : Nat) : (s.setEpoch p e).resp = s.resp := rfl
@[simp] theorem State.setEpoch_outbox (p e : Nat) : (s.setEpoch p e).outbox = s.outbox := rfl
@[simp] theorem State.setEpoch_fab (p e : Nat) : (s.setEpoch p e).fab = s.fab := rfl
@[simp] theorem State.setEpoch_tide (p e : Nat) : (s.setEpoch p e).tide = s.tide := rfl
@[simp] theorem State.setEpoch_tidePrev (p e : Nat) : (s.setEpoch p e).tidePrev = s.tidePrev := rfl
@[simp] theorem State.setEpoch_instants (p e : Nat) : (s.setEpoch p e).instants = s.instants := rfl
@[simp] theorem State.setEpoch_phase (p e : Nat) : (s.setEpoch p e).phase = s.phase := rfl
@[simp] theorem State.setEpoch_resetN (p e : Nat) : (s.setEpoch p e).resetN = s.resetN := rfl
@[simp] theorem State.setEpoch_debugEn (p e : Nat) : (s.setEpoch p e).debugEn = s.debugEn := rfl
@[simp] theorem State.setEpoch_supplies (p e : Nat) : (s.setEpoch p e).supplies = s.supplies := rfl
@[simp] theorem State.setEpoch_vbat (p e : Nat) : (s.setEpoch p e).vbat = s.vbat := rfl
@[simp] theorem State.setEpoch_wdtKey (p e : Nat) : (s.setEpoch p e).wdtKey = s.wdtKey := rfl
@[simp] theorem State.setEpoch_wdtAt (p e : Nat) : (s.setEpoch p e).wdtAt = s.wdtAt := rfl
@[simp] theorem State.setEpoch_bootCtr (p e : Nat) : (s.setEpoch p e).bootCtr = s.bootCtr := rfl
@[simp] theorem State.setEpoch_pciIds (p e : Nat) : (s.setEpoch p e).pciIds = s.pciIds := rfl
@[simp] theorem State.setEpoch_reactions (p e : Nat) : (s.setEpoch p e).reactions = s.reactions := rfl
@[simp] theorem State.setEpoch_reactAt (p e : Nat) : (s.setEpoch p e).reactAt = s.reactAt := rfl
@[simp] theorem State.setEpoch_freeCnt (p e : Nat) : (s.setEpoch p e).freeCnt = s.freeCnt := rfl
@[simp] theorem State.setEpoch_adm (p e : Nat) : (s.setEpoch p e).adm = s.adm := rfl
@[simp] theorem State.setEpoch_checking (p e : Nat) : (s.setEpoch p e).checking = s.checking := rfl
@[simp] theorem State.setEpoch_pullAt (p e : Nat) : (s.setEpoch p e).pullAt = s.pullAt := rfl
@[simp] theorem State.setEpoch_pull (p e : Nat) : (s.setEpoch p e).pull = s.pull := rfl
@[simp] theorem State.setEpoch_log (p e : Nat) : (s.setEpoch p e).log = s.log := rfl
@[simp] theorem State.setEpoch_bst (p e : Nat) : (s.setEpoch p e).bst = s.bst := rfl
@[simp] theorem State.setEpoch_channels (p e : Nat) : (s.setEpoch p e).channels = s.channels := rfl
@[simp] theorem State.setEpoch_bthPos (p e : Nat) : (s.setEpoch p e).bthPos = s.bthPos := rfl
@[simp] theorem State.setEpoch_soft (p e : Nat) : (s.setEpoch p e).soft = s.soft := rfl
@[simp] theorem State.setEpoch_grantAt (p e : Nat) : (s.setEpoch p e).grantAt = s.grantAt := rfl
@[simp] theorem State.setEpoch_offers (p e : Nat) : (s.setEpoch p e).offers = s.offers := rfl
@[simp] theorem State.setEpoch_locks (p e : Nat) : (s.setEpoch p e).locks = s.locks := rfl
@[simp] theorem State.setEpoch_msixMask (p e : Nat) : (s.setEpoch p e).msixMask = s.msixMask := rfl
@[simp] theorem State.setEpoch_waking (p e : Nat) : (s.setEpoch p e).waking = s.waking := rfl
@[simp] theorem State.setEpoch_pair (p e : Nat) : (s.setEpoch p e).pair = s.pair := rfl
@[simp] theorem State.setEpoch_ports (p e : Nat) : (s.setEpoch p e).ports = s.ports := rfl
@[simp] theorem State.setEpoch_srcLost (p e : Nat) : (s.setEpoch p e).srcLost = s.srcLost := rfl
@[simp] theorem State.setEpoch_hostLost (p e : Nat) : (s.setEpoch p e).hostLost = s.hostLost := rfl
@[simp] theorem State.setEpoch_bars (p e : Nat) : (s.setEpoch p e).bars = s.bars := rfl
@[simp] theorem State.setEpoch_tid (p e : Nat) : (s.setEpoch p e).tid = s.tid := rfl
@[simp] theorem State.setEpoch_pio (p e : Nat) : (s.setEpoch p e).pio = s.pio := rfl
@[simp] theorem State.setEpoch_grv (p e : Nat) : (s.setEpoch p e).grv = s.grv := rfl
@[simp] theorem State.setEpoch_drf (p e : Nat) : (s.setEpoch p e).drf = s.drf := rfl
@[simp] theorem State.setEpoch_alm (p e : Nat) : (s.setEpoch p e).alm = s.alm := rfl
@[simp] theorem State.setEpoch_bcn (p e : Nat) : (s.setEpoch p e).bcn = s.bcn := rfl
@[simp] theorem State.setEpoch_tly (p e : Nat) : (s.setEpoch p e).tly = s.tly := rfl
@[simp] theorem State.setEpoch_can (p e : Nat) : (s.setEpoch p e).can = s.can := rfl
@[simp] theorem State.setEpoch_uarts (p e : Nat) : (s.setEpoch p e).uarts = s.uarts := rfl
@[simp] theorem State.setEpoch_rings (p e : Nat) : (s.setEpoch p e).rings = s.rings := rfl
@[simp] theorem State.setEpoch_ringProof (p e : Nat) : (s.setEpoch p e).ringProof = s.ringProof := rfl
@[simp] theorem State.setEpoch_memory (p e : Nat) : (s.setEpoch p e).memory = s.memory := rfl
@[simp] theorem State.setEpoch_rails (p e : Nat) : (s.setEpoch p e).rails = s.rails := rfl
@[simp] theorem State.setEpoch_cores (p e : Nat) : (s.setEpoch p e).cores = s.cores := rfl
@[simp] theorem State.setEpoch_quays (p e : Nat) : (s.setEpoch p e).quays = s.quays := rfl
@[simp] theorem State.setEpoch_stations (p e : Nat) : (s.setEpoch p e).stations = s.stations := rfl

/-! `inc` writes one register field. -/

@[simp] theorem State.inc_pending (f : Fld) (d : Nat) : (s.inc f d).pending = s.pending := rfl
@[simp] theorem State.inc_staged (f : Fld) (d : Nat) : (s.inc f d).staged = s.staged := rfl
@[simp] theorem State.inc_held (f : Fld) (d : Nat) : (s.inc f d).held = s.held := rfl
@[simp] theorem State.inc_capture (f : Fld) (d : Nat) : (s.inc f d).capture = s.capture := rfl
@[simp] theorem State.inc_setNow (f : Fld) (d : Nat) : (s.inc f d).setNow = s.setNow := rfl
@[simp] theorem State.inc_mem (f : Fld) (d : Nat) : (s.inc f d).mem = s.mem := rfl
@[simp] theorem State.inc_eccOne (f : Fld) (d : Nat) : (s.inc f d).eccOne = s.eccOne := rfl
@[simp] theorem State.inc_eccBad (f : Fld) (d : Nat) : (s.inc f d).eccBad = s.eccBad := rfl
@[simp] theorem State.inc_resp (f : Fld) (d : Nat) : (s.inc f d).resp = s.resp := rfl
@[simp] theorem State.inc_outbox (f : Fld) (d : Nat) : (s.inc f d).outbox = s.outbox := rfl
@[simp] theorem State.inc_fab (f : Fld) (d : Nat) : (s.inc f d).fab = s.fab := rfl
@[simp] theorem State.inc_tide (f : Fld) (d : Nat) : (s.inc f d).tide = s.tide := rfl
@[simp] theorem State.inc_tidePrev (f : Fld) (d : Nat) : (s.inc f d).tidePrev = s.tidePrev := rfl
@[simp] theorem State.inc_instants (f : Fld) (d : Nat) : (s.inc f d).instants = s.instants := rfl
@[simp] theorem State.inc_phase (f : Fld) (d : Nat) : (s.inc f d).phase = s.phase := rfl
@[simp] theorem State.inc_resetN (f : Fld) (d : Nat) : (s.inc f d).resetN = s.resetN := rfl
@[simp] theorem State.inc_debugEn (f : Fld) (d : Nat) : (s.inc f d).debugEn = s.debugEn := rfl
@[simp] theorem State.inc_supplies (f : Fld) (d : Nat) : (s.inc f d).supplies = s.supplies := rfl
@[simp] theorem State.inc_vbat (f : Fld) (d : Nat) : (s.inc f d).vbat = s.vbat := rfl
@[simp] theorem State.inc_wdtKey (f : Fld) (d : Nat) : (s.inc f d).wdtKey = s.wdtKey := rfl
@[simp] theorem State.inc_wdtAt (f : Fld) (d : Nat) : (s.inc f d).wdtAt = s.wdtAt := rfl
@[simp] theorem State.inc_bootCtr (f : Fld) (d : Nat) : (s.inc f d).bootCtr = s.bootCtr := rfl
@[simp] theorem State.inc_pciIds (f : Fld) (d : Nat) : (s.inc f d).pciIds = s.pciIds := rfl
@[simp] theorem State.inc_reactions (f : Fld) (d : Nat) : (s.inc f d).reactions = s.reactions := rfl
@[simp] theorem State.inc_reactAt (f : Fld) (d : Nat) : (s.inc f d).reactAt = s.reactAt := rfl
@[simp] theorem State.inc_freeCnt (f : Fld) (d : Nat) : (s.inc f d).freeCnt = s.freeCnt := rfl
@[simp] theorem State.inc_adm (f : Fld) (d : Nat) : (s.inc f d).adm = s.adm := rfl
@[simp] theorem State.inc_checking (f : Fld) (d : Nat) : (s.inc f d).checking = s.checking := rfl
@[simp] theorem State.inc_pullAt (f : Fld) (d : Nat) : (s.inc f d).pullAt = s.pullAt := rfl
@[simp] theorem State.inc_pull (f : Fld) (d : Nat) : (s.inc f d).pull = s.pull := rfl
@[simp] theorem State.inc_log (f : Fld) (d : Nat) : (s.inc f d).log = s.log := rfl
@[simp] theorem State.inc_bst (f : Fld) (d : Nat) : (s.inc f d).bst = s.bst := rfl
@[simp] theorem State.inc_epochs (f : Fld) (d : Nat) : (s.inc f d).epochs = s.epochs := rfl
@[simp] theorem State.inc_channels (f : Fld) (d : Nat) : (s.inc f d).channels = s.channels := rfl
@[simp] theorem State.inc_bthPos (f : Fld) (d : Nat) : (s.inc f d).bthPos = s.bthPos := rfl
@[simp] theorem State.inc_soft (f : Fld) (d : Nat) : (s.inc f d).soft = s.soft := rfl
@[simp] theorem State.inc_grantAt (f : Fld) (d : Nat) : (s.inc f d).grantAt = s.grantAt := rfl
@[simp] theorem State.inc_offers (f : Fld) (d : Nat) : (s.inc f d).offers = s.offers := rfl
@[simp] theorem State.inc_locks (f : Fld) (d : Nat) : (s.inc f d).locks = s.locks := rfl
@[simp] theorem State.inc_msixMask (f : Fld) (d : Nat) : (s.inc f d).msixMask = s.msixMask := rfl
@[simp] theorem State.inc_waking (f : Fld) (d : Nat) : (s.inc f d).waking = s.waking := rfl
@[simp] theorem State.inc_pair (f : Fld) (d : Nat) : (s.inc f d).pair = s.pair := rfl
@[simp] theorem State.inc_ports (f : Fld) (d : Nat) : (s.inc f d).ports = s.ports := rfl
@[simp] theorem State.inc_srcLost (f : Fld) (d : Nat) : (s.inc f d).srcLost = s.srcLost := rfl
@[simp] theorem State.inc_hostLost (f : Fld) (d : Nat) : (s.inc f d).hostLost = s.hostLost := rfl
@[simp] theorem State.inc_bars (f : Fld) (d : Nat) : (s.inc f d).bars = s.bars := rfl
@[simp] theorem State.inc_tid (f : Fld) (d : Nat) : (s.inc f d).tid = s.tid := rfl
@[simp] theorem State.inc_pio (f : Fld) (d : Nat) : (s.inc f d).pio = s.pio := rfl
@[simp] theorem State.inc_grv (f : Fld) (d : Nat) : (s.inc f d).grv = s.grv := rfl
@[simp] theorem State.inc_drf (f : Fld) (d : Nat) : (s.inc f d).drf = s.drf := rfl
@[simp] theorem State.inc_alm (f : Fld) (d : Nat) : (s.inc f d).alm = s.alm := rfl
@[simp] theorem State.inc_bcn (f : Fld) (d : Nat) : (s.inc f d).bcn = s.bcn := rfl
@[simp] theorem State.inc_tly (f : Fld) (d : Nat) : (s.inc f d).tly = s.tly := rfl
@[simp] theorem State.inc_can (f : Fld) (d : Nat) : (s.inc f d).can = s.can := rfl
@[simp] theorem State.inc_uarts (f : Fld) (d : Nat) : (s.inc f d).uarts = s.uarts := rfl
@[simp] theorem State.inc_rings (f : Fld) (d : Nat) : (s.inc f d).rings = s.rings := rfl
@[simp] theorem State.inc_ringProof (f : Fld) (d : Nat) : (s.inc f d).ringProof = s.ringProof := rfl
@[simp] theorem State.inc_memory (f : Fld) (d : Nat) : (s.inc f d).memory = s.memory := rfl
@[simp] theorem State.inc_rails (f : Fld) (d : Nat) : (s.inc f d).rails = s.rails := rfl
@[simp] theorem State.inc_cores (f : Fld) (d : Nat) : (s.inc f d).cores = s.cores := rfl
@[simp] theorem State.inc_quays (f : Fld) (d : Nat) : (s.inc f d).quays = s.quays := rfl
@[simp] theorem State.inc_stations (f : Fld) (d : Nat) : (s.inc f d).stations = s.stations := rfl

/-! `incSat` writes one register field. -/

@[simp] theorem State.incSat_pending (f : Fld) (d : Nat) : (s.incSat f d).pending = s.pending := rfl
@[simp] theorem State.incSat_staged (f : Fld) (d : Nat) : (s.incSat f d).staged = s.staged := rfl
@[simp] theorem State.incSat_held (f : Fld) (d : Nat) : (s.incSat f d).held = s.held := rfl
@[simp] theorem State.incSat_capture (f : Fld) (d : Nat) : (s.incSat f d).capture = s.capture := rfl
@[simp] theorem State.incSat_setNow (f : Fld) (d : Nat) : (s.incSat f d).setNow = s.setNow := rfl
@[simp] theorem State.incSat_mem (f : Fld) (d : Nat) : (s.incSat f d).mem = s.mem := rfl
@[simp] theorem State.incSat_eccOne (f : Fld) (d : Nat) : (s.incSat f d).eccOne = s.eccOne := rfl
@[simp] theorem State.incSat_eccBad (f : Fld) (d : Nat) : (s.incSat f d).eccBad = s.eccBad := rfl
@[simp] theorem State.incSat_resp (f : Fld) (d : Nat) : (s.incSat f d).resp = s.resp := rfl
@[simp] theorem State.incSat_outbox (f : Fld) (d : Nat) : (s.incSat f d).outbox = s.outbox := rfl
@[simp] theorem State.incSat_fab (f : Fld) (d : Nat) : (s.incSat f d).fab = s.fab := rfl
@[simp] theorem State.incSat_tide (f : Fld) (d : Nat) : (s.incSat f d).tide = s.tide := rfl
@[simp] theorem State.incSat_tidePrev (f : Fld) (d : Nat) : (s.incSat f d).tidePrev = s.tidePrev := rfl
@[simp] theorem State.incSat_instants (f : Fld) (d : Nat) : (s.incSat f d).instants = s.instants := rfl
@[simp] theorem State.incSat_phase (f : Fld) (d : Nat) : (s.incSat f d).phase = s.phase := rfl
@[simp] theorem State.incSat_resetN (f : Fld) (d : Nat) : (s.incSat f d).resetN = s.resetN := rfl
@[simp] theorem State.incSat_debugEn (f : Fld) (d : Nat) : (s.incSat f d).debugEn = s.debugEn := rfl
@[simp] theorem State.incSat_supplies (f : Fld) (d : Nat) : (s.incSat f d).supplies = s.supplies := rfl
@[simp] theorem State.incSat_vbat (f : Fld) (d : Nat) : (s.incSat f d).vbat = s.vbat := rfl
@[simp] theorem State.incSat_wdtKey (f : Fld) (d : Nat) : (s.incSat f d).wdtKey = s.wdtKey := rfl
@[simp] theorem State.incSat_wdtAt (f : Fld) (d : Nat) : (s.incSat f d).wdtAt = s.wdtAt := rfl
@[simp] theorem State.incSat_bootCtr (f : Fld) (d : Nat) : (s.incSat f d).bootCtr = s.bootCtr := rfl
@[simp] theorem State.incSat_pciIds (f : Fld) (d : Nat) : (s.incSat f d).pciIds = s.pciIds := rfl
@[simp] theorem State.incSat_reactions (f : Fld) (d : Nat) : (s.incSat f d).reactions = s.reactions := rfl
@[simp] theorem State.incSat_reactAt (f : Fld) (d : Nat) : (s.incSat f d).reactAt = s.reactAt := rfl
@[simp] theorem State.incSat_freeCnt (f : Fld) (d : Nat) : (s.incSat f d).freeCnt = s.freeCnt := rfl
@[simp] theorem State.incSat_adm (f : Fld) (d : Nat) : (s.incSat f d).adm = s.adm := rfl
@[simp] theorem State.incSat_checking (f : Fld) (d : Nat) : (s.incSat f d).checking = s.checking := rfl
@[simp] theorem State.incSat_pullAt (f : Fld) (d : Nat) : (s.incSat f d).pullAt = s.pullAt := rfl
@[simp] theorem State.incSat_pull (f : Fld) (d : Nat) : (s.incSat f d).pull = s.pull := rfl
@[simp] theorem State.incSat_log (f : Fld) (d : Nat) : (s.incSat f d).log = s.log := rfl
@[simp] theorem State.incSat_bst (f : Fld) (d : Nat) : (s.incSat f d).bst = s.bst := rfl
@[simp] theorem State.incSat_epochs (f : Fld) (d : Nat) : (s.incSat f d).epochs = s.epochs := rfl
@[simp] theorem State.incSat_channels (f : Fld) (d : Nat) : (s.incSat f d).channels = s.channels := rfl
@[simp] theorem State.incSat_bthPos (f : Fld) (d : Nat) : (s.incSat f d).bthPos = s.bthPos := rfl
@[simp] theorem State.incSat_soft (f : Fld) (d : Nat) : (s.incSat f d).soft = s.soft := rfl
@[simp] theorem State.incSat_grantAt (f : Fld) (d : Nat) : (s.incSat f d).grantAt = s.grantAt := rfl
@[simp] theorem State.incSat_offers (f : Fld) (d : Nat) : (s.incSat f d).offers = s.offers := rfl
@[simp] theorem State.incSat_locks (f : Fld) (d : Nat) : (s.incSat f d).locks = s.locks := rfl
@[simp] theorem State.incSat_msixMask (f : Fld) (d : Nat) : (s.incSat f d).msixMask = s.msixMask := rfl
@[simp] theorem State.incSat_waking (f : Fld) (d : Nat) : (s.incSat f d).waking = s.waking := rfl
@[simp] theorem State.incSat_pair (f : Fld) (d : Nat) : (s.incSat f d).pair = s.pair := rfl
@[simp] theorem State.incSat_ports (f : Fld) (d : Nat) : (s.incSat f d).ports = s.ports := rfl
@[simp] theorem State.incSat_srcLost (f : Fld) (d : Nat) : (s.incSat f d).srcLost = s.srcLost := rfl
@[simp] theorem State.incSat_hostLost (f : Fld) (d : Nat) : (s.incSat f d).hostLost = s.hostLost := rfl
@[simp] theorem State.incSat_bars (f : Fld) (d : Nat) : (s.incSat f d).bars = s.bars := rfl
@[simp] theorem State.incSat_tid (f : Fld) (d : Nat) : (s.incSat f d).tid = s.tid := rfl
@[simp] theorem State.incSat_pio (f : Fld) (d : Nat) : (s.incSat f d).pio = s.pio := rfl
@[simp] theorem State.incSat_grv (f : Fld) (d : Nat) : (s.incSat f d).grv = s.grv := rfl
@[simp] theorem State.incSat_drf (f : Fld) (d : Nat) : (s.incSat f d).drf = s.drf := rfl
@[simp] theorem State.incSat_alm (f : Fld) (d : Nat) : (s.incSat f d).alm = s.alm := rfl
@[simp] theorem State.incSat_bcn (f : Fld) (d : Nat) : (s.incSat f d).bcn = s.bcn := rfl
@[simp] theorem State.incSat_tly (f : Fld) (d : Nat) : (s.incSat f d).tly = s.tly := rfl
@[simp] theorem State.incSat_can (f : Fld) (d : Nat) : (s.incSat f d).can = s.can := rfl
@[simp] theorem State.incSat_uarts (f : Fld) (d : Nat) : (s.incSat f d).uarts = s.uarts := rfl
@[simp] theorem State.incSat_rings (f : Fld) (d : Nat) : (s.incSat f d).rings = s.rings := rfl
@[simp] theorem State.incSat_ringProof (f : Fld) (d : Nat) : (s.incSat f d).ringProof = s.ringProof := rfl
@[simp] theorem State.incSat_memory (f : Fld) (d : Nat) : (s.incSat f d).memory = s.memory := rfl
@[simp] theorem State.incSat_rails (f : Fld) (d : Nat) : (s.incSat f d).rails = s.rails := rfl
@[simp] theorem State.incSat_cores (f : Fld) (d : Nat) : (s.incSat f d).cores = s.cores := rfl
@[simp] theorem State.incSat_quays (f : Fld) (d : Nat) : (s.incSat f d).quays = s.quays := rfl
@[simp] theorem State.incSat_stations (f : Fld) (d : Nat) : (s.incSat f d).stations = s.stations := rfl

/-! `addSat` writes one register field. -/

@[simp] theorem State.addSat_pending (f : Fld) (d n : Nat) : (s.addSat f d n).pending = s.pending := rfl
@[simp] theorem State.addSat_staged (f : Fld) (d n : Nat) : (s.addSat f d n).staged = s.staged := rfl
@[simp] theorem State.addSat_held (f : Fld) (d n : Nat) : (s.addSat f d n).held = s.held := rfl
@[simp] theorem State.addSat_capture (f : Fld) (d n : Nat) : (s.addSat f d n).capture = s.capture := rfl
@[simp] theorem State.addSat_setNow (f : Fld) (d n : Nat) : (s.addSat f d n).setNow = s.setNow := rfl
@[simp] theorem State.addSat_mem (f : Fld) (d n : Nat) : (s.addSat f d n).mem = s.mem := rfl
@[simp] theorem State.addSat_eccOne (f : Fld) (d n : Nat) : (s.addSat f d n).eccOne = s.eccOne := rfl
@[simp] theorem State.addSat_eccBad (f : Fld) (d n : Nat) : (s.addSat f d n).eccBad = s.eccBad := rfl
@[simp] theorem State.addSat_resp (f : Fld) (d n : Nat) : (s.addSat f d n).resp = s.resp := rfl
@[simp] theorem State.addSat_outbox (f : Fld) (d n : Nat) : (s.addSat f d n).outbox = s.outbox := rfl
@[simp] theorem State.addSat_fab (f : Fld) (d n : Nat) : (s.addSat f d n).fab = s.fab := rfl
@[simp] theorem State.addSat_tide (f : Fld) (d n : Nat) : (s.addSat f d n).tide = s.tide := rfl
@[simp] theorem State.addSat_tidePrev (f : Fld) (d n : Nat) : (s.addSat f d n).tidePrev = s.tidePrev := rfl
@[simp] theorem State.addSat_instants (f : Fld) (d n : Nat) : (s.addSat f d n).instants = s.instants := rfl
@[simp] theorem State.addSat_phase (f : Fld) (d n : Nat) : (s.addSat f d n).phase = s.phase := rfl
@[simp] theorem State.addSat_resetN (f : Fld) (d n : Nat) : (s.addSat f d n).resetN = s.resetN := rfl
@[simp] theorem State.addSat_debugEn (f : Fld) (d n : Nat) : (s.addSat f d n).debugEn = s.debugEn := rfl
@[simp] theorem State.addSat_supplies (f : Fld) (d n : Nat) : (s.addSat f d n).supplies = s.supplies := rfl
@[simp] theorem State.addSat_vbat (f : Fld) (d n : Nat) : (s.addSat f d n).vbat = s.vbat := rfl
@[simp] theorem State.addSat_wdtKey (f : Fld) (d n : Nat) : (s.addSat f d n).wdtKey = s.wdtKey := rfl
@[simp] theorem State.addSat_wdtAt (f : Fld) (d n : Nat) : (s.addSat f d n).wdtAt = s.wdtAt := rfl
@[simp] theorem State.addSat_bootCtr (f : Fld) (d n : Nat) : (s.addSat f d n).bootCtr = s.bootCtr := rfl
@[simp] theorem State.addSat_pciIds (f : Fld) (d n : Nat) : (s.addSat f d n).pciIds = s.pciIds := rfl
@[simp] theorem State.addSat_reactions (f : Fld) (d n : Nat) : (s.addSat f d n).reactions = s.reactions := rfl
@[simp] theorem State.addSat_reactAt (f : Fld) (d n : Nat) : (s.addSat f d n).reactAt = s.reactAt := rfl
@[simp] theorem State.addSat_freeCnt (f : Fld) (d n : Nat) : (s.addSat f d n).freeCnt = s.freeCnt := rfl
@[simp] theorem State.addSat_adm (f : Fld) (d n : Nat) : (s.addSat f d n).adm = s.adm := rfl
@[simp] theorem State.addSat_checking (f : Fld) (d n : Nat) : (s.addSat f d n).checking = s.checking := rfl
@[simp] theorem State.addSat_pullAt (f : Fld) (d n : Nat) : (s.addSat f d n).pullAt = s.pullAt := rfl
@[simp] theorem State.addSat_pull (f : Fld) (d n : Nat) : (s.addSat f d n).pull = s.pull := rfl
@[simp] theorem State.addSat_log (f : Fld) (d n : Nat) : (s.addSat f d n).log = s.log := rfl
@[simp] theorem State.addSat_bst (f : Fld) (d n : Nat) : (s.addSat f d n).bst = s.bst := rfl
@[simp] theorem State.addSat_epochs (f : Fld) (d n : Nat) : (s.addSat f d n).epochs = s.epochs := rfl
@[simp] theorem State.addSat_channels (f : Fld) (d n : Nat) : (s.addSat f d n).channels = s.channels := rfl
@[simp] theorem State.addSat_bthPos (f : Fld) (d n : Nat) : (s.addSat f d n).bthPos = s.bthPos := rfl
@[simp] theorem State.addSat_soft (f : Fld) (d n : Nat) : (s.addSat f d n).soft = s.soft := rfl
@[simp] theorem State.addSat_grantAt (f : Fld) (d n : Nat) : (s.addSat f d n).grantAt = s.grantAt := rfl
@[simp] theorem State.addSat_offers (f : Fld) (d n : Nat) : (s.addSat f d n).offers = s.offers := rfl
@[simp] theorem State.addSat_locks (f : Fld) (d n : Nat) : (s.addSat f d n).locks = s.locks := rfl
@[simp] theorem State.addSat_msixMask (f : Fld) (d n : Nat) : (s.addSat f d n).msixMask = s.msixMask := rfl
@[simp] theorem State.addSat_waking (f : Fld) (d n : Nat) : (s.addSat f d n).waking = s.waking := rfl
@[simp] theorem State.addSat_pair (f : Fld) (d n : Nat) : (s.addSat f d n).pair = s.pair := rfl
@[simp] theorem State.addSat_ports (f : Fld) (d n : Nat) : (s.addSat f d n).ports = s.ports := rfl
@[simp] theorem State.addSat_srcLost (f : Fld) (d n : Nat) : (s.addSat f d n).srcLost = s.srcLost := rfl
@[simp] theorem State.addSat_hostLost (f : Fld) (d n : Nat) : (s.addSat f d n).hostLost = s.hostLost := rfl
@[simp] theorem State.addSat_bars (f : Fld) (d n : Nat) : (s.addSat f d n).bars = s.bars := rfl
@[simp] theorem State.addSat_tid (f : Fld) (d n : Nat) : (s.addSat f d n).tid = s.tid := rfl
@[simp] theorem State.addSat_pio (f : Fld) (d n : Nat) : (s.addSat f d n).pio = s.pio := rfl
@[simp] theorem State.addSat_grv (f : Fld) (d n : Nat) : (s.addSat f d n).grv = s.grv := rfl
@[simp] theorem State.addSat_drf (f : Fld) (d n : Nat) : (s.addSat f d n).drf = s.drf := rfl
@[simp] theorem State.addSat_alm (f : Fld) (d n : Nat) : (s.addSat f d n).alm = s.alm := rfl
@[simp] theorem State.addSat_bcn (f : Fld) (d n : Nat) : (s.addSat f d n).bcn = s.bcn := rfl
@[simp] theorem State.addSat_tly (f : Fld) (d n : Nat) : (s.addSat f d n).tly = s.tly := rfl
@[simp] theorem State.addSat_can (f : Fld) (d n : Nat) : (s.addSat f d n).can = s.can := rfl
@[simp] theorem State.addSat_uarts (f : Fld) (d n : Nat) : (s.addSat f d n).uarts = s.uarts := rfl
@[simp] theorem State.addSat_rings (f : Fld) (d n : Nat) : (s.addSat f d n).rings = s.rings := rfl
@[simp] theorem State.addSat_ringProof (f : Fld) (d n : Nat) : (s.addSat f d n).ringProof = s.ringProof := rfl
@[simp] theorem State.addSat_memory (f : Fld) (d n : Nat) : (s.addSat f d n).memory = s.memory := rfl
@[simp] theorem State.addSat_rails (f : Fld) (d n : Nat) : (s.addSat f d n).rails = s.rails := rfl
@[simp] theorem State.addSat_cores (f : Fld) (d n : Nat) : (s.addSat f d n).cores = s.cores := rfl
@[simp] theorem State.addSat_quays (f : Fld) (d n : Nat) : (s.addSat f d n).quays = s.quays := rfl
@[simp] theorem State.addSat_stations (f : Fld) (d n : Nat) : (s.addSat f d n).stations = s.stations := rfl

/-! `clr` writes one register field. -/

@[simp] theorem State.clr_pending (f : Fld) (d : Nat) : (s.clr f d).pending = s.pending := rfl
@[simp] theorem State.clr_staged (f : Fld) (d : Nat) : (s.clr f d).staged = s.staged := rfl
@[simp] theorem State.clr_held (f : Fld) (d : Nat) : (s.clr f d).held = s.held := rfl
@[simp] theorem State.clr_capture (f : Fld) (d : Nat) : (s.clr f d).capture = s.capture := rfl
@[simp] theorem State.clr_setNow (f : Fld) (d : Nat) : (s.clr f d).setNow = s.setNow := rfl
@[simp] theorem State.clr_mem (f : Fld) (d : Nat) : (s.clr f d).mem = s.mem := rfl
@[simp] theorem State.clr_eccOne (f : Fld) (d : Nat) : (s.clr f d).eccOne = s.eccOne := rfl
@[simp] theorem State.clr_eccBad (f : Fld) (d : Nat) : (s.clr f d).eccBad = s.eccBad := rfl
@[simp] theorem State.clr_resp (f : Fld) (d : Nat) : (s.clr f d).resp = s.resp := rfl
@[simp] theorem State.clr_outbox (f : Fld) (d : Nat) : (s.clr f d).outbox = s.outbox := rfl
@[simp] theorem State.clr_fab (f : Fld) (d : Nat) : (s.clr f d).fab = s.fab := rfl
@[simp] theorem State.clr_tide (f : Fld) (d : Nat) : (s.clr f d).tide = s.tide := rfl
@[simp] theorem State.clr_tidePrev (f : Fld) (d : Nat) : (s.clr f d).tidePrev = s.tidePrev := rfl
@[simp] theorem State.clr_instants (f : Fld) (d : Nat) : (s.clr f d).instants = s.instants := rfl
@[simp] theorem State.clr_phase (f : Fld) (d : Nat) : (s.clr f d).phase = s.phase := rfl
@[simp] theorem State.clr_resetN (f : Fld) (d : Nat) : (s.clr f d).resetN = s.resetN := rfl
@[simp] theorem State.clr_debugEn (f : Fld) (d : Nat) : (s.clr f d).debugEn = s.debugEn := rfl
@[simp] theorem State.clr_supplies (f : Fld) (d : Nat) : (s.clr f d).supplies = s.supplies := rfl
@[simp] theorem State.clr_vbat (f : Fld) (d : Nat) : (s.clr f d).vbat = s.vbat := rfl
@[simp] theorem State.clr_wdtKey (f : Fld) (d : Nat) : (s.clr f d).wdtKey = s.wdtKey := rfl
@[simp] theorem State.clr_wdtAt (f : Fld) (d : Nat) : (s.clr f d).wdtAt = s.wdtAt := rfl
@[simp] theorem State.clr_bootCtr (f : Fld) (d : Nat) : (s.clr f d).bootCtr = s.bootCtr := rfl
@[simp] theorem State.clr_pciIds (f : Fld) (d : Nat) : (s.clr f d).pciIds = s.pciIds := rfl
@[simp] theorem State.clr_reactions (f : Fld) (d : Nat) : (s.clr f d).reactions = s.reactions := rfl
@[simp] theorem State.clr_reactAt (f : Fld) (d : Nat) : (s.clr f d).reactAt = s.reactAt := rfl
@[simp] theorem State.clr_freeCnt (f : Fld) (d : Nat) : (s.clr f d).freeCnt = s.freeCnt := rfl
@[simp] theorem State.clr_adm (f : Fld) (d : Nat) : (s.clr f d).adm = s.adm := rfl
@[simp] theorem State.clr_checking (f : Fld) (d : Nat) : (s.clr f d).checking = s.checking := rfl
@[simp] theorem State.clr_pullAt (f : Fld) (d : Nat) : (s.clr f d).pullAt = s.pullAt := rfl
@[simp] theorem State.clr_pull (f : Fld) (d : Nat) : (s.clr f d).pull = s.pull := rfl
@[simp] theorem State.clr_log (f : Fld) (d : Nat) : (s.clr f d).log = s.log := rfl
@[simp] theorem State.clr_bst (f : Fld) (d : Nat) : (s.clr f d).bst = s.bst := rfl
@[simp] theorem State.clr_epochs (f : Fld) (d : Nat) : (s.clr f d).epochs = s.epochs := rfl
@[simp] theorem State.clr_channels (f : Fld) (d : Nat) : (s.clr f d).channels = s.channels := rfl
@[simp] theorem State.clr_bthPos (f : Fld) (d : Nat) : (s.clr f d).bthPos = s.bthPos := rfl
@[simp] theorem State.clr_soft (f : Fld) (d : Nat) : (s.clr f d).soft = s.soft := rfl
@[simp] theorem State.clr_grantAt (f : Fld) (d : Nat) : (s.clr f d).grantAt = s.grantAt := rfl
@[simp] theorem State.clr_offers (f : Fld) (d : Nat) : (s.clr f d).offers = s.offers := rfl
@[simp] theorem State.clr_locks (f : Fld) (d : Nat) : (s.clr f d).locks = s.locks := rfl
@[simp] theorem State.clr_msixMask (f : Fld) (d : Nat) : (s.clr f d).msixMask = s.msixMask := rfl
@[simp] theorem State.clr_waking (f : Fld) (d : Nat) : (s.clr f d).waking = s.waking := rfl
@[simp] theorem State.clr_pair (f : Fld) (d : Nat) : (s.clr f d).pair = s.pair := rfl
@[simp] theorem State.clr_ports (f : Fld) (d : Nat) : (s.clr f d).ports = s.ports := rfl
@[simp] theorem State.clr_srcLost (f : Fld) (d : Nat) : (s.clr f d).srcLost = s.srcLost := rfl
@[simp] theorem State.clr_hostLost (f : Fld) (d : Nat) : (s.clr f d).hostLost = s.hostLost := rfl
@[simp] theorem State.clr_bars (f : Fld) (d : Nat) : (s.clr f d).bars = s.bars := rfl
@[simp] theorem State.clr_tid (f : Fld) (d : Nat) : (s.clr f d).tid = s.tid := rfl
@[simp] theorem State.clr_pio (f : Fld) (d : Nat) : (s.clr f d).pio = s.pio := rfl
@[simp] theorem State.clr_grv (f : Fld) (d : Nat) : (s.clr f d).grv = s.grv := rfl
@[simp] theorem State.clr_drf (f : Fld) (d : Nat) : (s.clr f d).drf = s.drf := rfl
@[simp] theorem State.clr_alm (f : Fld) (d : Nat) : (s.clr f d).alm = s.alm := rfl
@[simp] theorem State.clr_bcn (f : Fld) (d : Nat) : (s.clr f d).bcn = s.bcn := rfl
@[simp] theorem State.clr_tly (f : Fld) (d : Nat) : (s.clr f d).tly = s.tly := rfl
@[simp] theorem State.clr_can (f : Fld) (d : Nat) : (s.clr f d).can = s.can := rfl
@[simp] theorem State.clr_uarts (f : Fld) (d : Nat) : (s.clr f d).uarts = s.uarts := rfl
@[simp] theorem State.clr_rings (f : Fld) (d : Nat) : (s.clr f d).rings = s.rings := rfl
@[simp] theorem State.clr_ringProof (f : Fld) (d : Nat) : (s.clr f d).ringProof = s.ringProof := rfl
@[simp] theorem State.clr_memory (f : Fld) (d : Nat) : (s.clr f d).memory = s.memory := rfl
@[simp] theorem State.clr_rails (f : Fld) (d : Nat) : (s.clr f d).rails = s.rails := rfl
@[simp] theorem State.clr_cores (f : Fld) (d : Nat) : (s.clr f d).cores = s.cores := rfl
@[simp] theorem State.clr_quays (f : Fld) (d : Nat) : (s.clr f d).quays = s.quays := rfl
@[simp] theorem State.clr_stations (f : Fld) (d : Nat) : (s.clr f d).stations = s.stations := rfl

/-! `putTime` writes the three words of a time; `draw` advances the count of free values. -/

@[simp] theorem State.putTime_pending (f : Fld) (d ns : Nat) : (s.putTime f d ns).pending = s.pending := rfl
@[simp] theorem State.putTime_staged (f : Fld) (d ns : Nat) : (s.putTime f d ns).staged = s.staged := rfl
@[simp] theorem State.putTime_held (f : Fld) (d ns : Nat) : (s.putTime f d ns).held = s.held := rfl
@[simp] theorem State.putTime_capture (f : Fld) (d ns : Nat) : (s.putTime f d ns).capture = s.capture := rfl
@[simp] theorem State.putTime_setNow (f : Fld) (d ns : Nat) : (s.putTime f d ns).setNow = s.setNow := rfl
@[simp] theorem State.putTime_mem (f : Fld) (d ns : Nat) : (s.putTime f d ns).mem = s.mem := rfl
@[simp] theorem State.putTime_eccOne (f : Fld) (d ns : Nat) : (s.putTime f d ns).eccOne = s.eccOne := rfl
@[simp] theorem State.putTime_eccBad (f : Fld) (d ns : Nat) : (s.putTime f d ns).eccBad = s.eccBad := rfl
@[simp] theorem State.putTime_resp (f : Fld) (d ns : Nat) : (s.putTime f d ns).resp = s.resp := rfl
@[simp] theorem State.putTime_outbox (f : Fld) (d ns : Nat) : (s.putTime f d ns).outbox = s.outbox := rfl
@[simp] theorem State.putTime_fab (f : Fld) (d ns : Nat) : (s.putTime f d ns).fab = s.fab := rfl
@[simp] theorem State.putTime_tide (f : Fld) (d ns : Nat) : (s.putTime f d ns).tide = s.tide := rfl
@[simp] theorem State.putTime_tidePrev (f : Fld) (d ns : Nat) : (s.putTime f d ns).tidePrev = s.tidePrev := rfl
@[simp] theorem State.putTime_instants (f : Fld) (d ns : Nat) : (s.putTime f d ns).instants = s.instants := rfl
@[simp] theorem State.putTime_phase (f : Fld) (d ns : Nat) : (s.putTime f d ns).phase = s.phase := rfl
@[simp] theorem State.putTime_resetN (f : Fld) (d ns : Nat) : (s.putTime f d ns).resetN = s.resetN := rfl
@[simp] theorem State.putTime_debugEn (f : Fld) (d ns : Nat) : (s.putTime f d ns).debugEn = s.debugEn := rfl
@[simp] theorem State.putTime_supplies (f : Fld) (d ns : Nat) : (s.putTime f d ns).supplies = s.supplies := rfl
@[simp] theorem State.putTime_vbat (f : Fld) (d ns : Nat) : (s.putTime f d ns).vbat = s.vbat := rfl
@[simp] theorem State.putTime_wdtKey (f : Fld) (d ns : Nat) : (s.putTime f d ns).wdtKey = s.wdtKey := rfl
@[simp] theorem State.putTime_wdtAt (f : Fld) (d ns : Nat) : (s.putTime f d ns).wdtAt = s.wdtAt := rfl
@[simp] theorem State.putTime_bootCtr (f : Fld) (d ns : Nat) : (s.putTime f d ns).bootCtr = s.bootCtr := rfl
@[simp] theorem State.putTime_pciIds (f : Fld) (d ns : Nat) : (s.putTime f d ns).pciIds = s.pciIds := rfl
@[simp] theorem State.putTime_reactions (f : Fld) (d ns : Nat) : (s.putTime f d ns).reactions = s.reactions := rfl
@[simp] theorem State.putTime_reactAt (f : Fld) (d ns : Nat) : (s.putTime f d ns).reactAt = s.reactAt := rfl
@[simp] theorem State.putTime_freeCnt (f : Fld) (d ns : Nat) : (s.putTime f d ns).freeCnt = s.freeCnt := rfl
@[simp] theorem State.putTime_adm (f : Fld) (d ns : Nat) : (s.putTime f d ns).adm = s.adm := rfl
@[simp] theorem State.putTime_checking (f : Fld) (d ns : Nat) : (s.putTime f d ns).checking = s.checking := rfl
@[simp] theorem State.putTime_pullAt (f : Fld) (d ns : Nat) : (s.putTime f d ns).pullAt = s.pullAt := rfl
@[simp] theorem State.putTime_pull (f : Fld) (d ns : Nat) : (s.putTime f d ns).pull = s.pull := rfl
@[simp] theorem State.putTime_log (f : Fld) (d ns : Nat) : (s.putTime f d ns).log = s.log := rfl
@[simp] theorem State.putTime_bst (f : Fld) (d ns : Nat) : (s.putTime f d ns).bst = s.bst := rfl
@[simp] theorem State.putTime_epochs (f : Fld) (d ns : Nat) : (s.putTime f d ns).epochs = s.epochs := rfl
@[simp] theorem State.putTime_channels (f : Fld) (d ns : Nat) : (s.putTime f d ns).channels = s.channels := rfl
@[simp] theorem State.putTime_bthPos (f : Fld) (d ns : Nat) : (s.putTime f d ns).bthPos = s.bthPos := rfl
@[simp] theorem State.putTime_soft (f : Fld) (d ns : Nat) : (s.putTime f d ns).soft = s.soft := rfl
@[simp] theorem State.putTime_grantAt (f : Fld) (d ns : Nat) : (s.putTime f d ns).grantAt = s.grantAt := rfl
@[simp] theorem State.putTime_offers (f : Fld) (d ns : Nat) : (s.putTime f d ns).offers = s.offers := rfl
@[simp] theorem State.putTime_locks (f : Fld) (d ns : Nat) : (s.putTime f d ns).locks = s.locks := rfl
@[simp] theorem State.putTime_msixMask (f : Fld) (d ns : Nat) : (s.putTime f d ns).msixMask = s.msixMask := rfl
@[simp] theorem State.putTime_waking (f : Fld) (d ns : Nat) : (s.putTime f d ns).waking = s.waking := rfl
@[simp] theorem State.putTime_pair (f : Fld) (d ns : Nat) : (s.putTime f d ns).pair = s.pair := rfl
@[simp] theorem State.putTime_ports (f : Fld) (d ns : Nat) : (s.putTime f d ns).ports = s.ports := rfl
@[simp] theorem State.putTime_srcLost (f : Fld) (d ns : Nat) : (s.putTime f d ns).srcLost = s.srcLost := rfl
@[simp] theorem State.putTime_hostLost (f : Fld) (d ns : Nat) : (s.putTime f d ns).hostLost = s.hostLost := rfl
@[simp] theorem State.putTime_bars (f : Fld) (d ns : Nat) : (s.putTime f d ns).bars = s.bars := rfl
@[simp] theorem State.putTime_tid (f : Fld) (d ns : Nat) : (s.putTime f d ns).tid = s.tid := rfl
@[simp] theorem State.putTime_pio (f : Fld) (d ns : Nat) : (s.putTime f d ns).pio = s.pio := rfl
@[simp] theorem State.putTime_grv (f : Fld) (d ns : Nat) : (s.putTime f d ns).grv = s.grv := rfl
@[simp] theorem State.putTime_drf (f : Fld) (d ns : Nat) : (s.putTime f d ns).drf = s.drf := rfl
@[simp] theorem State.putTime_alm (f : Fld) (d ns : Nat) : (s.putTime f d ns).alm = s.alm := rfl
@[simp] theorem State.putTime_bcn (f : Fld) (d ns : Nat) : (s.putTime f d ns).bcn = s.bcn := rfl
@[simp] theorem State.putTime_tly (f : Fld) (d ns : Nat) : (s.putTime f d ns).tly = s.tly := rfl
@[simp] theorem State.putTime_can (f : Fld) (d ns : Nat) : (s.putTime f d ns).can = s.can := rfl
@[simp] theorem State.putTime_uarts (f : Fld) (d ns : Nat) : (s.putTime f d ns).uarts = s.uarts := rfl
@[simp] theorem State.putTime_rings (f : Fld) (d ns : Nat) : (s.putTime f d ns).rings = s.rings := rfl
@[simp] theorem State.putTime_ringProof (f : Fld) (d ns : Nat) : (s.putTime f d ns).ringProof = s.ringProof := rfl
@[simp] theorem State.putTime_memory (f : Fld) (d ns : Nat) : (s.putTime f d ns).memory = s.memory := rfl
@[simp] theorem State.putTime_rails (f : Fld) (d ns : Nat) : (s.putTime f d ns).rails = s.rails := rfl
@[simp] theorem State.putTime_cores (f : Fld) (d ns : Nat) : (s.putTime f d ns).cores = s.cores := rfl
@[simp] theorem State.putTime_quays (f : Fld) (d ns : Nat) : (s.putTime f d ns).quays = s.quays := rfl
@[simp] theorem State.putTime_stations (f : Fld) (d ns : Nat) : (s.putTime f d ns).stations = s.stations := rfl
@[simp] theorem State.draw_pending : s.draw.2.pending = s.pending := rfl
@[simp] theorem State.draw_regs : s.draw.2.regs = s.regs := rfl
@[simp] theorem State.draw_staged : s.draw.2.staged = s.staged := rfl
@[simp] theorem State.draw_held : s.draw.2.held = s.held := rfl
@[simp] theorem State.draw_capture : s.draw.2.capture = s.capture := rfl
@[simp] theorem State.draw_setNow : s.draw.2.setNow = s.setNow := rfl
@[simp] theorem State.draw_mem : s.draw.2.mem = s.mem := rfl
@[simp] theorem State.draw_eccOne : s.draw.2.eccOne = s.eccOne := rfl
@[simp] theorem State.draw_eccBad : s.draw.2.eccBad = s.eccBad := rfl
@[simp] theorem State.draw_resp : s.draw.2.resp = s.resp := rfl
@[simp] theorem State.draw_outbox : s.draw.2.outbox = s.outbox := rfl
@[simp] theorem State.draw_fab : s.draw.2.fab = s.fab := rfl
@[simp] theorem State.draw_tide : s.draw.2.tide = s.tide := rfl
@[simp] theorem State.draw_tidePrev : s.draw.2.tidePrev = s.tidePrev := rfl
@[simp] theorem State.draw_instants : s.draw.2.instants = s.instants := rfl
@[simp] theorem State.draw_phase : s.draw.2.phase = s.phase := rfl
@[simp] theorem State.draw_resetN : s.draw.2.resetN = s.resetN := rfl
@[simp] theorem State.draw_debugEn : s.draw.2.debugEn = s.debugEn := rfl
@[simp] theorem State.draw_supplies : s.draw.2.supplies = s.supplies := rfl
@[simp] theorem State.draw_vbat : s.draw.2.vbat = s.vbat := rfl
@[simp] theorem State.draw_wdtKey : s.draw.2.wdtKey = s.wdtKey := rfl
@[simp] theorem State.draw_wdtAt : s.draw.2.wdtAt = s.wdtAt := rfl
@[simp] theorem State.draw_bootCtr : s.draw.2.bootCtr = s.bootCtr := rfl
@[simp] theorem State.draw_pciIds : s.draw.2.pciIds = s.pciIds := rfl
@[simp] theorem State.draw_reactions : s.draw.2.reactions = s.reactions := rfl
@[simp] theorem State.draw_reactAt : s.draw.2.reactAt = s.reactAt := rfl
@[simp] theorem State.draw_adm : s.draw.2.adm = s.adm := rfl
@[simp] theorem State.draw_checking : s.draw.2.checking = s.checking := rfl
@[simp] theorem State.draw_pullAt : s.draw.2.pullAt = s.pullAt := rfl
@[simp] theorem State.draw_pull : s.draw.2.pull = s.pull := rfl
@[simp] theorem State.draw_log : s.draw.2.log = s.log := rfl
@[simp] theorem State.draw_bst : s.draw.2.bst = s.bst := rfl
@[simp] theorem State.draw_epochs : s.draw.2.epochs = s.epochs := rfl
@[simp] theorem State.draw_channels : s.draw.2.channels = s.channels := rfl
@[simp] theorem State.draw_bthPos : s.draw.2.bthPos = s.bthPos := rfl
@[simp] theorem State.draw_soft : s.draw.2.soft = s.soft := rfl
@[simp] theorem State.draw_grantAt : s.draw.2.grantAt = s.grantAt := rfl
@[simp] theorem State.draw_offers : s.draw.2.offers = s.offers := rfl
@[simp] theorem State.draw_locks : s.draw.2.locks = s.locks := rfl
@[simp] theorem State.draw_msixMask : s.draw.2.msixMask = s.msixMask := rfl
@[simp] theorem State.draw_waking : s.draw.2.waking = s.waking := rfl
@[simp] theorem State.draw_pair : s.draw.2.pair = s.pair := rfl
@[simp] theorem State.draw_ports : s.draw.2.ports = s.ports := rfl
@[simp] theorem State.draw_srcLost : s.draw.2.srcLost = s.srcLost := rfl
@[simp] theorem State.draw_hostLost : s.draw.2.hostLost = s.hostLost := rfl
@[simp] theorem State.draw_bars : s.draw.2.bars = s.bars := rfl
@[simp] theorem State.draw_tid : s.draw.2.tid = s.tid := rfl
@[simp] theorem State.draw_pio : s.draw.2.pio = s.pio := rfl
@[simp] theorem State.draw_grv : s.draw.2.grv = s.grv := rfl
@[simp] theorem State.draw_drf : s.draw.2.drf = s.drf := rfl
@[simp] theorem State.draw_alm : s.draw.2.alm = s.alm := rfl
@[simp] theorem State.draw_bcn : s.draw.2.bcn = s.bcn := rfl
@[simp] theorem State.draw_tly : s.draw.2.tly = s.tly := rfl
@[simp] theorem State.draw_can : s.draw.2.can = s.can := rfl
@[simp] theorem State.draw_uarts : s.draw.2.uarts = s.uarts := rfl
@[simp] theorem State.draw_rings : s.draw.2.rings = s.rings := rfl
@[simp] theorem State.draw_ringProof : s.draw.2.ringProof = s.ringProof := rfl
@[simp] theorem State.draw_memory : s.draw.2.memory = s.memory := rfl
@[simp] theorem State.draw_rails : s.draw.2.rails = s.rails := rfl
@[simp] theorem State.draw_cores : s.draw.2.cores = s.cores := rfl
@[simp] theorem State.draw_quays : s.draw.2.quays = s.quays := rfl
@[simp] theorem State.draw_stations : s.draw.2.stations = s.stations := rfl

end Sys2Proof.Machine
end

