-- ==== Sys2Proof/Laws/Memory.lean ====
section
/-! SUPPORT. Laws of the memories: reads after writes, what a write leaves, and that every memory operation keeps the
canonical form. -/

namespace Sys2Proof.Machine

open Sys2Proof.Safety

variable (s : State)

@[simp] theorem State.rb_wb_same (a : Nat) (b : Byte) : (s.wb a b).rb a = b := by simp [State.rb, State.wb]

theorem State.rb_wb_ne (a c : Nat) (b : Byte) (h : a ≠ c) : (s.wb a b).rb c = s.rb c := by
  unfold State.rb State.wb
  exact AMap.get_set_ne _ _ _ _ _ _ h

/-- A byte is read from the memories alone. -/
theorem State.rb_congr {s t : State} (h : t.mem = s.mem) (a : Nat) : t.rb a = s.rb a := by unfold State.rb; rw [h]

theorem State.rbs_congr {s t : State} (h : t.mem = s.mem) (n : Nat) : ∀ a, t.rbs a n = s.rbs a n := by
  induction n with
  | zero => intro a; rfl
  | succ n ih => intro a; simp only [State.rbs, State.rb_congr h, ih]

/-- A run of bytes writes the memories alone. -/
theorem State.wbs_eq (l : List Byte) : ∀ (s : State) (a : Nat), s.wbs a l = { s with mem := (s.wbs a l).mem } := by
  induction l with
  | nil => intro s a; rfl
  | cons b t ih => intro s a; simp only [State.wbs]; rw [ih (s.wb a b) (a + 1)]; rfl

@[simp] theorem State.wbs_regs (a : Nat) (l : List Byte) : (s.wbs a l).regs = s.regs := by rw [State.wbs_eq]
@[simp] theorem State.wbs_cores (a : Nat) (l : List Byte) : (s.wbs a l).cores = s.cores := by rw [State.wbs_eq]
@[simp] theorem State.wbs_pending (a : Nat) (l : List Byte) : (s.wbs a l).pending = s.pending := by rw [State.wbs_eq]
@[simp] theorem State.wle_regs (a n v : Nat) : (s.wle a n v).regs = s.regs := s.wbs_regs _ _
@[simp] theorem State.wle_cores (a n v : Nat) : (s.wle a n v).cores = s.cores := s.wbs_cores _ _
@[simp] theorem State.wle_pending (a n v : Nat) : (s.wle a n v).pending = s.pending := s.wbs_pending _ _

/-- Bytes outside a run written read as before. -/
theorem State.rb_wbs_out (l : List Byte) : ∀ (s : State) (a c : Nat), (c < a ∨ a + l.length ≤ c) →
    (s.wbs a l).rb c = s.rb c := by
  induction l with
  | nil => intro s a c _; rfl
  | cons b t ih =>
    intro s a c h
    simp only [List.length_cons] at h
    simp only [State.wbs]
    rw [ih _ _ _ (by omega), s.rb_wb_ne _ _ _ (by omega)]

/-- The bytes of a run read as they were written. -/
theorem State.rb_wbs_in (l : List Byte) : ∀ (s : State) (a k : Nat) (h : k < l.length), (s.wbs a l).rb (a + k) = l[k] := by
  induction l with
  | nil => intro s a k h; exact absurd h (by simp)
  | cons b t ih =>
    intro s a k h
    simp only [State.wbs]
    cases k with
    | zero => rw [State.rb_wbs_out t _ _ _ (by omega)]; simp
    | succ k =>
      have := ih (s.wb a b) (a + 1) k (by simpa using h)
      rw [show a + (k + 1) = a + 1 + k by omega, this]; rfl

theorem State.rbs_wbs_same (l : List Byte) : ∀ (s : State) (a : Nat), (s.wbs a l).rbs a l.length = l := by
  induction l with
  | nil => intro s a; rfl
  | cons b t ih =>
    intro s a
    simp only [List.length_cons, State.rbs, State.wbs, ih]
    rw [State.rb_wbs_out t _ _ _ (by omega)]; simp

/-- A run written changes no other byte. -/
theorem sameBytesBut_wbs (a : Nat) (l : List Byte) : sameBytesBut a l.length s (s.wbs a l) :=
  fun c h => State.rb_wbs_out l s a c h

theorem sameBytesBut_wle (a n v : Nat) (h : (leBytes n v).length = n) : sameBytesBut a n s (s.wle a n v) := by
  have := sameBytesBut_wbs s a (leBytes n v)
  rwa [h] at this

/-! ## The canonical form -/

theorem MemOk.of_mem {s t : State} (h : MemOk s) (e : t.mem = s.mem) : MemOk t := by unfold MemOk; rw [e]; exact h

theorem MemOk.wb {s : State} (h : MemOk s) (a : Nat) (b : Byte) : MemOk (s.wb a b) := AMap.canon_set _ _ _ _ h

theorem MemOk.wbs (l : List Byte) : ∀ {s : State} (_ : MemOk s) (a : Nat), MemOk (s.wbs a l) := by
  induction l with
  | nil => intro s h a; exact h
  | cons b t ih => intro s h a; exact ih (MemOk.wb h a b) (a + 1)

theorem MemOk.wle {s : State} (h : MemOk s) (a n v : Nat) : MemOk (s.wle a n v) := MemOk.wbs _ h a

/-- Keeping only some bytes keeps the form. -/
theorem MemOk.filter {s : State} (h : MemOk s) (f : Host.Cell → Bool) : MemOk { s with mem := s.mem.filter f } :=
  AMap.canon_filter _ f _ h

/-- A fold of operations that keep the form keeps it. -/
theorem MemOk.foldl {β : Type} (f : State → β → State) (hf : ∀ s x, MemOk s → MemOk (f s x)) (l : List β) :
    ∀ {s : State}, MemOk s → MemOk (l.foldl f s) := by
  induction l with
  | nil => intro s h; exact h
  | cons x t ih => intro s h; exact ih (hf s x h)

/-- A fold of operations that leave a part of the State alone leaves it alone. -/
theorem foldl_keep {β γ : Type} (f : State → β → State) (g : State → γ) (hf : ∀ s x, g (f s x) = g s) (l : List β) :
    ∀ s : State, g (l.foldl f s) = g s := by
  induction l with
  | nil => intro s; rfl
  | cons x t ih => intro s; rw [List.foldl_cons, ih, hf]

end Sys2Proof.Machine
end

