-- ==== Sys2Proof/Laws/Regs.lean ====
section
/-! SUPPORT. Laws of register fields: what a field reads as after a field is written. -/

namespace Sys2Proof.Machine

variable (s : State)

/-- No field reads more than its width. -/
theorem State.g_lt (f : Fld) (d : Nat) : s.g f d < 2 ^ f.w := Nat.mod_lt _ (Nat.two_pow_pos _)

/-- A field reads the bits just written to it. -/
@[simp] theorem State.g_p_same (f : Fld) (d v : Nat) : (s.p f d v).g f d = v % 2 ^ f.w := by
  simp [State.g, State.p]

/-- Another field reads as before. -/
theorem State.g_p_ne (f e : Fld) (d d' v : Nat) (h : f.key d ≠ e.key d') : (s.p f d v).g e d' = s.g e d' := by
  unfold State.g State.p
  exact congrArg (· % 2 ^ e.w) (AMap.get_set_ne f.rst e.rst s.regs (f.key d) (e.key d') _ h)

theorem State.on_p_ne (f e : Fld) (d d' v : Nat) (h : f.key d ≠ e.key d') : (s.p f d v).on e d' = s.on e d' := by
  unfold State.on; rw [s.g_p_ne f e d d' v h]

@[simp] theorem State.on_p_one (f : Fld) (d : Nat) (h : 0 < f.w) : (s.p f d 1).on f d = true := by
  unfold State.on; rw [s.g_p_same, Nat.mod_eq_of_lt (Nat.one_lt_two_pow h.ne')]; rfl

@[simp] theorem State.on_p_zero (f : Fld) (d : Nat) : (s.p f d 0).on f d = false := by
  unfold State.on; rw [s.g_p_same, Nat.zero_mod]; rfl

@[simp] theorem State.g_inc (f : Fld) (d : Nat) : (s.inc f d).g f d = (s.g f d + 1) % 2 ^ f.w := s.g_p_same f d _

theorem State.g_inc_ne (f e : Fld) (d d' : Nat) (h : f.key d ≠ e.key d') : (s.inc f d).g e d' = s.g e d' :=
  s.g_p_ne f e d d' _ h

/-- A saturating count reads one more, up to the field's largest value. -/
@[simp] theorem State.g_addSat (f : Fld) (d n : Nat) : (s.addSat f d n).g f d = min (s.g f d + n) (2 ^ f.w - 1) := by
  have : 0 < 2 ^ f.w := Nat.two_pow_pos _
  unfold State.addSat satAdd
  rw [s.g_p_same, Nat.mod_eq_of_lt]
  exact lt_of_le_of_lt (min_le_right _ _) (Nat.sub_lt this one_pos)

@[simp] theorem State.g_incSat (f : Fld) (d : Nat) : (s.incSat f d).g f d = min (s.g f d + 1) (2 ^ f.w - 1) :=
  s.g_addSat f d 1

theorem State.g_incSat_ne (f e : Fld) (d d' : Nat) (h : f.key d ≠ e.key d') : (s.incSat f d).g e d' = s.g e d' :=
  s.g_p_ne f e d d' _ h

/-- A field is read from the registers alone. -/
theorem State.g_congr {s t : State} (h : t.regs = s.regs) (f : Fld) (d : Nat) : t.g f d = s.g f d := by
  unfold State.g; rw [h]

@[simp] theorem State.g_wb (a : Nat) (b : Byte) (f : Fld) (d : Nat) : (s.wb a b).g f d = s.g f d := rfl
@[simp] theorem State.g_answer (ok : Bool) (v : Nat) (f : Fld) (d : Nat) : (s.answer ok v).g f d = s.g f d := rfl
@[simp] theorem State.g_emit (o : Out) (f : Fld) (d : Nat) : (s.emit o).g f d = s.g f d := rfl
@[simp] theorem State.g_setCore (c : Nat) (x : Core) (f : Fld) (d : Nat) : (s.setCore c x).g f d = s.g f d := rfl
@[simp] theorem State.g_setQuay (q : Nat) (x : QuaySt) (f : Fld) (d : Nat) : (s.setQuay q x).g f d = s.g f d := rfl

/-! ## One bit of a field -/

theorem State.setBit_eq (f : Fld) (d i : Nat) (b : Bool) :
    s.setBit f d i b = s ∨ ∃ v, s.setBit f d i b = s.p f d v := by
  unfold State.setBit
  dsimp only
  split
  · exact .inl rfl
  · exact .inr ⟨_, rfl⟩

@[simp] theorem State.setBit_mem (f : Fld) (d i : Nat) (b : Bool) : (s.setBit f d i b).mem = s.mem := by
  rcases s.setBit_eq f d i b with h | ⟨v, h⟩ <;> rw [h]; rfl

@[simp] theorem State.setBit_cores (f : Fld) (d i : Nat) (b : Bool) : (s.setBit f d i b).cores = s.cores := by
  rcases s.setBit_eq f d i b with h | ⟨v, h⟩ <;> rw [h]; rfl

@[simp] theorem State.setBit_pending (f : Fld) (d i : Nat) (b : Bool) : (s.setBit f d i b).pending = s.pending := by
  rcases s.setBit_eq f d i b with h | ⟨v, h⟩ <;> rw [h]; rfl

/-- The bit set reads as it was set, within the field. -/
theorem State.testBit_setBit (f : Fld) (d i : Nat) (b : Bool) (hi : i < f.w) :
    ((s.setBit f d i b).g f d).testBit i = b := by
  have hlt := s.g_lt f d
  unfold State.setBit
  dsimp only
  split
  · next h => exact h
  · next h =>
    rw [s.g_p_same, Nat.testBit_mod_two_pow]
    cases b with
    | true =>
      have h0 : (s.g f d).testBit i = false := by simpa using h
      simp [hi, Nat.testBit_two_pow_add_eq, Nat.add_comm, h0]
    | false =>
      have h1 : (s.g f d).testBit i = true := by simpa using h
      have hge : 2 ^ i ≤ s.g f d := Nat.ge_two_pow_of_testBit h1
      have : ((s.g f d - 2 ^ i) + 2 ^ i).testBit i = !(s.g f d - 2 ^ i).testBit i := by
        rw [Nat.add_comm, Nat.testBit_two_pow_add_eq]
      rw [Nat.sub_add_cancel hge, h1] at this
      simp only [hi, decide_true, Bool.true_and, Bool.false_eq_true, if_false]
      cases hb : (s.g f d - 2 ^ i).testBit i with
      | true => rw [hb] at this; exact absurd this (by simp)
      | false => rfl

end Sys2Proof.Machine
end

