-- ==== Sys2Proof/Laws/Ops.lean ====
section
/-! SUPPORT. What the shared operations can do: firing a Mast source, raising a fault, the Logbook's records, progress, the
items of paths. `bare` is a State without the parts that such an operation may write. -/

namespace Sys2Proof.Machine

/-- All of a State but registers, trace, quays, Logbook, reactions and the bits that hardware set in this fabric cycle. -/
def State.bare (s : State) : State :=
  { s with regs := [], outbox := [], quays := [], log := {}, reactions := [], setNow := [] }

section
variable {s t : State}
theorem State.bare_mem (h : t.bare = s.bare) : t.mem = s.mem := by
  have e : t.bare.mem = s.bare.mem := by rw [h]
  exact e
theorem State.bare_cores (h : t.bare = s.bare) : t.cores = s.cores := by
  have e : t.bare.cores = s.bare.cores := by rw [h]
  exact e
theorem State.bare_pending (h : t.bare = s.bare) : t.pending = s.pending := by
  have e : t.bare.pending = s.bare.pending := by rw [h]
  exact e
theorem State.bare_stations (h : t.bare = s.bare) : t.stations = s.stations := by
  have e : t.bare.stations = s.bare.stations := by rw [h]
  exact e
theorem State.bare_ports (h : t.bare = s.bare) : t.ports = s.ports := by
  have e : t.bare.ports = s.bare.ports := by rw [h]
  exact e
theorem State.bare_channels (h : t.bare = s.bare) : t.channels = s.channels := by
  have e : t.bare.channels = s.bare.channels := by rw [h]
  exact e
theorem State.bare_locks (h : t.bare = s.bare) : t.locks = s.locks := by
  have e : t.bare.locks = s.bare.locks := by rw [h]
  exact e
theorem State.bare_resp (h : t.bare = s.bare) : t.resp = s.resp := by
  have e : t.bare.resp = s.bare.resp := by rw [h]
  exact e
theorem State.bare_adm (h : t.bare = s.bare) : t.adm = s.adm := by
  have e : t.bare.adm = s.bare.adm := by rw [h]
  exact e
theorem State.bare_pair (h : t.bare = s.bare) : t.pair = s.pair := by
  have e : t.bare.pair = s.bare.pair := by rw [h]
  exact e
theorem State.bare_fab (h : t.bare = s.bare) : t.fab = s.fab := by
  have e : t.bare.fab = s.bare.fab := by rw [h]
  exact e
theorem State.bare_tide (h : t.bare = s.bare) : t.tide = s.tide := by
  have e : t.bare.tide = s.bare.tide := by rw [h]
  exact e
end

variable (s : State)

theorem State.p_bare (f : Fld) (d v : Nat) : (s.p f d v).bare = s.bare := rfl
theorem State.incSat_bare (f : Fld) (d : Nat) : (s.incSat f d).bare = s.bare := rfl
theorem State.emit_bare (o : Out) : (s.emit o).bare = s.bare := rfl
theorem State.setQuay_bare (q : Nat) (x : QuaySt) : (s.setQuay q x).bare = s.bare := rfl
theorem State.setBit_bare (f : Fld) (d i : Nat) (b : Bool) : (s.setBit f d i b).bare = s.bare := by
  unfold State.setBit; dsimp only; split <;> rfl
theorem State.hw_bare (f : Fld) (d v : Nat) : (s.hw f d v).bare = s.bare := rfl
theorem State.putTime_bare (f : Fld) (d ns : Nat) : (s.putTime f d ns).bare = s.bare := rfl

/-! ## Mast: a source's firing writes registers, quays and the trace -/

theorem State.msixSend_bare (v : Nat) : (s.msixSend v).bare = s.bare := by
  unfold State.msixSend
  split
  · exact s.setBit_bare ..
  · rfl
theorem State.hostDeliver_bare (src : Nat) : (s.hostDeliver src).bare = s.bare := by
  unfold State.hostDeliver
  split
  · exact s.msixSend_bare _
  · rfl
theorem State.eventRelease_bare (q e : Nat) : (s.eventRelease q e).bare = s.bare := by
  unfold State.eventRelease
  dsimp only
  split
  · split <;> rfl
  · rfl
theorem State.releaseEvents_bare (src : Nat) : (s.releaseEvents src).bare = s.bare :=
  foldl_keep _ State.bare (fun s i => by dsimp only; split; exacts [s.eventRelease_bare .., rfl]) _ s
theorem State.fireEdge_bare (src : Nat) : (s.fireEdge src).bare = s.bare := by
  unfold State.fireEdge
  rw [State.releaseEvents_bare, State.hostDeliver_bare, State.incSat_bare]
theorem State.setLevel_bare (src : Nat) (b : Bool) : (s.setLevel src b).bare = s.bare := by
  unfold State.setLevel
  dsimp only
  split
  · rfl
  · split
    · rw [State.releaseEvents_bare, State.hostDeliver_bare, State.p_bare]
    · rfl

/-! ## Faults and records -/

theorem State.faultLevel_bare (b : FBlk) : (s.faultLevel b).bare = s.bare := s.setLevel_bare ..
theorem ite_bare {p : Prop} [Decidable p] {x y z : State} (hx : x.bare = z.bare) (hy : y.bare = z.bare) :
    (if p then x else y).bare = z.bare := by
  split
  · exact hx
  · exact hy
theorem State.reactions_bare (x : State) (r : List (Nat × Nat × Bool)) : { x with reactions := r }.bare = x.bare := rfl
theorem State.log_bare (x : State) (l : LogSt) : { x with log := l }.bare = x.bare := rfl
theorem State.capture1_bare (b : FBlk) (fbit : Nat) (acc : Option Access) (detail : Nat) :
    (s.capture1 b fbit acc detail).bare = s.bare := by
  unfold State.capture1
  refine ite_bare rfl ?_
  dsimp only
  rw [State.putTime_bare]
  split <;> simp only [State.p_bare, State.hw_bare]
theorem State.snapFire_bare (fires : Nat → Bool) (arg : Nat) : (s.snapFire fires arg).bare = s.bare := by
  unfold State.snapFire
  refine ite_bare (foldl_keep _ State.bare (fun s d => ?_) _ s) rfl
  exact ite_bare (ite_bare rfl (State.log_bare _ _)) rfl
theorem State.raise_bare (b : FBlk) (fbit : Nat) (acc : Option Access) (detail : Nat) (inj : Bool) :
    (s.raise b fbit acc detail inj).bare = s.bare := by
  have h : ((((s.hw (fsStatus b.F b.width) 0 (2 ^ fbit)).incSat (fsCount b.F) 0).capture1 b fbit acc detail).faultLevel b).bare =
      s.bare := by rw [State.faultLevel_bare, State.capture1_bare, State.incSat_bare, State.hw_bare]
  have g : ∀ x : State, x.bare = s.bare → ∀ r : List (Nat × Nat × Bool),
      (if (x.react b).testBit fbit then { x with reactions := r } else x).bare = s.bare :=
    fun x hx r => ite_bare ((State.reactions_bare x r).trans hx) hx
  unfold State.raise
  refine g _ ?_ _
  exact ite_bare ((State.snapFire_bare _ _ _).trans h) h
theorem State.logFixed_bare (code master p0 p1 p2 p3 : Nat) : (s.logFixed code master p0 p1 p2 p3).bare = s.bare := by
  unfold State.logFixed
  dsimp only
  split
  · split <;> rfl
  · rfl

/-! ## Progress and items -/

theorem State.progStart_bare (r : ProgRegs) (d total : Nat) : (s.progStart r d total).bare = s.bare := rfl
theorem State.progAt_bare (r : ProgRegs) (d pos : Nat) : (s.progAt r d pos).bare = s.bare := rfl
theorem State.progEnd_bare (r : ProgRegs) (d state : Nat) : (s.progEnd r d state).bare = s.bare := by
  unfold State.progEnd
  dsimp only
  split <;> rfl
theorem State.rejectItem_bare (p : Nat) : (s.rejectItem p).bare = s.bare := rfl

/-- An item gone leaves registers and admissions changed, and nothing else. -/
theorem State.itemGone_eq (id : Nat) :
    s.itemGone id = { s with regs := (s.itemGone id).regs, adm := (s.itemGone id).adm } := by
  unfold State.itemGone
  split
  · rfl
  · unfold State.drainCheck
    split <;> rfl

/-- An accepted item adds itself to the admissions under the next identity. -/
theorem State.acceptItem_eq (p : Nat) :
    s.acceptItem p = (s.adm.nextId, { s with regs := (s.acceptItem p).2.regs, adm := (s.acceptItem p).2.adm }) := rfl

/-! ## The parts each leaves alone -/

@[simp] theorem State.setBit_stations (f : Fld) (d i : Nat) (b : Bool) : (s.setBit f d i b).stations = s.stations := State.bare_stations (s.setBit_bare f d i b)
@[simp] theorem State.setBit_ports (f : Fld) (d i : Nat) (b : Bool) : (s.setBit f d i b).ports = s.ports := State.bare_ports (s.setBit_bare f d i b)
@[simp] theorem State.setBit_channels (f : Fld) (d i : Nat) (b : Bool) : (s.setBit f d i b).channels = s.channels := State.bare_channels (s.setBit_bare f d i b)
@[simp] theorem State.setBit_locks (f : Fld) (d i : Nat) (b : Bool) : (s.setBit f d i b).locks = s.locks := State.bare_locks (s.setBit_bare f d i b)
@[simp] theorem State.setBit_resp (f : Fld) (d i : Nat) (b : Bool) : (s.setBit f d i b).resp = s.resp := State.bare_resp (s.setBit_bare f d i b)
@[simp] theorem State.setBit_adm (f : Fld) (d i : Nat) (b : Bool) : (s.setBit f d i b).adm = s.adm := State.bare_adm (s.setBit_bare f d i b)
@[simp] theorem State.setBit_pair (f : Fld) (d i : Nat) (b : Bool) : (s.setBit f d i b).pair = s.pair := State.bare_pair (s.setBit_bare f d i b)
@[simp] theorem State.setBit_fab (f : Fld) (d i : Nat) (b : Bool) : (s.setBit f d i b).fab = s.fab := State.bare_fab (s.setBit_bare f d i b)
@[simp] theorem State.setBit_tide (f : Fld) (d i : Nat) (b : Bool) : (s.setBit f d i b).tide = s.tide := State.bare_tide (s.setBit_bare f d i b)
@[simp] theorem State.msixSend_mem (v : Nat) : (s.msixSend v).mem = s.mem := State.bare_mem (s.msixSend_bare v)
@[simp] theorem State.msixSend_cores (v : Nat) : (s.msixSend v).cores = s.cores := State.bare_cores (s.msixSend_bare v)
@[simp] theorem State.msixSend_pending (v : Nat) : (s.msixSend v).pending = s.pending := State.bare_pending (s.msixSend_bare v)
@[simp] theorem State.msixSend_stations (v : Nat) : (s.msixSend v).stations = s.stations := State.bare_stations (s.msixSend_bare v)
@[simp] theorem State.msixSend_ports (v : Nat) : (s.msixSend v).ports = s.ports := State.bare_ports (s.msixSend_bare v)
@[simp] theorem State.msixSend_channels (v : Nat) : (s.msixSend v).channels = s.channels := State.bare_channels (s.msixSend_bare v)
@[simp] theorem State.msixSend_locks (v : Nat) : (s.msixSend v).locks = s.locks := State.bare_locks (s.msixSend_bare v)
@[simp] theorem State.msixSend_resp (v : Nat) : (s.msixSend v).resp = s.resp := State.bare_resp (s.msixSend_bare v)
@[simp] theorem State.msixSend_adm (v : Nat) : (s.msixSend v).adm = s.adm := State.bare_adm (s.msixSend_bare v)
@[simp] theorem State.msixSend_pair (v : Nat) : (s.msixSend v).pair = s.pair := State.bare_pair (s.msixSend_bare v)
@[simp] theorem State.msixSend_fab (v : Nat) : (s.msixSend v).fab = s.fab := State.bare_fab (s.msixSend_bare v)
@[simp] theorem State.msixSend_tide (v : Nat) : (s.msixSend v).tide = s.tide := State.bare_tide (s.msixSend_bare v)
@[simp] theorem State.hostDeliver_mem (n : Nat) : (s.hostDeliver n).mem = s.mem := State.bare_mem (s.hostDeliver_bare n)
@[simp] theorem State.hostDeliver_cores (n : Nat) : (s.hostDeliver n).cores = s.cores := State.bare_cores (s.hostDeliver_bare n)
@[simp] theorem State.hostDeliver_pending (n : Nat) : (s.hostDeliver n).pending = s.pending := State.bare_pending (s.hostDeliver_bare n)
@[simp] theorem State.hostDeliver_stations (n : Nat) : (s.hostDeliver n).stations = s.stations := State.bare_stations (s.hostDeliver_bare n)
@[simp] theorem State.hostDeliver_ports (n : Nat) : (s.hostDeliver n).ports = s.ports := State.bare_ports (s.hostDeliver_bare n)
@[simp] theorem State.hostDeliver_channels (n : Nat) : (s.hostDeliver n).channels = s.channels := State.bare_channels (s.hostDeliver_bare n)
@[simp] theorem State.hostDeliver_locks (n : Nat) : (s.hostDeliver n).locks = s.locks := State.bare_locks (s.hostDeliver_bare n)
@[simp] theorem State.hostDeliver_resp (n : Nat) : (s.hostDeliver n).resp = s.resp := State.bare_resp (s.hostDeliver_bare n)
@[simp] theorem State.hostDeliver_adm (n : Nat) : (s.hostDeliver n).adm = s.adm := State.bare_adm (s.hostDeliver_bare n)
@[simp] theorem State.hostDeliver_pair (n : Nat) : (s.hostDeliver n).pair = s.pair := State.bare_pair (s.hostDeliver_bare n)
@[simp] theorem State.hostDeliver_fab (n : Nat) : (s.hostDeliver n).fab = s.fab := State.bare_fab (s.hostDeliver_bare n)
@[simp] theorem State.hostDeliver_tide (n : Nat) : (s.hostDeliver n).tide = s.tide := State.bare_tide (s.hostDeliver_bare n)
@[simp] theorem State.eventRelease_mem (q e : Nat) : (s.eventRelease q e).mem = s.mem := State.bare_mem (s.eventRelease_bare q e)
@[simp] theorem State.eventRelease_cores (q e : Nat) : (s.eventRelease q e).cores = s.cores := State.bare_cores (s.eventRelease_bare q e)
@[simp] theorem State.eventRelease_pending (q e : Nat) : (s.eventRelease q e).pending = s.pending := State.bare_pending (s.eventRelease_bare q e)
@[simp] theorem State.eventRelease_stations (q e : Nat) : (s.eventRelease q e).stations = s.stations := State.bare_stations (s.eventRelease_bare q e)
@[simp] theorem State.eventRelease_ports (q e : Nat) : (s.eventRelease q e).ports = s.ports := State.bare_ports (s.eventRelease_bare q e)
@[simp] theorem State.eventRelease_channels (q e : Nat) : (s.eventRelease q e).channels = s.channels := State.bare_channels (s.eventRelease_bare q e)
@[simp] theorem State.eventRelease_locks (q e : Nat) : (s.eventRelease q e).locks = s.locks := State.bare_locks (s.eventRelease_bare q e)
@[simp] theorem State.eventRelease_resp (q e : Nat) : (s.eventRelease q e).resp = s.resp := State.bare_resp (s.eventRelease_bare q e)
@[simp] theorem State.eventRelease_adm (q e : Nat) : (s.eventRelease q e).adm = s.adm := State.bare_adm (s.eventRelease_bare q e)
@[simp] theorem State.eventRelease_pair (q e : Nat) : (s.eventRelease q e).pair = s.pair := State.bare_pair (s.eventRelease_bare q e)
@[simp] theorem State.eventRelease_fab (q e : Nat) : (s.eventRelease q e).fab = s.fab := State.bare_fab (s.eventRelease_bare q e)
@[simp] theorem State.eventRelease_tide (q e : Nat) : (s.eventRelease q e).tide = s.tide := State.bare_tide (s.eventRelease_bare q e)
@[simp] theorem State.releaseEvents_mem (n : Nat) : (s.releaseEvents n).mem = s.mem := State.bare_mem (s.releaseEvents_bare n)
@[simp] theorem State.releaseEvents_cores (n : Nat) : (s.releaseEvents n).cores = s.cores := State.bare_cores (s.releaseEvents_bare n)
@[simp] theorem State.releaseEvents_pending (n : Nat) : (s.releaseEvents n).pending = s.pending := State.bare_pending (s.releaseEvents_bare n)
@[simp] theorem State.releaseEvents_stations (n : Nat) : (s.releaseEvents n).stations = s.stations := State.bare_stations (s.releaseEvents_bare n)
@[simp] theorem State.releaseEvents_ports (n : Nat) : (s.releaseEvents n).ports = s.ports := State.bare_ports (s.releaseEvents_bare n)
@[simp] theorem State.releaseEvents_channels (n : Nat) : (s.releaseEvents n).channels = s.channels := State.bare_channels (s.releaseEvents_bare n)
@[simp] theorem State.releaseEvents_locks (n : Nat) : (s.releaseEvents n).locks = s.locks := State.bare_locks (s.releaseEvents_bare n)
@[simp] theorem State.releaseEvents_resp (n : Nat) : (s.releaseEvents n).resp = s.resp := State.bare_resp (s.releaseEvents_bare n)
@[simp] theorem State.releaseEvents_adm (n : Nat) : (s.releaseEvents n).adm = s.adm := State.bare_adm (s.releaseEvents_bare n)
@[simp] theorem State.releaseEvents_pair (n : Nat) : (s.releaseEvents n).pair = s.pair := State.bare_pair (s.releaseEvents_bare n)
@[simp] theorem State.releaseEvents_fab (n : Nat) : (s.releaseEvents n).fab = s.fab := State.bare_fab (s.releaseEvents_bare n)
@[simp] theorem State.releaseEvents_tide (n : Nat) : (s.releaseEvents n).tide = s.tide := State.bare_tide (s.releaseEvents_bare n)
@[simp] theorem State.fireEdge_mem (n : Nat) : (s.fireEdge n).mem = s.mem := State.bare_mem (s.fireEdge_bare n)
@[simp] theorem State.fireEdge_cores (n : Nat) : (s.fireEdge n).cores = s.cores := State.bare_cores (s.fireEdge_bare n)
@[simp] theorem State.fireEdge_pending (n : Nat) : (s.fireEdge n).pending = s.pending := State.bare_pending (s.fireEdge_bare n)
@[simp] theorem State.fireEdge_stations (n : Nat) : (s.fireEdge n).stations = s.stations := State.bare_stations (s.fireEdge_bare n)
@[simp] theorem State.fireEdge_ports (n : Nat) : (s.fireEdge n).ports = s.ports := State.bare_ports (s.fireEdge_bare n)
@[simp] theorem State.fireEdge_channels (n : Nat) : (s.fireEdge n).channels = s.channels := State.bare_channels (s.fireEdge_bare n)
@[simp] theorem State.fireEdge_locks (n : Nat) : (s.fireEdge n).locks = s.locks := State.bare_locks (s.fireEdge_bare n)
@[simp] theorem State.fireEdge_resp (n : Nat) : (s.fireEdge n).resp = s.resp := State.bare_resp (s.fireEdge_bare n)
@[simp] theorem State.fireEdge_adm (n : Nat) : (s.fireEdge n).adm = s.adm := State.bare_adm (s.fireEdge_bare n)
@[simp] theorem State.fireEdge_pair (n : Nat) : (s.fireEdge n).pair = s.pair := State.bare_pair (s.fireEdge_bare n)
@[simp] theorem State.fireEdge_fab (n : Nat) : (s.fireEdge n).fab = s.fab := State.bare_fab (s.fireEdge_bare n)
@[simp] theorem State.fireEdge_tide (n : Nat) : (s.fireEdge n).tide = s.tide := State.bare_tide (s.fireEdge_bare n)
@[simp] theorem State.setLevel_mem (n : Nat) (b : Bool) : (s.setLevel n b).mem = s.mem := State.bare_mem (s.setLevel_bare n b)
@[simp] theorem State.setLevel_cores (n : Nat) (b : Bool) : (s.setLevel n b).cores = s.cores := State.bare_cores (s.setLevel_bare n b)
@[simp] theorem State.setLevel_pending (n : Nat) (b : Bool) : (s.setLevel n b).pending = s.pending := State.bare_pending (s.setLevel_bare n b)
@[simp] theorem State.setLevel_stations (n : Nat) (b : Bool) : (s.setLevel n b).stations = s.stations := State.bare_stations (s.setLevel_bare n b)
@[simp] theorem State.setLevel_ports (n : Nat) (b : Bool) : (s.setLevel n b).ports = s.ports := State.bare_ports (s.setLevel_bare n b)
@[simp] theorem State.setLevel_channels (n : Nat) (b : Bool) : (s.setLevel n b).channels = s.channels := State.bare_channels (s.setLevel_bare n b)
@[simp] theorem State.setLevel_locks (n : Nat) (b : Bool) : (s.setLevel n b).locks = s.locks := State.bare_locks (s.setLevel_bare n b)
@[simp] theorem State.setLevel_resp (n : Nat) (b : Bool) : (s.setLevel n b).resp = s.resp := State.bare_resp (s.setLevel_bare n b)
@[simp] theorem State.setLevel_adm (n : Nat) (b : Bool) : (s.setLevel n b).adm = s.adm := State.bare_adm (s.setLevel_bare n b)
@[simp] theorem State.setLevel_pair (n : Nat) (b : Bool) : (s.setLevel n b).pair = s.pair := State.bare_pair (s.setLevel_bare n b)
@[simp] theorem State.setLevel_fab (n : Nat) (b : Bool) : (s.setLevel n b).fab = s.fab := State.bare_fab (s.setLevel_bare n b)
@[simp] theorem State.setLevel_tide (n : Nat) (b : Bool) : (s.setLevel n b).tide = s.tide := State.bare_tide (s.setLevel_bare n b)
@[simp] theorem State.faultLevel_mem (b : FBlk) : (s.faultLevel b).mem = s.mem := State.bare_mem (s.faultLevel_bare b)
@[simp] theorem State.faultLevel_cores (b : FBlk) : (s.faultLevel b).cores = s.cores := State.bare_cores (s.faultLevel_bare b)
@[simp] theorem State.faultLevel_pending (b : FBlk) : (s.faultLevel b).pending = s.pending := State.bare_pending (s.faultLevel_bare b)
@[simp] theorem State.faultLevel_stations (b : FBlk) : (s.faultLevel b).stations = s.stations := State.bare_stations (s.faultLevel_bare b)
@[simp] theorem State.faultLevel_ports (b : FBlk) : (s.faultLevel b).ports = s.ports := State.bare_ports (s.faultLevel_bare b)
@[simp] theorem State.faultLevel_channels (b : FBlk) : (s.faultLevel b).channels = s.channels := State.bare_channels (s.faultLevel_bare b)
@[simp] theorem State.faultLevel_locks (b : FBlk) : (s.faultLevel b).locks = s.locks := State.bare_locks (s.faultLevel_bare b)
@[simp] theorem State.faultLevel_resp (b : FBlk) : (s.faultLevel b).resp = s.resp := State.bare_resp (s.faultLevel_bare b)
@[simp] theorem State.faultLevel_adm (b : FBlk) : (s.faultLevel b).adm = s.adm := State.bare_adm (s.faultLevel_bare b)
@[simp] theorem State.faultLevel_pair (b : FBlk) : (s.faultLevel b).pair = s.pair := State.bare_pair (s.faultLevel_bare b)
@[simp] theorem State.faultLevel_fab (b : FBlk) : (s.faultLevel b).fab = s.fab := State.bare_fab (s.faultLevel_bare b)
@[simp] theorem State.faultLevel_tide (b : FBlk) : (s.faultLevel b).tide = s.tide := State.bare_tide (s.faultLevel_bare b)
@[simp] theorem State.capture1_mem (b : FBlk) (n : Nat) (a : Option Access) (d : Nat) : (s.capture1 b n a d).mem = s.mem := State.bare_mem (s.capture1_bare b n a d)
@[simp] theorem State.capture1_cores (b : FBlk) (n : Nat) (a : Option Access) (d : Nat) : (s.capture1 b n a d).cores = s.cores := State.bare_cores (s.capture1_bare b n a d)
@[simp] theorem State.capture1_pending (b : FBlk) (n : Nat) (a : Option Access) (d : Nat) : (s.capture1 b n a d).pending = s.pending := State.bare_pending (s.capture1_bare b n a d)
@[simp] theorem State.capture1_stations (b : FBlk) (n : Nat) (a : Option Access) (d : Nat) : (s.capture1 b n a d).stations = s.stations := State.bare_stations (s.capture1_bare b n a d)
@[simp] theorem State.capture1_ports (b : FBlk) (n : Nat) (a : Option Access) (d : Nat) : (s.capture1 b n a d).ports = s.ports := State.bare_ports (s.capture1_bare b n a d)
@[simp] theorem State.capture1_channels (b : FBlk) (n : Nat) (a : Option Access) (d : Nat) : (s.capture1 b n a d).channels = s.channels := State.bare_channels (s.capture1_bare b n a d)
@[simp] theorem State.capture1_locks (b : FBlk) (n : Nat) (a : Option Access) (d : Nat) : (s.capture1 b n a d).locks = s.locks := State.bare_locks (s.capture1_bare b n a d)
@[simp] theorem State.capture1_resp (b : FBlk) (n : Nat) (a : Option Access) (d : Nat) : (s.capture1 b n a d).resp = s.resp := State.bare_resp (s.capture1_bare b n a d)
@[simp] theorem State.capture1_adm (b : FBlk) (n : Nat) (a : Option Access) (d : Nat) : (s.capture1 b n a d).adm = s.adm := State.bare_adm (s.capture1_bare b n a d)
@[simp] theorem State.capture1_pair (b : FBlk) (n : Nat) (a : Option Access) (d : Nat) : (s.capture1 b n a d).pair = s.pair := State.bare_pair (s.capture1_bare b n a d)
@[simp] theorem State.capture1_fab (b : FBlk) (n : Nat) (a : Option Access) (d : Nat) : (s.capture1 b n a d).fab = s.fab := State.bare_fab (s.capture1_bare b n a d)
@[simp] theorem State.capture1_tide (b : FBlk) (n : Nat) (a : Option Access) (d : Nat) : (s.capture1 b n a d).tide = s.tide := State.bare_tide (s.capture1_bare b n a d)
@[simp] theorem State.snapFire_mem (f : Nat → Bool) (a : Nat) : (s.snapFire f a).mem = s.mem := State.bare_mem (s.snapFire_bare f a)
@[simp] theorem State.snapFire_cores (f : Nat → Bool) (a : Nat) : (s.snapFire f a).cores = s.cores := State.bare_cores (s.snapFire_bare f a)
@[simp] theorem State.snapFire_pending (f : Nat → Bool) (a : Nat) : (s.snapFire f a).pending = s.pending := State.bare_pending (s.snapFire_bare f a)
@[simp] theorem State.snapFire_stations (f : Nat → Bool) (a : Nat) : (s.snapFire f a).stations = s.stations := State.bare_stations (s.snapFire_bare f a)
@[simp] theorem State.snapFire_ports (f : Nat → Bool) (a : Nat) : (s.snapFire f a).ports = s.ports := State.bare_ports (s.snapFire_bare f a)
@[simp] theorem State.snapFire_channels (f : Nat → Bool) (a : Nat) : (s.snapFire f a).channels = s.channels := State.bare_channels (s.snapFire_bare f a)
@[simp] theorem State.snapFire_locks (f : Nat → Bool) (a : Nat) : (s.snapFire f a).locks = s.locks := State.bare_locks (s.snapFire_bare f a)
@[simp] theorem State.snapFire_resp (f : Nat → Bool) (a : Nat) : (s.snapFire f a).resp = s.resp := State.bare_resp (s.snapFire_bare f a)
@[simp] theorem State.snapFire_adm (f : Nat → Bool) (a : Nat) : (s.snapFire f a).adm = s.adm := State.bare_adm (s.snapFire_bare f a)
@[simp] theorem State.snapFire_pair (f : Nat → Bool) (a : Nat) : (s.snapFire f a).pair = s.pair := State.bare_pair (s.snapFire_bare f a)
@[simp] theorem State.snapFire_fab (f : Nat → Bool) (a : Nat) : (s.snapFire f a).fab = s.fab := State.bare_fab (s.snapFire_bare f a)
@[simp] theorem State.snapFire_tide (f : Nat → Bool) (a : Nat) : (s.snapFire f a).tide = s.tide := State.bare_tide (s.snapFire_bare f a)
@[simp] theorem State.raise_mem (b : FBlk) (n : Nat) (a : Option Access) (d : Nat) (i : Bool) : (s.raise b n a d i).mem = s.mem := State.bare_mem (s.raise_bare b n a d i)
@[simp] theorem State.raise_cores (b : FBlk) (n : Nat) (a : Option Access) (d : Nat) (i : Bool) : (s.raise b n a d i).cores = s.cores := State.bare_cores (s.raise_bare b n a d i)
@[simp] theorem State.raise_pending (b : FBlk) (n : Nat) (a : Option Access) (d : Nat) (i : Bool) : (s.raise b n a d i).pending = s.pending := State.bare_pending (s.raise_bare b n a d i)
@[simp] theorem State.raise_stations (b : FBlk) (n : Nat) (a : Option Access) (d : Nat) (i : Bool) : (s.raise b n a d i).stations = s.stations := State.bare_stations (s.raise_bare b n a d i)
@[simp] theorem State.raise_ports (b : FBlk) (n : Nat) (a : Option Access) (d : Nat) (i : Bool) : (s.raise b n a d i).ports = s.ports := State.bare_ports (s.raise_bare b n a d i)
@[simp] theorem State.raise_channels (b : FBlk) (n : Nat) (a : Option Access) (d : Nat) (i : Bool) : (s.raise b n a d i).channels = s.channels := State.bare_channels (s.raise_bare b n a d i)
@[simp] theorem State.raise_locks (b : FBlk) (n : Nat) (a : Option Access) (d : Nat) (i : Bool) : (s.raise b n a d i).locks = s.locks := State.bare_locks (s.raise_bare b n a d i)
@[simp] theorem State.raise_resp (b : FBlk) (n : Nat) (a : Option Access) (d : Nat) (i : Bool) : (s.raise b n a d i).resp = s.resp := State.bare_resp (s.raise_bare b n a d i)
@[simp] theorem State.raise_adm (b : FBlk) (n : Nat) (a : Option Access) (d : Nat) (i : Bool) : (s.raise b n a d i).adm = s.adm := State.bare_adm (s.raise_bare b n a d i)
@[simp] theorem State.raise_pair (b : FBlk) (n : Nat) (a : Option Access) (d : Nat) (i : Bool) : (s.raise b n a d i).pair = s.pair := State.bare_pair (s.raise_bare b n a d i)
@[simp] theorem State.raise_fab (b : FBlk) (n : Nat) (a : Option Access) (d : Nat) (i : Bool) : (s.raise b n a d i).fab = s.fab := State.bare_fab (s.raise_bare b n a d i)
@[simp] theorem State.raise_tide (b : FBlk) (n : Nat) (a : Option Access) (d : Nat) (i : Bool) : (s.raise b n a d i).tide = s.tide := State.bare_tide (s.raise_bare b n a d i)
@[simp] theorem State.logFixed_mem (c m a b e f : Nat) : (s.logFixed c m a b e f).mem = s.mem := State.bare_mem (s.logFixed_bare c m a b e f)
@[simp] theorem State.logFixed_cores (c m a b e f : Nat) : (s.logFixed c m a b e f).cores = s.cores := State.bare_cores (s.logFixed_bare c m a b e f)
@[simp] theorem State.logFixed_pending (c m a b e f : Nat) : (s.logFixed c m a b e f).pending = s.pending := State.bare_pending (s.logFixed_bare c m a b e f)
@[simp] theorem State.logFixed_stations (c m a b e f : Nat) : (s.logFixed c m a b e f).stations = s.stations := State.bare_stations (s.logFixed_bare c m a b e f)
@[simp] theorem State.logFixed_ports (c m a b e f : Nat) : (s.logFixed c m a b e f).ports = s.ports := State.bare_ports (s.logFixed_bare c m a b e f)
@[simp] theorem State.logFixed_channels (c m a b e f : Nat) : (s.logFixed c m a b e f).channels = s.channels := State.bare_channels (s.logFixed_bare c m a b e f)
@[simp] theorem State.logFixed_locks (c m a b e f : Nat) : (s.logFixed c m a b e f).locks = s.locks := State.bare_locks (s.logFixed_bare c m a b e f)
@[simp] theorem State.logFixed_resp (c m a b e f : Nat) : (s.logFixed c m a b e f).resp = s.resp := State.bare_resp (s.logFixed_bare c m a b e f)
@[simp] theorem State.logFixed_adm (c m a b e f : Nat) : (s.logFixed c m a b e f).adm = s.adm := State.bare_adm (s.logFixed_bare c m a b e f)
@[simp] theorem State.logFixed_pair (c m a b e f : Nat) : (s.logFixed c m a b e f).pair = s.pair := State.bare_pair (s.logFixed_bare c m a b e f)
@[simp] theorem State.logFixed_fab (c m a b e f : Nat) : (s.logFixed c m a b e f).fab = s.fab := State.bare_fab (s.logFixed_bare c m a b e f)
@[simp] theorem State.logFixed_tide (c m a b e f : Nat) : (s.logFixed c m a b e f).tide = s.tide := State.bare_tide (s.logFixed_bare c m a b e f)
@[simp] theorem State.progEnd_mem (r : ProgRegs) (d v : Nat) : (s.progEnd r d v).mem = s.mem := State.bare_mem (s.progEnd_bare r d v)
@[simp] theorem State.progEnd_cores (r : ProgRegs) (d v : Nat) : (s.progEnd r d v).cores = s.cores := State.bare_cores (s.progEnd_bare r d v)
@[simp] theorem State.progEnd_pending (r : ProgRegs) (d v : Nat) : (s.progEnd r d v).pending = s.pending := State.bare_pending (s.progEnd_bare r d v)
@[simp] theorem State.progEnd_stations (r : ProgRegs) (d v : Nat) : (s.progEnd r d v).stations = s.stations := State.bare_stations (s.progEnd_bare r d v)
@[simp] theorem State.progEnd_ports (r : ProgRegs) (d v : Nat) : (s.progEnd r d v).ports = s.ports := State.bare_ports (s.progEnd_bare r d v)
@[simp] theorem State.progEnd_channels (r : ProgRegs) (d v : Nat) : (s.progEnd r d v).channels = s.channels := State.bare_channels (s.progEnd_bare r d v)
@[simp] theorem State.progEnd_locks (r : ProgRegs) (d v : Nat) : (s.progEnd r d v).locks = s.locks := State.bare_locks (s.progEnd_bare r d v)
@[simp] theorem State.progEnd_resp (r : ProgRegs) (d v : Nat) : (s.progEnd r d v).resp = s.resp := State.bare_resp (s.progEnd_bare r d v)
@[simp] theorem State.progEnd_adm (r : ProgRegs) (d v : Nat) : (s.progEnd r d v).adm = s.adm := State.bare_adm (s.progEnd_bare r d v)
@[simp] theorem State.progEnd_pair (r : ProgRegs) (d v : Nat) : (s.progEnd r d v).pair = s.pair := State.bare_pair (s.progEnd_bare r d v)
@[simp] theorem State.progEnd_fab (r : ProgRegs) (d v : Nat) : (s.progEnd r d v).fab = s.fab := State.bare_fab (s.progEnd_bare r d v)
@[simp] theorem State.progEnd_tide (r : ProgRegs) (d v : Nat) : (s.progEnd r d v).tide = s.tide := State.bare_tide (s.progEnd_bare r d v)

end Sys2Proof.Machine
end

