-- ==== Sys2Proof/Laws/Core.lean ====
section
/-! SUPPORT. What the operations of a core can do: an exception taken, an instruction retired or failed, and the frame of the
register-only instructions. None touches another core, the device's other engines or the queue; memory changes only by the
frame that an exception pushes. -/

namespace Sys2Proof.Machine

variable (s : State)

@[simp] theorem State.core_setCore_same (c : Nat) (k : Core) : (s.setCore c k).core c = k := AMap.get_set_same ..
theorem State.core_setCore_ne (c d : Nat) (k : Core) (h : c ≠ d) : (s.setCore c k).core d = s.core d := AMap.get_set_ne _ _ _ _ _ _ h

/-- What a step of core `c` leaves alone: the other cores, the queue, and the form of memory. -/
def OnlyCore (c : Nat) (s t : State) : Prop :=
  (∀ d, d ≠ c → t.core d = s.core d) ∧ t.pending = s.pending ∧ (Safety.MemOk s → Safety.MemOk t)

section
variable {s} {t u : State} {c : Nat}

theorem OnlyCore.refl : OnlyCore c s s := ⟨fun _ _ => rfl, rfl, id⟩
theorem OnlyCore.trans (h : OnlyCore c s t) (g : OnlyCore c t u) : OnlyCore c s u :=
  ⟨fun d hd => (g.1 d hd).trans (h.1 d hd), g.2.1.trans h.2.1, fun m => g.2.2 (h.2.2 m)⟩
/-- A State that has the same cores, queue and memory. -/
theorem OnlyCore.of_same (hc : t.cores = s.cores) (hp : t.pending = s.pending) (hm : t.mem = s.mem) : OnlyCore c s t :=
  ⟨fun d _ => by unfold State.core; rw [hc], hp, fun m => MemOk.of_mem m hm⟩
end

theorem onlyCore_setCore (c : Nat) (k : Core) : OnlyCore c s (s.setCore c k) :=
  ⟨fun d h => s.core_setCore_ne c d k (Ne.symm h), rfl, fun m => MemOk.of_mem m rfl⟩

theorem onlyCore_ite {p : Prop} [Decidable p] {c : Nat} {s t u : State} (h : OnlyCore c s t) (g : OnlyCore c s u) :
    OnlyCore c s (if p then t else u) := by
  split
  · exact h
  · exact g

/-- A fault raised has no part in cores, queue or memory. -/
theorem onlyCore_raise (c : Nat) (b : FBlk) (n : Nat) (a : Option Access) (d : Nat) : OnlyCore c s (s.raise b n a d) :=
  OnlyCore.of_same (s.raise_cores b n a d false) (s.raise_pending b n a d false) (s.raise_mem b n a d false)

theorem onlyCore_haltCore (c cause : Nat) : OnlyCore c s (s.haltCore c cause) :=
  (onlyCore_setCore s c _).trans (onlyCore_raise _ _ _ _ _ _)

theorem onlyCore_markDirty (c q line : Nat) : OnlyCore c s (s.markDirty q line) := by
  unfold State.markDirty
  exact onlyCore_ite (onlyCore_ite OnlyCore.refl (OnlyCore.of_same rfl rfl rfl)) OnlyCore.refl

/-- A store to a quay's SRAMs touches no core. -/
theorem onlyCore_lwbs (c q line key : Nat) (bs : List Byte) : OnlyCore c s (s.lwbs q line key bs) := by
  unfold State.lwbs
  refine onlyCore_ite (OnlyCore.of_same rfl rfl rfl) (OnlyCore.trans (t := s.wbs key bs) ?_
    (OnlyCore.trans (OnlyCore.of_same rfl rfl rfl) (onlyCore_markDirty _ _ _ _)))
  exact ⟨fun d _ => by unfold State.core; rw [State.wbs_cores], State.wbs_pending s key bs, fun m => MemOk.wbs bs m key⟩

theorem onlyCore_pushFrame (c : Nat) (ret : BitVec 17) (vector : Nat) : OnlyCore c s (s.pushFrame c ret vector) :=
  (onlyCore_lwbs s c _ _ _ _).trans (onlyCore_setCore _ c _)

/-- An exception taken (R127 to R133). -/
theorem onlyCore_takeExc (c : Nat) (e : Exc) (xpc : BitVec 17) (code : Nat) (imp : Bool) :
    OnlyCore c s (s.takeExc c e xpc code imp) := by
  unfold State.takeExc
  refine onlyCore_ite ?_ (onlyCore_ite ?_ ?_)
  · exact (onlyCore_setCore s c _).trans (onlyCore_haltCore _ c 1)
  · exact (onlyCore_setCore s c _).trans (onlyCore_haltCore _ c 2)
  · exact ((onlyCore_setCore s c _).trans (onlyCore_pushFrame _ c _ _)).trans (onlyCore_setCore _ c _)

/-! ## ECC -/

/-- Errors corrected change counts alone. -/
theorem onlyCore_coreSeen (c d key n : Nat) : OnlyCore c s (s.coreSeen d key n) := by
  unfold State.coreSeen
  exact onlyCore_ite OnlyCore.refl (OnlyCore.of_same rfl rfl rfl)

theorem onlyCore_fetchSeen (c d : Nat) : OnlyCore c s (s.fetchSeen d) := onlyCore_coreSeen s c d _ _

theorem onlyCore_viewSeen (c d n : Nat) (v : View) : OnlyCore c s (s.viewSeen d n v) := by
  unfold State.viewSeen
  split
  · exact onlyCore_coreSeen s c d _ n
  · exact OnlyCore.refl

theorem onlyCore_hw (c : Nat) (f : Fld) (d v : Nat) : OnlyCore c s (s.hw f d v) := OnlyCore.of_same rfl rfl rfl

theorem onlyCore_eccNoted (c d a kind : Nat) : OnlyCore c s (s.eccNoted d a kind) := by
  unfold State.eccNoted
  exact (onlyCore_hw s c _ _ _).trans (onlyCore_raise _ c _ _ _ _)

/-- Where no single-bit error stands, a fetch corrects none. -/
theorem State.fetchSeen_clean (c : Nat) (h : s.eccOne = []) : s.fetchSeen c = s := by
  unfold State.fetchSeen State.coreSeen
  rw [h]; rfl

/-- Where no uncorrectable error stands, every fetch succeeds. -/
theorem State.fetches_clean (c : Nat) (h : s.eccBad = []) : s.fetches c = true := by
  unfold State.fetches State.eccUncorr
  rw [h]; rfl

theorem onlyCore_retire (c : Nat) (k : Core) (next : BitVec 17) (cyc : Nat) (raised : BitVec 7) :
    OnlyCore c s (s.retire c k next cyc raised) := by
  unfold State.retire
  have h := (onlyCore_fetchSeen s c c).trans (onlyCore_setCore _ c
    { k with pc := next, instret := k.instret + 1, cyc := k.cyc + cyc, entering := none })
  refine OnlyCore.trans ?_ (onlyCore_setCore _ c _)
  exact onlyCore_ite (h.trans (onlyCore_takeExc _ c _ _ _ _)) (onlyCore_ite (h.trans (onlyCore_takeExc _ c _ _ _ _)) h)

theorem onlyCore_fail (c : Nat) (e : Exc) : OnlyCore c s (s.fail c e) :=
  (onlyCore_fetchSeen s c c).trans ((onlyCore_ite (onlyCore_eccNoted _ c c _ 1) OnlyCore.refl).trans
    ((onlyCore_takeExc _ c e _ _ _).trans (onlyCore_setCore _ c _)))

/-- An instruction that its core does not execute. -/
theorem onlyCore_unissued (c : Nat) : OnlyCore c s (s.unissued c) := by
  unfold State.unissued
  exact onlyCore_ite ((onlyCore_eccNoted s c c _ 3).trans
    ((onlyCore_takeExc _ c _ _ _ _).trans (onlyCore_setCore _ c _))) OnlyCore.refl

/-- A register-only instruction. -/
theorem onlyCore_simple (c cyc : Nat) (f : Core → Except Exc (Core × BitVec 7)) : OnlyCore c s (s.simple c cyc f) := by
  unfold State.simple
  refine onlyCore_ite ?_ (onlyCore_unissued s c)
  split
  · exact onlyCore_retire s c _ _ _ _
  · exact onlyCore_fail s c _

/-- What a register-only instruction does when its core executes and it meets no exception and no trap: its own registers, the
PC at the next word, counted. -/
theorem simple_ok (c cyc : Nat) (f : Core → Except Exc (Core × BitVec 7)) (r : Core × BitVec 7) (hx : s.executes c = true)
    (hf : f (s.core c) = .ok r) : s.simple c cyc f = s.retire c r.1 ((s.core c).pc + 4) cyc r.2 := by
  unfold State.simple
  rw [if_pos hx, hf]

end Sys2Proof.Machine
end

