-- ==== Sys2Proof/Laws/Crypto.lean ====
section
/-! SUPPORT. AES-256 and its key wrap: decryption undoes encryption, unwrapping undoes wrapping. -/

namespace Sys2Proof.Machine

theorem invSbox_sbox : ∀ x : Byte, invSbox (sbox x) = x := by decide +kernel

theorem xor_left_comm (x y z : Byte) : x ^^^ (y ^^^ z) = y ^^^ (x ^^^ z) := by
  rw [← BitVec.xor_assoc, BitVec.xor_comm x y, BitVec.xor_assoc]

theorem xor_cancel (x y : Byte) : x ^^^ (x ^^^ y) = y := by rw [← BitVec.xor_assoc, BitVec.xor_self, BitVec.zero_xor]

theorem xtime_xor (x y : Byte) : xtime (x ^^^ y) = xtime x ^^^ xtime y := by
  unfold xtime
  rw [BitVec.msb_xor, BitVec.shiftLeft_xor_distrib]
  cases x.msb <;> cases y.msb <;> simp [BitVec.xor_assoc, BitVec.xor_comm, xor_left_comm]

/-- A row of MixColumns: 2a + 3b + c + d. -/
def mixRow (a b c d : Byte) : Byte := xtime a ^^^ (xtime b ^^^ (b ^^^ (c ^^^ d)))

theorem mixCol_rows (a b c d : Byte) :
    mixCol (a, b, c, d) = (mixRow a b c d, mixRow b c d a, mixRow c d a b, mixRow d a b c) := by
  simp only [mixCol, mixRow, BitVec.xor_assoc, BitVec.xor_comm, xor_left_comm]

/-- The four multiples add up, level by level, to the byte itself. -/
theorem invMixRow_mixRow (a b c d : Byte) :
    invMixRow (mixRow a b c d) (mixRow b c d a) (mixRow c d a b) (mixRow d a b c) = a := by
  have h0 : mixRow a b c d ^^^ mixRow b c d a ^^^ mixRow c d a b ^^^ mixRow d a b c = a ^^^ b ^^^ c ^^^ d := by
    simp only [mixRow, BitVec.xor_assoc, BitVec.xor_comm, xor_left_comm, BitVec.xor_self, xor_cancel, BitVec.xor_zero, BitVec.zero_xor]
  have h1 : xtime (a ^^^ b ^^^ c ^^^ d) ^^^ mixRow a b c d ^^^ mixRow c d a b = a ^^^ c := by
    simp only [mixRow, xtime_xor, BitVec.xor_assoc, BitVec.xor_comm, xor_left_comm, BitVec.xor_self, xor_cancel, BitVec.xor_zero,
      BitVec.zero_xor]
  have h2 : xtime (a ^^^ c) ^^^ mixRow a b c d ^^^ mixRow b c d a = a ^^^ b := by
    simp only [mixRow, xtime_xor, BitVec.xor_assoc, BitVec.xor_comm, xor_left_comm, BitVec.xor_self, xor_cancel, BitVec.xor_zero,
      BitVec.zero_xor]
  have h3 : xtime (a ^^^ b) ^^^ mixRow b c d a ^^^ mixRow c d a b ^^^ mixRow d a b c = a := by
    simp only [mixRow, xtime_xor, BitVec.xor_assoc, BitVec.xor_comm, xor_left_comm, BitVec.xor_self, xor_cancel, BitVec.xor_zero,
      BitVec.zero_xor]
  unfold invMixRow
  rw [h0, h1, h2, h3]

theorem invMixCol_mixCol (x : Col) : invMixCol (mixCol x) = x := by
  obtain ⟨a, b, c, d⟩ := x
  rw [mixCol_rows]
  unfold invMixCol
  simp only [invMixRow_mixRow]

theorem colXor_cancel (x y : Col) : colXor x (colXor x y) = y := by
  simp only [colXor, xor_cancel]

theorem halfXor_cancel (x y : Half) : halfXor x (halfXor x y) = y := by
  simp only [halfXor, colXor_cancel]

theorem blkXor_cancel (x y : Blk) : blkXor x (blkXor x y) = y := by
  simp only [blkXor, halfXor_cancel]

theorem halfXor_comm (x y : Half) : halfXor x y = halfXor y x := by
  simp only [halfXor, colXor, BitVec.xor_comm]

theorem invSub_sub (b : Blk) : eachCol (colMap invSbox) (eachCol (colMap sbox) b) = b := by
  simp only [eachCol, colMap, invSbox_sbox]

theorem invMix_mix (b : Blk) : eachCol invMixCol (eachCol mixCol b) = b := by
  simp only [eachCol, invMixCol_mixCol]

theorem invShiftRows_shiftRows (b : Blk) : invShiftRows (shiftRows b) = b := rfl

theorem roundDec_roundEnc (k b : Blk) : roundDec k (roundEnc b k) = b := by
  unfold roundDec roundEnc
  rw [blkXor_cancel, invMix_mix, invShiftRows_shiftRows, invSub_sub]

theorem rounds_undone (mid : List Blk) : ∀ b : Blk, mid.foldr roundDec (mid.foldl roundEnc b) = b := by
  induction mid with
  | nil => intro b; rfl
  | cons k r ih => intro b; simp only [List.foldl_cons, List.foldr_cons, ih, roundDec_roundEnc]

/-- AES-256 decryption undoes encryption. -/
theorem aesDec_aesEnc (key : List Byte) (b : Blk) : aesDec key (aesEnc key b) = b := by
  unfold aesDec aesEnc invCipher cipher
  simp only [blkXor_cancel, invShiftRows_shiftRows, invSub_sub, rounds_undone]

/-- One pass of RFC 3394's wrap, and the six passes. -/
def wrapPass (key : List Byte) : Nat → Half → List Half → Half × List Half
  | _, a, [] => (a, [])
  | t, a, r :: rs =>
    let b := aesEnc key (a, r)
    let x := wrapPass key (t + 1) (halfXor b.1 (halfNat (t + 1))) rs
    (x.1, b.2 :: x.2)

def wrapAll (key : List Byte) : Nat → Half → List Half → Half × List Half
  | 0, a, rs => (a, rs)
  | n + 1, a, rs =>
    let x := wrapAll key n a rs
    wrapPass key (n * rs.length) x.1 x.2

theorem wrapPass_length (key : List Byte) (rs : List Half) : ∀ t a, (wrapPass key t a rs).2.length = rs.length := by
  induction rs with
  | nil => intro t a; rfl
  | cons r rs ih => intro t a; simp [wrapPass, ih]

theorem wrapAll_length (key : List Byte) (n : Nat) (a : Half) (rs : List Half) :
    (wrapAll key n a rs).2.length = rs.length := by
  induction n with
  | zero => rfl
  | succ n ih => simp only [wrapAll, wrapPass_length, ih]

theorem unwrapPass_wrapPass (key : List Byte) (rs : List Half) : ∀ t a,
    unwrapPass key t (wrapPass key t a rs).1 (wrapPass key t a rs).2 = (a, rs) := by
  induction rs with
  | nil => intro t a; rfl
  | cons r rs ih =>
    intro t a
    simp only [wrapPass, unwrapPass, ih]
    rw [halfXor_comm _ (halfNat (t + 1)), halfXor_comm _ (halfNat (t + 1)), halfXor_cancel]
    rw [show ((aesEnc key (a, r)).1, (aesEnc key (a, r)).2) = aesEnc key (a, r) from rfl, aesDec_aesEnc]

theorem unwrapAll_wrapAll (key : List Byte) (n : Nat) (a : Half) (rs : List Half) :
    unwrapAll key n (wrapAll key n a rs).1 (wrapAll key n a rs).2 = (a, rs) := by
  induction n with
  | zero => rfl
  | succ n ih =>
    have hl : (wrapAll key (n + 1) a rs).2.length = rs.length := wrapAll_length key _ a rs
    simp only [unwrapAll, hl]
    simp only [wrapAll, unwrapPass_wrapPass]
    exact ih

/-- The wrapped octets of a key of four halves. -/
def aesWrap4 (key : List Byte) (rs : List Half) : List Byte :=
  let x := wrapAll key 6 wrapIv rs
  halfOctets x.1 ++ x.2.flatMap halfOctets

/-- The first half of octets, and the rest by halves. -/
theorem halfAt_halfOctets (x : Half) (l : List Byte) : halfAt (halfOctets x ++ l) 0 = x := rfl

theorem halves_of (x p q r t : Half) :
    (List.range ((halfOctets x ++ [p, q, r, t].flatMap halfOctets).length / 8 - 1)).map
      (fun i => halfAt (halfOctets x ++ [p, q, r, t].flatMap halfOctets) (8 * i + 8)) = [p, q, r, t] := by
  have hl : (halfOctets x ++ [p, q, r, t].flatMap halfOctets).length / 8 - 1 = 4 := by
    simp [halfOctets, colOctets]
  rw [hl]
  rfl

/-- Unwrapping gives back what was wrapped. -/
theorem aesUnwrap_aesWrap4 (key : List Byte) (a b c d : Half) :
    aesUnwrap key (aesWrap4 key [a, b, c, d]) = some ([a, b, c, d].flatMap halfOctets) := by
  have h := unwrapAll_wrapAll key 6 wrapIv [a, b, c, d]
  have hl := wrapAll_length key 6 wrapIv [a, b, c, d]
  unfold aesWrap4
  generalize wrapAll key 6 wrapIv [a, b, c, d] = x at h hl
  obtain ⟨x0, l⟩ := x
  match l, hl with
  | [p, q, r, t], _ =>
    simp only at h
    unfold aesUnwrap
    simp only [halfAt_halfOctets, halves_of, h]
    rfl

theorem blkOctets_length (b : Blk) : (blkOctets b).length = 16 := rfl
theorem aesCmac_length (key m : List Byte) : (aesCmac key m).length = 16 := rfl
theorem aesWrap4_length (key : List Byte) (a b c d : Half) : (aesWrap4 key [a, b, c, d]).length = 40 := by
  have hl := wrapAll_length key 6 wrapIv [a, b, c, d]
  unfold aesWrap4
  generalize wrapAll key 6 wrapIv [a, b, c, d] = x at hl
  obtain ⟨x0, l⟩ := x
  match l, hl with
  | [p, q, r, t], _ => rfl

end Sys2Proof.Machine
end

