-- ==== Sys2Proof/Tests/Slice0.lean ====
section
/-! SUPPORT. Tests. Commands that are not well formed; the Joraone words of the spec's encodings, written out; the reset
State; the spec's worked values; and for every statement with hypotheses a theorem test_can_<statement>: concrete states and
operands that meet the hypotheses of each of its clauses, at a boundary value where the clause has a range. -/

namespace Sys2Proof.Tests
open Sys2Proof.Machine Sys2Proof.Safety

/-! One theorem at a time: as tasks, theorems that wait for each other would each hold a thread. -/
set_option Elab.async false

/-- The reset State with register fields put: field, displacement, value. -/
def regsAt (l : List (Fld × Nat × Nat)) : State := l.foldl (fun s x => s.p x.1 x.2.1 x.2.2) State.reset

/-- The reset State with core 5 as given. -/
def core5 (k : Core) : State := State.reset.setCore 5 k

/-- Core 5 runs. -/
def running5 : State := core5 { run := .running }

/-- Core 5 runs, with an uncorrectable error in the word it would fetch. -/
def unfetched5 : State := { running5 with eccBad := [.word (instrKey 5 0)] }

/-- Core 5 runs at PC 4, with uncorrectable errors in its next word, the first of its data SRAM and of its quay's image SRAM,
the last of its data SRAM, and the word that participant 23 has posted to it. -/
def broken5 : State :=
  { core5 { run := .running, pc := 4 } with
    eccBad := [.word (instrKey 5 8), .word (dataKey 5 0), .word (imageKey 1 0), .word (dataKey 5 0xFFF8), .channel 23 5]
    channels := [(23 * 32 + 5, some ⟨7, 23, 0⟩)] }


/-! ## Commands that are not well formed -/

theorem test_ill_descriptorFetch : WellFormed (.descriptorFetch 0 (List.replicate 63 0)) = false := by decide
theorem test_ill_ringCopy : WellFormed (.ringCopy 0 (List.replicate 65537 0)) = false := by
  have h : (List.replicate 65537 (0 : Byte)).length = 65537 := List.length_replicate
  show decide ((List.replicate 65537 (0 : Byte)).length ≤ 65536) = false
  rw [h]
  decide
theorem test_ill_cargoDataIn : WellFormed (.cargoDataIn 0 0 0 0 0 (List.replicate 1501 0)) = false := by decide +kernel
theorem test_ill_evaluationStart : WellFormed (.evaluationStart [5, 5]) = false := by decide +kernel
theorem test_ill_beaconFrame : WellFormed (.beaconFrameReceived 0 false 0 0 (List.replicate 1501 0)) = false := by decide +kernel
theorem test_ill_tallySample : WellFormed (.tallySample (List.replicate 28 0) (List.replicate 3 0)) = false := by decide
theorem test_ill_canFrame : WellFormed (.canFrameReceived 0 0 0 0 0 0 0 0 (List.replicate 2049 0) 0 0 0) = false := by decide +kernel
theorem test_ill_mbsTelegram : WellFormed (.mbsTelegramEnd 0 [] 0 0 false) = false := by decide
theorem test_ill_mastClaim : WellFormed (.mastClaimGrant [3, 3]) = false := by decide
theorem test_ill_lockGrant : WellFormed (.lockGrant 0 [9, 9]) = false := by decide
theorem test_ill_mooringStatus : WellFormed (.mooringStatus true true 0 0 0 [] (List.replicate 7 0) 0) = false := by decide
theorem test_ill_copyData_lines : WellFormed (.mooringCopyData 0 true 0 0 0 (List.replicate 57 (0, List.replicate 64 0)) 0) = false := by
  decide +kernel
theorem test_ill_copyData_octets : WellFormed (.mooringCopyData 0 true 0 0 0 [(0, List.replicate 63 0)] 0) = false := by decide +kernel
theorem test_ill_pcieGen : WellFormed (.pcieLinkUp 0 1) = false := by decide
theorem test_ill_pcieWidth : WellFormed (.pcieLinkUp 4 3) = false := by decide
theorem test_well_pcie : WellFormed (.pcieLinkUp 4 4) = true := by decide

/-! ## Joraone words

The words of the spec's worked example (its pump), and one of each further format, written out from the formats' fields. -/

theorem test_word_LD (s : State) : runWord 5 0x08000200 0 s = execJLd 5 (.image 0x200) s := rfl
theorem test_word_OR (s : State) : runWord 5 0x0A000201 0 s = execJOr 5 (.image 0x201) s := rfl
theorem test_word_OPEN_ANDN (s : State) : runWord 5 0x1D900000 0 s = execJOpen 5 1 s := rfl
theorem test_word_TON (s : State) : runWord 5 0x50200100 0 s = execJTon 5 (.ptr 0 0x100) s := rfl
theorem test_word_CLOSE (s : State) : runWord 5 0x1E000000 0 s = execJClose 5 s := rfl
theorem test_word_ST (s : State) : runWord 5 0x14000400 0 s = execJSt 5 (.image 0x400) s := rfl
theorem test_word_ADD (s : State) : runWord 5 0x2C012300 0 s = execJAdd 5 1 2 3 s := rfl
theorem test_word_ADDI (s : State) : runWord 5 0x3004BFFF 0 s = execJAddi 5 1 2 (-1) s := rfl
theorem test_word_GT_imm (s : State) : runWord 5 0x3D090005 0 s = execJGt 5 1 2 (.imm 5) s := rfl
theorem test_word_ST64 (s : State) : runWord 5 0x2AFFFFF8 0 s = execSt64 5 15 (.ptr 3 (-8)) s := rfl
theorem test_word_LD32 (s : State) : runWord 5 0x2507FFFF 0 s = execLd32 5 1 (.image 0x3FFFF) s := rfl
theorem test_word_LD_ptr (s : State) : runWord 5 0x0C3FFFFF 0 s = execJLd 5 (.ptr 1 (-1)) s := rfl
theorem test_word_FMA (s : State) : runWord 5 0x34512300 0 s = execJFma 5 1 2 3 s := rfl
theorem test_word_FUN (s : State) : runWord 5 0x39602360 0 s = execJFun 5 3 2 3 s := rfl
theorem test_word_WTOBA (s : State) : runWord 5 0x40702020 0 s = execJWtoba 5 1 2 s := rfl
theorem test_word_ADDP (s : State) : runWord 5 0x44A0FFFC 0 s = execJAddp 5 2 (-4) s := rfl
theorem test_word_BLTU (s : State) : runWord 5 0x49FFFFFF 0 s = execJBltu 5 (-1) s := rfl
theorem test_word_LOOP (s : State) : runWord 5 0x4CD3FFFE 0 s = execJLoop 5 4 (-2) s := rfl
theorem test_word_CALLP (s : State) : runWord 5 0x4CB00000 0 s = execJCallp 5 3 s := rfl
theorem test_word_RECV (s : State) : runWord 5 0x54474400 0 s = execJRecv 5 1 2 26 s := rfl
theorem test_word_MTS (s : State) : runWord 5 0x00730500 0 s = execJMts 5 5 3 s := rfl
theorem test_word_TRAP (s : State) : runWord 5 0x004000AB 0 s = execJTrap 5 0xAB s := rfl
theorem test_word_LPI (s : State) : runWord 5 0xF8308010 0x12345678 s = execJLpi 5 2 0x10 0x12345678 s := rfl
theorem test_word_zero_field (s : State) : runWord 5 0x2C012301 0 s = illegal 5 s := rfl
theorem test_word_unassigned (s : State) : runWord 5 0xFC000000 0 s = illegal 5 s ∧ runWord 5 0x4B400000 0 s = illegal 5 s := ⟨rfl, rfl⟩

/-! ## Worked values

The cryptographic standards' own examples, the spec's reset values, and single steps whose results the rules give. -/

/-- FIPS 197, appendix C.3. -/
theorem test_aes : blkOctets (aesEnc ((List.range 32).map (BitVec.ofNat 8)) (blkAt ((List.range 16).map fun i => BitVec.ofNat 8 (0x11 * i)) 0)) =
    beBytes 16 0x8EA2B7CA516745BFEAFC49904B496089 := by decide +kernel
/-- SP 800-38B's example for AES-256 and an empty message. -/
theorem test_cmac : aesCmac (beBytes 32 0x603DEB1015CA71BE2B73AEF0857D77811F352C073B6108D72D9810A30914DFF4) [] =
    beBytes 16 0x028962F61B7BF89EFC6B551F4667D983 := by decide +kernel
/-- FIPS 180's example "abc". -/
theorem test_sha256 : sha256 [0x61, 0x62, 0x63] =
    beBytes 32 0xBA7816BF8F01CFEA414140DE5DAE2223B00361A396177A9CB410FF61F20015AD := by decide +kernel

theorem test_reset_id : State.reset.g SYS_ID_PART = 0x4820 ∧ State.reset.mode = PROVISION ∧ State.reset.pending = [] := by decide
theorem test_reset_quay_gen : ∀ q : Fin 6, State.reset.g BRN_QUAY_GEN_GEN (dQuay q.val) = 1 := by decide +kernel

/-- What a step answers as the next state. -/
def stepped (s : State) : State := match step s with | .next t => t | _ => { s with fab := 0 }

/-- On an empty queue the block's next cycle passes; with a command in front, the command runs and leaves the queue. -/
theorem test_step_idle : (stepped State.reset).fab = 1 ∧ (stepped State.reset).pending = [] := by decide +kernel
theorem test_step_front :
    (let t := stepped { State.reset with pending := [.oscillatorStop, .tick] }
     t.pending = [.tick] ∧ t.osf = true ∧ t.fab = 0) := by decide +kernel

/-- A core that runs with W2 and W3 as given. -/
def coreW (a b : BitVec 64) : State := core5 { run := .running, w := ((Vector.replicate 16 0).set 2 a).set 3 b }
/-- What an instruction leaves of core 5. -/
def after5 (i : Instr) (s : State) : Core := match exec i s with | .next t => t.core 5 | _ => {}

theorem test_add_overflow :
    (let k := after5 (.jAdd 5 1 2 3) (coreW 0x7FFFFFFFFFFFFFFF 1)
     k.w.get 1 = 0x8000000000000000 ∧ k.n = true ∧ k.v = true ∧ k.z = false ∧ k.c = false ∧ k.pc = 4) := by decide +kernel
theorem test_add_carry :
    (let k := after5 (.jAdd 5 1 2 3) (coreW 0xFFFFFFFFFFFFFFFF 1)
     k.w.get 1 = 0 ∧ k.z = true ∧ k.c = true ∧ k.v = false) := by decide +kernel
theorem test_sub_borrow :
    (let k := after5 (.jSub 5 1 2 3) (coreW 0 1)
     k.w.get 1 = 0xFFFFFFFFFFFFFFFF ∧ k.n = true ∧ k.c = true ∧ k.v = false) := by decide +kernel
theorem test_fadd : (after5 (.jFadd 5 1 2 3) (coreW 0x3FF0000000000000 0x4000000000000000)).w.get 1 = 0x4008000000000000 := by
  decide +kernel
theorem test_fdiv_zero :
    (let k := after5 (.jFdiv 5 1 2 3) (coreW 0x3FF0000000000000 0)
     k.w.get 1 = 0x7FF0000000000000 ∧ k.pc = 4) := by decide +kernel
theorem test_open_close :
    (let k := after5 (.jOpen 5 1) (core5 { run := .running, ba := true })
     k.nest = 1 ∧ k.ba = true) ∧
    (after5 (.jClose 5) (core5 { run := .running })).xcause ≠ 0 := by decide +kernel
/-- A second of the Almanac at the end of 28 February of a leap year. -/
theorem test_calendar : (Cal.ofTicks ((⟨2024, 2, 28, 23, 59, 59, 32767⟩ : Cal).ticks + 1)) = ⟨2024, 2, 29, 0, 0, 0, 0⟩ ∧
    (Cal.ofTicks ((⟨2100, 2, 28, 23, 59, 59, 32767⟩ : Cal).ticks + 1)) = ⟨2100, 3, 1, 0, 0, 0, 0⟩ := by decide +kernel

/-! ## The statements' hypotheses are met -/
/-! ## Hypotheses met -/

theorem test_can_StepRunsFrontCommand :
    let s := State.reset
    s.pending = [] ∧ s.eccOne = [] ∧ s.eccBad = [] ∧ (s.stream 7).sending = none ∧ (s.rail 1).step = none := by decide

theorem test_can_InstructionCompletion :
    ((0 : BitVec 7) &&& ({ te := 32 } : Core).te = 0) ∧ (32 : BitVec 7) &&& ({ te := 32 } : Core).te ≠ 0 ∧
    running5.eccOne = [] ∧ unfetched5.issues 5 = true ∧ unfetched5.fetches 5 = false := by decide

/-- SP 16 leaves just the room of one frame. -/
theorem test_can_ExceptionEntry :
    let s := core5 { run := .running, sp := 16 }
    (s.core 5).rl ≠ 17 ∧ (s.core 5).noRoom 16 = false ∧ s.mode ≠ STANDBY ∧ 16 ≤ (s.core 5).sp.toNat := by decide

theorem test_can_ExceptionHalts :
    ((core5 { rl := 17 }).core 5).rl = 17 ∧ ((core5 { sp := 15 }).core 5).noRoom 16 = true := by decide

theorem test_can_BitLogicSetsBa : running5.executes 5 = true ∧
    bitTarget (running5.core 5) (.data 524287) = .ok (.data 65535, 7) ∧ (localKey 5 (.data 65535)).isSome = true ∧
    running5.viewBad 5 1 (.data 65535) = false ∧
    (broken5.executes 5 = true ∧ bitTarget (broken5.core 5) (.data 524287) = .ok (.data 65535, 7) ∧
      broken5.viewBad 5 1 (.data 65535) = true) ∧
    bitTarget (running5.core 5) (.data 524288) = .error ⟨xDBUS, some 0x20010000⟩ := by decide

theorem test_can_BitStoreChangesOneBit : running5.executes 5 = true ∧ running5.mode ≠ STANDBY ∧
    bitTarget (running5.core 5) (.image 0x7FFFFF) = .ok (.image 0xFFFFF, 7) ∧
    (localKey 5 (.image 0xFFFFF)).isSome = true ∧ running5.viewBad 5 1 (.image 0xFFFFF) = false ∧ AMap.find (running5.quay (5 / 4)).overlay (imageKey 1 0xFFFFF) = none := by
  decide

theorem test_can_BaAndNesting : running5.executes 5 = true ∧ ((5 : BitVec 3).toNat ≤ 5 ∧ (running5.core 5).nest < 16) ∧
    5 < (6 : BitVec 3).toNat ∧ ((core5 { run := .running, nest := 16 }).core 5).nest = 16 ∧ (running5.core 5).nest = 0 ∧
    0 < ((core5 { run := .running, nest := 1 }).core 5).nest := by decide

theorem test_can_OpenThenCloseCombines : (15 : Nat) < 16 ∧ (5 : BitVec 3).toNat ≤ 5 ∧ (0 : Nat) ≠ 15 := by decide

/-- Core 5 with pointers to shared SRAM, to its instruction SRAM, to an address that nothing owns, and to an odd one. -/
def pointers5 : State := core5 { run := .running, p := #v[0x10000000, 0x2021FFF8, 0x40000000, 0x10000001] }

theorem test_can_LoadsExtend :
    let s := pointers5
    let k := s.core 5
    s.executes 5 = true ∧ (wordTarget k 8 (.data 8191) = .ok (.data 65528) ∧ (localKey 5 (.data 65528)).isSome = true ∧
      s.viewBad 5 8 (.data 65528) = false) ∧
    (broken5.executes 5 = true ∧ wordTarget (broken5.core 5) 8 (.data 8191) = .ok (.data 65528) ∧
      broken5.viewBad 5 8 (.data 65528) = true) ∧ s.inReset = false ∧ s.eccUncorr 0x10000000 8 = false ∧
    (wordTarget k 8 (.ptr 0 0) = .ok (.dev 0x10000000) ∧ inSram 0x10000000 8 = true ∧ inWindow 0x10000000 8 = false ∧
      (s.quay (5 / 4)).overlay = []) ∧
    wordTarget k 8 (.ptr 1 0) = .ok (.instr 0x1FFF8) ∧ s.viewBad 5 8 (.instr 0x1FFF8) = false ∧
    ((s.loadView 5 8 (.dev 0x10000000)).1 = .ok 0) ∧
    (wordTarget k 8 (.ptr 2 0) = .ok (.dev 0x40000000) ∧ (s.loadView 5 8 (.dev 0x40000000)).1 = .error ⟨xDBUS, some 0x40000000⟩) ∧
    wordTarget k 8 (.data 8192) = .error ⟨xDBUS, some 0x20010000⟩ := by decide

theorem test_can_StoresWriteTheirBytes :
    let s := pointers5
    let k := s.core 5
    s.executes 5 = true ∧ s.mode ≠ STANDBY ∧
    (wordTarget k 8 (.image 131071) = .ok (.image 0xFFFF8) ∧ (localKey 5 (.image 0xFFFF8)).isSome = true) ∧
    wordTarget k 8 (.ptr 1 0) = .ok (.instr 0x1FFF8) ∧ wordTarget k 8 (.ptr 0 8) = .ok (.dev 0x10000008) ∧
    wordTarget k 2 (.ptr 3 0) = .error ⟨xDALIGN, some 0x10000001⟩ := by decide

/-- A standby core, and one whose quay's overlay is full. -/
theorem test_can_StandbyStoresStayInOverlay :
    (let s := pointers5.p SYS_MODE_MODE 0 STANDBY
     s.executes 5 = true ∧ s.mode = STANDBY ∧ bitTarget (s.core 5) (.data 0) = .ok (.data 0, 0) ∧
     (localKey 5 (.data 0)).isSome = true ∧ s.viewBad 5 1 (.data 0) = false ∧ wordTarget (s.core 5) 4 (.data 0) = .ok (.data 0)) ∧
    (let s := (running5.p SYS_MODE_MODE 0 STANDBY).setQuay 1 { overlay := List.replicate 65536 (0, 0) }
     s.mode = STANDBY ∧ s.overlayFull 1 1 = true) := by
  refine ⟨by decide, by decide, ?_⟩
  have h : (((running5.p SYS_MODE_MODE 0 STANDBY).setQuay 1 { overlay := List.replicate 65536 (0, 0) }).quay 1).overlay.length
    = 65536 := List.length_replicate
  simp only [State.overlayFull, h]
  decide

/-- Core 5 with values in its registers. -/
def words5 (a b : BitVec 64) : State := core5 { run := .running, w := ((Vector.replicate 16 0).set 1 a).set 2 b }

theorem test_can_IntegerResults :
    (words5 5 0).executes 5 = true ∧ ((words5 5 0).core 5).w.get 2 = 0 ∧
    (((words5 0x8000000000000000 (-1)).core 5).w.get 1 = 0x8000000000000000#64 ∧
      ((words5 0x8000000000000000 (-1)).core 5).w.get 2 = -1) ∧
    (((words5 0x8000000000000000 1).core 5).w.get 2 ≠ 0 ∧
      ¬ (((words5 0x8000000000000000 1).core 5).w.get 1 = 0x8000000000000000#64 ∧
        ((words5 0x8000000000000000 1).core 5).w.get 2 = -1)) := by decide

theorem test_can_IntegerImmediates : running5.executes 5 = true := by decide

theorem test_can_DivisionRebuildsDividend :
    ((words5 5 0).executes 5 = true ∧ ((words5 5 0).core 5).te = 0 ∧ ((words5 5 0).core 5).w.get 2 = 0) ∧
    ((words5 (-7) 2).core 5).w.get 2 ≠ 0 ∧ ((words5 (-7) 2).core 5).w.get 1 ≠ 0x8000000000000000#64 := by decide

theorem test_can_FpResults : (words5 0x3FF0000000000000 0x7FF8000000000000).executes 5 = true := by decide

theorem test_can_ComparesSetBa : running5.executes 5 = true ∧ 3 < (4 : BitVec 3).toNat := by decide

theorem test_can_MovesAndLongForms : running5.executes 5 = true ∧ running5.viewBad 5 4 (.instr 4) = false ∧
    broken5.executes 5 = true ∧ broken5.viewBad 5 4 (.instr (((broken5.core 5).pc + 4).toNat)) = true := by decide

/-- Branches at the ends of the instruction SRAM: taken to 0x1FFFC and to 0, and beyond both ends. -/
theorem test_can_BranchesByCondition :
    let s := core5 { run := .running, pc := 0x1FFF8, z := true }
    let t : BitVec 22 → Int := fun d => (s.core 5).pc.toNat + 4 * d.toInt
    s.executes 5 = true ∧ (s.core 5).z = true ∧ (!(s.core 5).z) = false ∧ (0 ≤ t 1 ∧ t 1 = 0x1FFFC) ∧
    t (-32766) = 0 ∧ t (-32767) < 0 ∧ 0x1FFFC < t 2 := by decide

theorem test_can_CallsReturnsLoops :
    let s := core5 { run := .running, sp := 8, w := (Vector.replicate 16 0).set 1 1, p := #v[0x20200000, 0, 0, 0] }
    let k := s.core 5
    s.executes 5 = true ∧ s.mode ≠ STANDBY ∧ (k.noRoom 8 = false ∧ 8 ≤ k.sp.toNat) ∧
    ((core5 { run := .running, sp := 7 }).core 5).noRoom 8 = true ∧ jumpTarget k.pc (0x7FFF : BitVec 18) = .ok 0x1FFFC ∧
    viewOf (k.p.get 0).toNat = .instr 0 ∧ viewOf (k.p.get 1).toNat = .dev 0 ∧ k.sp.toNat + 8 ≤ 0x10000 ∧
    s.viewBad 5 8 (.data k.sp.toNat) = false ∧ k.w.get 1 - 1 = 0 ∧ k.w.get 2 - 1 ≠ 0 := by decide

theorem test_can_CallThenRetReturns :
    let s := core5 { run := .running, sp := 8 }
    let k := s.core 5
    s.executes 5 = true ∧ s.mode ≠ STANDBY ∧ s.eccBad = [] ∧ (s.quay (5 / 4)).overlay = [] ∧ k.noRoom 8 = false ∧ k.haltReq = false ∧
    k.stepping = false ∧ k.run = .running ∧ k.pc.toNat % 4 = 0 ∧ jumpTarget k.pc (1 : BitVec 18) = .ok 4 := by decide

/-- Core 5 with an instance of a kind at the top of data SRAM. -/
def inst5 (kind : Nat) : State :=
  (running5.wle (dataKey 5 0xFFE0) 4 0x1234).wle (dataKey 5 0xFFE4) 4 (16 * kind)

theorem test_can_TimerInstances :
    ((1, Instr.jTon 5 (.abs 0xFFE0)) ∈
      [(1, Instr.jTon 5 (.abs 0xFFE0)), (2, .jTof 5 (.abs 0xFFE0)), (3, .jTp 5 (.abs 0xFFE0))]) ∧
    (inst5 1).executes 5 = true ∧ (inst5 1).mode ≠ STANDBY ∧
    (inst5 1).instCheck 5 32 (.abs 0xFFE8) [1] = .error ⟨xINSTANCE, some 0x2000FFE8⟩ ∧
    (inst5 1).instCheck 5 32 (.abs 0xFFE0) [1] = .ok 0xFFE0 := by decide

theorem test_can_CounterAndEdgeInstances :
    (inst5 6).executes 5 = true ∧ (inst5 6).mode ≠ STANDBY ∧ (inst5 6).instCheck 5 32 (.abs 0xFFE0) [5, 6] = .ok 0xFFE0 ∧
    (inst5 7).instCheck 5 8 (.abs 0xFFE0) [7] = .ok 0xFFE0 ∧
    (inst5 7).instCheck 5 32 (.abs 0xFFE0) [4, 6] = .error ⟨xINSTANCE, some 0x2000FFE0⟩ ∧
    (inst5 6).instCheck 5 8 (.abs 0xFFE0) [7] = .error ⟨xINSTANCE, some 0x2000FFE0⟩ := by decide

/-- Core 5 with a word from participant 23 waiting, the channel to 23 full, and core 6 in a RECV whose time is up. -/
def berths5 : State :=
  { running5.setCore 6 { run := .recv } with channels := [(5 * 32 + 23, some ⟨9, 5, 0⟩), (23 * 32 + 5, some ⟨7, 23, 0⟩)] }

theorem test_can_BerthsInstructions :
    let s := berths5
    s.executes 5 = true ∧ ((s.chan 5 0).isSome = false ∧ s.waitsFor 0 5 = false ∧ s.gated (0 / 4) = false) ∧
    s.viewBad 5 4 (.instr ((s.core 5).pc + 4).toNat) = false ∧ s.eccIn (.channel 23 5) = false ∧
    (broken5.executes 5 = true ∧ (broken5.chan 23 5).isSome = true ∧ broken5.eccIn (.channel 23 5) = true) ∧
    (s.chan 5 23).isSome = true ∧ s.chan 23 5 = some ⟨7, 23, 0⟩ ∧ s.firstFull 5 (s.core 5).anyPos = some 23 ∧
    (s.chan 0 5 = none ∧ (s.core 5).rsm = false ∧ ((s.core 5).w.get 0).toNat % 2 ^ 32 = 0) ∧ (1 : BitVec 32) ≠ 0 ∧
    ((s.core 6).run = .recv ∧ s.recvRemains 6 = 0) := by decide

theorem test_can_SystemInstructions : running5.executes 5 = true ∧ running5.sreg 5 0x0F = some 0 ∧
    0x10 ≤ (0x10 : BitVec 8).toNat ∧ (0x0F : BitVec 8).toNat < 0x10 := by decide

theorem test_can_SpecialRegistersReadBack : running5.executes 5 = true ∧ (running5.core 5).te = 0 := by decide

theorem test_can_TrapAndBreak : running5.executes 5 = true ∧
    (let s := running5.p BRN_CORE_DEBUG_ENABLE (dCore 5) 1
     s.executes 5 = true ∧ s.mode = PROVISION ∧ s.on BRN_CORE_DEBUG_ENABLE (dCore 5) = true) ∧
    running5.on BRN_CORE_DEBUG_ENABLE (dCore 5) = false := by decide

/-- A delivery of the highest priority, and a RETI with the frame at the top of data SRAM. -/
theorem test_can_DeliveryEntryAndReturn :
    (let s := core5 { run := .running, ie := true, sp := 16, rl := 15, held := some ⟨511, 15, false, false⟩ }
     let k := s.core 5
     k.held = some ⟨511, 15, false, false⟩ ∧ k.run = .running ∧ s.mode ≠ STANDBY ∧
     s.g BRN_XCHG_STATUS_STATE (dQuay (5 / 4)) ≠ 4 ∧ k.ie = true ∧ k.rl < 15 + 1 ∧ (s.quay (5 / 4)).halted = false ∧
     k.entering = none ∧ k.noRoom 16 = false) ∧
    (running5.executes 5 = true ∧ (running5.core 5).rl = 0) ∧
    (let s := (core5 { run := .running, rl := 16, sp := 0xFFF0, hstk := [(511, 16)] }).p MST_SRC_STATE_OWNER (dSrc 511) 5
     let k := s.core 5
     s.executes 5 = true ∧ k.rl ≠ 0 ∧ k.sp.toNat + 16 ≤ 0x10000 ∧ s.viewBad 5 16 (.data k.sp.toNat) = false ∧ k.held = none ∧ k.hstk = (511, 16) :: [] ∧
     s.g MST_SRC_STATE_OWNER (dSrc 511) = 5) := by decide

theorem test_can_DebugAndPostedErrors :
    running5.inReset = false ∧ (running5.mode = PROVISION ∧ (running5.core 5).run = .running ∧ (running5.core 5).stepping = false ∧
      (running5.core 5).postErr = []) ∧
    ((running5.p SYS_MODE_MODE 0 RUN).mode = RUN ∧ ((running5.p SYS_MODE_MODE 0 RUN).core 5).stepping = false) ∧
    ((core5 { run := .halted, haltCause := 3 }).core 5).haltCause = 3 ∧
    (let s := core5 { run := .running, postErr := [0x40000000] }
     (s.core 5).run = .running ∧ (s.core 5).postErr = 0x40000000 :: []) := by decide

/-- The word at the pc of a halted core is NOP, which runs. -/
theorem test_can_DebugStep :
    let s := core5 { run := .halted, haltCause := 3 }
    s.inReset = false ∧ s.mode = PROVISION ∧ (s.core 5).run = .halted ∧
    ∃ t, runWord 5 (s.rle (instrKey 5 (s.core 5).pc.toNat) 4) (BitVec.ofNat 32 (s.rle (instrKey 5 ((s.core 5).pc + 4).toNat) 4))
      ((s.setCore 5 { s.core 5 with stepping := true }).answer true 0) = .next t := by
  exact ⟨by decide, by decide, by decide, _, rfl⟩

theorem test_can_EncodedMemoryAndFlowRuns :
    ((3, BitRef.ptr 3 0x1FFFFF) ∈ [(1, BitRef.data 0x7FFFFF), (2, .image 0x7FFFFF), (3, .ptr 3 0x1FFFFF)] ∧
      (3 : Fin 8).val < 4) ∧
    ((10, WordRef.ptr 3 0xFFFF) ∈ [(8, WordRef.data 0x3FFFF), (9, .image 0x3FFFF), (10, .ptr 3 0xFFFF)] ∧
      (11 : Fin 16).val ≠ 7 ∧ (11 : Fin 16).val < 12) ∧
    (InstRef.ptr 3 0xFFFF, 2 ^ 21 + 3 * 2 ^ 19 + 0xFFFF) ∈
      [(InstRef.abs 0xFFFF, 0xFFFF), (.ptr 3 0xFFFF, 2 ^ 21 + 3 * 2 ^ 19 + 0xFFFF)] := by decide

theorem test_can_EncodedArithmeticRuns : (4 : Fin 5).val = 2 ∨ (4 : Fin 5).val = 4 → (0 : Fin 32).val = 0 := by decide

theorem test_can_ContractCommands : State.reset.inReset = false ∧
    (let s := regsAt [(SYS_CTR_PATH_ENABLE, dPath 511, 1)]
     s.on SYS_CTR_PATH_ENABLE (dPath 511) = true ∧ s.adm.running ≠ some 511) ∧
    (let s := regsAt [(SYS_MODE_MODE, 0, SAFE)]
     s.on SYS_CTR_PATH_ENABLE (dPath 511) = false ∧ s.mode = SAFE) ∧
    (let s := regsAt [(SYS_CTR_CHECK_BUSY, 0, 1)]
     s.on SYS_CTR_PATH_ENABLE (dPath 511) = false ∧ s.mode ≠ SAFE ∧ s.on SYS_CTR_CHECK_BUSY = true) ∧
    (State.reset.on SYS_CTR_PATH_ENABLE (dPath 511) = false ∧ State.reset.mode ≠ SAFE ∧
      State.reset.on SYS_CTR_CHECK_BUSY = false) ∧
    ({ State.reset with adm := { running := some 511 } } : State).adm.running = some 511 ∧
    ((regsAt [(NET_CARGO_CTRL_ENABLE, 0, 1)]).on NET_CARGO_CTRL_ENABLE = true ∧
      State.reset.on NET_CARGO_CTRL_ENABLE = false) ∧
    (let s : State := { State.reset with tide := 7, adm := { items := [⟨1, 511, 7⟩, ⟨2, 5, 6⟩] } }
     s.adm.items.find? (·.id == 1) = some ⟨1, 511, 7⟩ ∧ s.tide ≤ 7 ∧
     s.adm.items.find? (·.id == 2) = some ⟨2, 5, 6⟩ ∧ 6 < s.tide) := by decide

/-- In the reset State no path is enabled or draining. -/
theorem test_can_CargoAreaWrite :
    ∀ x, x < 512 → State.reset.pathKind x = kCARGO → State.reset.pathOn x = false ∧ State.reset.draining x = false := by
  decide +kernel

/-- A register that takes a plain write at reset: 0x10010. -/
theorem test_can_BusAccesses_register :
    (match findReg 0x10010 regTable with
      | some (r, d) => 0x10010 == r.off + d && r.words == 1 && decide (r.wide ≤ 1) && !higherWord 0x10010 &&
          (faultAt 0x10010).isNone && (AMap.find writeHooks r.off).isNone && (AMap.find readHooks r.off).isNone &&
          (enAt 0x10010).isNone && State.reset.regOpen r d && !State.reset.regLocked r d && r.ps == [] &&
          decide (r.flds.map (·.key d)).Nodup
      | none => false) = true ∧
    inWindow (winBase + 0x10010) 4 = true ∧ placeOf 0x10010 = .regs ∧ reaches 41 0x10010 = true := by decide +kernel

/-- Memory that a campaign guards, that holds an uncorrectable error, DDR before and after it is ready, MRAM and ROM. -/
theorem test_can_BusAccesses_memory :
    (let s := regsAt [(BCN_CAMP_AREA_ADDR, 0, 0x10000000), (BCN_CAMP_STATUS_STATE, 0, 2)]
     s.inReset = false ∧ inSram 0x10000000 1 = true ∧ s.campGuard 24 0x10000000 1 = true) ∧
    (let s : State := { State.reset with eccBad := [.word 0x10000000] }
     s.eccUncorr 0x10000004 4 = true ∧ s.eccUncorr 0x10000008 16 = false) ∧
    (State.reset.inDdr 0x83FFFFFFF 1 = true ∧ State.reset.ddrReady = false ∧ inSram 0x83FFFFFFF 1 = false) ∧
    (regsAt [(MEM_CTRL_DDR_READY, 0, 1)]).ddrReady = true ∧ inMram 0x300FFFE0 32 = true ∧ inRom 0xFFFF 1 = true := by
  decide

/-- The last words of shared SRAM and of the windows, a misaligned word, and an address that nothing owns. -/
theorem test_can_BusAccesses : State.reset.inReset = false ∧
    (inSram 0x10FFFFF8 8 = true ∧ State.reset.campGuard 24 0x10FFFFF8 8 = false) ∧
    (inWindow (winBase + 0x13FFFFC) 4 = true ∧ placeOf 0x13FFFFC = .regs ∧ reaches 24 0x13FFFFC = true ∧
      0x13FFFFC % 4 = 0 ∧ findReg 0x13FFFFC regTable = none) ∧
    (inWindow (winBase + 4) 8 = true ∧ placeOf 4 = .regs ∧ reaches 25 4 = true ∧ 4 % 8 ≠ 0 ∧ (25 : Fin 42).val ≠ 24) ∧
    (inWindow 0x40000000 4 = false ∧ inSram 0x40000000 4 = false ∧ State.reset.inDdr 0x40000000 4 = false ∧
      inMram 0x40000000 4 = false ∧ inRom 0x40000000 4 = false) ∧
    (∀ c : Fin 24, (State.reset.core c).stepping = false) ∧ AMap.find State.reset.capture 0 = none ∧
    State.reset.g TLY_FDR_CYCLE_COUNT (dFdr 3) < 2 ^ 24 ∧ State.reset.g TLY_TH_STATUS_REVERSALS (dTh 31) < 2 ^ 8 := by
  decide +kernel

theorem test_can_ModeCommands :
    let ready := [(SYS_BOOT_STATUS_STATE, 0, bDONE), (SYS_MODE_ID_SEEN, 0, 1), (BRN_QUAY_CTRL_ENABLE, dQuay 5, 1)]
    State.reset.inReset = false ∧ State.reset.modeCode 0 RUN ≠ 0 ∧
    (let s := regsAt ((PAIR_CTRL_ENABLE, 0, 1) :: ready)
     s.modeCode mCOMMAND RUN = 0 ∧ s.mode = PROVISION ∧ s.on PAIR_CTRL_ENABLE = true) ∧
    ((regsAt ready).modeCode mCOMMAND RUN = 0 ∧ (regsAt ready).on PAIR_CTRL_ENABLE = false) ∧
    (let s : State := { State.reset with fab := 1600, pair := { claim := some (0, RUN, 24, true) } }
     s.pair.claim = some (0, RUN, 24, true) ∧ 0 + 1600 ≤ s.fab ∧ s.g PAIR_CTRL_UNIT = 0) ∧
    (let s := { State.reset with fab := 40000000 }.setQuay 5 { cmdAt := some 39200000, startFrom := some 0 }
     (s.quay 5).cmdAt.isSome = true ∧ s.atBoundary 5 = true ∧ (s.quay 5).cmdAt = some 39200000 ∧
     39200000 + 800000 ≤ s.fab ∧ (s.quay 5).startFrom = some 0 ∧ 0 + 40000000 ≤ s.fab) ∧
    (let s : State := { regsAt [(PAIR_STATUS_PEER_OWN, 0, 1), (PAIR_STATUS_OWN, 0, 1)] with
                        fab := 3200, pair := { grace := some 0, releasing := true, alive := some true } }
     let u : State := { s with fab := 200000 }
     s.pair.grace = some 0 ∧ 0 + 3200 ≤ s.fab ∧ s.on PAIR_STATUS_PEER_OWN = true ∧ s.on PAIR_STATUS_OWN = true ∧
     s.pair.releasing = true ∧ u.pair.alive = some true ∧ u.mode ≠ SAFE ∧ u.pair.aliveAt + 200000 ≤ u.fab) ∧
    ({ State.reset with reactions := [(0x40, 31, true)] } : State).reactions = (0x40, 31, true) :: [] ∧
    (let s : State := { regsAt [(SYS_MODE_MODE, 0, SAFE), (NET_CARGO_CTRL_ENABLE, 0, 1)] with pair := { safeOut := true } }
     s.mode = SAFE ∧ s.on NET_CARGO_CTRL_ENABLE = true ∧ s.pair.safeOut = true ∧ s.pair.safeAt = none) ∧
    State.reset.mode ≠ FACTORY ∧ (regsAt [(SYS_MODE_MODE, 0, FACTORY)]).mode = FACTORY ∧ FBlk.ofSrc 0x40 = some .sys ∧
    (0 : Fin 32).val < FBlk.sys.width := by decide

theorem test_can_ResetCommands :
    State.reset.inReset = false ∧ ({ State.reset with phase := .held } : State).inReset = true ∧
    State.reset.phase = .released ∧ ({ State.reset with phase := .held } : State).phase = .held ∧
    ({ State.reset with phase := .clocks } : State).phase = .clocks ∧
    ({ State.reset with phase := .fuses } : State).phase = .fuses ∧ ({ State.reset with phase := .mram } : State).phase = .mram ∧
    ({ State.reset with phase := .sram } : State).phase = .sram ∧ (0x5253 : BitVec 16).toNat = 0x5253 ∧
    (0x5252 : BitVec 16).toNat ≠ 0x5253 ∧ ((5 : Fin 8).val < 6 ∧ (23 : Nat) / 4 = 5) ∧
    (let s : State := { regsAt [(SYS_WDT_CTRL_ENABLE, 0, 1), (SYS_WDT_CTRL_PERIOD_MS, 0, 1), (SYS_MODE_MODE, 0, SAFE)] with
                        fab := 400000 }
     s.on SYS_WDT_CTRL_ENABLE = true ∧ s.wdtAt + s.g SYS_WDT_CTRL_PERIOD_MS * 400000 ≤ s.fab ∧ s.mode = SAFE ∧
     s.mode ≠ PROVISION) ∧
    ({ State.reset with wdtKey := 0xA5 } : State).wdtKey = 0xA5 := by decide

/-- DISCARD by the management agent, by an owner, and by another master of a set that is owned. -/
theorem test_can_DiscardEmptiesTheSet :
    State.reset.inReset = false ∧ (25 : Fin 42).val = 25 ∧ State.reset.prf = pIDLE ∧
    (let s := regsAt [(PRF_STATUS_STATE, 0, pSTAGED), (PRF_STATUS_OWNER, 0, 5)]
     s.g PRF_STATUS_OWNER = (5 : Fin 42).val ∧ (6 : Fin 42).val ≠ 24 ∧ (6 : Fin 42).val ≠ 25 ∧ s.prf ≠ pIDLE ∧
     s.g PRF_STATUS_OWNER ≠ (6 : Fin 42).val ∧ s.pullDue = false) := by decide

/-- The period of task 7 of quay 5 is a staged register of one PS field. -/
def periodOff : Nat := BRN_TASK_PERIOD_VALUE.off + dTask 5 7

theorem test_can_ProofAndPull :
    (let s := State.reset
     ∃ r d, findReg periodOff regTable = some (r, d) ∧ periodOff = r.off + d ∧ periodOff % 4 = 0 ∧ placeOf periodOff = .regs ∧
       reaches 24 periodOff = true ∧ inWindow (winBase + periodOff) 4 = true ∧ r.words = 1 ∧ r.wide = 0 ∧
       higherWord periodOff = false ∧ faultAt periodOff = none ∧ AMap.find writeHooks r.off = none ∧ enAt periodOff = none ∧
       s.regOpen r d = true ∧ s.regLocked r d = false ∧ r.flds = r.ps ∧ r.flds ≠ [] ∧ (r.flds.map fun f => f.key d).Nodup ∧
       s.g PRF_STAGED_COUNT < 8192) :=
  ⟨⟨"BRN_TASK_PERIOD", 0x200104, 1, 0, [(6, 0x10000), (8, 0x40)], [BRN_TASK_PERIOD_VALUE]⟩, dTask 5 7, by decide +kernel⟩

theorem test_can_ProofStates :
    (let s := regsAt [(PRF_STATUS_STATE, 0, pSTAGED), (PRF_STATUS_OWNER, 0, 24)]
     (s.prf ≠ pIDLE ∧ s.g PRF_STATUS_OWNER ≠ 25) ∧ s.g PRF_STATUS_OWNER = 24 ∧ s.proofCode = 0 ∧ s.pullCode ≠ 0 ∧
     s.prf = pSTAGED) ∧
    (let s := regsAt [(PRF_STATUS_STATE, 0, pPROVING), (PRF_STATUS_OWNER, 0, 24)]
     s.g PRF_STATUS_OWNER = 24 ∧ s.proofCode ≠ 0 ∧ s.prf = pPROVING) ∧
    (let s := regsAt [(PRF_STATUS_STATE, 0, pPROVEN), (PRF_STATUS_OWNER, 0, 24), (TID_CTRL_ENABLE, 0, 1),
       (PRF_PULL_TIME_NS_NANOSECONDS, 0, 20000)]
     s.g PRF_STATUS_OWNER = 24 ∧ s.pullCode = 0) ∧
    (let s : State := { regsAt [(PRF_STATUS_STATE, 0, pARMED)] with
                        pull := { byQuay := false, time := 20 }, tide := 20 * 65536
                        staged := [(BRN_TASK_PERIOD_VALUE.key (dTask 5 7), 200)] }
     s.prf = pARMED ∧ s.pull.byQuay = false ∧ s.pull.time ≤ s.tideNs ∧ s.reactsNow = false ∧
     (s.staged.map (·.1)).Nodup ∧ AMap.find s.staged (BRN_TASK_PERIOD_VALUE.key (dTask 5 7)) = some 200) ∧
    (let s : State := { regsAt [(PRF_STATUS_STATE, 0, pARMED)] with
                        pull := { byQuay := true, quay := 5, task := 7 }, tide := 10 ^ 15 }
     s.prf = pARMED ∧ s.pull.byQuay = true ∧
     s.pullAt + (20000 * s.g BRN_TASK_PERIOD_VALUE (dTask s.pull.quay s.pull.task) + 1000000000) * 65536
       ≤ s.tide) := by decide

/-- The State with one check running. -/
def checks (e : En) (l : List (Fld × Nat × Nat)) : State := { regsAt l with checking := [e.key] }

theorem test_can_EnableBits : State.reset.inReset = false ∧
    (enAt (En.quay 5).off = some (.quay 5) ∧ enAt En.mem.off = some .mem ∧ enAt En.drf.off = some .drf ∧ enAt En.pwr.off = some .pwr) ∧
    (regsAt [(MEM_CTRL_ENABLE, 0, 1)]).isOn .mem = true ∧
    (let s := regsAt [(SYS_MODE_MODE, 0, SAFE)]
     s.isOn (.quay 5) = false ∧ s.mode = SAFE ∧ (En.quay 5).inSafe = false ∧ En.mem.inSafe = true) ∧
    ((checks .mem []).isOn .mem = false ∧ (checks .mem []).checking.contains En.mem.key = true) ∧
    (State.reset.isOn (.quay 5) = false ∧ State.reset.checking.contains (En.quay 5).key = false ∧
      (State.reset.wake 5).needs (.quay 5) = false) ∧
    (let s := regsAt [(TID_CTRL_ENABLE, 0, 1), (MEM_CTRL_ENABLE, 0, 1), (DRF_SPILL_SIZE_MB, 0, 1)]
     (s.wake 6).needs .drf = true ∧ (s.wake 6).memoryReady .drf = false) ∧
    (State.reset.needs .mem = true ∧ State.reset.memoryReady .mem = true) ∧
    (let s := checks (.quay 5) [(SYS_MODE_MODE, 0, SAFE)]
     s.checking.contains (En.quay 5).key = true ∧ s.powered (.quay 5) = true ∧ s.mode = SAFE) ∧
    (checks (.quay 5) []).needs (.quay 5) = false ∧
    (let s := checks .drf [(TID_CTRL_ENABLE, 0, 1), (MEM_CTRL_ENABLE, 0, 1), (DRF_SPILL_SIZE_MB, 0, 1)]
     s.checking.contains En.drf.key = true ∧ s.powered .drf = true ∧ s.needs .drf = true ∧ s.memoryReady .drf = false) ∧
    (let s := checks .pwr []
     s.checking.contains En.pwr.key = true ∧ s.powered .pwr = true ∧ s.needs .pwr = true ∧ s.memoryReady .pwr = true ∧
     (s.enSet .pwr true).checkOf .pwr = none) ∧
    (let s := checks .mem [(MEM_DDR_CFG_LOG2_GB, 0, 9)]
     s.needs .mem = true ∧ s.memoryReady .mem = true ∧ ((s.enSet .mem true).checkOf .mem).isSome = true) ∧
    (let s := regsAt [(PWR_CTRL_ENABLE, 0, 1)]
     s.isOn .pwr = true ∧ s.prf = pIDLE ∧
     ∀ x ∈ enAll, ((s.enSet .pwr false).disabled .pwr).isOn x = true →
       ((s.enSet .pwr false).disabled .pwr).needsKept x = true) := by decide +kernel

/-- Ring 15 with a command of the given descriptor in execution. -/
def ringWith (desc : List Byte) (l : List (Fld × Nat × Nat)) : State :=
  (regsAt l).setRing 15 { cmds := [⟨desc, 0, none, 0, 0, none⟩] }
def desc (op : Nat) (args : List Byte) : List Byte := leBytes 16 op ++ args ++ List.replicate (48 - args.length) 0

theorem test_can_HostRings :
    (let s := regsAt [(SYS_MODE_MODE, 0, RUN), (HST_RING_CFG_ENABLE, dRing 15, 1), (HST_CTRL_ENABLE, 0, 1), (HST_STATUS_LINK, 0, 1),
       (HST_RING_CFG_LOG2_SIZE, dRing 15, 4), (HST_RING_SQ_TAIL_INDEX, dRing 15, 1)]
     s.canFetch 15 = true ∧ (desc opNOP []).length = 64) ∧
    (∀ op ∈ [opNOP, opREG_WRITE, opREG_READ, opSUBMIT, opCANCEL, opPULL],
      let s := ringWith (desc op []) []
      s.ringExec 15 = some ⟨desc op [], 0, none, 0, 0, none⟩ ∧ s.ringProof ≠ some 15 ∧
        s.eccIn (.ring 15) = false ∧ dOpcode (desc op []) = op ∧ ∀ k : Fin 24, ((s.ringWrites (desc op [])).core k).stepping = false) ∧
    ({ ringWith (desc opNOP []) [] with eccBad := [.ring 15] } : State).eccIn (.ring 15) = true ∧
    (let x := desc opCOPY (leBytes 8 0x1000 ++ leBytes 8 0x10FFFFF8 ++ leBytes 4 8)
     let s := ringWith x []
     dOpcode x = opCOPY ∧ s.copyDevice x = 0x10FFFFF8 ∧ copyLen x = 8 ∧ inSram 0x10FFFFF8 8 = true ∧
     s.deviceSide (copySrc x) = false ∧ s.campGuard 24 0x10FFFFF8 8 = false) ∧
    (let x := desc opCOPY (leBytes 8 0x10FFFFF8 ++ leBytes 8 0x1000 ++ leBytes 4 8)
     let s := ringWith x []
     s.copyDevice x = 0x10FFFFF8 ∧ s.deviceSide (copySrc x) = true ∧ s.eccUncorr 0x10FFFFF8 8 = false) ∧
    (let s := ringWith (desc opPROOF []) [(PRF_STATUS_STATE, 0, pSTAGED), (PRF_STATUS_OWNER, 0, 24)]
     dOpcode (desc opPROOF []) = opPROOF ∧ s.prf = pSTAGED ∧ s.g PRF_STATUS_OWNER = 24 ∧ s.on PRF_STATUS_OVERFLOW = false) ∧
    (let s := ringWith (desc opDISCARD []) []
     dOpcode (desc opDISCARD []) = opDISCARD ∧ s.ringProof = none ∧ s.pullDue = false) ∧
    (let s := ringWith (desc opMODE []) []
     dOpcode (desc opMODE []) = opMODE ∧ s.modeCode 0 0 ≠ 0) ∧
    (let s := State.reset.setRing 15 { cmds := [⟨desc opNOP [], 0, none, 0, 0, some (0, 0, List.replicate 16 0)⟩] }
     (s.ring 15).cmds = [⟨desc opNOP [], 0, none, 0, 0, some (0, 0, List.replicate 16 0)⟩] ∧
     (List.replicate 16 (0 : Byte)).length ≤ 16) := by decide

/-- PULL by quay and by time as the ring commands them: refused while nothing is proven, accepted for a proven set. -/
theorem test_can_RingPull :
    (ringWith (desc opPULL []) []).pullCode ≠ 0 ∧
    (regsAt [(PRF_STATUS_STATE, 0, pPROVEN), (PRF_STATUS_OWNER, 0, 24), (TID_CTRL_ENABLE, 0, 1),
      (PRF_PULL_TIME_NS_NANOSECONDS, 0, 20000)]).pullCode = 0 := by decide

theorem test_can_TendWithOpenNesting :
    (core5 { run := .running, nest := 1 }).executes 5 = true ∧ ((core5 { run := .running, nest := 1 }).core 5).nest ≠ 0 := by
  decide

/-- Quay 5 enabled, started and in RUN; its cyclic task 7 and event task 7 on; further fields. -/
def quay5 (k : QuaySt) (l : List (Fld × Nat × Nat)) : State :=
  (regsAt ([(BRN_QUAY_CTRL_ENABLE, dQuay 5, 1), (BRN_TASK_CFG_ON, dTask 5 7, 1), (BRN_EVT_CFG_ON, dEvt 5 7, 1)] ++ l)).setQuay 5
    { k with mode := RUN, started := true }

theorem test_can_ScanCommands :
    (let s := quay5 {} []
     s.inReset = false ∧ s.quayRuns 5 = true ∧ (s.quay 5).started = true ∧ s.on BRN_TASK_CFG_ON (dTask 5 7) = true ∧
     s.xState 5 ≠ xHOLD ∧ s.atInstant 47 (10000 * s.g BRN_TASK_PERIOD_VALUE (dTask 5 7)) 0 = false ∧
     ((s.quay 5).task 7).pend = false ∧ (s.quay 5).inScan 7 = false ∧ s.on BRN_EVT_CFG_ON (dEvt 5 7) = true ∧
     ((s.quay 5).task (8 + 7)).pend = false) ∧
    (let s := { quay5 {} [(BRN_TASK_PERIOD_VALUE, dTask 5 7, 100), (BRN_TASK_PHASE_VALUE, dTask 5 7, 99)] with
                tide := 3990000 * 65536, tidePrev := 3990000 * 65536 - 1 }
     s.atInstant (8 * 5 + 7) (10000 * s.g BRN_TASK_PERIOD_VALUE (dTask 5 7)) (10000 * s.g BRN_TASK_PHASE_VALUE (dTask 5 7)) = true) ∧
    (let s := quay5 { xchg := { allowSkip := true } } [(BRN_XCHG_STATUS_STATE, dQuay 5, xHOLD)]
     s.xState 5 = xHOLD ∧ (s.quay 5).xchg.allowSkip = true) ∧
    (let s := quay5 { tasks := [(7, { pend := true }), (15, { pend := true })] } []
     ((s.quay 5).task 7).pend = true ∧ ((s.quay 5).task (8 + 7)).pend = true) ∧
    (let s := (quay5 { tasks := [(7, { pend := true })] } []).setCore 20 { run := .idle }
     s.nextStart 5 0 = some 7 ∧ s.pullNames 5 7 = false) ∧
    (let s := quay5 { port := [(7, false)] } []
     (s.quay 5).port = (7, false) :: [] ∧ (s.core (4 * 5 + ((s.quay 5).task 7).cfg.core)).run ≠ .idle) ∧
    (let s := quay5 { port := [(7, false)], tasks := [(7, { phase := .copyIn })] } []
     ((s.quay 5).task 7).phase = .copyIn ∧ (s.core (4 * 5 + ((s.quay 5).task 7).cfg.core)).run ≠ .idle) ∧
    ((quay5 { port := [(24, true)] } []).quay 5).port = (24, true) :: [] ∧
    (let s := (quay5 { tasks := [(6, { phase := .ready, cfg := { prio := 3 } }), (7, { phase := .running })] } []).setCore
       20 { run := .running, task := some 7 }
     (20 : Fin 24).val / 4 = 5 ∧ (s.core 20).task = some 7 ∧ s.firstTask 5 (s.readyTasks 5 (20 % 4)) = some 6 ∧
     (s.core 20).run = .running ∧ (s.core 20).rl = 0 ∧ (s.scanCfg 5 7).prio < (s.scanCfg 5 6).prio ∧ s.overlayFull 5 192 = false) ∧
    (let s := (quay5 { tasks := [(7, { phase := .running })] } []).setCore 20 { run := .running, task := some 7 }
     s.executes 20 = true ∧ (s.core 20).nest = 0 ∧ (s.core 20).task = some 7 ∧ (s.core 20).stacked = [] ∧
     (s.core 20).stepping = false ∧ ∀ r, r < 25 → ((s.quay 5).task r).phase ≠ .ready) := by decide +kernel

/-- A station's entry: transport 0, port mask 15, input length 2, MAC and address 0. -/
def entry0 : List Byte := leBytes 4 (1 + 15 * 1024) ++ leBytes 2 2 ++ List.replicate 58 0
/-- A data message of station 0 with a sequence number and a system identity. -/
def dataIn (seq id : Nat) : List Byte :=
  [0x11, 0, 0, 0] ++ beBytes 2 seq ++ beBytes 2 2 ++ List.replicate 8 0 ++ beBytes 4 id ++ [0xAA, 0xBB]

theorem test_can_ExchangeAndCargo :
    (regsAt [(SYS_MODE_MODE, 0, SAFE)]).mode = SAFE ∧
    (let s := regsAt [(BRN_XCHG_STATUS_STATE, dQuay 5, xLOADING)]
     s.mode ≠ SAFE ∧ s.xState 5 = xLOADING ∧ s.xState 5 ∈ [xLOADING, xWAITING, xHOLD]) ∧
    (State.reset.xBusyCode 5 = 0 ∧ State.reset.g BRN_XCHG_AREA_ADDR (dQuay 5) = 0 ∧ State.reset.xState 5 ≠ xLOADED) ∧
    (let s := regsAt [(BRN_XCHG_AREA_ADDR, dQuay 5, 0x10FE0000)]
     s.xBusyCode 5 = 0 ∧ s.g BRN_XCHG_AREA_ADDR (dQuay 5) ≠ 0 ∧ inSram (s.g BRN_XCHG_AREA_ADDR (dQuay 5)) 0x20000 = true) ∧
    (let s := regsAt [(BRN_XCHG_STATUS_STATE, dQuay 5, xLOADED), (BRN_QUAY_CTRL_ENABLE, dQuay 5, 1)]
     s.mode ≠ SAFE ∧ s.xState 5 = xLOADED ∧ s.staged = [] ∧ s.on BRN_QUAY_CTRL_ENABLE (dQuay 5) = true ∧
     s.xState 5 ∈ [xLOADED, xWAITING]) ∧
    (let s := { regsAt [(BRN_XCHG_STATUS_STATE, dQuay 5, xWAITING)] with fab := 400000000 }
     s.xState 5 = xWAITING ∧ s.holdReady 5 = true ∧ (s.quay 5).xchg.allowSkip = false ∧
     (s.quay 5).xchg.waitSince + 400000000 ≤ s.fab) ∧
    (regsAt [(BRN_XCHG_STATUS_STATE, dQuay 5, xHOLD)]).xState 5 = xHOLD ∧
    (let s := regsAt [(NET_CARGO_CTRL_ENABLE, 0, 1), (NET_CARGO_SYSID_SYSTEM_ID, 0, 7)]
     let y : Station := { entry := entry0, state := 1, rxSeq := 0xFFFF }
     let f : Nat → Nat → Nat := fun o n => beNat (((dataIn 0x7FFE 7).drop o).take n)
     s.on NET_CARGO_CTRL_ENABLE = true ∧ s.cargoCandidate 3 0 (beBytes 6 0) (beBytes 16 0) 0 = none ∧
     (s.setStation 0 (some y)).cargoCandidate 3 0 (beBytes 6 0) (beBytes 16 0) 0 = some (0, y) ∧
     20 + entInLen y.entry ≤ (dataIn 0x7FFE 7).length ∧ f 0 1 = 0x11 ∧ f 2 2 = 0 ∧ f 6 2 = entInLen y.entry ∧ f 16 4 = 7 ∧
     1 ≤ (f 4 2 + 65536 - y.rxSeq) % 65536 ∧ (f 4 2 + 65536 - y.rxSeq) % 65536 = 32767) := by decide +kernel

/-- The Graver enabled in RUN with context 127 enabled and as given; further fields. -/
def graver (x : GrvCtx) (l : List (Fld × Nat × Nat)) : State :=
  (regsAt ([(GRV_CTRL_ENABLE, 0, 1), (GRV_CTX_CTRL_ENABLE, dCtx 127, 1), (SYS_MODE_MODE, 0, RUN)] ++ l)).setGctx 127 x

theorem test_can_GraverCommands :
    (let s := { graver {} [(GRV_CTX_PERIOD_VALUE, dCtx 127, 50), (GRV_CTX_PHASE_VALUE, dCtx 127, 49)] with
                tide := 99000 * 65536, tidePrev := 99000 * 65536 - 1 }
     s.inReset = false ∧
     s.atInstant (64 + 127) (1000 * s.g GRV_CTX_PERIOD_VALUE (dCtx 127)) (1000 * s.g GRV_CTX_PHASE_VALUE (dCtx 127)) = true ∧
     (graver {} []).atInstant (64 + 127) 0 0 = false) ∧
    (let s := graver {} []
     127 ∈ s.releasedWith 127 ∧ (s.inputPorts 127).find? s.portBad = none ∧
     s.on GRV_CTRL_ENABLE = true ∧ s.ctxOn 127 = true ∧ s.mode ≠ PROVISION ∧ (s.gctx 127).phase = .none) ∧
    (let s := { graver {} [(GRV_CTX_MEAS_PORT, dCtx 127, 0x40500008)] with eccBad := [.word (imageKey 5 8)] }
     (s.gctx 127).phase = .none ∧ (s.inputPorts 127).find? s.portBad = some 0x40500008) ∧
    ((graver { phase := .result } []).gctx 127).phase ≠ .none ∧
    (let s := graver { phase := .released } [(GRV_CTX_OUT_MIN_VALUE, dCtx 127, 2 ^ 32 - 5), (GRV_CTX_OUT_MAX_VALUE, dCtx 127, 5)]
     s.nextSample = some 127 ∧ s.sampleBad 127 = false ∧ ({ s with eccBad := [.context 127] }).sampleBad 127 = true ∧ (s.gctx 127).cfg.group = 0 ∧
     s.gs GRV_CTX_OUT_MIN_VALUE (dCtx 127) ≤ s.gs GRV_CTX_OUT_MAX_VALUE (dCtx 127)) ∧
    (let s := graver { phase := .result, cfg := { out := 0x40500008 } } []
     let t := { s with grv := { s.grv with writes := [(false, 127, -5, RUN, 0x40500008)] } }
     t.grv.writes = (false, 127, -5, RUN, 0x40500008) :: [] ∧ portK 0x40500008 = 1 ∧ t.portDead 0x40500008 = false ∧ t.mode ≠ STANDBY ∧
     (t.p PWR_GATE_STATUS_GATED 0 32).portDead 0x40500008 = true ∧ portK 0 = 0) ∧
    State.reset.on GRV_CTRL_ENABLE = false ∧
    (let s := regsAt [(GRV_CTRL_ENABLE, 0, 1), (GRV_FF_SRC_ADDR, dTab 15, 0x10FFEFC1)]
     s.on GRV_CTRL_ENABLE = true ∧ s.g GRV_FF_SRC_ADDR (dTab 15) % 64 ≠ 0) ∧
    (let s := regsAt [(GRV_CTRL_ENABLE, 0, 1), (GRV_FF_SRC_ADDR, dTab 15, 0x10FFEF80)]
     s.g GRV_FF_CTRL_SHADOW (dTab 15) ≠ ffREBUILDING ∧ s.g GRV_FF_SRC_ADDR (dTab 15) % 64 = 0 ∧
     inSram (s.g GRV_FF_SRC_ADDR (dTab 15)) 4100 = true) ∧
    (let s := { regsAt [(GRV_FF_CTRL_SHADOW, dTab 15, ffREBUILDING)] with grv := { srcs := [(15, 0x10000000)] } }
     s.g GRV_FF_CTRL_SHADOW (dTab 15) = ffREBUILDING ∧ AMap.get 0 s.grv.srcs 15 = 0x10000000 ∧
     s.eccUncorr 0x10000000 4100 = false ∧ ({ s with eccBad := [.word 0x10001000] }).eccUncorr 0x10000000 4100 = true ∧ (s.wle 0x10001000 4 256).rle (0x10000000 + 4096) 4 = 256 ∧
     (s.wle 0x10001000 4 255).rle (0x10000000 + 4096) 4 < 256) ∧
    (State.reset.g GRV_FF_CTRL_ACTIVE_BANK (dTab 15) ≠ bit true ∧ State.reset.g GRV_FF_CTRL_SHADOW (dTab 15) ≠ ffREADY ∧
      (regsAt [(GRV_FF_CTRL_SHADOW, dTab 15, ffREADY)]).g GRV_FF_CTRL_SHADOW (dTab 15) = ffREADY) ∧
    (regsAt [(PAIR_CTRL_ENABLE, 0, 1), (SYS_MODE_MODE, 0, RUN), (PAIR_STATUS_LINK, 0, 1), (PAIR_STATUS_OWN, 0, 1)]).copyNow 6 = true ∧
      State.reset.atCycle 251 (usCycles * 65535) = true := by
  refine ⟨?_, ?_, ?_, ?_, ?_, ?_, ?_, ?_, ?_, ?_, ?_, ?_, ?_⟩ <;> decide

/-- A linear-programme job of one variable on path 3, its descriptor, matrix and bounds in shared SRAM. -/
def jobDesc : List Byte :=
  leBytes 1 3 ++ leBytes 1 0 ++ leBytes 2 3 ++ leBytes 4 7 ++ leBytes 4 1000 ++ leBytes 4 0 ++ leBytes 12 0 ++ leBytes 4 1024 ++
    leBytes 8 0x10001000 ++ leBytes 8 0x10002000 ++ leBytes 8 0x10003000 ++ leBytes 8 0 ++ leBytes 4 1 ++ leBytes 1 1 ++
    leBytes 1 0 ++ leBytes 2 0 ++ leBytes 8 0x10000200 ++ leBytes 8 0x10000300 ++ leBytes 8 0 ++ leBytes 32 0
def drafting (d : DrfSt) (tide : Nat) : State :=
  let s := regsAt [(SYS_MODE_MODE, 0, RUN), (DRF_CTRL_ENABLE, 0, 1), (SYS_CTR_PATH_ENABLE, dPath 3, 1),
    (SYS_CTR_PATH_KIND, dPath 3, 4), (SYS_CTR_SIZE_MAX_SIZE, dPath 3, 4000000), (SYS_CTR_RATE_MAX_ITEMS, dPath 3, 5),
    (SYS_CTR_BOUND_BOUND_NS, dPath 3, 1000000000)]
  let s := (s.wbs 0x10000040 jobDesc).wbs 0x10000200 (leBytes 4 1 ++ leBytes 4 1 ++ leBytes 4 1 ++ leBytes 4 0 ++
    leBytes 8 0x10000400 ++ leBytes 8 0x10000410 ++ leBytes 8 0x10000418 ++ leBytes 8 0)
  let s := (s.wle 0x10000400 8 0x100000000).wle 0x10000418 8 0x4000000000000000
  { s.wle 0x10000300 8 0x3FF0000000000000 with drf := d, tide := tide }
/-- A network job: a pump from a fixed node with the largest finite head to one with the least. -/
def netRun : DrfRun :=
  { slot := 63, start := 0, next := 0
    data := leBytes 1 1 ++ leBytes 1 0 ++ leBytes 2 3 ++ leBytes 4 7 ++ leBytes 4 1000 ++ leBytes 52 0 ++ leBytes 4 2 ++
      leBytes 4 1 ++ leBytes 56 0 ++ (leBytes 8 1 ++ leBytes 24 0x7FEFFFFFFFFFFFFF) ++
      (leBytes 8 1 ++ leBytes 24 0xFFEFFFFFFFFFFFFF) ++
      (leBytes 8 0x0001000000000101 ++ leBytes 24 0 ++ leBytes 32 0x3FF0000000000000) }
def job (state : Nat) : DrfJob := ⟨jobDesc, 5, 0, 24, true, state⟩

theorem test_can_DraftingCommands :
    (let s := { drafting {} 0 with eccBad := [.word (0x10000040 + 120)] }
     s.inReset = false ∧ s.eccUncorr 0x10000040 128 = true ∧ 0x10000040 % 64 = 0 ∧ inSram 0x10000040 128 = true ∧ s.mode = RUN ∧
     (drafting {} 0).eccUncorr 0x10000040 128 = false) ∧
    (State.reset.submitCode 0x10000041 (State.reset.rbs 0x10000041 128)).1 ≠ 0 ∧
    (let s := drafting {} 0
     (s.submitCode 0x10000040 (s.rbs 0x10000040 128)).1 = 0 ∧ s.freeSlot = some 0 ∧ s.drfJob 63 = none) ∧
    (let s := drafting { jobs := (List.range 64).map fun n => (n, some (job 3)) } 0
     (s.submitCode 0x10000040 (s.rbs 0x10000040 128)).1 = 0 ∧ s.freeSlot = none ∧ s.drfJob 63 = some (job 3) ∧
     (job 3).state = 3 ∧ s.drf.cut = none) ∧
    (let s := drafting { jobs := [(63, some (job 1))] } (10 ^ 20)
     s.drfJob 63 = some (job 1) ∧ (job 1).state = 1 ∧ fld (job 1).desc 4 4 % 65536 = (7 : BitVec 16).toNat ∧
     s.lastStart (job 1) ≤ s.tide) ∧
    (let s := drafting { jobs := [(63, some (job 1))] } 0
     s.drf.run = none ∧ s.drf.posts.any (·.ran) = false ∧ s.expireJobs.nextJob = some (63, job 1)) ∧
    (let r : DrfRun := { slot := 63, start := 0, data := jobDesc, next := 1 }
     let s := drafting { jobs := [(63, some (job 2))], run := some { r with next := 0 } } 0
     s.tide < s.timeEnd (job 2) r ∧ (job 2).state = 2 ∧ fld (job 2).desc 4 4 % 65536 = (7 : BitVec 16).toNat ∧
     fld r.desc 0 1 ≠ tNETWORK ∧ fld r.desc 0 1 ≠ tQP ∧
     fld netRun.desc 0 1 = tNETWORK ∧ netRun.next = 0 ∧ netRun.net.good netRun.net.isolated netRun.netCold
       (netRun.net.power (netRun.eng.at 6) netRun.net.isolated netRun.netCold) = false) ∧
    (let r : DrfRun := { slot := 63, start := 0, data := jobDesc, next := 1 }
     let s := drafting { jobs := [(63, some (job 2))], run := some r } (10 ^ 20)
     s.drf.run = some r ∧ s.drfJob r.slot = some (job 2) ∧ s.timeEnd (job 2) r ≤ s.tide) ∧
    (let p : DrfPost := ⟨63, 0x10FFFF80, [1, 2, 3, 4], 0, true⟩
     (drafting { posts := [p] } 0).drf.posts = p :: []) := by decide +kernel

theorem test_can_BeaconEvaluations :
    (let s := { regsAt [(BCN_CFG_EVAL_PERIOD_MS, 0, 1000)] with tide := 10 ^ 9 * 65536, tidePrev := 10 ^ 9 * 65536 - 1 }
     s.inReset = false ∧ s.atInstant 255 (1000000 * s.g BCN_CFG_EVAL_PERIOD_MS) 0 = true ∧ State.reset.atInstant 255 0 0 = false) ∧
    (let s := regsAt [(BCN_CTRL_ENABLE, 0, 1)]
     s.on BCN_CTRL_ENABLE = true ∧ s.pair.bcnWait = false ∧ s.bcn.run = none ∧
     ({ s with bcn := { s.bcn with run := some { at_ := 0, force := false } } } : State).bcn.run.isSome = true) ∧
    (regsAt [(BCN_PROF_SRC_ADDR, 0, 0x10000001)]).g BCN_PROF_SRC_ADDR % 64 ≠ 0 ∧
    (let s := regsAt [(BCN_PROF_SRC_ADDR, 0, 0x10FED980)]
     s.g BCN_PROF_CTRL_SHADOW ≠ 1 ∧ s.g BCN_PROF_SRC_ADDR % 64 = 0 ∧ s.inRam (s.g BCN_PROF_SRC_ADDR) profBytes = true) ∧
    (State.reset.g BCN_PROF_CTRL_ACTIVE_BANK ≠ (1 : Fin 2).val ∧ State.reset.g BCN_PROF_CTRL_SHADOW ≠ 2 ∧
      (regsAt [(BCN_PROF_CTRL_SHADOW, 0, 2)]).g BCN_PROF_CTRL_SHADOW = 2) ∧
    (State.reset.on BCN_PT_CMD_BUSY = false ∧ 1 ≤ (1024 : Fin 2048).val ∧ (1024 : Fin 2048).val ≤ 1024 ∧
      inSram 0x10FFFC00 1024 = true) ∧
    (let s : State := { regsAt [(BCN_CTRL_ENABLE, 0, 1), (BCN_TIMEOUT_GW_SILENT_S, 0, 300), (BCN_FEV_CFG_LOG2_SIZE, 0, 16),
       (BCN_FEV_BASE_ADDR, 0, winBase - 2 ^ 20)] with tide := 300 * 10 ^ 9 * 65536 }
     s.on BCN_CTRL_ENABLE = true ∧
     s.bcnCfg.silentS ≤ (s.tideNs / 1000000000 + 2 ^ 32 - s.wget 1023 oLASTRX 4) % 2 ^ 32 ∧
     s.g BCN_FEV_CFG_LOG2_SIZE ≤ 16 ∧ s.g BCN_FEV_BASE_ADDR + 2 ^ 20 ≤ winBase) := by decide +kernel

/-- A profile source at the bottom of shared SRAM: VERSION 1, every map of one pair. -/
def profile0 : State :=
  (List.range 16).foldl (fun s m => s.wle (0x10000000 + 73728 + 64 * m + 4) 2 0xFFFF) ((regsAt [(BCN_PROF_SRC_ADDR, 0, 0x10000000),
    (BCN_PROF_CTRL_SHADOW, 0, 1)]).wle (0x10000000 + 75264) 4 1)

theorem find_none_below {l : AMap Byte} {lo k : Nat} (h : ∀ p ∈ l, lo ≤ p.1) (hk : k < lo) : AMap.find l k = none := by
  induction l with
  | nil => rfl
  | cons x t ih =>
    have hx := h x (by simp)
    have : x.1 ≠ k := by omega
    simp only [AMap.find, this, if_false]
    exact ih fun p hp => h p (by simp [hp])

theorem profile0_low (k : Nat) (h : k < 0x10012004) : profile0.rb k = 0 := by
  have : ∀ p ∈ profile0.mem, 0x10012004 ≤ p.1 := by decide +kernel
  simp only [State.rb, AMap.get, find_none_below this h]
  rfl

theorem profile0_rle1 (k : Nat) (h : k < 0x10012004) : profile0.rle k 1 = 0 := by
  simp [State.rle, State.rbs, profile0_low k h, leNat]

theorem profile0_rle2 (k : Nat) (h : k + 1 < 0x10012004) : profile0.rle k 2 = 0 := by
  simp [State.rle, State.rbs, profile0_low k (by omega), profile0_low (k + 1) h, leNat]

theorem test_can_BcnRebuildEnd : (State.reset.wle 0x10000000 1 16).profFault 0x10000000 = some 0 ∧ profile0.profFault 0x10000000 = none ∧
    State.reset.eccUncorr 0x10000000 profBytes = false ∧ profile0.eccUncorr 0x10000000 profBytes = false ∧
    ({ profile0 with eccBad := [.word 0x10000000] } : State).eccUncorr 0x10000000 profBytes = true ∧
    profile0.g BCN_PROF_CTRL_SHADOW = 1 := by
  refine ⟨by decide +kernel, ?_, rfl, rfl, rfl, by decide +kernel⟩
  have hs : ∀ p ∈ List.range 256, ¬ 15 < profile0.rle (0x10000000 + 256 * p) 1 ∧ profile0.rle (0x10000000 + 256 * p) 1 = 0 := by
    intro p hp
    rw [profile0_rle1 _ (by have := List.mem_range.mp hp; omega)]
    simp
  have hc : ∀ i ∈ List.range (256 * 13), profile0.rle (0x10000000 + (65536 + 512 * 3 + 2 * i)) 2 = 0 := by
    intro i hi
    exact profile0_rle2 _ (by have := List.mem_range.mp hi; omega)
  unfold State.profFault
  simp only [Option.or_eq_none_iff, List.findSome?_eq_none_iff]
  refine ⟨fun p hp => ?_, fun i hi => ?_, by decide +kernel, by decide +kernel, by decide +kernel⟩
  · simp only [State.progSteps, (hs p hp).2]
    rfl
  · have hm : profile0.rle (0x10000000 + (65536 + 512 * 3 + 2 * i) - 2) 2 = 0 :=
      profile0_rle2 _ (by have := List.mem_range.mp hi; omega)
    simp [hc i hi, hm]

/-- The Beacon with gateway 1023 on path 5 over field port 4, its session's phase 0 installed. -/
def gateway (l : List (Fld × Nat × Nat)) (x : BcnSt) : State :=
  let s := regsAt ([(BCN_CTRL_ENABLE, 0, 1), (NET_PORT_CTRL_ENABLE, dPort 4, 1), (BCN_STATUS_FIRST_DONE, 0, 1),
    (BCN_SYSID_SYSTEM_ID, 0, 9), (SYS_CTR_PATH_ENABLE, dPath 5, 1), (SYS_CTR_PATH_KIND, dPath 5, kBEACON),
    (SYS_CTR_PATH_TARGET, dPath 5, 4), (BCN_FEV_CFG_LOG2_SIZE, 0, 16), (BCN_FEV_BASE_ADDR, 0, winBase - 2 ^ 20),
    (SYS_MODE_MODE, 0, RUN), (BCN_CAMP_IMAGE_ADDR, dCamp 7, 0x10000000), (BCN_CAMP_LEN_BYTES, dCamp 7, 4194304),
    (BCN_CAMP_SIG_ADDR, dCamp 7, 0x10FFFFC0), (BCN_CAMP_CFG_PATH, dCamp 7, 5), (BCN_CAMP_CFG_WAVE_SIZE, dCamp 7, 1024),
    (BCN_CAMP_TIMING_ACK_TIMEOUT_MS, dCamp 7, 60000)] ++ l)
  let s := s.wbs (bcnGw 1023) (leBytes 4 (1 + 2 * 1 + 8 * 4) ++ leBytes 2 5 ++ leBytes 2 7 ++ [10, 0, 0, 1] ++
    List.replicate 12 0 ++ leBytes 2 34980 ++ [0, 0])
  { s with bst := { prod := { sess := [(7, { k0 := some (List.replicate 32 7) })] } }, bcn := x }

/-- A frame of one ALIVE message, sealed under the session's key. -/
def sealed (seq : Nat) : List Byte :=
  let head := bcnHeader 1 0 1023 seq 9
  let x := aesGcm (List.replicate 32 7) (bcnNonce 1 0 1023 seq) head [0x84, 0, 0, 4, 1, 2, 3, 4]
  head ++ x.1 ++ x.2

theorem test_can_BeaconReceiveAndCampaigns_receive :
    State.reset.on BCN_CTRL_ENABLE = false ∧
    (gateway [(BCN_STATUS_FIRST_DONE, 0, 0)] {}).on BCN_STATUS_FIRST_DONE = false ∧
    (let s := gateway [] { rx := List.replicate 4096 ⟨0, [], 0⟩ }
     s.on BCN_CTRL_ENABLE = true ∧ s.on NET_PORT_CTRL_ENABLE (dPort 4) = true ∧ s.on BCN_STATUS_FIRST_DONE = true ∧
     4096 ≤ s.bcn.rx.length) ∧
    (let s := gateway [] {}
     let l := sealed 1
     let key : List Byte := List.replicate 32 7
     let c := s.wcfg 1023
     s.bcn.rx.length < 4096 ∧ beNat ((l.drop 4).take 2) = 1023 ∧ s.gwUsable 1023 = true ∧ c.trans = 1 ∧ c.udp = 34980 ∧
     c.ip.take 4 = beBytes 4 0x0A000001 ∧ 32 ≤ l.length ∧ fldB l 0 1 = 1 ∧ fldB l 1 1 = 1 ∧ fldB l 2 1 % 2 = 0 ∧
     beNat ((l.drop 12).take 4) = s.g BCN_SYSID_SYSTEM_ID ∧ s.wget 1023 oRXSEQ 8 < beNat ((l.drop 6).take 6) ∧
     s.sessKey c.session 0 = some key ∧
     aesGcmOpen key (bcnNonce 1 0 1023 1) (l.take 16) ((l.drop 16).take (l.length - 32)) (l.drop (l.length - 16)) =
       some [0x84, 0, 0, 4, 1, 2, 3, 4] ∧
     splitMsgs 8 (aesGcm key (bcnNonce 1 0 1023 1) (l.take 16) ((l.drop 16).take (l.length - 32))).1 = some [(0x84, [1, 2, 3, 4])] ∧
     s.g BCN_FEV_CFG_LOG2_SIZE ≤ 16 ∧ s.g BCN_FEV_BASE_ADDR + 2 ^ 20 ≤ winBase) ∧
    (∀ type ∈ [0x81, 0x82, 0x83, 0x84], ((gateway [] { rx := [⟨1023, [(type, [])], 0⟩] }).takeMsg type).isSome = true) ∧
    State.reset.eccUncorr (State.reset.revKey 1023 0) 4 = false ∧
    (let y : CampTarget := ⟨3, 1023, 8, 2, 1⟩
     let s := gateway [(BCN_CAMP_STATUS_STATE, dCamp 7, 2)] { camps := [(7, { targets := [y] })] }
     (s.camp 7).targets.find? (fun t => t.gw = 1023 ∧ t.laddr = 8) = some y ∧ s.campState 7 = 2) := by decide +kernel

theorem test_can_no_bad_record (n : Nat) : State.reset.recBad n = false := rfl

theorem test_can_BeaconReceiveAndCampaigns_campaigns :
    (let s := gateway [] {}
     s.campState 7 = 0 ∧ s.mode = RUN ∧ s.g BCN_CAMP_LEN_BYTES (dCamp 7) ≤ 4194304 ∧
     s.g BCN_CAMP_IMAGE_ADDR (dCamp 7) % 64 = 0 ∧ s.g BCN_CAMP_SIG_ADDR (dCamp 7) % 64 = 0 ∧ s.inRam 0x10000000 4194304 = true ∧
     s.inRam 0x10FFFFC0 64 = true ∧ s.pathOn 5 = true ∧ s.pathKind 5 = kBEACON ∧ outside 1024 1 1024 = false ∧
     outside 60000 10 60000 = false) ∧
    (State.reset.on BCN_CTRL_ENABLE = false ∧ State.reset.campState 7 ≠ 1) ∧
    (gateway [(BCN_CAMP_STATUS_STATE, dCamp 7, 1)] {}).campState 7 = 1 ∧
    (let s := gateway [(BCN_CAMP_STATUS_STATE, dCamp 7, 2), (BCN_CAMP_LEN_BYTES, dCamp 7, 8)]
       { camps := [(7, { targets := [⟨3, 1023, 8, 1, 0⟩], gws := [(1023, { waiting := true })] })] }
     s.campState 7 = 2 ∧ s.on BCN_CTRL_ENABLE = true ∧ s.mode = RUN ∧ s.eccUncorr (s.g BCN_CAMP_AREA_ADDR + 0x400000 * 7) 8 = false ∧
     (let t := { s with fab := 24000000000, bcn := { s.bcn with paused := 0 } }
      ((t.camp 7).gw 1023).since + 400000 * t.g BCN_CAMP_TIMING_ACK_TIMEOUT_MS (dCamp 7) = t.campClock) ∧
     (s.campTurn 7).find? (fun w => s.gwUsable w && (s.campMsg 7 w).isSome) = some 1023 ∧
     ((s.camp 7).gw 1023).waiting = true) ∧
    (gateway [(BCN_CAMP_STATUS_STATE, dCamp 7, 3)] {}).campState 7 = 3 := by decide +kernel

theorem test_can_TallyCommands :
    (let s := { regsAt [(TLY_CTRL_ENABLE, 0, 1), (TLY_FDR_CTRL_ENABLE, dFdr 3, 1), (TLY_PO_CFG_ENABLE, dPo 7, 1),
       (TLY_PO_STATUS_BACKLOG, dPo 7, 1), (SYS_MODE_MODE, 0, RUN)] with tly := { n := 753, thDue := true, writes := 1 } }
     s.inReset = false ∧ s.tlyOn = true ∧ s.fdrOn 3 = true ∧ s.tly.thDue = true ∧ s.tly.writes ≠ 0 ∧
     ((s.setFdr 3 { pend := [(true, 740)], counted := true }).fdr 3).pend = (true, 740) :: [] ∧
     ((s.setFdr 3 { pend := [(false, 740)] }).fdr 3).pend = (false, 740) :: [] ∧
     ((s.fdr 3).pend = [] ∧ ((s.fdr 3).last.getD ((s.fdr 3).since : Rat)) + 64000 / 85 ≤ (s.tly.n : Rat)) ∧
     (s.poOn 7 = true ∧ (s.pulse 7).phase = 0 ∧ s.g TLY_PO_STATUS_BACKLOG (dPo 7) ≠ 0 ∧ s.pulseMay 7 = true) ∧
     (((s.setPulse 7 { phase := 1, until_ := 753 }).pulse 7).phase = 1 ∧
       ((s.setPulse 7 { phase := 1, until_ := 753 }).pulse 7).until_ ≤ s.tly.n) ∧
     ((s.setPulse 7 { phase := 2, until_ := 753 }).pulse 7).phase = 2 ∧ s.mode ≠ PROVISION) ∧
    (let s := (regsAt [(TLY_CTRL_ENABLE, 0, 1), (TLY_TH_CTRL_ENABLE, dTh 31, 1)]).setThm 31 { pulse := true, pin := 63 }
     s.thOn 31 = true ∧ (s.thm 31).pulse = true ∧ (s.thm 31).pin = (63 : Fin 64).val) ∧
    (State.reset.mode = PROVISION ∧ 191 < (192 : BitVec 8).toNat ∧ (191 : BitVec 8).toNat ≤ 191) ∧
    ((regsAt [(PWR_TEMP_CFG_TJ_LIMIT, 0, 100)]).g PWR_TEMP_CFG_TJ_LIMIT : Int) < (101 : BitVec 16).toInt := by decide +kernel

/-- Port 4 enabled with its link up; further fields. -/
def port4 (x : NetPort) (l : List (Fld × Nat × Nat)) : State :=
  (regsAt ([(NET_PORT_CTRL_ENABLE, dPort 4, 1), (NET_PORT_STATUS_LINK, dPort 4, 1)] ++ l)).setPort 4 x
/-- An untagged broadcast frame of 60 octets and an EtherType. -/
def etherFrame (type : Nat) : List Byte :=
  List.replicate 6 0xFF ++ [2, 0, 0, 0, 0, 1] ++ beBytes 2 type ++ List.replicate 46 0

theorem test_can_EthernetPortCommands :
    (let s := regsAt [(NET_PORT_CTRL_ENABLE, dPort 4, 1)]
     s.on NET_PORT_CTRL_ENABLE (dPort 4) = true ∧ s.on NET_PORT_STATUS_LINK (dPort 4) = false) ∧
    (let s := port4 {} []
     s.on NET_PORT_CTRL_ENABLE (dPort 4) = true ∧ s.on NET_PORT_STATUS_LINK (dPort 4) = true ∧ s.destOk 4 (List.replicate 6 0xFF) = true ∧
     s.destOk 4 [4, 0, 0, 0, 0, 1] = false ∧ (s.port 4).busy = none ∧ s.eccIn (.port 4) = false ∧
     ({ s with eccBad := [.port 4] }).eccIn (.port 4) = true ∧ (State.passOversize 8192 s 4).nextFrame 4 = none) ∧
    (64 ≤ (etherFrame 0x9000).length + 4 ∧ (etherFrame 0x9000).length + 4 = 64 ∧ (etherBody (etherFrame 0x8808)).1 = 0x8808 ∧
      (etherBody (etherFrame 0x9000)).1 = 0x9000 ∧ ip4Bad 0x9000 (etherBody (etherFrame 0x9000)).2 = false ∧
      ip4Bad 0x0800 (etherBody (etherFrame 0x0800)).2 = true ∧ udpIn 0x9000 (etherBody (etherFrame 0x9000)).2 = none) ∧
    (let f : TxFrame := ⟨7, .octets [1, 2, 3], none, 64⟩
     let s := { port4 { queue := [f] } [] with fab := 5 }
     (State.passOversize 8192 s 4).nextFrame 4 = some (0, f) ∧ f.body ≠ .ring) ∧
    (let s := State.reset.setPort 3 { chg := some 0 }
     (s.port 3).chg = some 0 ∧ 0 ≤ s.tideNs ∧ s.g NET_GCL_ADMIN_LEN_LEN (dPort 3) ≤ 256 ∧ s.g NET_GCL_STATUS_OPER_LEN (dPort 3) ≤ 256) ∧
    ((63 : Fin 2048).val < 64 ∧ 1518 < (1519 : Fin 2048).val ∧ 64 ≤ (1518 : Fin 2048).val ∧ State.reset.anyPath = false) ∧
    (State.reset.on NET_PORT_MDIO_BUSY (dPort 4) = false ∧ (0x80000000 : BitVec 32).toNat.testBit 31 = true) ∧
    ((State.reset.setPort 4 { mdio := some 0x20000000 }).port 4).mdio = some 0x20000000 ∧ 2 ≤ bits 0x20000000 28 2 := by
  decide +kernel

/-- OTHER_MAX raised past what an enabled path's admission allows. -/
theorem test_can_OtherWrite :
    let s := port4 {} [(SYS_CTR_PATH_ENABLE, dPath 0, 1), (SYS_CTR_PATH_TARGET, dPath 0, 4)]
    let w := (s.p NET_PORT_OTHER_OTHER_TC (dPort 4) 7).p NET_PORT_OTHER_OTHER_MAX (dPort 4) 1518
    s.anyPath = true ∧ w ≠ s ∧ (s.admitChange w).1 = false := by decide +kernel

/-- Port 3 with its link up and domain 1 (number 24) enabled, the port in state `st` with the further fields. -/
def ptp3 (x : PtpPort) (l : List (Fld × Nat × Nat)) : State :=
  (regsAt ([(TID_CTRL_ENABLE, 0, 1), (NET_PORT_CTRL_ENABLE, dPort 3, 1), (NET_PORT_STATUS_LINK, dPort 3, 1), (TID_DOM_CFG_ENABLE, dDom 1, 1),
    (TID_DOM_CFG_DOMAIN_NUMBER, dDom 1, 24)] ++ l)).setPort 3 { ptp := [(1, x)] }

theorem test_can_PtpMessages :
    (State.reset.msgDomain 3 24 = none) ∧
    (let s := ptp3 {} [(NET_PTP_CFG_STATE, dPtp 3 1, 1)]
     s.msgDomain 3 (24 : BitVec 8).toNat = some 1 ∧ s.ptpState 3 1 = 1 ∧ s.ptpRuns 3 1 = true ∧ s.eccIn .tide = false ∧
     s.intervalOver none (s.g NET_PTP_CFG_LOG_DELAY (dPtp 3 1)) = true ∧
     s.intervalOver (some 0) (s.g NET_PTP_CFG_LOG_DELAY (dPtp 3 1)) = false) ∧
    (let s := ptp3 { sync := some (65535, 1000, 5) } [(NET_PTP_CFG_STATE, dPtp 3 1, 1)]
     s.msgDomain 3 (24 : BitVec 8).toNat = some 1 ∧ s.ptpState 3 1 = 1 ∧ (s.ptpPort 3 1).sync = some ((65535 : BitVec 16).toNat, 1000, 5)) ∧
    (let s := ptp3 { req := some (7, some 700), lastSync := some (500, 400) } [(NET_PTP_CFG_STATE, dPtp 3 1, 1)]
     s.msgDomain 3 (24 : BitVec 8).toNat = some 1 ∧ s.ptpState 3 1 = 1 ∧ s.on NET_PTP_CFG_P2P (dPtp 3 1) = false ∧
     (0x000000FFFE0000000004 : BitVec 80).toNat = s.portIdentity 3 ∧ (s.ptpPort 3 1).req = some ((7 : BitVec 16).toNat, some 700) ∧
     (s.ptpPort 3 1).lastSync = some (500, 400)) ∧
    (let s := ptp3 { req := some (7, some 700), presp := some (3, 800, 2) } [(NET_PTP_CFG_STATE, dPtp 3 1, 1), (NET_PTP_CFG_P2P, dPtp 3 1, 1)]
     s.msgDomain 3 (24 : BitVec 8).toNat = some 1 ∧ s.on NET_PTP_CFG_P2P (dPtp 3 1) = true ∧
     (0x000000FFFE0000000004 : BitVec 80).toNat = s.portIdentity 3 ∧ (s.ptpPort 3 1).req = some ((7 : BitVec 16).toNat, some 700) ∧
     (s.ptpPort 3 1).presp = some (3, 800, 2)) ∧
    (let s := ptp3 {} [(NET_PTP_CFG_STATE, dPtp 3 1, 2)]
     s.msgDomain 3 (24 : BitVec 8).toNat = some 1 ∧ s.ptpState 3 1 = 2 ∧ s.on NET_PTP_CFG_P2P (dPtp 3 1) = false ∧ s.ptpRuns 3 1 = true ∧
     s.intervalOver (s.ptpPort 3 1).syncAt (s.g NET_PTP_CFG_LOG_SYNC (dPtp 3 1)) = true ∧
     s.intervalOver (some 0) (s.g NET_PTP_CFG_LOG_SYNC (dPtp 3 1)) = false) ∧
    (let s := ptp3 {} [(NET_PTP_CFG_STATE, dPtp 3 1, 2), (NET_PTP_CFG_P2P, dPtp 3 1, 1)]
     s.msgDomain 3 (24 : BitVec 8).toNat = some 1 ∧ s.ptpState 3 1 = 2 ∧ s.on NET_PTP_CFG_P2P (dPtp 3 1) = true) := by
  decide +kernel

/-- Domain `d` synchronised and due for its loss, with further fields: port 0 its slave. -/
def lossDue (d : Nat) (l : List (Fld × Nat × Nat)) : State :=
  { regsAt ([(TID_CTRL_ENABLE, 0, 1), (NET_PORT_CTRL_ENABLE, 0, 1), (NET_PORT_STATUS_LINK, 0, 1), (TID_DOM_CFG_ENABLE, dDom d, 1),
      (NET_PTP_CFG_STATE, dPtp 0 d, 1), (TID_DOM_STATUS_SERVO, dDom d, sLOCKED)] ++ l) with fab := 10 ^ 12 }

theorem test_can_TideCommands :
    (State.reset.inReset = false ∧
      1000000000 ≤ (regsAt [(TID_ADJ_VAL_NS_NANOSECONDS, 0, 1000000000)]).g TID_ADJ_VAL_NS_NANOSECONDS) ∧
    (let s := regsAt [(TID_ADJ_VAL_NS_NANOSECONDS, 0, 999999999), (SYS_CTR_PATH_ENABLE, dPath 511, 1)]
     s.g TID_ADJ_VAL_NS_NANOSECONDS < 1000000000 ∧ s.anyPath = true) ∧
    (State.reset.g TID_ADJ_VAL_NS_NANOSECONDS < 1000000000 ∧ State.reset.anyPath = false) ∧
    (1000000000 < (toSigned 32 ((regsAt [(TID_ADJ_OFS_OFFSET_NS, 0, 0x80000000)]).g TID_ADJ_OFS_OFFSET_NS)).natAbs) ∧
    ((toSigned 32 ((regsAt [(TID_ADJ_OFS_OFFSET_NS, 0, 1000000000)]).g TID_ADJ_OFS_OFFSET_NS)).natAbs ≤ 1000000000) ∧
    (State.reset.g TID_SELECT_ACTIVE = 0) ∧
    (¬ State.reset.g TID_SELECT_ACTIVE = 1 ∧ ¬ State.reset.on TID_DOM_CFG_ENABLE (dDom 1) = true) ∧
    (let s := regsAt [(TID_DOM_CFG_ENABLE, dDom 1, 1), (TID_DOM_STATUS_SERVO, dDom 1, sLOCKED)]
     ¬ s.g TID_SELECT_ACTIVE = 1 ∧ s.on TID_DOM_CFG_ENABLE (dDom 1) = true ∧ s.servoState 1 = sLOCKED) ∧
    (let s := lossDue 1 []
     s.slavePort 1 = some 0 ∧ s.on TID_CTRL_ENABLE = true ∧ s.on TID_DOM_CFG_ENABLE (dDom 1) = true ∧ s.servoState 1 < sHOLDOVER ∧
     (s.servo 1).lastAt + s.lossCycles 0 1 ≤ s.fab ∧ ¬ s.g TID_SELECT_ACTIVE = 1) ∧
    (let s := lossDue 0 [(TID_SELECT_AUTO, 0, 1), (TID_DOM_CFG_ENABLE, dDom 1, 1), (TID_DOM_STATUS_SERVO, dDom 1, sLOCKED)]
     s.slavePort 0 = some 0 ∧ s.on TID_CTRL_ENABLE = true ∧ s.on TID_DOM_CFG_ENABLE (dDom 0) = true ∧ s.servoState 0 < sHOLDOVER ∧
     (s.servo 0).lastAt + s.lossCycles 0 0 ≤ s.fab ∧ s.g TID_SELECT_ACTIVE = 0 ∧ s.on TID_SELECT_AUTO = true ∧
     s.on TID_DOM_CFG_ENABLE (dDom 1) = true ∧ s.servoState 1 = sLOCKED) ∧
    (let s := lossDue 0 []
     s.slavePort 0 = some 0 ∧ s.on TID_CTRL_ENABLE = true ∧ s.on TID_DOM_CFG_ENABLE (dDom 0) = true ∧ s.servoState 0 < sHOLDOVER ∧
     (s.servo 0).lastAt + s.lossCycles 0 0 ≤ s.fab ∧ s.g TID_SELECT_ACTIVE = 0 ∧
     (s.on TID_SELECT_AUTO = false ∨ ¬ s.on TID_DOM_CFG_ENABLE (dDom 1) = true)) := by decide +kernel

theorem test_can_TideCommands_pins :
    (∀ driven : Fin 2, let s := { State.reset.p TIDE_OUT_CTRL_ENABLE (dPin 7) driven.val with tid := { State.reset.tid with outs := [(7, some 5)] }, tide := 5 * 65536 }
      s.outNext 7 = some 5 ∧ 5 ≤ s.tideNs) ∧
    (State.reset.on TIDE_IN_CFG_ENABLE (dPin 3) = false) ∧
    (let s := regsAt [(TIDE_IN_CFG_ENABLE, dPin 3, 1), (TIDE_IN_CFG_EDGE, dPin 3, 3)]
     (s.on TIDE_IN_CFG_ENABLE (dPin 3) && (s.g TIDE_IN_CFG_EDGE (dPin 3)).testBit 0) = true ∧ (s.inFifo 3).length < 16) := by
  decide +kernel

/-- CAN controller 7 joined to its bus, with class 7 bound to path 3 (kind 2, bound to the controller) and further fields. -/
def can7 (c : CanCtl) (l : List (Fld × Nat × Nat)) : State :=
  (regsAt ([(SYS_MODE_MODE, 0, RUN), (FBS_CTL_CTRL_ENABLE, dCan 7, 1), (FBS_CTL_STATUS_STATE, dCan 7, kACTIVE)] ++ l)).setCan 7 c

theorem test_can_CanCommands_items :
    (State.reset.inReset = false ∧ (State.reset.p FBS_CLS_ADDR_ADDR (dCls 7 7) 4).g FBS_CLS_ADDR_ADDR (dCls 7 7) % 8 ≠ 0) ∧
    (inSram (State.reset.g FBS_CLS_ADDR_ADDR (dCls 7 7)) 32 = false) ∧
    (let s := regsAt [(FBS_CLS_ADDR_ADDR, dCls 7 7, 0x10000000), (FBS_CLS_CFG_BOUND, dCls 7 7, 1), (SYS_MODE_MODE, 0, SAFE)]
     (s.canOfferCode 7 7).1 ≠ 0x708 ∧ s.mode = SAFE ∧ s.on FBS_CLS_CFG_BOUND (dCls 7 7) = true) ∧
    ((State.reset.canOfferCode 7 7).1 ≠ 0) ∧
    (let s := { can7 {} [(FBS_CLS_ADDR_ADDR, dCls 7 7, 0x10000000), (FBS_CLS_CFG_BOUND, dCls 7 7, 1), (FBS_CLS_CFG_PATH, dCls 7 7, 3),
        (SYS_CTR_PATH_ENABLE, dPath 3, 1), (SYS_CTR_PATH_KIND, dPath 3, 2), (SYS_CTR_PATH_TARGET, dPath 3, 7), (SYS_CTR_SIZE_MAX_SIZE, dPath 3, 1000),
        (SYS_CTR_RATE_MAX_ITEMS, dPath 3, 5)] with tide := 10 ^ 15 }
     ((s.wbs 0x10000000 (leBytes 4 100 ++ [0, 0] ++ leBytes 2 8)).canOfferCode 7 7).1 = 0) ∧
    (let it : CanItem := ⟨7, 65535, 1, 0x10000000, false, false, []⟩
     let s := can7 { items := [it] } []
     (s.canCtl 7).items.find? (fun x => x.cls == 7 && !x.fetched) = some it ∧
     s.eccUncorr it.addr (32 + s.rle (it.addr + 6) 2) = false ∧
     ({ s with eccBad := [.word (0x10000000 + 24)] }).eccUncorr it.addr (32 + s.rle (it.addr + 6) 2) = true) := by decide +kernel

theorem test_can_CanCommands_frames :
    (let it : CanItem := ⟨7, 65535, 1, 0x10000000, true, false, leBytes 4 100 ++ [0, 0] ++ leBytes 2 0⟩
     let s := can7 { items := [it] } []
     s.canJoined 7 = true ∧ s.canListen 7 = false ∧ (s.canCtl 7).sending = none ∧ s.canNext 7 = some it) ∧
    (let s := can7 { sending := some (7, 65535, true) } []
     s.canJoined 7 = true ∧ (s.canCtl 7).sending.isSome = true ∧ (s.canCtl 7).sending = some (7, 65535, true)) ∧
    (let s := can7 {} []
     s.canJoined 7 = true ∧ (s.canRoute 7 100 0).1 = none) ∧
    (let s := can7 {} [(FBS_CTL_NOMATCH_DEST, dCan 7, 2)]
     s.canJoined 7 = true ∧ (s.canRoute 7 100 0).1 = some 1) ∧
    (let s := can7 {} [(FBS_CTL_NOMATCH_DEST, dCan 7, 1), (FBS_FIFO_TAIL_INDEX, dFifo 7 0, 64)]
     (s.canRoute 7 100 0).1 = some 0 ∧ ringUsed 6 (s.g FBS_FIFO_HEAD_INDEX (dFifo 7 0)) (s.g FBS_FIFO_TAIL_INDEX (dFifo 7 0)) = 64 ∧
     dataMax (s.g FBS_FIFO_CFG_DATA_MAX (dFifo 7 0)) < 64 ∧ ([] : List Byte).length ≤ dataMax (s.g FBS_FIFO_CFG_DATA_MAX (dFifo 7 0))) ∧
    (ringUsed 6 ((can7 {} []).g FBS_FIFO_HEAD_INDEX (dFifo 7 0)) ((can7 {} []).g FBS_FIFO_TAIL_INDEX (dFifo 7 0)) ≠ 64) ∧
    (let s := regsAt [(FBS_CTL_CTRL_ENABLE, dCan 7, 1), (FBS_CTL_STATUS_STATE, dCan 7, kINTEGRATING)]
     s.on FBS_CTL_CTRL_ENABLE (dCan 7) = true ∧ s.canState 7 = kINTEGRATING) ∧
    (let s := can7 { newTiming := true } []
     (s.canCtl 7).newTiming = true ∧ (s.canCtl 7).sending = none) ∧
    (let s := can7 {} [(FBS_CTL_CTRL_OPMODE, dCan 7, 1)]
     s.on FBS_CTL_CTRL_ENABLE (dCan 7) = true ∧ s.canListen 7 = true ∧ s.on FBS_CTL_MEAS_MEASURE (dCan 7) = false) ∧
    (¬ State.reset.on FBS_CTL_CTRL_ENABLE (dCan 7) = true) ∧
    ((State.reset.p FBS_CTL_MEAS_MEASURE (dCan 7) 1).on FBS_CTL_MEAS_MEASURE (dCan 7) = true ∧
      ((can7 { measEnd := 5 } []).canCtl 7).measEnd ≤ 5) := by decide +kernel

/-- UART 7 enabled, in a phase that is due at fabric cycle 5. -/
def uart7 (phase : Nat) (tx : List Byte) (l : List (Fld × Nat × Nat)) : State :=
  { regsAt ((MBS_CFG_ENABLE, dUart 7, 1) :: l) with uarts := [(7, ⟨phase, tx, 5⟩)] }

theorem test_can_MeterBusCommands :
    (State.reset.inReset = false ∧ ¬ State.reset.on MBS_CFG_ENABLE (dUart 7) = true) ∧
    (let s := uart7 0 [] [(SYS_MODE_MODE, 0, RUN)]
     s.on MBS_CFG_ENABLE (dUart 7) = true ∧ s.mode = RUN ∧ (s.uart 7).phase = 0) ∧
    ((0 : Fin 1024).val = 0 ∧ 512 < (513 : Fin 1024).val ∧ 1 ≤ (1 : Fin 1024).val ∧ (512 : Fin 1024).val ≤ 512) ∧
    (let s := uart7 1 [0x10] [(SYS_MODE_MODE, 0, RUN)]
     (s.uart 7).phase = 1 ∧ s.mode = RUN ∧ s.fab < (s.uart 7).due ∧ (({ s with fab := 5 } : State).uart 7).due ≤ 5) ∧
    (let s := uart7 1 [0x10] []
     s.on MBS_CFG_ENABLE (dUart 7) = true ∧ ([0xE5] : List Byte) ≠ [] ∧ ¬ (s.on MBS_CFG_HALF_DUPLEX (dUart 7) = true ∧ (s.uart 7).phase = 1)) ∧
    (let s := uart7 2 [] [(MBS_CFG_HALF_DUPLEX, dUart 7, 1)]
     s.on MBS_CFG_ENABLE (dUart 7) = true ∧ List.replicate 513 (0 : Byte) ≠ [] ∧
     ¬ (s.on MBS_CFG_HALF_DUPLEX (dUart 7) = true ∧ (s.uart 7).phase = 1) ∧ (s.uart 7).phase = 2 ∧ s.fab < (s.uart 7).due ∧
     (({ s with fab := 5 } : State).uart 7).due ≤ 5) := by decide +kernel

/-- The reset State at a tick before the calendar's end and midnight, with fields and the Almanac's own state. -/
def almAt (a : AlmSt) (l : List (Fld × Nat × Nat)) : State := { (regsAt l).putCal ⟨2399, 12, 31, 23, 59, 59, 32767⟩ with alm := a }

theorem test_can_AlmanacCommands_clock :
    ((almAt { stopped := true } []).alm.stopped = true) ∧
    (let s := almAt { armed := [0, 1] } [(ALM_ALARM_CTRL_MASK, dAlarm 0, 0x7F), (ALM_ALARM_CTRL_MASK, dAlarm 1, 0x7F)]
     let now := (s.cal.ticks + 1) % tickEnd
     s.alm.stopped = false ∧ s.cal.ticks + 1 = tickEnd ∧ (s.cal.ticks + 1) % tickDay = 0 ∧
     ∀ a : Fin 2, a.val ∈ s.alm.armed ∧ (s.alarmSet a.val).matchAt now (if now % tickDay = 0 then (s.weekday + 1) % 7 else s.weekday) = true) ∧
    (∀ op : Fin 3, (almAt { cmd := some ⟨op.val + 1, 5, some 6, 24⟩ } []).alm.cmd = some ⟨op.val + 1, 5, some 6, 24⟩ ∧
      (almAt { cmd := some ⟨op.val + 1, 5, some 6, 24⟩ } []).alm.stopped = false) ∧
    (State.reset.log.clearing = none ∧ State.reset.log.queue.length + State.reset.log.hold.length < 256) := by decide +kernel

theorem test_can_AlmanacCommands_commands :
    ((almAt {} [(ALM_STATUS_BUSY, 0, 1)]).inReset = false ∧ (almAt {} [(ALM_STATUS_BUSY, 0, 1)]).on ALM_STATUS_BUSY = true) ∧
    (State.reset.on ALM_STATUS_BUSY = false ∧ dateOk 2100 2 29 = false ∧ dateOk 2000 2 29 = true) ∧
    (let s := regsAt [(ALM_SET_TIME_HOUR, 0, 24)]
     ¬ s.g ALM_SET_TIME_HOUR ≤ 23) ∧
    (let s := regsAt [(ALM_SET_DATE_YEAR, 0, 2024), (ALM_SET_DATE_MONTH, 0, 2), (ALM_SET_DATE_DAY, 0, 29), (ALM_SET_TIME_HOUR, 0, 23),
        (ALM_SET_TIME_MINUTE, 0, 59), (ALM_SET_TIME_SECOND, 0, 59), (ALM_SET_SUB_SET_WD, 0, 1), (ALM_SET_SUB_WEEKDAY, 0, 6)]
     s.on ALM_STATUS_BUSY = false ∧ dateOk (s.g ALM_SET_DATE_YEAR) (s.g ALM_SET_DATE_MONTH) (s.g ALM_SET_DATE_DAY) = true ∧
     s.g ALM_SET_TIME_HOUR ≤ 23 ∧ s.g ALM_SET_TIME_MINUTE ≤ 59 ∧ s.g ALM_SET_TIME_SECOND ≤ 59 ∧ s.g ALM_SET_SUB_WEEKDAY ≤ 6) ∧
    (32768 < (toSigned 17 ((regsAt [(ALM_SHIFT_K, 0, 32769)]).g ALM_SHIFT_K)).natAbs) ∧
    (let s := almAt {} [(ALM_SHIFT_K, 0, 32768)]
     let k := toSigned 17 (s.g ALM_SHIFT_K)
     k.natAbs ≤ 32768 ∧ (tickEnd : Int) ≤ (s.cal.ticks : Int) + 1 + k) ∧
    (let s := almAt {} [(ALM_SHIFT_K, 0, 2 ^ 17 - 32768)]
     let k := toSigned 17 (s.g ALM_SHIFT_K)
     k.natAbs ≤ 32768 ∧ 0 ≤ (s.cal.ticks : Int) + 1 + k ∧ (s.cal.ticks : Int) + 1 + k < tickEnd) ∧
    (6 < (regsAt [(ALM_SET_SUB_WEEKDAY, 0, 7)]).g ALM_SET_SUB_WEEKDAY) := by decide +kernel

/-- The reset State with words in channels. -/
def chanAt (l : List (Nat × Nat × BthWord)) (s : State) : State :=
  { s with channels := l.map fun x => (x.1 * 32 + x.2.1, some x.2.2) }

theorem test_can_BerthsMastAndLocks_berths :
    (State.reset.inReset = false ∧ State.reset.eccIn (.channel 0 25) = false ∧
      (let s := { chanAt [(0, 25, ⟨5, 0, 1⟩)] State.reset with eccBad := [.channel 0 25] }
       s.eccIn (.channel (s.g BTH_RX_PEER_PEER (dBth 25)) 25) = true ∧ (s.chan (s.g BTH_RX_PEER_PEER (dBth 25)) 25).isSome = true)) ∧
    ((chanAt [(25, 0, ⟨5, 25, 1⟩)] State.reset).chan 25 ((State.reset).g BTH_TX_PEER_PEER (dBth 25))).isSome = true ∧
    (let s := (regsAt [(BTH_TX_PEER_PEER, dBth 25, 5)]).setCore 5 { run := .recv, recvFrom := some 25 }
     s.chan 25 (s.g BTH_TX_PEER_PEER (dBth 25)) = none ∧ s.waitsFor (s.g BTH_TX_PEER_PEER (dBth 25)) 25 = true) ∧
    (let s := regsAt [(BTH_TX_PEER_PEER, dBth 25, 26)]
     s.chan 25 (s.g BTH_TX_PEER_PEER (dBth 25)) = none ∧ s.waitsFor (s.g BTH_TX_PEER_PEER (dBth 25)) 25 = false ∧
     s.g BTH_TX_PEER_PEER (dBth 25) < 27) ∧
    (State.reset.firstFull 25 (AMap.get 0 State.reset.bthPos 25) = none) ∧
    (let s := chanAt [(24, 25, ⟨5, 24, 1⟩)] State.reset
     s.firstFull 25 (AMap.get 0 s.bthPos 25) = some 24 ∧ s.eccIn (.channel 24 25) = false) ∧
    (6 ∈ ({ State.reset with waking := [6] }).waking) := by decide +kernel

theorem test_can_BerthsMastAndLocks_mast :
    (srcEdge 0x19 = true ∧ srcLevel 0x18 = true ∧ srcNamed 0x1A = false ∧ srcEdge 0x1FF = true ∧ srcLevel 0xBA = true ∧ srcNamed 0xBB = false ∧
      (0x17F : Fin 512).val < 0x180) ∧
    (let s := { regsAt [(MST_SRC_MOD_MIN_INTERVAL_US, dSrc 0x19, 1)] with grantAt := [(0x19, 0)] }
     s.moderated 0x19 = true ∧ s.moderated 0x180 = false) ∧
    (let s := (regsAt [(MST_CTRL_ENABLE, 0, 1), (MST_SRC_CFG_ON, dSrc 0x19, 1), (MST_SRC_STATE_COUNT, dSrc 0x19, 1), (MST_SRC_CFG_PRIO, dSrc 0x19, 15),
        (MST_SRC_TARGET_MASK, dSrc 0x19, 2 ^ 23)]).setCore 23 { run := .running, ie := true }
     s.offerable 23 = true ∧ s.offer 23 = none ∧ s.select 23 = some 0x19 ∧ s.gated (23 / 4) = false ∧
     ((s.core 23).run ≠ .wait ∨ (s.core 23).ie = true)) ∧
    (let o : Offer := ⟨0x19, 0, false, 15⟩
     let s := { (regsAt [(MST_SRC_STATE_COUNT, dSrc 0x19, 1)]).setCore 23 { run := .running } with offers := [(23, some o)] }
     s.offer 23 = some o ∧ o.src < 512 ∧ (s.core 23).held = none ∧ (s.core 23).run ≠ .idle ∧ (s.core 23).run ≠ .reset ∧
     o.withdrawn = false ∧ s.srcPending o.src = true ∧ s.on MST_SRC_STATE_ACTIVE (dSrc o.src) = false) ∧
    (let o : Offer := ⟨0x19, 0, true, 15⟩
     let s := { State.reset.setCore 23 { run := .running } with offers := [(23, some o)] }
     s.offer 23 = some o ∧ o.src < 512 ∧ (s.core 23).held = none ∧ (s.core 23).run ≠ .idle ∧ (s.core 23).run ≠ .reset ∧
     ¬ (o.withdrawn = false)) := by decide +kernel

theorem test_can_no_bad_source (n : Nat) : State.reset.eccIn (.source n) = false := rfl

theorem test_can_BerthsMastAndLocks_locks :
    ((regsAt [(LCK_STATUS_BUSY, dLock 20, 1)]).on LCK_STATUS_BUSY (dLock 20) = true) ∧
    (let s := State.reset
     let k := s.lock 20
     let w : List (Fin 42) → State := fun ms =>
       s.setLock 20 { k with waiting := k.waiting ++ ((ms.map (·.val)).filter fun m => requests m 20).map (fun m => (m, s.fab)) }
     ¬ s.on LCK_STATUS_BUSY (dLock 20) = true ∧ s.on LCK_STATUS_PARKED (dLock 20) = false ∧ (w []).lockWinner 20 = none ∧
     (w [41, 0]).lockWinner 20 = some (41, 0)) ∧
    (let s := (regsAt [(LCK_STATUS_BUSY, dLock 16, 1)]).setLock 16 { waiting := [(32, 1)], master := 32 }
     s.on LCK_STATUS_BUSY (dLock 16) = true ∧ s.on LCK_STATUS_PARKED (dLock 16) = false ∧
     (s.p LCK_STATUS_BUSY (dLock 16) 0).lockWinner 16 = some (32, 1)) ∧
    (let s := (regsAt [(LCK_STATUS_BUSY, dLock 16, 1)]).setLock 16 { master := 32 }
     s.on LCK_STATUS_BUSY (dLock 16) = true ∧ s.on LCK_STATUS_PARKED (dLock 16) = false ∧ (s.lock 16).waiting = []) ∧
    (let s := { (regsAt [(LCK_STATUS_BUSY, dLock 20, 1), (LCK_STATUS_HOLDER, dLock 20, 20), (LCK_REQ_HOLD, dReq 20 20, 20)]).setLock 20 { master := 41 } with fab := 20 }
     s.on LCK_STATUS_BUSY (dLock 20) = true ∧ s.g LCK_STATUS_HOLDER (dLock 20) < 21 ∧
     (s.lock 20).grantAt + s.lockHold 20 (s.g LCK_STATUS_HOLDER (dLock 20)) ≤ s.fab ∧ 24 ≤ (s.lock 20).master) := by decide +kernel

/-- The pair engine enabled with its link up, further fields, and the engine's own state. -/
def pairAt (x : PairSt) (l : List (Fld × Nat × Nat)) : State :=
  { regsAt ([(PAIR_CTRL_ENABLE, 0, 1), (PAIR_STATUS_LINK, 0, 1)] ++ l) with pair := x }

theorem test_can_PairCommands_line_and_link :
    (State.reset.on PAIR_STATUS_PEER_OWN = false) ∧
    (let s := pairAt {} [(PAIR_STATUS_OWN, 0, 1)]
     s.on PAIR_STATUS_PEER_OWN ≠ true ∧ s.on PAIR_STATUS_OWN = true ∧ s.pair.claim = none ∧ s.pair.grace = none) ∧
    (¬ State.reset.on PAIR_STATUS_LINK = true ∧ (pairAt {} []).on PAIR_STATUS_LINK = true ∧ (pairAt {} []).on PAIR_CTRL_ENABLE = true) ∧
    (let s := { pairAt { statusAt := some 0 } [] with fab := statusLife + 1 }
     ∀ a, s.pair.statusAt = some a → a + statusLife < s.fab) ∧
    (let s := pairAt {} []
     s.on PAIR_CTRL_ENABLE = true ∧ s.atCycle 250 (10 * usCycles) = true ∧ ({ s with fab := 3999 }).atCycle 250 (10 * usCycles) = false ∧
     s.mode ≠ STANDBY ∧ s.pair.swapAt = none ∧ ∀ m ∈ s.pair.unacked, m.repeats ≠ 3) := by
  refine ⟨by decide +kernel, by decide +kernel, by decide +kernel, ?_, by decide +kernel⟩
  intro s a h
  have h' : some 0 = some a := h
  cases h'
  decide +kernel

theorem test_can_PairCommands_takeover :
    (let s := { pairAt { released := true, adopted := true, peerMode := RUN, statusAt := some (10 ^ 9),
                           streams := (List.range 8).map fun k => (k, { lastDone := 10 ^ 9 - 100 }) }
        ([(SYS_MODE_MODE, 0, STANDBY)] ++ (List.range 8).map fun k => (PAIR_STREAM_STATUS_TAKEN, dStream k, 1)) with fab := 10 ^ 9 }
     s.atCycle 250 (10 * usCycles) = true ∧ ¬ (s.mode ≠ STANDBY ∨ s.pair.released = false ∨ s.on PAIR_STATUS_PEER_OWN = true) ∧ s.fit = true) ∧
    (let s := pairAt { released := true } [(SYS_MODE_MODE, 0, STANDBY)]
     ¬ (s.mode ≠ STANDBY ∨ s.pair.released = false ∨ s.on PAIR_STATUS_PEER_OWN = true) ∧ s.fit = false) := by decide +kernel

theorem test_can_PairCommands_messages :
    (let s := pairAt {} [(PAIR_CTRL_UNIT, 0, 1)]
     (1 : Fin 2).val = s.g PAIR_CTRL_UNIT ∧ (0 : Fin 2).val ≠ s.g PAIR_CTRL_UNIT ∧ s.mode ≠ STANDBY ∧ s.pair.adopted = false ∧
     s.pair.finals = false ∧ (0 : BitVec 16).toNat = s.g PAIR_ROLE_ROLE_EPOCH ∧ (65535 : BitVec 16).toNat ≠ s.g PAIR_ROLE_ROLE_EPOCH) ∧
    (let s := pairAt { streams := [(7, { rx := some (65535, []) })] } [(SYS_MODE_MODE, 0, STANDBY)]
     s.mode = STANDBY ∧ (s.stream 7).rx = some (65535, []) ∧ s.roleOk true 0 = true ∧ s.roleOk false 0 = false) ∧
    (let s := pairAt {} []
     (0 : BitVec 32).toNat ∉ s.pair.seen ∧ s.chan 26 25 = none ∧ s.waitsFor 25 26 = false) := by decide +kernel

theorem test_can_PairCommands_copies_and_swaps :
    (let c : CopyRec := ⟨65535, 0, [], 0, 0, [], true⟩
     let s := pairAt { streams := [(7, { committed := [c] })] } [(SYS_MODE_MODE, 0, STANDBY)]
     (s.stream 7).committed = [c] ∧ s.canTake 7 = true ∧ s.takenBy c = true ∧ s.mode = STANDBY ∧ s.pair.takeover = false ∧ s.pair.bcnWait = false) ∧
    (let s := { pairAt { peerMode := RUN } [(SYS_MODE_MODE, 0, STANDBY), (PAIR_COPY_LOCK_STALE_MS, 0, 1)] with fab := 1000 * usCycles }
     s.mode = STANDBY ∧ s.pair.peerMode = RUN ∧ s.streamOn 6 = true ∧ (s.stream 6).stale = false ∧
     (s.stream 6).lastDone + s.g PAIR_COPY_LOCK_STALE_MS * 1000 * usCycles ≤ s.fab) ∧
    (State.reset.inReset = false ∧ ¬ State.reset.mode = RUN) ∧
    (let s := pairAt {} [(SYS_MODE_MODE, 0, RUN), (PAIR_STATUS_PEER_FIT, 0, 1), (PAIR_SWAP_TIME_NS_NANOSECONDS, 0, 999999)]
     s.mode = RUN ∧ s.on PAIR_STATUS_PEER_FIT = true ∧ s.pair.swapTime = none ∧ s.timeNs PAIR_SWAP_TIME_NS_NANOSECONDS < s.tideNs + 1000000) ∧
    (let s := pairAt {} [(SYS_MODE_MODE, 0, RUN), (PAIR_STATUS_PEER_FIT, 0, 1), (PAIR_SWAP_TIME_NS_NANOSECONDS, 0, 1000000)]
     s.mode = RUN ∧ s.on PAIR_STATUS_PEER_FIT = true ∧ s.pair.swapTime = none ∧ s.tideNs + 1000000 ≤ s.timeNs PAIR_SWAP_TIME_NS_NANOSECONDS ∧
     s.timeNs PAIR_SWAP_TIME_NS_NANOSECONDS ≤ s.tideNs + 3600000000000) ∧
    (let s := { pairAt { swapTime := some 5 } [] with tide := 10000005 * 65536 }
     s.pair.swapTime = some 5 ∧ 5 ≤ s.tideNs ∧ s.pair.swapAt = none ∧ 5 + 10000000 ≤ s.tideNs) := by decide +kernel

/-- The reset State with the Logbook's own state and fields. -/
def logAt (x : LogSt) (l : List (Fld × Nat × Nat)) : State := { regsAt l with log := x }
def fixRec : FixRec := ⟨1, 3, 4, 5, 0, 7, 8, 9, 10⟩

theorem test_can_LogbookCommands_stores :
    (let s : State := { logAt { queue := [fixRec], fixed := List.replicate 2 fixRec, seq := 2 ^ 24 - 1 } [] with phase := .mram }
     s.mramReady = true ∧ s.log.queue = [fixRec] ∧ s.log.dropped = 0) ∧
    ((logAt { opAt := 5 } []).log.opAt + 400000000 ≤ 400000005 ∧ (logAt { opAt := 5 } []).fab < 5 + 400000000 ∧
      ({ State.reset with phase := .clocks } : State).mramReady = false) ∧
    (let c : Capture := ⟨7, 7, 1000, [], false⟩
     let s := logAt { caps := [c] } []
     s.log.running = none ∧ s.log.caps = [c]) ∧
    (let c : Capture := ⟨7, 7, 1000, [1, 2], false⟩
     let s := logAt { running := some c, snaps := List.replicate 1024 ⟨7, true, 1, 3, 4, 1000, 5, [1, 2]⟩ } []
     s.log.running = some c ∧ s.log.clearing = none ∧ 1024 ≤ s.log.snaps.length ∧ s.on LOG_CFG_SNAP_WRAP = false) ∧
    ((logAt { selBusy := true } []).log.selBusy = true) := by decide +kernel

theorem test_can_LogbookCommands_export :
    (let s := regsAt [(LOG_EXP_DEST_ADDR, 0, 4)]
     ¬ (s.g LOG_EXP_DEST_ADDR % 64 = 0 ∧ s.inRam (s.g LOG_EXP_DEST_ADDR) 0 = true)) ∧
    (let s := logAt { fixed := [fixRec], export_ := some ([[1]], 0) } [(LOG_EXP_DEST_ADDR, 0, 0x10000000)]
     s.g LOG_EXP_DEST_ADDR % 64 = 0 ∧ s.inRam (s.g LOG_EXP_DEST_ADDR) ((s.log.fixed.map FixRec.octets).length * 32) = true ∧
     ¬ (s.log.export_ = none ∧ s.log.clearing = none)) ∧
    (let s := logAt { fixed := [fixRec] } [(LOG_EXP_DEST_ADDR, 0, 0x10000000)]
     s.g LOG_EXP_DEST_ADDR % 64 = 0 ∧ s.inRam (s.g LOG_EXP_DEST_ADDR) ((s.log.fixed.map FixRec.octets).length * 32) = true ∧
     s.log.export_ = none ∧ s.log.clearing = none) ∧
    (let s := logAt { export_ := some ([fixRec.octets], 0x10000000) } []
     s.log.export_ = some ([fixRec.octets], 0x10000000) ∧ s.ready 0x10000000 32 = true ∧ s.ready ddrBase 32 = false) := by decide +kernel

theorem test_can_LogbookCommands_clear :
    (State.reset.inReset = false ∧ State.reset.log.export_ = none ∧ State.reset.log.clearing = none ∧ State.reset.on BST_STATUS_DRBG_OK = false) ∧
    (let s := regsAt [(BST_STATUS_DRBG_OK, 0, 1)]
     s.on BST_STATUS_DRBG_OK = true ∧ s.log.export_ = none) ∧
    (State.reset.clearCode 3 ≠ 0 ∧ State.reset.log.queue.length + State.reset.log.hold.length < 256) ∧
    ((regsAt [(SYS_MODE_MODE, 0, RUN)]).mode ≠ PROVISION ∧ (regsAt [(SYS_MODE_MODE, 0, RUN)]).mode ≠ FACTORY) ∧
    ((logAt { clearing := some (3, 77, 24) } []).log.clearing = some (3, 77, 24)) ∧
    (let s := logAt { nonce := some (5, 4), opSec := 64 } []
     s.log.nonce = some (5, 4) ∧ 4 + 60 ≤ s.log.opSec) := by decide +kernel

/-- Four octets read as a word and written again are the same octets. -/
theorem beBytes_beNat4 (a b c d : Byte) : beBytes 4 (beNat [a, b, c, d] % 2 ^ 32) = [a, b, c, d] := by
  have ha := a.isLt
  have hb := b.isLt
  have hc := c.isLt
  have hd := d.isLt
  simp only [beBytes, leBytes, beNat, List.foldl_cons, List.foldl_nil, List.reverse_cons, List.reverse_nil, List.nil_append,
    List.cons_append, List.cons.injEq, and_true]
  refine ⟨?_, ?_, ?_, ?_⟩ <;> (apply BitVec.eq_of_toNat_eq; rw [BitVec.toNat_ofNat]; omega)

/-- Sixteen octets of a tag, in the words of LOG_CLR_TAG. -/
def putTag (t : Blk) (s : State) : State :=
  (((s.p LOG_CLR_TAG_TAG 0 (beNat (colOctets t.1.1))).p LOG_CLR_TAG_TAG 4 (beNat (colOctets t.1.2))).p LOG_CLR_TAG_TAG 8
    (beNat (colOctets t.2.1))).p LOG_CLR_TAG_TAG 12 (beNat (colOctets t.2.2))

theorem tag_put (t : Blk) (s : State) :
    ((List.range 4).flatMap fun i => beBytes 4 ((putTag t s).g LOG_CLR_TAG_TAG (4 * i))) = blkOctets t := by
  have e : List.range 4 = [0, 1, 2, 3] := rfl
  have k : ∀ i, i < 16 → ∀ j, j < 16 → i ≠ j → LOG_CLR_TAG_TAG.key i ≠ LOG_CLR_TAG_TAG.key j := by decide
  have w : LOG_CLR_TAG_TAG.w = 32 := rfl
  have b : ∀ x : Col, beBytes 4 (beNat (colOctets x) % 2 ^ 32) = colOctets x := fun x => beBytes_beNat4 ..
  have g0 : (putTag t s).g LOG_CLR_TAG_TAG 0 = beNat (colOctets t.1.1) % 2 ^ 32 := by
    unfold putTag
    rw [State.g_p_ne _ _ _ _ _ _ (k 12 (by decide) 0 (by decide) (by decide)), State.g_p_ne _ _ _ _ _ _ (k 8 (by decide) 0 (by decide) (by decide)),
      State.g_p_ne _ _ _ _ _ _ (k 4 (by decide) 0 (by decide) (by decide)), State.g_p_same, w]
  have g1 : (putTag t s).g LOG_CLR_TAG_TAG 4 = beNat (colOctets t.1.2) % 2 ^ 32 := by
    unfold putTag
    rw [State.g_p_ne _ _ _ _ _ _ (k 12 (by decide) 4 (by decide) (by decide)), State.g_p_ne _ _ _ _ _ _ (k 8 (by decide) 4 (by decide) (by decide)),
      State.g_p_same, w]
  have g2 : (putTag t s).g LOG_CLR_TAG_TAG 8 = beNat (colOctets t.2.1) % 2 ^ 32 := by
    unfold putTag
    rw [State.g_p_ne _ _ _ _ _ _ (k 12 (by decide) 8 (by decide) (by decide)), State.g_p_same, w]
  have g3 : (putTag t s).g LOG_CLR_TAG_TAG 12 = beNat (colOctets t.2.2) % 2 ^ 32 := by
    unfold putTag
    rw [State.g_p_same, w]
  simp only [e, List.flatMap_cons, List.flatMap_nil, Nat.mul_zero, Nat.mul_one, Nat.reduceMul, g0, g1, g2, g3, b, List.append_nil]
  simp only [blkOctets, halfOctets, List.append_assoc]

/-- Slot 0 holds a Logbook clear key, a nonce lives. -/
def clearBase : State :=
  { logAt { nonce := some (5, 4) } [] with bst := { prod := { slots := [(0, ⟨1, 1, 0xFF, 2, 5, List.replicate 32 7⟩)] } } }

theorem aesCmac_blk (key m : List Byte) : ∃ t : Blk, aesCmac key m = blkOctets t := ⟨_, rfl⟩

/-- A CLEAR whose tag is right is accepted. -/
theorem test_can_LogbookCommands_accepted : ∃ t : Blk, (putTag t clearBase).clearCode 3 = 0 := by
  obtain ⟨t, ht⟩ := aesCmac_blk (List.replicate 32 7) (beBytes 16 5 ++ uidOctets ++ [BitVec.ofNat 8 3] ++ List.replicate 15 0)
  refine ⟨t, ?_⟩
  have k : ∀ i, i < 16 → LOG_CLR_TAG_TAG.key i ≠ LOG_CFG_CLEAR_SLOT.key 0 := by decide
  have m : ∀ i, i < 16 → LOG_CLR_TAG_TAG.key i ≠ SYS_MODE_MODE.key 0 := by decide
  have z : ∀ i, i < 16 → LOG_CLR_TAG_TAG.key i ≠ BST_STATUS_TEST_ROOT.key 0 := by decide
  have hs : (putTag t clearBase).g LOG_CFG_CLEAR_SLOT = 0 := by
    unfold putTag
    rw [State.g_p_ne _ _ _ _ _ _ (k 12 (by decide)), State.g_p_ne _ _ _ _ _ _ (k 8 (by decide)), State.g_p_ne _ _ _ _ _ _ (k 4 (by decide)),
      State.g_p_ne _ _ _ _ _ _ (k 0 (by decide))]
    decide +kernel
  have hm : (putTag t clearBase).mode = PROVISION := by
    unfold putTag State.mode
    rw [State.g_p_ne _ _ _ _ _ _ (m 12 (by decide)), State.g_p_ne _ _ _ _ _ _ (m 8 (by decide)), State.g_p_ne _ _ _ _ _ _ (m 4 (by decide)),
      State.g_p_ne _ _ _ _ _ _ (m 0 (by decide))]
    decide +kernel
  have ho : (putTag t clearBase).on BST_STATUS_TEST_ROOT = false := by
    unfold putTag
    rw [State.on_p_ne _ _ _ _ _ _ (z 12 (by decide)), State.on_p_ne _ _ _ _ _ _ (z 8 (by decide)), State.on_p_ne _ _ _ _ _ _ (z 4 (by decide)),
      State.on_p_ne _ _ _ _ _ _ (z 0 (by decide))]
    decide +kernel
  have hb : AMap.get {} (putTag t clearBase).bank.slots 0 = (⟨1, 1, 0xFF, 2, 5, List.replicate 32 7⟩ : KeySlot) := by
    unfold State.bank
    rw [if_neg (by simp [ho])]
    rfl
  have hn : (putTag t clearBase).log.nonce = some (5, 4) := rfl
  have he : (putTag t clearBase).log.export_ = none := rfl
  have hc : (putTag t clearBase).log.clearing = none := rfl
  have hg : (putTag t clearBase).clearTag 5 3 = blkOctets t := by
    unfold State.clearTag
    simp only [hs, hb]
    exact ht
  unfold State.clearCode
  simp [hs, hb, hm, hn, he, hc, hg, tag_put]

/-! ## Accepted messages of the Bonded Store

The device's identifier is an open constant, so the messages are built around it: the wrapped key and the tag are those of the
parent's derived keys. -/

theorem leBytes_length (n : Nat) : ∀ x, (leBytes n x).length = n := by
  induction n with
  | zero => intro x; rfl
  | succ n ih => intro x; simp [leBytes, ih]

theorem leNat_leBytes (n : Nat) : ∀ x, leNat (leBytes n x) = x % 256 ^ n := by
  induction n with
  | zero => intro x; simp [leBytes, leNat, Nat.mod_one]
  | succ n ih =>
    intro x
    have e : 256 ^ (n + 1) = 256 * 256 ^ n := by rw [Nat.pow_succ, Nat.mul_comm]
    simp only [leBytes, leNat, ih, e, Nat.mod_mul, BitVec.toNat_ofNat]
    omega

/-- The key of slot 1: 32 octets of 7. -/
def keyK : List Byte := List.replicate 32 7
/-- A wrapped key under a parent key. -/
def wrapped (key : List Byte) : List Byte := aesWrap4 (kWrap key) [halfAt keyK 0, halfAt keyK 0, halfAt keyK 0, halfAt keyK 0]

/-- The first 32 octets of a message: OP, TARGET, PARENT, KIND, WLEN, COUNTER, the device's identifier (R448). -/
def msgHead (op t p k w ctr : Nat) : List Byte :=
  [1, BitVec.ofNat 8 op, BitVec.ofNat 8 t, BitVec.ofNat 8 (t / 256), BitVec.ofNat 8 p, BitVec.ofNat 8 k, BitVec.ofNat 8 w, 0,
    BitVec.ofNat 8 ctr, 0, 0, 0, 0, 0, 0, 0] ++ uidOctets
/-- A message without a wrapped key, and one with one. -/
def bstPlain (op t p k ctr : Nat) : List Byte := msgHead op t p k 0 ctr ++ List.replicate 112 0
def bstWith (op t p k ctr : Nat) (key : List Byte) : List Byte :=
  msgHead op t p k 40 ctr ++ (wrapped key ++ List.replicate 72 0)
def tagged (key pre : List Byte) : List Byte := pre ++ aesCmac (kMac key) pre

/-- The store under its test root, slot 1 a parent, slot 3 its child, slot 5 empty, with octets at 10000000, and a batch of one message or none. -/
def bstAt (m : List Byte) (runs : Bool) : State :=
  let bank : BstBank := { slots := [(1, ⟨1, 1, 0xFF, 1, 5, keyK⟩), (3, ⟨1, 2, 1, 1, 5, keyK⟩)] }
  { (regsAt [(BST_CTRL_ENABLE, 0, 1), (BST_STATUS_TEST_ROOT, 0, 1), (BST_CFG_SESSION_SLOT, 0, 1), (BST_BATCH_ADDR_ADDR, 0, 0x10000000),
      (BST_BATCH_RES_ADDR, 0, 0x10100000)]).wbs 0x10000000 m with bst := { test := bank, batch := if runs then some ⟨0x10000000, 0x10100000, 0, 1, 24⟩ else none } }

/-- The tests of R449, all passed. -/
theorem msgCode_zero (s : State) (m : List Byte) (hv : msgValid m = true) (hu : fldB m 16 16 = Config.uid)
    (h7 : mOp m = oUNLOCK → s.on BST_STATUS_TEST_ROOT = true) (hp : s.parentBad m = false) (ht : s.treeBad m = false)
    (hc : aesCmac (kMac (s.parentKey (mParent m))) (m.take 144) = (m.drop 144).take 16) (hk : s.storedCounter m < mCounter m)
    (hw : mOp m = oWRITE ∨ mOp m = oSESSION → (s.unwrapped m).isSome = true) : s.msgCode m = 0 := by
  have a7 : ¬ (mOp m = oUNLOCK ∧ s.on BST_STATUS_TEST_ROOT = false) := fun h => by simp [h7 h.1] at h
  have aw : ¬ ((mOp m = oWRITE ∨ mOp m = oSESSION) ∧ (s.unwrapped m).isNone = true) := fun h => by
    have := hw h.1
    cases hx : s.unwrapped m <;> simp_all
  unfold State.msgCode
  rw [if_neg (by simp [hv]), if_neg (by simp [hu]), if_neg a7, if_neg (by simp [hp]), if_neg (by simp [ht]), if_neg (by simp [hc]),
    if_neg (by omega), if_neg aw]

theorem uid_lt : Config.uid < 256 ^ 16 := by
  have h := BitVec.isLt Config.uidBits
  simpa [Config.uid] using h

theorem uid_length : uidOctets.length = 16 := leBytes_length 16 _
theorem msgHead_length (op t p k w ctr : Nat) : (msgHead op t p k w ctr).length = 32 := by simp [msgHead, uid_length]

theorem uid_fld (op t p k w ctr : Nat) (rest : List Byte) : fldB (msgHead op t p k w ctr ++ rest) 16 16 = Config.uid := by
  have e : (msgHead op t p k w ctr ++ rest).drop 16 = uidOctets ++ rest := rfl
  unfold fldB
  rw [e, List.take_left' uid_length]
  unfold uidOctets
  rw [leNat_leBytes, Nat.mod_eq_of_lt uid_lt]

theorem tagged_uid (key : List Byte) (op t p k w ctr : Nat) (rest : List Byte) :
    fldB (tagged key (msgHead op t p k w ctr ++ rest)) 16 16 = Config.uid := by
  unfold tagged
  rw [List.append_assoc, uid_fld]

theorem bstPlain_length (op t p k ctr : Nat) : (bstPlain op t p k ctr).length = 144 := by simp [bstPlain, msgHead_length]
theorem bstWith_length (op t p k ctr : Nat) (key : List Byte) : (bstWith op t p k ctr key).length = 144 := by
  simp [bstWith, msgHead_length, wrapped, aesWrap4_length]

theorem tagged_ok (key pre : List Byte) (h : pre.length = 144) :
    aesCmac (kMac key) ((tagged key pre).take 144) = ((tagged key pre).drop 144).take 16 := by
  unfold tagged
  rw [List.take_left' h, List.drop_left' h, List.take_of_length_le (by rw [aesCmac_length])]

theorem tagged_length (key pre : List Byte) (h : pre.length = 144) : (tagged key pre).length = 160 := by
  unfold tagged
  rw [List.length_append, h, aesCmac_length]

theorem unwraps (op t p k ctr : Nat) (key : List Byte) :
    aesUnwrap (kWrap key) (((tagged key (bstWith op t p k ctr key)).drop 32).take 40) = some (List.replicate 32 7) := by
  unfold tagged bstWith
  rw [List.append_assoc, List.append_assoc, List.drop_left' (msgHead_length ..)]
  unfold wrapped
  rw [List.take_left' (aesWrap4_length ..), aesUnwrap_aesWrap4]
  rfl

/-- An INVALIDATE of slot 3, an UNLOCK, a WRITE of slot 5 and a SESSION_INSTALL of entry 1023. -/
def msgInval : List Byte := tagged keyK (bstPlain oINVALIDATE 3 1 0 6)
def msgUnlock : List Byte := tagged (bstAt [] false).rootKey (bstPlain oUNLOCK 0 0xFF 0 1)
def msgWrite : List Byte := tagged keyK (bstWith oWRITE 5 1 1 1 keyK)
def msgSession : List Byte := tagged keyK (bstWith oSESSION 1023 1 1 1 keyK)

/-- The hypotheses on accepted messages of each OP, in a store whose batch waits for the message and in one that is to take it. -/
theorem test_can_BondedStoreAndHostLink_KeyInvalidate (runs : Bool) : mOp msgInval = oINVALIDATE ∧ (bstAt msgInval runs).msgCode msgInval = 0 := by
  refine ⟨by decide +kernel, msgCode_zero _ _ (by decide +kernel) (tagged_uid ..) ?_ ?_ ?_ ?_ ?_ ?_⟩
  · decide +kernel +revert
  · decide +kernel +revert
  · decide +kernel +revert
  · have e : (bstAt msgInval runs).parentKey (mParent msgInval) = keyK := by decide +kernel +revert
    rw [e]
    exact tagged_ok _ _ (bstPlain_length ..)
  · decide +kernel +revert
  · decide +kernel +revert

theorem test_can_BondedStoreAndHostLink_FactoryUnlock (runs : Bool) : mOp msgUnlock = oUNLOCK ∧ (bstAt msgUnlock runs).msgCode msgUnlock = 0 := by
  refine ⟨by decide +kernel, msgCode_zero _ _ (by decide +kernel) (tagged_uid ..) ?_ ?_ ?_ ?_ ?_ ?_⟩
  · decide +kernel +revert
  · decide +kernel +revert
  · decide +kernel +revert
  · have e : mParent msgUnlock = 0xFF := by decide +kernel
    have f : (bstAt msgUnlock runs).rootKey = (bstAt [] false).rootKey := by
      unfold State.rootKey
      rw [if_pos (by decide +kernel +revert), if_pos (by decide +kernel)]
    rw [e, State.parentKey, if_pos rfl, f]
    exact tagged_ok _ _ (bstPlain_length ..)
  · decide +kernel +revert
  · decide +kernel +revert

theorem test_can_BondedStoreAndHostLink_KeyWrite (runs : Bool) : mOp msgWrite = oWRITE ∧ (bstAt msgWrite runs).msgCode msgWrite = 0 := by
  have e : (bstAt msgWrite runs).parentKey (mParent msgWrite) = keyK := by decide +kernel +revert
  refine ⟨by decide +kernel, msgCode_zero _ _ (by decide +kernel) (tagged_uid ..) ?_ ?_ ?_ ?_ ?_ ?_⟩
  · decide +kernel +revert
  · decide +kernel +revert
  · decide +kernel +revert
  · rw [e]
    exact tagged_ok _ _ (bstWith_length ..)
  · decide +kernel +revert
  · intro _
    have w : mWlen msgWrite = 40 := by decide +kernel
    unfold State.unwrapped
    rw [e, w, show aesUnwrap (kWrap keyK) ((msgWrite.drop 32).take 40) = _ from unwraps ..]
    have k : ¬ (mOp msgWrite = oWRITE ∧ 4 ≤ mKind msgWrite ∧ onCurve (mKind msgWrite) (List.replicate 32 7) = false) := by
      have : ¬ 4 ≤ mKind msgWrite := by decide +kernel
      exact fun h => this h.2.1
    simp only [if_neg k]
    rfl

theorem test_can_BondedStoreAndHostLink_SessionInstall (runs : Bool) : mOp msgSession = oSESSION ∧ (bstAt msgSession runs).msgCode msgSession = 0 := by
  have e : (bstAt msgSession runs).parentKey (mParent msgSession) = keyK := by decide +kernel +revert
  refine ⟨by decide +kernel, msgCode_zero _ _ (by decide +kernel) (tagged_uid ..) ?_ ?_ ?_ ?_ ?_ ?_⟩
  · decide +kernel +revert
  · decide +kernel +revert
  · decide +kernel +revert
  · rw [e]
    exact tagged_ok _ _ (bstWith_length ..)
  · decide +kernel +revert
  · intro _
    have w : mWlen msgSession = 40 := by decide +kernel
    unfold State.unwrapped
    rw [e, w, show aesUnwrap (kWrap keyK) ((msgSession.drop 32).take 40) = _ from unwraps ..]
    have k : ¬ (mOp msgSession = oWRITE ∧ 4 ≤ mKind msgSession ∧ onCurve (mKind msgSession) (List.replicate 32 7) = false) := by
      have : ¬ 4 ≤ mKind msgSession := by decide +kernel
      exact fun h => this h.2.1
    simp only [if_neg k]
    rfl

/-- The message that a store finds is the one placed. -/
theorem bstAt_msg (m : List Byte) (runs : Bool) (h : m.length = 160) : (bstAt m runs).rbs 0x10000000 160 = m := by
  unfold bstAt
  have := State.rbs_wbs_same m (regsAt [(BST_CTRL_ENABLE, 0, 1), (BST_STATUS_TEST_ROOT, 0, 1), (BST_CFG_SESSION_SLOT, 0, 1),
    (BST_BATCH_ADDR_ADDR, 0, 0x10000000), (BST_BATCH_RES_ADDR, 0, 0x10100000)]) 0x10000000
  rw [h] at this
  exact (State.rbs_congr rfl 160 _).trans this

theorem test_can_BondedStoreAndHostLink_BatchMessages :
    (∀ m ∈ [msgInval, msgUnlock, msgWrite, msgSession], (bstAt m true).nextMsg ⟨0x10000000, 0x10100000, 0, 1, 24⟩ = m ∧
      (bstAt m false).rbs ((bstAt m false).g BST_BATCH_ADDR_ADDR) 160 = m) ∧
    (∀ m, (bstAt m true).bst.batch = some ⟨0x10000000, 0x10100000, 0, 1, 24⟩) := by
  have hl : ∀ m ∈ [msgInval, msgUnlock, msgWrite, msgSession], m.length = 160 := by
    intro m h
    simp only [List.mem_cons, List.not_mem_nil, or_false] at h
    rcases h with rfl | rfl | rfl | rfl
    · exact tagged_length _ _ (bstPlain_length ..)
    · exact tagged_length _ _ (bstPlain_length ..)
    · exact tagged_length _ _ (bstWith_length ..)
    · exact tagged_length _ _ (bstWith_length ..)
  refine ⟨fun m h => ⟨bstAt_msg m true (hl m h), ?_⟩, fun m => rfl⟩
  have e : (bstAt m false).g BST_BATCH_ADDR_ADDR = 0x10000000 := by
    unfold bstAt State.g
    simp only [State.wbs_regs]
    decide +kernel
  rw [e]
  exact bstAt_msg m false (hl m h)

/-- The octets of the first message can be read, whatever they are; and of one they cannot. -/
theorem test_can_BondedStoreAndHostLink_whole (m : List Byte) (runs : Bool) (a : Nat) :
    (bstAt m runs).eccUncorr a 160 = false ∧ ({ bstAt [] false with eccBad := [.word 0x10000000] } : State).eccUncorr 0x10000000 160 = true := by
  refine ⟨?_, by decide +kernel⟩
  unfold bstAt
  rw [State.wbs_eq]
  rfl

theorem test_can_BondedStoreAndHostLink_KeyBatch :
    (let s := bstAt [] false
     let a := s.g BST_BATCH_ADDR_ADDR
     let r := s.g BST_BATCH_RES_ADDR
     s.on BST_CTRL_ENABLE = true ∧ s.bst.batch = none ∧ a % 64 = 0 ∧ r % 64 = 0 ∧ s.inRam a (160 * 1) = true ∧ s.inRam r (4 * 1) = true ∧
     s.ready a (160 * 1) = true ∧ s.ready r (4 * 1) = true ∧ s.msgCode (s.rbs a 160) ≠ 0) ∧
    (State.reset.inReset = false ∧ ¬ State.reset.on BST_CTRL_ENABLE = true) ∧
    (let s := (bstAt [] false).p BST_BATCH_ADDR_ADDR 0 ddrBase
     let a := s.g BST_BATCH_ADDR_ADDR
     let r := s.g BST_BATCH_RES_ADDR
     s.on BST_CTRL_ENABLE = true ∧ s.bst.batch = none ∧ a % 64 = 0 ∧ r % 64 = 0 ∧ s.inRam a (160 * 4096) = true ∧
     s.inRam r (4 * 4096) = true ∧ ¬ (s.ready a (160 * 4096) = true)) := by decide +kernel

theorem test_can_BondedStoreAndHostLink_HostLink :
    ((regsAt [(HST_STATUS_LINK, 0, 1)]).on HST_STATUS_LINK = true) ∧
    ({ State.reset with msixMask := true }.msixMask = true ∧ { State.reset with msixMask := false }.msixMask = false) ∧
    ((regsAt [(HST_MSIX_CTRL_MASKED, 16 * 63, 0)]).on HST_MSIX_CTRL_MASKED (16 * 63) = false) := by decide +kernel

/-- The memories' engines as given, with fields. -/
def memAt (x : MemSt) (l : List (Fld × Nat × Nat)) : State := { regsAt l with memory := x }

theorem test_can_MemoryCommands :
    (State.reset.inReset = false ∧ (regsAt [(BCN_CTRL_ENABLE, 0, 1)]).on BCN_CTRL_ENABLE = true) ∧
    (let s := regsAt [(DRF_CTRL_ENABLE, 0, 1)]
     ¬ (s.on BCN_CTRL_ENABLE = true ∨ s.on PAIR_CTRL_ENABLE = true ∨ (s.on DRF_CTRL_ENABLE = true ∧ s.g DRF_SPILL_SIZE_MB ≠ 0)) ∧
     ¬ (s.on MEM_CTRL_ENABLE = true)) ∧
    (let s := regsAt [(MEM_CTRL_ENABLE, 0, 1)]
     s.on MEM_CTRL_ENABLE = true ∧ s.memory.init = none ∧ s.memory.scrub = false ∧ s.memory.flash = none) ∧
    ((memAt { init := some ⟨true, false, 0, 0⟩ } []).memory.init = some ⟨true, false, 0, 0⟩) ∧
    (let s := memAt { init := some ⟨true, true, 0, 0⟩ } []
     s.memory.init = some ⟨true, true, 0, 0⟩ ∧ 0 < s.ddrBlocks 0) ∧
    (let s := memAt { init := some ⟨true, true, State.reset.ddrBlocks 0, State.reset.ddrBlocks 1⟩ } []
     s.memory.init = some ⟨true, true, s.ddrBlocks 0, s.ddrBlocks 1⟩) ∧
    ((memAt { scrub := true } []).memory.scrub = true ∧
      ({ memAt { scrub := true } [] with eccBad := [.word (mramEnd - 8)] } : State).mramBad.isSome = true) ∧
    ((regsAt [(MEM_FLASH_CMD_BUSY, 0, 1)]).on MEM_FLASH_CMD_BUSY ≠ false) ∧
    (let s := regsAt [(SYS_BOOT_STATUS_STATE, 0, 2), (MEM_FLASH_ADDR_ADDR, 0, 2 ^ 20)]
     s.on MEM_FLASH_CMD_BUSY = false ∧ s.g SYS_BOOT_STATUS_STATE = 2 ∧ 2 ^ s.g MEM_FLASH_CFG_LOG2_MB * 2 ^ 20 ≤ s.g MEM_FLASH_ADDR_ADDR) ∧
    (let s := regsAt [(SYS_BOOT_STATUS_STATE, 0, 3), (MEM_FLASH_ADDR_ADDR, 0, 2 ^ 20 - 1)]
     s.on MEM_FLASH_CMD_BUSY = false ∧ s.g SYS_BOOT_STATUS_STATE = 3 ∧ s.g MEM_FLASH_ADDR_ADDR < 2 ^ s.g MEM_FLASH_CFG_LOG2_MB * 2 ^ 20) ∧
    (∀ op : Fin 4, (memAt { flash := some (op.val + 1, 4095) } []).memory.flash = some (op.val + 1, 4095)) := by decide +kernel

/-- Both rails regulated and the plant I/O enabled, with a rail's state and further fields. -/
def ioAt (x : Rail) (l : List (Fld × Nat × Nat)) : State :=
  (regsAt ([(PWR_CTRL_ENABLE, 0, 1), (PWR_RAIL_CFG_AVS_ON, dRail 1, 1), (PIO_CTRL_ENABLE, 0, 1)] ++ l)).setRail 1 x

theorem test_can_PowerAndPlantIo :
    (State.reset.inReset = false ∧ ¬ (State.reset.on PWR_CTRL_ENABLE = true)) ∧
    (let s := ioAt {} [(PWR_RAIL_GUARD_GUARD_LO, dRail 1, 0), (PWR_RAIL_GUARD_GUARD_HI, dRail 1, 5)]
     s.on PWR_CTRL_ENABLE = true ∧ s.on PWR_RAIL_CFG_AVS_ON (dRail 1) = true ∧ s.gated 6 = false ∧ (s.rail 1).due ≤ s.fab ∧ s.railHeld 1 = false ∧
     ({ s with waking := [6] }).railHeld 1 = true ∧
     (-1 : BitVec 16).toInt < 0 ∧ (-1 : BitVec 16).toInt < (s.g PWR_RAIL_GUARD_GUARD_LO (dRail 1) : Nat) ∧
     (s.g PWR_RAIL_GUARD_GUARD_LO (dRail 1) : Nat) ≤ (5 : BitVec 16).toInt ∧
     (5 : BitVec 16).toInt ≤ (s.g PWR_RAIL_GUARD_GUARD_HI (dRail 1) : Nat) ∧ 700 + 10 ≤ railMax 1) ∧
    (∀ again : Bool, ((ioAt { txn := some (750, again) } []).rail 1).txn = some (750, again) ∧
      ((ioAt { txn := some (750, again) } []).rail 1).txnAt + 35000 * usCycles ≤ 14000000 ∧
      (ioAt { txn := some (750, again) } []).fab < ((ioAt { txn := some (750, again) } []).rail 1).txnAt + 35000 * usCycles) ∧
    (let s := ioAt {} [(PWR_GATE_QUAY, 0, 0x20)]
     s.gateAsked 5 = true ∧ s.gateReady 5 = true ∧ s.gated 5 = false ∧ 5 ∉ s.waking ∧ ¬ (s.gateAsked 0 = true)) ∧
    ((ioAt {} []).on PIO_CTRL_ENABLE = true) ∧
    ((ioAt {} [(PIO_PWM_CFG_ENABLE, dPwm 15, 1)]).on PIO_PWM_CFG_ENABLE (dPwm 15) = true ∧ AMap.get 0 State.reset.pio.pwmAt 15 ≤ State.reset.fab ∧
      (let s := { State.reset with pio := { State.reset.pio with pwmAt := [(15, 1)] } }
       s.fab < AMap.get 0 s.pio.pwmAt 15)) ∧
    (let s := ioAt {} [(PIO_ENC_CFG_ENABLE, dEnc 15, 1)]
     s.on PIO_ENC_CFG_ENABLE (dEnc 15) = true ∧ s.on PIO_ENC_CFG_SSI (dEnc 15) = false) ∧
    (let s := ioAt {} [(PIO_ENC_CFG_ENABLE, dEnc 15, 1), (PIO_ENC_CFG_SSI, dEnc 15, 1)]
     s.on PIO_ENC_CFG_ENABLE (dEnc 15) = true ∧ s.on PIO_ENC_CFG_SSI (dEnc 15) = true ∧ AMap.get 0 s.pio.ssiAt 15 ≤ s.fab) ∧
    (15 ∈ ({ State.reset with pio := { State.reset.pio with ssiBusy := [15] } }).pio.ssiBusy) := by decide +kernel

/-- The invariant's hypotheses: a memory that lists a byte in canonical form, and a step that answers a next state. -/
theorem test_can_MemoryStaysCanonical : MemOk (State.reset.wb 0x10000000 5) ∧ ∃ t, step (State.reset.wb 0x10000000 5) = .next t := by
  have h : MemOk State.reset := by
    show Memory.wf State.reset.mem
    decide
  exact ⟨MemOk.wb h _ _, _, rfl⟩

end Sys2Proof.Tests
end

/-! # Proofs: the scope statements

## After reset (O60)

Reset lists no register, so that every field answers its reset value (R50, R59). -/

namespace Sys2Proof.Machine
open Sys2Proof.Safety

@[simp] theorem State.reset_g (f : Fld) (d : Nat) : State.reset.g f d = f.rst % 2 ^ f.w := (rfl)

/-- A flag of every unit of a bank is clear at once: the reset value belongs to the field, not to the unit. -/
theorem State.reset_on_eq_false {f : Fld} (h : f.rst = 0) (d : Nat) : State.reset.on f d = false := by
  simp [State.on, h]

@[simp] theorem State.reset_faultStatus (b : FBlk) : State.reset.faultStatus b = 0 := by
  simp [State.faultStatus, fsStatus]

/-- An empty byte map is canonical. -/
theorem State.reset_memOk : MemOk State.reset := by
  unfold MemOk
  decide

/-- Settles O60: every clause reads a reset value, of a register field or of a part of the state outside the registers. -/
theorem resetState : Obligations.ResetState := by
  unfold Obligations.ResetState
  have blocks : ([NET_CARGO_CTRL_ENABLE, GRV_CTRL_ENABLE, DRF_CTRL_ENABLE, BCN_CTRL_ENABLE, TLY_CTRL_ENABLE,
      TID_CTRL_ENABLE, PAIR_CTRL_ENABLE, LOG_CTRL_ENABLE, BST_CTRL_ENABLE, HST_CTRL_ENABLE, MEM_CTRL_ENABLE,
      PIO_CTRL_ENABLE, PWR_CTRL_ENABLE].all fun f => State.reset.on f == false) = true := by decide
  exact ⟨rfl, rfl, State.reset_memOk, by decide, by decide, by decide, by decide, by decide,
    fun _ => State.reset_on_eq_false rfl _, fun _ => State.reset_on_eq_false rfl _, fun _ => State.reset_on_eq_false rfl _,
    blocks, State.reset_faultStatus, by decide, by decide, fun _ _ => rfl, fun _ => rfl,
    fun _ => State.reset_on_eq_false rfl _, by decide, fun _ => rfl, fun _ => rfl, fun _ => rfl, by decide, by decide⟩

end Sys2Proof.Machine

/-! # Proofs: every step keeps the byte map canonical (O59)

One lemma for each function of the model that answers a state, in the order of the model. `f_mem` says that `f` leaves
the byte map of the memories as it was, `f_canon` that `f`, which may write it, keeps its canonical form, and
`execF_completes` that the command completes and keeps it. A function's lemma rests on those of the functions it calls,
so that `simp` closes most of them once the function's own branches are split. -/

namespace Sys2Proof.AMap

/-- What a map finds at a key, it lists there. -/
theorem mem_of_find {α : Type} {m : AMap α} {x : Nat} {v : α} (h : find m x = some v) : (x, v) ∈ m := by
  induction m with
  | nil => exact absurd h (by simp [find])
  | cons p t ih =>
    obtain ⟨k, w⟩ := p
    unfold find at h
    split at h
    · next e =>
      rw [e, Option.some.inj h]
      exact List.mem_cons_self
    · exact List.mem_cons_of_mem _ (ih h)

end Sys2Proof.AMap

namespace Sys2Proof.Machine
open Sys2Proof.Safety

/-! ### The setters

These restate frame lemmas of `Laws/State` with a proof that is not definitional, and take their place: a definitional
step would have the kernel compare the two whole states. -/

@[simp high] theorem State.mem_p (s : State) (f : Fld) (d v : Nat) : (s.p f d v).mem = s.mem := (rfl)
@[simp high] theorem State.mem_inc (s : State) (f : Fld) (d : Nat) : (s.inc f d).mem = s.mem := (rfl)
@[simp high] theorem State.mem_incSat (s : State) (f : Fld) (d : Nat) : (s.incSat f d).mem = s.mem := (rfl)
@[simp high] theorem State.mem_addSat (s : State) (f : Fld) (d n : Nat) : (s.addSat f d n).mem = s.mem := (rfl)
@[simp high] theorem State.mem_clr (s : State) (f : Fld) (d : Nat) : (s.clr f d).mem = s.mem := (rfl)
@[simp high] theorem State.mem_putTime (s : State) (f : Fld) (d ns : Nat) : (s.putTime f d ns).mem = s.mem := (rfl)
@[simp high] theorem State.mem_answer (s : State) (ok : Bool) (v : Nat) : (s.answer ok v).mem = s.mem := (rfl)
@[simp high] theorem State.mem_emit (s : State) (o : Out) : (s.emit o).mem = s.mem := (rfl)
@[simp high] theorem State.mem_setCore (s : State) (c : Nat) (x : Core) : (s.setCore c x).mem = s.mem := (rfl)
@[simp high] theorem State.mem_setQuay (s : State) (q : Nat) (x : QuaySt) : (s.setQuay q x).mem = s.mem := (rfl)
@[simp high] theorem State.mem_setStation (s : State) (n : Nat) (x : Option Station) :
    (s.setStation n x).mem = s.mem := (rfl)
@[simp high] theorem State.mem_setLock (s : State) (l : Nat) (x : LockSt) : (s.setLock l x).mem = s.mem := (rfl)
@[simp high] theorem State.mem_setEpoch (s : State) (p e : Nat) : (s.setEpoch p e).mem = s.mem := (rfl)
@[simp high] theorem State.mem_draw (s : State) : s.draw.2.mem = s.mem := (rfl)

/-! ### Branches, loops and the canonical form -/

@[simp] theorem mem_ite (p : Prop) [Decidable p] (x y : State) :
    (if p then x else y).mem = if p then x.mem else y.mem := apply_ite ..
@[simp] theorem mem_foldl {β : Type} (f : State → β → State) (l : List β) (s : State)
    (hf : ∀ s x, (f s x).mem = s.mem) :
    (l.foldl f s).mem = s.mem := foldl_keep f State.mem hf l s

@[simp] theorem mem_foldl_snd {α β : Type} (f : α × State → β → α × State) (l : List β) (a : α × State)
    (hf : ∀ a x, (f a x).2.mem = a.2.mem) : (l.foldl f a).2.mem = a.2.mem := by
  induction l generalizing a with
  | nil => rfl
  | cons x _ ih => rw [List.foldl_cons, ih, hf]

theorem foldl_mem {β : Type} {f : State → β → State} {l : List β} {s t : State} (h : s.mem = t.mem)
    (hf : ∀ s x, (f s x).mem = s.mem) : (l.foldl f s).mem = t.mem := (foldl_keep f State.mem hf l s).trans h

theorem foldl_snd_mem {α β : Type} {f : α × State → β → α × State} {l : List β} {a : α × State} {t : State}
    (h : a.2.mem = t.mem) (hf : ∀ a x, (f a x).2.mem = a.2.mem) : (l.foldl f a).2.mem = t.mem := by
  induction l generalizing a with
  | nil => exact h
  | cons x _ ih => exact ih ((hf a x).trans h)

/-- A byte map in its canonical form. -/
def Canon (m : List Host.Cell) : Prop := Memory.wf m
@[simp] theorem canon_ite (p : Prop) [Decidable p] (x y : List Host.Cell) :
    Canon (if p then x else y) ↔ (p → Canon x) ∧ (¬ p → Canon y) := by split <;> simp [*]
theorem canon_foldl {β : Type} {f : State → β → State} {l : List β} {s : State} (h : Canon s.mem)
    (hf : ∀ s x, Canon s.mem → Canon (f s x).mem) : Canon (l.foldl f s).mem := MemOk.foldl f hf l h
@[simp] theorem canon_filter {m : List Host.Cell} (f : Host.Cell → Bool) (h : Canon m) : Canon (m.filter f) :=
  AMap.canon_filter _ f _ h
@[simp] theorem canon_keep {m : List Host.Cell} (f : Nat → Bool) (h : Canon m) : Canon (AMap.keep f m) :=
  canon_filter (fun x => f x.1) h
/-- A command completes, and where the byte map was canonical before it, it is so after it. -/
def Completes (s : State) (o : Out') : Prop := ∃ t, o = .next t ∧ (Canon s.mem → Canon t.mem)
/-- The shape of most commands: the next state is at hand. -/
theorem Completes.of {s t : State} {o : Out'} (e : o = .next t) (h : Canon s.mem → Canon t.mem) :
    Completes s o := ⟨t, e, h⟩
@[simp] theorem State.wb_canon {s : State} (h : Canon s.mem) (a : Nat) (b : Byte) :
    Canon (s.wb a b).mem := MemOk.wb h a b
@[simp] theorem State.wbs_canon {s : State} (h : Canon s.mem) (a : Nat) (l : List Byte) :
    Canon (s.wbs a l).mem := MemOk.wbs l h a
@[simp] theorem State.wle_canon {s : State} (h : Canon s.mem) (a n v : Nat) :
    Canon (s.wle a n v).mem := MemOk.wle h a n v

/-! ### Machine/Ops -/

@[simp] theorem State.pBoth_mem (s : State) (f : Fld) (d v : Nat) : (s.pBoth f d v).mem = s.mem := by
  simp [State.pBoth]
@[simp] theorem State.hw_mem (s : State) (f : Fld) (d v : Nat) : (s.hw f d v).mem = s.mem := (rfl)
@[simp] theorem State.w1c_mem (s : State) (f : Fld) (d v : Nat) : (s.w1c f d v).mem = s.mem := (rfl)
@[simp] theorem State.takeInstant_mem (s : State) (id : Nat) : (s.takeInstant id).mem = s.mem := (rfl)
@[simp] theorem State.eccFix_mem (s : State) (k n : Nat) : (s.eccFix k n).mem = s.mem := (rfl)
@[simp] theorem State.eccWritten_mem (s : State) (k n : Nat) : (s.eccWritten k n).mem = s.mem := (rfl)
@[simp] theorem State.wbsEcc_canon {s : State} (h : Canon s.mem) (k : Nat) (bs : List Byte) :
    Canon (s.wbsEcc k bs).mem := by
  simp [State.wbsEcc, h]
@[simp] theorem State.eccGone_mem (s : State) (x : EccCell) : (s.eccGone x).mem = s.mem := (rfl)
@[simp] theorem State.command_canon {s : State} (h : Canon s.mem) (f : State → State) (hf : Canon (f s).mem) :
    Canon (s.command f).mem := by
  simp [State.command, h, hf]
@[simp] theorem State.query_canon {s : State} (h : Canon s.mem) (f : State → State) (hf : Canon (f s).mem) :
    Canon (s.query f).mem := by
  simp [State.query, h, hf]

/-! ### Machine/Mast -/

@[simp] theorem State.msixEmit_mem (s : State) (v : Nat) : (s.msixEmit v).mem = s.mem := (rfl)
@[simp] theorem State.clearGateBit_mem (s : State) (d : Nat) : (s.clearGateBit d).mem = s.mem := by
  simp [State.clearGateBit]
@[simp] theorem State.railFree_mem (s : State) (k : Nat) : (s.railFree k).mem = s.mem := (rfl)
@[simp] theorem State.wake_mem (s : State) (d : Nat) : (s.wake d).mem = s.mem := by
  simp [State.wake]

/-! ### Machine/Faults -/

@[simp] theorem State.busError_mem (s : State) (addr master kind : Nat) :
    (s.busError addr master kind).mem = s.mem := by
  simp [State.busError]
@[simp] theorem State.writeReact_mem (s : State) (b : FBlk) (v : Nat) : (s.writeReact b v).mem = s.mem := by
  simp [State.writeReact]

/-! ### Machine/Paths -/

@[simp] theorem State.setPort_mem (s : State) (p : Nat) (x : NetPort) : (s.setPort p x).mem = s.mem := (rfl)
@[simp] theorem State.rejectItem_mem (s : State) (p : Nat) : (s.rejectItem p).mem = s.mem := (rfl)
@[simp] theorem State.acceptItem_mem (s : State) (p : Nat) : (s.acceptItem p).2.mem = s.mem := (rfl)
@[simp] theorem State.drainCheck_mem (s : State) (p : Nat) : (s.drainCheck p).mem = s.mem := by
  simp [State.drainCheck]
@[simp] theorem State.itemGone_mem (s : State) (id : Nat) : (s.itemGone id).mem = s.mem := by
  unfold State.itemGone
  split <;> simp
@[simp] theorem State.dropItems_mem (s : State) (f : Nat → Bool) : (s.dropItems f).2.mem = s.mem := by
  simp [State.dropItems]
@[simp] theorem State.moveDeadlines_mem (s : State) (f : Nat → Bool) (ns : Nat) :
    (s.moveDeadlines f ns).mem = s.mem := (rfl)
@[simp] theorem State.losePort_mem (s : State) (p : Nat) : (s.losePort p).mem = s.mem := by
  simp [State.losePort]
@[simp] theorem State.roundOpen_mem (s : State) (x : Int) (d : Nat) : (s.roundOpen x d).2.mem = s.mem := by
  unfold State.roundOpen
  split <;> simp

/-! ### Machine/EthFrame -/

@[simp] theorem State.buildFrame_mem (s : State) (p : Nat) (c : Carrier) (etherType : Nat) (data : List Byte) :
    (s.buildFrame p c etherType data).2.mem = s.mem := by
  simp only [State.buildFrame]
  (repeat' split) <;> simp

@[simp] theorem State.queueFrame_mem (s : State) (p : Nat) (f : TxFrame) : (s.queueFrame p f).mem = s.mem := (rfl)
@[simp] theorem State.queueOther_mem (s : State) (p : Nat) (body : TxBody) (len : Nat) :
    (s.queueOther p body len).mem = s.mem := (rfl)

/-! ### Machine/Berths -/

@[simp] theorem State.setChan_mem (s : State) (a r : Nat) (x : Option BthWord) :
    (s.setChan a r x).mem = s.mem := (rfl)
@[simp] theorem State.rxLevel_mem (s : State) (r : Nat) : (s.rxLevel r).mem = s.mem := by
  simp [State.rxLevel]
@[simp] theorem State.mooringEmit_mem (s : State) (type stream seq arg : Nat) (payload : List Byte) :
    (s.mooringEmit type stream seq arg payload).mem = s.mem := (rfl)
@[simp] theorem State.mooringSend_mem (s : State) (type stream arg : Nat) (payload : List Byte) :
    (s.mooringSend type stream arg payload).mem = s.mem := by
  simp [State.mooringSend]
@[simp] theorem State.serviceWord_mem (s : State) (a r word : Nat) : (s.serviceWord a r word).mem = s.mem := by
  simp [State.serviceWord]
@[simp] theorem State.post_mem (s : State) (a r word : Nat) : (s.post a r word).2.mem = s.mem := by
  simp only [State.post]
  (repeat' split) <;> simp
@[simp] theorem State.take_mem (s : State) (a r : Nat) : (s.take a r).2.mem = s.mem := by
  unfold State.take
  split <;> simp
@[simp] theorem State.discardWord_mem (s : State) (a r : Nat) : (s.discardWord a r).mem = s.mem := by
  simp [State.discardWord]

@[simp] theorem State.dropBad_mem (s : State) (r : Nat) (l : List Nat) : (s.dropBad r l).mem = s.mem := by
  induction l generalizing s with
  | nil => rfl
  | cons a t ih => simp [State.dropBad, ih]

@[simp] theorem State.emptyInto_mem (s : State) (r : Nat) : (s.emptyInto r).2.mem = s.mem := by
  unfold State.emptyInto
  exact foldl_snd_mem rfl fun p a => by split <;> simp
@[simp] theorem State.resetReceivers_mem (s : State) (rs : List Nat) : (s.resetReceivers rs).mem = s.mem := by
  simp [State.resetReceivers]
@[simp] theorem State.bumpEpoch_mem (s : State) (p : Nat) : (s.bumpEpoch p).mem = s.mem := (rfl)
@[simp] theorem State.bthPost_mem (s : State) (m : Nat) : (s.bthPost m).mem = s.mem := by
  simp [State.bthPost]
@[simp] theorem State.bthTake_mem (s : State) (m : Nat) : (s.bthTake m).mem = s.mem := by
  simp [State.bthTake]
@[simp] theorem State.bthAny_mem (s : State) (m : Nat) : (s.bthAny m).mem = s.mem := by
  simp only [State.bthAny]
  split <;> simp

/-! ### Machine/Operands -/

@[simp] theorem State.coreSeen_mem (s : State) (c key n : Nat) : (s.coreSeen c key n).mem = s.mem := by
  simp [State.coreSeen]
@[simp] theorem State.viewSeen_mem (s : State) (c n : Nat) (v : View) : (s.viewSeen c n v).mem = s.mem := by
  unfold State.viewSeen
  split <;> simp
@[simp] theorem State.eccNoted_mem (s : State) (c addr kind : Nat) : (s.eccNoted c addr kind).mem = s.mem := by
  simp [State.eccNoted]
@[simp] theorem State.setStream_mem (s : State) (i : Nat) (x : StreamSt) : (s.setStream i x).mem = s.mem := (rfl)
@[simp] theorem State.markDirty_mem (s : State) (q line : Nat) : (s.markDirty q line).mem = s.mem := by
  simp [State.markDirty]
@[simp] theorem State.lwbs_canon {s : State} (h : Canon s.mem) (q line key : Nat) (bs : List Byte) :
    Canon (s.lwbs q line key bs).mem := by
  simp [State.lwbs, h]
@[simp] theorem State.shadowHalt_mem (s : State) (q : Nat) : (s.shadowHalt q).mem = s.mem := (rfl)
@[simp] theorem State.haltCore_mem (s : State) (c cause : Nat) : (s.haltCore c cause).mem = s.mem := by
  simp [State.haltCore]
@[simp] theorem State.pushFrame_canon {s : State} (h : Canon s.mem) (c : Nat) (ret : BitVec 17) (vector : Nat) :
    Canon (s.pushFrame c ret vector).mem := by
  simp [State.pushFrame, h]
@[simp] theorem State.takeExc_canon {s : State} (h : Canon s.mem) (c : Nat) (e : Exc) (xpc : BitVec 17)
    (code : optParam Nat 0) (imprecise : optParam Bool false) : Canon (s.takeExc c e xpc code imprecise).mem := by
  simp [State.takeExc, h]
@[simp] theorem State.fetchSeen_mem (s : State) (c : Nat) : (s.fetchSeen c).mem = s.mem := by
  simp [State.fetchSeen]
@[simp] theorem State.retire_canon {s : State} (h : Canon s.mem) (c : Nat) (k : Core) (next : BitVec 17) (cyc : Nat)
    (raised : optParam (BitVec 7) 0) : Canon (s.retire c k next cyc raised).mem := by
  simp [State.retire, h]
@[simp] theorem State.fail_canon {s : State} (h : Canon s.mem) (c : Nat) (e : Exc) : Canon (s.fail c e).mem := by
  simp [State.fail, h]
@[simp] theorem State.unissued_canon {s : State} (h : Canon s.mem) (c : Nat) : Canon (s.unissued c).mem := by
  simp [State.unissued, h]
@[simp] theorem State.checked_canon {s : State} (h : Canon s.mem) (c n : Nat) (v : View) (f : State → State)
    (hf : Canon (f (s.viewSeen c n v)).mem) : Canon (s.checked c n v f).mem := by
  simp [State.checked, h, hf]

@[simp] theorem State.simple_canon {s : State} (h : Canon s.mem) (c cyc : Nat)
    (f : Core → Except Exc (Core × BitVec 7)) : Canon (s.simple c cyc f).mem := by
  simp only [State.simple]
  (repeat' split) <;> simp [h]

/-! ### Machine/Cargo -/

@[simp] theorem State.activate_mem (s : State) (q cls station miss stamp : Nat) :
    (s.activate q cls station miss stamp).mem = s.mem := by
  simp [State.activate]
@[simp] theorem State.droppedBit_mem (s : State) (n : Nat) (b : Bool) : (s.droppedBit n b).mem = s.mem := by
  simp [State.droppedBit]
@[simp] theorem State.writeStatus_canon {s : State} (h : Canon s.mem) (q base n : Nat) :
    Canon (s.writeStatus q base n).mem := by
  simp [State.writeStatus, h]

@[simp] theorem State.writeStatusArray_canon {s : State} (h : Canon s.mem) (q : Nat) :
    Canon (s.writeStatusArray q).mem := by
  unfold State.writeStatusArray
  exact canon_foldl h fun s n hs => by simp [hs]

@[simp] theorem State.present_canon {s : State} (h : Canon s.mem) (n : Nat) (e : List Byte) (base stamp : Nat) :
    Canon (s.present n e base stamp).mem := by
  simp only [State.present]
  (repeat' split) <;> simp [h]

@[simp] theorem State.cargoOut_mem (s : State) (n : Nat) (e : List Byte) (mode stamp : Nat) :
    (s.cargoOut n e mode stamp).mem = s.mem := by
  unfold State.cargoOut
  split <;> simp

@[simp] theorem cargoErr_mem (s : State) (k : Nat) : (cargoErr s k).mem = s.mem := (rfl)

@[simp] theorem State.cargoIn_mem (s : State) (port transport : Nat) (mac ip : List Byte) (udp : Nat)
    (msg : List Byte) : (s.cargoIn port transport mac ip udp msg).mem = s.mem := by
  simp only [State.cargoIn]
  (repeat' split) <;> simp

@[simp] theorem execCargoDataIn_completes (s : State) (port : Fin 4) (transport : Fin 3) (mac : BitVec 48)
    (ip : BitVec 128) (udp : BitVec 16) (msg : List Byte) :
    Completes s (execCargoDataIn port transport mac ip udp msg s) :=
  .of rfl fun h => by simp [h]

/-! ### Machine/JoraBerths -/

@[simp] theorem execJSend_completes (s : State) (c : Fin 24) (w : Fin 16) (peer : Fin 32) :
    Completes s (execJSend c w peer s) :=
  .of rfl fun h => by simp [h]

@[simp] theorem State.recvOp_canon {s : State} (h : Canon s.mem) (c : Nat) (peer : Option Nat) (dst : Fin 16)
    (timeout : Nat) (len : BitVec 17) : Canon (s.recvOp c peer dst timeout len).mem := by
  simp only [State.recvOp]
  (repeat' split) <;> simp [h]

@[simp] theorem execJRecv_completes (s : State) (c : Fin 24) (w wb : Fin 16) (peer : Fin 32) :
    Completes s (execJRecv c w wb peer s) :=
  .of rfl fun h => by simp [h]
@[simp] theorem execJRecvany_completes (s : State) (c : Fin 24) (w wb : Fin 16) :
    Completes s (execJRecvany c w wb s) :=
  .of rfl fun h => by simp [h]
@[simp] theorem execJRecvi_completes (s : State) (c : Fin 24) (wd : Fin 16) (peer : Fin 32) (imm : BitVec 32) :
    Completes s (execJRecvi c wd peer imm s) :=
  .of rfl fun h => by simp [h]
@[simp] theorem execJPoll_completes (s : State) (c : Fin 24) (peer : Fin 32) : Completes s (execJPoll c peer s) :=
  .of rfl fun h => by simp [h]
@[simp] theorem execJPollany_completes (s : State) (c : Fin 24) : Completes s (execJPollany c s) :=
  .of rfl fun h => by simp [h]
@[simp] theorem execRecvTimeout_completes (s : State) (c : Fin 24) : Completes s (execRecvTimeout c s) :=
  .of rfl fun h => by simp [h]

/-! ### Machine/MastRows -/

@[simp] theorem execBthTxPost_completes (s : State) (agent : Bool) : Completes s (execBthTxPost agent s) :=
  .of rfl fun h => by simp [h]
@[simp] theorem execBthRxTake_completes (s : State) (agent : Bool) : Completes s (execBthRxTake agent s) :=
  .of rfl fun h => by simp [h]
@[simp] theorem execBthRxAny_completes (s : State) (agent : Bool) : Completes s (execBthRxAny agent s) :=
  .of rfl fun h => by simp [h]

@[simp] theorem State.wakeDone_mem (s : State) (d : Nat) : (s.wakeDone d).mem = s.mem := by
  unfold State.wakeDone
  extract_lets s1 s2 s3
  have h3 : s3.mem = s.mem := by simp [s3, s2, s1]
  split
  · exact foldl_mem h3 fun s a => by split <;> simp
  · exact h3

@[simp] theorem execDomainWakeDone_completes (s : State) (d : Fin 7) : Completes s (execDomainWakeDone d s) :=
  .of rfl fun h => by simp [h]
@[simp] theorem execMastSourceFire_completes (s : State) (src : Fin 512) : Completes s (execMastSourceFire src s) :=
  .of rfl fun h => by simp [h]
@[simp] theorem State.setPending_mem (s : State) (src : Nat) : (s.setPending src).mem = s.mem := by
  simp [State.setPending]
@[simp] theorem execSetPending_completes (s : State) (src : Fin 512) : Completes s (execSetPending src s) :=
  .of rfl fun h => by simp [h]
@[simp] theorem State.setOffer_mem (s : State) (c : Nat) (o : Option Offer) : (s.setOffer c o).mem = s.mem := (rfl)
@[simp] theorem State.endWait_mem (s : State) (c : Nat) : (s.endWait c).mem = s.mem := (rfl)
@[simp] theorem State.offerCore_mem (s : State) (c : Nat) : (s.offerCore c).mem = s.mem := by
  simp only [State.offerCore]
  (repeat' split) <;> simp
@[simp] theorem State.sourceEcc_mem (s : State) (src : Nat) : (s.sourceEcc src).mem = s.mem := by
  simp [State.sourceEcc]
@[simp] theorem execMastOffer_completes (s : State) : Completes s (execMastOffer s) :=
  .of rfl fun h => by simp [h]
@[simp] theorem State.returnHeld_mem (s : State) (x1 : Held) : (s.returnHeld x1).mem = s.mem := by
  simp [State.returnHeld]
@[simp] theorem State.deliver_mem (s : State) (c : Nat) (x2 : Held) : (s.deliver c x2).mem = s.mem := by
  simp only [State.deliver]
  split <;> simp
@[simp] theorem State.claim_mem (s : State) (c : Nat) : (s.claim c).mem = s.mem := by
  unfold State.claim
  split <;> simp
@[simp] theorem execMastClaimGrant_completes (s : State) (cs : List (Fin 24)) :
    Completes s (execMastClaimGrant cs s) :=
  .of rfl fun h => by simp [h]

@[simp] theorem State.sourceOff_mem (s : State) (src : Nat) : (s.sourceOff src).mem = s.mem := by
  unfold State.sourceOff
  refine foldl_mem rfl fun s c => ?_
  split
  · split <;> simp
  · rfl

@[simp] theorem execMastSourceOff_completes (s : State) (src : Fin 512) : Completes s (execMastSourceOff src s) :=
  .of rfl fun h => by simp [h]
@[simp] theorem execModerationEnd_completes (s : State) (src : Fin 512) : Completes s (execModerationEnd src s) :=
  .of rfl fun h => by simp [h]
@[simp] theorem State.enterDelivery_canon {s : State} (h : Canon s.mem) (c : Nat) (x2 : Held) :
    Canon (s.enterDelivery c x2).mem := by
  simp [State.enterDelivery, h]
@[simp] theorem State.frameVector_canon {s : State} (h : Canon s.mem) (c vec : Nat) :
    Canon (s.frameVector c vec).mem := by
  simp [State.frameVector, h]
@[simp] theorem State.reenter_canon {s : State} (h : Canon s.mem) (c : Nat) (x2 : Held) (hstk : List (Nat × Nat)) :
    Canon (s.reenter c x2 hstk).mem := by
  simp [State.reenter, h]

@[simp] theorem execMastDeliveryEntry_completes (s : State) (c : Fin 24) : Completes s (execMastDeliveryEntry c s) :=
    .of rfl fun h => by
  simp only
  (repeat' split) <;> simp [h]

@[simp] theorem State.complete_mem (s : State) (c vec : Nat) : (s.complete c vec).mem = s.mem := by
  simp [State.complete]

@[simp] theorem execJReti_completes (s : State) (c : Fin 24) : Completes s (execJReti c s) :=
  .of rfl fun h => by
    split
    · simp only
      split
      · simp [h]
      · split
        · simp [h]
        · refine State.checked_canon h _ _ _ _ ?_
          have h1 (t : State) (ht : Canon t.mem) :
              Canon (match (s.core c.val).hstk with | x :: _ => t.complete c.val x.1 | [] => t).mem := by
            split <;> simp [ht]
          have h2 := h1 (s.viewSeen c.val 16 (.data (s.core c.val).sp.toNat)) (by simp [h])
          split
          · refine State.retire_canon (State.reenter_canon ?_ ..) ..
            rw [State.mem_setCore]
            exact h2
          · exact State.retire_canon h2 ..
    · simp [h]

@[simp] theorem State.mastQuayReset_mem (s : State) (q : Nat) : (s.mastQuayReset q).mem = s.mem := by
  simp [State.mastQuayReset]

/-! ### Machine/PairOps -/

@[simp] theorem State.sendCopy_mem (s : State) (i : Nat) (recs : List (Nat × List Byte)) (gen digest : Nat)
    (lines : List Nat) (full : Bool) (sweep : Nat) : (s.sendCopy i recs gen digest lines full sweep).mem = s.mem := by
  simp [State.sendCopy]
@[simp] theorem State.cutCopy_mem (s : State) (i : Nat) : (s.cutCopy i).mem = s.mem := by
  simp only [State.cutCopy]
  split <;> simp
@[simp] theorem State.cutCopies_mem (s : State) : s.cutCopies.mem = s.mem := by
  simp [State.cutCopies]
@[simp] theorem State.sendDue_mem (s : State) (i : Nat) : (s.sendDue i).mem = s.mem := by
  unfold State.sendDue
  split <;> simp
@[simp] theorem State.copyTick_mem (s : State) : s.copyTick.mem = s.mem := by
  simp [State.copyTick]
@[simp] theorem State.copyPoint_mem (s : State) (q : Nat) : (s.copyPoint q).mem = s.mem := by
  simp [State.copyPoint]

/-! ### Machine/ScanOps -/

@[simp] theorem State.bootCores_mem (s : State) (q : Nat) : (s.bootCores q).mem = s.mem := by
  simp [State.bootCores]
@[simp] theorem State.beginTask_mem (s : State) (q t : Nat) : (s.beginTask q t).mem = s.mem := (rfl)

@[simp] theorem State.storeData_canon {s : State} (h : Canon s.mem) (c off : Nat) (bs : List Byte) :
    Canon (s.storeData c off bs).mem := by
  unfold State.storeData
  exact canon_foldl h fun s x hs => by simp [hs]

@[simp] theorem State.restoreContext_mem (s : State) (c a : Nat) : (s.restoreContext c a).mem = s.mem := (rfl)
@[simp] theorem State.resumeTask_mem (s : State) (q c t : Nat) (rest : List Nat) :
    (s.resumeTask q c t rest).mem = s.mem := by
  simp [State.resumeTask]
@[simp] theorem State.idleCore_mem (s : State) (c : Nat) : (s.idleCore c).mem = s.mem := by
  simp only [State.idleCore]
  split <;> simp
@[simp] theorem State.nextWork_mem (s : State) (q i : Nat) : (s.nextWork q i).mem = s.mem := by
  simp only [State.nextWork]
  split <;> simp
@[simp] theorem State.takeActivation_mem (s : State) (q cls : Nat) : (s.takeActivation q cls).mem = s.mem := by
  simp only [State.takeActivation]
  split <;> simp
@[simp] theorem State.startScan_mem (s : State) (q t : Nat) : (s.startScan q t).mem = s.mem := by
  simp [State.startScan]
@[simp] theorem State.execTimes_mem (s : State) (q t : Nat) : (s.execTimes q t).mem = s.mem := by
  simp [State.execTimes]
@[simp] theorem State.idleTask_mem (s : State) (q t : Nat) : (s.idleTask q t).mem = s.mem := (rfl)
@[simp] theorem State.bodyEnd_mem (s : State) (q t : Nat) : (s.bodyEnd q t).mem = s.mem := by
  simp [State.bodyEnd]
@[simp] theorem State.armStartup_mem (s : State) (q from_ : Nat) : (s.armStartup q from_).mem = s.mem := (rfl)

/-! ### Machine/Power -/

@[simp] theorem State.setRail_mem (s : State) (k : Nat) (x : Rail) : (s.setRail k x).mem = s.mem := (rfl)
@[simp] theorem State.voutNow_mem (s : State) (k mv : Nat) : (s.voutNow k mv).mem = s.mem := (rfl)
@[simp] theorem State.vout_mem (s : State) (k mv : Nat) : (s.vout k mv).mem = s.mem := by
  simp [State.vout]

@[simp] theorem State.railTick_mem (s : State) : s.railTick.mem = s.mem := by
  unfold State.railTick
  refine foldl_mem rfl fun s k => ?_
  split
  · split <;> simp
  · rfl

@[simp] theorem State.avsUpdate_mem (s : State) (k : Nat) (m : Int) (out : Nat) :
    (s.avsUpdate k m out).mem = s.mem := by
  simp [State.avsUpdate]
@[simp] theorem execAvsUpdate_completes (s : State) (rail : Fin 2) (margin readVout : BitVec 16) :
    Completes s (execAvsUpdate rail margin readVout s) :=
  .of rfl fun h => by simp [h]
@[simp] theorem State.pmbusFail_mem (s : State) (k : Nat) : (s.pmbusFail k).mem = s.mem := by
  simp only [State.pmbusFail]
  split <;> simp

@[simp] theorem execPmbusTransactionEnd_completes (s : State) (rail : Fin 2) (ok : Bool) :
    Completes s (execPmbusTransactionEnd rail ok s) :=
  .of rfl fun h => by
    split
    · split <;> simp [h]
    · simp [h]

@[simp] theorem execPmbusTimeout_completes (s : State) (rail : Fin 2) : Completes s (execPmbusTimeout rail s) :=
  .of rfl fun h => by simp [h]
@[simp] theorem State.gateWrite_mem (s : State) (v : Nat) : (s.gateWrite v).mem = s.mem := (rfl)
@[simp] theorem execGateRequest_completes (s : State) (domains : BitVec 7) :
    Completes s (execGateRequest domains s) :=
  .of rfl fun h => by simp [h]
@[simp] theorem execDomainGated_completes (s : State) (domain : Fin 7) : Completes s (execDomainGated domain s) :=
  .of rfl fun h => by simp [h]

/-! ### Machine/EccMem -/

@[simp] theorem State.eccSeen_mem (s : State) (k n : Nat) : (s.eccSeen k n).mem = s.mem := by
  simp [State.eccSeen]
@[simp] theorem State.memUncorr_mem (s : State) (a master : Nat) : (s.memUncorr a master).mem = s.mem := by
  simp [State.memUncorr]
@[simp] theorem State.scrubTick_mem (s : State) : s.scrubTick.mem = s.mem := by
  simp [State.scrubTick]

/-! ### Machine/LockRows -/

@[simp] theorem State.lockGrant_mem (s : State) (l : Nat) (x : Nat × Nat) : (s.lockGrant l x).mem = s.mem := by
  simp [State.lockGrant]
@[simp] theorem State.lockDecide_mem (s : State) (l : Nat) : (s.lockDecide l).mem = s.mem := by
  simp only [State.lockDecide]
  (repeat' split) <;> simp
@[simp] theorem execLockGrant_completes (s : State) (l : Fin 21) (masters : List (Fin 42)) :
    Completes s (execLockGrant l masters s) :=
  .of rfl fun h => by simp [h]
@[simp] theorem State.lockRelease_mem (s : State) (l : Nat) : (s.lockRelease l).mem = s.mem := by
  simp [State.lockRelease]
@[simp] theorem execLockTransferEnd_completes (s : State) (l : Fin 21) : Completes s (execLockTransferEnd l s) :=
  .of rfl fun h => by simp [h]
@[simp] theorem State.cutAccess_canon {s : State} (h : Canon s.mem) (a : Access) : Canon (s.cutAccess a).mem := by
  simp [State.cutAccess, h]
@[simp] theorem execHoldCutoff_completes (s : State) (l : Fin 21) (addr : Addr) (write : Bool) :
    Completes s (execHoldCutoff l addr write s) :=
  .of rfl fun h => by simp [h]
@[simp] theorem execQuotaUnmask_completes (s : State) (l : Fin 21) : Completes s (execQuotaUnmask l s) :=
  .of rfl fun h => by simp [h]

/-! ### Machine/Admission -/

@[simp] theorem AdmView.writeWorst_mem (v : AdmView) (s : State) : (v.writeWorst s).mem = s.mem := by
  unfold AdmView.writeWorst
  exact foldl_mem rfl fun _ _ => by simp

@[simp] theorem State.admitChange_mem (s view : State) : (s.admitChange view).2.mem = s.mem := by
  unfold State.admitChange
  extract_lets v
  split <;> simp

/-! ### Machine/Graver -/

@[simp] theorem State.ps_mem (s : State) (f : Fld) (d : Nat) (v : Int) : (s.ps f d v).mem = s.mem := (rfl)
@[simp] theorem State.setGctx_mem (s : State) (c : Nat) (x : GrvCtx) : (s.setGctx c x).mem = s.mem := (rfl)
@[simp] theorem State.changeForm_mem (s : State) (c old new : Nat) : (s.changeForm c old new).mem = s.mem := by
  simp [State.changeForm]
@[simp] theorem State.ctxRelease_mem (s : State) (c : Nat) : (s.ctxRelease c).mem = s.mem := by
  simp only [State.ctxRelease]
  (repeat' split) <;> simp
@[simp] theorem execContextRelease_completes (s : State) (c : Fin 128) : Completes s (execContextRelease c s) :=
  .of rfl fun h => by simp [h]
@[simp] theorem State.candidate_mem (s : State) (c : Nat) : (s.candidate c).mem = s.mem := by
  simp [State.candidate]
@[simp] theorem State.finishSample_mem (s : State) (c : Nat) (a : Int) (won : Bool) :
    (s.finishSample c a won).mem = s.mem := by
  simp [State.finishSample]
@[simp] theorem State.groupResult_mem (s : State) (g : Nat) : (s.groupResult g).mem = s.mem := by
  simp only [State.groupResult]
  (repeat' split) <;> simp
@[simp] theorem State.skipSample_mem (s : State) (c : Nat) : (s.skipSample c).mem = s.mem := by
  simp [State.skipSample]
@[simp] theorem execSampleStart_completes (s : State) : Completes s (execSampleStart s) := .of rfl fun h => by
  split <;> simp [h]

@[simp] theorem State.writePort_canon {s : State} (h : Canon s.mem) (w : Nat) (a : Int) (mode : Nat) :
    Canon (s.writePort w a mode).2.mem := by
  simp only [State.writePort]
  (repeat' split) <;> simp [h]

@[simp] theorem execSampleOutputWrite_completes (s : State) : Completes s (execSampleOutputWrite s) :=
    .of rfl fun h => by
  simp only
  (repeat' split) <;> simp [h]

@[simp] theorem execCoefSetSwitch_completes (s : State) (c : Fin 128) (set : Bool) :
    Completes s (execCoefSetSwitch c set s) :=
  .of rfl fun h => by simp [h]
@[simp] theorem State.reseed_mem (s : State) (c : Nat) : (s.reseed c).mem = s.mem := by
  simp [State.reseed]
@[simp] theorem execReseed_completes (s : State) (c : Fin 128) : Completes s (execReseed c s) :=
  .of rfl fun h => by simp [h]
@[simp] theorem State.ffRebuild_mem (s : State) (t : Nat) : (s.ffRebuild t).mem = s.mem := by
  simp [State.ffRebuild]
@[simp] theorem execGrvRebuild_completes (s : State) (t : Fin 16) : Completes s (execGrvRebuild t s) :=
  .of rfl fun h => by simp [h]
@[simp] theorem State.ffRebuildEnd_canon {s : State} (h : Canon s.mem) (t : Nat) (readErr : Bool) :
    Canon (s.ffRebuildEnd t readErr).mem := by
  simp [State.ffRebuildEnd, h]
@[simp] theorem execGrvRebuildEnd_completes (s : State) (t : Fin 16) (readErr : Bool) :
    Completes s (execGrvRebuildEnd t readErr s) :=
  .of rfl fun h => by simp [h]
@[simp] theorem State.ffSwap_mem (s : State) (t bank : Nat) : (s.ffSwap t bank).mem = s.mem := by
  simp [State.ffSwap]
@[simp] theorem execGrvBankSwap_completes (s : State) (t : Fin 16) (bank : Bool) :
    Completes s (execGrvBankSwap t bank s) :=
  .of rfl fun h => by simp [h]
@[simp] theorem State.grvReportOf_mem (s view : State) : (s.grvReportOf view).mem = s.mem := by
  simp [State.grvReportOf]
@[simp] theorem State.grvReport_mem (s : State) : s.grvReport.mem = s.mem := by
  simp [State.grvReport]
@[simp] theorem State.grvMembers_mem (s : State) : s.grvMembers.mem = s.mem := by
  simp [State.grvMembers]
@[simp] theorem State.ctxEnable_mem (s : State) (c : Nat) : (s.ctxEnable c).mem = s.mem := by
  simp [State.ctxEnable]
@[simp] theorem State.ctxDisable_mem (s : State) (c : Nat) : (s.ctxDisable c).mem = s.mem := by
  simp [State.ctxDisable]
@[simp] theorem State.grpEnable_mem (s : State) (g : Nat) : (s.grpEnable g).mem = s.mem := by
  simp [State.grpEnable]

/-! ### Machine/Tide -/

@[simp] theorem State.setTid_mem (s : State) (x : TidSt) : (s.setTid x).mem = s.mem := (rfl)
@[simp] theorem State.setServo_mem (s : State) (d : Nat) (x : Servo) : (s.setServo d x).mem = s.mem := (rfl)
@[simp] theorem State.tideCycle_mem (s : State) : s.tideCycle.mem = s.mem := (rfl)
@[simp] theorem State.tideTick_mem (s : State) : s.tideTick.mem = s.mem := by
  simp [State.tideTick]
@[simp] theorem State.tidRefuse_mem (s : State) (code : Nat) : (s.tidRefuse code).mem = s.mem := (rfl)
@[simp] theorem State.setOutNext_mem (s : State) (o : Nat) (t : Option Nat) : (s.setOutNext o t).mem = s.mem := (rfl)
@[simp] theorem State.outPulse_mem (s : State) (o t : Nat) : (s.outPulse o t).mem = s.mem := by
  simp [State.outPulse]
@[simp] theorem State.outFire_mem (s : State) (o t : Nat) : (s.outFire o t).mem = s.mem := by
  simp [State.outFire]
@[simp] theorem State.outStep_mem (s : State) (old new o : Nat) : (s.outStep old new o).mem = s.mem := by
  unfold State.outStep
  split <;> simp
@[simp] theorem State.stepTide_mem (s : State) (t : Nat) : (s.stepTide t).mem = s.mem := by
  simp [State.stepTide]
@[simp] theorem State.outEnable_mem (s : State) (o at_ : Nat) : (s.outEnable o at_).mem = s.mem := (rfl)
@[simp] theorem State.outDisable_mem (s : State) (o : Nat) : (s.outDisable o).mem = s.mem := (rfl)
@[simp] theorem execTideOutPulse_completes (s : State) (o : Fin 8) : Completes s (execTideOutPulse o s) :=
    .of rfl fun h => by
  split <;> simp [h]
@[simp] theorem State.setInFifo_mem (s : State) (i : Nat) (l : List (Bool × Nat)) :
    (s.setInFifo i l).mem = s.mem := (rfl)
@[simp] theorem execTideInEdge_completes (s : State) (i : Fin 4) (rising : Bool) :
    Completes s (execTideInEdge i rising s) :=
  .of rfl fun h => by simp [h]
@[simp] theorem State.inRead_mem (s : State) (i : Nat) : (s.inRead i).2.mem = s.mem := by
  unfold State.inRead
  split <;> simp
@[simp] theorem execTideInRead_completes (s : State) (i : Fin 4) : Completes s (execTideInRead i s) :=
  .of rfl fun h => by simp [h]
@[simp] theorem State.tidStep_mem (s : State) : s.tidStep.mem = s.mem := by
  simp [State.tidStep]
@[simp] theorem execTidStep_completes (s : State) : Completes s (execTidStep s) :=
  .of rfl fun h => by simp [h]
@[simp] theorem State.tidSlew_mem (s : State) : s.tidSlew.mem = s.mem := by
  simp [State.tidSlew]
@[simp] theorem execTidSlew_completes (s : State) : Completes s (execTidSlew s) :=
  .of rfl fun h => by simp [h]
@[simp] theorem State.domEnable_mem (s : State) (d : Nat) : (s.domEnable d).mem = s.mem := (rfl)
@[simp] theorem State.setServoState_mem (s : State) (d x : Nat) : (s.setServoState d x).mem = s.mem := (rfl)
@[simp] theorem State.showFreq_mem (s : State) (d : Nat) (f : Int) : (s.showFreq d f).mem = s.mem := by
  simp [State.showFreq]
@[simp] theorem State.roundRat_mem (s : State) (x : Rat) : (s.roundRat x).2.mem = s.mem := by
  simp [State.roundRat]
@[simp] theorem State.lockState_mem (s : State) (d : Nat) (good far : Bool) :
    (s.lockState d good far).mem = s.mem := by
  simp [State.lockState]
@[simp] theorem State.acquire_mem (s : State) (d : Nat) (o : Int) : (s.acquire d o).mem = s.mem := by
  simp [State.acquire]
@[simp] theorem State.steer_mem (s : State) (d : Nat) (o : Int) : (s.steer d o).mem = s.mem := by
  simp [State.steer]
@[simp] theorem State.estimate_mem (s : State) (d : Nat) (fit : List (Nat × Int)) :
    (s.estimate d fit).mem = s.mem := by
  simp [State.estimate]
@[simp] theorem State.servoSample_mem (s : State) (d : Nat) (o : Int) : (s.servoSample d o).mem = s.mem := by
  simp [State.servoSample]
@[simp] theorem State.sample_mem (s : State) (d : Nat) (o : Int) : (s.sample d o).mem = s.mem := by
  simp [State.sample]
@[simp] theorem State.switchTo_mem (s : State) (d : Nat) : (s.switchTo d).mem = s.mem := by
  simp [State.switchTo]
@[simp] theorem State.switchRequest_mem (s : State) (d : Nat) : (s.switchRequest d).mem = s.mem := by
  simp [State.switchRequest]
@[simp] theorem execDomainSwitchRequest_completes (s : State) (active : Fin 2) :
    Completes s (execDomainSwitchRequest active s) :=
  .of rfl fun h => by simp [h]
@[simp] theorem State.domLost_mem (s : State) (d : Nat) : (s.domLost d).mem = s.mem := by
  simp [State.domLost]
@[simp] theorem execDomainLoss_completes (s : State) (d : Fin 2) : Completes s (execDomainLoss d s) :=
    .of rfl fun h => by
  split <;> simp [h]

/-! ### Machine/Cycle -/

@[simp] theorem State.fabCycle_mem (s : State) : s.fabCycle.mem = s.mem := by
  simp [State.fabCycle]

/-! ### Machine/Almanac -/

@[simp] theorem State.putCal_mem (s : State) (c : Cal) : (s.putCal c).mem = s.mem := (rfl)
@[simp] theorem State.almLevels_mem (s : State) : s.almLevels.mem = s.mem := by
  simp [State.almLevels]
@[simp] theorem State.setOsf_mem (s : State) (b : Bool) : (s.setOsf b).mem = s.mem := by
  simp [State.setOsf]
@[simp] theorem State.setHorizon_mem (s : State) (a : Nat) (x2 : Option Nat) :
    (s.setHorizon a x2).mem = s.mem := (rfl)
@[simp] theorem State.alarmFire_mem (s : State) (a : Nat) (skipped repeat_ : Bool) :
    (s.alarmFire a skipped repeat_).mem = s.mem := by
  simp [State.alarmFire]

@[simp] theorem State.tickEnds_mem (s : State) (t : Nat) : (s.tickEnds t).mem = s.mem := by
  unfold State.tickEnds
  extract_lets s1
  refine (foldl_mem rfl fun s a => ?_ : s1.mem = s.mem)
  split
  · split <;> simp
  · rfl

@[simp] theorem State.usualFires_mem (s : State) (t : Nat) : (s.usualFires t).mem = s.mem := by
  simp [State.usualFires]
@[simp] theorem State.calTo_mem (s : State) (t : Nat) : (s.calTo t).mem = s.mem := by
  simp [State.calTo]
@[simp] theorem State.weekdayBy_mem (s : State) (k : Nat) : (s.weekdayBy k).mem = s.mem := (rfl)
@[simp] theorem State.almTick_mem (s : State) : s.almTick.mem = s.mem := by
  simp [State.almTick]
@[simp] theorem execTick_completes (s : State) : Completes s (execTick s) :=
  .of rfl fun h => by simp [h]
@[simp] theorem execCalendarWrap_completes (s : State) : Completes s (execCalendarWrap s) :=
  .of rfl fun h => by simp [h]
@[simp] theorem execWeekdayAdvance_completes (s : State) : Completes s (execWeekdayAdvance s) :=
  .of rfl fun h => by simp [h]
@[simp] theorem execAlarmFire_completes (s : State) (a : Fin 2) : Completes s (execAlarmFire a s) :=
  .of rfl fun h => by simp [h]
@[simp] theorem State.vbatFirst_mem (s : State) : s.vbatFirst.mem = s.mem := by
  simp [State.vbatFirst]
@[simp] theorem execVbatFirstApplied_completes (s : State) : Completes s (execVbatFirstApplied s) :=
  .of rfl fun h => by simp [h]
@[simp] theorem execSupplySwitchover_completes (s : State) : Completes s (execSupplySwitchover s) :=
  .of rfl fun h => by simp [h]
@[simp] theorem execOscillatorStop_completes (s : State) : Completes s (execOscillatorStop s) :=
  .of rfl fun h => by simp [h]
@[simp] theorem execOscillatorRestart_completes (s : State) : Completes s (execOscillatorRestart s) :=
  .of rfl fun h => by simp [h]
@[simp] theorem execAlmNowRead_completes (s : State) : Completes s (execAlmNowRead s) :=
  .of rfl fun h => by simp [h]
@[simp] theorem State.almRefuse_mem (s : State) (code : Nat) : (s.almRefuse code).mem = s.mem := (rfl)
@[simp] theorem State.almAccept_mem (s : State) (c : AlmCmd) : (s.almAccept c).mem = s.mem := (rfl)
@[simp] theorem State.almCmd_mem (s : State) (op master : Nat) : (s.almCmd op master).mem = s.mem := by
  simp [State.almCmd]
@[simp] theorem execAlmSet_completes (s : State) (master : Fin 42) : Completes s (execAlmSet master s) :=
  .of rfl fun h => by simp [h]
@[simp] theorem execAlmShift_completes (s : State) (master : Fin 42) : Completes s (execAlmShift master s) :=
  .of rfl fun h => by simp [h]
@[simp] theorem execAlmWeekday_completes (s : State) (master : Fin 42) : Completes s (execAlmWeekday master s) :=
  .of rfl fun h => by simp [h]
@[simp] theorem State.judge_mem (s : State) (tref tnew wd : Nat) : (s.judge tref tnew wd).mem = s.mem := by
  simp [State.judge]

@[simp] theorem execAlmCommandApply_completes (s : State) : Completes s (execAlmCommandApply s) := by
  unfold execAlmCommandApply
  split
  · exact .of rfl id
  · split
    · exact .of rfl id
    · extract_lets before osf wd tref tnew wdRef s1 s2 day s3 s4 t s5 s6 alm s7 s8 p n
      have h4 : s4.mem = s.mem := by
        have h1 : s1.mem = s.mem := s.calTo_mem _
        have h2 : s2.mem = s1.mem := by
          unfold s2
          split
          · exact s1.setOsf_mem _
          · rfl
        have h3 : s3.mem = s2.mem := by
          unfold s3
          split
          · rfl
          · split
            · exact s2.weekdayBy_mem _
            · split
              · exact s2.weekdayBy_mem _
              · rfl
        have h4 : s4.mem = s3.mem := by
          unfold s4
          split
          · exact s3.mem_p ..
          · rfl
        rw [h4, h3, h2, h1]
      have h5 : s5.mem = s4.mem := by
        unfold s5
        split
        · exact s4.usualFires_mem _
        · exact s4.judge_mem ..
      have hk (t : State) : { t with alm := { t.alm with cmd := none } }.mem = t.mem := rfl
      have h8 : s8.mem = s.mem := by
        rw [State.mem_p, State.mem_putTime, hk, State.tickEnds_mem, h5, h4]
      split
      · refine .of rfl fun h => ?_
        rw [h8]
        exact h
      · refine .of rfl fun h => ?_
        rw [State.logFixed_mem, h8]
        exact h

/-! ### Machine/BeaconTab -/

@[simp] theorem State.clearRange_canon {s : State} (h : Canon s.mem) (a n : Nat) : Canon (s.clearRange a n).mem := by
  simp [State.clearRange, h]
@[simp] theorem State.lput_canon {s : State} (h : Canon s.mem) (n off size v : Nat) :
    Canon (s.lput n off size v).mem := by
  simp [State.lput, h]
@[simp] theorem State.lsetBit_canon {s : State} (h : Canon s.mem) (n k : Nat) (b : Bool) :
    Canon (s.lsetBit n k b).mem := by
  simp [State.lsetBit, h]
@[simp] theorem State.wput_canon {s : State} (h : Canon s.mem) (w off size v : Nat) :
    Canon (s.wput w off size v).mem := by
  simp [State.wput, h]
@[simp] theorem State.bcnEcc_mem (s : State) (a : Nat) : (s.bcnEcc a).mem = s.mem := by
  simp [State.bcnEcc]
@[simp] theorem State.bcnDdrErr_mem (s : State) (a : Nat) : (s.bcnDdrErr a).mem = s.mem := by
  simp [State.bcnDdrErr]
@[simp] theorem State.fevWrite_canon {s : State} (h : Canon s.mem) (source old new : Nat) :
    Canon (s.fevWrite source old new).mem := by
  simp [State.fevWrite, h]
@[simp] theorem State.putFaults_canon {s : State} (h : Canon s.mem) (n v : Nat) : Canon (s.putFaults n v).mem := by
  simp [State.putFaults, h]
@[simp] theorem State.putUp_canon {s : State} (h : Canon s.mem) (w : Nat) (b : Bool) : Canon (s.putUp w b).mem := by
  simp [State.putUp, h]
@[simp] theorem State.bcnReport_mem (s : State) : s.bcnReport.mem = s.mem := (rfl)
@[simp] theorem State.bcnEnable_mem (s : State) : s.bcnEnable.mem = s.mem := (rfl)
@[simp] theorem State.bcnDisable_mem (s : State) : s.bcnDisable.mem = s.mem := (rfl)

/-! ### Machine/BeaconCopy -/

@[simp] theorem State.putRegLine_mem (s : State) (fs : List Fld) (d : Nat) (bs : List Byte) :
    (s.putRegLine fs d bs).mem = s.mem := by
  simp [State.putRegLine]
@[simp] theorem State.setCamp_mem (s : State) (c : Nat) (x : BcnCamp) : (s.setCamp c x).mem = s.mem := (rfl)
@[simp] theorem State.bcnCopyPoint_mem (s : State) : s.bcnCopyPoint.mem = s.mem := by
  simp [State.bcnCopyPoint]
@[simp] theorem State.bcnFull_mem (s : State) : s.bcnFull.mem = s.mem := (rfl)

@[simp] theorem State.putPlaces_canon {s : State} (h : Canon s.mem) (key : Nat) (places : List Nat) (bs : List Byte) :
    Canon (s.putPlaces key places bs).mem := by
  unfold State.putPlaces
  exact canon_foldl h fun s i hs => by simp [hs]

@[simp] theorem State.bcnTakeLine_canon {s : State} (h : Canon s.mem) (r : Nat × List Byte) :
    Canon (s.bcnTakeLine r).mem := by
  simp [State.bcnTakeLine, h]

@[simp] theorem State.bcnTakeover_canon {s : State} (h : Canon s.mem) : Canon s.bcnTakeover.mem := by
  have h1 (l : List Nat) : Canon (l.foldl (fun s w =>
      s.wput w oTXSEQ 8 (min (2 ^ 48 - 1) (s.wget w oTXSEQ 8 + 2 ^ 20))) s).mem := canon_foldl h fun s w hs => by simp [hs]
  have h2 (l : List Nat) (t : State) (ht : Canon t.mem) : Canon (l.foldl (fun s c =>
    if s.g BCN_CAMP_STATUS_STATE (dCamp c) = 2 then
      { s with bcn := { s.bcn with camps := AMap.set {} s.bcn.camps c (s.campFromRecords c) } }
    else s) t).mem := canon_foldl ht fun s w hs => by simp [hs]
  have h3 (t : State) (ht : Canon t.mem) : Canon { t with bcn := { t.bcn with first := true } }.mem := ht
  exact h3 _ (h2 _ _ (h1 _))

/-! ### Machine/Beacon -/

@[simp] theorem State.bcnRebuild_mem (s : State) : s.bcnRebuild.mem = s.mem := by
  simp [State.bcnRebuild]
@[simp] theorem execBcnRebuild_completes (s : State) : Completes s (execBcnRebuild s) :=
  .of rfl fun h => by simp [h]

@[simp] theorem State.bcnRebuildEnd_canon {s : State} (h : Canon s.mem) (readErr : Option Nat) :
    Canon (s.bcnRebuildEnd readErr).mem := by
  have hl (a : Nat) (lost : Option Nat) :
      Canon ((match lost with | some o => s.memUncorr (a + o) 29 | none => s).eccSeen a profBytes).mem := by
    split <;> simp [h]
  have hf (t : State) (l : List Nat) (ht : Canon t.mem) : Canon { t with bcn := { t.bcn with filled := l } }.mem := ht
  have h1 := hl (s.g BCN_PROF_SRC_ADDR) (s.profLost (s.g BCN_PROF_SRC_ADDR))
  simp only [State.bcnRebuildEnd]
  split
  · rw [State.mem_p, State.mem_p, State.raise_mem]
    exact h1
  · split
    · rw [State.mem_p, State.mem_p]
      exact h1
    · rw [State.mem_p]
      exact hf _ _ (State.wbsEcc_canon h1 ..)

@[simp] theorem execBcnRebuildEnd_completes (s : State) (readErr : Option (Fin 75272)) :
    Completes s (execBcnRebuildEnd readErr s) :=
  .of rfl fun h => by simp [h]
@[simp] theorem State.bcnSwap_mem (s : State) (b : Nat) : (s.bcnSwap b).mem = s.mem := by
  simp [State.bcnSwap]
@[simp] theorem execBcnBankSwap_completes (s : State) (bank : Fin 2) : Completes s (execBcnBankSwap bank s) :=
  .of rfl fun h => by simp [h]

@[simp] theorem State.bcnOffer_canon {s : State} (h : Canon s.mem) (w path : Nat) (msgs : List Byte) :
    Canon (s.bcnOffer w path msgs).2.mem := by
  simp only [State.bcnOffer]
  split <;> simp [h]

@[simp] theorem State.closeFrame_canon {s : State} (h : Canon s.mem) (w : Nat) : Canon (s.closeFrame w).mem := by
  simp only [State.closeFrame]
  split
  · exact h
  · split
    · exact h
    · next f _ =>
      have hx : Canon (if (s.bcnOffers && s.gwUsable w && !f.msgs.isEmpty) = true then s.bcnOffer w (s.wcfg w).path f.msgs
          else (false, s)).2.mem := by
        split <;> simp [h]
      have hl (l : List (Nat × Nat)) (t : State) (ht : Canon t.mem) :
          Canon (l.foldl (fun s y => s.lput y.1 oARCSENT 1 y.2) t).mem :=
        canon_foldl ht fun s y hs => by simp [hs]
      rw [mem_ite, mem_ite, State.mem_p, canon_ite]
      refine ⟨fun _ => ?_, fun _ => hx⟩
      rw [canon_ite]
      exact ⟨fun _ => hl _ _ hx, fun _ => hl _ _ hx⟩

@[simp] theorem State.addMsg_canon {s : State} (h : Canon s.mem) (w : Nat) (msg : List Byte)
    (f : BcnFrame → BcnFrame) : Canon (s.addMsg w msg f).mem := by
  simp only [State.addMsg]
  split <;> simp [h]

@[simp] theorem State.eventMinute_mem (s : State) (n : Nat) (off : Int) (t : Option Int) :
    (s.eventMinute n off t).2.mem = s.mem := by
  simp only [State.eventMinute]
  (repeat' split) <;> simp

@[simp] theorem State.solar_mem (s : State) : s.solar.mem = s.mem := by
  simp [State.solar]

@[simp] theorem State.zoneEval_canon {s : State} (h : Canon s.mem) (bank now : Nat) (prev : Option Nat) (z : Nat) :
    Canon (s.zoneEval bank now prev z).mem := by
  unfold State.zoneEval
  exact State.wle_canon (State.wle_canon (State.wle_canon (State.wle_canon h ..) ..) ..) ..

@[simp] theorem State.zonePhase_canon {s : State} (h : Canon s.mem) (bank now : Nat) (prev : Option Nat) (z : Nat) :
    Canon (s.zonePhase bank now prev z).mem := by
  simp only [State.zonePhase]
  split <;> simp [h]

@[simp] theorem State.groupEval_canon {s : State} (h : Canon s.mem) (bank now : Nat) (force : Bool) (g : Nat) :
    Canon (s.groupEval bank now force g).mem := by
  simp only [State.groupEval]
  split <;> simp [h]

@[simp] theorem State.groupPhase_canon {s : State} (h : Canon s.mem) (bank now : Nat) (force : Bool) (g : Nat) :
    Canon (s.groupPhase bank now force g).mem := by
  simp only [State.groupPhase]
  split <;> simp [h]

@[simp] theorem State.readConfigs_canon {s : State} (h : Canon s.mem) (bad : List Nat) :
    Canon (s.readConfigs bad).mem := by
  unfold State.readConfigs
  extract_lets ns s1 keep fresh conf s2 holder s3 s4 s5
  have h1 : Canon s1.mem := canon_foldl h fun s n hs => by simp [hs]
  have h2 : Canon s2.mem := canon_foldl h1 fun s x hs => by simp [hs]
  have h3 : Canon s3.mem := canon_foldl h2 fun s x hs => by simp [hs]
  have h4 : Canon s4.mem := canon_foldl h3 fun s n hs => by simp [hs]
  exact (canon_foldl h4 fun s x hs => by simp [hs] : Canon s5.mem)

@[simp] theorem State.silent_canon {s : State} (h : Canon s.mem) (now n : Nat) (c : LCfg) :
    Canon (s.silent now n c).mem := by
  simp [State.silent, h]

@[simp] theorem State.followGroup_canon {s : State} (h : Canon s.mem) (w key n arc : Nat) :
    Canon (s.followGroup w key n arc).mem := by
  unfold State.followGroup
  split <;> simp [h]

@[simp] theorem State.visit_canon {s : State} (h : Canon s.mem) (bank now n : Nat) :
    Canon (s.visit bank now n).mem := by
  have h1 : Canon (s.silent now n (s.lcfg n)).mem := by simp [h]
  have hs (p : Bool) (t : State) (ht : Canon t.mem) (w k : Nat) (m : List Byte) (f : BcnFrame → BcnFrame) :
      Canon (if p then
          let s := t.addMsg w m f
          match s.bcn.run with
          | some r => { s with bcn := { s.bcn with run := some { r with sent := AMap.set 0 r.sent k 1 } } }
          | none => s
        else t).mem := by
    have hm := State.addMsg_canon ht w m f
    split
    · simp only
      split <;> exact hm
    · exact ht
  simp only [State.visit]
  split
  · split
    · exact h1
    · split
      · have hg (k arc : Nat) := fun p m w g => State.followGroup_canon (hs p _ h1 w k m g) w k n arc
        rw [mem_ite, mem_ite, canon_ite, canon_ite]
        exact ⟨fun _ => hg _ _ _ _ _ _,
          fun _ => ⟨fun _ => State.addMsg_canon (hg _ _ _ _ _ _) .., fun _ => hg _ _ _ _ _ _⟩⟩
      · exact h1
  · exact h

@[simp] theorem State.openPassthru_mem (s : State) : s.openPassthru.mem = s.mem := by
  simp only [State.openPassthru]
  (repeat' split) <;> simp

@[simp] theorem execEvaluationStart_completes (s : State) (ddrErr : List (Fin 262144)) :
    Completes s (execEvaluationStart ddrErr s) :=
  .of rfl fun h => by
    split
    · have hf (t : State) (ht : Canon t.mem) (p : Bool) (a b n : Nat) : Canon (if p then
          (List.range n).foldl (fun s n => s.lput n oARCSENT 1 0xFF) ((List.range 4096).foldl (fun s g =>
            s.wle (bcnGrp g + 18) 1 0xFF) { t.clearRange a b with bcn := { (t.clearRange a b).bcn with conf := [] } })
          else t).mem := by
        split
        · exact canon_foldl (canon_foldl (State.clearRange_canon ht ..) fun s n hs => by simp [hs])
            fun s n hs => by simp [hs]
        · exact ht
      simp only
      split
      · simp [h]
      · refine canon_foldl ?_ fun s n hs => by simp [hs]
        rw [State.openPassthru_mem, State.mem_p]
        refine State.readConfigs_canon ?_ _
        refine canon_foldl ?_ fun s n hs => by simp [hs]
        refine canon_foldl ?_ fun s n hs => by simp [hs]
        refine canon_foldl ?_ fun s n hs => by simp [hs]
        refine canon_foldl ?_ fun s n hs => by simp [hs]
        rw [State.solar_mem, State.mem_p, State.mem_p]
        refine hf _ ?_ _ _ _ _
        exact h
    · exact h

@[simp] theorem execBcnPassEnd_completes (s : State) : Completes s (execBcnPassEnd s) :=
  .of rfl fun h => by
    split
    · exact h
    · next r _ =>
      simp only [State.bcnCopyPoint_mem, State.fireEdge_mem, State.mem_p]
      refine canon_foldl ?_ fun s b hs => by rwa [State.mem_p]
      refine canon_foldl ?_ fun s b hs => State.wle_canon (State.wle_canon hs ..) ..
      refine canon_foldl ?_ fun s x hs => ?_
      · exact canon_foldl h fun s w hs => by simp [hs]
      · split
        · split <;> simp [hs]
        · exact hs

@[simp] theorem State.passthru_mem (s : State) (w len : Nat) : (s.passthru w len).mem = s.mem := by
  simp [State.passthru]
@[simp] theorem execPassthruSend_completes (s : State) (gateway : Fin 1024) (length : Fin 2048) :
    Completes s (execPassthruSend gateway length s) :=
  .of rfl fun h => by simp [h]
@[simp] theorem execGatewaySilent_completes (s : State) (w : Fin 1024) : Completes s (execGatewaySilent w s) :=
  .of rfl fun h => by simp [h]

/-! ### Machine/Progress -/

@[simp] theorem State.progStart_mem (s : State) (r : ProgRegs) (d total : Nat) :
    (s.progStart r d total).mem = s.mem := (rfl)
@[simp] theorem State.progAt_mem (s : State) (r : ProgRegs) (d pos : Nat) : (s.progAt r d pos).mem = s.mem := (rfl)

/-! ### Machine/BeaconRx -/

@[simp] theorem bcnErr_mem (s : State) (k : Nat) : (bcnErr s k).mem = s.mem := (rfl)

@[simp] theorem State.skipUnknown_mem (s : State) (n : Nat) : (State.skipUnknown n s).mem = s.mem := by
  induction n generalizing s with
  | zero => rfl
  | succ n ih =>
    unfold State.skipUnknown
    split
    · rfl
    · split
      · rw [ih]
      · split <;> simp [ih]

@[simp] theorem State.beaconIn_canon {s : State} (h : Canon s.mem) (port trans : Nat) (ip : List Byte) (udp : Nat)
    (l : List Byte) :
    Canon (s.beaconIn port trans ip udp l).mem := by
  have he (k : Nat) : Canon (bcnErr s k).mem := by rwa [bcnErr_mem]
  have hw (p : Prop) [Decidable p] (w a b c : Nat) :
      Canon (if p then (s.wput w oRXSEQ 8 a).wput w oRXWIN 8 b else s.wput w oRXWIN 8 c).mem := by
    split <;> simp [h]
  unfold State.beaconIn
  extract_lets w c who head cipher tag phase seq key nonce plain
  split
  · exact h
  split
  · exact he _
  split
  · exact he _
  split
  · exact he _
  split
  · exact he _
  split
  · exact he _
  split
  · exact he _
  extract_lets rx win s1 s2 x rx' s3
  split
  · exact he _
  split
  · exact he _
  · rw [State.skipUnknown_mem]
    exact State.putUp_canon (State.wput_canon (hw ..) ..) ..

@[simp] theorem execBeaconFrameReceived_completes (s : State) (port : Fin 5) (v6 : Bool) (ip : BitVec 128)
    (udp : BitVec 16) (payload : List Byte) : Completes s (execBeaconFrameReceived port v6 ip udp payload s) :=
  .of rfl fun h => by simp [h]

theorem State.takeMsg_mem {s t : State} {type w n : Nat} {b : List Byte} (e : s.takeMsg type = some (w, b, n, t)) :
    t.mem = s.mem := by
  unfold State.takeMsg at e
  split at e
  · exact absurd e (by simp)
  · split at e
    · exact absurd e (by simp)
    · split at e
      · obtain ⟨-, -, -, rfl⟩ := by simpa using e
        rfl
      · exact absurd e (by simp)

@[simp] theorem State.msgDone_mem (s : State) : s.msgDone.mem = s.mem := by
  simp [State.msgDone]

@[simp] theorem State.report_canon {s : State} (h : Canon s.mem) (n : Nat) (b : List Byte) (stamp : Nat) :
    Canon (s.report n b stamp).mem := by
  simp only [State.report]
  refine State.lput_canon ?_ ..
  have h1 : Canon (if s.bcn.reported.contains n then s
      else { s with bcn := { s.bcn with reported := s.bcn.reported ++ [n] } }).mem := by
    split <;> exact h
  have h2 (t : State) (ht : Canon t.mem) (v w x : Nat) :
     Canon ((((t.putFaults n v).lput n oTEMP 2 w).lput n oARCNOW 1 x).lput n oREPORT 8 stamp).mem :=
    State.lput_canon (State.lput_canon (State.lput_canon (State.putFaults_canon ht ..) ..) ..) ..
  split
  · exact h2 _ h1 ..
  · split
    · exact State.lput_canon (h2 _ h1 ..) ..
    · exact State.lput_canon (h2 _ h1 ..) ..

@[simp] theorem execReport_completes (s : State) : Completes s (execReport s) :=
  .of rfl fun h => by
    split
    · exact h
    · next t e =>
      have ht : Canon t.mem := State.takeMsg_mem e ▸ h
      rw [State.msgDone_mem]
      split
      · simp [ht]
      · split
        · simp [ht]
        · split <;> simp [ht]

@[simp] theorem execCount_completes (s : State) : Completes s (execCount s) :=
  .of rfl fun h => by
    split
    · exact h
    · next t e =>
      have ht : Canon t.mem := State.takeMsg_mem e ▸ h
      rw [State.msgDone_mem]
      split
      · exact State.wle_canon (State.wle_canon (State.wle_canon ht ..) ..) ..
      · exact ht

@[simp] theorem execBcnAlive_completes (s : State) : Completes s (execBcnAlive s) :=
  .of rfl fun h => by
    split
    · exact h
    · next e => rwa [State.msgDone_mem, State.takeMsg_mem e]

@[simp] theorem State.campTo_mem (s : State) (c st : Nat) : (s.campTo c st).mem = s.mem := by
  simp [State.campTo]
@[simp] theorem State.campFail_mem (s : State) (c fail : Nat) : (s.campFail c fail).mem = s.mem := by
  simp [State.campFail]

@[simp] theorem State.putTarget_canon {s : State} (h : Canon s.mem) (c : Nat) (t : CampTarget) :
    Canon (s.putTarget c t).mem := by
  unfold State.putTarget
  extract_lets x s1 b s2
  have h1 : Canon s1.mem := by simp [s1, h]
  split
  · simp [h1]
  · exact State.lput_canon (State.lput_canon (State.lput_canon h1 ..) ..) ..

@[simp] theorem State.campUpdate_mem (s : State) (c : Nat) : (s.campUpdate c).mem = s.mem := by
  simp [State.campUpdate]

@[simp] theorem execFwAck_completes (s : State) : Completes s (execFwAck s) :=
  .of rfl fun h => by
    split
    · exact h
    · next w b _ t e =>
      have ht : Canon t.mem := State.takeMsg_mem e ▸ h
      rw [State.msgDone_mem]
      split
      · simp [ht]
      · split
        · simp [ht]
        · rw [State.campUpdate_mem, mem_ite, State.setCamp_mem, ite_self]
          exact State.putTarget_canon ht ..

@[simp] theorem State.campRefuse_mem (s : State) (c code : Nat) : (s.campRefuse c code).mem = s.mem := (rfl)
@[simp] theorem State.campStart_canon {s : State} (h : Canon s.mem) (c : Nat) : Canon (s.campStart c).mem := by
  simp [State.campStart, h]
@[simp] theorem execCampaignStart_completes (s : State) (c : Fin 8) : Completes s (execCampaignStart c s) :=
  .of rfl fun h => by simp [h]

@[simp] theorem execCampaignVerifyEnd_completes (s : State) (c : Fin 8) (readErr : Bool) :
    Completes s (execCampaignVerifyEnd c readErr s) :=
  .of rfl fun h => by
    split
    · split
      · simp [h]
      · split
        · simp [h]
        · simp [h]
        · simp only
          split
          · rw [State.campFail_mem]
            exact canon_foldl h fun s n hs => by simp [hs]
          · rw [State.campTo_mem, State.campUpdate_mem, State.progStart_mem, State.mem_p]
            refine canon_foldl ?_ fun s t hs => by simp [hs]
            rw [State.setCamp_mem]
            exact canon_foldl h fun s n hs => by simp [hs]
    · exact h

@[simp] theorem execCampaignFrameTurn_completes (s : State) (c : Fin 8) : Completes s (execCampaignFrameTurn c s) :=
  .of rfl fun h => by
    split
    · split
      · simp [h]
      · split
        · exact h
        · split
          · exact h
          · next w _ _ msg ts g _ =>
            have ho := State.bcnOffer_canon h w (s.g BCN_CAMP_CFG_PATH (dCamp c.val)) msg
            simp only
            split
            · rw [State.campUpdate_mem]
              refine canon_foldl ?_ fun s t hs => by simp [hs]
              rwa [State.setCamp_mem, State.setCamp_mem]
            · rwa [State.setCamp_mem]
    · exact h

@[simp] theorem execCampaignAckTimeout_completes (s : State) (c : Fin 8) (w : Fin 1024) :
    Completes s (execCampaignAckTimeout c w s) :=
  .of rfl fun h => by
    split
    · simp only
      split
      · rw [State.campUpdate_mem]
        exact canon_foldl h fun s t hs => by simp [hs]
      · exact h
    · exact h

@[simp] theorem State.campAbort_canon {s : State} (h : Canon s.mem) (c : Nat) : Canon (s.campAbort c).mem := by
  unfold State.campAbort
  split
  · simp only [State.campFail_mem]
    exact canon_foldl h fun s t hs => by simp [hs]
  · simp [h]

@[simp] theorem execCampaignAbort_completes (s : State) (c : Fin 8) : Completes s (execCampaignAbort c s) :=
  .of rfl fun h => by simp [h]
@[simp] theorem State.campClear_mem (s : State) (c : Nat) : (s.campClear c).mem = s.mem := by
  simp [State.campClear]
@[simp] theorem execCampaignClear_completes (s : State) (c : Fin 8) : Completes s (execCampaignClear c s) :=
  .of rfl fun h => by simp [h]

@[simp] theorem State.bcnSession_canon {s : State} (h : Canon s.mem) (e phase : Nat) :
    Canon (s.bcnSession e phase).mem := by
  unfold State.bcnSession
  exact canon_foldl h fun s w hs => by simp [hs]

/-! ### Machine/Logbook -/

@[simp] theorem State.setLog_mem (s : State) (x : LogSt) : (s.setLog x).mem = s.mem := (rfl)
@[simp] theorem State.putFixed_mem (s : State) (r : FixRec) : (s.putFixed r).mem = s.mem := (rfl)
@[simp] theorem State.writeFixed_mem (s : State) (discard : Bool) : (s.writeFixed discard).mem = s.mem := by
  unfold State.writeFixed
  split <;> simp
@[simp] theorem execFixedRecordWrite_completes (s : State) (fault : Fin 3) :
    Completes s (execFixedRecordWrite fault s) :=
  .of rfl fun h => by simp [h]
@[simp] theorem execOpSecondTick_completes (s : State) : Completes s (execOpSecondTick s) :=
  .of rfl fun h => by simp [h]
@[simp] theorem State.logRead_mem (s : State) (store age : Nat) : (s.logRead store age).mem = s.mem := (rfl)
@[simp] theorem execLogRead_completes (s : State) (store : Fin 2) (age : Fin 16384) :
    Completes s (execLogRead store age s) :=
  .of rfl fun h => by simp [h]
@[simp] theorem execLogReadDone_completes (s : State) : Completes s (execLogReadDone s) :=
  .of rfl fun h => by simp [h]
@[simp] theorem State.logExport_mem (s : State) (store : Nat) : (s.logExport store).mem = s.mem := by
  simp [State.logExport]
@[simp] theorem execLogExport_completes (s : State) (store : Fin 2) : Completes s (execLogExport store s) :=
  .of rfl fun h => by simp [h]
@[simp] theorem execLogExportEnd_completes (s : State) (errAfter : Option Nat) :
    Completes s (execLogExportEnd errAfter s) := .of rfl fun h => by
  split <;> simp [h]
@[simp] theorem State.clearRefused_mem (s : State) (code : Nat) : (s.clearRefused code).mem = s.mem := (rfl)
@[simp] theorem State.challenge_mem (s : State) : s.challenge.mem = s.mem := by
  simp [State.challenge]
@[simp] theorem execLogChallenge_completes (s : State) : Completes s (execLogChallenge s) :=
  .of rfl fun h => by simp [h]
@[simp] theorem State.logClear_mem (s : State) (master scope : Nat) : (s.logClear master scope).mem = s.mem := by
  simp [State.logClear]
@[simp] theorem execLogClear_completes (s : State) (master : Fin 42) (scope : Fin 4) :
    Completes s (execLogClear master scope s) :=
  .of rfl fun h => by simp [h]

@[simp] theorem State.flushFixed_mem (s : State) (n : Nat) : (State.flushFixed n s).mem = s.mem := by
  induction n generalizing s with
  | zero => rfl
  | succ n ih => simp [State.flushFixed, ih]

@[simp] theorem execLogClearCommit_completes (s : State) : Completes s (execLogClearCommit s) := .of rfl fun h => by
  split <;> simp [h]
@[simp] theorem execNonceExpiry_completes (s : State) : Completes s (execNonceExpiry s) := .of rfl fun h => by
  split <;> simp [h]

/-! ### Machine/Bonded -/

@[simp] theorem State.setBank_mem (s : State) (b : BstBank) : (s.setBank b).mem = s.mem := by
  simp [State.setBank]
@[simp] theorem State.setSlot_mem (s : State) (i : Nat) (k : KeySlot) : (s.setSlot i k).mem = s.mem := by
  simp [State.setSlot]
@[simp] theorem State.setSess_mem (s : State) (e : Nat) (x : SessEntry) : (s.setSess e x).mem = s.mem := by
  simp [State.setSess]
@[simp] theorem State.msgDone'_canon {s : State} (h : Canon s.mem) (b : BstBatch) (word : Nat) :
    Canon (s.msgDone' b word).mem := by
  simp [State.msgDone', h]
@[simp] theorem State.msgRefused_canon {s : State} (h : Canon s.mem) (b : BstBatch) (m : List Byte) (code : Nat) :
    Canon (s.msgRefused b m code).mem := by
  simp [State.msgRefused, h]
@[simp] theorem State.batchFail_mem (s : State) : s.batchFail.mem = s.mem := (rfl)

@[simp] theorem State.bstSkip_canon {s : State} (h : Canon s.mem) (n : Nat) : Canon (State.bstSkip n s).mem := by
  induction n generalizing s with
  | zero => exact h
  | succ n ih =>
    unfold State.bstSkip
    split
    · exact h
    · split
      · simp [h]
      · extract_lets m c
        split
        · exact h
        · exact ih (State.msgRefused_canon h ..)

@[simp] theorem State.keyBatch_canon {s : State} (h : Canon s.mem) (master count : Nat) :
    Canon (s.keyBatch master count).mem := by
  simp [State.keyBatch, h]
@[simp] theorem execKeyBatch_completes (s : State) (master : Fin 42) (count : Fin 8192) :
    Completes s (execKeyBatch master count s) :=
  .of rfl fun h => by simp [h]
@[simp] theorem State.sessionLost_mem (s : State) : s.sessionLost.mem = s.mem := by
  simp [State.sessionLost]
@[simp] theorem State.keyWrite_mem (s : State) (b : BstBatch) (m : List Byte) : (s.keyWrite b m).mem = s.mem := by
  simp [State.keyWrite]
@[simp] theorem State.keyInvalidate_mem (s : State) (b : BstBatch) (m : List Byte) :
    (s.keyInvalidate b m).mem = s.mem := by
  simp [State.keyInvalidate]
@[simp] theorem State.sessionInstall_canon {s : State} (h : Canon s.mem) (b : BstBatch) (m : List Byte) :
    Canon (s.sessionInstall b m).mem := by
  simp [State.sessionInstall, h]
@[simp] theorem State.factoryUnlock_mem (s : State) (b : BstBatch) (m : List Byte) :
    (s.factoryUnlock b m).mem = s.mem := by
  simp [State.factoryUnlock]

@[simp] theorem State.bstMessage_canon {s : State} (h : Canon s.mem) (op fault : Nat)
    (act : State → BstBatch → List Byte → State)
    (ha : ∀ b m, Canon (act s b m).mem) : Canon (s.bstMessage op fault act).mem := by
  unfold State.bstMessage
  split
  · exact h
  · extract_lets m rest x
    split
    · split
      · simp [h]
      · split
        · simp [h]
        · split <;> simp [x, h, ha]
    · exact h

@[simp] theorem execKeyWrite_completes (s : State) (fault : Fin 4) : Completes s (execKeyWrite fault s) :=
  .of rfl fun h => by simp [h]
@[simp] theorem execKeyInvalidate_completes (s : State) (fault : Fin 4) : Completes s (execKeyInvalidate fault s) :=
  .of rfl fun h => by simp [h]
@[simp] theorem execSessionInstall_completes (s : State) (fault : Fin 4) : Completes s (execSessionInstall fault s) :=
  .of rfl fun h => by simp [h]
@[simp] theorem execFactoryUnlock_completes (s : State) (fault : Fin 4) : Completes s (execFactoryUnlock fault s) :=
  .of rfl fun h => by simp [h]
@[simp] theorem execEntropyFail_completes (s : State) : Completes s (execEntropyFail s) :=
  .of rfl fun h => by simp [h]

/-! ### Machine/Prf -/

@[simp] theorem State.setPrf_mem (s : State) (x : Nat) : (s.setPrf x).mem = s.mem := (rfl)
@[simp] theorem State.busyNow_mem (s : State) : s.busyNow.mem = s.mem := (rfl)
@[simp] theorem State.setRing_mem (s : State) (r : Nat) (x : HostRing) : (s.setRing r x).mem = s.mem := (rfl)
@[simp] theorem State.ringEnd_mem (s : State) (r kind code : Nat) (result : List Byte) :
    (s.ringEnd r kind code result).mem = s.mem := (rfl)
@[simp] theorem State.ringProofEnd_mem (s : State) : s.ringProofEnd.mem = s.mem := by
  unfold State.ringProofEnd
  split <;> simp
@[simp] theorem State.voidProof_mem (s : State) : s.voidProof.mem = s.mem := by
  simp [State.voidProof]
@[simp] theorem State.stagedView_mem (s : State) : s.stagedView.mem = s.mem := (rfl)

/-! ### Machine/ContractRows -/

@[simp] theorem State.refusePath_mem (s : State) (p code : Nat) : (s.refusePath p code).mem = s.mem := (rfl)
@[simp] theorem State.pathEnable_mem (s : State) (p : Nat) : (s.pathEnable p).mem = s.mem := by
  simp [State.pathEnable]
@[simp] theorem execPathEnable_completes (s : State) (p : Fin 512) : Completes s (execPathEnable p s) :=
  .of rfl fun h => by simp [h]

@[simp] theorem State.admissionEnd_mem (s : State) (p : Nat) : (s.admissionEnd p).mem = s.mem := by
  unfold State.admissionEnd
  extract_lets v adm s1 s2
  have h1 : s1.mem = s.mem := by
    rw [State.busyNow_mem]
  split
  · rw [State.voidProof_mem, AdmView.writeWorst_mem, State.refusePath_mem, State.mem_p, State.mem_p, h1]
  · split
    · rw [State.mem_p, State.refusePath_mem, h1]
    · rw [State.mem_p, State.mem_p, State.refusePath_mem, h1]

@[simp] theorem execAdmissionCheckEnd_completes (s : State) : Completes s (execAdmissionCheckEnd s) :=
    .of rfl fun h => by
  split <;> simp [h]
@[simp] theorem State.pathDisable_mem (s : State) (p : Nat) : (s.pathDisable p).mem = s.mem := by
  simp [State.pathDisable]
@[simp] theorem execPathDisable_completes (s : State) (p : Fin 512) : Completes s (execPathDisable p s) :=
  .of rfl fun h => by simp [h]
@[simp] theorem State.cargoAreaWrite_mem (s : State) (area : Nat) : (s.cargoAreaWrite area).mem = s.mem := by
  simp [State.cargoAreaWrite]
@[simp] theorem execCargoAreaWrite_completes (s : State) (area : Fin 4) : Completes s (execCargoAreaWrite area s) :=
  .of rfl fun h => by simp [h]

/-! ### Machine/Can -/

@[simp] theorem State.setCan_mem (s : State) (n : Nat) (x : CanCtl) : (s.setCan n x).mem = s.mem := (rfl)
@[simp] theorem State.canCount_mem (s : State) (n c k : Nat) : (s.canCount n c k).mem = s.mem := (rfl)
@[simp] theorem State.canSubmit_mem (s : State) (n k : Nat) : (s.canSubmit n k).2.mem = s.mem := by
  simp only [State.canSubmit]
  split <;> simp
@[simp] theorem execCanSubmit_completes (s : State) (ctl cls : Fin 8) : Completes s (execCanSubmit ctl cls s) :=
  .of rfl fun h => by simp [h]
@[simp] theorem State.canRemove_mem (s : State) (n : Nat) (it : CanItem) : (s.canRemove n it).mem = s.mem := (rfl)
@[simp] theorem execCanFetchDone_completes (s : State) (ctl cls : Fin 8) (cut ecc : Bool) :
    Completes s (execCanFetchDone ctl cls cut ecc s) := .of rfl fun h => by
  split <;> simp [h]
@[simp] theorem State.canCancel_mem (s : State) (n k : Nat) : (s.canCancel n k).2.mem = s.mem := by
  simp only [State.canCancel]
  (repeat' split) <;> simp
@[simp] theorem execCanCancel_completes (s : State) (ctl cls : Fin 8) : Completes s (execCanCancel ctl cls s) :=
  .of rfl fun h => by simp [h]

@[simp] theorem execCanFrameStart_completes (s : State) (ctl : Fin 8) : Completes s (execCanFrameStart ctl s) :=
    .of rfl fun h => by
  simp only
  (repeat' split) <;> simp [h]

@[simp] theorem State.canExtend_mem (s : State) (n ns : Nat) : (s.canExtend n ns).mem = s.mem := (rfl)
@[simp] theorem State.canErrors_mem (s : State) (n tec rec_ : Nat) : (s.canErrors n tec rec_).mem = s.mem := by
  simp [State.canErrors]
@[simp] theorem execCanArbitrationLost_completes (s : State) (ctl : Fin 8) (ns : BitVec 32) :
    Completes s (execCanArbitrationLost ctl ns s) :=
  .of rfl fun h => by simp [h]
@[simp] theorem execCanErrorFrame_completes (s : State) (ctl : Fin 8) (overload : Bool) (ns : BitVec 32)
    (tec rec_ : BitVec 8) : Completes s (execCanErrorFrame ctl overload ns tec rec_ s) :=
  .of rfl fun h => by simp [h]
@[simp] theorem execCanFrameSent_completes (s : State) (ctl : Fin 8) (ns : BitVec 32) (tec rec_ : BitVec 8) :
    Completes s (execCanFrameSent ctl ns tec rec_ s) := .of rfl fun h => by
  split <;> simp [h]
@[simp] theorem State.canStore_canon {s : State} (h : Canon s.mem) (n f : Nat) (octets : List Byte) :
    Canon (s.canStore n f octets).mem := by
  simp [State.canStore, h]
@[simp] theorem State.canHeadWrite_mem (s : State) (n f v : Nat) : (s.canHeadWrite n f v).mem = s.mem := by
  simp [State.canHeadWrite]

@[simp] theorem execCanFrameReceived_completes (s : State) (ctl : Fin 8) (id : BitVec 31) (format : Fin 3)
    (flags sdt vcid : BitVec 8) (af : BitVec 32) (sof : BitVec 64) (data : List Byte) (rec_ : BitVec 8)
    (fault : Fin 3) (addr : BitVec 40) :
    Completes s (execCanFrameReceived ctl id format flags sdt vcid af sof data rec_ fault addr s) :=
    .of rfl fun h => by
  simp only
  (repeat' split) <;> simp [h]

@[simp] theorem State.canLose_mem (s : State) (n : Nat) : (s.canLose n).mem = s.mem := by
  simp [State.canLose]
@[simp] theorem State.canDisable_mem (s : State) (n : Nat) : (s.canDisable n).mem = s.mem := by
  simp [State.canDisable]
@[simp] theorem execCanBusOff_completes (s : State) (ctl : Fin 8) : Completes s (execCanBusOff ctl s) :=
  .of rfl fun h => by simp [h]
@[simp] theorem State.canTimingNow_mem (s : State) (n : Nat) : (s.canTimingNow n).mem = s.mem := (rfl)
@[simp] theorem State.canEnable_mem (s : State) (n : Nat) : (s.canEnable n).mem = s.mem := (rfl)
@[simp] theorem execCanIntegrationEnd_completes (s : State) (ctl : Fin 8) :
    Completes s (execCanIntegrationEnd ctl s) :=
  .of rfl fun h => by simp [h]
@[simp] theorem execCanTimingTakeup_completes (s : State) (ctl : Fin 8) : Completes s (execCanTimingTakeup ctl s) :=
  .of rfl fun h => by simp [h]
@[simp] theorem State.canMeasure_mem (s : State) (n : Nat) (go : Bool) (window : Nat) :
    (s.canMeasure n go window).mem = s.mem := by
  simp [State.canMeasure]
@[simp] theorem execCanMeasure_completes (s : State) (ctl : Fin 8) (window : BitVec 16) :
    Completes s (execCanMeasure ctl window s) :=
  .of rfl fun h => by simp [h]
@[simp] theorem State.canScores_mem (s : State) (l : List Nat) : (s.canScores l).2.mem = s.mem := by
  unfold State.canScores
  split <;> simp
@[simp] theorem execCanMeasureEnd_completes (s : State) (ctl : Fin 8) (intervals : List (BitVec 32)) :
    Completes s (execCanMeasureEnd ctl intervals s) :=
  .of rfl fun h => by simp [h]

/-! ### Machine/Drafting -/

@[simp] theorem State.drfStatus_mem (s : State) : s.drfStatus.mem = s.mem := by
  simp only [State.drfStatus]
  split <;> simp
@[simp] theorem State.setJob_mem (s : State) (n : Nat) (j : Option DrfJob) : (s.setJob n j).mem = s.mem := by
  unfold State.setJob
  split <;> simp
@[simp] theorem State.setRun_mem (s : State) (r : Option DrfRun) : (s.setRun r).mem = s.mem := by
  simp [State.setRun]
@[simp] theorem State.drfRefuse_mem (s : State) (master code : Nat) : (s.drfRefuse master code).mem = s.mem := (rfl)
@[simp] theorem State.drfNotify_mem (s : State) (master type slot code tag : Nat) :
    (s.drfNotify master type slot code tag).mem = s.mem := by
  simp [State.drfNotify]
@[simp] theorem State.freeBytes_mem (s : State) (n : Nat) : (s.freeBytes n).2.mem = s.mem := (rfl)
@[simp] theorem State.orFree_mem (s : State) (n : Nat) (v : Option Nat) : (s.orFree n v).2.mem = s.mem := by
  unfold State.orFree
  split <;> simp

@[simp] theorem State.record_mem (s : State) (r : RecVals) : (s.record r).2.mem = s.mem := by
  unfold State.record
  extract_lets a b c d e f g h i
  have hg : g.2.mem = s.mem := by simp [g, f, e, d, c, b, a]
  have hh : h.2.mem = s.mem := by
    unfold h
    split
    · exact hg
    · rw [State.freeBytes_mem, hg]
  show i.2.mem = s.mem
  unfold i
  split
  · exact hh
  · rw [State.freeBytes_mem, hh]

@[simp] theorem State.refusedRecord_canon {s : State} (h : Canon s.mem) (d : List Byte) (code : Nat) :
    Canon (s.refusedRecord d code).mem := by
  simp [State.refusedRecord, h]

@[simp] theorem State.drfRead_mem (s : State) (l : List (Nat × Nat)) (slot : Nat) :
    (s.drfRead l slot).mem = s.mem := by
  unfold State.drfRead
  split <;> simp

@[simp] theorem State.submit_canon {s : State} (h : Canon s.mem) (master : Nat) (notify : Bool) (a : Nat) :
    Canon (s.submit master notify a).2.mem := by
  simp only [State.submit]
  (repeat' split) <;> simp [h]

@[simp] theorem execDrfSubmit_completes (s : State) (master : Fin 42) (notify : Bool) (addr : BitVec 40) :
    Completes s (execDrfSubmit master notify addr s) :=
  .of rfl fun h => by simp [h]
@[simp] theorem State.endQueued_mem (s : State) (n : Nat) (j : DrfJob) (status ended : Nat) :
    (s.endQueued n j status ended).mem = s.mem := by
  simp [State.endQueued]

@[simp] theorem State.endRunAt_mem (s : State) (r : DrfRun) (status ended : Nat) :
    (s.endRunAt r status ended).mem = s.mem := by
  unfold State.endRunAt
  split <;> simp

@[simp] theorem State.endRun_mem (s : State) (r : DrfRun) (status : Nat) : (s.endRun r status).mem = s.mem := by
  simp [State.endRun]
@[simp] theorem State.endCut_mem (s : State) (r : DrfRun) (status ended : Nat) :
    (s.endCut r status ended).mem = s.mem := by
  simp [State.endCut]
@[simp] theorem State.endIter_mem (s : State) (r : DrfRun) (status : Nat) : (s.endIter r status).mem = s.mem := by
  unfold State.endIter
  split <;> simp

theorem State.reopen_mem {s t : State} {r : DrfRun} {st : Nat} (e : s.reopen = some (r, st, t)) : t.mem = s.mem := by
  unfold State.reopen at e
  split at e
  · split at e
    · split at e
      · obtain ⟨-, -, rfl⟩ := by simpa using e
        simp
      · exact absurd e (by simp)
    · exact absurd e (by simp)
  · exact absurd e (by simp)

@[simp] theorem State.drfCancel_mem (s : State) (master n tag : Nat) : (s.drfCancel master n tag).2.mem = s.mem := by
  unfold State.drfCancel
  extract_lets refuse
  have hr : refuse.2.mem = s.mem := State.drfRefuse_mem ..
  split
  · exact hr
  · split
    · exact hr
    · split
      · simp
      · split
        · split
          · next e =>
            split
            · simp [State.reopen_mem e]
            · exact hr
          · exact hr
        · split
          · simp
          · rfl

@[simp] theorem execDrfCancel_completes (s : State) (master : Fin 42) (slot : Fin 64) (tag : BitVec 16) :
    Completes s (execDrfCancel master slot tag s) :=
  .of rfl fun h => by simp [h]
@[simp] theorem execJobTimeEnd_completes (s : State) : Completes s (execJobTimeEnd s) := .of rfl fun h => by
  simp only
  (repeat' split) <;> simp [h]
@[simp] theorem execJobExpired_completes (s : State) (slot : Fin 64) : Completes s (execJobExpired slot s) :=
    .of rfl fun h => by
  split <;> simp [h]

@[simp] theorem State.abortFault_mem (s : State) (slot : Nat) (x2 : JobAbort) :
    (s.abortFault slot x2).mem = s.mem := by
  unfold State.abortFault
  split <;> simp

@[simp] theorem State.abortJob_mem (s : State) (why : JobAbort) : (s.abortJob why).mem = s.mem := by
  unfold State.abortJob
  extract_lets st
  split
  · simp
  · split
    · next e => split <;> simp [State.reopen_mem e]
    · rfl

@[simp] theorem execJobAborted_completes (s : State) (why : JobAbort) : Completes s (execJobAborted why s) :=
  .of rfl fun h => by simp [h]

@[simp] theorem execResultPosted_completes (s : State) (writeErr : Bool) :
    Completes s (execResultPosted writeErr s) := .of rfl fun h => by
  simp only
  (repeat' split) <;> simp [h]

@[simp] theorem State.expireJobs_mem (s : State) : s.expireJobs.mem = s.mem := by
  unfold State.expireJobs
  refine foldl_mem rfl fun s x => ?_
  split
  · split <;> simp
  · rfl

@[simp] theorem State.completeIterate_canon {s : State} (h : Canon s.mem) (r : DrfRun) (k : Nat) (i : Iter) :
    Canon (s.completeIterate r k i).2.mem := by
  simp [State.completeIterate, h]
@[simp] theorem State.spill_canon {s : State} (h : Canon s.mem) (r : DrfRun) : Canon (s.spill r).mem := by
  simp [State.spill, h]

@[simp] theorem State.netIterate_canon {s : State} (h : Canon s.mem) (r : DrfRun) (k : Nat) :
    Canon (s.netIterate r k).mem := by
  have hs : Canon (s.spill r).mem := by simp [h]
  simp only [State.netIterate]
  split
  · split
    · rw [State.endRun_mem]
      exact h
    · exact State.completeIterate_canon h ..
  · split
    · rw [State.endRun_mem]
      exact hs
    · split
      · rw [State.endIter_mem]
        exact hs
      · rw [mem_ite, State.endRun_mem, canon_ite]
        refine ⟨fun _ => hs, fun _ => ?_⟩
        rw [mem_ite, mem_ite, mem_ite, State.endRun_mem, State.endRun_mem, State.endIter_mem, ite_self, ite_self, ite_self]
        exact State.completeIterate_canon hs ..

@[simp] theorem State.qpComplete_canon {s : State} (h : Canon s.mem) (r : DrfRun) (k : Nat) (v : QpPt) (x : QpVal) :
    Canon (s.qpComplete r k v x).mem := by
  unfold State.qpComplete
  split <;> simp [h]

@[simp] theorem State.qpIterate_canon {s : State} (h : Canon s.mem) (r : DrfRun) (k : Nat) :
    Canon (s.qpIterate r k).mem := by
  simp only [State.qpIterate]
  (repeat' split) <;> simp [h]

@[simp] theorem State.linIterate_canon {s : State} (h : Canon s.mem) (r : DrfRun) (k : Nat) :
    Canon (s.linIterate r k).mem := by
  simp [State.linIterate, h]

@[simp] theorem State.startJob_canon {s : State} (h : Canon s.mem) (n : Nat) (j : DrfJob) :
    Canon (s.startJob n j).mem := by
  simp only [State.startJob]
  (repeat' split) <;> simp [h]

@[simp] theorem execJobStart_completes (s : State) : Completes s (execJobStart s) := .of rfl fun h => by
  simp only
  (repeat' split) <;> simp [h]
@[simp] theorem State.iterate_canon {s : State} (h : Canon s.mem) (r : DrfRun) : Canon (s.iterate r).mem := by
  simp [State.iterate, h]

@[simp] theorem State.iterateAtEnd_canon {s : State} (h : Canon s.mem) (r : DrfRun) (st : Nat) :
    Canon (s.iterateAtEnd r st).mem := by
  simp only [State.iterateAtEnd]
  split <;> simp [h]

@[simp] theorem State.writeBack_canon {s : State} (h : Canon s.mem) (go : State → DrfRun → Option Nat → State)
    (hgo : ∀ t r o, t.mem = s.mem → Canon (go t r o).mem) : Canon (s.writeBack go).mem := by
  unfold State.writeBack
  split
  · split
    · simp only
      split
      · exact hgo _ _ _ rfl
      · split
        · simp [h]
        · exact hgo _ _ _ rfl
    · exact h
  · split
    · next e =>
      split
      · exact hgo _ _ _ (State.reopen_mem e)
      · exact h
    · exact h

@[simp] theorem execIterateComplete_completes (s : State) (writeErr : Bool) :
    Completes s (execIterateComplete writeErr s) :=
  .of rfl fun h => State.writeBack_canon h _ fun t r o ht => by
    have hc : Canon t.mem := ht ▸ h
    split
    · simp [hc]
    · split <;> simp [hc]

@[simp] theorem State.drfDisable_mem (s : State) : s.drfDisable.mem = s.mem := by
  simp [State.drfDisable]

/-! ### Machine/HostMem -/

@[simp] theorem State.hostLose_mem (s : State) : s.hostLose.mem = s.mem := by
  simp [State.hostLose]
@[simp] theorem execPcieLinkUp_completes (s : State) (gen width : Fin 5) : Completes s (execPcieLinkUp gen width s) :=
  .of rfl fun h => by simp [h]
@[simp] theorem execPcieLinkDown_completes (s : State) : Completes s (execPcieLinkDown s) :=
  .of rfl fun h => by simp [h]
@[simp] theorem State.msixFlush_mem (s : State) : s.msixFlush.mem = s.mem := by
  simp [State.msixFlush]
@[simp] theorem execMsixUnmask_completes (s : State) (vector : Option (Fin 64)) :
    Completes s (execMsixUnmask vector s) := .of rfl fun h => by
  split <;> simp [h]
@[simp] theorem State.setInit_mem (s : State) (x : Option DdrRun) : (s.setInit x).mem = s.mem := (rfl)
@[simp] theorem State.ddrInit_mem (s : State) (test : Bool) : (s.ddrInit test).mem = s.mem := by
  simp [State.ddrInit]
@[simp] theorem execDdrInit_completes (s : State) (test : Bool) : Completes s (execDdrInit test s) :=
  .of rfl fun h => by simp [h]
@[simp] theorem State.ddrFail_mem (s : State) : s.ddrFail.mem = s.mem := (rfl)

@[simp] theorem execDdrTrainingEnd_completes (s : State) (failed : Option (Fin 2)) :
    Completes s (execDdrTrainingEnd failed s) := .of rfl fun h => by
  simp only
  (repeat' split) <;> simp [h]

@[simp] theorem execDdrBlockDone_completes (s : State) (channel : Fin 2) (failed : Bool) :
    Completes s (execDdrBlockDone channel failed s) := .of rfl fun h => by
  split <;> simp [h]
@[simp] theorem execDdrInitEnd_completes (s : State) : Completes s (execDdrInitEnd s) := .of rfl fun h => by
  split <;> simp [h]
@[simp] theorem State.mramScrub_mem (s : State) : s.mramScrub.mem = s.mem := by
  simp [State.mramScrub]
@[simp] theorem execMramScrub_completes (s : State) : Completes s (execMramScrub s) :=
  .of rfl fun h => by simp [h]
@[simp] theorem execMramScrubEnd_completes (s : State) (uncorrectable : Bool) :
    Completes s (execMramScrubEnd uncorrectable s) :=
  .of rfl fun h => by simp [h]
@[simp] theorem State.flashStart_mem (s : State) (op : Nat) : (s.flashStart op).mem = s.mem := by
  simp [State.flashStart]
@[simp] theorem execFlashRead_completes (s : State) : Completes s (execFlashRead s) :=
  .of rfl fun h => by simp [h]
@[simp] theorem execFlashProgram_completes (s : State) : Completes s (execFlashProgram s) :=
  .of rfl fun h => by simp [h]
@[simp] theorem execFlashErase4k_completes (s : State) : Completes s (execFlashErase4k s) :=
  .of rfl fun h => by simp [h]
@[simp] theorem execFlashErase64k_completes (s : State) : Completes s (execFlashErase64k s) :=
  .of rfl fun h => by simp [h]
@[simp] theorem State.flashDo_canon {s : State} (h : Canon s.mem) (op a : Nat) : Canon (s.flashDo op a).mem := by
  simp [State.flashDo, h]
@[simp] theorem execFlashOpEnd_completes (s : State) : Completes s (execFlashOpEnd s) := .of rfl fun h => by
  split <;> simp [h]

/-! ### Machine/Mbus -/

@[simp] theorem State.setUart_mem (s : State) (u : Nat) (x : Uart) : (s.setUart u x).mem = s.mem := (rfl)
@[simp] theorem State.mbsSend_mem (s : State) (u len : Nat) : (s.mbsSend u len).mem = s.mem := by
  simp [State.mbsSend]
@[simp] theorem execMbsSend_completes (s : State) (uart : Fin 8) (length : Fin 1024) :
    Completes s (execMbsSend uart length s) :=
  .of rfl fun h => by simp [h]
@[simp] theorem execMbsTelegramSent_completes (s : State) (uart : Fin 8) : Completes s (execMbsTelegramSent uart s) :=
  .of rfl fun h => by simp [h]
@[simp] theorem execMbsTelegramEnd_completes (s : State) (uart : Fin 8) (octets : List Byte)
    (parity framing : BitVec 16) (ecc : Bool) : Completes s (execMbsTelegramEnd uart octets parity framing ecc s) :=
  .of rfl fun h => by simp [h]
@[simp] theorem execMbsResponseTimeout_completes (s : State) (uart : Fin 8) :
    Completes s (execMbsResponseTimeout uart s) :=
  .of rfl fun h => by simp [h]
@[simp] theorem State.mbsDisable_mem (s : State) (u : Nat) : (s.mbsDisable u).mem = s.mem := (rfl)

/-! ### Machine/NetPort -/

@[simp] theorem State.setGates_mem (s : State) (p : Nat) : (s.setGates p).mem = s.mem := by
  simp [State.setGates]
@[simp] theorem execGateEntryChange_completes (s : State) (port : Fin 4) : Completes s (execGateEntryChange port s) :=
  .of rfl fun h => by simp [h]
@[simp] theorem State.changeover_mem (s : State) (p t : Nat) : (s.changeover p t).mem = s.mem := by
  simp [State.changeover]
@[simp] theorem execGateListChangeover_completes (s : State) (port : Fin 4) :
    Completes s (execGateListChangeover port s) := .of rfl fun h => by
  split <;> simp [h]
@[simp] theorem State.listPulled_mem (s : State) (p a : Nat) : (s.listPulled p a).mem = s.mem := (rfl)
@[simp] theorem State.portEnable_mem (s : State) (p : Nat) : (s.portEnable p).mem = s.mem := by
  simp [State.portEnable]
@[simp] theorem State.portDisable_mem (s : State) (p : Nat) : (s.portDisable p).mem = s.mem := by
  simp [State.portDisable]
@[simp] theorem execPortLinkUp_completes (s : State) (port : Fin 5) (seen : Fin 16) :
    Completes s (execPortLinkUp port seen s) :=
  .of rfl fun h => by simp [h]
@[simp] theorem execPortLinkDown_completes (s : State) (port : Fin 5) : Completes s (execPortLinkDown port s) :=
  .of rfl fun h => by simp [h]
@[simp] theorem State.mdioWrite_mem (s : State) (p v : Nat) : (s.mdioWrite p v).mem = s.mem := by
  simp [State.mdioWrite]
@[simp] theorem execMdioOp_completes (s : State) (port : Fin 5) (value : BitVec 32) :
    Completes s (execMdioOp port value s) :=
  .of rfl fun h => by simp [h]
@[simp] theorem execMdioOpEnd_completes (s : State) (port : Fin 5) (data : BitVec 16) :
    Completes s (execMdioOpEnd port data s) := .of rfl fun h => by
  split <;> simp [h]
@[simp] theorem State.otherWrite_canon {s : State} (h : Canon s.mem) (p tc max : Nat) :
    Canon (s.otherWrite p tc max).mem := by
  simp [State.otherWrite, h]
@[simp] theorem execOtherWrite_completes (s : State) (port : Fin 5) (tc : Fin 8) (max : Fin 2048) :
    Completes s (execOtherWrite port tc max s) :=
  .of rfl fun h => by simp [h]

/-! ### Machine/Ptp -/

@[simp] theorem State.setPtpPort_mem (s : State) (p d : Nat) (x : PtpPort) : (s.setPtpPort p d x).mem = s.mem := (rfl)
@[simp] theorem State.ptpSend_mem (s : State) (p d : Nat) (m : PtpMsg) : (s.ptpSend p d m).mem = s.mem := (rfl)
@[simp] theorem State.setMeanDelay_mem (s : State) (p d : Nat) (twice : Int) :
    (s.setMeanDelay p d twice).mem = s.mem := by
  simp [State.setMeanDelay]
@[simp] theorem State.syncDone_mem (s : State) (p d t2 : Nat) (t1 : Int) : (s.syncDone p d t2 t1).mem = s.mem := by
  simp [State.syncDone]

@[simp] theorem State.syncIn_mem (s : State) (p dn seq : Nat) (two : Bool) (origin : Nat) (corr : Int) :
    (s.syncIn p dn seq two origin corr).mem = s.mem := by
  unfold State.syncIn
  split <;> simp

@[simp] theorem execSync_completes (s : State) (port : Fin 4) (dn : BitVec 8) (seq : BitVec 16) (two : Bool)
    (origin : BitVec 80) (corr : BitVec 64) : Completes s (execSync port dn seq two origin corr s) :=
  .of rfl fun h => by simp [h]

@[simp] theorem State.followUpIn_mem (s : State) (p dn seq origin : Nat) (corr : Int) :
    (s.followUpIn p dn seq origin corr).mem = s.mem := by
  simp only [State.followUpIn]
  (repeat' split) <;> simp

@[simp] theorem execFollowUp_completes (s : State) (port : Fin 4) (dn : BitVec 8) (seq : BitVec 16)
    (origin : BitVec 80) (corr : BitVec 64) : Completes s (execFollowUp port dn seq origin corr s) :=
  .of rfl fun h => by simp [h]

@[simp] theorem State.delayRespIn_mem (s : State) (p dn seq req recv : Nat) (corr : Int) :
    (s.delayRespIn p dn seq req recv corr).mem = s.mem := by
  simp only [State.delayRespIn]
  (repeat' split) <;> simp

@[simp] theorem execDelayResp_completes (s : State) (port : Fin 4) (dn : BitVec 8) (seq : BitVec 16)
    (req recv : BitVec 80) (corr : BitVec 64) : Completes s (execDelayResp port dn seq req recv corr s) :=
  .of rfl fun h => by simp [h]

@[simp] theorem State.pdelayRespIn_mem (s : State) (p dn seq : Nat) (two : Bool) (req recv : Nat) (corr : Int) :
    (s.pdelayRespIn p dn seq two req recv corr).mem = s.mem := by
  simp only [State.pdelayRespIn]
  (repeat' split) <;> simp

@[simp] theorem execPdelayResp_completes (s : State) (port : Fin 4) (dn : BitVec 8) (seq : BitVec 16) (two : Bool)
    (req recv : BitVec 80) (corr : BitVec 64) : Completes s (execPdelayResp port dn seq two req recv corr s) :=
  .of rfl fun h => by simp [h]

@[simp] theorem State.setRatio_mem (s : State) (p d : Nat) (t3 : Int) (t4 : Nat) (prev : Option (Int × Nat)) :
    (s.setRatio p d t3 t4 prev).mem = s.mem := by
  unfold State.setRatio
  split <;> simp

@[simp] theorem State.pdelayRespFuIn_mem (s : State) (p dn seq req origin : Nat) (corr : Int) :
    (s.pdelayRespFuIn p dn seq req origin corr).mem = s.mem := by
  simp only [State.pdelayRespFuIn]
  (repeat' split) <;> simp

@[simp] theorem execPdelayRespFollowUp_completes (s : State) (port : Fin 4) (dn : BitVec 8) (seq : BitVec 16)
    (req origin : BitVec 80) (corr : BitVec 64) :
    Completes s (execPdelayRespFollowUp port dn seq req origin corr s) :=
  .of rfl fun h => by simp [h]

@[simp] theorem State.delayReqIn_mem (s : State) (p dn seq src : Nat) (corr : Int) :
    (s.delayReqIn p dn seq src corr).mem = s.mem := by
  unfold State.delayReqIn
  split <;> simp

@[simp] theorem execDelayReq_completes (s : State) (port : Fin 4) (dn : BitVec 8) (seq : BitVec 16) (src : BitVec 80)
    (corr : BitVec 64) : Completes s (execDelayReq port dn seq src corr s) :=
  .of rfl fun h => by simp [h]

@[simp] theorem State.pdelayReqIn_mem (s : State) (p dn seq src : Nat) (corr : Int) :
    (s.pdelayReqIn p dn seq src corr).mem = s.mem := by
  unfold State.pdelayReqIn
  split <;> simp

@[simp] theorem execPdelayReq_completes (s : State) (port : Fin 4) (dn : BitVec 8) (seq : BitVec 16) (src : BitVec 80)
    (corr : BitVec 64) : Completes s (execPdelayReq port dn seq src corr s) :=
  .of rfl fun h => by simp [h]
@[simp] theorem execSyncSend_completes (s : State) (port : Fin 4) (domain : Fin 2) :
    Completes s (execSyncSend port domain s) :=
  .of rfl fun h => by simp [h]
@[simp] theorem execDelayReqSend_completes (s : State) (port : Fin 4) (domain : Fin 2) :
    Completes s (execDelayReqSend port domain s) :=
  .of rfl fun h => by simp [h]
@[simp] theorem State.ptpFrame_mem (s : State) (p : Nat) (q m : PtpMsg) : (s.ptpFrame p q m).2.mem = s.mem := by
  simp only [State.ptpFrame]
  (repeat' split) <;> simp
@[simp] theorem State.ptpStart_mem (s : State) (p : Nat) (m : PtpMsg) : (s.ptpStart p m).2.mem = s.mem := by
  simp only [State.ptpStart]
  (repeat' split) <;> simp

/-! ### Machine/NetFrames -/

@[simp] theorem State.netCount_mem (s : State) (p n : Nat) : (s.netCount p n).mem = s.mem := (rfl)
@[simp] theorem State.txAdvance_mem (s : State) (p : Nat) : (s.txAdvance p).mem = s.mem := (rfl)
@[simp] theorem State.txTailWrite_mem (s : State) (p v : Nat) : (s.txTailWrite p v).mem = s.mem := by
  simp [State.txTailWrite]
@[simp] theorem State.rxHeadWrite_mem (s : State) (p v : Nat) : (s.rxHeadWrite p v).mem = s.mem := by
  simp [State.rxHeadWrite]
@[simp] theorem State.toHostRing_canon {s : State} (h : Canon s.mem) (p : Nat) (frame : List Byte) :
    Canon (s.toHostRing p frame).mem := by
  simp [State.toHostRing, h]

@[simp] theorem State.passOversize_mem (s : State) (n p : Nat) : (State.passOversize n s p).mem = s.mem := by
  induction n generalizing s with
  | zero => rfl
  | succ n ih =>
    simp only [State.passOversize]
    split
    · rfl
    · split <;> simp [ih]

@[simp] theorem State.frameStart_canon {s : State} (h : Canon s.mem) (p i : Nat) (f : TxFrame) (fault addr : Nat) :
    Canon (s.frameStart p i f fault addr).mem := by
  simp only [State.frameStart]
  (repeat' split) <;> simp [h]

@[simp] theorem execEthFrameStart_completes (s : State) (port : Fin 5) (fault : Fin 3) (addr : BitVec 40) :
    Completes s (execEthFrameStart port fault addr s) := .of rfl fun h => by
  simp only
  (repeat' split) <;> simp [h]

theorem State.ptpIn_mem {s t : State} {p : Nat} {m : List Byte} (e : s.ptpIn p m = some t) : t.mem = s.mem := by
  simp only [State.ptpIn] at e
  repeat
    split at e
    · simp [← Option.some.inj e]
  exact absurd e (by simp)

@[simp] theorem State.classify_canon {s : State} (h : Canon s.mem) (p : Nat) (frame : List Byte) :
    Canon (s.classify p frame).mem := by
  simp only [State.classify]
  split
  · simp [h]
  · split
    · next m _ =>
      rcases e : s.ptpIn p m with _ | t
      · simp [h]
      · simpa [State.ptpIn_mem e] using h
    · split
      · split
        · split <;> simp [h]
        · split <;> simp [h]
      · simp [h]

@[simp] theorem State.frameIn_canon {s : State} (h : Canon s.mem) (p : Nat) (fcsOk : Bool) (fault addr : Nat)
    (frame : List Byte) : Canon (s.frameIn p fcsOk fault addr frame).mem := by
  simp [State.frameIn, h]
@[simp] theorem execFrameReceived_completes (s : State) (port : Fin 5) (fcsOk : Bool) (fault : Fin 3)
    (addr : BitVec 40) (frame : List Byte) : Completes s (execFrameReceived port fcsOk fault addr frame s) :=
  .of rfl fun h => by simp [h]

/-! ### Machine/ScanRows -/

@[simp] theorem State.overrun_mem (s : State) (q t : Nat) : (s.overrun q t).mem = s.mem := by
  simp [State.overrun]
@[simp] theorem State.release_mem (s : State) (q t : Nat) : (s.release q t).mem = s.mem := by
  simp [State.release]
@[simp] theorem execTaskRelease_completes (s : State) (q : Fin 6) (t : Fin 8) : Completes s (execTaskRelease q t s) :=
  .of rfl fun h => by simp [h]
@[simp] theorem execEventFire_completes (s : State) (q : Fin 6) (e : Fin 8) : Completes s (execEventFire q e s) :=
  .of rfl fun h => by simp [h]

@[simp] theorem State.copyIn_canon {s : State} (h : Canon s.mem) (q t : Nat) : Canon (s.copyIn q t).mem := by
  unfold State.copyIn
  extract_lets g s1
  have h1 : Canon s1.mem := by
    unfold s1
    split <;> simp [h]
  split
  · exact canon_foldl h1 fun s x hs => by simp [hs]
  · split
    · split <;> simp [h1]
    · exact h1

@[simp] theorem State.copyInDone_canon {s : State} (h : Canon s.mem) (q t : Nat) : Canon (s.copyInDone q t).mem := by
  simp [State.copyInDone, h]
@[simp] theorem execCopyInDone_completes (s : State) (q : Fin 6) : Completes s (execCopyInDone q s) :=
    .of rfl fun h => by
  split <;> simp [h]
@[simp] theorem State.preempt_canon {s : State} (h : Canon s.mem) (q c t r : Nat) :
    Canon (s.preempt q c t r).mem := by
  simp [State.preempt, h]
@[simp] theorem execTaskPreempt_completes (s : State) (c : Fin 24) : Completes s (execTaskPreempt c s) :=
    .of rfl fun h => by
  split <;> simp [h]
@[simp] theorem execJTend_completes (s : State) (c : Fin 24) : Completes s (execJTend c s) := .of rfl fun h => by
  simp only
  (repeat' split) <;> simp [h]
@[simp] theorem State.driveDout_mem (s : State) (q t : Nat) : (s.driveDout q t).mem = s.mem := by
  simp [State.driveDout]
@[simp] theorem State.copyOutDone_mem (s : State) (q t : Nat) : (s.copyOutDone q t).mem = s.mem := by
  simp [State.copyOutDone]
@[simp] theorem execCopyOutDone_completes (s : State) (q : Fin 6) : Completes s (execCopyOutDone q s) :=
    .of rfl fun h => by
  split <;> simp [h]
@[simp] theorem execForcedBoundary_completes (s : State) (q : Fin 6) : Completes s (execForcedBoundary q s) :=
    .of rfl fun h => by
  split <;> simp [h]
@[simp] theorem execStartupOverrun_completes (s : State) (q : Fin 6) : Completes s (execStartupOverrun q s) :=
    .of rfl fun h => by
  split <;> simp [h]

/-! ### Machine/Exchange -/

@[simp] theorem State.xRefuse_mem (s : State) (q code : Nat) : (s.xRefuse q code).mem = s.mem := (rfl)
@[simp] theorem State.setXState_mem (s : State) (q st : Nat) : (s.setXState q st).mem = s.mem := (rfl)
@[simp] theorem State.xchgLoad_mem (s : State) (q : Nat) : (s.xchgLoad q).mem = s.mem := by
  simp [State.xchgLoad]
@[simp] theorem execXchgLoad_completes (s : State) (q : Fin 6) : Completes s (execXchgLoad q s) :=
  .of rfl fun h => by simp [h]
@[simp] theorem State.keepTables_canon {s : State} (h : Canon s.mem) (q i : Nat)
    (insts retains : List (Nat × Nat × Nat)) : Canon (s.keepTables q i insts retains).mem := by
  simp [State.keepTables, h]
@[simp] theorem State.xchgLoadEnd_mem (s : State) (q : Nat) : (s.xchgLoadEnd q).mem = s.mem := by
  simp [State.xchgLoadEnd]
@[simp] theorem execXchgLoadEnd_completes (s : State) (q : Fin 6) : Completes s (execXchgLoadEnd q s) :=
  .of rfl fun h => by simp [h]
@[simp] theorem State.xchgCancel_mem (s : State) (q : Nat) : (s.xchgCancel q).mem = s.mem := by
  simp [State.xchgCancel]
@[simp] theorem execXchgCancel_completes (s : State) (q : Fin 6) : Completes s (execXchgCancel q s) :=
  .of rfl fun h => by simp [h]
@[simp] theorem State.carryInst_canon {s : State} (h : Canon s.mem) (c off kind : Nat) (old : List Byte) :
    Canon (s.carryInst c off kind old).mem := by
  simp [State.carryInst, h]

@[simp] theorem State.settleCore_canon {s : State} (h : Canon s.mem) (q i : Nat)
    (insts retains : List (Nat × Nat × Nat)) (before : State) :
    Canon (s.settleCore q i insts retains before).1.mem := by
  unfold State.settleCore
  extract_lets c oldI oldR byKey same other lenDiff s1 s2
  have h1 : Canon s1.mem := canon_foldl h fun s n hs => by
    split
    · split <;> simp [hs]
    · simp [hs]
  refine (canon_foldl h1 fun s n hs => ?_ : Canon s2.mem)
  split
  · split <;> simp [hs]
  · exact hs

@[simp] theorem State.writeEntry_mem (s : State) (q : Nat) (e : Nat × Nat × Nat) :
    (s.writeEntry q e).mem = s.mem := by
  simp [State.writeEntry]

@[simp] theorem State.settle_canon {s : State} (h : Canon s.mem) (q : Nat) : Canon (s.settle q).mem := by
  simp only [State.settle, State.mem_setQuay]
  refine canon_foldl ?_ fun s i hs => by simp [hs]
  rw [State.mem_p, State.mem_p, State.mem_p, State.mem_p]
  refine List.foldlRecOn (motive := fun r : State × Nat × Nat × Nat × Nat => Canon r.1.mem) _ _ ?_ fun r hr i _ => ?_
  · refine canon_foldl (canon_foldl h fun s x hs => ?_) fun s e hs => by simp [hs]
    split
    · simp [hs]
    · split <;> simp [hs]
  · split
    · obtain ⟨y, hy, e⟩ : ∃ y, Canon y.1.mem ∧ r.1.settleCore q i (s.pkgInsts (s.quay q).xchg.pkgAddr i)
          (s.pkgRetains (s.quay q).xchg.pkgAddr i) s = y := ⟨_, State.settleCore_canon hr .., rfl⟩
      rw [e]
      exact hy
    · exact hr

@[simp] theorem State.holdStart_mem (s : State) (q : Nat) : (s.holdStart q).mem = s.mem := by
  simp [State.holdStart]
@[simp] theorem State.holdEnd_canon {s : State} (h : Canon s.mem) (q : Nat) : Canon (s.holdEnd q).mem := by
  simp [State.holdEnd, h]
@[simp] theorem State.xchgApply_canon {s : State} (h : Canon s.mem) (q : Nat) (allowSkip : Bool) :
    Canon (s.xchgApply q allowSkip).mem := by
  simp [State.xchgApply, h]
@[simp] theorem execXchgApply_completes (s : State) (q : Fin 6) (allowSkip : Bool) :
    Completes s (execXchgApply q allowSkip s) :=
  .of rfl fun h => by simp [h]
@[simp] theorem execXchgHoldStart_completes (s : State) (q : Fin 6) : Completes s (execXchgHoldStart q s) :=
  .of rfl fun h => by simp [h]
@[simp] theorem execXchgHoldEnd_completes (s : State) (q : Fin 6) : Completes s (execXchgHoldEnd q s) :=
  .of rfl fun h => by simp [h]
@[simp] theorem execXchgApplyTimeout_completes (s : State) (q : Fin 6) : Completes s (execXchgApplyTimeout q s) :=
  .of rfl fun h => by simp [h]

/-! ### Machine/Tally -/

@[simp] theorem State.setTch_mem (s : State) (ch : Nat) (x : TlyCh) : (s.setTch ch x).mem = s.mem := (rfl)
@[simp] theorem State.setFdr_mem (s : State) (f : Nat) (x : Fdr) : (s.setFdr f x).mem = s.mem := (rfl)
@[simp] theorem State.setThm_mem (s : State) (c : Nat) (x : Thm) : (s.setThm c x).mem = s.mem := (rfl)
@[simp] theorem State.setPulse_mem (s : State) (j : Nat) (x : PulseOut) : (s.setPulse j x).mem = s.mem := (rfl)
@[simp] theorem State.chUpdate_mem (s : State) (ch : Nat) : (s.chUpdate ch).mem = s.mem := by
  unfold State.chUpdate
  split <;> simp
@[simp] theorem State.chSample_mem (s : State) (ch : Nat) (code : Int) (kfs : Nat) (hpf : Bool) :
    (s.chSample ch code kfs hpf).2.mem = s.mem := by
  simp [State.chSample]
@[simp] theorem State.fdrAgain_mem (s : State) (f : Nat) (from_ : Rat) : (s.fdrAgain f from_).mem = s.mem := by
  simp [State.fdrAgain]
@[simp] theorem State.pulseDue_mem (s : State) (j : Nat) : (s.pulseDue j).mem = s.mem := by
  simp [State.pulseDue]

@[simp] theorem State.pulseDrain_mem (s : State) (n j : Nat) : (State.pulseDrain n s j).mem = s.mem := by
  induction n generalizing s with
  | zero => rfl
  | succ n ih => simp [State.pulseDrain, ih]

@[simp] theorem State.pulseAdd_mem (s : State) (j e : Nat) : (s.pulseAdd j e).mem = s.mem := by
  simp [State.pulseAdd]
@[simp] theorem State.clearPulses_mem (s : State) : s.clearPulses.mem = s.mem := by
  simp [State.clearPulses]
@[simp] theorem State.transitCheck_mem (s : State) : s.transitCheck.mem = s.mem := by
  simp [State.transitCheck]
@[simp] theorem State.tlyTransit_mem (s : State) : s.tlyTransit.mem = s.mem := by
  simp [State.tlyTransit]
@[simp] theorem State.fdrLatch_mem (s : State) (f : Nat) (part : Bool) : (s.fdrLatch f part).mem = s.mem := by
  simp [State.fdrLatch]
@[simp] theorem State.fdrTakeup_mem (s : State) (f : Nat) : (s.fdrTakeup f).mem = s.mem := by
  simp [State.fdrTakeup]
@[simp] theorem State.thLatch_mem (s : State) (c : Nat) (part : Bool) : (s.thLatch c part).mem = s.mem := by
  simp [State.thLatch]
@[simp] theorem State.thTakeup_mem (s : State) (c : Nat) : (s.thTakeup c).mem = s.mem := by
  simp [State.thTakeup]
@[simp] theorem State.tlyMode_mem (s : State) (m : Nat) : (s.tlyMode m).mem = s.mem := by
  unfold State.tlyMode
  split <;> simp
@[simp] theorem State.fdrSample_mem (s : State) (f : Nat) (vals : List Nat) :
    (s.fdrSample f vals).mem = s.mem := (rfl)
@[simp] theorem State.pulseSample_mem (s : State) (f : Nat) (vals : List Nat) :
    (s.pulseSample f vals).mem = s.mem := by
  simp [State.pulseSample]
@[simp] theorem execTallySample_completes (s : State) (codes general : List (BitVec 32)) :
    Completes s (execTallySample codes general s) :=
  .of rfl fun h => by simp [h]
@[simp] theorem State.tlyEntry_canon {s : State} (h : Canon s.mem) (octets : List Byte) :
    Canon (s.tlyEntry octets).mem := by
  simp [State.tlyEntry, h]
@[simp] theorem State.eventEntry_canon {s : State} (h : Canon s.mem) (f type edge : Nat) (e : PqEvent) :
    Canon (s.eventEntry f type edge e).mem := by
  simp [State.eventEntry, h]
@[simp] theorem State.fdrEvents_mem (s : State) (f : Nat) : (s.fdrEvents f).mem = s.mem := (rfl)

@[simp] theorem State.pqKind_canon {s : State} (h : Canon s.mem) (f type : Nat) (cur : Option PqEvent) (phases : Nat)
    (starts ends : Bool) (ext ref : Nat) : Canon (s.pqKind f type cur phases starts ends ext ref).2.mem := by
  simp only [State.pqKind]
  (repeat' split) <;> simp [h]

@[simp] theorem State.refresh_canon {s : State} (h : Canon s.mem) (f : Nat) (lo hi : Rat) :
    Canon (s.refresh f lo hi).mem := by
  simp only [State.refresh, State.fdrEvents_mem, State.setFdr_mem]
  refine State.pqKind_canon (State.pqKind_canon (State.pqKind_canon ?_ ..) ..) ..
  exact canon_foldl h fun s y hs => by simp [hs]

@[simp] theorem State.fdrAbort_canon {s : State} (h : Canon s.mem) (f : Nat) : Canon (s.fdrAbort f).mem := by
  unfold State.fdrAbort
  extract_lets x one s1
  have hone : ∀ (s : State) (t : Nat) (e : Option PqEvent), Canon s.mem → Canon (one s t e).mem := by
    intro s t e hs
    cases e with
    | none => exact hs
    | some e => exact State.eventEntry_canon hs ..
  have h1 : Canon s1.mem := hone _ _ _ (hone _ _ _ (hone _ _ _ h))
  simp [h1]

@[simp] theorem State.energy_mem (s : State) (f i e : Nat) : (s.energy f i e).mem = s.mem := by
  simp [State.energy]
@[simp] theorem State.cycleResults_mem (s : State) (f : Nat) (lo hi : Rat) :
    (s.cycleResults f lo hi).mem = s.mem := by
  simp [State.cycleResults]
@[simp] theorem State.usrUpdate_mem (s : State) (f : Nat) (lo hi : Rat) : (s.usrUpdate f lo hi).mem = s.mem := by
  simp [State.usrUpdate]

@[simp] theorem State.boundary_canon {s : State} (h : Canon s.mem) (f : Nat) (at_ : Rat) (counted : Bool) :
    Canon (s.boundary f at_ counted).mem := by
  simp only [State.boundary, State.fdrAgain_mem]
  refine canon_foldl ?_ fun s k hs => by simp [hs]
  simp only [State.setFdr_mem, State.fdrTakeup_mem, mem_ite, State.mem_p, ite_self]
  split
  · exact h
  · rw [mem_ite, canon_ite]
    refine ⟨fun _ => ?_, fun _ => State.refresh_canon ?_ ..⟩ <;>
    · simp only [mem_ite, State.fdrLatch_mem, State.setFdr_mem, State.mem_inc, State.mem_p, State.cycleResults_mem,
        State.usrUpdate_mem, State.eccGone_mem, State.raise_mem, ite_self]
      exact h

@[simp] theorem execLineCycleBoundary_completes (s : State) (f : Fin 4) : Completes s (execLineCycleBoundary f s) :=
  .of rfl fun h => by
    split
    · split
      · refine State.boundary_canon ?_ ..
        rwa [State.setFdr_mem]
      · exact h
    · exact h

@[simp] theorem execHalfCycleBoundary_completes (s : State) (f : Fin 4) : Completes s (execHalfCycleBoundary f s) :=
    .of rfl fun h => by
  simp only
  (repeat' split) <;> simp [h]

@[simp] theorem execBoundaryPlaced_completes (s : State) (f : Fin 4) : Completes s (execBoundaryPlaced f s) :=
  .of rfl fun h => by simp [h]
@[simp] theorem execPulseOutputStart_completes (s : State) (j : Fin 8) : Completes s (execPulseOutputStart j s) :=
  .of rfl fun h => by simp [h]
@[simp] theorem execPulseOutputEnd_completes (s : State) (j : Fin 8) : Completes s (execPulseOutputEnd j s) :=
  .of rfl fun h => by simp [h]
@[simp] theorem execPulseOutputIdle_completes (s : State) (j : Fin 8) : Completes s (execPulseOutputIdle j s) :=
  .of rfl fun h => by simp [h]
@[simp] theorem State.captureRegs_mem (s : State) (l : List (Fld × Nat)) : (s.captureRegs l).mem = s.mem := (rfl)
@[simp] theorem execTlyCycleRead_completes (s : State) (f : Fin 4) : Completes s (execTlyCycleRead f s) :=
  .of rfl fun h => by simp [h]
@[simp] theorem execTlyThStatusRead_completes (s : State) (c : Fin 32) : Completes s (execTlyThStatusRead c s) :=
  .of rfl fun h => by simp [h]
@[simp] theorem execDieTempReading_completes (s : State) (temp : Option (BitVec 16)) :
    Completes s (execDieTempReading temp s) := .of rfl fun h => by
  split <;> simp [h]

/-! ### Machine/TallyHeat -/

@[simp] theorem State.thAdd_mem (s : State) (c i v : Nat) : (s.thAdd c i v).mem = s.mem := by
  simp [State.thAdd]
@[simp] theorem State.thInterval_canon {s : State} (h : Canon s.mem) (c : Nat) : Canon (s.thInterval c).mem := by
  simp [State.thInterval, h]

@[simp] theorem State.thSample_canon {s : State} (h : Canon s.mem) (cut : Bool) (c : Nat) :
    Canon (s.thSample cut c).mem := by
  simp only [State.thSample]
  split <;> simp [h]

@[simp] theorem execThermalSample_completes (s : State) (cut : List (Fin 32)) :
    Completes s (execThermalSample cut s) :=
  .of rfl fun h => by
    split
    · refine canon_foldl (canon_foldl h fun s c hs => by simp [hs]) fun s k hs => ?_
      rw [State.chUpdate_mem]
      split <;> simp [hs]
    · exact h

@[simp] theorem execFlowPulse_completes (s : State) (pin : Fin 64) (high : Bool) :
    Completes s (execFlowPulse pin high s) :=
  .of rfl fun h => by simp [h]
@[simp] theorem State.writeRecord_canon {s : State} (h : Canon s.mem) (fail : Bool) :
    Canon (s.writeRecord fail).mem := by
  simp [State.writeRecord, h]
@[simp] theorem execTotalsRecordWrite_completes (s : State) (fail : Bool) :
    Completes s (execTotalsRecordWrite fail s) :=
  .of rfl fun h => by simp [h]
@[simp] theorem State.tlyLoad_mem (s : State) : s.tlyLoad.mem = s.mem := by
  simp only [State.tlyLoad]
  split <;> simp
@[simp] theorem State.preset_canon {s : State} (h : Canon s.mem) (index master : Nat) :
    Canon (s.preset index master).mem := by
  simp [State.preset, h]
@[simp] theorem execPreset_completes (s : State) (index : BitVec 8) (master : Fin 42) :
    Completes s (execPreset index master s) :=
  .of rfl fun h => by simp [h]
@[simp] theorem State.fdrEnable_mem (s : State) (f : Nat) : (s.fdrEnable f).mem = s.mem := by
  simp [State.fdrEnable]
@[simp] theorem State.thEnable_mem (s : State) (c : Nat) : (s.thEnable c).mem = s.mem := (rfl)
@[simp] theorem State.poEnable_mem (s : State) (j : Nat) : (s.poEnable j).mem = s.mem := (rfl)
@[simp] theorem State.tlyEnable_mem (s : State) : s.tlyEnable.mem = s.mem := (rfl)
@[simp] theorem State.fdrDisable_canon {s : State} (h : Canon s.mem) (f : Nat) : Canon (s.fdrDisable f).mem := by
  simp [State.fdrDisable, h]
@[simp] theorem State.thDisable_mem (s : State) (c : Nat) : (s.thDisable c).mem = s.mem := by
  simp [State.thDisable]

@[simp] theorem State.tlyDisable_canon {s : State} (h : Canon s.mem) : Canon s.tlyDisable.mem := by
  unfold State.tlyDisable
  simp only [State.tlyTransit_mem]
  exact canon_foldl (canon_foldl h fun s f hs => by simp [hs]) fun s c hs => by simp [hs]

/-! ### Machine/Modes -/

@[simp] theorem State.modeRefuse_mem (s : State) (code : Nat) : (s.modeRefuse code).mem = s.mem := (rfl)
@[simp] theorem State.setMode_mem (s : State) (m master : Nat) : (s.setMode m master).mem = s.mem := by
  simp [State.setMode]
@[simp] theorem State.enterStandby_mem (s : State) : s.enterStandby.mem = s.mem := by
  simp [State.enterStandby]
@[simp] theorem State.dropDebug_mem (s : State) : s.dropDebug.mem = s.mem := by
  simp [State.dropDebug]
@[simp] theorem State.modeAccept_mem (s : State) (m master : Nat) : (s.modeAccept m master).mem = s.mem := by
  simp [State.modeAccept]
@[simp] theorem State.modeCommand_mem (s : State) (confirm m master : Nat) :
    (s.modeCommand confirm m master).mem = s.mem := by
  simp [State.modeCommand]
@[simp] theorem execModeCommand_completes (s : State) (confirm : BitVec 16) (target : Fin 8) (master : Fin 42) :
    Completes s (execModeCommand confirm target master s) :=
  .of rfl fun h => by simp [h]
@[simp] theorem execPairClaimDecided_completes (s : State) : Completes s (execPairClaimDecided s) :=
    .of rfl fun h => by
  split <;> simp [h]
@[simp] theorem State.stopQuay_mem (s : State) (q : Nat) : (s.stopQuay q).mem = s.mem := (rfl)
@[simp] theorem State.idleCores_mem (s : State) (q : Nat) : (s.idleCores q).mem = s.mem := by
  simp [State.idleCores]
@[simp] theorem State.quayTakeup_mem (s : State) (q : Nat) : (s.quayTakeup q).mem = s.mem := by
  simp only [State.quayTakeup]
  split <;> simp
@[simp] theorem execQuayModeTakeup_completes (s : State) (q : Fin 6) : Completes s (execQuayModeTakeup q s) :=
  .of rfl fun h => by simp [h]
@[simp] theorem State.quaySafe_mem (s : State) (q : Nat) : (s.quaySafe q).mem = s.mem := by
  simp [State.quaySafe]
@[simp] theorem State.forcePwm_mem (s : State) : s.forcePwm.mem = s.mem := by
  simp [State.forcePwm]
@[simp] theorem State.disarm_mem (s : State) : s.disarm.mem = s.mem := by
  simp [State.disarm]
@[simp] theorem State.enterSafe_mem (s : State) (src fbit : Nat) (injected : Bool) :
    (s.enterSafe src fbit injected).mem = s.mem := by
  simp [State.enterSafe]
@[simp] theorem execReactionFault_completes (s : State) : Completes s (execReactionFault s) := .of rfl fun h => by
  split <;> simp [h]
@[simp] theorem execOwnNRelease_completes (s : State) : Completes s (execOwnNRelease s) :=
  .of rfl fun h => by simp [h]
@[simp] theorem execAliveToggle_completes (s : State) : Completes s (execAliveToggle s) := .of rfl fun h => by
  split <;> simp [h]
@[simp] theorem State.inject_mem (s : State) (src fbit : Nat) : (s.inject src fbit).mem = s.mem := by
  simp only [State.inject]
  (repeat' split) <;> simp
@[simp] theorem execFaultInject_completes (s : State) (src : Fin 512) (fbit : Fin 32) :
    Completes s (execFaultInject src fbit s) :=
  .of rfl fun h => by simp [h]
@[simp] theorem execConflictGraceEnd_completes (s : State) : Completes s (execConflictGraceEnd s) :=
    .of rfl fun h => by
  split <;> simp [h]

/-! ### Machine/PairTake -/

@[simp] theorem State.putCtxLine_mem (s : State) (c : Nat) (bs : List Byte) : (s.putCtxLine c bs).mem = s.mem := by
  simp [State.putCtxLine]
@[simp] theorem State.putTideLine_mem (s : State) (bs : List Byte) : (s.putTideLine bs).mem = s.mem := by
  simp [State.putTideLine]
@[simp] theorem State.gravCopy_mem (s : State) : s.gravCopy.mem = s.mem := by
  simp [State.gravCopy]
@[simp] theorem execGraverCopyPoint_completes (s : State) : Completes s (execGraverCopyPoint s) :=
  .of rfl fun h => by simp [h]
@[simp] theorem State.swapFinals_mem (s : State) : s.swapFinals.mem = s.mem := by
  simp [State.swapFinals]
@[simp] theorem State.takeLine_canon {s : State} (h : Canon s.mem) (i : Nat) (r : Nat × List Byte) :
    Canon (s.takeLine i r).mem := by
  simp [State.takeLine, h]
@[simp] theorem State.takeQuay_mem (s : State) (q : Nat) (c : CopyRec) : (s.takeQuay q c).mem = s.mem := by
  simp only [State.takeQuay, State.mem_setQuay]
  exact foldl_mem (by simp) fun s x => by split <;> simp

@[simp] theorem State.takeUp_canon {s : State} (h : Canon s.mem) (i : Nat) (c : CopyRec) :
    Canon (s.takeUp i c).mem := by
  unfold State.takeUp
  extract_lets s1 s2 x rest s3 d
  have h1 : Canon s1.mem := canon_foldl h fun s r hs => by simp [hs]
  have h2 : Canon s2.mem := by simp [s2, h1]
  simp [s3, h2]

@[simp] theorem State.quayTakeover_mem (s : State) (q : Nat) : (s.quayTakeover q).mem = s.mem := by
  simp [State.quayTakeover]
@[simp] theorem State.drivePwm_canon {s : State} (h : Canon s.mem) : Canon s.drivePwm.mem := by
  unfold State.drivePwm
  exact canon_foldl h fun s x hs => by simp [hs]
@[simp] theorem State.takeoverEnd_canon {s : State} (h : Canon s.mem) : Canon s.takeoverEnd.mem := by
  simp [State.takeoverEnd, h]
@[simp] theorem State.bcnTakeoverEnd_canon {s : State} (h : Canon s.mem) : Canon s.bcnTakeoverEnd.mem := by
  simp [State.bcnTakeoverEnd, h]
@[simp] theorem State.takeoverStart_canon {s : State} (h : Canon s.mem) : Canon s.takeoverStart.mem := by
  simp [State.takeoverStart, h]

@[simp] theorem execCopyTakeUpEnd_completes (s : State) (stream : Fin 8) : Completes s (execCopyTakeUpEnd stream s) :=
  .of rfl fun h => by
    split
    · split
      · refine State.bcnTakeoverEnd_canon (State.takeoverEnd_canon (State.takeUp_canon ?_ ..))
        exact h
      · exact h
    · exact h

/-! ### Machine/PairRows -/

@[simp] theorem execPeerOwnChange_completes (s : State) (asserted : Bool) :
    Completes s (execPeerOwnChange asserted s) :=
  .of rfl fun h => by simp [h]
@[simp] theorem State.linkCheck_mem (s : State) : s.linkCheck.mem = s.mem := by
  unfold State.linkCheck
  split <;> simp
@[simp] theorem State.linkFall_mem (s : State) : s.linkFall.mem = s.mem := by
  simp [State.linkFall]
@[simp] theorem execMooringLinkUp_completes (s : State) : Completes s (execMooringLinkUp s) :=
  .of rfl fun h => by simp [h]

@[simp] theorem execMooringLinkDown_completes (s : State) (lanes : Bool) :
    Completes s (execMooringLinkDown lanes s) := .of rfl fun h => by
  simp only
  (repeat' split) <;> simp [h]

@[simp] theorem State.sendStatus_mem (s : State) : s.sendStatus.mem = s.mem := (rfl)
@[simp] theorem State.repeatMessages_mem (s : State) : s.repeatMessages.mem = s.mem := by
  simp [State.repeatMessages]
@[simp] theorem State.tickTakeover_canon {s : State} (h : Canon s.mem) : Canon s.tickTakeover.mem := by
  simp [State.tickTakeover, h]
@[simp] theorem execPairTick_completes (s : State) : Completes s (execPairTick s) :=
  .of rfl fun h => by simp [h]
@[simp] theorem State.roleDrop_mem (s : State) (type stream epoch unit : Nat) :
    (s.roleDrop type stream epoch unit).mem = s.mem := by
  simp [State.roleDrop]
@[simp] theorem State.badMessage_mem (s : State) (fault : Nat) : (s.badMessage fault).mem = s.mem := by
  simp [State.badMessage]
@[simp] theorem State.ack_mem (s : State) (seq : Nat) : (s.ack seq).2.mem = s.mem := (rfl)
@[simp] theorem State.markAll_mem (s : State) : s.markAll.mem = s.mem := by
  simp [State.markAll]
@[simp] theorem State.swapRelease_mem (s : State) (taken : List Nat) : (s.swapRelease taken).mem = s.mem := by
  simp [State.swapRelease]
@[simp] theorem State.adopt_mem (s : State) (owns : Bool) (epoch : Nat) : (s.adopt owns epoch).mem = s.mem := by
  simp [State.adopt]
@[simp] theorem State.partnerSays_mem (s : State) (fit : Bool) (mode : Nat) :
    (s.partnerSays fit mode).mem = s.mem := by
  simp [State.partnerSays]
@[simp] theorem State.statusIn_mem (s : State) (owns fit : Bool) (mode epoch unit : Nat) (acks taken : List Nat) :
    (s.statusIn owns fit mode epoch unit acks taken).mem = s.mem := by
  simp [State.statusIn]

@[simp] theorem execMooringStatus_completes (s : State) (owns fit : Bool) (mode : Fin 8) (epoch : BitVec 16)
    (unit : Fin 2) (acks taken : List (BitVec 32)) (fault : Fin 3) :
    Completes s (execMooringStatus owns fit mode epoch unit acks taken fault s) :=
  .of rfl fun h => by simp [h]

@[simp] theorem State.rxOpen_mem (s : State) (i seq : Nat) : (s.rxOpen i seq).mem = s.mem := by
  simp only [State.rxOpen]
  split <;> simp
@[simp] theorem State.rxBad_mem (s : State) (i : Nat) : (s.rxBad i).mem = s.mem := (rfl)

@[simp] theorem execMooringCopyData_completes (s : State) (stream : Fin 8) (owns : Bool) (epoch : BitVec 16)
    (unit : Fin 2) (seq : BitVec 32) (lines : List (BitVec 64 × List (BitVec 8))) (fault : Fin 3) :
    Completes s (execMooringCopyData stream owns epoch unit seq lines fault s) := .of rfl fun h => by
  simp only
  (repeat' split) <;> simp [h]

@[simp] theorem State.rxEnd_mem (s : State) (i lines gen digest : Nat) (crcOk : Bool) (seqs : List (Nat × Nat)) :
    (s.rxEnd i lines gen digest crcOk seqs).mem = s.mem := by
  simp only [State.rxEnd]
  split <;> simp

@[simp] theorem execMooringCopyEnd_completes (s : State) (stream : Fin 8) (owns : Bool) (epoch : BitVec 16)
    (unit : Fin 2) (seq lines gen digest : BitVec 32) (crcOk : Bool) (seqs : List (Fin 2048 × BitVec 16))
    (fault : Fin 3) :
    Completes s (execMooringCopyEnd stream owns epoch unit seq lines gen digest crcOk seqs fault s) :=
  .of rfl fun h => by simp [h]

@[simp] theorem execMooringBerth_completes (s : State) (participant : Fin 26) (epoch : BitVec 16) (unit : Fin 2)
    (seq word : BitVec 32) (fault : Fin 3) : Completes s (execMooringBerth participant epoch unit seq word fault s) :=
  .of rfl fun h => by simp [h]
@[simp] theorem execMooringBerthTaken_completes (s : State) (participant : Fin 26) (epoch : BitVec 16) (unit : Fin 2)
    (seq : BitVec 32) (fault : Fin 3) : Completes s (execMooringBerthTaken participant epoch unit seq fault s) :=
  .of rfl fun h => by simp [h]
@[simp] theorem execMooringSwap_completes (s : State) (owns : Bool) (epoch : BitVec 16) (unit : Fin 2)
    (seq : BitVec 32) (fault : Fin 3) : Completes s (execMooringSwap owns epoch unit seq fault s) :=
  .of rfl fun h => by simp [h]

@[simp] theorem execMooringExchange_completes (s : State) (owns : Bool) (epoch : BitVec 16) (unit : Fin 2)
    (seq digest : BitVec 32) (fault : Fin 3) : Completes s (execMooringExchange owns epoch unit seq digest fault s) :=
  .of rfl fun h => by
    extract_lets a
    have ha : Canon a.2.mem := by simp [a, h]
    split
    · split
      · simp [h]
      · split
        · split
          · exact canon_foldl ha fun s q hs => by simp [hs]
          · exact ha
        · simp [h]
    · exact h

@[simp] theorem execCopyStale_completes (s : State) (stream : Fin 7) : Completes s (execCopyStale stream s) :=
  .of rfl fun h => by simp [h]
@[simp] theorem State.swapCommand_mem (s : State) : s.swapCommand.mem = s.mem := by
  simp [State.swapCommand]
@[simp] theorem execSwapCommand_completes (s : State) : Completes s (execSwapCommand s) :=
  .of rfl fun h => by simp [h]
@[simp] theorem execSwapStart_completes (s : State) : Completes s (execSwapStart s) := .of rfl fun h => by
  split <;> simp [h]
@[simp] theorem execSwapTimeout_completes (s : State) : Completes s (execSwapTimeout s) := .of rfl fun h => by
  split <;> simp [h]
@[simp] theorem State.safeOut_mem (s : State) (n : Nat) (e : List Byte) : (s.safeOut n e).mem = s.mem := by
  unfold State.safeOut
  split <;> simp
@[simp] theorem execSafeOutSend_completes (s : State) : Completes s (execSafeOutSend s) :=
  .of rfl fun h => by simp [h]

/-! ### Machine/Pio -/

@[simp] theorem execDinFilterChange_completes (s : State) (pin : Fin 64) (level : Bool) :
    Completes s (execDinFilterChange pin level s) :=
  .of rfl fun h => by simp [h]
@[simp] theorem execPwmPeriodStart_completes (s : State) (channel : Fin 16) :
    Completes s (execPwmPeriodStart channel s) :=
  .of rfl fun h => by simp [h]
@[simp] theorem State.encErr_mem (s : State) (n : Nat) : (s.encErr n).mem = s.mem := by
  simp [State.encErr]

@[simp] theorem execEncoderEdge_completes (s : State) (channel : Fin 16) (a b : Bool) :
    Completes s (execEncoderEdge channel a b s) :=
  .of rfl fun h => by
    split
    · simp only
      split
      · rw [State.mem_p]
        exact h
      · split
        · rw [State.mem_p]
          exact h
        · split
          · rw [State.encErr_mem]
            exact h
          · exact h
    · exact h

@[simp] theorem execEncoderIndex_completes (s : State) (channel : Fin 16) :
    Completes s (execEncoderIndex channel s) :=
  .of rfl fun h => by simp [h]
@[simp] theorem execSsiFrameStart_completes (s : State) (channel : Fin 16) (idleHigh : Bool) :
    Completes s (execSsiFrameStart channel idleHigh s) :=
  .of rfl fun h => by simp [h]

@[simp] theorem execSsiFrameEnd_completes (s : State) (channel : Fin 16) (data : BitVec 32) :
    Completes s (execSsiFrameEnd channel data s) := .of rfl fun h => by
  simp only
  (repeat' split) <;> simp [h]

@[simp] theorem State.encDisable_mem (s : State) (n : Nat) : (s.encDisable n).mem = s.mem := (rfl)

/-! ### Machine/QuayCheck -/

@[simp] theorem State.cargoFail_mem (s : State) (n : Option Nat) : (s.cargoFail n).mem = s.mem := (rfl)
@[simp] theorem State.statusArrays_canon {s : State} (h : Canon s.mem) : Canon s.statusArrays.mem := by
  unfold State.statusArrays
  exact canon_foldl h fun s q hs => by simp [hs]
@[simp] theorem State.cargoEnable_canon {s : State} (h : Canon s.mem) : Canon s.cargoEnable.mem := by
  simp [State.cargoEnable, h]
@[simp] theorem State.cargoDisable_mem (s : State) : s.cargoDisable.mem = s.mem := by
  simp [State.cargoDisable]

@[simp] theorem State.cargoTableChange_canon {s : State} (h : Canon s.mem) : Canon s.cargoTableChange.mem := by
  unfold State.cargoTableChange
  refine State.statusArrays_canon (canon_foldl h fun s n hs => ?_)
  simp only
  split
  · split <;> simp [hs]
  all_goals simp [hs]

/-! ### Machine/Enable -/

@[simp] theorem State.enSet_mem (s : State) (e : En) (b : Bool) : (s.enSet e b).mem = s.mem := (rfl)
@[simp] theorem State.enRefuse_mem (s : State) (e : En) (code : Nat) : (s.enRefuse e code).mem = s.mem := (rfl)
@[simp] theorem State.failNote_mem (s : State) (e : En) : (s.failNote e).mem = s.mem := by
  simp only [State.failNote]
  (repeat' split) <;> simp
@[simp] theorem State.quayEnable_canon {s : State} (h : Canon s.mem) (q : Nat) : Canon (s.quayEnable q).mem := by
  simp [State.quayEnable, h]
@[simp] theorem State.quayDisable_mem (s : State) (q : Nat) : (s.quayDisable q).mem = s.mem := by
  simp [State.quayDisable]
@[simp] theorem State.ringDisable_mem (s : State) (r : Nat) : (s.ringDisable r).mem = s.mem := by
  simp [State.ringDisable]
@[simp] theorem State.pairDisable_mem (s : State) : s.pairDisable.mem = s.mem := by
  simp [State.pairDisable]
@[simp] theorem State.enabled_canon {s : State} (h : Canon s.mem) (e : En) : Canon (s.enabled e).mem := by
  unfold State.enabled
  split <;> simp [h]
@[simp] theorem State.disabled_canon {s : State} (h : Canon s.mem) (e : En) : Canon (s.disabled e).mem := by
  unfold State.disabled
  split <;> simp [h]
@[simp] theorem State.clearOne_canon {s : State} (h : Canon s.mem) (e : En) : Canon (s.clearOne e).mem := by
  simp [State.clearOne, h]
@[simp] theorem State.cascade_canon {s : State} (h : Canon s.mem) : Canon s.cascade.mem := by
  unfold State.cascade
  exact canon_foldl h fun s e hs => by simp [hs]
@[simp] theorem State.enClear_canon {s : State} (h : Canon s.mem) (e : En) : Canon (s.enClear e).mem := by
  simp [State.enClear, h]
@[simp] theorem State.enStart_mem (s : State) (e : En) : (s.enStart e).mem = s.mem := by
  simp only [State.enStart]
  (repeat' split) <;> simp
@[simp] theorem State.enEnd_canon {s : State} (h : Canon s.mem) (e : En) : Canon (s.enEnd e).mem := by
  simp only [State.enEnd]
  (repeat' split) <;> simp [h]
@[simp] theorem execEnableSet_completes (s : State) (off : BitVec 25) : Completes s (execEnableSet off s) :=
    .of rfl fun h => by
  split <;> simp [h]
@[simp] theorem execEnableCheckEnd_completes (s : State) (off : BitVec 25) : Completes s (execEnableCheckEnd off s) :=
    .of rfl fun h => by
  split <;> simp [h]
@[simp] theorem execEnableClear_completes (s : State) (off : BitVec 25) : Completes s (execEnableClear off s) :=
    .of rfl fun h => by
  split <;> simp [h]

/-! ### Machine/PrfRows -/

@[simp] theorem State.stageFields_mem (s : State) (r : Reg) (d v : Nat) : (s.stageFields r d v).mem = s.mem := (rfl)
@[simp] theorem State.psStage_mem (s : State) (r : Reg) (d v master : Nat) :
    (s.psStage r d v master).mem = s.mem := by
  simp [State.psStage]
@[simp] theorem State.unstage_mem (s : State) : s.unstage.mem = s.mem := by
  simp [State.unstage]
@[simp] theorem State.proofPaths_mem (s view : State) : (s.proofPaths view).1.mem = s.mem := by
  unfold State.proofPaths
  split <;> simp
@[simp] theorem State.proofLocks_mem (s view : State) : (s.proofLocks view).1.mem = s.mem := by
  simp only [State.proofLocks]
  (repeat' split) <;> simp
@[simp] theorem State.proofBlocks_mem (s view : State) : (s.proofBlocks view).1.mem = s.mem := by
  simp only [State.proofBlocks]
  (repeat' split) <;> simp
@[simp] theorem State.noteAligned_mem (s view : State) : (s.noteAligned view).mem = s.mem := by
  simp [State.noteAligned]

@[simp] theorem State.proofRun_mem (s : State) : s.proofRun.1.mem = s.mem := by
  unfold State.proofRun
  extract_lets view s1 x
  have hx : x.1.mem = s.mem := by simp [x, s1]
  split
  · exact hx
  · split
    · exact hx
    · rw [State.proofPaths_mem, hx]

@[simp] theorem State.proofEnd_mem (s : State) : s.proofEnd.mem = s.mem := by
  unfold State.proofEnd
  extract_lets x
  have hx : x.1.mem = s.mem := s.proofRun_mem
  split <;> simp [hx]

@[simp] theorem State.prfRefuse_mem (s : State) (code : Nat) : (s.prfRefuse code).mem = s.mem := (rfl)
@[simp] theorem State.proofCmd_mem (s : State) (master : Nat) : (s.proofCmd master).mem = s.mem := by
  simp [State.proofCmd]
@[simp] theorem execProof_completes (s : State) (master : Fin 42) : Completes s (execProof master s) :=
  .of rfl fun h => by simp [h]
@[simp] theorem execProofEnd_completes (s : State) : Completes s (execProofEnd s) :=
  .of rfl fun h => by simp [h]
@[simp] theorem State.pullCmd_mem (s : State) (master : Nat) : (s.pullCmd master).mem = s.mem := by
  simp [State.pullCmd]
@[simp] theorem execPull_completes (s : State) (master : Fin 42) : Completes s (execPull master s) :=
  .of rfl fun h => by simp [h]
@[simp] theorem State.takeStaged_canon {s : State} (h : Canon s.mem) (before : State) (at_ : Nat) :
    Canon (s.takeStaged before at_).mem := by
  simp [State.takeStaged, h]

@[simp] theorem State.applySet_canon {s : State} (h : Canon s.mem) (at_ : Nat) : Canon (s.applySet at_).mem := by
  unfold State.applySet
  extract_lets t u
  have ht : t.mem = s.mem := foldl_mem rfl fun s x => by split <;> simp
  simp [u, ht, h]

@[simp] theorem execPullApply_completes (s : State) : Completes s (execPullApply s) :=
  .of rfl fun h => by simp [h]
@[simp] theorem State.discardCmd_canon {s : State} (h : Canon s.mem) (master : Nat) :
    Canon (s.discardCmd master).mem := by
  simp [State.discardCmd, h]
@[simp] theorem execDiscard_completes (s : State) (master : Fin 42) : Completes s (execDiscard master s) :=
  .of rfl fun h => by simp [h]
@[simp] theorem execQuayPullTimeout_completes (s : State) : Completes s (execQuayPullTimeout s) :=
  .of rfl fun h => by simp [h]
@[simp] theorem execScanStart_completes (s : State) (q : Fin 6) (core : Fin 4) :
    Completes s (execScanStart q core s) := .of rfl fun h => by
  split <;> simp [h]

/-! ### Machine/JoraSys -/

@[simp] theorem execJNop_completes (s : State) (c : Fin 24) : Completes s (execJNop c s) :=
  .of rfl fun h => by simp [h]
@[simp] theorem execJWait_completes (s : State) (c : Fin 24) : Completes s (execJWait c s) :=
  .of rfl fun h => by simp [h]
@[simp] theorem execJTrap_completes (s : State) (c : Fin 24) (imm : BitVec 8) : Completes s (execJTrap c imm s) :=
  .of rfl fun h => by simp [h]
@[simp] theorem execJBreak_completes (s : State) (c : Fin 24) : Completes s (execJBreak c s) :=
  .of rfl fun h => by simp [h]
@[simp] theorem execJMfs_completes (s : State) (c : Fin 24) (w : Fin 16) (sreg : BitVec 8) :
    Completes s (execJMfs c w sreg s) :=
  .of rfl fun h => by simp [h]
@[simp] theorem execJMts_completes (s : State) (c : Fin 24) (sreg : BitVec 8) (w : Fin 16) :
    Completes s (execJMts c sreg w s) :=
  .of rfl fun h => by simp [h]
@[simp] theorem execJEi_completes (s : State) (c : Fin 24) : Completes s (execJEi c s) :=
  .of rfl fun h => by simp [h]
@[simp] theorem execJDi_completes (s : State) (c : Fin 24) : Completes s (execJDi c s) :=
  .of rfl fun h => by simp [h]
@[simp] theorem execJFence_completes (s : State) (c : Fin 24) : Completes s (execJFence c s) :=
  .of rfl fun h => by simp [h]
@[simp] theorem execJRdtime_completes (s : State) (c : Fin 24) (w : Fin 16) : Completes s (execJRdtime c w s) :=
  .of rfl fun h => by simp [h]
@[simp] theorem execJRdscan_completes (s : State) (c : Fin 24) (w : Fin 16) : Completes s (execJRdscan c w s) :=
  .of rfl fun h => by simp [h]
@[simp] theorem State.debugHalt_mem (s : State) (c : Nat) : (s.debugHalt c).mem = s.mem := by
  simp [State.debugHalt]
@[simp] theorem State.debugResume_mem (s : State) (c : Nat) : (s.debugResume c).mem = s.mem := by
  simp [State.debugResume]
@[simp] theorem execDebugHaltReq_completes (s : State) (c : Fin 24) : Completes s (execDebugHaltReq c s) :=
  .of rfl fun h => by simp [h]
@[simp] theorem execDebugResume_completes (s : State) (c : Fin 24) : Completes s (execDebugResume c s) :=
  .of rfl fun h => by simp [h]

/-! ### Machine/System -/

@[simp] theorem State.mixPrograms_canon {s : State} (h : Canon s.mem) (q : Nat) (other : List Host.Cell) :
    Canon (s.mixPrograms q other).mem := by
  unfold State.mixPrograms
  extract_lets own
  exact canon_foldl h fun s k hs => by simp [hs]

@[simp] theorem State.deviceReset_canon {s : State} (h : Canon s.mem) (phase : Phase) :
    Canon (s.deviceReset phase).mem := by
  simp [State.deviceReset, h]
@[simp] theorem State.resetBy_canon {s : State} (h : Canon s.mem) (cause : Fld) (phase : Phase) :
    Canon (s.resetBy cause phase).mem := by
  simp [State.resetBy, h]
@[simp] theorem State.powerOnReset_canon {s : State} (h : Canon s.mem) (phase : Phase) :
    Canon (s.powerOnReset phase).mem := by
  simp [State.powerOnReset, h]
@[simp] theorem execPowerOn_completes (s : State) (debugEn vbatAbsent : Bool) :
    Completes s (execPowerOn debugEn vbatAbsent s) :=
  .of rfl fun h => by simp [h]
@[simp] theorem execSupplyUndervoltage_completes (s : State) : Completes s (execSupplyUndervoltage s) :=
  .of rfl fun h => by simp [h]
@[simp] theorem execResetNAssert_completes (s : State) : Completes s (execResetNAssert s) :=
  .of rfl fun h => by simp [h]
@[simp] theorem execResetNRelease_completes (s : State) (debugEn : Bool) :
    Completes s (execResetNRelease debugEn s) :=
  .of rfl fun h => by simp [h]
@[simp] theorem execPllLock_completes (s : State) : Completes s (execPllLock s) :=
  .of rfl fun h => by simp [h]
@[simp] theorem execFuseRead_completes (s : State) : Completes s (execFuseRead s) :=
  .of rfl fun h => by simp [h]
@[simp] theorem execMramReady_completes (s : State) : Completes s (execMramReady s) :=
  .of rfl fun h => by simp [h]
@[simp] theorem execSramClearEnd_completes (s : State) : Completes s (execSramClearEnd s) :=
  .of rfl fun h => by simp [h]
@[simp] theorem execBootEnd_completes (s : State) (s1 s8 d8 : Bool) (mhz : BitVec 8) :
    Completes s (execBootEnd s1 s8 d8 mhz s) :=
  .of rfl fun h => by simp [h]
@[simp] theorem State.xchgReset_canon {s : State} (h : Canon s.mem) (q : Nat) : Canon (s.xchgReset q).mem := by
  simp [State.xchgReset, h]

@[simp] theorem State.quayReset_canon {s : State} (h : Canon s.mem) (q : Nat) : Canon (s.quayReset q).mem := by
  have h1 : Canon ((s.mastQuayReset q).xchgReset q).mem := by simp [h]
  have h2 (t : State) (h : Canon t.mem) : Canon ((t.enSet (.quay q) false).stopQuay q).mem := by simp [h]
  have h3 (t : State) (h : Canon t.mem) : Canon { t with checking := t.checking.filter (· != (En.quay q).key) }.mem := h
  have h4 (t : State) (l : List Nat) (h : Canon t.mem) :
      Canon (l.foldl (fun s c => (s.setCore c {}).bumpEpoch c) t).mem :=
    canon_foldl h fun s c hs => by simp [hs]
  have h5 := h4 _ [4 * q, 4 * q + 1, 4 * q + 2, 4 * q + 3] (h3 _ (h2 _ h1))
  simp only [State.quayReset]
  split
  · rw [State.voidProof_mem, State.transitCheck_mem, State.hw_mem, State.mem_p, State.mem_setQuay,
      State.resetReceivers_mem]
    exact h5
  · rw [State.transitCheck_mem, State.hw_mem, State.mem_p, State.mem_setQuay, State.resetReceivers_mem]
    exact h5

@[simp] theorem State.resetCmd_canon {s : State} (h : Canon s.mem) (confirm : Nat) (scope : Bool) (q : Nat) :
    Canon (s.resetCmd confirm scope q).mem := by
  simp [State.resetCmd, h]
@[simp] theorem execHostReset_completes (s : State) (confirm : BitVec 16) : Completes s (execHostReset confirm s) :=
  .of rfl fun h => by simp [h]
@[simp] theorem execQuayReset_completes (s : State) (confirm : BitVec 16) (q : Fin 8) :
    Completes s (execQuayReset confirm q s) :=
  .of rfl fun h => by simp [h]
@[simp] theorem execWatchdogExpiry_completes (s : State) : Completes s (execWatchdogExpiry s) :=
  .of rfl fun h => by simp [h]
@[simp] theorem State.kick_mem (s : State) (key : Nat) : (s.kick key).mem = s.mem := by
  simp [State.kick]
@[simp] theorem execWdtKick_completes (s : State) (key : BitVec 8) : Completes s (execWdtKick key s) :=
  .of rfl fun h => by simp [h]
@[simp] theorem State.clrAll_mem (s : State) (fs : List Fld) (n stride : Nat) :
    (s.clrAll fs n stride).mem = s.mem := by
  simp [State.clrAll]
@[simp] theorem State.flr_mem (s : State) : s.flr.mem = s.mem := by
  simp [State.flr]
@[simp] theorem execPcieFlr_completes (s : State) : Completes s (execPcieFlr s) :=
  .of rfl fun h => by simp [h]
@[simp] theorem execPciePerst_completes (s : State) : Completes s (execPciePerst s) :=
  .of rfl fun h => by simp [h]
@[simp] theorem State.discard_mem (s : State) (id : Nat) : (s.discard id).mem = s.mem := by
  simp only [State.discard]
  (repeat' split) <;> simp
@[simp] theorem execContractBreach_completes (s : State) (item : Nat) : Completes s (execContractBreach item s) :=
    .of rfl fun h => by
  split <;> simp [h]

/-! ### Machine/RegRead -/

@[simp] theorem State.viewCoreStatus_mem (s : State) (d : Nat) : (s.viewCoreStatus d).mem = s.mem := (rfl)
@[simp] theorem State.viewXcause_mem (s : State) (d : Nat) : (s.viewXcause d).mem = s.mem := (rfl)
@[simp] theorem State.viewQuayStatus_mem (s : State) (d : Nat) : (s.viewQuayStatus d).mem = s.mem := by
  simp [State.viewQuayStatus]
@[simp] theorem State.viewTime_mem (s : State) (x1 : Nat) : (s.viewTime x1).mem = s.mem := (rfl)
@[simp] theorem State.viewMstCore_mem (s : State) (d : Nat) : (s.viewMstCore d).mem = s.mem := by
  simp only [State.viewMstCore]
  split <;> simp
@[simp] theorem State.viewLckReq_mem (s : State) (d : Nat) : (s.viewLckReq d).mem = s.mem := by
  simp [State.viewLckReq]
@[simp] theorem State.viewSlot_mem (s : State) (d : Nat) : (s.viewSlot d).mem = s.mem := (rfl)
@[simp] theorem State.viewSess_mem (s : State) (d : Nat) : (s.viewSess d).mem = s.mem := (rfl)
@[simp] theorem State.idRead_mem (s : State) (master : Nat) : (s.idRead master).mem = s.mem := by
  simp [State.idRead]
@[simp] theorem readOwn_mem (s : State) : (readOwn s).2.mem = s.mem := (rfl)
@[simp] theorem State.captureWords_mem (s : State) (off n : Nat) : (s.captureWords off n).mem = s.mem := (rfl)
theorem readHooks_mem (m d : Nat) (s : State) : ∀ p ∈ readHooks, (p.2 m d s).2.mem = s.mem := by
  simp [readHooks, readOwn, readPair]

@[simp] theorem State.regRead_mem (s : State) (master off n : Nat) (r : Reg) (d : Nat) :
    (s.regRead master off n r d).2.mem = s.mem := by
  unfold State.regRead
  split
  · rfl
  · extract_lets x v t
    have hx : x.2.mem = s.mem := by
      unfold x
      split
      · next e => exact readHooks_mem _ _ _ _ (AMap.mem_of_find e)
      · rfl
    split
    · exact hx
    · split
      · exact hx
      · rw [State.captureWords_mem, hx]

/-! ### Machine/RegWrite -/

@[simp] theorem State.putFld_mem (s : State) (locked : Bool) (d v : Nat) (f : Fld) :
    (s.putFld locked d v f).mem = s.mem := by
  unfold State.putFld
  split <;> simp

@[simp] theorem State.writeEnable_canon {s : State} (h : Canon s.mem) (r : Reg) (d v : Nat) :
    Canon (s.writeEnable r d v).mem := by
  unfold State.writeEnable
  split <;> simp [h]

@[simp] theorem State.regPut_canon {s : State} (h : Canon s.mem) (r : Reg) (master d v : Nat) :
    Canon (s.regPut r master d v).mem := by
  simp [State.regPut, h]
@[simp] theorem State.fecClear_mem (s : State) (b : FBlk) : (s.fecClear b).mem = s.mem := by
  simp [State.fecClear]
@[simp] theorem State.faultWrite_mem (s : State) (b : FBlk) (o v : Nat) : (s.faultWrite b o v).mem = s.mem := by
  simp [State.faultWrite]
@[simp] theorem State.pathPut_canon {s : State} (h : Canon s.mem) (r : Reg) (master d v : Nat) :
    Canon (s.pathPut r master d v).mem := by
  simp [State.pathPut, h]
@[simp] theorem State.pathWrite_mem (s : State) (d v : Nat) : (s.pathWrite d v).mem = s.mem := by
  simp [State.pathWrite]
@[simp] theorem State.wdtWrite_mem (s : State) (v : Nat) : (s.wdtWrite v).mem = s.mem := by
  simp [State.wdtWrite]
@[simp] theorem State.prfWrite_canon {s : State} (h : Canon s.mem) (master op : Nat) :
    Canon (s.prfWrite master op).mem := by
  simp [State.prfWrite, h]
@[simp] theorem State.debugStep_mem (s : State) (c : Nat) : (s.debugStep c).mem = s.mem := by
  simp [State.debugStep]
@[simp] theorem State.debugWrite_mem (s : State) (d v : Nat) : (s.debugWrite d v).mem = s.mem := by
  simp [State.debugWrite]
@[simp] theorem State.coreEccWrite_canon {s : State} (h : Canon s.mem) (r : Reg) (master d v : Nat) :
    Canon (s.coreEccWrite r master d v).mem := by
  simp [State.coreEccWrite, h]
@[simp] theorem State.dutyWrite_canon {s : State} (h : Canon s.mem) (r : Reg) (master d v : Nat) :
    Canon (s.dutyWrite r master d v).mem := by
  simp [State.dutyWrite, h]
@[simp] theorem State.xchgWrite_canon {s : State} (h : Canon s.mem) (q v : Nat) : Canon (s.xchgWrite q v).mem := by
  simp [State.xchgWrite, h]
@[simp] theorem State.campWrite_canon {s : State} (h : Canon s.mem) (c op : Nat) : Canon (s.campWrite c op).mem := by
  simp [State.campWrite, h]
@[simp] theorem State.ptWrite_mem (s : State) (v : Nat) : (s.ptWrite v).mem = s.mem := by
  simp [State.ptWrite]
@[simp] theorem State.headWrite_mem (s : State) (head tail : Fld) (k d v : Nat) :
    (s.headWrite head tail k d v).mem = s.mem := by
  simp [State.headWrite]
@[simp] theorem State.ringHead_mem (s : State) (d v : Nat) : (s.ringHead d v).mem = s.mem := by
  simp [State.ringHead]
@[simp] theorem State.ringTail_mem (s : State) (d v : Nat) : (s.ringTail d v).mem = s.mem := by
  simp [State.ringTail]
@[simp] theorem State.slewWrite_mem (s : State) (v : Nat) : (s.slewWrite v).mem = s.mem := by
  simp [State.slewWrite]
@[simp] theorem State.selectWrite_mem (s : State) (v : Nat) : (s.selectWrite v).mem = s.mem := by
  simp [State.selectWrite]
@[simp] theorem State.ptpWrite_canon {s : State} (h : Canon s.mem) (r : Reg) (master d v : Nat) :
    Canon (s.ptpWrite r master d v).mem := by
  simp [State.ptpWrite, h]
@[simp] theorem State.srcWrite_mem (s : State) (d v : Nat) : (s.srcWrite d v).mem = s.mem := by
  simp [State.srcWrite]
@[simp] theorem State.pairCtrlWrite_canon {s : State} (h : Canon s.mem) (r : Reg) (d v : Nat) :
    Canon (s.pairCtrlWrite r d v).mem := by
  simp [State.pairCtrlWrite, h]
@[simp] theorem State.clrWrite_mem (s : State) (master v : Nat) : (s.clrWrite master v).mem = s.mem := by
  simp [State.clrWrite]
@[simp] theorem State.guardWrite_mem (s : State) (d v : Nat) : (s.guardWrite d v).mem = s.mem := (rfl)
theorem writeHooks1_canon {s : State} (h : Canon s.mem) (r : Reg) (m d v : Nat) :
    ∀ p ∈ writeHooks1, Canon (p.2 r m d v s).mem := by
  simp [writeHooks1, h]
theorem writeHooks2_canon {s : State} (h : Canon s.mem) (r : Reg) (m d v : Nat) :
    ∀ p ∈ writeHooks2, Canon (p.2 r m d v s).mem := by
  simp [writeHooks2, h]
theorem writeHooks3_canon {s : State} (h : Canon s.mem) (r : Reg) (m d v : Nat) :
    ∀ p ∈ writeHooks3, Canon (p.2 r m d v s).mem := by
  simp [writeHooks3, h]
theorem writeHooks4_canon {s : State} (h : Canon s.mem) (r : Reg) (m d v : Nat) :
    ∀ p ∈ writeHooks4, Canon (p.2 r m d v s).mem := by
  simp [writeHooks4, h]

theorem writeHooks_canon {s : State} (h : Canon s.mem) (r : Reg) (m d v : Nat) :
    ∀ p ∈ writeHooks, Canon (p.2 r m d v s).mem := by
  simp only [writeHooks, List.forall_mem_append]
  exact ⟨⟨⟨writeHooks1_canon h r m d v, writeHooks2_canon h r m d v⟩, writeHooks3_canon h r m d v⟩,
    writeHooks4_canon h r m d v⟩

@[simp] theorem State.regWriteAll_canon {s : State} (h : Canon s.mem) (r : Reg) (master d v : Nat) :
    Canon (s.regWriteAll r master d v).mem := by
  unfold State.regWriteAll
  split
  · simp [h]
  · split
    · next e => exact writeHooks_canon h _ _ _ _ _ (AMap.mem_of_find e)
    · simp [h]

@[simp] theorem State.holdWord_mem (s : State) (r : Reg) (off v : Nat) : (s.holdWord r off v).mem = s.mem := by
  simp [State.holdWord]
@[simp] theorem State.dropHeld_mem (s : State) (off n : Nat) : (s.dropHeld off n).mem = s.mem := (rfl)

@[simp] theorem State.writeHeld_canon {s : State} (h : Canon s.mem) (master off n : Nat) :
    Canon (s.writeHeld master off n).mem := by
  unfold State.writeHeld
  refine canon_foldl h fun s i hs => ?_
  simp only
  split <;> simp [hs]

@[simp] theorem State.regWrite_canon {s : State} (h : Canon s.mem) (master off n v : Nat) (r : Reg) (d : Nat) :
    Canon (s.regWrite master off n v r d).mem := by
  simp [State.regWrite, h]

/-! ### Machine/Bus -/

@[simp] theorem State.errResp_mem (s : State) (a master kind : Nat) : (s.errResp a master kind).mem = s.mem := by
  simp [State.errResp]

@[simp] theorem State.tableWrite_canon {s : State} (h : Canon s.mem) (o : Nat) (l : List Byte) :
    Canon (s.tableWrite o l).mem := by
  induction l generalizing s o with
  | nil => exact h
  | cons b t ih => exact ih (State.wb_canon h ..) _

theorem State.winReg_mem {s t : State} {master o n v : Nat} (e : s.winReg master o n = some (v, t)) :
    t.mem = s.mem := by
  unfold State.winReg at e
  split at e
  · split at e
    · rw [← show _ = t from congrArg Prod.snd (Option.some.inj e), State.regRead_mem]
    · exact absurd e (by simp)
  · split at e
    · obtain ⟨-, rfl⟩ := by simpa using e
      rfl
    · exact absurd e (by simp)

theorem State.winRead_mem {s t : State} {master o n v : Nat} (e : s.winRead master o n = some (v, t)) :
    t.mem = s.mem := by
  unfold State.winRead at e
  simp only at e
  split at e
  · split at e
    case h_1 => exact State.winReg_mem e
    all_goals
      obtain ⟨-, rfl⟩ := by simpa using e
      simp
  · exact absurd e (by simp)

theorem State.winWrite_canon {s t : State} {master o n v : Nat} (e : s.winWrite master o n v = some t)
    (h : Canon s.mem) :
    Canon t.mem := by
  unfold State.winWrite at e
  simp only at e
  split at e
  · split at e
    · split at e
      · split at e
        · rw [← Option.some.inj e]; simp [h]
        · exact absurd e (by simp)
      · split at e
        · rwa [← Option.some.inj e]
        · exact absurd e (by simp)
    all_goals rw [← Option.some.inj e]; simp [h]
  · exact absurd e (by simp)

@[simp] theorem State.mramRead_mem (s : State) (a n : Nat) : (s.mramRead a n).2.mem = s.mem := by
  simp only [State.mramRead]
  (repeat' split) <;> simp
@[simp] theorem State.ramRead_mem (s : State) (master a n : Nat) : (s.ramRead master a n).2.mem = s.mem := by
  unfold State.ramRead
  split <;> simp

@[simp] theorem State.mramBus_mem (s : State) (master a n : Nat) : (s.mramBus master a n).2.mem = s.mem := by
  unfold State.mramBus
  split
  · rw [State.errResp_mem, State.raise_mem]
  · rcases e : (s.eccFix a n).mramRead a n with ⟨v, t⟩
    simpa [e] using (s.eccFix a n).mramRead_mem a n

@[simp] theorem State.busRead_mem (s : State) (master a n : Nat) : (s.busRead master a n).2.mem = s.mem := by
  unfold State.busRead
  split
  · simp
  · split
    · split
      · next e => exact State.winRead_mem e
      · simp
    · split
      · simp
      · split
        · split <;> simp
        · split
          · simp
          · split <;> simp

@[simp] theorem State.busWrite_canon {s : State} (h : Canon s.mem) (master a n v : Nat) :
    Canon (s.busWrite master a n v).2.mem := by
  unfold State.busWrite
  split
  · simp [h]
  · split
    · split
      · next e => exact State.winWrite_canon e h
      · simp [h]
    · split
      · split <;> simp [h]
      · split <;> simp [h]

@[simp] theorem answerRead_mem (x : Option Nat × State) : (answerRead x).mem = x.2.mem := by
  unfold answerRead
  split <;> simp
@[simp] theorem answerWrite_mem (x : Bool × State) : (answerWrite x).mem = x.2.mem := (rfl)
@[simp] theorem execWideReadCapture_completes (s : State) (master : Fin 42) (addr : Addr) (size : AccSize) :
    Completes s (execWideReadCapture master addr size s) :=
  .of rfl fun h => by simp [h]
@[simp] theorem execSysIdRead_completes (s : State) (master : Fin 42) : Completes s (execSysIdRead master s) :=
  .of rfl fun h => by simp [h]
@[simp] theorem execProgRead_completes (s : State) (set : Fin 7) (inst : Fin 8) :
    Completes s (execProgRead set inst s) :=
  .of rfl fun h => by simp [h]

/-! ### Machine/JoraBits -/

@[simp] theorem State.bitLogic_canon {s : State} (h : Canon s.mem) (c : Nat) (r : BitRef) (f : Bool → Bool → Bool) :
    Canon (s.bitLogic c r f).mem := by
  simp only [State.bitLogic]
  (repeat' split) <;> simp [h]

@[simp] theorem State.bitStore_canon {s : State} (h : Canon s.mem) (c : Nat) (r : BitRef) (f : Bool → Bool → Bool) :
    Canon (s.bitStore c r f).mem := by
  simp only [State.bitStore]
  (repeat' split) <;> simp [h]

@[simp] theorem execJLd_completes (s : State) (c : Fin 24) (r : BitRef) : Completes s (execJLd c r s) :=
  .of rfl fun h => by simp [h]
@[simp] theorem execJLdn_completes (s : State) (c : Fin 24) (r : BitRef) : Completes s (execJLdn c r s) :=
  .of rfl fun h => by simp [h]
@[simp] theorem execJAnd_completes (s : State) (c : Fin 24) (r : BitRef) : Completes s (execJAnd c r s) :=
  .of rfl fun h => by simp [h]
@[simp] theorem execJAndn_completes (s : State) (c : Fin 24) (r : BitRef) : Completes s (execJAndn c r s) :=
  .of rfl fun h => by simp [h]
@[simp] theorem execJOr_completes (s : State) (c : Fin 24) (r : BitRef) : Completes s (execJOr c r s) :=
  .of rfl fun h => by simp [h]
@[simp] theorem execJOrn_completes (s : State) (c : Fin 24) (r : BitRef) : Completes s (execJOrn c r s) :=
  .of rfl fun h => by simp [h]
@[simp] theorem execJXor_completes (s : State) (c : Fin 24) (r : BitRef) : Completes s (execJXor c r s) :=
  .of rfl fun h => by simp [h]
@[simp] theorem execJXorn_completes (s : State) (c : Fin 24) (r : BitRef) : Completes s (execJXorn c r s) :=
  .of rfl fun h => by simp [h]
@[simp] theorem execJSt_completes (s : State) (c : Fin 24) (r : BitRef) : Completes s (execJSt c r s) :=
  .of rfl fun h => by simp [h]
@[simp] theorem execJStn_completes (s : State) (c : Fin 24) (r : BitRef) : Completes s (execJStn c r s) :=
  .of rfl fun h => by simp [h]
@[simp] theorem execJSet_completes (s : State) (c : Fin 24) (r : BitRef) : Completes s (execJSet c r s) :=
  .of rfl fun h => by simp [h]
@[simp] theorem execJClr_completes (s : State) (c : Fin 24) (r : BitRef) : Completes s (execJClr c r s) :=
  .of rfl fun h => by simp [h]
@[simp] theorem execJNot_completes (s : State) (c : Fin 24) : Completes s (execJNot c s) :=
  .of rfl fun h => by simp [h]
@[simp] theorem execJBa1_completes (s : State) (c : Fin 24) : Completes s (execJBa1 c s) :=
  .of rfl fun h => by simp [h]
@[simp] theorem execJBa0_completes (s : State) (c : Fin 24) : Completes s (execJBa0 c s) :=
  .of rfl fun h => by simp [h]
@[simp] theorem execJOpen_completes (s : State) (c : Fin 24) (op : BitVec 3) : Completes s (execJOpen c op s) :=
  .of rfl fun h => by simp [h]
@[simp] theorem execJClose_completes (s : State) (c : Fin 24) : Completes s (execJClose c s) :=
  .of rfl fun h => by simp [h]

/-! ### Machine/JoraFlow -/

@[simp] theorem State.branch_canon {s : State} (h : Canon s.mem) (c : Nat) (disp : BitVec 22) (cond : Core → Bool) :
    Canon (s.branch c disp cond).mem := by
  simp only [State.branch]
  (repeat' split) <;> simp [h]

@[simp] theorem execJB_completes (s : State) (c : Fin 24) (disp : BitVec 22) : Completes s (execJB c disp s) :=
  .of rfl fun h => by simp [h]
@[simp] theorem execJBt_completes (s : State) (c : Fin 24) (disp : BitVec 22) : Completes s (execJBt c disp s) :=
  .of rfl fun h => by simp [h]
@[simp] theorem execJBf_completes (s : State) (c : Fin 24) (disp : BitVec 22) : Completes s (execJBf c disp s) :=
  .of rfl fun h => by simp [h]
@[simp] theorem execJBeq_completes (s : State) (c : Fin 24) (disp : BitVec 22) : Completes s (execJBeq c disp s) :=
  .of rfl fun h => by simp [h]
@[simp] theorem execJBne_completes (s : State) (c : Fin 24) (disp : BitVec 22) : Completes s (execJBne c disp s) :=
  .of rfl fun h => by simp [h]
@[simp] theorem execJBlt_completes (s : State) (c : Fin 24) (disp : BitVec 22) : Completes s (execJBlt c disp s) :=
  .of rfl fun h => by simp [h]
@[simp] theorem execJBge_completes (s : State) (c : Fin 24) (disp : BitVec 22) : Completes s (execJBge c disp s) :=
  .of rfl fun h => by simp [h]
@[simp] theorem execJBltu_completes (s : State) (c : Fin 24) (disp : BitVec 22) : Completes s (execJBltu c disp s) :=
  .of rfl fun h => by simp [h]
@[simp] theorem execJBgeu_completes (s : State) (c : Fin 24) (disp : BitVec 22) : Completes s (execJBgeu c disp s) :=
  .of rfl fun h => by simp [h]
@[simp] theorem execJBmi_completes (s : State) (c : Fin 24) (disp : BitVec 22) : Completes s (execJBmi c disp s) :=
  .of rfl fun h => by simp [h]
@[simp] theorem execJBpl_completes (s : State) (c : Fin 24) (disp : BitVec 22) : Completes s (execJBpl c disp s) :=
  .of rfl fun h => by simp [h]
@[simp] theorem execJBvs_completes (s : State) (c : Fin 24) (disp : BitVec 22) : Completes s (execJBvs c disp s) :=
  .of rfl fun h => by simp [h]
@[simp] theorem execJBvc_completes (s : State) (c : Fin 24) (disp : BitVec 22) : Completes s (execJBvc c disp s) :=
  .of rfl fun h => by simp [h]
@[simp] theorem State.callTo_canon {s : State} (h : Canon s.mem) (c : Nat) (t : BitVec 17) :
    Canon (s.callTo c t).mem := by
  simp [State.callTo, h]

@[simp] theorem execJCall_completes (s : State) (c : Fin 24) (disp : BitVec 18) : Completes s (execJCall c disp s) :=
  .of rfl fun h => by
    split
    · split <;> simp [h]
    · simp [h]

@[simp] theorem execJCallp_completes (s : State) (c : Fin 24) (p : Fin 4) : Completes s (execJCallp c p s) :=
  .of rfl fun h => by
    split
    · split <;> simp [h]
    · simp [h]

@[simp] theorem execJRet_completes (s : State) (c : Fin 24) : Completes s (execJRet c s) :=
  .of rfl fun h => by simp [h]

@[simp] theorem execJLoop_completes (s : State) (c : Fin 24) (wd : Fin 16) (disp : BitVec 18) :
    Completes s (execJLoop c wd disp s) := .of rfl fun h => by
  simp only
  (repeat' split) <;> simp [h]

@[simp] theorem State.long_canon {s : State} (h : Canon s.mem) (c : Nat) (f : Core → Core × BitVec 7) :
    Canon (s.long c f).mem := by
  simp [State.long, h]
@[simp] theorem execJLdi_completes (s : State) (c : Fin 24) (wd : Fin 16) (imm : BitVec 32) :
    Completes s (execJLdi c wd imm s) :=
  .of rfl fun h => by simp [h]
@[simp] theorem execJLdih_completes (s : State) (c : Fin 24) (wd : Fin 16) (imm : BitVec 32) :
    Completes s (execJLdih c wd imm s) :=
  .of rfl fun h => by simp [h]
@[simp] theorem execJFldi_completes (s : State) (c : Fin 24) (wd : Fin 16) (imm : BitVec 32) :
    Completes s (execJFldi c wd imm s) :=
  .of rfl fun h => by simp [h]
@[simp] theorem execJLpi_completes (s : State) (c : Fin 24) (pd : Fin 4) (imm8 : BitVec 8) (imm : BitVec 32) :
    Completes s (execJLpi c pd imm8 imm s) :=
  .of rfl fun h => by simp [h]

/-! ### Machine/JoraFp -/

@[simp] theorem State.fpOp_canon {s : State} (h : Canon s.mem) (c : Nat) (wd : Fin 16) (cyc : Nat)
    (f : Core → Nat × Nat) : Canon (s.fpOp c wd cyc f).mem := by
  simp [State.fpOp, h]
@[simp] theorem State.cmpOp_canon {s : State} (h : Canon s.mem) (c : Nat) (m : BitVec 3) (wa : Fin 16) (o : CmpRef)
    (f : BitVec 64 → BitVec 64 → Bool) : Canon (s.cmpOp c m wa o f).mem := by
  simp [State.cmpOp, h]
@[simp] theorem State.fcmpOp_canon {s : State} (h : Canon s.mem) (c : Nat) (m : BitVec 3) (wa wb : Fin 16)
    (quiet : Bool) (f : Fp.Cmp → Bool) : Canon (s.fcmpOp c m wa wb quiet f).mem := by
  simp [State.fcmpOp, h]
@[simp] theorem execJFadd_completes (s : State) (c : Fin 24) (wd wa wb : Fin 16) :
    Completes s (execJFadd c wd wa wb s) :=
  .of rfl fun h => by simp [h]
@[simp] theorem execJFsub_completes (s : State) (c : Fin 24) (wd wa wb : Fin 16) :
    Completes s (execJFsub c wd wa wb s) :=
  .of rfl fun h => by simp [h]
@[simp] theorem execJFmul_completes (s : State) (c : Fin 24) (wd wa wb : Fin 16) :
    Completes s (execJFmul c wd wa wb s) :=
  .of rfl fun h => by simp [h]
@[simp] theorem execJFdiv_completes (s : State) (c : Fin 24) (wd wa wb : Fin 16) :
    Completes s (execJFdiv c wd wa wb s) :=
  .of rfl fun h => by simp [h]
@[simp] theorem execJFmin_completes (s : State) (c : Fin 24) (wd wa wb : Fin 16) :
    Completes s (execJFmin c wd wa wb s) :=
  .of rfl fun h => by simp [h]
@[simp] theorem execJFmax_completes (s : State) (c : Fin 24) (wd wa wb : Fin 16) :
    Completes s (execJFmax c wd wa wb s) :=
  .of rfl fun h => by simp [h]
@[simp] theorem execJFma_completes (s : State) (c : Fin 24) (wd wa wb : Fin 16) :
    Completes s (execJFma c wd wa wb s) :=
  .of rfl fun h => by simp [h]
@[simp] theorem execJFms_completes (s : State) (c : Fin 24) (wd wa wb : Fin 16) :
    Completes s (execJFms c wd wa wb s) :=
  .of rfl fun h => by simp [h]
@[simp] theorem execJFsqrt_completes (s : State) (c : Fin 24) (wd wa : Fin 16) : Completes s (execJFsqrt c wd wa s) :=
  .of rfl fun h => by simp [h]
@[simp] theorem execJFabs_completes (s : State) (c : Fin 24) (wd wa : Fin 16) : Completes s (execJFabs c wd wa s) :=
  .of rfl fun h => by simp [h]
@[simp] theorem execJFneg_completes (s : State) (c : Fin 24) (wd wa : Fin 16) : Completes s (execJFneg c wd wa s) :=
  .of rfl fun h => by simp [h]
@[simp] theorem execJEq_completes (s : State) (c : Fin 24) (m : BitVec 3) (wa : Fin 16) (o : CmpRef) :
    Completes s (execJEq c m wa o s) :=
  .of rfl fun h => by simp [h]
@[simp] theorem execJNe_completes (s : State) (c : Fin 24) (m : BitVec 3) (wa : Fin 16) (o : CmpRef) :
    Completes s (execJNe c m wa o s) :=
  .of rfl fun h => by simp [h]
@[simp] theorem execJLt_completes (s : State) (c : Fin 24) (m : BitVec 3) (wa : Fin 16) (o : CmpRef) :
    Completes s (execJLt c m wa o s) :=
  .of rfl fun h => by simp [h]
@[simp] theorem execJLe_completes (s : State) (c : Fin 24) (m : BitVec 3) (wa : Fin 16) (o : CmpRef) :
    Completes s (execJLe c m wa o s) :=
  .of rfl fun h => by simp [h]
@[simp] theorem execJGt_completes (s : State) (c : Fin 24) (m : BitVec 3) (wa : Fin 16) (o : CmpRef) :
    Completes s (execJGt c m wa o s) :=
  .of rfl fun h => by simp [h]
@[simp] theorem execJGe_completes (s : State) (c : Fin 24) (m : BitVec 3) (wa : Fin 16) (o : CmpRef) :
    Completes s (execJGe c m wa o s) :=
  .of rfl fun h => by simp [h]
@[simp] theorem execJLtu_completes (s : State) (c : Fin 24) (m : BitVec 3) (wa : Fin 16) (o : CmpRef) :
    Completes s (execJLtu c m wa o s) :=
  .of rfl fun h => by simp [h]
@[simp] theorem execJLeu_completes (s : State) (c : Fin 24) (m : BitVec 3) (wa : Fin 16) (o : CmpRef) :
    Completes s (execJLeu c m wa o s) :=
  .of rfl fun h => by simp [h]
@[simp] theorem execJGtu_completes (s : State) (c : Fin 24) (m : BitVec 3) (wa : Fin 16) (o : CmpRef) :
    Completes s (execJGtu c m wa o s) :=
  .of rfl fun h => by simp [h]
@[simp] theorem execJGeu_completes (s : State) (c : Fin 24) (m : BitVec 3) (wa : Fin 16) (o : CmpRef) :
    Completes s (execJGeu c m wa o s) :=
  .of rfl fun h => by simp [h]
@[simp] theorem execJFeq_completes (s : State) (c : Fin 24) (m : BitVec 3) (wa wb : Fin 16) :
    Completes s (execJFeq c m wa wb s) :=
  .of rfl fun h => by simp [h]
@[simp] theorem execJFne_completes (s : State) (c : Fin 24) (m : BitVec 3) (wa wb : Fin 16) :
    Completes s (execJFne c m wa wb s) :=
  .of rfl fun h => by simp [h]
@[simp] theorem execJFlt_completes (s : State) (c : Fin 24) (m : BitVec 3) (wa wb : Fin 16) :
    Completes s (execJFlt c m wa wb s) :=
  .of rfl fun h => by simp [h]
@[simp] theorem execJFle_completes (s : State) (c : Fin 24) (m : BitVec 3) (wa wb : Fin 16) :
    Completes s (execJFle c m wa wb s) :=
  .of rfl fun h => by simp [h]
@[simp] theorem execJFgt_completes (s : State) (c : Fin 24) (m : BitVec 3) (wa wb : Fin 16) :
    Completes s (execJFgt c m wa wb s) :=
  .of rfl fun h => by simp [h]
@[simp] theorem execJFge_completes (s : State) (c : Fin 24) (m : BitVec 3) (wa wb : Fin 16) :
    Completes s (execJFge c m wa wb s) :=
  .of rfl fun h => by simp [h]
@[simp] theorem execJFun_completes (s : State) (c : Fin 24) (m : BitVec 3) (wa wb : Fin 16) :
    Completes s (execJFun c m wa wb s) :=
  .of rfl fun h => by simp [h]
@[simp] theorem execJMov_completes (s : State) (c : Fin 24) (wd wa : Fin 16) : Completes s (execJMov c wd wa s) :=
  .of rfl fun h => by simp [h]
@[simp] theorem execJItof_completes (s : State) (c : Fin 24) (wd wa : Fin 16) : Completes s (execJItof c wd wa s) :=
  .of rfl fun h => by simp [h]
@[simp] theorem execJUtof_completes (s : State) (c : Fin 24) (wd wa : Fin 16) : Completes s (execJUtof c wd wa s) :=
  .of rfl fun h => by simp [h]
@[simp] theorem execJFtoi_completes (s : State) (c : Fin 24) (wd wa : Fin 16) : Completes s (execJFtoi c wd wa s) :=
  .of rfl fun h => by simp [h]
@[simp] theorem execJFtoir_completes (s : State) (c : Fin 24) (wd wa : Fin 16) : Completes s (execJFtoir c wd wa s) :=
  .of rfl fun h => by simp [h]
@[simp] theorem execJFtou_completes (s : State) (c : Fin 24) (wd wa : Fin 16) : Completes s (execJFtou c wd wa s) :=
  .of rfl fun h => by simp [h]
@[simp] theorem execJBatow_completes (s : State) (c : Fin 24) (wd : Fin 16) : Completes s (execJBatow c wd s) :=
  .of rfl fun h => by simp [h]
@[simp] theorem execJWtoba_completes (s : State) (c : Fin 24) (m : BitVec 3) (wa : Fin 16) :
    Completes s (execJWtoba c m wa s) :=
  .of rfl fun h => by simp [h]
@[simp] theorem State.ptrOp_canon {s : State} (h : Canon s.mem) (c : Nat) (pd : Fin 4) (f : Core → BitVec 40) :
    Canon (s.ptrOp c pd f).mem := by
  simp [State.ptrOp, h]
@[simp] theorem execJMovp_completes (s : State) (c : Fin 24) (pd : Fin 4) (wa : Fin 16) :
    Completes s (execJMovp c pd wa s) :=
  .of rfl fun h => by simp [h]
@[simp] theorem execJMovwp_completes (s : State) (c : Fin 24) (pd : Fin 4) (wa : Fin 16) :
    Completes s (execJMovwp c pd wa s) :=
  .of rfl fun h => by simp [h]
@[simp] theorem execJAddp_completes (s : State) (c : Fin 24) (pd : Fin 4) (imm : BitVec 16) :
    Completes s (execJAddp c pd imm s) :=
  .of rfl fun h => by simp [h]
@[simp] theorem execJAddpw_completes (s : State) (c : Fin 24) (pd : Fin 4) (wa : Fin 16) :
    Completes s (execJAddpw c pd wa s) :=
  .of rfl fun h => by simp [h]

/-! ### Machine/JoraInst -/

@[simp] theorem State.instPut_canon {s : State} (h : Canon s.mem) (c o n v : Nat) :
    Canon (s.instPut c o n v).mem := by
  simp [State.instPut, h]

@[simp] theorem State.instOp_canon {s : State} (h : Canon s.mem) (c size n : Nat) (r : InstRef) (kinds : List Nat)
    (cyc : Nat)
    (f : Nat → Bool × State) (hf : ∀ o, Canon (f o).2.mem) : Canon (s.instOp c size n r kinds cyc f).mem := by
  unfold State.instOp
  split
  · split
    · simp [h]
    · split <;> simp [h, hf]
  · simp [h]

@[simp] theorem State.timerOp_canon {s : State} (h : Canon s.mem) (c kind : Nat) (r : InstRef)
    (f : Timer → Bool → Nat → Timer) : Canon (s.timerOp c kind r f).mem :=
  State.instOp_canon h _ _ _ _ _ _ _ fun _ => State.instPut_canon (State.instPut_canon (State.instPut_canon h ..) ..) ..
@[simp] theorem execJTon_completes (s : State) (c : Fin 24) (r : InstRef) : Completes s (execJTon c r s) :=
  .of rfl fun h => by simp [h]
@[simp] theorem execJTof_completes (s : State) (c : Fin 24) (r : InstRef) : Completes s (execJTof c r s) :=
  .of rfl fun h => by simp [h]
@[simp] theorem execJTp_completes (s : State) (c : Fin 24) (r : InstRef) : Completes s (execJTp c r s) :=
  .of rfl fun h => by simp [h]
@[simp] theorem State.counterOp_canon {s : State} (h : Canon s.mem) (c : Nat) (kinds : List Nat) (r : InstRef)
    (f : Counter → Bool → Bool × Counter) : Canon (s.counterOp c kinds r f).mem :=
  State.instOp_canon h _ _ _ _ _ _ _ fun _ => State.instPut_canon (State.instPut_canon h ..) ..
@[simp] theorem execJCu_completes (s : State) (c : Fin 24) (r : InstRef) : Completes s (execJCu c r s) :=
  .of rfl fun h => by simp [h]
@[simp] theorem execJCd_completes (s : State) (c : Fin 24) (r : InstRef) : Completes s (execJCd c r s) :=
  .of rfl fun h => by simp [h]
@[simp] theorem execJCr_completes (s : State) (c : Fin 24) (r : InstRef) : Completes s (execJCr c r s) :=
  .of rfl fun h => by simp [h]
@[simp] theorem execJCl_completes (s : State) (c : Fin 24) (r : InstRef) : Completes s (execJCl c r s) :=
  .of rfl fun h => by simp [h]
@[simp] theorem execJCqu_completes (s : State) (c : Fin 24) (r : InstRef) : Completes s (execJCqu c r s) :=
  .of rfl fun h => by simp [h]
@[simp] theorem execJCqd_completes (s : State) (c : Fin 24) (r : InstRef) : Completes s (execJCqd c r s) :=
  .of rfl fun h => by simp [h]
@[simp] theorem State.edgeOp_canon {s : State} (h : Canon s.mem) (c : Nat) (r : InstRef) (f : Bool → Bool → Bool) :
    Canon (s.edgeOp c r f).mem := by
  simp [State.edgeOp, h]
@[simp] theorem execJEdgp_completes (s : State) (c : Fin 24) (r : InstRef) : Completes s (execJEdgp c r s) :=
  .of rfl fun h => by simp [h]
@[simp] theorem execJEdgn_completes (s : State) (c : Fin 24) (r : InstRef) : Completes s (execJEdgn c r s) :=
  .of rfl fun h => by simp [h]

/-! ### Machine/JoraInt -/

@[simp] theorem State.aluRR_canon {s : State} (h : Canon s.mem) (c : Nat) (wd wa wb : Fin 16) (cyc : Nat)
    (f : BitVec 64 → BitVec 64 → AluRes) : Canon (s.aluRR c wd wa wb cyc f).mem := by
  simp [State.aluRR, h]
@[simp] theorem State.aluRI_canon {s : State} (h : Canon s.mem) (c : Nat) (wd wa : Fin 16) (imm : BitVec 14)
    (f : BitVec 64 → BitVec 64 → AluRes) : Canon (s.aluRI c wd wa imm f).mem := by
  simp [State.aluRI, h]
@[simp] theorem execJAdd_completes (s : State) (c : Fin 24) (wd wa wb : Fin 16) :
    Completes s (execJAdd c wd wa wb s) :=
  .of rfl fun h => by simp [h]
@[simp] theorem execJSub_completes (s : State) (c : Fin 24) (wd wa wb : Fin 16) :
    Completes s (execJSub c wd wa wb s) :=
  .of rfl fun h => by simp [h]
@[simp] theorem execJIand_completes (s : State) (c : Fin 24) (wd wa wb : Fin 16) :
    Completes s (execJIand c wd wa wb s) :=
  .of rfl fun h => by simp [h]
@[simp] theorem execJIor_completes (s : State) (c : Fin 24) (wd wa wb : Fin 16) :
    Completes s (execJIor c wd wa wb s) :=
  .of rfl fun h => by simp [h]
@[simp] theorem execJIxor_completes (s : State) (c : Fin 24) (wd wa wb : Fin 16) :
    Completes s (execJIxor c wd wa wb s) :=
  .of rfl fun h => by simp [h]
@[simp] theorem execJShl_completes (s : State) (c : Fin 24) (wd wa wb : Fin 16) :
    Completes s (execJShl c wd wa wb s) :=
  .of rfl fun h => by simp [h]
@[simp] theorem execJShr_completes (s : State) (c : Fin 24) (wd wa wb : Fin 16) :
    Completes s (execJShr c wd wa wb s) :=
  .of rfl fun h => by simp [h]
@[simp] theorem execJSar_completes (s : State) (c : Fin 24) (wd wa wb : Fin 16) :
    Completes s (execJSar c wd wa wb s) :=
  .of rfl fun h => by simp [h]
@[simp] theorem execJMul_completes (s : State) (c : Fin 24) (wd wa wb : Fin 16) :
    Completes s (execJMul c wd wa wb s) :=
  .of rfl fun h => by simp [h]
@[simp] theorem execJMulhs_completes (s : State) (c : Fin 24) (wd wa wb : Fin 16) :
    Completes s (execJMulhs c wd wa wb s) :=
  .of rfl fun h => by simp [h]
@[simp] theorem execJMulhu_completes (s : State) (c : Fin 24) (wd wa wb : Fin 16) :
    Completes s (execJMulhu c wd wa wb s) :=
  .of rfl fun h => by simp [h]
@[simp] theorem execJDivs_completes (s : State) (c : Fin 24) (wd wa wb : Fin 16) :
    Completes s (execJDivs c wd wa wb s) :=
  .of rfl fun h => by simp [h]
@[simp] theorem execJDivu_completes (s : State) (c : Fin 24) (wd wa wb : Fin 16) :
    Completes s (execJDivu c wd wa wb s) :=
  .of rfl fun h => by simp [h]
@[simp] theorem execJRems_completes (s : State) (c : Fin 24) (wd wa wb : Fin 16) :
    Completes s (execJRems c wd wa wb s) :=
  .of rfl fun h => by simp [h]
@[simp] theorem execJRemu_completes (s : State) (c : Fin 24) (wd wa wb : Fin 16) :
    Completes s (execJRemu c wd wa wb s) :=
  .of rfl fun h => by simp [h]
@[simp] theorem execJMin_completes (s : State) (c : Fin 24) (wd wa wb : Fin 16) :
    Completes s (execJMin c wd wa wb s) :=
  .of rfl fun h => by simp [h]
@[simp] theorem execJMax_completes (s : State) (c : Fin 24) (wd wa wb : Fin 16) :
    Completes s (execJMax c wd wa wb s) :=
  .of rfl fun h => by simp [h]
@[simp] theorem execJMinu_completes (s : State) (c : Fin 24) (wd wa wb : Fin 16) :
    Completes s (execJMinu c wd wa wb s) :=
  .of rfl fun h => by simp [h]
@[simp] theorem execJMaxu_completes (s : State) (c : Fin 24) (wd wa wb : Fin 16) :
    Completes s (execJMaxu c wd wa wb s) :=
  .of rfl fun h => by simp [h]
@[simp] theorem execJAddsat_completes (s : State) (c : Fin 24) (wd wa wb : Fin 16) :
    Completes s (execJAddsat c wd wa wb s) :=
  .of rfl fun h => by simp [h]
@[simp] theorem execJSubsat_completes (s : State) (c : Fin 24) (wd wa wb : Fin 16) :
    Completes s (execJSubsat c wd wa wb s) :=
  .of rfl fun h => by simp [h]
@[simp] theorem execJAbs_completes (s : State) (c : Fin 24) (wd wa wb : Fin 16) :
    Completes s (execJAbs c wd wa wb s) :=
  .of rfl fun h => by simp [h]
@[simp] theorem execJNeg_completes (s : State) (c : Fin 24) (wd wa wb : Fin 16) :
    Completes s (execJNeg c wd wa wb s) :=
  .of rfl fun h => by simp [h]
@[simp] theorem execJAddi_completes (s : State) (c : Fin 24) (wd wa : Fin 16) (imm : BitVec 14) :
    Completes s (execJAddi c wd wa imm s) :=
  .of rfl fun h => by simp [h]
@[simp] theorem execJAndi_completes (s : State) (c : Fin 24) (wd wa : Fin 16) (imm : BitVec 14) :
    Completes s (execJAndi c wd wa imm s) :=
  .of rfl fun h => by simp [h]
@[simp] theorem execJOri_completes (s : State) (c : Fin 24) (wd wa : Fin 16) (imm : BitVec 14) :
    Completes s (execJOri c wd wa imm s) :=
  .of rfl fun h => by simp [h]
@[simp] theorem execJXori_completes (s : State) (c : Fin 24) (wd wa : Fin 16) (imm : BitVec 14) :
    Completes s (execJXori c wd wa imm s) :=
  .of rfl fun h => by simp [h]
@[simp] theorem execJShli_completes (s : State) (c : Fin 24) (wd wa : Fin 16) (imm : BitVec 14) :
    Completes s (execJShli c wd wa imm s) :=
  .of rfl fun h => by simp [h]
@[simp] theorem execJShri_completes (s : State) (c : Fin 24) (wd wa : Fin 16) (imm : BitVec 14) :
    Completes s (execJShri c wd wa imm s) :=
  .of rfl fun h => by simp [h]
@[simp] theorem execJSari_completes (s : State) (c : Fin 24) (wd wa : Fin 16) (imm : BitVec 14) :
    Completes s (execJSari c wd wa imm s) :=
  .of rfl fun h => by simp [h]
@[simp] theorem execJMuli_completes (s : State) (c : Fin 24) (wd wa : Fin 16) (imm : BitVec 14) :
    Completes s (execJMuli c wd wa imm s) :=
  .of rfl fun h => by simp [h]

/-! ### Machine/JoraMem -/

@[simp] theorem State.loadCycles_mem (s : State) (a : Nat) : (s.loadCycles a).2.mem = s.mem := by
  unfold State.loadCycles
  split <;> simp

@[simp] theorem State.loadView_mem (s : State) (c n : Nat) (v : View) : (s.loadView c n v).2.mem = s.mem := by
  have h := fun a => s.busRead_mem c a n
  cases v with
  | dev a =>
    simp only [State.loadView]
    specialize h a
    split <;> next e => rw [e] at h; exact h
  | _ => rfl

@[simp] theorem State.load_canon {s : State} (h : Canon s.mem) (c n : Nat) (w : Fin 16) (r : WordRef)
    (f : Nat → BitVec 64) : Canon (s.load c n w r f).mem := by
  unfold State.load
  split
  · split
    · simp [h]
    · next v _ =>
      refine State.checked_canon h _ _ _ _ ?_
      have hv := (s.viewSeen c n v).loadView_mem c n v
      rw [State.viewSeen_mem] at hv
      split
      · next e =>
        rw [e] at hv
        exact State.fail_canon (hv ▸ h) ..
      · next t e =>
        rw [e] at hv
        refine State.retire_canon ?_ ..
        split
        · rw [State.loadCycles_mem, hv]
          exact h
        · exact hv ▸ h
  · simp [h]

@[simp] theorem State.postError_mem (s : State) (c a : Nat) : (s.postError c a).mem = s.mem := (rfl)

@[simp] theorem State.store_canon {s : State} (h : Canon s.mem) (c n : Nat) (w : Fin 16) (r : WordRef) :
    Canon (s.store c n w r).mem := by
  simp only [State.store]
  (repeat' split) <;> simp [h]

@[simp] theorem execLd8_completes (s : State) (c : Fin 24) (w : Fin 16) (r : WordRef) :
    Completes s (execLd8 c w r s) :=
  .of rfl fun h => by simp [h]
@[simp] theorem execLd8u_completes (s : State) (c : Fin 24) (w : Fin 16) (r : WordRef) :
    Completes s (execLd8u c w r s) :=
  .of rfl fun h => by simp [h]
@[simp] theorem execLd16_completes (s : State) (c : Fin 24) (w : Fin 16) (r : WordRef) :
    Completes s (execLd16 c w r s) :=
  .of rfl fun h => by simp [h]
@[simp] theorem execLd16u_completes (s : State) (c : Fin 24) (w : Fin 16) (r : WordRef) :
    Completes s (execLd16u c w r s) :=
  .of rfl fun h => by simp [h]
@[simp] theorem execLd32_completes (s : State) (c : Fin 24) (w : Fin 16) (r : WordRef) :
    Completes s (execLd32 c w r s) :=
  .of rfl fun h => by simp [h]
@[simp] theorem execLd32u_completes (s : State) (c : Fin 24) (w : Fin 16) (r : WordRef) :
    Completes s (execLd32u c w r s) :=
  .of rfl fun h => by simp [h]
@[simp] theorem execLd64_completes (s : State) (c : Fin 24) (w : Fin 16) (r : WordRef) :
    Completes s (execLd64 c w r s) :=
  .of rfl fun h => by simp [h]
@[simp] theorem execSt8_completes (s : State) (c : Fin 24) (w : Fin 16) (r : WordRef) :
    Completes s (execSt8 c w r s) :=
  .of rfl fun h => by simp [h]
@[simp] theorem execSt16_completes (s : State) (c : Fin 24) (w : Fin 16) (r : WordRef) :
    Completes s (execSt16 c w r s) :=
  .of rfl fun h => by simp [h]
@[simp] theorem execSt32_completes (s : State) (c : Fin 24) (w : Fin 16) (r : WordRef) :
    Completes s (execSt32 c w r s) :=
  .of rfl fun h => by simp [h]
@[simp] theorem execSt64_completes (s : State) (c : Fin 24) (w : Fin 16) (r : WordRef) :
    Completes s (execSt64 c w r s) :=
  .of rfl fun h => by simp [h]
@[simp] theorem execPostedStoreError_completes (s : State) (c : Fin 24) : Completes s (execPostedStoreError c s) :=
    .of rfl fun h => by
  split <;> simp [h]

/-! ### Machine/JoraWord -/

@[simp] theorem illegal_completes (s : State) (c : Nat) : Completes s (illegal c s) :=
  .of rfl fun h => by simp [h]

@[simp] theorem bitLogicWord_completes (s : State) (c : Fin 24) (f : Nat) (r : BitRef) :
    Completes s (bitLogicWord c f r s) := by
  unfold bitLogicWord
  split <;> simp

@[simp] theorem bitStoreWord_completes (s : State) (c : Fin 24) (f : Nat) (r : BitRef) :
    Completes s (bitStoreWord c f r s) := by
  unfold bitStoreWord
  split <;> simp

@[simp] theorem baWord_completes (s : State) (c : Fin 24) (w : Nat) : Completes s (baWord c w s) := by
  simp only [baWord]
  (repeat' split) <;> simp

@[simp] theorem memWord_completes (s : State) (c : Fin 24) (w : Nat) (r : WordRef) :
    Completes s (memWord c w r s) := by
  unfold memWord
  split <;> simp

@[simp] theorem intWord_completes (s : State) (c : Fin 24) (f : Nat) (d a b : Fin 16) :
    Completes s (intWord c f d a b s) := by
  unfold intWord
  split <;> simp

@[simp] theorem immWord_completes (s : State) (c : Fin 24) (w : Nat) : Completes s (immWord c w s) := by
  unfold immWord
  split <;> simp

@[simp] theorem fpWord_completes (s : State) (c : Fin 24) (f : Nat) (d a b : Fin 16) :
    Completes s (fpWord c f d a b s) := by
  unfold fpWord
  split <;> simp

@[simp] theorem cmpWord_completes (s : State) (c : Fin 24) (f : Nat) (m : BitVec 3) (a : Fin 16) (o : CmpRef) :
    Completes s (cmpWord c f m a o s) := by
  unfold cmpWord
  split <;> simp

@[simp] theorem cmpRegWord_completes (s : State) (c : Fin 24) (f : Nat) (m : BitVec 3) (a b : Fin 16) :
    Completes s (cmpRegWord c f m a b s) := by
  unfold cmpRegWord
  split <;> simp

@[simp] theorem movWord_completes (s : State) (c : Fin 24) (f : Nat) (m : BitVec 3) (d a : Fin 16) :
    Completes s (movWord c f m d a s) := by
  unfold movWord
  split <;> simp

@[simp] theorem rrWord_completes (s : State) (c : Fin 24) (maj w : Nat) : Completes s (rrWord c maj w s) := by
  simp only [rrWord]
  (repeat' split) <;> simp
@[simp] theorem ptrWord_completes (s : State) (c : Fin 24) (w : Nat) : Completes s (ptrWord c w s) := by
  unfold ptrWord
  split <;> simp
@[simp] theorem branchWord_completes (s : State) (c : Fin 24) (w : Nat) : Completes s (branchWord c w s) := by
  unfold branchWord
  split <;> simp
@[simp] theorem callWord_completes (s : State) (c : Fin 24) (w : Nat) : Completes s (callWord c w s) := by
  simp only [callWord]
  (repeat' split) <;> simp
@[simp] theorem instWord_completes (s : State) (c : Fin 24) (w : Nat) : Completes s (instWord c w s) := by
  simp only [instWord]
  (repeat' split) <;> simp
@[simp] theorem berthWord_completes (s : State) (c : Fin 24) (w : Nat) : Completes s (berthWord c w s) := by
  simp only [berthWord]
  (repeat' split) <;> simp
@[simp] theorem sysWord_completes (s : State) (c : Fin 24) (w : Nat) : Completes s (sysWord c w s) := by
  unfold sysWord
  split <;> simp

@[simp] theorem longWord_completes (s : State) (c : Fin 24) (w : Nat) (imm : BitVec 32) :
    Completes s (longWord c w imm s) := by
  simp only [longWord]
  (repeat' split) <;> simp

@[simp] theorem runWord_completes (s : State) (c : Fin 24) (w : Nat) (imm : BitVec 32) :
    Completes s (runWord c w imm s) := by
  simp only [runWord]
  (repeat' split) <;> simp

theorem Completes.after {s t : State} {o : Out'} (ht : Canon s.mem → Canon t.mem) (h : Completes t o) :
    Completes s o := by
  obtain ⟨u, e, hu⟩ := h
  exact ⟨u, e, fun hs => hu (ht hs)⟩

@[simp] theorem State.stepCore_completes (s : State) (c : Fin 24) : Completes s (s.stepCore c) := by
  unfold State.stepCore
  extract_lets k a
  split
  · obtain ⟨t, e, ht⟩ := runWord_completes s c (s.rle a 4) (BitVec.ofNat 32 (s.rle (instrKey c (k.pc + 4).toNat) 4))
    rw [e]
    exact .of rfl fun h => by simp [ht h]
  · exact .of rfl id

theorem stepAll_completes (l : List (Fin 24)) (s : State) : Completes s (stepAll l s) := by
  induction l generalizing s with
  | nil => exact .of rfl id
  | cons c t ih =>
    obtain ⟨u, e, hu⟩ := s.stepCore_completes c
    simp only [stepAll, e]
    exact .after hu (ih u)

@[simp] theorem State.stepCores_completes (s : State) : Completes s s.stepCores := stepAll_completes _ s
@[simp] theorem execDebugStep_completes (s : State) (c : Fin 24) : Completes s (execDebugStep c s) :=
  .after (fun h => by simp [h]) (State.stepCore_completes _ c)

@[simp] theorem execRegisterWrite_completes (s : State) (master : Fin 42) (addr : Addr) (size : AccSize)
    (value : BitVec 256) :
    Completes s (execRegisterWrite master addr size value s) :=
  .after (fun h => by simp [h]) (State.stepCores_completes _)

@[simp] theorem execPsWrite_completes (s : State) (master : Fin 42) (off : BitVec 25) (size : AccSize)
    (value : BitVec 256) :
    Completes s (execPsWrite master off size value s) :=
  .of rfl fun h => by
    split
    · split <;> simp [h]
    · exact h

/-! ### Machine/Rings -/

@[simp] theorem State.fetched_mem (s : State) (r : Nat) (d : List Byte) : (s.fetched r d).mem = s.mem := by
  simp only [State.fetched]
  split <;> simp
@[simp] theorem execDescriptorFetch_completes (s : State) (r : Fin 16) (desc : List Byte) :
    Completes s (execDescriptorFetch r desc s) :=
  .of rfl fun h => by simp [h]

@[simp] theorem State.ringRun_canon {s : State} (h : Canon s.mem) (r op : Nat) (f : List Byte → State → State)
    (hf : ∀ d, Canon (f d s).mem) : Canon (s.ringRun r op f).mem := by
  unfold State.ringRun
  split
  · split
    · split <;> simp [h, hf]
    · exact h
  · exact h

@[simp] theorem execRingNop_completes (s : State) (r : Fin 16) : Completes s (execRingNop r s) :=
  .of rfl fun h => by simp [h]

@[simp] theorem State.ringWrites_canon {s : State} (h : Canon s.mem) (d : List Byte) :
    Canon (s.ringWrites d).mem := by
  unfold State.ringWrites
  exact canon_foldl h fun s i hs => by simp [hs]

@[simp] theorem execRingRegWrite_completes (s : State) (r : Fin 16) : Completes s (execRingRegWrite r s) :=
  .after (fun h => by simp [h]) (State.stepCores_completes _)
@[simp] theorem State.ringReads_mem (s : State) (offs : List Nat) : (s.ringReads offs).2.mem = s.mem := by
  simp [State.ringReads]
@[simp] theorem execRingRegRead_completes (s : State) (r : Fin 16) : Completes s (execRingRegRead r s) :=
  .of rfl fun h => by simp [h]
@[simp] theorem State.ringCopy_canon {s : State} (h : Canon s.mem) (r : Nat) (d data : List Byte) :
    Canon (s.ringCopy r d data).mem := by
  simp [State.ringCopy, h]
@[simp] theorem execRingCopy_completes (s : State) (r : Fin 16) (data : List Byte) :
    Completes s (execRingCopy r data s) :=
  .of rfl fun h => by simp [h]
@[simp] theorem State.ringProofStart_mem (s : State) (r : Nat) : (s.ringProofStart r).mem = s.mem := by
  simp [State.ringProofStart]
@[simp] theorem execRingProof_completes (s : State) (r : Fin 16) : Completes s (execRingProof r s) :=
  .of rfl fun h => by simp [h]

@[simp] theorem State.ringPull_canon {s : State} (h : Canon s.mem) (r : Nat) (d : List Byte) :
    Canon (s.ringPull r d).mem := by
  simp only [State.ringPull, State.ringEnd_mem, State.pullCmd_mem]
  exact canon_foldl h fun s i hs => by simp [hs]

@[simp] theorem execRingPull_completes (s : State) (r : Fin 16) : Completes s (execRingPull r s) :=
  .of rfl fun h => by simp [h]
@[simp] theorem execRingDiscard_completes (s : State) (r : Fin 16) : Completes s (execRingDiscard r s) :=
  .of rfl fun h => by simp [h]
@[simp] theorem execRingMode_completes (s : State) (r : Fin 16) : Completes s (execRingMode r s) :=
  .of rfl fun h => by simp [h]

@[simp] theorem execRingSubmit_completes (s : State) (r : Fin 16) : Completes s (execRingSubmit r s) :=
  .of rfl fun h => State.ringRun_canon h _ _ _ fun d => by
    have hx := State.submit_canon h 24 ((fld d 24 1).testBit 0) (fld d 16 8)
    simp only
    split
    · rwa [State.ringEnd_mem]
    · rwa [State.ringEnd_mem]

@[simp] theorem execRingCancel_completes (s : State) (r : Fin 16) : Completes s (execRingCancel r s) :=
  .of rfl fun h => by simp [h]

@[simp] theorem State.ringComplete_mem (s : State) (r : Nat) (c : RingCmd) (e : Nat × Nat × List Byte) :
    (s.ringComplete r c e).mem = s.mem := by
  simp only [State.ringComplete]
  split <;> simp

@[simp] theorem execCommandComplete_completes (s : State) (r : Fin 16) (creditWait : BitVec 32) :
    Completes s (execCommandComplete r creditWait s) := .of rfl fun h => by
  simp only
  (repeat' split) <;> simp [h]

@[simp] theorem State.dmaFail_canon {s : State} (h : Canon s.mem) (r addr : Nat) (fetch write : Bool) :
    Canon (s.dmaFail r addr fetch write).mem := by
  simp [State.dmaFail, h]
@[simp] theorem execDmaError_completes (s : State) (r : Fin 16) (addr : BitVec 64) (fetch write : Bool) :
    Completes s (execDmaError r addr fetch write s) :=
  .of rfl fun h => by simp [h]
@[simp] theorem execDmaCompletionTimeout_completes (s : State) (r : Fin 16) (addr : BitVec 64) (fetch : Bool) :
    Completes s (execDmaCompletionTimeout r addr fetch s) :=
  .of rfl fun h => by simp [h]

/-! ### Machine/Snapshot -/

@[simp] theorem State.captureRead_mem (s : State) (offs : List Nat) : (s.captureRead offs).2.mem = s.mem := by
  simp [State.captureRead]
@[simp] theorem execSnapshotCaptureStart_completes (s : State) : Completes s (execSnapshotCaptureStart s) :=
    .of rfl fun h => by
  split <;> simp [h]
@[simp] theorem State.putSnap_mem (s : State) (c : Capture) : (s.putSnap c).mem = s.mem := by
  simp [State.putSnap]
@[simp] theorem execSnapshotRecordWritten_completes (s : State) : Completes s (execSnapshotRecordWritten s) :=
    .of rfl fun h => by
  split <;> simp [h]

/-! ### Every command and every step -/

/-- `exec` runs one function for each command, and the function's lemma says that it completes. -/
theorem exec_completes (c : Instr) (s : State) : Completes s (exec c s) := by
  cases c <;> simp [exec]

/-- A fabric cycle changes no byte; a command keeps the canonical form. -/
theorem step_completes (s : State) : Completes s (step s) := by
  rcases e : s.pending with _ | ⟨c, t⟩
  · refine .of (show step s = .next s.fabCycle by rw [step, e]) fun h => ?_
    rw [State.fabCycle_mem]
    exact h
  · have hs : step s = exec c { s with pending := t } := by rw [step, e]
    obtain ⟨u, eu, hu⟩ := exec_completes c { s with pending := t }
    exact .of (hs.trans eu) hu

/-- Settles O59, from the lemma of every function of the model that a step calls. -/
theorem memoryStaysCanonical : Obligations.MemoryStaysCanonical := by
  refine ⟨fun s t hs e => ?_, fun c s => ?_⟩
  · obtain ⟨u, eu, hu⟩ := step_completes s
    obtain rfl := Host.Outcome.next.inj (eu.symm.trans e)
    exact hu hs
  · obtain ⟨t, e, -⟩ := exec_completes c s
    exact ⟨t, e⟩


end Sys2Proof.Machine

/-! # Proofs: bus accesses (O32)

What a bus read and a bus write are in each region, what a plain register answers and takes, and the rows of the
registers that commands of their own read. -/

namespace Sys2Proof.Machine
open Sys2Proof.Safety

/-! ## What raising a fault does to the fault sets (R423) -/

/-- A field of another word than FAULT_STATUS is another field. -/
theorem fsStatus_key_ne {F w d : Nat} {e : Fld} (hlo : e.lo < 32) (h : e.off + d ≠ F) :
    e.key d ≠ (fsStatus F w).key 0 := by
  simp only [Fld.key, fsStatus]
  omega

/-- FAULT_STATUS stands at a multiple of 16 in every block's part of the windows. -/
theorem FBlk.F_mod (b : FBlk) : b.F % 16 = 0 := by
  cases b <;> simp [FBlk.F, dQuay, SYS_FS, BRN_FS, GRV_FS, DRF_FS, BCN_FS, TLY_FS, NET_PORT_FS, TID_FS, FBS_FS, MBS_FS,
    BTH_FS, MST_FS, LCK_FS, PAIR_FS, BKW_FS, LOG_FS, BST_FS, HST_FS, MEM_FS, PIO_FS, PWR_FS] <;> omega

/-- No block's FAULT_STATUS stands among the words of the host's pending vectors. -/
theorem FBlk.F_ne_pba (b : FBlk) {k : Nat} (hk : k < 8) : 0x1003000 + k ≠ b.F := by
  cases b <;> simp [FBlk.F, dQuay, SYS_FS, BRN_FS, GRV_FS, DRF_FS, BCN_FS, TLY_FS, NET_PORT_FS, TID_FS, FBS_FS, MBS_FS,
    BTH_FS, MST_FS, LCK_FS, PAIR_FS, BKW_FS, LOG_FS, BST_FS, HST_FS, MEM_FS, PIO_FS, PWR_FS] <;> omega

/-- No block's FAULT_STATUS is LOG_SNAP_STATUS. -/
theorem FBlk.F_ne_snap (b : FBlk) (d : Nat) : 0xF010F0 + 0x100 * d ≠ b.F := by
  cases b <;> simp [FBlk.F, dQuay, SYS_FS, BRN_FS, GRV_FS, DRF_FS, BCN_FS, TLY_FS, NET_PORT_FS, TID_FS, FBS_FS, MBS_FS,
    BTH_FS, MST_FS, LCK_FS, PAIR_FS, BKW_FS, LOG_FS, BST_FS, HST_FS, MEM_FS, PIO_FS, PWR_FS] <;> omega

section
variable (s : State)

theorem State.faultStatus_congr {s t : State} (h : t.regs = s.regs) (b : FBlk) : t.faultStatus b = s.faultStatus b :=
  State.g_congr h ..

theorem State.p_faultStatus {b : FBlk} {e : Fld} {d : Nat} (hlo : e.lo < 32) (h : e.off + d ≠ b.F) (v : Nat) :
    (s.p e d v).faultStatus b = s.faultStatus b :=
  s.g_p_ne _ _ _ _ _ (fsStatus_key_ne hlo h)

theorem State.hw_faultStatus {b : FBlk} {e : Fld} {d : Nat} (hlo : e.lo < 32) (h : e.off + d ≠ b.F) (v : Nat) :
    (s.hw e d v).faultStatus b = s.faultStatus b :=
  s.p_faultStatus hlo h _

theorem State.setBit_faultStatus {b : FBlk} {e : Fld} {d : Nat} (hlo : e.lo < 32) (h : e.off + d ≠ b.F)
    (i : Nat) (x : Bool) :
    (s.setBit e d i x).faultStatus b = s.faultStatus b := by
  rcases s.setBit_eq e d i x with h' | ⟨v, h'⟩
  · rw [h']
  · rw [h', s.p_faultStatus hlo h]

theorem State.putTime_faultStatus {b : FBlk} {e : Fld} {d : Nat} (hlo : e.lo < 32) (h0 : e.off + d ≠ b.F)
    (h4 : e.off + 4 + d ≠ b.F) (h8 : e.off + 8 + d ≠ b.F) (ns : Nat) :
    (s.putTime e d ns).faultStatus b = s.faultStatus b := by
  unfold State.putTime
  rw [State.p_faultStatus _ (by simp [timeHi]) h8, State.p_faultStatus _ (by simp [timeLo]) h4, s.p_faultStatus hlo h0]

/-- Delivery to the host writes no fault set. -/
@[simp] theorem State.hostDeliver_faultStatus (b : FBlk) (src : Nat) :
    (s.hostDeliver src).faultStatus b = s.faultStatus b := by
  unfold State.hostDeliver
  split
  · have hv := s.g_lt MST_SRC_CFG_HOST_VEC (dSrc src)
    unfold State.msixSend
    split
    · refine s.setBit_faultStatus (by decide) (b.F_ne_pba ?_) _ _
      simp only [MST_SRC_CFG_HOST_VEC] at hv ⊢
      omega
    · rfl
  · rfl

@[simp] theorem State.releaseEvents_faultStatus (b : FBlk) (src : Nat) :
    (s.releaseEvents src).faultStatus b = s.faultStatus b := by
  unfold State.releaseEvents
  refine foldl_keep _ (fun s : State => s.faultStatus b) (fun s i => ?_) _ s
  simp only
  split
  · unfold State.eventRelease
    split
    · simp only
      split
      · refine s.p_faultStatus (by decide) ?_ _
        have := b.F_mod
        simp only [BRN_EVT_STATS_LOST, dEvt]
        omega
      · rfl
    · rfl
  · rfl

@[simp] theorem State.setLevel_faultStatus (b : FBlk) (src : Nat) (x : Bool) :
    (s.setLevel src x).faultStatus b = s.faultStatus b := by
  have h (v : Nat) : (s.p MST_SRC_STATE_LEVEL (dSrc src) v).faultStatus b = s.faultStatus b := by
    refine s.p_faultStatus (by decide) ?_ v
    have := b.F_mod
    simp only [MST_SRC_STATE_LEVEL, dSrc]
    omega
  unfold State.setLevel
  split
  · rfl
  · simp only
    split
    · rw [State.releaseEvents_faultStatus, State.hostDeliver_faultStatus, h]
    · exact h _

@[simp] theorem State.snapFire_faultStatus (b : FBlk) (fires : Nat → Bool) (arg : Nat) :
    (s.snapFire fires arg).faultStatus b = s.faultStatus b := by
  unfold State.snapFire
  split
  · refine foldl_keep _ (fun s : State => s.faultStatus b) (fun s d => ?_) _ s
    simp only
    split
    · split
      · exact s.p_faultStatus (by decide) (b.F_ne_snap d) _
      · rfl
    · rfl
  · rfl

/-- The capture of a block's first fault writes only the words after FAULT_STATUS. -/
theorem State.capture1_faultStatus {b c : FBlk} (h : ∀ k, 0 < k → k < 0x28 → c.F + k ≠ b.F) (fbit : Nat)
    (acc : Option Access) (detail : Nat) : (s.capture1 c fbit acc detail).faultStatus b = s.faultStatus b := by
  have hC := h 0xC (by decide) (by decide)
  have h10 := h 0x10 (by decide) (by decide)
  have h14 := h 0x14 (by decide) (by decide)
  have h18 := h 0x18 (by decide) (by decide)
  have h1C := h 0x1C (by decide) (by decide)
  have h20 := h 0x20 (by decide) (by decide)
  unfold State.capture1
  split
  · rfl
  · simp only
    rw [State.putTime_faultStatus _ (by simp [fsTimeNs]) h18 h1C h20]
    split <;>
      rw [State.p_faultStatus _ (by simp [fsAddrHi]) h14, State.p_faultStatus _ (by simp [fsAddrLo]) h10,
        State.p_faultStatus _ (by simp [fsAccess]) hC, State.p_faultStatus _ (by simp [fsMaster]) hC,
        State.p_faultStatus _ (by simp [fsHasAccess]) hC, State.p_faultStatus _ (by simp [fsDetail]) hC,
        State.p_faultStatus _ (by simp [fsBit]) hC, State.hw_faultStatus _ (by simp [fsValid]) hC]

/-- A raised fault writes its block's FAULT_STATUS as `hw` does, and no other. -/
theorem State.raise_faultStatus {b c : FBlk} (h : ∀ k, 0 < k → k < 0x28 → c.F + k ≠ b.F) (fbit : Nat)
    (acc : Option Access) (detail : Nat) (inj : Bool) :
    (s.raise c fbit acc detail inj).faultStatus b = (s.hw (fsStatus c.F c.width) 0 (2 ^ fbit)).faultStatus b := by
  have h24 := h 0x24 (by decide) (by decide)
  have hr (t : State) (r : List (Nat × Nat × Bool)) (p : Bool) :
      (if p then { t with reactions := r } else t).faultStatus b = t.faultStatus b := by
    split <;> rfl
  unfold State.raise
  rw [hr]
  have hs : (((s.hw (fsStatus c.F c.width) 0 (2 ^ fbit)).incSat (fsCount c.F) 0).capture1 c fbit acc detail
      |>.faultLevel c).faultStatus b = (s.hw (fsStatus c.F c.width) 0 (2 ^ fbit)).faultStatus b := by
    unfold State.faultLevel
    rw [State.setLevel_faultStatus, State.capture1_faultStatus _ h]
    exact State.p_faultStatus _ (by simp [fsCount]) h24 _
  split
  · rw [State.snapFire_faultStatus, hs]
  · exact hs

/-- A raised fault sets its bit. -/
theorem State.raise_testBit (b : FBlk) {fbit : Nat} (hb : fbit < b.width) (acc : Option Access) (detail : Nat)
    (inj : Bool) : ((s.raise b fbit acc detail inj).faultStatus b).testBit fbit = true := by
  rw [s.raise_faultStatus (fun k hk _ => by omega)]
  unfold State.faultStatus State.hw
  show ((s.p _ _ _).g _ _).testBit fbit = true
  rw [State.g_p_same, Nat.testBit_mod_two_pow]
  simp [hb, fsStatus]

/-- A raised fault changes no bit of another block's FAULT_STATUS. -/
theorem State.raise_faultStatus_ne {b c : FBlk} (h : ∀ k, k < 0x28 → c.F + k ≠ b.F) (fbit : Nat) (acc : Option Access)
    (detail : Nat) (inj : Bool) : (s.raise c fbit acc detail inj).faultStatus b = s.faultStatus b := by
  rw [s.raise_faultStatus fun k _ => h k]
  exact s.hw_faultStatus (by simp [fsStatus]) (h 0 (by decide)) _

/-! ## Error responses (R7, R461) -/

@[simp] theorem State.busError_cores (addr master kind : Nat) : (s.busError addr master kind).cores = s.cores := by
  rw [State.busError, State.answer_cores, State.raise_cores]

/-- R7: a recorded error response sets BUS_ERR of SYS. -/
theorem State.busError_testBit (addr master kind : Nat) :
    ((s.busError addr master kind).faultStatus .sys).testBit SYS_BUS_ERR = true :=
  s.raise_testBit .sys (by decide) _ _ _

theorem State.errResp_of_ne {master : Nat} (h : master ≠ 24) (a kind : Nat) :
    s.errResp a master kind = s.answer false 0 :=
  if_neg h

theorem State.errResp_24 (a kind : Nat) : s.errResp a 24 kind = s.busError a 24 kind := if_pos rfl

/-- What an error response leaves: the answer, no change of the memories and the cores, and for master 24 the record. -/
structure Refused (master : Nat) (s t : State) : Prop where
  resp : t.resp = ⟨false, 0⟩
  mem : t.mem = s.mem
  cores : t.cores = s.cores
  recorded : master = 24 → (t.faultStatus .sys).testBit SYS_BUS_ERR = true

theorem State.busError_refused (a master kind : Nat) : Refused master s (s.busError a master kind) :=
  ⟨rfl, s.busError_mem .., s.busError_cores .., fun _ => s.busError_testBit ..⟩

theorem State.errResp_refused (a master kind : Nat) : Refused master s (s.errResp a master kind) := by
  by_cases h : master = 24
  · subst h
    rw [State.errResp_24]
    exact s.busError_refused ..
  · rw [s.errResp_of_ne h]
    exact ⟨rfl, rfl, rfl, fun e => absurd e h⟩

theorem Refused.trans {master : Nat} {s t u : State} (h : Refused master t u) (hm : t.mem = s.mem)
    (hc : t.cores = s.cores) : Refused master s u :=
  ⟨h.resp, h.mem.trans hm, h.cores.trans hc, h.recorded⟩

/-- An error response answered is answered again alike. -/
theorem Refused.answer {master : Nat} {s t : State} (h : Refused master s t) : Refused master s (t.answer false 0) :=
  ⟨rfl, h.mem, h.cores, h.recorded⟩

/-! ## The regions (R18, R19) -/

theorem inWindow_iff {x n : Nat} : inWindow x n = true ↔ winBase ≤ x ∧ x + n ≤ winBase + winEnd := by simp [inWindow]
theorem inSram_iff {x n : Nat} : inSram x n = true ↔ sramBase ≤ x ∧ x + n ≤ sramEnd := by simp [inSram]
theorem State.inDdr_iff {x n : Nat} : s.inDdr x n = true ↔ ddrBase ≤ x ∧ x + n ≤ ddrBase + s.ddrSize := by
  simp [State.inDdr]
theorem inMram_iff {x n : Nat} : inMram x n = true ↔ mramBase ≤ x ∧ x + n ≤ mramEnd := by simp [inMram]
theorem inRom_iff {x n : Nat} : inRom x n = true ↔ x + n ≤ 0x10000 := by simp [inRom]

theorem State.ddrSize_le : s.ddrSize ≤ 2 ^ 36 := min_le_left _ _

/-- Shared SRAM and the installed DDR lie outside the windows, and apart. -/
theorem inWindow_of_inSram {x n : Nat} (h : inSram x n = true) : inWindow x n = false := by
  rw [← Bool.not_eq_true, inWindow_iff]
  rw [inSram_iff] at h
  simp only [sramBase, sramEnd, winBase, winEnd] at h ⊢
  omega

theorem State.inWindow_of_inDdr {x n : Nat} (hn : 0 < n) (h : s.inDdr x n = true) : inWindow x n = false := by
  have := s.ddrSize_le
  rw [← Bool.not_eq_true, inWindow_iff]
  rw [State.inDdr_iff] at h
  simp only [ddrBase, winBase, winEnd] at h ⊢
  omega

theorem State.inSram_of_inDdr {x n : Nat} (hn : 0 < n) (h : s.inDdr x n = true) : inSram x n = false := by
  rw [← Bool.not_eq_true, inSram_iff]
  rw [State.inDdr_iff] at h
  simp only [ddrBase, sramBase, sramEnd] at h ⊢
  omega

/-- MRAM and the ROM lie outside the windows, shared SRAM and DDR. -/
theorem State.outside_of_inMram_or_inRom {x n : Nat} (hn : 0 < n) (h : inMram x n = true ∨ inRom x n = true) :
    inWindow x n = false ∧ inSram x n = false ∧ s.inDdr x n = false := by
  rw [← Bool.not_eq_true, ← Bool.not_eq_true, ← Bool.not_eq_true, inWindow_iff, inSram_iff, State.inDdr_iff]
  rw [inMram_iff, inRom_iff] at h
  simp only [ddrBase, winBase, winEnd, sramBase, sramEnd, mramBase, mramEnd] at h ⊢
  omega

theorem bytes_pos (size : AccSize) : 0 < size.bytes := by cases size <;> decide

/-! ## Accesses of memory (R18, R469, R473) -/

/-- No core stepping, a register write is the bus write answered. -/
theorem stepAll_of_not_stepping (l : List (Fin 24)) (h : ∀ c, (s.core c).stepping = false) : stepAll l s = .next s := by
  induction l with
  | nil => rfl
  | cons c t ih =>
    have hc : s.stepCore c = .next s := by simp [State.stepCore, h]
    simp only [stepAll, hc, ih]

/-- The register write of a bus write that leaves the cores as they were. -/
theorem exec_registerWrite {s : State} {m : Fin 42} {a : Addr} {size : AccSize} {v : BitVec 256} {t : State}
    (hs : ∀ c, (s.core c).stepping = false)
    (e : answerWrite (s.busWrite m.val a.toNat size.bytes (v.toNat % 2 ^ (8 * size.bytes))) = t)
    (hc : t.cores = s.cores) : exec (.registerWrite m a size v) s = .next t := by
  have h : ∀ c, (t.core c).stepping = false := fun c => by
    unfold State.core
    rw [hc]
    exact hs c
  show State.stepCores _ = _
  rw [e]
  exact stepAll_of_not_stepping _ _ h

theorem answerRead_some (v : Nat) (t : State) : answerRead (some v, t) = t.answer true v := (rfl)
theorem answerRead_none (t : State) : answerRead (none, t) = t.answer false 0 := (rfl)
theorem answerWrite_true (t : State) : answerWrite (true, t) = t.answer true 0 := (rfl)
theorem answerWrite_false (t : State) : answerWrite (false, t) = t.answer false 0 := (rfl)

theorem exec_wideReadCapture (m : Fin 42) (a : Addr) (size : AccSize) :
    exec (.wideReadCapture m a size) s = .next (answerRead (s.busRead m.val a.toNat size.bytes)) := (rfl)

theorem length_leBytes (n v : Nat) : (leBytes n v).length = n := by
  induction n generalizing v with
  | zero => rfl
  | succ n ih => simp [leBytes, ih]

/-- The little-endian number of a value's low `n` bytes. -/
theorem leNat_of_leBytes (n v : Nat) : leNat (leBytes n v) = v % 2 ^ (8 * n) := by
  induction n generalizing v with
  | zero => simp [leBytes, leNat, Nat.mod_one]
  | succ n ih =>
    rw [leBytes, leNat, ih, show 8 * (n + 1) = 8 + 8 * n by omega, Nat.pow_add, Nat.mod_mul]
    simp

/-- What a write of `n` bytes reads back as. -/
theorem State.rle_wle (a n v : Nat) : (s.wle a n v).rle a n = v % 2 ^ (8 * n) := by
  have h := State.rbs_wbs_same (leBytes n v) s a
  rw [length_leBytes] at h
  rw [State.rle, State.wle, h, leNat_of_leBytes]

/-- RAM that a master reaches: shared SRAM, and DDR that is ready or that it initialises (R468, R476). -/
def State.RamOf (s : State) (master x n : Nat) : Prop :=
  inSram x n = true ∨ (inSram x n = false ∧ s.inDdr x n = true ∧ (s.ddrReady = true ∨ master = 32 ∨ master = 33))

section
variable {s}
variable {master x n : Nat}

theorem State.RamOf.inWindow (h : s.RamOf master x n) (hn : 0 < n) : inWindow x n = false := by
  rcases h with h | ⟨-, h, -⟩
  · exact inWindow_of_inSram h
  · exact s.inWindow_of_inDdr hn h

theorem State.ddrOpen_iff : s.ddrOpen master = true ↔ s.ddrReady = true ∨ master = 32 ∨ master = 33 := by
  simp [State.ddrOpen, or_assoc]

theorem State.busRead_of_ramOf (hr : s.inReset = false) (hn : 0 < n) (h : s.RamOf master x n) :
    s.busRead master x n = s.ramRead master x n := by
  unfold State.busRead
  rcases h with hs | ⟨hs, hd, ho⟩
  · simp [hr, inWindow_of_inSram hs, hs]
  · simp [hr, s.inWindow_of_inDdr hn hd, hs, hd, State.ddrOpen_iff.mpr ho]

theorem State.busWrite_of_ramOf (hr : s.inReset = false) (hn : 0 < n) (h : s.RamOf master x n) (v : Nat) :
    s.busWrite master x n v =
      if s.campGuard master x n then (false, s.errResp x master 2) else (true, (s.wle x n v).eccWritten x n) := by
  unfold State.busWrite
  rcases h with hs | ⟨hs, hd, ho⟩
  · simp [hr, inWindow_of_inSram hs, hs]
  · simp [hr, s.inWindow_of_inDdr hn hd, hs, hd, State.ddrOpen_iff.mpr ho]

/-- DDR that is not ready answers every other master with an error response. -/
theorem State.bus_of_ddr_closed (hr : s.inReset = false) (hn : 0 < n) (hd : s.inDdr x n = true) (hc : s.ddrReady = false)
    (h32 : master ≠ 32) (h33 : master ≠ 33) (v : Nat) :
    s.busRead master x n = (none, s.errResp x master 1) ∧ s.busWrite master x n v = (false, s.errResp x master 2) := by
  have ho : s.ddrOpen master = false := by simp [State.ddrOpen, hc, h32, h33]
  simp [State.busRead, State.busWrite, hr, s.inWindow_of_inDdr hn hd, s.inSram_of_inDdr hn hd, hd, ho]

theorem State.busWrite_of_inMram_or_inRom (hr : s.inReset = false) (hn : 0 < n) (h : inMram x n = true ∨ inRom x n = true)
    (v : Nat) : s.busWrite master x n v = (false, s.errResp x master 2) := by
  obtain ⟨hw, hs, hd⟩ := s.outside_of_inMram_or_inRom hn h
  have hm : (inMram x n || inRom x n) = true := by simpa using h
  simp [State.busWrite, hr, hw, hs, hd, hm]

/-- An address outside every region. -/
theorem State.bus_outside (hr : s.inReset = false) (hw : inWindow x n = false) (hs : inSram x n = false)
    (hd : s.inDdr x n = false) (hm : inMram x n = false) (ho : inRom x n = false) (v : Nat) :
    s.busRead master x n = (none, s.busError x master 1) ∧ s.busWrite master x n v = (false, s.busError x master 2) := by
  simp [State.busRead, State.busWrite, hr, hw, hs, hd, hm, ho]

/-- A read of RAM in which an uncorrectable error stands is refused and raises ECC_UNCORR. -/
theorem State.ramRead_of_eccUncorr (h : s.eccUncorr x n = true) : ∃ t, s.ramRead master x n = (none, t) ∧
    Refused master s t ∧ (t.faultStatus .mem).testBit MEM_ECC_UNCORR = true := by
  have hm := s.raise_testBit .mem (fbit := MEM_ECC_UNCORR) (by decide) (some ⟨x, master, 1⟩) 0 false
  refine ⟨(s.memUncorr x master).errResp x master 1, by simp [State.ramRead, h], ?_, ?_⟩
  · exact ((s.memUncorr x master).errResp_refused x master 1).trans (State.raise_mem ..) (State.raise_cores ..)
  · by_cases h24 : master = 24
    · subst h24
      rw [State.errResp_24]
      show ((State.raise _ .sys _ _ _ _).faultStatus .mem).testBit _ = true
      rw [State.raise_faultStatus_ne]
      · exact hm
      · intro k hk
        simp only [FBlk.F, SYS_FS, MEM_FS]
        omega
    · rw [State.errResp_of_ne _ h24]
      exact hm

end

/-- A refused read, and a refused write, as the commands answer them. -/
theorem exec_read_refused {s t : State} {m : Fin 42} {a : Addr} {size : AccSize}
    (e : s.busRead m.val a.toNat size.bytes = (none, t)) (h : Refused m.val s t) :
    ∃ u, exec (.wideReadCapture m a size) s = .next u ∧ Refused m.val s u ∧ u.regs = t.regs := by
  refine ⟨t.answer false 0, ?_, h.answer, rfl⟩
  rw [exec_wideReadCapture, e]
  rfl

theorem exec_write_refused {s t : State} {m : Fin 42} {a : Addr} {size : AccSize} {v : BitVec 256}
    (hs : ∀ c, (s.core c).stepping = false)
    (e : s.busWrite m.val a.toNat size.bytes (v.toNat % 2 ^ (8 * size.bytes)) = (false, t)) (h : Refused m.val s t) :
    ∃ u, exec (.registerWrite m a size v) s = .next u ∧ Refused m.val s u ∧ u.regs = t.regs := by
  refine ⟨t.answer false 0, exec_registerWrite hs ?_ h.cores, h.answer, rfl⟩
  rw [e]
  rfl

/-! ## Accesses of the register windows (R5, R7 to R9) -/

section
variable {s}
variable {master x n : Nat}

theorem State.busRead_of_winRead (hr : s.inReset = false) (hw : inWindow x n = true) {v : Nat} {t : State}
    (e : s.winRead master (x - winBase) n = some (v, t)) : s.busRead master x n = (some v, t) := by
  rw [State.busRead, if_neg (by simp [hr]), if_pos hw, e]

theorem State.busRead_of_winRead_none (hr : s.inReset = false) (hw : inWindow x n = true)
    (e : s.winRead master (x - winBase) n = none) : s.busRead master x n = (none, s.errResp x master 1) := by
  rw [State.busRead, if_neg (by simp [hr]), if_pos hw, e]

theorem State.busWrite_of_winWrite (hr : s.inReset = false) (hw : inWindow x n = true) {v : Nat} {t : State}
    (e : s.winWrite master (x - winBase) n v = some t) : s.busWrite master x n v = (true, t) := by
  rw [State.busWrite, if_neg (by simp [hr]), if_pos hw, e]

theorem State.busWrite_of_winWrite_none (hr : s.inReset = false) (hw : inWindow x n = true) {v : Nat}
    (e : s.winWrite master (x - winBase) n v = none) : s.busWrite master x n v = (false, s.errResp x master 2) := by
  rw [State.busWrite, if_neg (by simp [hr]), if_pos hw, e]

/-- A width other than 4 or 8, and a misaligned access, are refused among the registers (R5). -/
theorem State.win_misfit {o : Nat} (hp : placeOf o = .regs) (h : (n ≠ 4 ∧ n ≠ 8) ∨ o % n ≠ 0) (v : Nat) :
    s.winRead master o n = none ∧ s.winWrite master o n v = none := by
  have hk : placeOk .regs o n = false := by
    rw [← Bool.not_eq_true]
    simp [placeOk]
    omega
  simp [State.winRead, State.winWrite, hp, hk]

theorem placeOk_word {o : Nat} (h : o % 4 = 0) : placeOk .regs o 4 = true := by simp [placeOk, h]

theorem State.winRead_word {o : Nat} (hp : placeOf o = .regs) (hm : reaches master o = true) (ho : o % 4 = 0) :
    s.winRead master o 4 = s.winReg master o 4 := by
  simp [State.winRead, hp, hm, placeOk_word ho]

/-- An unimplemented offset reads 0 and ignores a write. -/
theorem State.win_unimplemented {o : Nat} (hp : placeOf o = .regs) (hm : reaches master o = true) (ho : o % 4 = 0)
    (hf : findReg o regTable = none) (v : Nat) :
    s.winRead master o 4 = some (0, s) ∧ s.winWrite master o 4 v = some s := by
  simp [State.winRead, State.winWrite, State.winReg, hp, hm, placeOk_word ho, hf]

theorem State.winReg_unimplemented {o : Nat} (hf : findReg o regTable = none) : s.winReg master o 4 = some (0, s) := by
  simp [State.winReg, hf]

theorem State.winReg_word {o d : Nat} {r : Reg} (hf : findReg o regTable = some (r, d)) :
    s.winReg master o 4 = some (s.regRead master o 4 r d) := by
  simp [State.winReg, hf]

theorem State.winWrite_word {o d : Nat} {r : Reg} (hp : placeOf o = .regs) (hm : reaches master o = true) (ho : o % 4 = 0)
    (hf : findReg o regTable = some (r, d)) (v : Nat) : s.winWrite master o 4 v = some (s.regWrite master o 4 v r d) := by
  simp [State.winWrite, hp, hm, placeOk_word ho, hf]

/-- A read of a one-word register whose read does not act: its value, and the words after it captured. -/
theorem State.regRead_plain {r : Reg} {d : Nat} (hw : r.words = 1) (hh : AMap.find readHooks r.off = none) :
    s.regRead master (r.off + d) 4 r d = (AMap.get (s.regValue r d) s.capture (r.off + d),
      s.captureWords (r.off + d) (wideWords r (wordOf4 r (r.off + d)))) := by
  simp [State.regRead, hh, hw]

/-- Where two words make the value, the second is captured. -/
theorem State.captureWords_two (s : State) (o : Nat) :
    AMap.find (s.captureWords o 2).capture (o + 4) = some (s.wordAt (o + 4)) := by
  simp [State.captureWords, AMap.find_ins_same]

theorem wideWords_two {r : Reg} {i : Nat} (h : r.wide = 2) (hp : progOffs.contains r.off = false) :
    wideWords r i = 2 := by
  rw [wideWords, h, hp]
  rfl

end

/-! ## The write of a plain register (R9) -/

section
variable {s}

theorem State.putFld_mem_cores (s : State) (locked : Bool) (d v : Nat) (f : Fld) :
    (s.putFld locked d v f).mem = s.mem ∧ (s.putFld locked d v f).cores = s.cores := by
  unfold State.putFld
  simp only
  split
  · split <;> exact ⟨rfl, rfl⟩
  all_goals exact ⟨rfl, rfl⟩

/-- A field's write changes no field of another key. -/
theorem State.putFld_g_ne (s : State) (locked : Bool) {d v : Nat} {f e : Fld} {d' : Nat} (h : f.key d ≠ e.key d') :
    (s.putFld locked d v f).g e d' = s.g e d' := by
  unfold State.putFld
  simp only
  split
  · split
    · rfl
    · exact s.g_p_ne _ _ _ _ _ h
  · exact s.g_p_ne _ _ _ _ _ h
  · exact s.g_p_ne _ _ _ _ _ h
  all_goals rfl

/-- A read-write field takes its bits, brought into range. -/
theorem State.putFld_rw (s : State) {f : Fld} (h : f.acc = .rw) (d v : Nat) :
    (s.putFld false d v f).g f d = clampFld f (bits v f.lo f.w) % 2 ^ f.w := by
  simp [State.putFld, h]

/-- A field that software cannot write stays. -/
theorem State.putFld_of_ro_or_wo (s : State) (locked : Bool) {f : Fld} (h : f.acc = .ro ∨ f.acc = .wo) (d v : Nat) :
    s.putFld locked d v f = s := by
  rcases h with h | h <;> simp [State.putFld, h]

theorem State.foldl_putFld_mem_cores (l : List Fld) (s : State) (d v : Nat) :
    (l.foldl (fun s f => s.putFld false d v f) s).mem = s.mem ∧
      (l.foldl (fun s f => s.putFld false d v f) s).cores = s.cores :=
  ⟨foldl_keep _ State.mem (fun s f => (s.putFld_mem_cores false d v f).1) l s,
    foldl_keep _ State.cores (fun s f => (s.putFld_mem_cores false d v f).2) l s⟩

theorem State.foldl_putFld_g_ne (l : List Fld) (s : State) {d v d' : Nat} {e : Fld} (h : e.key d' ∉ l.map (·.key d)) :
    (l.foldl (fun s f => s.putFld false d v f) s).g e d' = s.g e d' := by
  induction l generalizing s with
  | nil => rfl
  | cons f l ih =>
    simp only [List.map_cons, List.mem_cons, not_or] at h
    rw [List.foldl_cons, ih _ h.2, s.putFld_g_ne false (Ne.symm h.1)]

/-- A field of the list reads as its own write left it, the keys being distinct. -/
theorem State.foldl_putFld_g_mem (l : List Fld) (s : State) {d v : Nat} {f : Fld} (hf : f ∈ l)
    (hn : (l.map (·.key d)).Nodup) :
    ∃ t : State, t.g f d = s.g f d ∧
      (l.foldl (fun s f => s.putFld false d v f) s).g f d = (t.putFld false d v f).g f d := by
  induction l generalizing s with
  | nil => exact absurd hf (by simp)
  | cons e l ih =>
    obtain ⟨he, hl⟩ := List.nodup_cons.mp hn
    rw [List.foldl_cons]
    by_cases hfl : f ∈ l
    · obtain ⟨t, ht, e'⟩ := ih (s.putFld false d v e) hfl hl
      have hk : e.key d ≠ f.key d := fun h => he (List.mem_map.mpr ⟨f, hfl, h.symm⟩)
      exact ⟨t, ht.trans (s.putFld_g_ne false hk), e'⟩
    · obtain rfl : f = e := by simpa [hfl] using hf
      exact ⟨s, rfl, State.foldl_putFld_g_ne l _ he⟩

/-- What makes the write of a register plain: one word, no fault set, ENABLE, staged field or effect of its own, and
nothing that refuses it. -/
structure PlainWrite (s : State) (r : Reg) (d : Nat) : Prop where
  words : r.words = 1
  wide : r.wide ≤ 1
  higher : higherWord (r.off + d) = false
  fault : faultAt (r.off + d) = none
  hook : AMap.find writeHooks r.off = none
  enable : enAt (r.off + d) = none
  isOpen : s.regOpen r d = true
  unlocked : s.regLocked r d = false
  staged : r.ps = []

/-- A plain write puts each field by its access code; of the words held for wide values it forgets none of the others. -/
theorem PlainWrite.regWrite_eq {r : Reg} {d : Nat} (h : PlainWrite s r d) (master v : Nat) :
    s.regWrite master (r.off + d) 4 v r d =
      r.flds.foldl (fun s f => s.putFld false d v f) (s.dropHeld (r.off + d) 1) := by
  have hw : max r.wide 1 = 1 := max_eq_right h.wide
  have ho : (s.dropHeld (r.off + d) 1).regOpen r d = true := h.isOpen
  have hl : (s.dropHeld (r.off + d) 1).regLocked r d = false := h.unlocked
  simp [State.regWrite, h.words, h.higher, hw, State.writeHeld, State.regWriteAll, h.fault, h.hook, State.regPut, ho, hl,
    h.enable, h.staged, State.writeEnable]

end

/-! ## The rows that name one register (R58, R81, R278, R287, R328, R359) -/

/-- A read that acts without a value of its own answers the register's. -/
theorem State.regRead_acting {master d : Nat} {r : Reg} {f : Nat → Nat → State → Option Nat × State} (hw : r.words = 1)
    (hh : AMap.find readHooks r.off = some f) (hn : (f master d s).1 = none) :
    s.regRead master (r.off + d) 4 r d = (AMap.get (s.regValue r d) s.capture (r.off + d),
      (f master d s).2.captureWords (r.off + d) (wideWords r (wordOf4 r (r.off + d)))) := by
  simp [State.regRead, hh, hw, hn]

/-- SYS_ID, at the windows' first offset. -/
def regSysId : Reg := ⟨"SYS_ID", 0x0, 1, 0, [], [SYS_ID_PART, SYS_ID_MAJOR, SYS_ID_MINOR]⟩

theorem findReg_sysId : findReg 0 regTable = some (regSysId, 0) := by decide

theorem State.regValue_sysId :
    s.regValue regSysId 0 = s.g SYS_ID_PART * 2 ^ 16 + s.g SYS_ID_MAJOR * 2 ^ 12 + s.g SYS_ID_MINOR * 2 ^ 8 := by
  have hv : AMap.find regViews regSysId.off = none := by decide
  simp only [State.regValue, hv]
  simp [regSysId, State.fldRead, SYS_ID_PART, SYS_ID_MAJOR, SYS_ID_MINOR, Nat.add_assoc]

theorem State.winRead_sysId (master : Nat) :
    s.winRead master 0 4 = some (AMap.get (s.regValue regSysId 0) s.capture 0, (s.idRead master).captureWords 0 1) := by
  have hh : AMap.find readHooks regSysId.off = some fun m _ s => (none, s.idRead m) := rfl
  have hb : reaches master 0 = true := by
    have : bthOwner 0 = none := by decide
    simp [reaches, this]
  rw [State.winRead_word (by decide) hb (by decide), State.winReg_word findReg_sysId]
  exact congrArg some (s.regRead_acting (master := master) (d := 0) (r := regSysId) rfl hh rfl)

theorem State.idRead_mem_cores (master : Nat) : (s.idRead master).mem = s.mem ∧ (s.idRead master).cores = s.cores := by
  unfold State.idRead
  split <;> exact ⟨rfl, rfl⟩

theorem State.idRead_on (master : Nat) :
    (s.idRead master).on SYS_MODE_ID_SEEN = (s.on SYS_MODE_ID_SEEN || master == 24 || master == 25) := by
  unfold State.idRead
  split
  · next h =>
    rw [s.on_p_one _ _ (by decide)]
    rcases h with rfl | rfl
    · simp
    · simp
  · next h =>
    rw [not_or] at h
    rw [beq_false_of_ne h.1, beq_false_of_ne h.2, Bool.or_false, Bool.or_false]

theorem sysIdRead_spec (m : Fin 42) (hr : s.inReset = false) :
    ∃ t, exec (.sysIdRead m) s = .next t ∧ (t.mem = s.mem ∧ t.cores = s.cores) ∧
      t.on SYS_MODE_ID_SEEN = (s.on SYS_MODE_ID_SEEN || m.val == 24 || m.val == 25) ∧
      (AMap.find s.capture 0 = none →
        t.resp = ⟨true, s.g SYS_ID_PART * 2 ^ 16 + s.g SYS_ID_MAJOR * 2 ^ 12 + s.g SYS_ID_MINOR * 2 ^ 8⟩) := by
  have hb : s.busRead m.val winBase 4 =
      (some (AMap.get (s.regValue regSysId 0) s.capture 0), (s.idRead m.val).captureWords 0 1) :=
    State.busRead_of_winRead hr (by decide) (by rw [Nat.sub_self, s.winRead_sysId])
  refine ⟨answerRead (s.busRead m.val winBase 4), rfl, ?_, ?_, fun hc => ?_⟩
  · rw [hb]
    exact s.idRead_mem_cores m.val
  · rw [hb]
    exact s.idRead_on m.val
  · rw [hb, s.regValue_sysId]
    simp [answerRead, State.answer, AMap.get, hc]

/-- The PROG_PERMYRIAD of each set is, in every unit of its bank, a register of one word whose read does not act. -/
theorem findReg_prog (k : Fin 7) (i : Fin 8) :
    let o := progOffs.getD k.val 0 + if k.val = 0 then dQuay (i.val % 6) else if k.val = 2 then dCamp i.val else 0
    placeOf o = .regs ∧ bthOwner o = none ∧ o % 4 = 0 ∧ o < winEnd - 4 ∧ ((findReg o regTable).all fun x =>
      x.1.off + x.2 == o && x.1.words == 1 && (AMap.find readHooks x.1.off).isNone) = true := by
  revert k i
  decide +kernel

theorem winBase_window {o n : Nat} (h : o + n ≤ winEnd) : inWindow (winBase + o) n = true := by
  rw [inWindow_iff]
  omega

theorem progRead_spec (k : Fin 7) (i : Fin 8) (hr : s.inReset = false) :
    ∃ y : Addr, exec (.progRead k i) s = exec (.wideReadCapture 24 y .b4) s ∧
      y.toNat = winBase + progOffs.getD k.val 0 +
        (if k.val = 0 then dQuay (i.val % 6) else if k.val = 2 then dCamp i.val else 0) ∧
      ∃ t, exec (.progRead k i) s = .next t ∧ t.mem = s.mem ∧ t.cores = s.cores := by
  obtain ⟨hp, hb, h4, hlt, hf⟩ := findReg_prog k i
  have e : exec (.progRead k i) s = .next (answerRead (s.busRead 24 (winBase + progOffs.getD k.val 0 +
      if k.val = 0 then dQuay (i.val % 6) else if k.val = 2 then dCamp i.val else 0) 4)) := rfl
  rw [e, Nat.add_assoc]
  generalize (progOffs.getD k.val 0 + if k.val = 0 then dQuay (i.val % 6) else if k.val = 2 then dCamp i.val else 0) = o
    at hp hb h4 hlt hf
  have ho : o + 4 ≤ winEnd := by omega
  have hy : (BitVec.ofNat 40 (winBase + o)).toNat = winBase + o := by
    rw [BitVec.toNat_ofNat, Nat.mod_eq_of_lt]
    simp only [winBase, winEnd] at ho ⊢
    omega
  refine ⟨BitVec.ofNat 40 (winBase + o), ?_, hy, _, rfl, ?_⟩
  · rw [exec_wideReadCapture, hy]
    rfl
  · have hm : reaches 24 o = true := by rw [reaches, hb]
    have hg : ∃ v t, s.winReg 24 o 4 = some (v, t) ∧ t.mem = s.mem ∧ t.cores = s.cores := by
      rcases e : findReg o regTable with _ | ⟨r, d⟩
      · exact ⟨_, _, s.winReg_unimplemented e, rfl, rfl⟩
      · rw [e] at hf
        simp only [Option.all_some, Bool.and_eq_true, beq_iff_eq, Option.isNone_iff_eq_none] at hf
        obtain ⟨⟨rfl, hw⟩, hh⟩ := hf
        exact ⟨_, _, (State.winReg_word e).trans (congrArg some (State.regRead_plain hw hh)), rfl, rfl⟩
    obtain ⟨v, t, e, hmem, hcores⟩ := hg
    have er : s.winRead 24 (winBase + o - winBase) 4 = some (v, t) := by
      rw [Nat.add_sub_cancel_left, State.winRead_word hp hm h4, e]
    rw [State.busRead_of_winRead hr (winBase_window ho) er]
    exact ⟨hmem, hcores⟩

theorem State.query_of_not_inReset (f : State → State) (hr : s.inReset = false) : s.query f = f s := if_neg (by simp [hr])

theorem State.captureRegs_cores (l : List (Fld × Nat)) : (s.captureRegs l).cores = s.cores := rfl
theorem State.captureRegs_regs (l : List (Fld × Nat)) : (s.captureRegs l).regs = s.regs := rfl

/-- R278: a status word answers its count in the low bits. -/
theorem tlyCycleRead_spec (f : Fin 4) (hr : s.inReset = false) :
    ∃ t, exec (.tlyCycleRead f) s = .next t ∧ (t.mem = s.mem ∧ t.cores = s.cores) ∧ t.regs = s.regs ∧
      (s.g TLY_FDR_CYCLE_COUNT (dFdr f.val) < 2 ^ 24 → t.resp.val % 2 ^ 24 = s.g TLY_FDR_CYCLE_COUNT (dFdr f.val)) := by
  refine ⟨_, congrArg Host.Outcome.next (s.query_of_not_inReset _ hr), ⟨?_, ?_⟩, ?_, fun h => ?_⟩
  · rw [State.mem_answer, State.captureRegs_mem]
  · rw [State.answer_cores, State.captureRegs_cores]
  · rw [State.answer_regs, State.captureRegs_regs]
  · simp only [State.answer]
    omega

theorem tlyThStatusRead_spec (c : Fin 32) (hr : s.inReset = false) :
    ∃ t, exec (.tlyThStatusRead c) s = .next t ∧ (t.mem = s.mem ∧ t.cores = s.cores) ∧ t.regs = s.regs ∧
      (s.g TLY_TH_STATUS_REVERSALS (dTh c.val) < 2 ^ 8 →
        t.resp.val % 2 ^ 8 = s.g TLY_TH_STATUS_REVERSALS (dTh c.val)) := by
  refine ⟨_, congrArg Host.Outcome.next (s.query_of_not_inReset _ hr), ⟨?_, ?_⟩, ?_, fun h => ?_⟩
  · rw [State.mem_answer, State.captureRegs_mem]
  · rw [State.answer_cores, State.captureRegs_cores]
  · rw [State.answer_regs, State.captureRegs_regs]
  · simp only [State.answer]
    omega

/-- R328: the oldest stamp leaves the input's FIFO. -/
theorem tideInRead_spec (i : Fin 4) (hr : s.inReset = false) :
    ∃ t, exec (.tideInRead i) s = .next t ∧ (t.mem = s.mem ∧ t.cores = s.cores) ∧
      t.inFifo i.val = (s.inFifo i.val).tail ∧ t.resp = ⟨true, match s.inFifo i.val with
        | [] => 0
        | (r, z) :: _ => bit r * 2 ^ 31 + 2 ^ 30 + z / 65536 % 1000000000⟩ := by
  refine ⟨_, congrArg Host.Outcome.next (s.query_of_not_inReset _ hr), ?_⟩
  simp only [State.inRead]
  rcases e : s.inFifo i.val with _ | ⟨⟨r, z⟩, l⟩
  · exact ⟨⟨rfl, rfl⟩, e, rfl⟩
  · exact ⟨⟨rfl, rfl⟩, AMap.get_set_same _ _ _ _, rfl⟩

/-- R359: a read of the calendar answers one word and captures two. -/
theorem almNowRead_spec (hr : s.inReset = false) :
    ∃ t, exec .almNowRead s = .next t ∧ (t.mem = s.mem ∧ t.cores = s.cores) ∧ t.regs = s.regs ∧
      t.resp = ⟨true, s.almNow.getD 0 0⟩ ∧ AMap.find t.capture 0xB00014 = some (s.almNow.getD 1 0) ∧
      AMap.find t.capture 0xB00018 = some (s.almNow.getD 2 0) := by
  refine ⟨_, congrArg Host.Outcome.next (s.query_of_not_inReset _ hr), ⟨rfl, rfl⟩, rfl, rfl, ?_, AMap.find_ins_same _ _ _⟩
  exact (AMap.find_ins_ne _ _ _ _ (by decide)).trans (AMap.find_ins_same _ _ _)

/-! ## The commands WIDE_READ_CAPTURE and REGISTER_WRITE -/

section
variable {s}
variable {m : Fin 42} {a : Addr} {size : AccSize} {v : BitVec 256}

theorem Refused.and {master : Nat} {s t : State} (h : Refused master s t) : t.resp = ⟨false, 0⟩ ∧
    (t.mem = s.mem ∧ t.cores = s.cores) ∧ (master = 24 → (t.faultStatus .sys).testBit SYS_BUS_ERR = true) :=
  ⟨h.resp, ⟨h.mem, h.cores⟩, h.recorded⟩

theorem exec_write_ram (hr : s.inReset = false) (hs : ∀ c, (s.core c).stepping = false)
    (h : s.RamOf m.val a.toNat size.bytes) (hg : s.campGuard m.val a.toNat size.bytes = false) :
    ∃ t, exec (.registerWrite m a size v) s = .next t ∧ t.resp.ok = true ∧
      t.rle a.toNat size.bytes = v.toNat % 2 ^ (8 * size.bytes) ∧ sameBytesBut a.toNat size.bytes s t ∧
      t.regs = s.regs ∧ t.cores = s.cores := by
  let w := v.toNat % 2 ^ (8 * size.bytes)
  have hm : (((s.wle a.toNat size.bytes w).eccWritten a.toNat size.bytes).answer true 0).mem =
      (s.wle a.toNat size.bytes w).mem := rfl
  refine ⟨((s.wle a.toNat size.bytes w).eccWritten a.toNat size.bytes).answer true 0,
    exec_registerWrite hs ?_ (s.wle_cores ..), rfl, ?_, ?_, s.wle_regs .., s.wle_cores ..⟩
  · rw [State.busWrite_of_ramOf hr (bytes_pos size) h, hg]
    rfl
  · rw [State.rle, State.rbs_congr hm]
    exact (s.rle_wle ..).trans (Nat.mod_mod ..)
  · intro c hc
    rw [State.rb_congr hm]
    exact sameBytesBut_wle s _ _ _ (length_leBytes ..) c hc

theorem exec_write_guarded (hr : s.inReset = false) (hs : ∀ c, (s.core c).stepping = false)
    (h : s.RamOf m.val a.toNat size.bytes) (hg : s.campGuard m.val a.toNat size.bytes = true) :
    ∃ t, exec (.registerWrite m a size v) s = .next t ∧ Refused m.val s t := by
  obtain ⟨t, e, ht, -⟩ := exec_write_refused (v := v) hs
    ((State.busWrite_of_ramOf hr (bytes_pos size) h _).trans (if_pos hg)) (s.errResp_refused ..)
  exact ⟨t, e, ht⟩

theorem exec_read_ram (hr : s.inReset = false) (h : s.RamOf m.val a.toNat size.bytes)
    (he : s.eccUncorr a.toNat size.bytes = false) : exec (.wideReadCapture m a size) s =
      .next ((s.eccSeen a.toNat size.bytes).answer true (s.rle a.toNat size.bytes)) := by
  rw [exec_wideReadCapture, State.busRead_of_ramOf hr (bytes_pos size) h, State.ramRead, if_neg (by simp [he])]
  rfl

theorem exec_read_uncorr (hr : s.inReset = false) (h : s.RamOf m.val a.toNat size.bytes)
    (he : s.eccUncorr a.toNat size.bytes = true) : ∃ t, exec (.wideReadCapture m a size) s = .next t ∧
      Refused m.val s t ∧ (t.faultStatus .mem).testBit MEM_ECC_UNCORR = true := by
  obtain ⟨t, e, ht, hf⟩ := State.ramRead_of_eccUncorr (s := s) (master := m.val) he
  obtain ⟨u, eu, hu, hg⟩ := exec_read_refused ((State.busRead_of_ramOf hr (bytes_pos size) h).trans e) ht
  exact ⟨u, eu, hu, by rwa [State.faultStatus_congr hg]⟩

/-- A read and a write that both end in an error response. -/
theorem exec_access_refused {t u : State} (hs : ∀ c, (s.core c).stepping = false)
    (er : s.busRead m.val a.toNat size.bytes = (none, t)) (ht : Refused m.val s t)
    (ew : ∀ w, s.busWrite m.val a.toNat size.bytes w = (false, u)) (hu : Refused m.val s u) :
    ∀ y ∈ [exec (.wideReadCapture m a size) s, exec (.registerWrite m a size v) s],
      ∃ x, y = .next x ∧ Refused m.val s x ∧ (x.regs = t.regs ∨ x.regs = u.regs) := by
  intro y hy
  obtain rfl | rfl := by simpa using hy
  · obtain ⟨x, e, hx, hg⟩ := exec_read_refused er ht
    exact ⟨x, e, hx, .inl hg⟩
  · obtain ⟨x, e, hx, hg⟩ := exec_write_refused hs (ew _) hu
    exact ⟨x, e, hx, .inr hg⟩

end

section
variable {s}
variable {m : Fin 42} {a : Addr} {size : AccSize} {v : BitVec 256}

/-- An implemented word of the windows, as a master that reaches it accesses it. -/
structure AtWord (m : Fin 42) (a : Addr) (size : AccSize) : Prop where
  four : size.bytes = 4
  window : inWindow a.toNat size.bytes = true
  place : placeOf (a.toNat - winBase) = .regs
  reach : reaches m.val (a.toNat - winBase) = true
  aligned : (a.toNat - winBase) % 4 = 0

theorem AtWord.exec_read (h : AtWord m a size) (hr : s.inReset = false) {w : Nat} {t : State}
    (e : s.winReg m.val (a.toNat - winBase) 4 = some (w, t)) :
    exec (.wideReadCapture m a size) s = .next (t.answer true w) := by
  have er : s.winRead m.val (a.toNat - winBase) size.bytes = some (w, t) := by
    rw [h.four, State.winRead_word h.place h.reach h.aligned, e]
  rw [exec_wideReadCapture, State.busRead_of_winRead hr h.window er, answerRead_some]

theorem AtWord.exec_write (h : AtWord m a size) (hr : s.inReset = false) (hs : ∀ c, (s.core c).stepping = false)
    {t : State} (e : s.winWrite m.val (a.toNat - winBase) 4 (v.toNat % 2 ^ 32) = some t) (hc : t.cores = s.cores) :
    exec (.registerWrite m a size v) s = .next (t.answer true 0) := by
  have hb : 2 ^ (8 * size.bytes) = 2 ^ 32 := by rw [h.four]
  have ew : s.winWrite m.val (a.toNat - winBase) size.bytes (v.toNat % 2 ^ (8 * size.bytes)) = some t := by
    rw [hb, h.four, e]
  exact exec_registerWrite hs (by rw [State.busWrite_of_winWrite hr h.window ew, answerWrite_true]) hc

theorem AtWord.exec_unimplemented (h : AtWord m a size) (hr : s.inReset = false)
    (hs : ∀ c, (s.core c).stepping = false) (hf : findReg (a.toNat - winBase) regTable = none) :
    exec (.wideReadCapture m a size) s = .next (s.answer true 0) ∧
      exec (.registerWrite m a size v) s = .next (s.answer true 0) := by
  have ew := (s.win_unimplemented h.place h.reach h.aligned hf (v.toNat % 2 ^ 32)).2
  exact ⟨h.exec_read hr (s.winReg_unimplemented hf), h.exec_write hr hs ew rfl⟩

/-- A misfit of width or alignment is refused. -/
theorem exec_misfit (hr : s.inReset = false) (hs : ∀ c, (s.core c).stepping = false)
    (hw : inWindow a.toNat size.bytes = true) (hp : placeOf (a.toNat - winBase) = .regs)
    (h : (size.bytes ≠ 4 ∧ size.bytes ≠ 8) ∨ (a.toNat - winBase) % size.bytes ≠ 0) :
    (∀ y ∈ [exec (.wideReadCapture m a size) s, exec (.registerWrite m a size v) s],
      ∃ x, y = .next x ∧ Refused m.val s x) ∧
    (m.val ≠ 24 → exec (.wideReadCapture m a size) s = .next (s.answer false 0) ∧
      exec (.registerWrite m a size v) s = .next (s.answer false 0)) := by
  have er : s.busRead m.val a.toNat size.bytes = (none, s.errResp a.toNat m.val 1) := by
    rw [State.busRead_of_winRead_none hr hw (State.win_misfit hp h 0).1]
  have ew (w : Nat) : s.busWrite m.val a.toNat size.bytes w = (false, s.errResp a.toNat m.val 2) := by
    rw [State.busWrite_of_winWrite_none hr hw (State.win_misfit hp h w).2]
  refine ⟨fun y hy => ?_, fun h24 => ⟨?_, ?_⟩⟩
  · obtain ⟨x, e, hx, -⟩ := exec_access_refused hs er (s.errResp_refused ..) ew (s.errResp_refused ..) y hy
    exact ⟨x, e, hx⟩
  · rw [exec_wideReadCapture, er, s.errResp_of_ne h24, answerRead_none]
    rfl
  · refine exec_registerWrite hs ?_ rfl
    rw [ew, s.errResp_of_ne h24, answerWrite_false]
    rfl

/-- A one-word register whose read does not act answers its value. -/
theorem AtWord.exec_read_plain (h : AtWord m a size) (hr : s.inReset = false) {r : Reg} {d : Nat}
    (hf : findReg (a.toNat - winBase) regTable = some (r, d)) (ho : a.toNat - winBase = r.off + d) (hw : r.words = 1)
    (hh : AMap.find readHooks r.off = none) : ∃ t, exec (.wideReadCapture m a size) s = .next t ∧
      (t.mem = s.mem ∧ t.cores = s.cores) ∧ t.regs = s.regs ∧
      t.resp = ⟨true, AMap.get (s.regValue r d) s.capture (a.toNat - winBase)⟩ ∧
      (r.wide = 2 → progOffs.contains r.off = false →
        AMap.find t.capture (a.toNat - winBase + 4) = some (s.wordAt (a.toNat - winBase + 4))) := by
  obtain ⟨w, t, e, hm, hc, hg, hv, ht⟩ : ∃ w t, s.regRead m.val (a.toNat - winBase) 4 r d = (w, t) ∧
      t.mem = s.mem ∧ t.cores = s.cores ∧ t.regs = s.regs ∧
      w = AMap.get (s.regValue r d) s.capture (a.toNat - winBase) ∧
      (r.wide = 2 → progOffs.contains r.off = false →
        AMap.find t.capture (a.toNat - winBase + 4) = some (s.wordAt (a.toNat - winBase + 4))) := by
    have e := State.regRead_plain (s := s) (master := m.val) (d := d) hw hh
    rw [← ho] at e
    refine ⟨_, _, e, rfl, rfl, rfl, rfl, fun h2 hp => ?_⟩
    rw [wideWords_two h2 hp]
    exact s.captureWords_two _
  exact ⟨t.answer true w,
    h.exec_read hr ((State.winReg_word hf).trans (congrArg some e)), ⟨hm, hc⟩, hg, by rw [hv]; rfl, ht⟩

/-- A plain register takes the fields of a write. -/
theorem AtWord.exec_write_plain (h : AtWord m a size) (hr : s.inReset = false) (hs : ∀ c, (s.core c).stepping = false)
    {r : Reg} {d : Nat} (hf : findReg (a.toNat - winBase) regTable = some (r, d)) (ho : a.toNat - winBase = r.off + d)
    (hp : PlainWrite s r d) (hn : (r.flds.map (·.key d)).Nodup) :
    ∃ t, exec (.registerWrite m a size v) s = .next t ∧ t.resp.ok = true ∧ (t.mem = s.mem ∧ t.cores = s.cores) ∧
      (∀ f ∈ r.flds, f.acc = .rw → t.g f d = clampFld f (bits (v.toNat % 2 ^ 32) f.lo f.w) % 2 ^ f.w) ∧
      (∀ f ∈ r.flds, f.acc = .ro ∨ f.acc = .wo → t.g f d = s.g f d) ∧
      ∀ (f : Fld) e, f.key e ∉ r.flds.map (·.key d) → t.g f e = s.g f e := by
  obtain ⟨u, e, hm, hc, hrw, hro, hne⟩ : ∃ u, s.regWrite m.val (r.off + d) 4 (v.toNat % 2 ^ 32) r d = u ∧
      u.mem = s.mem ∧ u.cores = s.cores ∧
      (∀ f ∈ r.flds, f.acc = .rw → u.g f d = clampFld f (bits (v.toNat % 2 ^ 32) f.lo f.w) % 2 ^ f.w) ∧
      (∀ f ∈ r.flds, f.acc = .ro ∨ f.acc = .wo → u.g f d = s.g f d) ∧
      ∀ (f : Fld) e, f.key e ∉ r.flds.map (·.key d) → u.g f e = s.g f e := by
    obtain ⟨hm, hc⟩ := State.foldl_putFld_mem_cores r.flds (s.dropHeld (r.off + d) 1) d (v.toNat % 2 ^ 32)
    refine ⟨_, hp.regWrite_eq m.val _, hm, hc, fun f hfl ha => ?_, fun f hfl ha => ?_, fun f e he => ?_⟩
    · obtain ⟨t, -, e⟩ := State.foldl_putFld_g_mem r.flds (s.dropHeld (r.off + d) 1) (v := v.toNat % 2 ^ 32) hfl hn
      rw [e, t.putFld_rw ha]
    · obtain ⟨t, ht, e⟩ := State.foldl_putFld_g_mem r.flds (s.dropHeld (r.off + d) 1) (v := v.toNat % 2 ^ 32) hfl hn
      rw [e, t.putFld_of_ro_or_wo false ha, ht]
      rfl
    · exact State.foldl_putFld_g_ne r.flds _ he
  refine ⟨u.answer true 0, h.exec_write hr hs ?_ hc, rfl, ⟨hm, hc⟩, hrw, hro, hne⟩
  rw [State.winWrite_word h.place h.reach h.aligned hf, ho, e]

end

end

/-- Settles O32, from what a bus read and a bus write are in each region, and from the row of each named register. -/
theorem busAccesses : Obligations.BusAccesses := by
  intro m a size v s hr hs
  refine ⟨exec_write_ram hr hs, fun h hg => ?_, exec_read_ram hr, fun h he => ?_, fun hd hc h32 h33 y hy => ?_,
    fun h => ?_, fun hw hp hm => ⟨fun h4 ho hf => ?_, fun h => ?_, fun r d h4 ho hf hd h1 => ⟨fun hh => ?_, ?_⟩⟩,
    fun hw hsr hd hm ho y hy => ?_, sysIdRead_spec s m hr, fun k i => progRead_spec s k i hr,
    fun f => tlyCycleRead_spec s f hr, fun c => tlyThStatusRead_spec s c hr, fun i => tideInRead_spec s i hr,
    almNowRead_spec s hr⟩
  · obtain ⟨t, e, ht⟩ := exec_write_guarded (v := v) hr hs h hg
    exact ⟨t, e, ht.and⟩
  · obtain ⟨t, e, ht, hf⟩ := exec_read_uncorr hr h he
    exact ⟨t, e, ht.and, hf⟩
  · have hb := State.bus_of_ddr_closed hr (bytes_pos size) hd hc h32 h33
    obtain ⟨x, e, hx, -⟩ := exec_access_refused hs (hb 0).1 (s.errResp_refused ..) (fun w => (hb w).2)
      (s.errResp_refused ..) y hy
    exact ⟨x, e, hx.and⟩
  · obtain ⟨t, e, ht, -⟩ := exec_write_refused (v := v) hs (State.busWrite_of_inMram_or_inRom hr (bytes_pos size) h _)
      (s.errResp_refused ..)
    exact ⟨t, e, ht.and⟩
  · exact (AtWord.mk h4 hw hp hm ho).exec_unimplemented hr hs hf
  · obtain ⟨hy, h24⟩ := exec_misfit (m := m) (v := v) hr hs hw hp h
    refine ⟨fun y hy' => ?_, h24⟩
    obtain ⟨x, e, hx⟩ := hy y hy'
    exact ⟨x, e, hx.and⟩
  · exact (AtWord.mk h4 hw hp hm ho).exec_read_plain hr hf hd h1 hh
  · intro hwide hhi hfa hhk hen hop hlk hps hnd
    rw [hd] at hhi hfa hen
    exact (AtWord.mk h4 hw hp hm ho).exec_write_plain hr hs hf hd ⟨h1, hwide, hhi, hfa, hhk, hen, hop, hlk, hps⟩ hnd
  · have hb := State.bus_outside (master := m.val) hr hw hsr hd hm ho
    obtain ⟨x, e, hx, hg⟩ := exec_access_refused hs (hb 0).1 (s.busError_refused ..) (fun w => (hb w).2)
      (s.busError_refused ..) y hy
    refine ⟨x, e, hx.resp, ?_, hx.mem, hx.cores⟩
    rcases hg with hg | hg <;> rw [State.faultStatus_congr hg] <;> exact s.busError_testBit ..

end Sys2Proof.Machine

/-! # Proofs: commands of the timing contract (O31)

Which registers the operations of a path's commands leave as they were, stated once per operation over sets of words,
and from that what each command leaves in the path's entry. -/

namespace Sys2Proof.Machine

/-! ## Words of the windows left as they were -/

/-- `t` reads every field that begins in a word of `W` as `s` does. -/
structure SameWords (W : Nat → Prop) (s t : State) : Prop where
  g : ∀ (f : Fld) (d : Nat), f.lo < 32 → W (f.off + d) → t.g f d = s.g f d

namespace SameWords
variable {W : Nat → Prop} {s t u : State}

theorem of_regs (h : t.regs = s.regs) : SameWords W s t := ⟨fun _ _ _ _ => State.g_congr h ..⟩

theorem refl (s : State) : SameWords W s s := of_regs rfl

theorem trans (h : SameWords W s t) (h' : SameWords W t u) : SameWords W s u :=
  ⟨fun f d hlo hw => (h'.g f d hlo hw).trans (h.g f d hlo hw)⟩

theorem on (h : SameWords W s t) {f : Fld} {d : Nat} (hlo : f.lo < 32) (hw : W (f.off + d)) : t.on f d = s.on f d := by
  unfold State.on
  rw [h.g f d hlo hw]

/-- A field written outside the words. -/
theorem p (h : SameWords W s t) {f : Fld} {d : Nat} (hlo : f.lo < 32) (hw : ¬ W (f.off + d)) (v : Nat) :
    SameWords W s (t.p f d v) := by
  refine h.trans ⟨fun e d' hlo' hw' => t.g_p_ne f e d d' v fun hk => hw ?_⟩
  have : f.off + d = e.off + d' := by
    simp only [Fld.key] at hk
    omega
  rwa [this]

theorem hw (h : SameWords W s t) {f : Fld} {d : Nat} (hlo : f.lo < 32) (hw : ¬ W (f.off + d)) (v : Nat) :
    SameWords W s (t.hw f d v) :=
  (h.p hlo hw _).trans (of_regs rfl)

theorem setBit (h : SameWords W s t) {f : Fld} {d : Nat} (hlo : f.lo < 32) (hw : ¬ W (f.off + d)) (i : Nat) (b : Bool) :
    SameWords W s (t.setBit f d i b) := by
  rcases t.setBit_eq f d i b with e | ⟨v, e⟩ <;> rw [e]
  · exact h
  · exact h.p hlo hw v

theorem foldl {β : Type} {f : State → β → State} (hf : ∀ t x, SameWords W t (f t x)) (l : List β) :
    ∀ s, SameWords W s (l.foldl f s) := by
  induction l with
  | nil => exact refl
  | cons x l ih => exact fun s => (hf s x).trans (ih _)

end SameWords

/-! ## A raised fault writes no word below the fault set of SYS (R423) -/

theorem FBlk.le_F (b : FBlk) : 0x300 ≤ b.F := by
  cases b <;> simp [FBlk.F, SYS_FS, BRN_FS, GRV_FS, DRF_FS, BCN_FS, TLY_FS, NET_PORT_FS, TID_FS, FBS_FS, MBS_FS,
    BTH_FS, MST_FS, LCK_FS, PAIR_FS, BKW_FS, LOG_FS, BST_FS, HST_FS, MEM_FS, PIO_FS, PWR_FS] <;> omega

section
variable (s : State)

/-- A field of a fault set is written above the words below that of SYS. -/
theorem SameWords.p_fault {s t : State} (h : SameWords (· < 0x300) s t) (b : FBlk) {f : Fld}
    (hf : f.lo < 32 ∧ b.F ≤ f.off) (v : Nat) : SameWords (· < 0x300) s (t.p f 0 v) :=
  h.p hf.1 (by have := b.le_F; omega) v

theorem SameWords.hw_fault {s t : State} (h : SameWords (· < 0x300) s t) (b : FBlk) {f : Fld}
    (hf : f.lo < 32 ∧ b.F ≤ f.off) (v : Nat) : SameWords (· < 0x300) s (t.hw f 0 v) :=
  h.hw hf.1 (by have := b.le_F; omega) v

theorem State.capture1_sameWords (b : FBlk) (fbit : Nat) (acc : Option Access) (detail : Nat) :
    SameWords (· < 0x300) s (s.capture1 b fbit acc detail) := by
  have hbit : SameWords (· < 0x300) s (((s.hw (fsValid b.F) 0 1).p (fsBit b.F) 0 fbit).p (fsDetail b.F) 0 detail) :=
    (((SameWords.refl s).hw_fault b (by simp [fsValid]) _).p_fault b (by simp [fsBit]) _).p_fault b
      (by simp [fsDetail]) _
  have hacc {t : State} (h : SameWords (· < 0x300) s t) (x m k lo hi : Nat) : SameWords (· < 0x300) s
      (((((t.p (fsHasAccess b.F) 0 x).p (fsMaster b.F) 0 m).p (fsAccess b.F) 0 k).p (fsAddrLo b.F) 0 lo).p
        (fsAddrHi b.F) 0 hi) :=
    ((((h.p_fault b (by simp [fsHasAccess]) _).p_fault b (by simp [fsMaster]) _).p_fault b (by simp [fsAccess]) _).p_fault
      b (by simp [fsAddrLo]) _).p_fault b (by simp [fsAddrHi]) _
  have htime {t : State} (h : SameWords (· < 0x300) s t) (ns : Nat) :
      SameWords (· < 0x300) s (t.putTime (fsTimeNs b.F) 0 ns) :=
    ((h.p_fault b (by simp [fsTimeNs]) _).p_fault b (by simp [timeLo, fsTimeNs, Nat.add_assoc]) _).p_fault b
      (by simp [timeHi, fsTimeNs, Nat.add_assoc]) _
  unfold State.capture1
  split
  · exact .refl s
  · refine htime ?_ _
    split
    · exact hacc hbit _ _ _ _ _
    · exact hacc hbit _ _ _ _ _

theorem State.hostDeliver_sameWords (src : Nat) : SameWords (· < 0x300) s (s.hostDeliver src) := by
  unfold State.hostDeliver State.msixSend
  split
  · split
    · exact (SameWords.refl s).setBit (by decide) (by simp only [HST_MSIX_PBA_PEND]; omega) _ _
    · exact .of_regs rfl
  · exact .refl s

theorem State.eventRelease_sameWords (q e : Nat) : SameWords (· < 0x300) s (s.eventRelease q e) := by
  unfold State.eventRelease
  split
  · dsimp only
    split
    · exact (SameWords.refl s).p (by decide) (by simp only [BRN_EVT_STATS_LOST]; omega) _
    · exact .of_regs rfl
  · exact .refl s

theorem State.releaseEvents_sameWords (src : Nat) : SameWords (· < 0x300) s (s.releaseEvents src) := by
  refine SameWords.foldl (fun t i => ?_) _ s
  dsimp only
  split
  · exact t.eventRelease_sameWords _ _
  · exact .refl t

theorem State.setLevel_sameWords (src : Nat) (b : Bool) : SameWords (· < 0x300) s (s.setLevel src b) := by
  have h (v : Nat) : SameWords (· < 0x300) s (s.p MST_SRC_STATE_LEVEL (dSrc src) v) :=
    (SameWords.refl s).p (by decide) (by simp only [MST_SRC_STATE_LEVEL]; omega) v
  unfold State.setLevel
  split
  · exact .refl s
  · dsimp only
    split
    · exact ((h _).trans (State.hostDeliver_sameWords _ _)).trans (State.releaseEvents_sameWords _ _)
    · exact h _

theorem State.faultLevel_sameWords (b : FBlk) : SameWords (· < 0x300) s (s.faultLevel b) := s.setLevel_sameWords _ _

theorem State.snapFire_sameWords (fires : Nat → Bool) (arg : Nat) : SameWords (· < 0x300) s (s.snapFire fires arg) := by
  unfold State.snapFire
  split
  · refine SameWords.foldl (fun t d => ?_) _ s
    dsimp only
    split
    · split
      · exact (SameWords.refl t).p (by decide) (by simp only [LOG_SNAP_STATUS_MISSED]; omega) _
      · exact .of_regs rfl
    · exact .refl t
  · exact .refl s

theorem State.raise_sameWords (b : FBlk) (fbit : Nat) (acc : Option Access) (detail : Nat) (inj : Bool) :
    SameWords (· < 0x300) s (s.raise b fbit acc detail inj) := by
  have hr {t : State} (r : List (Nat × Nat × Bool)) (p : Bool) (h : SameWords (· < 0x300) s t) :
      SameWords (· < 0x300) s (if p then { t with reactions := r } else t) := by
    split
    · exact h.trans (.of_regs rfl)
    · exact h
  have hset : SameWords (· < 0x300) s ((s.hw (fsStatus b.F b.width) 0 (2 ^ fbit)).incSat (fsCount b.F) 0) :=
    ((SameWords.refl s).hw_fault b (by simp [fsStatus]) _).p_fault b (by simp [fsCount]) _
  have hlevel := (hset.trans (State.capture1_sameWords _ b fbit acc detail)).trans (State.faultLevel_sameWords _ b)
  unfold State.raise
  refine hr _ _ ?_
  split
  · exact hlevel.trans (State.snapFire_sameWords _ _ _)
  · exact hlevel

end

/-! ## A discarded item (R24, R33) -/

section
variable (s : State)

theorem State.drainCheck_sameWords (p : Nat) : SameWords (· < 0x10000) s (s.drainCheck p) := by
  unfold State.drainCheck
  split
  · exact (SameWords.refl s).p (by decide) (by simp only [SYS_CTR_STATUS_DRAINING]; omega) _
  · exact .refl s

theorem State.drainCheck_adm (p : Nat) : (s.drainCheck p).adm = s.adm := by
  unfold State.drainCheck
  split <;> rfl

theorem State.itemGone_sameWords (id : Nat) : SameWords (· < 0x10000) s (s.itemGone id) := by
  unfold State.itemGone
  split
  · exact .refl s
  · refine SameWords.trans ?_ (State.drainCheck_sameWords _ _)
    exact .of_regs rfl

/-- No item of the identity is left. -/
theorem State.itemGone_items (id : Nat) : (s.itemGone id).adm.items.all (·.id != id) = true := by
  unfold State.itemGone
  split
  · next h => simpa using h
  · rw [State.drainCheck_adm]
    simp

theorem State.drfStatus_sameWords : SameWords (· < 0x10000) s s.drfStatus := by
  have hq (v : Nat) : SameWords (· < 0x10000) s (s.p DRF_STATUS_QUEUED 0 v) :=
    (SameWords.refl s).p (by decide) (by decide) v
  unfold State.drfStatus
  dsimp only
  split
  · exact ((hq _).p (by decide) (by decide) _).p (by decide) (by decide) _
  · exact (hq _).p (by decide) (by decide) _

theorem State.drfStatus_adm : s.drfStatus.adm = s.adm := by
  unfold State.drfStatus
  dsimp only
  split <;> rfl

theorem State.setRun_sameWords (r : Option DrfRun) : SameWords (· < 0x10000) s (s.setRun r) :=
  have h : SameWords (· < 0x10000) s { s with drf := { s.drf with run := r } } := .of_regs rfl
  h.trans (State.drfStatus_sameWords _)

theorem State.setRun_adm (r : Option DrfRun) : (s.setRun r).adm = s.adm := State.drfStatus_adm _

/-- A job slot is freed. -/
theorem State.setJob_none_sameWords (n : Nat) : SameWords (· < 0x10000) s (s.setJob n none) :=
  have h : SameWords (· < 0x10000) s { s with drf := { s.drf with jobs := AMap.set none s.drf.jobs n none } } :=
    .of_regs rfl
  (h.p (f := DRF_SLOT_STATE) (d := dSlot n) (by decide) (by simp only [DRF_SLOT_STATE]; omega) 0).trans
    (State.drfStatus_sameWords _)

theorem State.setJob_none_adm (n : Nat) : (s.setJob n none).adm = s.adm := State.drfStatus_adm _

/-- What holds an item lets go of it: the admissions and the words below the paths' stay, until the item is gone. -/
theorem State.discard_eq_itemGone (id : Nat) :
    ∃ t, s.discard id = t.itemGone id ∧ t.adm = s.adm ∧ SameWords (· < 0x10000) s t := by
  unfold State.discard
  extract_lets u job v
  have hu : SameWords (· < 0x10000) s u := .of_regs rfl
  have ha : u.adm = s.adm := rfl
  clear_value u job
  refine ⟨v, rfl, ?_⟩
  subst v
  split
  · next n =>
    extract_lets w
    have hw : SameWords (· < 0x10000) s w ∧ w.adm = s.adm := by
      subst w
      split
      · split
        · exact ⟨hu.trans (u.setRun_sameWords _), (u.setRun_adm _).trans ha⟩
        · exact ⟨hu, ha⟩
      · exact ⟨hu, ha⟩
    clear_value w
    obtain ⟨hw, ha⟩ := hw
    rw [State.drfStatus_adm, State.setJob_none_adm]
    have hx : SameWords (· < 0x10000) s { w with drf := { w.drf with posts := w.drf.posts.filter (·.slot != n) } } :=
      hw.trans (.of_regs rfl)
    exact ⟨ha, (hx.trans (State.setJob_none_sameWords _ n)).trans (State.drfStatus_sameWords _)⟩
  · exact ⟨ha, hu⟩

theorem State.discard_sameWords (id : Nat) : SameWords (· < 0x10000) s (s.discard id) := by
  obtain ⟨t, e, -, h⟩ := s.discard_eq_itemGone id
  rw [e]
  exact h.trans (t.itemGone_sameWords id)

theorem State.discard_items (id : Nat) : (s.discard id).adm.items.all (·.id != id) = true := by
  obtain ⟨t, e, -, -⟩ := s.discard_eq_itemGone id
  rw [e]
  exact t.itemGone_items id

end

/-! ## The entry of a path: what a voided proof and the writing of WORST leave (R22, R67) -/

/-- The words SYS_CTR_PATH and SYS_CTR_STATUS of path `p`. -/
def PathWord (p x : Nat) : Prop := x = SYS_CTR_PATH_ENABLE.off + dPath p ∨ x = SYS_CTR_STATUS_REFUSAL.off + dPath p

theorem PathWord.of_path (p : Nat) : PathWord p (SYS_CTR_PATH_ENABLE.off + dPath p) := .inl rfl

theorem PathWord.of_status (p : Nat) : PathWord p (SYS_CTR_STATUS_REFUSAL.off + dPath p) := .inr rfl

/-- The words of a path lie in its entry of the table, from 0x10000 to 0x14000, WORST at 0x10 of each entry apart. -/
theorem PathWord.bounds {p x : Nat} (h : PathWord p x) : 0x10000 ≤ x ∧ x < 0x14000 ∧ x % 0x20 ≠ 0x10 := by
  simp only [PathWord, SYS_CTR_PATH_ENABLE, SYS_CTR_STATUS_REFUSAL, dPath] at h
  omega

theorem PathWord.not_of_outside {p x : Nat} (h : x < 0x10000 ∨ 0x14000 ≤ x) : ¬ PathWord p x := fun hp => by
  have := hp.bounds
  omega

section
variable (s : State) (p : Nat)

theorem State.busyNow_sameWords : SameWords (PathWord p) s s.busyNow :=
  (SameWords.refl s).p (by decide) (PathWord.not_of_outside (by decide)) _

/-- A ring's PROOF that ends changes no more than the rings. -/
theorem State.ringProofEnd_eq :
    s.ringProofEnd = { s with rings := s.ringProofEnd.rings, ringProof := s.ringProofEnd.ringProof } := by
  unfold State.ringProofEnd
  split <;> rfl

/-- A voided proof changes no more than registers and the rings. -/
theorem State.voidProof_eq : s.voidProof =
    { s with regs := s.voidProof.regs, rings := s.voidProof.rings, ringProof := s.voidProof.ringProof } := by
  unfold State.voidProof
  split
  · rw [State.ringProofEnd_eq]
    rfl
  · rfl

@[simp] theorem State.voidProof_cores : s.voidProof.cores = s.cores := by rw [State.voidProof_eq]

@[simp] theorem State.voidProof_adm : s.voidProof.adm = s.adm := by rw [State.voidProof_eq]

theorem State.voidProof_sameWords : SameWords (PathWord p) s s.voidProof := by
  have hprf : ¬ PathWord p (PRF_STATUS_STATE.off + 0) := PathWord.not_of_outside (by decide)
  unfold State.voidProof
  split
  · rw [State.ringProofEnd_eq]
    have h := ((SameWords.refl s).p (f := PRF_STATUS_STATE) (by decide) hprf pSTAGED).p (f := PRF_STATUS_REFUSAL)
      (by decide) hprf 0x00A
    exact (h.trans (State.busyNow_sameWords _ p)).trans (.of_regs rfl)
  · exact .refl s

theorem AdmView.writeWorst_sameWords (v : AdmView) : SameWords (PathWord p) s (v.writeWorst s) := by
  refine SameWords.foldl (fun t i => (SameWords.refl t).p (by decide) (fun h => ?_) _) _ s
  have := h.bounds
  simp only [SYS_CTR_WORST_WORST_NS, dPath] at this
  omega

@[simp] theorem AdmView.writeWorst_cores (v : AdmView) : (v.writeWorst s).cores = s.cores := by
  unfold AdmView.writeWorst
  exact foldl_keep _ State.cores (fun t _ => t.p_cores ..) _ s

@[simp] theorem AdmView.writeWorst_adm (v : AdmView) : (v.writeWorst s).adm = s.adm := by
  unfold AdmView.writeWorst
  exact foldl_keep _ State.adm (fun t _ => t.p_adm ..) _ s

end

/-! ## The fields of one path's entry -/

theorem SameWords.pathOn {s t : State} {p : Nat} (h : SameWords (PathWord p) s t) : t.pathOn p = s.pathOn p :=
  h.on (by decide) (.of_path p)

theorem SameWords.draining {s t : State} {p : Nat} (h : SameWords (PathWord p) s t) : t.draining p = s.draining p :=
  h.on (by decide) (.of_status p)

theorem SameWords.pathRefusal {s t : State} {p : Nat} (h : SameWords (PathWord p) s t) :
    t.g SYS_CTR_STATUS_REFUSAL (dPath p) = s.g SYS_CTR_STATUS_REFUSAL (dPath p) :=
  h.g _ _ (by decide) (.of_status p)

section
variable (s : State) (p : Nat)

@[simp] theorem State.pathOn_refusePath (q code : Nat) : (s.refusePath q code).pathOn p = s.pathOn p :=
  s.on_p_ne _ _ _ _ _ (by simp only [Fld.key, SYS_CTR_STATUS_REFUSAL, SYS_CTR_PATH_ENABLE, dPath]; omega)

@[simp] theorem State.draining_refusePath (q code : Nat) : (s.refusePath q code).draining p = s.draining p :=
  s.on_p_ne _ _ _ _ _ (by simp only [Fld.key, SYS_CTR_STATUS_REFUSAL, SYS_CTR_STATUS_DRAINING, dPath]; omega)

@[simp] theorem State.pathOn_putDraining (q v : Nat) :
    (s.p SYS_CTR_STATUS_DRAINING (dPath q) v).pathOn p = s.pathOn p :=
  s.on_p_ne _ _ _ _ _ (by simp only [Fld.key, SYS_CTR_STATUS_DRAINING, SYS_CTR_PATH_ENABLE, dPath]; omega)

end

/-! ## The check of a path begins and ends (R22) -/

/-- The path whose check runs is now `r`, and BUSY follows. -/
def State.checkRuns (s : State) (r : Option Nat) : State := { s with adm := { s.adm with running := r } }.busyNow

section
variable (s : State) (r : Option Nat) (p : Nat)

theorem State.checkRuns_sameWords : SameWords (PathWord p) s (s.checkRuns r) := by
  refine SameWords.trans ?_ (State.busyNow_sameWords _ p)
  exact .of_regs rfl

/-- BUSY reads 1 while a path's check runs. -/
theorem State.checkRuns_busy : (s.checkRuns (some p)).on SYS_CTR_CHECK_BUSY = true :=
  State.on_p_one _ _ _ (by decide)

end

/-! ## PATH_ENABLE (R22, R23) -/

theorem State.command_of_inReset {s : State} (hr : s.inReset = false) (f : State → State) :
    s.command f = (f s).answer true 0 := by simp [State.command, hr]

section
variable {s : State} {p : Nat}

theorem State.pathEnable_of_on (h : s.pathOn p = true) : s.pathEnable p = s := if_pos h

/-- In SAFE the enable is refused. -/
theorem State.pathEnable_of_safe (h : s.pathOn p = false) (hm : s.mode = SAFE) :
    s.pathEnable p = s.refusePath p 0x010 := by simp [State.pathEnable, h, hm]

/-- While a check or a PROOF runs the enable is refused. -/
theorem State.pathEnable_of_busy (h : s.pathOn p = false) (hm : s.mode ≠ SAFE) (hb : s.on SYS_CTR_CHECK_BUSY = true) :
    s.pathEnable p = s.refusePath p 0x04C := by simp [State.pathEnable, h, hm, hb]

theorem State.pathEnable_starts (h : s.pathOn p = false) (hm : s.mode ≠ SAFE) (hb : s.on SYS_CTR_CHECK_BUSY = false) :
    s.pathEnable p = s.checkRuns (some p) := by simp [State.pathEnable, h, hm, hb, State.checkRuns]

/-! ## ADMISSION_CHECK_END (R22, R24) -/

/-- The code of a failed check stands in the path's REFUSAL and in LAST_REFUSAL. -/
def State.checkRefused (s : State) (p code : Nat) : State :=
  ((s.checkRuns none).refusePath p code).p SYS_CTR_CHECK_LAST_REFUSAL 0 code

/-- A check passed enables the path, ends its draining and clears its REFUSAL. -/
def State.checkPassed (s : State) (p : Nat) : State :=
  (((s.checkRuns none).p SYS_CTR_PATH_ENABLE (dPath p) 1).p SYS_CTR_STATUS_DRAINING (dPath p) 0).refusePath p 0

theorem State.admissionEnd_of_pass (h : (admView s s (some p)).check (some p) = none) :
    s.admissionEnd p = ((admView s s (some p)).writeWorst (s.checkPassed p)).voidProof := by
  unfold State.admissionEnd
  dsimp only
  rw [h]
  rfl

theorem State.admissionEnd_of_fail {code q : Nat} (h : (admView s s (some p)).check (some p) = some (code, q)) :
    s.admissionEnd p = if q = p then s.checkRefused p code else (s.checkRefused p code).p SYS_CTR_CHECK_PATH 0 q := by
  unfold State.admissionEnd
  dsimp only
  rw [h]
  rfl

/-- The check of the path that runs has ended, whatever it found; the cores stay. -/
theorem State.admissionEnd_ends (s : State) (p : Nat) :
    (s.admissionEnd p).adm.running = none ∧ (s.admissionEnd p).cores = s.cores := by
  cases h : (admView s s (some p)).check (some p) with
  | none =>
    rw [State.admissionEnd_of_pass h, State.voidProof_adm, State.voidProof_cores, AdmView.writeWorst_adm,
      AdmView.writeWorst_cores]
    exact ⟨rfl, rfl⟩
  | some x =>
    rw [State.admissionEnd_of_fail h]
    split <;> exact ⟨rfl, rfl⟩

theorem State.admissionEnd_pass_fields (h : (admView s s (some p)).check (some p) = none) :
    (s.admissionEnd p).pathOn p = true ∧ (s.admissionEnd p).draining p = false ∧
      (s.admissionEnd p).g SYS_CTR_STATUS_REFUSAL (dPath p) = 0 := by
  have hw := (AdmView.writeWorst_sameWords (s.checkPassed p) p (admView s s (some p))).trans
    (State.voidProof_sameWords _ p)
  rw [State.admissionEnd_of_pass h, hw.pathOn, hw.draining, hw.pathRefusal]
  simp only [State.checkPassed, State.pathOn_refusePath, State.pathOn_putDraining, State.draining_refusePath]
  exact ⟨State.on_p_one _ _ _ (by decide), State.on_p_zero .., State.g_p_same ..⟩

theorem State.admissionEnd_fail_fields {code q : Nat} (h : (admView s s (some p)).check (some p) = some (code, q)) :
    (s.admissionEnd p).pathOn p = s.pathOn p ∧
      (s.admissionEnd p).g SYS_CTR_STATUS_REFUSAL (dPath p) = code % 2 ^ SYS_CTR_STATUS_REFUSAL.w ∧
      (s.admissionEnd p).g SYS_CTR_CHECK_LAST_REFUSAL = code % 2 ^ SYS_CTR_CHECK_LAST_REFUSAL.w := by
  have hr : SameWords (PathWord p) ((s.checkRuns none).refusePath p code) (s.checkRefused p code) :=
    (SameWords.refl _).p (f := SYS_CTR_CHECK_LAST_REFUSAL) (by decide) (PathWord.not_of_outside (by decide)) _
  obtain ⟨hw, hl⟩ : SameWords (PathWord p) ((s.checkRuns none).refusePath p code) (s.admissionEnd p) ∧
      (s.admissionEnd p).g SYS_CTR_CHECK_LAST_REFUSAL = (s.checkRefused p code).g SYS_CTR_CHECK_LAST_REFUSAL := by
    rw [State.admissionEnd_of_fail h]
    split
    · exact ⟨hr, rfl⟩
    · exact ⟨hr.p (f := SYS_CTR_CHECK_PATH) (by decide) (PathWord.not_of_outside (by decide)) _,
        State.g_p_ne _ _ _ _ _ _ (by decide)⟩
  rw [hw.pathOn, hw.pathRefusal, hl, State.pathOn_refusePath, (s.checkRuns_sameWords none p).pathOn]
  exact ⟨rfl, State.g_p_same .., State.g_p_same ..⟩

/-! ## PATH_DISABLE (R24) -/

theorem State.pathDisable_of_running (h : s.adm.running = some p) :
    s.pathDisable p = s.checkRuns none := if_pos h

@[simp] theorem State.pathDisable_cores (s : State) (p : Nat) : (s.pathDisable p).cores = s.cores := by
  unfold State.pathDisable
  split
  · rfl
  · split
    · dsimp only
      rw [State.voidProof_cores]
      split <;> rfl
    · rfl

/-- A path disabled reads ENABLE 0, and DRAINING 1 where items are outstanding. -/
theorem State.pathDisable_of_on (h : s.adm.running ≠ some p) (hon : s.pathOn p = true) :
    (s.pathDisable p).pathOn p = false ∧ (s.outstanding p = true → (s.pathDisable p).draining p = true) := by
  unfold State.pathDisable
  rw [if_neg h, if_pos hon]
  dsimp only
  rw [(State.voidProof_sameWords _ p).pathOn, (State.voidProof_sameWords _ p).draining]
  have hoff : (s.p SYS_CTR_PATH_ENABLE (dPath p) 0).pathOn p = false := State.on_p_zero ..
  have hout : (s.p SYS_CTR_PATH_ENABLE (dPath p) 0).outstanding p = s.outstanding p := rfl
  rw [hout]
  split
  · exact ⟨(State.pathOn_putDraining ..).trans hoff, fun _ => State.on_p_one _ _ _ (by decide)⟩
  · next hn => exact ⟨hoff, fun ho => absurd ho hn⟩

/-! ## CARGO_AREA_WRITE (R29) -/

theorem State.cargoAreaWrite_of_on (h : s.on NET_CARGO_CTRL_ENABLE = true) (area : Nat) : s.cargoAreaWrite area = s :=
  if_pos h

/-- With no Cargo path enabled or draining AREA is written unchecked. -/
theorem State.cargoAreaWrite_of_no_path (h : s.on NET_CARGO_CTRL_ENABLE = false)
    (hp : ∀ x, x < 512 → s.pathKind x = kCARGO → s.pathOn x = false ∧ s.draining x = false) (area : Nat) :
    s.cargoAreaWrite area = s.p NET_CARGO_CTRL_AREA 0 area := by
  have hnone : ((List.range 512).any fun x => (s.pathOn x || s.draining x) && s.pathKind x == kCARGO) = false := by
    rw [List.any_eq_false]
    intro x hx hlive
    simp only [Bool.and_eq_true, Bool.or_eq_true, beq_iff_eq] at hlive
    obtain ⟨hon, hdr⟩ := hp x (List.mem_range.1 hx) hlive.2
    simp [hon, hdr] at hlive
  unfold State.cargoAreaWrite
  rw [if_neg (by simp [h]), hnone]
  rfl

end

/-! ## CONTRACT_BREACH (R33) -/

/-- The breach record of SYS takes an item's path and deadline, unless a breach is recorded. -/
def State.recordBreach (s : State) (it : Item) : State :=
  if s.on SYS_BREACH_PATH_VALID then s
  else (((s.p SYS_BREACH_PATH_VALID 0 1).p SYS_BREACH_PATH_PATH 0 it.path).p SYS_BREACH_SEC_SECONDS 0
    (it.deadline / 65536 / 1000000000)).p SYS_BREACH_NS_NANOSECONDS 0 (it.deadline / 65536 % 1000000000)

section
variable {s : State} {id : Nat} {it : Item}

theorem exec_contractBreach_of_early (hi : s.adm.items.find? (·.id == id) = some it) (h : s.tide ≤ it.deadline) :
    exec (.contractBreach id) s = .next s := by
  show execContractBreach id s = _
  simp only [execContractBreach, hi, if_neg h.not_gt]

theorem exec_contractBreach_of_late (hi : s.adm.items.find? (·.id == id) = some it) (h : it.deadline < s.tide) :
    exec (.contractBreach id) s =
      .next (((s.recordBreach it).raise .sys SYS_CONTRACT_BREACH none it.path).discard id) := by
  show execContractBreach id s = _
  simp only [execContractBreach, hi, if_pos h]
  rfl

theorem State.recordBreach_of_on (h : s.on SYS_BREACH_PATH_VALID = true) : s.recordBreach it = s := if_pos h

theorem State.recordBreach_on : (s.recordBreach it).on SYS_BREACH_PATH_VALID = true := by
  unfold State.recordBreach
  split
  · assumption
  · rw [State.on_p_ne _ _ _ _ _ _ (by decide), State.on_p_ne _ _ _ _ _ _ (by decide),
      State.on_p_ne _ _ _ _ _ _ (by decide), State.on_p_one _ _ _ (by decide)]

theorem State.recordBreach_of_off (h : s.on SYS_BREACH_PATH_VALID = false) :
    (s.recordBreach it).g SYS_BREACH_PATH_PATH = it.path % 2 ^ SYS_BREACH_PATH_PATH.w ∧
      (s.recordBreach it).g SYS_BREACH_NS_NANOSECONDS = it.deadline / 65536 % 1000000000 := by
  have hns : it.deadline / 65536 % 1000000000 < 2 ^ SYS_BREACH_NS_NANOSECONDS.w :=
    (Nat.mod_lt _ (by decide)).trans (by decide)
  unfold State.recordBreach
  rw [if_neg (by simp [h]), State.g_p_ne _ _ _ _ _ _ (by decide), State.g_p_ne _ _ _ _ _ _ (by decide),
    State.g_p_same, State.g_p_same, Nat.mod_eq_of_lt hns]
  exact ⟨rfl, rfl⟩

/-- A breach's fault and the discard of its item leave the breach record as it was written. -/
theorem State.breach_sameWords (s : State) (id detail : Nat) :
    SameWords (· < 0x300) s ((s.raise .sys SYS_CONTRACT_BREACH none detail).discard id) :=
  have hd := State.discard_sameWords (s.raise .sys SYS_CONTRACT_BREACH none detail) id
  (s.raise_sameWords ..).trans ⟨fun f d hlo hw => hd.g f d hlo (hw.trans (by decide))⟩

/-- The fault that a breach raises stands after the discard of its item. -/
theorem State.breach_testBit (s : State) (id detail : Nat) :
    (((s.raise .sys SYS_CONTRACT_BREACH none detail).discard id).faultStatus .sys).testBit SYS_CONTRACT_BREACH = true := by
  have hd := (State.discard_sameWords (s.raise .sys SYS_CONTRACT_BREACH none detail) id).g
    (fsStatus (FBlk.F .sys) (FBlk.width .sys)) 0 (by decide) (by decide)
  unfold State.faultStatus
  rw [hd]
  exact s.raise_testBit .sys (by decide) ..

end

/-- Settles O31, from what each command's operation answers and which words it leaves. -/
theorem contractCommands : Obligations.ContractCommands := by
  intro p s hr d on kept
  have hen : exec (.pathEnable p) s = .next ((s.pathEnable p).answer true 0) :=
    congrArg _ (State.command_of_inReset hr _)
  have hdis : exec (.pathDisable p) s = .next ((s.pathDisable p).answer true 0) :=
    congrArg _ (State.command_of_inReset hr _)
  have harea (area : Fin 4) : exec (.cargoAreaWrite area) s = .next ((s.cargoAreaWrite area).answer true 0) :=
    congrArg _ (State.command_of_inReset hr _)
  have hend (h : s.adm.running = some p.val) : exec .admissionCheckEnd s = .next (s.admissionEnd p) := by
    show execAdmissionCheckEnd s = _
    simp only [execAdmissionCheckEnd, h]
  refine ⟨fun h => ?_, fun h hm => ?_, fun h hm hb => ?_, fun h hm hb => ?_, fun h => ?_, fun h => ?_, fun h hon => ?_,
    fun area => ⟨fun h => ?_, fun h hp => ?_⟩, fun id it hi => ⟨exec_contractBreach_of_early hi, fun h => ?_⟩⟩
  · rw [hen, State.pathEnable_of_on h]
  · rw [hen, State.pathEnable_of_safe h hm]
    rfl
  · rw [hen, State.pathEnable_of_busy h hm hb]
    rfl
  · have e := State.pathEnable_starts (p := p.val) h hm hb
    have hw := s.checkRuns_sameWords (some p.val) p.val
    refine ⟨_, hen, ?_⟩
    rw [e]
    exact ⟨rfl, s.checkRuns_busy p.val, hw.pathOn.trans h, rfl, rfl, rfl⟩
  · obtain ⟨hrun, hcores⟩ := s.admissionEnd_ends p.val
    refine ⟨_, hend h, hrun, ⟨s.admissionEnd_mem _, hcores⟩, ?_⟩
    split
    · next hc => exact State.admissionEnd_pass_fields hc
    · next hc => exact State.admissionEnd_fail_fields hc
  · refine ⟨_, hdis, ?_, s.pathDisable_mem _, s.pathDisable_cores _⟩
    rw [State.pathDisable_of_running h]
    rfl
  · obtain ⟨hoff, hdr⟩ := State.pathDisable_of_on h hon
    exact ⟨_, hdis, hoff, hdr, s.pathDisable_mem _, s.pathDisable_cores _⟩
  · rw [harea, State.cargoAreaWrite_of_on h]
  · refine ⟨_, harea area, ?_⟩
    rw [State.cargoAreaWrite_of_no_path h hp]
    exact ⟨(State.g_p_same ..).trans (Nat.mod_eq_of_lt area.isLt), rfl, rfl⟩
  · have hw := (s.recordBreach it).breach_sameWords id it.path
    refine ⟨_, exec_contractBreach_of_late hi h, State.breach_testBit .., State.discard_items .., ?_, fun hv => ?_,
      fun hv => ?_⟩
    · rw [hw.on (by decide) (by decide), State.recordBreach_on]
    · rw [hw.g _ _ (by decide) (by decide), State.recordBreach_of_on hv]
    · rw [hw.g _ _ (by decide) (by decide), hw.g _ _ (by decide) (by decide)]
      exact State.recordBreach_of_off hv

end Sys2Proof.Machine

/-! # Proofs: resets and power-up (O34)

What a device reset leaves, what each source records in SYS_RESET_CAUSE, and which of the words that the statement reads
the operations of a quay's and a function-level reset leave as they were. -/

namespace Sys2Proof.Machine

/-! ## Bits that hardware sets (R9) -/

section
variable (s : State)

theorem State.g_hw (f : Fld) (d v : Nat) : (s.hw f d v).g f d = (s.g f d ||| v) % 2 ^ f.w := s.g_p_same f d _

theorem State.g_hw_ne (f e : Fld) (d d' v : Nat) (h : f.key d ≠ e.key d') : (s.hw f d v).g e d' = s.g e d' :=
  s.g_p_ne f e d d' _ h

/-- A one-bit field that hardware sets reads 1. -/
theorem State.on_hw_one {f : Fld} (hf : f.w = 1) (d : Nat) : (s.hw f d 1).on f d = true := by
  have hlt := s.g_lt f d
  unfold State.on
  rw [State.g_hw]
  rw [hf] at hlt ⊢
  obtain h | h : s.g f d = 0 ∨ s.g f d = 1 := by omega
  · rw [h]; rfl
  · rw [h]; rfl

theorem State.on_hw_ne (f e : Fld) (d d' v : Nat) (h : f.key d ≠ e.key d') : (s.hw f d v).on e d' = s.on e d' :=
  s.on_p_ne f e d d' _ h

/-- A one-bit field that reads 1 reads 1 after hardware sets a bit of it or of another field. -/
theorem State.on_hw_of_on {f e : Fld} {d : Nat} (hf : f.w = 1) (h : e = f ∨ e.key d ≠ f.key d) (hon : s.on f d = true) :
    (s.hw e d 1).on f d = true := by
  obtain rfl | h := h
  · exact s.on_hw_one hf d
  · rw [s.on_hw_ne _ _ _ _ _ h, hon]

theorem SameWords.mono {V W : Nat → Prop} {s t : State} (h : SameWords W s t) (hV : ∀ x, V x → W x) :
    SameWords V s t :=
  ⟨fun f d hlo hv => h.g f d hlo (hV _ hv)⟩

end

/-- What `bare` keeps is the same in two states that differ in no more than `bare` drops. -/
theorem State.bare_congr {γ : Type} (g : State → γ) (hg : ∀ u : State, g u.bare = g u) {s t : State}
    (h : t.bare = s.bare) : g t = g s :=
  (hg t).symm.trans ((congrArg g h).trans (hg s))

theorem State.command_of_held {s : State} (hr : s.inReset = true) (f : State → State) : s.command f = s.answer false 0 :=
  if_pos hr

/-! ## What a device reset leaves (R50) -/

/-- `t` has what a device reset leaves of `s`: PROVISION, the commands that wait, MRAM and what lies outside the device. -/
def State.Wiped (s t : State) : Prop :=
  t.mode = PROVISION ∧ t.pending = s.pending ∧ ∀ a, t.rb a = if keptMem a then s.rb a else 0

section
variable {s t u : State}

theorem State.Wiped.of_same (h : s.Wiped t) (hw : SameWords (· = SYS_MODE_MODE.off) t u) (hp : u.pending = t.pending)
    (hm : u.mem = t.mem) : s.Wiped u := by
  obtain ⟨hmode, hpend, hrb⟩ := h
  exact ⟨(hw.g SYS_MODE_MODE 0 (by decide) rfl).trans hmode, hp.trans hpend,
    fun a => (State.rb_congr hm a).trans (hrb a)⟩

end

section
variable (s : State) (ph : Phase)

theorem State.deviceReset_regs : (s.deviceReset ph).regs = s.regs.filter fun x => keptKeys.contains x.1 := by
  unfold State.deviceReset
  exact foldl_keep _ State.regs (fun t q => by split <;> rfl) _ _

theorem State.deviceReset_mem : (s.deviceReset ph).mem = s.mem.filter fun x => keptMem x.1 := by
  unfold State.deviceReset
  exact foldl_keep _ State.mem (fun t q => by split <;> rfl) _ _

theorem State.deviceReset_pending : (s.deviceReset ph).pending = s.pending := by
  unfold State.deviceReset
  exact foldl_keep _ State.pending (fun t q => by split <;> rfl) _ _

theorem State.deviceReset_phase : (s.deviceReset ph).phase = ph := by
  unfold State.deviceReset
  exact foldl_keep _ State.phase (fun t q => by split <;> rfl) _ _

theorem State.deviceReset_debugEn : (s.deviceReset ph).debugEn = s.debugEn := by
  unfold State.deviceReset
  exact foldl_keep _ State.debugEn (fun t q => by split <;> rfl) _ _

/-- A field that a reset does not keep reads its reset value. -/
theorem State.deviceReset_g {f : Fld} {d : Nat} (h : keptKeys.contains (f.key d) = false) :
    (s.deviceReset ph).g f d = f.rst % 2 ^ f.w := by
  unfold State.g
  rw [State.deviceReset_regs, AMap.get_filter, h]
  rfl

theorem State.deviceReset_wiped : s.Wiped (s.deviceReset ph) := by
  refine ⟨s.deviceReset_g ph (by decide), s.deviceReset_pending ph, fun a => ?_⟩
  unfold State.rb
  rw [State.deviceReset_mem]
  exact AMap.get_filter memUnlisted keptMem s.mem a

end

/-! ## The cause that a reset records (R48, R54, R55) -/

/-- The fields of the causes that a device reset other than power-on records. -/
def resetCauses : List Fld := [SYS_RESET_CAUSE_PIN, SYS_RESET_CAUSE_HOST, SYS_RESET_CAUSE_WDT]

/-- A cause's field is one bit of SYS_RESET_CAUSE, apart from those of FROM_SAFE and LAST_MODE. -/
theorem resetCauses_fields : ∀ f ∈ resetCauses, f.w = 1 ∧ f.lo < 32 ∧ f.off ≠ SYS_MODE_MODE.off ∧
    (SYS_RESET_CAUSE_WDT = f ∨ SYS_RESET_CAUSE_WDT.key 0 ≠ f.key 0) ∧ SYS_RESET_CAUSE_FROM_SAFE.key 0 ≠ f.key 0 ∧
    SYS_RESET_CAUSE_LAST_MODE.key 0 ≠ f.key 0 := by decide

/-- What a device reset by a source leaves and records. -/
structure ResetBy (s t : State) (cause : Fld) (ph : Phase) : Prop where
  wiped : s.Wiped t
  phase : t.phase = ph
  cause : t.on cause = true
  lastMode : s.mode ≠ PROVISION → t.g SYS_RESET_CAUSE_LAST_MODE = s.mode % 2 ^ SYS_RESET_CAUSE_LAST_MODE.w
  fromSafe : s.mode = SAFE → t.on SYS_RESET_CAUSE_FROM_SAFE = true

theorem State.resetBy_spec (s : State) {cause : Fld} (hc : cause ∈ resetCauses) (ph : Phase) :
    ResetBy s (s.resetBy cause ph) cause ph := by
  obtain ⟨hw, hlo, hoff, hwdt, hsafe, hlast⟩ := resetCauses_fields cause hc
  unfold State.resetBy
  extract_lets old t u v
  have ht : SameWords (· = SYS_MODE_MODE.off) (s.deviceReset ph) t := (SameWords.refl _).hw hlo hoff 1
  have htc : t.on cause = true := State.on_hw_one _ hw 0
  have hu : SameWords (· = SYS_MODE_MODE.off) t u ∧ u.on cause = true ∧ u.pending = t.pending ∧ u.mem = t.mem ∧
      u.phase = t.phase := by
    subst u
    split
    · exact ⟨(SameWords.refl _).hw (by decide) (by decide) 1, t.on_hw_of_on hw hwdt htc, rfl, rfl, rfl⟩
    · exact ⟨.refl _, htc, rfl, rfl, rfl⟩
  clear_value u
  obtain ⟨huw, huc, hup, hum, huph⟩ := hu
  have hv : SameWords (· = SYS_MODE_MODE.off) u v ∧ v.on cause = true ∧ v.pending = u.pending ∧ v.mem = u.mem ∧
      v.phase = u.phase ∧ (s.mode = SAFE → v.on SYS_RESET_CAUSE_FROM_SAFE = true) := by
    subst v
    split
    · exact ⟨(SameWords.refl _).hw (by decide) (by decide) 1, (u.on_hw_ne _ _ _ _ _ hsafe).trans huc, rfl, rfl, rfl,
        fun _ => u.on_hw_one rfl 0⟩
    · next h => exact ⟨.refl _, huc, rfl, rfl, rfl, fun hs => absurd hs h⟩
  clear_value v
  obtain ⟨hvw, hvc, hvp, hvm, hvph, hvs⟩ := hv
  have hwiped : s.Wiped v := (s.deviceReset_wiped ph).of_same ((ht.trans huw).trans hvw) (hvp.trans hup) (hvm.trans hum)
  have hphase : v.phase = ph := (hvph.trans huph).trans (s.deviceReset_phase ph)
  split
  · next h => exact ⟨hwiped, hphase, hvc, fun hm => absurd h.1 hm, hvs⟩
  · refine ⟨hwiped.of_same ((SameWords.refl _).p (by decide) (by decide) _) rfl rfl, hphase,
      (v.on_p_ne _ _ _ _ _ hlast).trans hvc, fun _ => v.g_p_same .., fun hs => ?_⟩
    rw [v.on_p_ne _ _ _ _ _ (by decide), hvs hs]

/-! ## Power-on (R48, R55, R59, R482) -/

/-- Fields given the value 0 change the registers alone. -/
theorem State.foldl_zero_eq (l : List Fld) : ∀ s : State,
    l.foldl (fun t f => t.p f 0 0) s = { s with regs := (l.foldl (fun t f => t.p f 0 0) s).regs } := by
  induction l with
  | nil => exact fun _ => rfl
  | cons f l ih =>
    intro s
    rw [List.foldl_cons, ih]
    rfl

theorem State.g_foldl_zero_of_ne {e : Fld} {d : Nat} (l : List Fld) (s : State) (h : ∀ f ∈ l, f.key 0 ≠ e.key d) :
    (l.foldl (fun t f => t.p f 0 0) s).g e d = s.g e d :=
  List.foldlRecOn (motive := fun t : State => t.g e d = s.g e d) l _ rfl fun t ht f hf =>
    (t.g_p_ne _ _ _ _ _ (h f hf)).trans ht

/-- What a power-on reset leaves and records. -/
structure PowerOnReset (s t : State) (ph : Phase) : Prop where
  wiped : s.Wiped t
  por : t.on SYS_RESET_CAUSE_POR = true
  lastMode : t.g SYS_RESET_CAUSE_LAST_MODE = 0
  phase : t.phase = ph
  debugEn : t.debugEn = s.debugEn

theorem State.powerOnReset_spec (s : State) (ph : Phase) : PowerOnReset s (s.powerOnReset ph) ph := by
  unfold State.powerOnReset
  extract_lets u t
  have ht : t = { u with regs := t.regs } := State.foldl_zero_eq _ u
  have hmode : t.mode = u.mode := State.g_foldl_zero_of_ne _ u (by decide)
  have hlast : t.g SYS_RESET_CAUSE_LAST_MODE = 0 := by
    subst t
    rw [List.foldl_cons, State.g_foldl_zero_of_ne _ _ (by decide), State.g_p_same]
    rfl
  clear_value t
  obtain ⟨hm, hp, hrb⟩ := s.deviceReset_wiped ph
  refine ⟨⟨?_, ?_, fun a => ?_⟩, State.on_hw_one _ rfl 0, ?_, ?_, ?_⟩
  · exact (State.g_hw_ne _ _ _ _ _ _ (by decide)).trans (hmode.trans hm)
  · show t.pending = _
    rw [ht]
    exact hp
  · have hmem : t.mem = (s.deviceReset ph).mem := by rw [ht]
    exact (State.rb_congr (s := s.deviceReset ph) hmem a).trans (hrb a)
  · exact (State.g_hw_ne _ _ _ _ _ _ (by decide)).trans hlast
  · show t.phase = _
    rw [ht]
    exact s.deviceReset_phase ph
  · show t.debugEn = _
    rw [ht]
    exact s.deviceReset_debugEn ph

theorem SameWords.p_above {s t : State} (h : SameWords (· < 0x300) s t) {f : Fld} (hf : f.lo < 32 ∧ 0x300 ≤ f.off)
    (d v : Nat) : SameWords (· < 0x300) s (t.p f d v) :=
  h.p hf.1 (by omega) v

theorem State.putCal_sameWords (s : State) (c : Cal) : SameWords (· < 0x300) s (s.putCal c) :=
  (((((((SameWords.refl s).p_above (by decide) 0 _).p_above (by decide) 0 _).p_above (by decide) 0 _).p_above (by decide)
    0 _).p_above (by decide) 0 _).p_above (by decide) 0 _).p_above (by decide) 0 _

theorem State.setOsf_sameWords (s : State) (b : Bool) : SameWords (· < 0x300) s (s.setOsf b) :=
  (((((SameWords.refl s).p_above (by decide) 0 _).p_above (by decide) 0 _).trans (State.setLevel_sameWords _ _ _)).trans
    (State.setLevel_sameWords _ _ _)).trans (State.setLevel_sameWords _ _ _)

/-- The alarms' fields return to their reset values. -/
theorem State.clearAlarms_sameWords (s : State) : SameWords (· < 0x300) s
    (alarmFields.foldl (fun s f => (s.clr f (dAlarm 0)).clr f (dAlarm 1)) s) := by
  have hf : ∀ f ∈ alarmFields, f.lo < 32 ∧ 0x300 ≤ f.off := by decide
  exact List.foldlRecOn (motive := SameWords (· < 0x300) s) _ _ (.refl s) fun t ht f h =>
    (ht.p_above (hf f h) _ _).p_above (hf f h) _ _

/-- Without VBAT the Almanac is set anew: words of the Almanac and of Mast are written, and what a firing may write. -/
theorem State.vbatFirst_sameWords (s : State) : SameWords (· < 0x300) s s.vbatFirst := by
  have h0 : SameWords (· < 0x300) s { s with vbat := true, alm := {} } := .of_regs rfl
  unfold State.vbatFirst
  exact (((((h0.trans (State.putCal_sameWords _ _)).p_above (f := ALM_NOW_SUB_WEEKDAY) (by decide) 0 _).p_above
    (f := ALM_TAI_OFFSET_OFFSET) (by decide) 0 _).p_above (f := ALM_STATUS_BUSY) (by decide) 0 _).trans
    (State.clearAlarms_sameWords _)).trans (State.setOsf_sameWords _ _)

theorem State.almLevels_bare (s : State) : s.almLevels.bare = s.bare := by
  unfold State.almLevels
  rw [State.setLevel_bare, State.setLevel_bare, State.setLevel_bare]

theorem State.vbatFirst_bare (s : State) : s.vbatFirst.bare = { s with vbat := true, alm := {} }.bare := by
  unfold State.vbatFirst State.setOsf
  rw [State.almLevels_bare, State.p_bare, State.p_bare,
    foldl_keep _ State.bare (fun t f => by simp only [State.clr, State.p_bare]) alarmFields]
  simp only [State.putCal, State.clr, State.p_bare]

/-- What lies outside registers, trace, quays, Logbook, reactions and the Almanac stays. -/
theorem State.vbatFirst_keep (s : State) {γ : Type} (g : State → γ) (hb : ∀ u : State, g u.bare = g u)
    (ha : g { s with vbat := true, alm := {} } = g s) : g s.vbatFirst = g s :=
  (State.bare_congr g hb s.vbatFirst_bare).trans ha

theorem PowerOnReset.vbatFirst {s t : State} {ph : Phase} (h : PowerOnReset s t ph) : PowerOnReset s t.vbatFirst ph := by
  have hw := t.vbatFirst_sameWords
  have hmode : SameWords (· = SYS_MODE_MODE.off) t t.vbatFirst := hw.mono fun x hx => by rw [hx]; decide
  have hpend : t.vbatFirst.pending = t.pending := t.vbatFirst_keep State.pending (fun _ => rfl) rfl
  have hphase : t.vbatFirst.phase = t.phase := t.vbatFirst_keep State.phase (fun _ => rfl) rfl
  have hdebug : t.vbatFirst.debugEn = t.debugEn := t.vbatFirst_keep State.debugEn (fun _ => rfl) rfl
  exact ⟨h.wiped.of_same hmode hpend t.vbatFirst_mem, (hw.on (by decide) (by decide)).trans h.por,
    (hw.g _ _ (by decide) (by decide)).trans h.lastMode, hphase.trans h.phase, hdebug.trans h.debugEn⟩

/-- The state that the supplies' entry into their ranges resets. -/
def State.supplied (s : State) (dbg : Bool) : State := { s with supplies := true, debugEn := dbg }

theorem exec_powerOn (dbg vb : Bool) (s : State) : ∃ t, exec (.powerOn dbg vb) s = .next t ∧
    PowerOnReset (s.supplied dbg) t (if s.resetN then .released else .held) := by
  have h := (s.supplied dbg).powerOnReset_spec (s.supplied dbg).afterReset
  let t := (s.supplied dbg).powerOnReset (s.supplied dbg).afterReset
  cases vb with
  | false => exact ⟨t, congrArg Host.Outcome.next (if_neg nofun), h⟩
  | true => exact ⟨t.vbatFirst, congrArg Host.Outcome.next (if_pos rfl), h.vbatFirst⟩

/-! ## The phases after a reset (R56, R57) -/

section
variable {s : State}

theorem exec_resetNRelease (dbg : Bool) (h : s.phase = .held) :
    exec (.resetNRelease dbg) s = .next { { s with resetN := true }.deviceReset .released with debugEn := dbg } :=
  congrArg Host.Outcome.next (if_pos h)

theorem exec_pllLock (h : s.phase = .released) : exec .pllLock s = .next { s with phase := .clocks } :=
  congrArg Host.Outcome.next (if_pos h)

theorem exec_fuseRead (h : s.phase = .clocks) : exec .fuseRead s =
    .next (({ s with phase := .fuses }.p BST_STATUS_TEST_ROOT 0 (bit (s.debugEn && !Config.debugLock))).p
      BST_STATUS_DRBG_OK 0 1) :=
  congrArg Host.Outcome.next (if_pos h)

theorem exec_sramClearEnd (h : s.phase = .mram) : exec .sramClearEnd s =
    .next ({ s with phase := .sram, mem := s.mem.filter fun x => !(sramBase ≤ x.1 && x.1 < sramEnd) }.p
      SYS_BOOT_STATUS_STATE 0 1) :=
  congrArg Host.Outcome.next (if_pos h)

theorem State.on_p_bit (f : Fld) (d : Nat) (hf : 0 < f.w) (b : Bool) : (s.p f d (bit b)).on f d = b := by
  cases b with
  | false => exact s.on_p_zero f d
  | true => exact s.on_p_one f d hf

/-- The clear of shared SRAM leaves every other byte. -/
theorem State.rb_clearSram (s : State) (ph : Phase) (a : Nat) :
    { s with phase := ph, mem := s.mem.filter fun x => !(sramBase ≤ x.1 && x.1 < sramEnd) }.rb a =
      if sramBase ≤ a ∧ a < sramEnd then 0 else s.rb a := by
  unfold State.rb
  refine (AMap.get_filter memUnlisted (fun k => !(sramBase ≤ k && k < sramEnd)) s.mem a).trans ?_
  by_cases h : sramBase ≤ a ∧ a < sramEnd
  · simp [h, memUnlisted]
  · rw [if_neg h, if_pos]
    simp only [Bool.not_eq_true', ← Bool.not_eq_true, Bool.and_eq_true, decide_eq_true_eq]
    exact h

/-! ### MRAM_READY (R434, R437) -/

/-- The Tally's totals load into registers: what no register holds stays. -/
theorem State.tlyLoad_keep {γ : Type} (g : State → γ) (hg : ∀ t f d v, g (State.p t f d v) = g t) (s : State) :
    g s.tlyLoad = g s := by
  unfold State.tlyLoad
  extract_lets seq slot key v t1 t2 t3
  have h : g t3 = g s := (hg _ _ _ _).trans ((foldl_keep _ g (fun _ _ => hg _ _ _ _) _ _).trans
    (foldl_keep _ g (fun _ _ => hg _ _ _ _) _ _))
  clear_value t3 slot
  split
  · rw [hg, hg, h]
  · exact h

theorem State.logFixed_phase (s : State) (c m a b e f : Nat) : (s.logFixed c m a b e f).phase = s.phase :=
  State.bare_congr State.phase (fun _ => rfl) (s.logFixed_bare ..)

theorem State.logFixed_pcyc (s : State) (c m a b e f : Nat) : (s.logFixed c m a b e f).log.pcyc = s.log.pcyc := by
  unfold State.logFixed
  dsimp only
  split
  · split <;> rfl
  · rfl

/-- A record dropped is counted in one field; no other field changes. -/
theorem State.logFixed_g (s : State) (c m a b e x : Nat) {f : Fld} {d : Nat} (h : LOG_DROPS_FX_DROPPED.key 0 ≠ f.key d) :
    (s.logFixed c m a b e x).g f d = s.g f d := by
  unfold State.logFixed
  dsimp only
  split
  · split <;> rfl
  · exact State.g_incSat_ne _ _ _ _ _ h

/-- The power cycle that MRAM_READY counts, once after each power-on reset. -/
def State.powerCycles (s : State) : Nat := if s.log.counted then s.log.pcyc else (s.log.pcyc + 1) % 2 ^ 32

theorem exec_mramReady (h : s.phase = .fuses) :
    ∃ t, exec .mramReady s = .next t ∧ t.phase = .mram ∧ t.log.pcyc = s.powerCycles := by
  refine ⟨_, congrArg Host.Outcome.next (if_pos h), ?_⟩
  extract_lets l0 u0 l1 u1 u2 u3
  have h1 : u1.phase = .mram ∧ u1.log.pcyc = s.powerCycles := by
    subst u1
    unfold State.powerCycles
    by_cases hc : s.log.counted = true
    · rw [if_pos (show u0.log.counted = true from hc), if_pos hc]
      exact ⟨rfl, rfl⟩
    · rw [if_neg (show ¬ u0.log.counted = true from hc), if_neg hc]
      exact ⟨rfl, rfl⟩
  have hload {γ : Type} (g : State → γ) (hg : ∀ t f d v, g (State.p t f d v) = g t) : g u2 = g u1 :=
    (foldl_keep _ g (fun _ _ => hg _ _ _ _) _ _).trans (u1.tlyLoad_keep g hg)
  have h3 : u3.phase = .mram ∧ u3.log.pcyc = s.powerCycles :=
    ⟨((u2.logFixed_phase ..).trans (hload State.phase fun _ _ _ _ => rfl)).trans h1.1,
      ((u2.logFixed_pcyc ..).trans (hload (fun t => t.log.pcyc) fun _ _ _ _ => rfl)).trans h1.2⟩
  clear_value u3
  split
  · rwa [State.logFixed_phase, State.logFixed_pcyc]
  · exact h3

/-! ### BOOT_END (R57, R471) -/

section
variable (s1 s8 d8 : Bool) (mhz : BitVec 8) (h : s.phase = .sram)
include h

theorem exec_bootEnd_pass (hc : s.bootFail ⟨s1, s8, d8, mhz.toNat⟩ = 0) :
    ∃ t, exec (.bootEnd s1 s8 d8 mhz) s = .next t ∧ t.mem = s.mem ∧ t.phase = .booted ∧ t.g SYS_BOOT_STATUS_STATE = 2 :=
  ⟨_, congrArg Host.Outcome.next ((if_pos h).trans (if_pos hc)), rfl, rfl, State.g_p_same ..⟩

theorem exec_bootEnd_fail (hc : s.bootFail ⟨s1, s8, d8, mhz.toNat⟩ ≠ 0) :
    ∃ t, exec (.bootEnd s1 s8 d8 mhz) s = .next t ∧ t.mem = s.mem ∧ t.phase = .bootFailed ∧ t.g SYS_BOOT_STATUS_STATE = 3 ∧
      t.g SYS_BOOT_STATUS_FAIL = s.bootFail ⟨s1, s8, d8, mhz.toNat⟩ % 2 ^ SYS_BOOT_STATUS_FAIL.w := by
  refine ⟨_, congrArg Host.Outcome.next ((if_pos h).trans (if_neg hc)), ?_⟩
  generalize s.bootFail ⟨s1, s8, d8, mhz.toNat⟩ = code
  refine ⟨State.logFixed_mem .., State.logFixed_phase .., ?_, ?_⟩
  · rw [State.logFixed_g _ _ _ _ _ _ _ (by decide), State.g_p_ne _ _ _ _ _ _ (by decide), State.g_p_same]
    rfl
  · rw [State.logFixed_g _ _ _ _ _ _ _ (by decide), State.g_p_same]

end

end

/-! ## Words that Mast does not write when a source fires (R382 to R384) -/

/-- No word of `W` is a word of pending vectors, an event task's count of lost triggers or the STATE of a source. -/
structure OffMast (W : Nat → Prop) : Prop where
  pend : ∀ k, ¬ W (HST_MSIX_PBA_PEND.off + 4 * k)
  lost : ∀ q e, ¬ W (BRN_EVT_STATS_LOST.off + dEvt q e)
  state : ∀ n, ¬ W (MST_SRC_STATE_LEVEL.off + dSrc n)

namespace OffMast
variable {W : Nat → Prop} (hW : OffMast W) (s : State)
include hW

theorem hostDeliver (src : Nat) : SameWords W s (s.hostDeliver src) := by
  unfold State.hostDeliver State.msixSend
  split
  · split
    · exact (SameWords.refl s).setBit (by decide) (hW.pend _) _ _
    · exact .of_regs rfl
  · exact .refl s

theorem eventRelease (q e : Nat) : SameWords W s (s.eventRelease q e) := by
  unfold State.eventRelease
  split
  · dsimp only
    split
    · exact (SameWords.refl s).p (by decide) (hW.lost q e) _
    · exact .of_regs rfl
  · exact .refl s

theorem releaseEvents (src : Nat) : SameWords W s (s.releaseEvents src) := by
  refine SameWords.foldl (fun t i => ?_) _ s
  dsimp only
  split
  · exact hW.eventRelease t _ _
  · exact .refl t

theorem setLevel (src : Nat) (b : Bool) : SameWords W s (s.setLevel src b) := by
  have h (v : Nat) : SameWords W s (s.p MST_SRC_STATE_LEVEL (dSrc src) v) :=
    (SameWords.refl s).p (by decide) (hW.state src) v
  unfold State.setLevel
  split
  · exact .refl s
  · dsimp only
    split
    · exact ((h _).trans (hW.hostDeliver _ _)).trans (hW.releaseEvents _ _)
    · exact h _

theorem fireEdge (src : Nat) : SameWords W s (s.fireEdge src) := by
  have h : SameWords W s (s.incSat MST_SRC_STATE_COUNT (dSrc src)) :=
    (SameWords.refl s).p (f := MST_SRC_STATE_COUNT) (by decide) (hW.state src) _
  exact (h.trans (hW.hostDeliver _ _)).trans (hW.releaseEvents _ _)

end OffMast

/-! ## What the operations of a quay's and a function-level reset leave (R52, R53) -/

/-- The words of SYS_MODE, SYS_RESET_CAUSE, HST_CTRL and HST_STATUS, and of CTRL and GEN of each quay. -/
def ResetWord (x : Nat) : Prop :=
  x ∈ [SYS_MODE_MODE.off, SYS_RESET_CAUSE_FLR.off, HST_CTRL_ENABLE.off, HST_STATUS_LINK.off] ∨
    ∃ q < 6, x = BRN_QUAY_CTRL_ENABLE.off + dQuay q ∨ x = BRN_QUAY_GEN_GEN.off + dQuay q

theorem ResetWord.bounds {x : Nat} (h : ResetWord x) :
    (x < 0x200 ∨ (0x200000 ≤ x ∧ x < 0x260000) ∨ (0x1000000 ≤ x ∧ x < 0x1001000)) ∧ x % 0x20 ≤ 8 := by
  rcases h with h | ⟨q, hq, h⟩
  · simp only [List.mem_cons, List.not_mem_nil, or_false, SYS_MODE_MODE, SYS_RESET_CAUSE_FLR, HST_CTRL_ENABLE,
      HST_STATUS_LINK] at h
    omega
  · simp only [BRN_QUAY_CTRL_ENABLE, BRN_QUAY_GEN_GEN, dQuay] at h
    omega

theorem ResetWord.of_quayCtrl {q : Nat} (hq : q < 6) : ResetWord (BRN_QUAY_CTRL_ENABLE.off + dQuay q) :=
  .inr ⟨q, hq, .inl rfl⟩

theorem ResetWord.of_quayGen {q : Nat} (hq : q < 6) : ResetWord (BRN_QUAY_GEN_GEN.off + dQuay q) :=
  .inr ⟨q, hq, .inr rfl⟩

theorem ResetWord.of_cause : ResetWord (SYS_RESET_CAUSE_FLR.off + 0) := .inl (by decide)

theorem ResetWord.not_of_mod {x : Nat} (h : 8 < x % 0x20) : ¬ ResetWord x := fun hx => by
  have := hx.bounds
  omega

theorem ResetWord.not_of_range {x : Nat}
    (h : (0x200 ≤ x ∧ x < 0x200000) ∨ (0x260000 ≤ x ∧ x < 0x1000000) ∨ 0x1001000 ≤ x) : ¬ ResetWord x := fun hx => by
  have := hx.bounds
  omega

/-- `t` has the reset words, the epochs and the command rings of `s`. -/
structure ResetKeeps (s t : State) : Prop where
  words : SameWords ResetWord s t
  epochs : t.epochs = s.epochs
  rings : t.rings = s.rings
  ringProof : t.ringProof = s.ringProof

namespace ResetKeeps
variable {s t u : State}

theorem refl (s : State) : ResetKeeps s s := ⟨.refl s, rfl, rfl, rfl⟩

theorem trans (h : ResetKeeps s t) (h' : ResetKeeps t u) : ResetKeeps s u :=
  ⟨h.words.trans h'.words, h'.epochs.trans h.epochs, h'.rings.trans h.rings, h'.ringProof.trans h.ringProof⟩

/-- An operation that writes registers, trace, quays, Logbook and reactions at most. -/
theorem of_bare (hw : SameWords ResetWord s t) (hb : t.bare = s.bare) : ResetKeeps s t :=
  ⟨hw, State.bare_congr State.epochs (fun _ => rfl) hb, State.bare_congr State.rings (fun _ => rfl) hb,
    State.bare_congr State.ringProof (fun _ => rfl) hb⟩

theorem p (h : ResetKeeps s t) {f : Fld} {d : Nat} (hlo : f.lo < 32) (hw : ¬ ResetWord (f.off + d)) (v : Nat) :
    ResetKeeps s (t.p f d v) :=
  ⟨h.words.p hlo hw v, h.epochs, h.rings, h.ringProof⟩

theorem hw (h : ResetKeeps s t) {f : Fld} {d : Nat} (hlo : f.lo < 32) (hw : ¬ ResetWord (f.off + d)) (v : Nat) :
    ResetKeeps s (t.hw f d v) :=
  ⟨h.words.hw hlo hw v, h.epochs, h.rings, h.ringProof⟩

theorem foldl {β : Type} {f : State → β → State} {l : List β} (hf : ∀ t, ∀ x ∈ l, ResetKeeps t (f t x))
    (s : State) : ResetKeeps s (l.foldl f s) :=
  List.foldlRecOn (motive := ResetKeeps s) l f (refl s) fun t ht x hx => ht.trans (hf t x hx)

theorem foldl_snd {α β : Type} {f : α × State → β → α × State} {l : List β}
    (hf : ∀ p, ∀ x ∈ l, ResetKeeps p.2 (f p x).2) (p : α × State) : ResetKeeps p.2 (l.foldl f p).2 :=
  List.foldlRecOn (motive := fun r : α × State => ResetKeeps p.2 r.2) l f (refl p.2)
    fun r hr x hx => hr.trans (hf r x hx)

theorem ite {c : Prop} [Decidable c] (ht : ResetKeeps s t) (hu : ResetKeeps s u) : ResetKeeps s (if c then t else u) := by
  split
  · exact ht
  · exact hu

end ResetKeeps

section
variable (s : State)

/-! ### Mast and the Berths -/

theorem ResetWord.offMast : OffMast ResetWord where
  pend _ := ResetWord.not_of_range (by simp only [HST_MSIX_PBA_PEND]; omega)
  lost _ _ := ResetWord.not_of_mod (by simp only [BRN_EVT_STATS_LOST, dEvt]; omega)
  state _ := ResetWord.not_of_mod (by simp only [MST_SRC_STATE_LEVEL, dSrc]; omega)

theorem State.setLevel_resetKeeps (src : Nat) (b : Bool) : ResetKeeps s (s.setLevel src b) :=
  .of_bare (ResetWord.offMast.setLevel s src b) (s.setLevel_bare src b)

theorem State.fireEdge_resetKeeps (src : Nat) : ResetKeeps s (s.fireEdge src) :=
  .of_bare (ResetWord.offMast.fireEdge s src) (s.fireEdge_bare src)

theorem State.rxLevel_resetKeeps (r : Nat) : ResetKeeps s (s.rxLevel r) := .ite (s.setLevel_resetKeeps _ _) (.refl s)

theorem State.emptyInto_resetKeeps (r : Nat) : ResetKeeps s (s.emptyInto r).2 := by
  refine ResetKeeps.foldl_snd (p := (false, s)) fun p a ha => ?_
  have ha := List.mem_range.1 ha
  split
  · have h : ResetKeeps p.2 (p.2.setChan a r none) := ⟨.of_regs rfl, rfl, rfl, rfl⟩
    exact h.hw (f := BTH_LOST_LOST) (by decide) (ResetWord.not_of_range (by simp only [BTH_LOST_LOST]; omega)) _
  · exact .refl p.2

theorem State.resetReceivers_resetKeeps (rs : List Nat) : ResetKeeps s (s.resetReceivers rs) := by
  unfold State.resetReceivers
  extract_lets x
  have hx : ResetKeeps s x.2 := ResetKeeps.foldl_snd (p := (false, s)) fun p r _ =>
    (p.2.emptyInto_resetKeeps r).trans (State.rxLevel_resetKeeps _ r)
  clear_value x
  exact .ite (hx.trans (State.fireEdge_resetKeeps _ _)) hx

theorem State.returnHeld_resetKeeps (h : Held) : ResetKeeps s (s.returnHeld h) := by
  have ha : ResetKeeps s (s.p MST_SRC_STATE_ACTIVE (dSrc h.vec) 0) :=
    (ResetKeeps.refl s).p (f := MST_SRC_STATE_ACTIVE) (by decide) (ResetWord.offMast.state h.vec) 0
  unfold State.returnHeld
  refine .ite ?_ (.refl s)
  refine .ite (.ite ?_ ha) (ha.p (f := MST_SRC_STATE_COUNT) (by decide) (ResetWord.offMast.state h.vec) _)
  exact ha.trans ⟨.of_regs rfl, rfl, rfl, rfl⟩

theorem State.mastQuayReset_resetKeeps (q : Nat) : ResetKeeps s (s.mastQuayReset q) := by
  unfold State.mastQuayReset
  extract_lets cores t
  have ht : ResetKeeps s t := ResetKeeps.foldl (fun u c _ => by
    have h : ResetKeeps u ((u.setCore c { u.core c with held := none, kept := [] }).setOffer c none) :=
      ⟨.of_regs rfl, rfl, rfl, rfl⟩
    exact h.trans (ResetKeeps.foldl (fun v x _ => v.returnHeld_resetKeeps x) _)) s
  clear_value t
  refine ht.trans (ResetKeeps.foldl (fun u n _ => ?_) t)
  exact .ite ((ResetKeeps.refl u).p (f := MST_SRC_STATE_ACTIVE) (by decide) (ResetWord.offMast.state n) 0) (.refl u)

/-! ### The quay's exchange and its tasks -/

theorem State.setQuay_resetKeeps (q : Nat) (x : QuaySt) : ResetKeeps s (s.setQuay q x) := ⟨.of_regs rfl, rfl, rfl, rfl⟩

theorem State.checking_resetKeeps (l : List Nat) : ResetKeeps s { s with checking := l } := ⟨.of_regs rfl, rfl, rfl, rfl⟩

theorem State.mixPrograms_resetKeeps (q : Nat) (other : List Host.Cell) : ResetKeeps s (s.mixPrograms q other) := by
  unfold State.mixPrograms
  refine ResetKeeps.foldl (fun t k _ => ?_) s
  exact .ite (.ite ⟨.of_regs rfl, rfl, rfl, rfl⟩ ⟨.of_regs rfl, rfl, rfl, rfl⟩) (.refl t)

theorem State.setXState_resetKeeps (q v : Nat) : ResetKeeps s (s.setXState q v) :=
  (ResetKeeps.refl s).p (by decide) (ResetWord.not_of_mod (by simp only [BRN_XCHG_STATUS_STATE, dQuay]; omega)) v

theorem State.xchgReset_resetKeeps (q : Nat) : ResetKeeps s (s.xchgReset q) := by
  unfold State.xchgReset
  dsimp only
  refine .ite ?_ (.ite (s.setXState_resetKeeps ..) (.refl s))
  refine ResetKeeps.trans ?_ (State.setXState_resetKeeps _ _ _)
  exact (s.mixPrograms_resetKeeps q (s.settle q).mem).trans (State.setQuay_resetKeeps _ q _)

theorem State.stopQuay_resetKeeps (q : Nat) : ResetKeeps s (s.stopQuay q) := by
  unfold State.stopQuay
  extract_lets t
  have ht : ResetKeeps s t := ResetKeeps.foldl (fun u k _ => (ResetKeeps.refl u).p (f := BRN_ERR_STATS_QUEUED) (by decide)
    (ResetWord.not_of_mod (by simp only [BRN_ERR_STATS_QUEUED, dEvt]; omega)) 0) s
  clear_value t
  exact ht.trans (t.setQuay_resetKeeps q _)

/-! ### A voided proof and a lost medium -/

theorem State.voidProof_resetWords : SameWords ResetWord s s.voidProof := by
  unfold State.voidProof State.busyNow
  split
  · rw [State.ringProofEnd_eq]
    have hprf : ¬ ResetWord (PRF_STATUS_STATE.off + 0) := ResetWord.not_of_range (by decide)
    have h := ((SameWords.refl s).p (f := PRF_STATUS_STATE) (by decide) hprf pSTAGED).p (f := PRF_STATUS_REFUSAL)
      (by decide) hprf 0x00A
    exact (h.p (f := SYS_CTR_CHECK_BUSY) (by decide) (ResetWord.not_of_range (by decide)) _).trans (.of_regs rfl)
  · exact .refl s

theorem State.voidProof_epochs : s.voidProof.epochs = s.epochs := by rw [State.voidProof_eq]

/-- Where no ring waits for a proof, a voided one leaves the rings as they are. -/
theorem State.voidProof_rings (h : s.ringProof = none) : s.voidProof.rings = s.rings := by
  unfold State.voidProof State.ringProofEnd
  split
  · rw [show (((s.setPrf pSTAGED).p PRF_STATUS_REFUSAL 0 0x00A).busyNow).ringProof = none from h]
    rfl
  · rfl

theorem State.drainCheck_resetWords (p : Nat) : SameWords ResetWord s (s.drainCheck p) := by
  unfold State.drainCheck
  split
  · exact (SameWords.refl s).p (by decide)
      (ResetWord.not_of_mod (by simp only [SYS_CTR_STATUS_DRAINING, dPath]; omega)) _
  · exact .refl s

theorem State.itemGone_resetWords (id : Nat) : SameWords ResetWord s (s.itemGone id) := by
  unfold State.itemGone
  split
  · exact .refl s
  · refine SameWords.trans ?_ (State.drainCheck_resetWords _ _)
    exact .of_regs rfl

theorem State.hostLose_resetWords : SameWords ResetWord s s.hostLose :=
  (SameWords.foldl (fun t id => t.itemGone_resetWords id) _ s).trans (.of_regs rfl)

theorem State.hostLose_epochs : s.hostLose.epochs = s.epochs :=
  foldl_keep _ State.epochs (fun t id => by rw [State.itemGone_eq]) _ s

/-- Banks of fields above the reset words return to their reset values. -/
theorem State.clrAll_resetKeeps (fs : List Fld) (n stride : Nat) (h : ∀ f ∈ fs, f.lo < 32 ∧ 0x1001000 ≤ f.off) :
    ResetKeeps s (s.clrAll fs n stride) := by
  refine ResetKeeps.foldl (fun t i _ => ResetKeeps.foldl (fun u f hf => ?_) t) s
  obtain ⟨hlo, hoff⟩ := h f hf
  exact (ResetKeeps.refl u).p hlo (ResetWord.not_of_range (by omega)) _

/-! ### Epochs (R375) -/

theorem State.epoch_congr {s t : State} (h : t.epochs = s.epochs) (c : Nat) : t.epoch c = s.epoch c := by
  unfold State.epoch
  rw [h]

theorem State.hw_epochs (f : Fld) (d v : Nat) : (s.hw f d v).epochs = s.epochs := rfl

theorem State.enSet_epochs (e : En) (b : Bool) : (s.enSet e b).epochs = s.epochs := rfl

theorem State.hw_rings (f : Fld) (d v : Nat) : (s.hw f d v).rings = s.rings := rfl

theorem State.epoch_bumpEpoch (p c : Nat) :
    (s.bumpEpoch p).epoch c = if p = c then (s.epoch c + 1) % 16 else s.epoch c := by
  unfold State.bumpEpoch State.setEpoch State.epoch
  rw [AMap.get_set]
  split
  · next h => rw [h]
  · rfl

end

/-! ## A per-quay reset (R52, R114) -/

/-- SYS_MODE is written by the check of TRANSIT, and no other reset word. -/
theorem State.transitCheck_resetWords (s : State) :
    SameWords (fun x => ResetWord x ∧ x ≠ SYS_MODE_MODE.off) s s.transitCheck := by
  unfold State.transitCheck
  split
  · exact (SameWords.refl s).p (by decide) (fun h => h.2 rfl) _
  · exact .refl s

theorem State.transitCheck_epochs (s : State) : s.transitCheck.epochs = s.epochs := by
  unfold State.transitCheck
  split <;> rfl

/-- What a reset of quay `q` leaves. -/
structure QuayReset (q : Nat) (s t : State) : Prop where
  enable : t.on BRN_QUAY_CTRL_ENABLE (dQuay q) = false
  cause : (t.g SYS_RESET_CAUSE_QUAY).testBit q = true
  gen : t.g BRN_QUAY_GEN_GEN (dQuay q) =
    if s.g BRN_QUAY_GEN_GEN (dQuay q) = 0xFFFFFF then 1 else (s.g BRN_QUAY_GEN_GEN (dQuay q) + 1) % 2 ^ BRN_QUAY_GEN_GEN.w
  epoch : ∀ c, c / 4 = q → t.epoch c = (s.epoch c + 1) % 16

/-- The four cores of a quay start anew, and each one's epoch increments. -/
theorem State.epoch_restartCores (s : State) {q c : Nat} (hc : c / 4 = q) :
    ([4 * q, 4 * q + 1, 4 * q + 2, 4 * q + 3].foldl (fun s c => (s.setCore c {}).bumpEpoch c) s).epoch c =
      (s.epoch c + 1) % 16 := by
  have hset (t : State) (d : Nat) : (t.setCore d {}).epoch c = t.epoch c := rfl
  simp only [List.foldl, State.epoch_bumpEpoch, hset]
  obtain h | h | h | h : c = 4 * q ∨ c = 4 * q + 1 ∨ c = 4 * q + 2 ∨ c = 4 * q + 3 := by omega
  all_goals simp [h]

/-- A quay's ENABLE and generation lie in words other than SYS_MODE, and are other fields than each other and QUAY. -/
theorem quayFields_apart (q : Nat) : BRN_QUAY_CTRL_ENABLE.off + dQuay q ≠ SYS_MODE_MODE.off ∧
    BRN_QUAY_GEN_GEN.off + dQuay q ≠ SYS_MODE_MODE.off ∧
    BRN_QUAY_CTRL_ENABLE.key (dQuay q) ≠ BRN_QUAY_GEN_GEN.key (dQuay q) ∧
    SYS_RESET_CAUSE_QUAY.key 0 ≠ BRN_QUAY_CTRL_ENABLE.key (dQuay q) ∧
    SYS_RESET_CAUSE_QUAY.key 0 ≠ BRN_QUAY_GEN_GEN.key (dQuay q) := by
  simp only [Fld.key, BRN_QUAY_CTRL_ENABLE, BRN_QUAY_GEN_GEN, SYS_MODE_MODE, SYS_RESET_CAUSE_QUAY]
  omega

theorem State.quayReset_spec (s : State) {q : Nat} (hq : q < 6) : QuayReset q s (s.quayReset q) := by
  have hctrl := ResetWord.of_quayCtrl hq
  have hgen := ResetWord.of_quayGen hq
  obtain ⟨hcm, hgm, hcg, hqc, hqg⟩ := quayFields_apart q
  unfold State.quayReset
  extract_lets cores was t0 t1 t2 t3 k t4 g t5 t6
  have h0 : ResetKeeps s t0 := (s.mastQuayReset_resetKeeps q).trans (State.xchgReset_resetKeeps _ q)
  clear_value t0
  -- ENABLE is cleared, and what follows leaves it, the generation and the epochs until the cores restart.
  have h1 : ResetKeeps (t0.enSet (.quay q) false) t1 := State.stopQuay_resetKeeps _ q
  have hoff1 : t1.on BRN_QUAY_CTRL_ENABLE (dQuay q) = false :=
    (h1.words.on (by decide) hctrl).trans (State.on_p_zero ..)
  have hgen1 : t1.g BRN_QUAY_GEN_GEN (dQuay q) = s.g BRN_QUAY_GEN_GEN (dQuay q) :=
    ((h1.words.g _ _ (by decide) hgen).trans (State.g_p_ne _ _ _ _ _ _ hcg)).trans (h0.words.g _ _ (by decide) hgen)
  have he1 : t1.epochs = s.epochs := h1.epochs.trans ((t0.enSet_epochs _ _).trans h0.epochs)
  clear_value t1
  have h2 : ResetKeeps t1 t2 := t1.checking_resetKeeps _
  clear_value t2
  have he3 (c : Nat) (hc : c / 4 = q) : t3.epoch c = (s.epoch c + 1) % 16 := by
    rw [← State.epoch_congr (h2.epochs.trans he1) c]
    exact t2.epoch_restartCores hc
  have hr3 : t3.regs = t2.regs := foldl_keep (fun s c => (s.setCore c {}).bumpEpoch c) State.regs (fun _ _ => rfl) cores t2
  clear_value t3
  have h4 : ResetKeeps t3 t4 := (t3.resetReceivers_resetKeeps cores).trans (State.setQuay_resetKeeps _ q _)
  clear_value t4
  have h34 : SameWords ResetWord t1 t4 := h2.words.trans (SameWords.trans (.of_regs hr3) h4.words)
  have hg : g = s.g BRN_QUAY_GEN_GEN (dQuay q) := (h34.g _ _ (by decide) hgen).trans hgen1
  clear_value g
  have h6 := (t5.hw SYS_RESET_CAUSE_QUAY 0 (2 ^ q)).transitCheck_resetWords
  have he6 : t6.epochs = t4.epochs :=
    (State.transitCheck_epochs _).trans ((t5.hw_epochs _ _ _).trans (t4.p_epochs _ _ _))
  -- A voided proof leaves all of these.
  obtain ⟨hx, hex⟩ : SameWords ResetWord t6 (if was then t6.voidProof else t6) ∧
      (if was then t6.voidProof else t6).epochs = t6.epochs := by
    split
    · exact ⟨t6.voidProof_resetWords, t6.voidProof_epochs⟩
    · exact ⟨.refl t6, rfl⟩
  refine ⟨?_, ?_, ?_, fun c hc => ?_⟩
  · rw [hx.on (by decide) hctrl, h6.on (by decide) ⟨hctrl, hcm⟩, State.on_hw_ne _ _ _ _ _ _ hqc,
      State.on_p_ne _ _ _ _ _ _ hcg.symm, h34.on (by decide) hctrl, hoff1]
  · rw [hx.g SYS_RESET_CAUSE_QUAY 0 (by decide) .of_cause,
      h6.g SYS_RESET_CAUSE_QUAY 0 (by decide) ⟨.of_cause, by decide⟩, State.g_hw, Nat.testBit_mod_two_pow]
    simp [SYS_RESET_CAUSE_QUAY, hq]
  · rw [hx.g _ _ (by decide) hgen, h6.g _ _ (by decide) ⟨hgen, hgm⟩, State.g_hw_ne _ _ _ _ _ _ hqg, State.g_p_same, hg]
    split
    · rfl
    · rfl
  · exact (State.epoch_congr (hex.trans he6) c).trans
      ((State.epoch_congr h4.epochs c).trans (he3 c hc))

/-! ## A function-level reset (R53, R459) -/

/-- What a function-level reset leaves. -/
structure FunctionReset (s t : State) : Prop where
  enable : t.on HST_CTRL_ENABLE = false
  rings : t.rings = []
  epoch : t.epoch 24 = (s.epoch 24 + 1) % 16
  cause : t.on SYS_RESET_CAUSE_FLR = true
  mode : t.mode = s.mode

/-- The fields of the command rings and of the MSI-X table lie above the reset words. -/
theorem hostFields_above : (∀ f ∈ ringFields, f.lo < 32 ∧ 0x1001000 ≤ f.off) ∧
    ∀ f ∈ msixFields, f.lo < 32 ∧ 0x1001000 ≤ f.off := by decide

/-- A function-level reset leaves what its structure says, and the link as it was. -/
theorem State.flr_spec (s : State) : FunctionReset s s.flr ∧ s.flr.on HST_STATUS_LINK = s.on HST_STATUS_LINK := by
  have hhst : ResetWord (HST_CTRL_ENABLE.off + 0) := .inl (by decide)
  have hmode : ResetWord (SYS_MODE_MODE.off + 0) := .inl (by decide)
  have hlink : ResetWord (HST_STATUS_LINK.off + 0) := .inl (by decide)
  unfold State.flr
  extract_lets rings was t0 t1 t2 t3 t4 t5
  -- HST's ENABLE is cleared, then the rings.
  have h0 : SameWords ResetWord (s.enSet .hst false) t0 := State.hostLose_resetWords _
  have he0 : t0.epochs = s.epochs := (State.hostLose_epochs _).trans (s.enSet_epochs _ _)
  clear_value t0
  have h1 : SameWords ResetWord t0 t1 := .of_regs rfl
  obtain ⟨hrings, hproof, he1⟩ : t1.rings = [] ∧ t1.ringProof = none ∧ t1.epochs = t0.epochs := ⟨rfl, rfl, rfl⟩
  clear_value t1
  have h3 : ResetKeeps t1 t3 :=
    ((((t1.clrAll_resetKeeps _ _ _ hostFields_above.1).trans (State.clrAll_resetKeeps _ _ _ _ hostFields_above.2)).p
      (f := HST_MSIX_PBA_PEND) (by decide) (ResetWord.not_of_range (by decide)) _).p (f := HST_MSIX_PBA_PEND) (by decide)
      (ResetWord.not_of_range (by decide)) _).p (f := HST_WIN_BASE_ADDR) (by decide) (ResetWord.not_of_mod (by decide)) _
  clear_value t3
  -- Epoch 24 increments, and what follows leaves it.
  have h4 : ResetKeeps (t3.bumpEpoch 24) t4 := State.resetReceivers_resetKeeps _ [24]
  have he4 : t4.epoch 24 = (s.epoch 24 + 1) % 16 := by
    rw [State.epoch_congr h4.epochs, State.epoch_bumpEpoch, if_pos rfl,
      State.epoch_congr (((h3.epochs.trans he1).trans he0))]
  have hw4 : SameWords ResetWord (s.enSet .hst false) t4 :=
    ((h0.trans h1).trans h3.words).trans (SameWords.trans (.of_regs (t3.setEpoch_regs _ _)) h4.words)
  have hr4 : t4.rings = [] := h4.rings.trans (h3.rings.trans hrings)
  have hp4 : t4.ringProof = none := h4.ringProof.trans (h3.ringProof.trans hproof)
  clear_value t4
  -- A voided proof leaves all of these.
  obtain ⟨hx, hex, hrx⟩ : SameWords ResetWord t5 (if was then t5.voidProof else t5) ∧
      (if was then t5.voidProof else t5).epochs = t4.epochs ∧ (if was then t5.voidProof else t5).rings = t4.rings := by
    split
    · exact ⟨t5.voidProof_resetWords, t5.voidProof_epochs.trans (t4.hw_epochs _ _ _),
        (t5.voidProof_rings hp4).trans (t4.hw_rings _ _ _)⟩
    · exact ⟨.refl t5, t4.hw_epochs _ _ _, t4.hw_rings _ _ _⟩
  refine ⟨⟨?_, hrx.trans hr4, (State.epoch_congr hex 24).trans he4, ?_, ?_⟩, ?_⟩
  · rw [hx.on (by decide) hhst, State.on_hw_ne _ _ _ _ _ _ (by decide), hw4.on (by decide) hhst]
    exact State.on_p_zero ..
  · rw [hx.on (by decide) .of_cause]
    exact State.on_hw_one _ rfl 0
  · unfold State.mode
    rw [hx.g _ _ (by decide) hmode, State.g_hw_ne _ _ _ _ _ _ (by decide), hw4.g _ _ (by decide) hmode]
    exact State.g_p_ne _ _ _ _ _ _ (by decide)
  · rw [hx.on (by decide) hlink, State.on_hw_ne _ _ _ _ _ _ (by decide), hw4.on (by decide) hlink]
    exact State.on_p_ne _ _ _ _ _ _ (by decide)

theorem exec_pcieFlr (s : State) : ∃ t, exec .pcieFlr s = .next t ∧ FunctionReset s t ∧ t.mem = s.mem :=
  ⟨_, rfl, s.flr_spec.1, s.flr_mem⟩

/-- PCIE_PERST is a function-level reset that finds the link down. -/
theorem exec_pciePerst (s : State) :
    ∃ t, exec .pciePerst s = .next t ∧ FunctionReset s t ∧ t.mem = s.mem ∧ t.on HST_STATUS_LINK = false := by
  have hmode : (((s.p HST_STATUS_LINK 0 0).p HST_STATUS_GEN 0 0).p HST_STATUS_WIDTH 0 0).mode = s.mode :=
    ((State.g_p_ne _ _ _ _ _ _ (by decide)).trans (State.g_p_ne _ _ _ _ _ _ (by decide))).trans
      (State.g_p_ne _ _ _ _ _ _ (by decide))
  obtain ⟨h, hlink⟩ := (((s.p HST_STATUS_LINK 0 0).p HST_STATUS_GEN 0 0).p HST_STATUS_WIDTH 0 0).flr_spec
  refine ⟨_, rfl, ⟨h.enable, h.rings, h.epoch, h.cause, h.mode.trans hmode⟩, State.flr_mem _, hlink.trans ?_⟩
  rw [State.on_p_ne _ _ _ _ _ _ (by decide), State.on_p_ne _ _ _ _ _ _ (by decide), State.on_p_zero]

/-! ## The statement -/

/-- Every command that a device held in reset does not take ends in an error response without effect (R49, R482;
the response is the model's choice, log 9). -/
theorem exec_of_held {s : State} (hr : s.inReset = true) (conf : BitVec 16) (m : Fin 42) (a : Addr) (n : AccSize)
    (k : BitVec 8) (q : Fin 8) :
    ∀ x ∈ [Instr.hostReset conf, .quayReset conf q, .wdtKick k, .wideReadCapture m a n],
      exec x s = .next (s.answer false 0) := by
  have hread : s.busRead m.val a.toNat n.bytes = (none, s.answer false 0) := if_pos hr
  simp only [List.mem_cons, List.not_mem_nil, or_false]
  rintro x (rfl | rfl | rfl | rfl)
  · exact congrArg Host.Outcome.next (State.command_of_held hr _)
  · exact congrArg Host.Outcome.next (State.command_of_held hr _)
  · exact congrArg Host.Outcome.next (State.command_of_held hr _)
  · exact congrArg (fun y => Host.Outcome.next (answerRead y)) hread

section
variable {s : State}

/-- SYS_RESET_CMD with another CONFIRM than 0x5253 has no effect. -/
theorem exec_reset_of_ne {conf : BitVec 16} (hr : s.inReset = false) (hc : conf.toNat ≠ 0x5253) :
    exec (.hostReset conf) s = .next (s.answer true 0) ∧ ∀ q, exec (.quayReset conf q) s = .next (s.answer true 0) := by
  have h (scope : Bool) (q : Nat) : s.command (·.resetCmd conf.toNat scope q) = s.answer true 0 :=
    (State.command_of_inReset hr _).trans (congrArg (State.answer · true 0) (if_pos hc))
  exact ⟨congrArg Host.Outcome.next (h false 0), fun q => congrArg Host.Outcome.next (h true q.val)⟩

theorem exec_hostReset {conf : BitVec 16} (hr : s.inReset = false) (hc : conf.toNat = 0x5253) :
    exec (.hostReset conf) s = .next ((s.resetBy SYS_RESET_CAUSE_HOST s.afterReset).answer true 0) := by
  have h : s.resetCmd conf.toNat false 0 = s.resetBy SYS_RESET_CAUSE_HOST s.afterReset := by
    simp [State.resetCmd, hc, mRESET]
  exact congrArg Host.Outcome.next ((State.command_of_inReset hr _).trans (congrArg (State.answer · true 0) h))

theorem exec_quayReset {conf : BitVec 16} {q : Fin 8} (hq : q.val < 6) (hr : s.inReset = false) (hc : conf.toNat = 0x5253) :
    exec (.quayReset conf q) s = .next ((s.quayReset q.val).answer true 0) := by
  have h : s.resetCmd conf.toNat true q.val = s.quayReset q.val := by
    simp [State.resetCmd, hc, mRESET, hq]
  exact congrArg Host.Outcome.next ((State.command_of_inReset hr _).trans (congrArg (State.answer · true 0) h))

theorem ResetBy.answer {t : State} {cause : Fld} {ph : Phase} (h : ResetBy s t cause ph) (ok : Bool) (v : Nat) :
    ResetBy s (t.answer ok v) cause ph :=
  ⟨h.wiped, h.phase, h.cause, h.lastMode, h.fromSafe⟩

theorem QuayReset.answer {t : State} {q : Nat} (h : QuayReset q s t) (ok : Bool) (v : Nat) : QuayReset q s (t.answer ok v) :=
  ⟨h.enable, h.cause, h.gen, h.epoch⟩

/-- WATCHDOG_EXPIRY once the period, in ms of 400000 cycles, has passed. -/
theorem exec_watchdogExpiry (hon : s.on SYS_WDT_CTRL_ENABLE = true)
    (h : s.wdtAt + s.g SYS_WDT_CTRL_PERIOD_MS * 400000 ≤ s.fab) :
    exec .watchdogExpiry s = .next (s.resetBy SYS_RESET_CAUSE_WDT s.afterReset) := by
  have hcycles : s.g SYS_WDT_CTRL_PERIOD_MS * 1000 * usCycles = s.g SYS_WDT_CTRL_PERIOD_MS * 400000 :=
    Nat.mul_assoc _ 1000 400
  have hdue : s.wdtDue = true := by simp [State.wdtDue, hon, hcycles, h]
  exact congrArg Host.Outcome.next (if_pos hdue)

/-- WDT_KICK with 0x5A as the next write after 0xA5. -/
theorem exec_wdtKick_restarts (hr : s.inReset = false) (hk : s.wdtKey = 0xA5) :
    exec (.wdtKick 0x5A) s = .next ({ s with wdtKey := 0x5A, wdtAt := s.fab }.answer true 0) :=
  congrArg Host.Outcome.next ((State.command_of_inReset hr _).trans
    (congrArg (State.answer · true 0) (if_pos ⟨hk, rfl⟩)))

end

/-- Settles O34, from what each source's reset leaves and records, and the words that the shared operations keep. -/
theorem resetCommands : Obligations.ResetCommands := by
  intro dbg vb conf s wiped met
  refine ⟨?_, ?_, ?_, fun h => ?_, exec_pllLock, fun h => ?_, exec_mramReady, fun h => ?_, fun s1 s8 d8 mhz h => ?_,
    fun hr m a n k q => exec_of_held hr conf m a n k q, fun hr hc => ?_, fun hr hc => exec_reset_of_ne hr hc,
    fun q hq hr hc => ?_, fun hon h => ?_, exec_wdtKick_restarts, fun x hx => ?_, ?_⟩
  -- POWER_ON, SUPPLY_UNDERVOLTAGE, RESET_N_ASSERT, RESET_N_RELEASE
  · obtain ⟨t, e, hw, hpor, hlast, hph, hdbg⟩ := exec_powerOn dbg vb s
    exact ⟨t, e, hw, hpor, hlast, hdbg, hph⟩
  · obtain ⟨hw, hpor, -, hph, -⟩ := State.powerOnReset_spec { s with supplies := false } .off
    exact ⟨_, rfl, hw, hpor, hph⟩
  · have h := State.resetBy_spec { s with resetN := false } (cause := SYS_RESET_CAUSE_PIN) (by decide)
      (if s.supplies then .held else .off)
    exact ⟨_, rfl, ⟨h.wiped, h.lastMode⟩, h.cause, h.phase⟩
  · exact ⟨_, exec_resetNRelease dbg h, State.deviceReset_wiped { s with resetN := true } .released,
      State.deviceReset_phase .., rfl⟩
  -- FUSE_READ, SRAM_CLEAR_END, BOOT_END
  · refine ⟨_, exec_fuseRead h, rfl, State.on_p_one _ _ _ (by decide), ?_, rfl⟩
    rw [State.on_p_ne _ _ _ _ _ _ (by decide)]
    exact State.on_p_bit _ _ (by decide) _
  · exact ⟨_, exec_sramClearEnd h, rfl, State.g_p_same .., s.rb_clearSram .sram⟩
  · by_cases hc : s.bootFail ⟨s1, s8, d8, mhz.toNat⟩ = 0
    · obtain ⟨t, e, hm, ht⟩ := exec_bootEnd_pass s1 s8 d8 mhz h hc
      exact ⟨t, e, hm, (if_pos hc).mpr ht⟩
    · obtain ⟨t, e, hm, ht⟩ := exec_bootEnd_fail s1 s8 d8 mhz h hc
      exact ⟨t, e, hm, (if_neg hc).mpr ht⟩
  -- HOST_RESET, QUAY_RESET, WATCHDOG_EXPIRY
  · have h := (s.resetBy_spec (cause := SYS_RESET_CAUSE_HOST) (by decide) s.afterReset).answer true 0
    exact ⟨_, exec_hostReset hr hc, ⟨h.wiped, h.lastMode⟩, h.cause⟩
  · obtain ⟨henable, hcause, hgen, hepoch⟩ := (s.quayReset_spec hq).answer true 0
    exact ⟨_, exec_quayReset hq hr hc, henable, hcause, hgen, hepoch⟩
  · have hreset := s.resetBy_spec (cause := SYS_RESET_CAUSE_WDT) (by decide) s.afterReset
    exact ⟨_, exec_watchdogExpiry hon h, ⟨hreset.wiped, hreset.lastMode⟩, hreset.cause, hreset.fromSafe⟩
  -- PCIE_FLR, PCIE_PERST
  · have hflr : ∃ t, exec x s = .next t ∧ FunctionReset s t ∧ t.mem = s.mem := by
      simp only [List.mem_cons, List.not_mem_nil, or_false] at hx
      obtain rfl | rfl := hx
      · exact exec_pcieFlr s
      · obtain ⟨t, e, h, hmem, -⟩ := exec_pciePerst s
        exact ⟨t, e, h, hmem⟩
    obtain ⟨t, e, ⟨henable, hrings, hepoch, hcause, hmode⟩, hmem⟩ := hflr
    exact ⟨t, e, henable, hrings, hepoch, hcause, hmode, hmem⟩
  · obtain ⟨t, e, -, -, hlink⟩ := exec_pciePerst s
    exact ⟨t, e, hlink⟩

end Sys2Proof.Machine

/-! # Proofs: the staging set emptied (O35)

Both DISCARD and the application of a set leave the empty set, in which every staged copy reads as the live value and a
PROOF_END or a PULL_APPLY changes nothing. -/

namespace Sys2Proof.Machine

/-! ## The registers of PRF -/

section
variable (s : State)

theorem State.prf_p_ne {f : Fld} {d : Nat} (h : f.key d ≠ PRF_STATUS_STATE.key 0) (v : Nat) :
    (s.p f d v).prf = s.prf :=
  s.g_p_ne _ _ _ _ _ h

theorem State.prf_setPrf {x : Nat} (h : x < 16) : (s.setPrf x).prf = x :=
  (s.g_p_same _ _ _).trans (Nat.mod_eq_of_lt h)

theorem State.g_setPrf_ne (x : Nat) {e : Fld} {d : Nat} (h : PRF_STATUS_STATE.key 0 ≠ e.key d) :
    (s.setPrf x).g e d = s.g e d :=
  s.g_p_ne _ _ _ _ _ h

theorem State.g_ringProofEnd (f : Fld) (d : Nat) : s.ringProofEnd.g f d = s.g f d := by
  rw [State.ringProofEnd_eq]
  rfl

theorem State.staged_ringProofEnd : s.ringProofEnd.staged = s.staged := by rw [State.ringProofEnd_eq]

theorem State.cores_ringProofEnd : s.ringProofEnd.cores = s.cores := by rw [State.ringProofEnd_eq]

theorem State.prf_busyNow : s.busyNow.prf = s.prf := s.prf_p_ne (by decide) _

/-- The master whose commands and writes of staged fields are not ignored (R62). -/
theorem State.prfForeign_iff (m : Nat) :
    s.prfForeign m = true ↔ s.prf ≠ pIDLE ∧ s.g PRF_STATUS_OWNER ≠ m := by
  simp [State.prfForeign]

end

/-! ## The empty set (R64, R69) -/

/-- Nothing is staged: STATE is IDLE, OVERFLOW and OWNER are clear. -/
structure SetEmpty (t : State) : Prop where
  staged : t.staged = []
  prf : t.prf = pIDLE
  overflow : t.on PRF_STATUS_OVERFLOW = false
  owner : t.g PRF_STATUS_OWNER = 0

namespace SetEmpty
variable {t : State}

/-- A field of another key than STATE, OVERFLOW and OWNER is written. -/
theorem p (h : SetEmpty t) {f : Fld} {d : Nat}
    (hk : ∀ e ∈ [PRF_STATUS_STATE, PRF_STATUS_OVERFLOW, PRF_STATUS_OWNER], f.key d ≠ e.key 0) (v : Nat) :
    SetEmpty (t.p f d v) where
  staged := h.staged
  prf := (t.prf_p_ne (hk _ (by simp)) v).trans h.prf
  overflow := (t.on_p_ne _ _ _ _ _ (hk _ (by simp))).trans h.overflow
  owner := (t.g_p_ne _ _ _ _ _ (hk _ (by simp))).trans h.owner

theorem of_same {u : State} (h : SetEmpty t) (hs : u.staged = t.staged) (hr : u.regs = t.regs) : SetEmpty u where
  staged := hs.trans h.staged
  prf := (State.g_congr hr _ _).trans h.prf
  overflow := by
    have e : u.on PRF_STATUS_OVERFLOW = t.on PRF_STATUS_OVERFLOW := by
      unfold State.on
      rw [State.g_congr hr]
    rw [e, h.overflow]
  owner := (State.g_congr hr _ _).trans h.owner

theorem hw (h : SetEmpty t) {f : Fld} {d : Nat}
    (hk : ∀ e ∈ [PRF_STATUS_STATE, PRF_STATUS_OVERFLOW, PRF_STATUS_OWNER], f.key d ≠ e.key 0) (v : Nat) :
    SetEmpty (t.hw f d v) :=
  (h.p hk _).of_same rfl rfl

/-- Every staged copy reads as the live value. -/
theorem fldRead (h : SetEmpty t) (f : Fld) (d : Nat) : t.fldRead { f with acc := .ps } d = t.g f d := by
  show AMap.get (t.g f d) t.staged _ = _
  rw [h.staged]
  rfl

/-- A PROOF_END that follows finds no proof. -/
theorem exec_proofEnd (h : SetEmpty t) : exec .proofEnd t = .next t := by
  have hp : t.prf ≠ pPROVING := by
    rw [h.prf]
    decide
  exact congrArg Host.Outcome.next (if_neg hp)

/-- A PULL_APPLY that follows finds no armed set. -/
theorem exec_pullApply (h : SetEmpty t) : exec .pullApply t = .next t := by
  have hp : (t.prf == pARMED) = false := by
    rw [h.prf]
    decide
  have hdue : t.pullDue = false := by simp [State.pullDue, hp]
  have hnames (q k : Nat) : t.pullNames q k = false := by simp [State.pullNames, hp]
  show execPullApply t = _
  simp [execPullApply, hdue, hnames]

end SetEmpty

section
variable (s : State)

theorem State.unstage_setEmpty : SetEmpty s.unstage := by
  unfold State.unstage
  refine SetEmpty.of_same (t := (((({ s with staged := [] }.p PRF_STAGED_COUNT 0 0).p PRF_STATUS_OVERFLOW 0 0).p
    PRF_STATUS_OWNER 0 0).setPrf pIDLE)) ⟨rfl, State.prf_setPrf _ (by decide), ?_, ?_⟩
    (State.staged_ringProofEnd _) (by rw [State.ringProofEnd_eq])
  · exact ((State.on_p_ne _ _ _ _ _ _ (by decide)).trans (State.on_p_ne _ _ _ _ _ _ (by decide))).trans
      (State.on_p_zero ..)
  · exact (State.g_setPrf_ne _ _ (by decide)).trans (State.g_p_same ..)

/-- The emptied set changes no field but those of the set. -/
theorem State.g_unstage_ne {f : Fld} {d : Nat}
    (h : ∀ x ∈ [PRF_STATUS_STATE, PRF_STATUS_OVERFLOW, PRF_STATUS_OWNER, PRF_STAGED_COUNT], f.key d ≠ x.key 0) :
    s.unstage.g f d = s.g f d := by
  have hne {x : Fld} (hx : x ∈ [PRF_STATUS_STATE, PRF_STATUS_OVERFLOW, PRF_STATUS_OWNER, PRF_STAGED_COUNT]) :
      x.key 0 ≠ f.key d := (h x hx).symm
  unfold State.unstage
  rw [State.g_ringProofEnd, State.g_setPrf_ne _ _ (hne (by simp)), State.g_p_ne _ _ _ _ _ _ (hne (by simp)),
    State.g_p_ne _ _ _ _ _ _ (hne (by simp)), State.g_p_ne _ _ _ _ _ _ (hne (by simp))]
  rfl

theorem State.cores_unstage : s.unstage.cores = s.cores := by
  unfold State.unstage
  rw [State.cores_ringProofEnd]
  rfl

end

/-! ## The application of the set (R69) -/

/-- One staged copy becomes live. -/
def State.applyField (s : State) (x : Nat × Nat) : State :=
  match fieldOf x.1 with
  | some (f, d) => s.p f d x.2
  | none => s

/-- The staged copies become live, the blocks take them up, the set is emptied, and the application is reported. -/
theorem State.applySet_eq (s : State) (at_ : Nat) : s.applySet at_ =
    (((((s.staged.foldl State.applyField s).takeStaged s at_).unstage).hw PRF_STATUS_APPLIED 0 1).putTime
      PRF_APPLIED_TIME_NS_NANOSECONDS 0 s.tideNs) := rfl

theorem State.applySet_setEmpty (s : State) (at_ : Nat) : SetEmpty (s.applySet at_) := by
  rw [State.applySet_eq]
  have h := (State.unstage_setEmpty ((s.staged.foldl State.applyField s).takeStaged s at_)).hw
    (f := PRF_STATUS_APPLIED) (d := 0) (by decide) 1
  exact ((h.p (by decide) _).p (by decide) _).p (by decide) _

/-! ## DISCARD (R62, R64, R72) -/

section
variable {s : State}

theorem exec_discard (hr : s.inReset = false) (m : Fin 42) :
    exec (.discard m) s = .next ((s.discardCmd m.val).answer true 0) :=
  congrArg Host.Outcome.next (State.command_of_inReset hr _)

/-- In the application cycle the set is applied first. -/
theorem State.discardCmd_of_due (h : s.pullDue = true) (m : Nat) : s.discardCmd m = s.applySet s.pullInstant := if_pos h

theorem State.discardCmd_of_taken (h : s.pullDue = false) {m : Nat}
    (hm : m = 24 ∨ m = 25 ∨ s.prf = pIDLE ∨ s.g PRF_STATUS_OWNER = m) : s.discardCmd m = s.unstage.busyNow := by
  have hf : ¬ ((s.prfForeign m && !(m == 24 || m == 25)) = true) := by
    rw [Bool.and_eq_true, State.prfForeign_iff]
    rintro ⟨⟨hidle, howner⟩, hhost⟩
    obtain rfl | rfl | h | h := hm
    · exact absurd hhost (by decide)
    · exact absurd hhost (by decide)
    · exact hidle h
    · exact howner h
  unfold State.discardCmd
  rw [if_neg (by simp [h]), if_neg hf]

theorem State.discardCmd_of_foreign (h : s.pullDue = false) {m : Nat} (h24 : m ≠ 24) (h25 : m ≠ 25)
    (hidle : s.prf ≠ pIDLE) (howner : s.g PRF_STATUS_OWNER ≠ m) : s.discardCmd m = s.hw PRF_STATUS_FOREIGN 0 1 := by
  have hf : (s.prfForeign m && !(m == 24 || m == 25)) = true := by
    rw [(s.prfForeign_iff m).mpr ⟨hidle, howner⟩]
    simp [h24, h25]
  unfold State.discardCmd
  rw [if_neg (by simp [h]), if_pos hf]

/-- A DISCARD that is taken leaves the empty set, whether or not the application goes first. -/
theorem State.discardCmd_setEmpty {m : Nat} (hm : m = 24 ∨ m = 25 ∨ s.prf = pIDLE ∨ s.g PRF_STATUS_OWNER = m) :
    SetEmpty (s.discardCmd m) := by
  cases h : s.pullDue with
  | true =>
    rw [State.discardCmd_of_due h]
    exact s.applySet_setEmpty _
  | false =>
    rw [State.discardCmd_of_taken h hm]
    exact s.unstage_setEmpty.p (by decide) _

end

/-- Settles O35: a DISCARD that is taken leaves the empty set, and outside the application cycle no more than that. -/
theorem discardEmptiesTheSet : Obligations.DiscardEmptiesTheSet := by
  intro m s hr
  refine ⟨fun hm => ?_, fun h24 h25 hidle howner hdue => ?_⟩
  · have h : SetEmpty ((s.discardCmd m.val).answer true 0) := (State.discardCmd_setEmpty hm).of_same rfl rfl
    refine ⟨_, exec_discard hr m, h.fldRead, fun hdue => ?_, h.prf, h.overflow, h.owner, h.exec_proofEnd,
      h.exec_pullApply⟩
    rw [State.discardCmd_of_taken hdue hm]
    refine ⟨s.unstage_mem, s.cores_unstage, fun f d hne => ?_⟩
    simp only [List.forall_mem_cons] at hne
    obtain ⟨hstate, hoverflow, howner, hcount, hbusy, -⟩ := hne
    have hunstage : s.unstage.g f d = s.g f d := s.g_unstage_ne (by simp [hstate, hoverflow, howner, hcount])
    exact (State.g_p_ne _ _ _ _ _ _ hbusy.symm).trans hunstage
  · rw [exec_discard hr, State.discardCmd_of_foreign hdue h24 h25 hidle howner]

end Sys2Proof.Machine

/-! # Proofs: staging, PROOF and PULL (O36)

What a write of a staged register, PROOF and PULL make of the set, and which words the blocks that take a set up write
beside the staged ones. -/

namespace Sys2Proof.AMap

variable {α β : Type}

theorem find_foldl_ins_ne (key : β → Nat) (val : β → α) {x : Nat} :
    ∀ (l : List β) (m : AMap α), x ∉ l.map key → find (l.foldl (fun m b => ins m (key b) (val b)) m) x = find m x
  | [], _, _ => rfl
  | b :: l, m, h => by
    simp only [List.map_cons, List.mem_cons, not_or] at h
    rw [List.foldl_cons, find_foldl_ins_ne key val l _ h.2, find_ins_ne _ _ _ _ (Ne.symm h.1)]

/-- Of listings under distinct keys each is found. -/
theorem find_foldl_ins_mem (key : β → Nat) (val : β → α) {b : β} :
    ∀ (l : List β) (m : AMap α), (l.map key).Nodup → b ∈ l →
      find (l.foldl (fun m b => ins m (key b) (val b)) m) (key b) = some (val b)
  | [], _, _, hb => absurd hb (by simp)
  | a :: l, m, hn, hb => by
    obtain ⟨ha, hn⟩ := List.nodup_cons.mp hn
    rw [List.foldl_cons]
    obtain rfl | hb := List.mem_cons.mp hb
    · rw [find_foldl_ins_ne key val l _ ha, find_ins_same]
    · exact find_foldl_ins_mem key val l _ hn hb

end Sys2Proof.AMap

namespace Sys2Proof.Machine

/-! ## The write of a staged register (R60 to R63) -/

/-- The set belongs to a master: it is taken by the one that stages first (R61). -/
def State.claimSet (s : State) (m : Nat) : State :=
  if s.prf = pIDLE then (s.setPrf pSTAGED).p PRF_STATUS_OWNER 0 m else s

section
variable {s : State} {m : Nat}

theorem State.claimSet_of_idle (h : s.prf = pIDLE) : s.claimSet m = (s.setPrf pSTAGED).p PRF_STATUS_OWNER 0 m := if_pos h

theorem State.claimSet_of_used (h : s.prf ≠ pIDLE) : s.claimSet m = s := if_neg h

theorem State.claimSet_eq (s : State) (m : Nat) : s.claimSet m = { s with regs := (s.claimSet m).regs } := by
  unfold State.claimSet
  split <;> rfl

theorem State.prf_claimSet (h : s.prf = pIDLE ∨ s.prf = pSTAGED) : (s.claimSet m).prf = pSTAGED := by
  by_cases hi : s.prf = pIDLE
  · rw [State.claimSet_of_idle hi, State.prf_p_ne _ (by decide), State.prf_setPrf _ (by decide)]
  · rw [State.claimSet_of_used hi]
    exact h.resolve_left hi

theorem State.owner_claimSet (hm : m < 42) :
    (s.claimSet m).g PRF_STATUS_OWNER = if s.prf = pIDLE then m else s.g PRF_STATUS_OWNER := by
  by_cases hi : s.prf = pIDLE
  · rw [State.claimSet_of_idle hi, State.g_p_same, if_pos hi, Nat.mod_eq_of_lt (hm.trans (by decide))]
  · rw [State.claimSet_of_used hi, if_neg hi]

theorem State.count_claimSet : (s.claimSet m).g PRF_STAGED_COUNT = s.g PRF_STAGED_COUNT := by
  by_cases hi : s.prf = pIDLE
  · rw [State.claimSet_of_idle hi, State.g_p_ne _ _ _ _ _ _ (by decide), State.g_setPrf_ne _ _ (by decide)]
  · rw [State.claimSet_of_used hi]

theorem State.get_p_regs_ne {f : Fld} {d k : Nat} (h : k ≠ f.key d) (v : Nat) :
    AMap.get 0 (s.p f d v).regs k = AMap.get 0 s.regs k :=
  AMap.get_set_ne _ _ _ _ _ _ h.symm

theorem State.get_claimSet_regs_ne {k : Nat} (hs : k ≠ PRF_STATUS_STATE.key 0) (ho : k ≠ PRF_STATUS_OWNER.key 0) :
    AMap.get 0 (s.claimSet m).regs k = AMap.get 0 s.regs k := by
  by_cases hi : s.prf = pIDLE
  · rw [State.claimSet_of_idle hi]
    exact (State.get_p_regs_ne ho _).trans (State.get_p_regs_ne hs _)
  · rw [State.claimSet_of_used hi]

variable {r : Reg} {d v : Nat}

theorem State.psStage_of_foreign (hf : s.prf ≠ pIDLE ∧ s.g PRF_STATUS_OWNER ≠ m) :
    s.psStage r d v m = s.hw PRF_STATUS_FOREIGN 0 1 := if_pos hf

theorem State.psStage_of_locked (hf : ¬ (s.prf ≠ pIDLE ∧ s.g PRF_STATUS_OWNER ≠ m))
    (hb : s.prf = pPROVING ∨ s.prf = pPROVEN ∨ s.prf = pARMED) :
    s.psStage r d v m = s.hw PRF_STATUS_LOCKED_WRITE 0 1 := by
  unfold State.psStage
  rw [if_neg hf, if_pos hb]

/-- Where there is room the fields are staged, and COUNT rises with a register that was not. -/
theorem State.psStage_of_room (hf : ¬ (s.prf ≠ pIDLE ∧ s.g PRF_STATUS_OWNER ≠ m))
    (hb : ¬ (s.prf = pPROVING ∨ s.prf = pPROVEN ∨ s.prf = pARMED))
    (hroom : s.isStaged r d = true ∨ s.g PRF_STAGED_COUNT < 8192) :
    s.psStage r d v m = (s.claimSet m).stageFields r d v ∨
      ∃ n, s.psStage r d v m = ((s.claimSet m).stageFields r d v).p PRF_STAGED_COUNT 0 n := by
  have hstaged : (s.claimSet m).isStaged r d = s.isStaged r d := by
    rw [State.claimSet_eq]
    rfl
  have hroom' : (s.claimSet m).isStaged r d = true ∨ (s.claimSet m).g PRF_STAGED_COUNT < 8192 := by
    rwa [hstaged, State.count_claimSet]
  have e : s.psStage r d v m = if (s.claimSet m).isStaged r d then (s.claimSet m).stageFields r d v
      else if (s.claimSet m).g PRF_STAGED_COUNT < 8192 then
        ((s.claimSet m).stageFields r d v).p PRF_STAGED_COUNT 0 ((s.claimSet m).g PRF_STAGED_COUNT + 1)
      else (s.claimSet m).p PRF_STATUS_OVERFLOW 0 1 := by
    unfold State.psStage
    rw [if_neg hf, if_neg hb]
    rfl
  rw [e]
  split
  · exact .inl rfl
  · next hno => exact .inr ⟨_, if_pos (hroom'.resolve_left hno)⟩

/-- What a write that is staged leaves. -/
structure Staged (r : Reg) (d v m : Nat) (s t : State) : Prop where
  prf : t.prf = pSTAGED
  owner : t.g PRF_STATUS_OWNER = if s.prf = pIDLE then m else s.g PRF_STATUS_OWNER
  copies : ∀ f ∈ r.ps, AMap.find t.staged (f.key d) = some (bits v f.lo f.w)
  others : ∀ k, (∀ x ∈ [PRF_STATUS_STATE, PRF_STATUS_OWNER, PRF_STAGED_COUNT], k ≠ x.key 0) →
    AMap.get 0 t.regs k = AMap.get 0 s.regs k

theorem State.psStage_staged (hm : m < 42) (hn : (r.ps.map fun f => f.key d).Nodup)
    (hf : ¬ (s.prf ≠ pIDLE ∧ s.g PRF_STATUS_OWNER ≠ m)) (hp : s.prf = pIDLE ∨ s.prf = pSTAGED)
    (hb : ¬ (s.prf = pPROVING ∨ s.prf = pPROVEN ∨ s.prf = pARMED))
    (hroom : s.isStaged r d = true ∨ s.g PRF_STAGED_COUNT < 8192) : Staged r d v m s (s.psStage r d v m) := by
  have h : Staged r d v m s ((s.claimSet m).stageFields r d v) := by
    refine ⟨State.prf_claimSet hp, State.owner_claimSet hm, fun f hfl => ?_, fun k hk => ?_⟩
    · exact AMap.find_foldl_ins_mem (fun f : Fld => f.key d) (fun f => bits v f.lo f.w) r.ps _ hn hfl
    · exact State.get_claimSet_regs_ne (hk _ (by simp)) (hk _ (by simp))
  rcases State.psStage_of_room (v := v) hf hb hroom with e | ⟨n, e⟩ <;> rw [e]
  · exact h
  · exact ⟨(State.prf_p_ne _ (by decide) _).trans h.prf, (State.g_p_ne _ _ _ _ _ _ (by decide)).trans h.owner, h.copies,
      fun k hk => (State.get_p_regs_ne (hk _ (by simp)) _).trans (h.others k hk)⟩

theorem State.cores_psStage : (s.psStage r d v m).cores = s.cores := by
  unfold State.psStage
  extract_lets u n
  have hu : u.cores = s.cores := by
    show (s.claimSet m).cores = _
    rw [State.claimSet_eq]
  split
  · rfl
  · split
    · rfl
    · split
      · exact hu
      · split <;> exact hu

/-! ## PS_WRITE -/

theorem State.putFld_of_ps {f : Fld} (h : f.acc = .ps) (locked : Bool) (d v : Nat) (s : State) :
    s.putFld locked d v f = s := by simp [State.putFld, h]

theorem State.foldl_putFld_of_ps (locked : Bool) (d v : Nat) :
    ∀ (l : List Fld) (s : State), (∀ f ∈ l, f.acc = .ps) → l.foldl (fun s f => s.putFld locked d v f) s = s
  | [], _, _ => rfl
  | f :: l, s, h => by
    rw [List.foldl_cons, State.putFld_of_ps (h f List.mem_cons_self)]
    exact State.foldl_putFld_of_ps locked d v l s fun g hg => h g (List.mem_cons_of_mem _ hg)

/-- What makes a write no more than the staging of its register: one word of staged fields, no fault set, ENABLE or
effect of its own, and nothing that refuses it. -/
structure StagedWrite (s : State) (r : Reg) (d : Nat) : Prop where
  words : r.words = 1
  wide : r.wide = 0
  higher : higherWord (r.off + d) = false
  fault : faultAt (r.off + d) = none
  hook : AMap.find writeHooks r.off = none
  enable : enAt (r.off + d) = none
  isOpen : s.regOpen r d = true
  unlocked : s.regLocked r d = false
  fields : r.flds = r.ps
  nonempty : r.flds ≠ []

theorem StagedWrite.ps_isEmpty (h : StagedWrite s r d) : r.ps.isEmpty = false := by
  rw [← h.fields, List.isEmpty_eq_false_iff]
  exact h.nonempty

theorem StagedWrite.regWrite_eq (h : StagedWrite s r d) (master v : Nat) :
    s.regWrite master (r.off + d) 4 v r d = (s.dropHeld (r.off + d) 1).psStage r d v master := by
  have ho : (s.dropHeld (r.off + d) 1).regOpen r d = true := h.isOpen
  have hl : (s.dropHeld (r.off + d) 1).regLocked r d = false := h.unlocked
  have hps : ∀ f ∈ r.flds, f.acc = .ps := fun f hf => by
    rw [h.fields] at hf
    simpa using (List.mem_filter.mp hf).2
  have hput := State.foldl_putFld_of_ps false d v r.flds (s.dropHeld (r.off + d) 1) hps
  simp [State.regWrite, h.words, h.wide, h.higher, State.writeHeld, State.regWriteAll, h.fault, h.hook, State.regPut, ho,
    hl, h.enable, h.ps_isEmpty, State.writeEnable, hput]

theorem exec_psWrite (hr : s.inReset = false) {m : Fin 42} {off : BitVec 25} (v : BitVec 256)
    (hf : findReg off.toNat regTable = some (r, d)) (ho : off.toNat = r.off + d) (h4 : off.toNat % 4 = 0)
    (hp : placeOf off.toNat = .regs) (hm : reaches m.val off.toNat = true)
    (hw : inWindow (winBase + off.toNat) 4 = true) (h : StagedWrite s r d) :
    exec (.psWrite m off .b4 v) s =
      .next (((s.dropHeld off.toNat 1).psStage r d (v.toNat % 2 ^ 32) m.val).answer true 0) := by
  have hwrite : s.winWrite m.val (winBase + off.toNat - winBase) 4 (v.toNat % 2 ^ 32) =
      some ((s.dropHeld off.toNat 1).psStage r d (v.toNat % 2 ^ 32) m.val) := by
    rw [Nat.add_sub_cancel_left, State.winWrite_word hp hm h4 hf, ho, h.regWrite_eq]
  have e : exec (.psWrite m off .b4 v) s =
      .next (answerWrite (s.busWrite m.val (winBase + off.toNat) 4 (v.toNat % 2 ^ 32))) := by
    show execPsWrite m off .b4 v s = _
    simp only [execPsWrite, hf, h.ps_isEmpty]
    rfl
  rw [e, State.busWrite_of_winWrite hr hw hwrite, answerWrite_true]

end

/-! ## PROOF and PROOF_END (R65, R66) -/

section
variable {s : State}

theorem exec_proof (hr : s.inReset = false) (m : Fin 42) :
    exec (.proof m) s = .next ((s.proofCmd m.val).answer true 0) :=
  congrArg Host.Outcome.next (State.command_of_inReset hr _)

theorem exec_pull (hr : s.inReset = false) (m : Fin 42) : exec (.pull m) s = .next ((s.pullCmd m.val).answer true 0) :=
  congrArg Host.Outcome.next (State.command_of_inReset hr _)

variable {m : Nat}

theorem State.proofCmd_of_foreign (h : s.prfForeign m = true) : s.proofCmd m = s.hw PRF_STATUS_FOREIGN 0 1 := if_pos h

theorem State.proofCmd_of_code (h : s.prfForeign m = false) (hc : s.proofCode ≠ 0) :
    s.proofCmd m = s.prfRefuse s.proofCode := by simp [State.proofCmd, h, hc]

theorem State.proofCmd_starts (h : s.prfForeign m = false) (hc : s.proofCode = 0) :
    s.proofCmd m = (s.setPrf pPROVING).busyNow := by simp [State.proofCmd, h, hc]

/-- BUSY reads 1 while a PROOF runs. -/
theorem State.busyNow_of_proving (h : s.prf = pPROVING) : s.busyNow.on SYS_CTR_CHECK_BUSY = true := by
  have hb : bit (s.adm.running.isSome || s.prf == pPROVING) = 1 := by simp [h, bit]
  unfold State.busyNow
  rw [hb, State.on_p_one _ _ _ (by decide)]

theorem State.pullCmd_of_foreign (h : s.prfForeign m = true) : s.pullCmd m = s.hw PRF_STATUS_FOREIGN 0 1 := if_pos h

theorem State.pullCmd_of_code (h : s.prfForeign m = false) (hc : s.pullCode ≠ 0) :
    s.pullCmd m = s.prfRefuse s.pullCode := by simp [State.pullCmd, h, hc]

/-- The instant that an accepted PULL is armed for, with its write instant (R68). -/
def State.armed (s : State) : State :=
  { s with pullAt := s.tide,
           pull := ⟨s.on PRF_PULL_AT_BY_QUAY, s.g PRF_PULL_AT_QUAY, s.g PRF_PULL_AT_TASK,
             s.timeNs PRF_PULL_TIME_NS_NANOSECONDS⟩ }.setPrf pARMED

theorem State.pullCmd_arms (h : s.prfForeign m = false) (hc : s.pullCode = 0) : s.pullCmd m = s.armed := by
  simp [State.pullCmd, h, hc, State.armed]

end

/-- What a PROOF's end leaves: PROVEN, or STAGED with the code of the failing check. -/
theorem State.proofEnd_result (s : State) :
    match s.proofRun.2 with
    | none => s.proofEnd.prf = pPROVEN ∧ s.proofEnd.g PRF_STATUS_REFUSAL = 0
    | some (code, _) => s.proofEnd.prf = pSTAGED ∧ s.proofEnd.g PRF_STATUS_REFUSAL = code % 2 ^ PRF_STATUS_REFUSAL.w := by
  unfold State.proofEnd
  extract_lets x
  have hstate (u : State) {y : Nat} (hy : y < 16) (c : Nat) :
      (((u.setPrf y).p PRF_STATUS_REFUSAL 0 c).busyNow).prf = y := by
    rw [State.prf_busyNow, State.prf_p_ne _ (by decide), State.prf_setPrf _ hy]
  have hcode (u : State) (y c : Nat) : (((u.setPrf y).p PRF_STATUS_REFUSAL 0 c).busyNow).g PRF_STATUS_REFUSAL =
      c % 2 ^ PRF_STATUS_REFUSAL.w :=
    (State.g_p_ne _ _ _ _ _ _ (by decide)).trans (State.g_p_same ..)
  split
  · next hpass =>
    have hx : x.2 = none := hpass
    simp only [hx]
    exact ⟨(State.g_ringProofEnd ..).trans (hstate _ (by decide) _), (State.g_ringProofEnd ..).trans (hcode _ _ _)⟩
  · next code regs hfail =>
    have hx : x.2 = some (code, regs) := hfail
    simp only [hx]
    refine ⟨(State.g_ringProofEnd ..).trans ?_, (State.g_ringProofEnd ..).trans ?_⟩
    · exact ((State.g_p_ne _ _ _ _ _ _ (by decide)).trans (State.g_p_ne _ _ _ _ _ _ (by decide))).trans
        (hstate _ (by decide) _)
    · exact ((State.g_p_ne _ _ _ _ _ _ (by decide)).trans (State.g_p_ne _ _ _ _ _ _ (by decide))).trans (hcode _ _ _)

/-! ## The staged copies become live (R69) -/

/-- A field found at a key is the field of that key. -/
theorem fieldOf_key {k d : Nat} {f : Fld} (h : fieldOf k = some (f, d)) : f.key d = k := by
  unfold fieldOf at h
  split at h
  · obtain ⟨g, hg, e⟩ := Option.map_eq_some_iff.mp h
    obtain ⟨rfl, rfl⟩ := Prod.mk.inj e
    simpa using List.find?_some hg
  · exact absurd h (by simp)

theorem State.g_applyField_ne (s : State) {x : Nat × Nat} {f : Fld} {d : Nat} (h : x.1 ≠ f.key d) :
    (s.applyField x).g f d = s.g f d := by
  unfold State.applyField
  split
  · next e => exact s.g_p_ne _ _ _ _ _ (fieldOf_key e ▸ h)
  · rfl

theorem State.g_foldl_applyField_ne {f : Fld} {d : Nat} : ∀ (l : List (Nat × Nat)) (s : State),
    f.key d ∉ l.map (·.1) → (l.foldl State.applyField s).g f d = s.g f d
  | [], _, _ => rfl
  | x :: l, s, h => by
    simp only [List.map_cons, List.mem_cons, not_or] at h
    rw [List.foldl_cons, State.g_foldl_applyField_ne l _ h.2, s.g_applyField_ne (Ne.symm h.1)]

/-- A staged copy is the live value once the list of staged copies is applied. -/
theorem State.g_foldl_applyField {f : Fld} {d v : Nat} (hfd : fieldOf (f.key d) = some (f, d)) :
    ∀ (l : AMap Nat) (s : State), (l.map (·.1)).Nodup → AMap.find l (f.key d) = some v →
      (l.foldl State.applyField s).g f d = v % 2 ^ f.w
  | [], _, _, h => absurd h (by simp [AMap.find])
  | (k, w) :: l, s, hn, h => by
    obtain ⟨hk, hn⟩ := List.nodup_cons.mp hn
    rw [List.foldl_cons]
    by_cases e : k = f.key d
    · obtain rfl : w = v := by simpa [AMap.find, e] using h
      have happ : s.applyField (k, w) = s.p f d w := by
        unfold State.applyField
        simp only [e, hfd]
      rw [State.g_foldl_applyField_ne l _ (e ▸ hk), happ, State.g_p_same]
    · exact State.g_foldl_applyField hfd l _ hn (by simpa [AMap.find, e] using h)

/-- The period of a cyclic task is found at its key. -/
theorem fieldOf_period (q : Fin 6) (k : Fin 8) : fieldOf (BRN_TASK_PERIOD_VALUE.key (dTask q.val k.val)) =
    some (BRN_TASK_PERIOD_VALUE, dTask q.val k.val) := by
  revert q k
  decide +kernel

/-! ## What the blocks that take a set up leave of the quays' words (R69, R155, R172, R246, R314, R334) -/

/-- A word of the quays' part of the windows. -/
def QuayWord (x : Nat) : Prop := 0x200000 ≤ x ∧ x < 0x260000

theorem QuayWord.not_of_below {x : Nat} (h : x < 0x200000) : ¬ QuayWord x := fun hx => by
  unfold QuayWord at hx
  omega

theorem QuayWord.not_of_above {x : Nat} (h : 0x260000 ≤ x) : ¬ QuayWord x := fun hx => by
  unfold QuayWord at hx
  omega

theorem SameWords.ite {W : Nat → Prop} {s t u : State} {c : Prop} [Decidable c] (ht : SameWords W s t)
    (hu : SameWords W s u) : SameWords W s (if c then t else u) := by
  split
  · exact ht
  · exact hu

section
variable (s : State)

theorem State.droppedBit_quayWords (n : Nat) (b : Bool) : SameWords QuayWord s (s.droppedBit n b) :=
  (SameWords.refl s).setBit (by decide)
    (QuayWord.not_of_above (by simp only [NET_CARGO_DROPPED_DROPPED]; omega)) _ _

theorem State.statusArrays_quayWords : SameWords QuayWord s s.statusArrays :=
  SameWords.foldl (fun t _ => .ite (SameWords.foldl (fun u _ => .of_regs (u.wle_regs _ _ _)) _ t) (.refl t)) _ s

theorem State.cargoTableChange_quayWords : SameWords QuayWord s s.cargoTableChange := by
  unfold State.cargoTableChange
  refine SameWords.trans (SameWords.foldl (fun t n => ?_) _ s) (State.statusArrays_quayWords _)
  have hset (x : Option Station) : SameWords QuayWord t (t.setStation n x) := .of_regs rfl
  dsimp only
  split
  · exact .ite (hset _) ((hset _).trans (State.droppedBit_quayWords _ n false))
  · exact hset _
  · exact (hset _).trans (State.droppedBit_quayWords _ n false)
  · exact .refl t

theorem State.listPulled_quayWords (p a : Nat) : SameWords QuayWord s (s.listPulled p a) := by
  have hset (x : NetPort) : SameWords QuayWord s (s.setPort p x) := .of_regs rfl
  exact (hset _).p (f := NET_GCL_STATUS_PENDING) (by decide)
    (QuayWord.not_of_above (by simp only [NET_GCL_STATUS_PENDING]; omega)) _

theorem State.grvMembers_quayWords : SameWords QuayWord s s.grvMembers :=
  SameWords.foldl (fun t g => (SameWords.refl t).p (by decide)
    (QuayWord.not_of_above (by simp only [GRV_GRP_STATUS_MEMBERS]; omega)) _) _ s

theorem State.bcnReport_quayWords : SameWords QuayWord s s.bcnReport :=
  ((SameWords.refl s).p (f := BCN_LWAIT_L_D) (by decide) (QuayWord.not_of_above (by decide)) _).p (f := BCN_PASS_WORST_NS)
    (by decide) (QuayWord.not_of_above (by decide)) _

theorem AdmView.writeWorst_quayWords (v : AdmView) : SameWords QuayWord s (v.writeWorst s) :=
  SameWords.foldl (fun t i => (SameWords.refl t).p (by decide)
    (QuayWord.not_of_below (by simp only [SYS_CTR_WORST_WORST_NS, dPath]; omega)) _) _ s

theorem State.takeStaged_quayWords (before : State) (at_ : Nat) : SameWords QuayWord s (s.takeStaged before at_) := by
  unfold State.takeStaged
  extract_lets cargo lists can grv bcn
  have hcargo : SameWords QuayWord s cargo := .ite s.cargoTableChange_quayWords (.refl s)
  have hlists : SameWords QuayWord cargo lists := SameWords.foldl (fun t p => t.listPulled_quayWords p at_) _ cargo
  have hcan : SameWords QuayWord lists can := by
    refine SameWords.foldl (fun t n => ?_) _ lists
    exact .ite (.of_regs rfl) (.refl t)
  have hgrv : SameWords QuayWord can grv := .ite can.grvMembers_quayWords (.refl can)
  have hbcn : SameWords QuayWord grv bcn := .ite grv.bcnReport_quayWords (.refl grv)
  exact ((((hcargo.trans hlists).trans hcan).trans hgrv).trans hbcn).trans (AdmView.writeWorst_quayWords bcn _)

theorem State.ringProofEnd_sameWords {W : Nat → Prop} : SameWords W s s.ringProofEnd :=
  ⟨fun f d _ _ => s.g_ringProofEnd f d⟩

theorem State.unstage_quayWords : SameWords QuayWord s s.unstage := by
  have hstatus : ¬ QuayWord (PRF_STATUS_STATE.off + 0) := QuayWord.not_of_below (by decide)
  have hstaged : SameWords QuayWord s { s with staged := [] } := .of_regs rfl
  have hcount := hstaged.p (f := PRF_STAGED_COUNT) (d := 0) (by decide) (QuayWord.not_of_below (by decide)) 0
  unfold State.unstage
  exact (((hcount.p (f := PRF_STATUS_OVERFLOW) (by decide) hstatus _).p (f := PRF_STATUS_OWNER) (by decide) hstatus _).p
    (f := PRF_STATUS_STATE) (by decide) hstatus _).trans (State.ringProofEnd_sameWords _)

/-- The application of a set changes the quays' words by the staged copies alone. -/
theorem State.applySet_quayWords (at_ : Nat) :
    SameWords QuayWord (s.staged.foldl State.applyField s) (s.applySet at_) := by
  rw [State.applySet_eq]
  have h := (State.takeStaged_quayWords (s.staged.foldl State.applyField s) s at_).trans (State.unstage_quayWords _)
  exact (((h.hw (f := PRF_STATUS_APPLIED) (by decide) (QuayWord.not_of_below (by decide)) _).p (by decide)
    (QuayWord.not_of_below (by decide)) _).p (by decide) (QuayWord.not_of_below (by decide)) _).p (by decide)
    (QuayWord.not_of_below (by decide)) _

/-- A staged period is the live one once the set is applied. -/
theorem State.applySet_period (at_ : Nat) (q : Fin 6) (k : Fin 8) {v : Nat} (hn : (s.staged.map (·.1)).Nodup)
    (h : AMap.find s.staged (BRN_TASK_PERIOD_VALUE.key (dTask q.val k.val)) = some v) :
    (s.applySet at_).g BRN_TASK_PERIOD_VALUE (dTask q.val k.val) = v % 2 ^ BRN_TASK_PERIOD_VALUE.w := by
  have hword : QuayWord (BRN_TASK_PERIOD_VALUE.off + dTask q.val k.val) := by
    simp only [QuayWord, BRN_TASK_PERIOD_VALUE, dTask]
    omega
  rw [(s.applySet_quayWords at_).g _ _ (by decide) hword]
  exact State.g_foldl_applyField (fieldOf_period q k) _ _ hn h

theorem State.applySet_applied (at_ : Nat) : (s.applySet at_).on PRF_STATUS_APPLIED = true := by
  rw [State.applySet_eq]
  unfold State.putTime
  rw [State.on_p_ne _ _ _ _ _ _ (by decide), State.on_p_ne _ _ _ _ _ _ (by decide),
    State.on_p_ne _ _ _ _ _ _ (by decide), State.on_hw_one _ rfl]

end

/-! ## PULL_APPLY and QUAY_PULL_TIMEOUT (R68, R69) -/

section
variable {s : State}

theorem State.pullDue_of_armed (h : s.prf = pARMED) (hq : s.pull.byQuay = false) (ht : s.pull.time ≤ s.tideNs)
    (hreact : s.reactsNow = false) : s.pullDue = true := by simp [State.pullDue, h, hq, ht, hreact]

theorem exec_pullApply_of_due (h : s.pullDue = true) : exec .pullApply s = .next (s.applySet s.pullInstant) :=
  congrArg Host.Outcome.next (if_pos h)

theorem exec_quayPullTimeout (h : s.prf = pARMED) (hq : s.pull.byQuay = true)
    (ht : s.pullAt + (20000 * s.g BRN_TASK_PERIOD_VALUE (dTask s.pull.quay s.pull.task) + 1000000000) * 65536 ≤ s.tide) :
    exec .quayPullTimeout s = .next ((s.setPrf pPROVEN).prfRefuse 0x00D) :=
  congrArg Host.Outcome.next (if_pos (by simp [h, hq, ht]))

end

/-- Settles O36, from what each write and command makes of the set and what its application leaves. -/
theorem proofAndPull : Obligations.ProofAndPull := by
  intro m s hr kept foreign busy
  have hforeign : s.prfForeign m.val = true ↔ foreign := s.prfForeign_iff m.val
  have hown (h : ¬ foreign) : s.prfForeign m.val = false := by rwa [← Bool.not_eq_true, hforeign]
  refine ⟨?_, fun hf => ?_, fun hf hc => ?_, fun hf hc => ?_, fun hp => ?_, fun hf hc => ?_, fun hf hc => ?_,
    fun hp hq ht hreact => ?_, fun hp hq ht => ?_⟩
  -- PS_WRITE
  · intro off v r d hf ho h4 hp hm hw hwords hwide hhi hfa hhk hen hop hlk hflds hne hnd hroom
    rw [ho] at hhi hfa hen
    have hn : (r.ps.map fun f => f.key d).Nodup := hflds ▸ hnd
    refine ⟨_, exec_psWrite hr v hf ho h4 hp hm hw ⟨hwords, hwide, hhi, hfa, hhk, hen, hop, hlk, hflds, hne⟩, rfl,
      ⟨State.psStage_mem .., State.cores_psStage⟩, fun hforeign => ?_, fun hforeign hbusy => ?_,
      fun hforeign hbusy hprf => ?_⟩
    · rw [State.psStage_of_foreign (s := s.dropHeld off.toNat 1) hforeign]
      exact ⟨State.on_hw_one _ rfl 0, rfl⟩
    · rw [State.psStage_of_locked (s := s.dropHeld off.toNat 1) hforeign hbusy]
      exact ⟨State.on_hw_one _ rfl 0, rfl⟩
    · have h := State.psStage_staged (s := s.dropHeld off.toNat 1) (v := v.toNat % 2 ^ 32) m.isLt hn hforeign hprf hbusy
        hroom
      exact ⟨h.prf, h.owner, fun f hf => h.copies f (hflds ▸ hf), h.others⟩
  -- PROOF and PULL of another master
  · intro x hx
    simp only [List.mem_cons, List.not_mem_nil, or_false] at hx
    obtain rfl | rfl := hx
    · rw [exec_proof hr, State.proofCmd_of_foreign (hforeign.mpr hf)]
    · rw [exec_pull hr, State.pullCmd_of_foreign (hforeign.mpr hf)]
  -- PROOF
  · rw [exec_proof hr, State.proofCmd_of_code (hown hf) hc]
    rfl
  · have hprf := s.prf_setPrf (x := pPROVING) (by decide)
    refine ⟨_, exec_proof hr m, ?_⟩
    rw [State.proofCmd_starts (hown hf) hc]
    exact ⟨(State.prf_busyNow _).trans hprf, State.busyNow_of_proving hprf, rfl, rfl, rfl⟩
  -- PROOF_END
  · exact ⟨_, congrArg Host.Outcome.next (if_pos hp), s.proofEnd_result⟩
  -- PULL
  · rw [exec_pull hr, State.pullCmd_of_code (hown hf) hc]
    rfl
  · refine ⟨_, exec_pull hr m, ?_⟩
    rw [State.pullCmd_arms (hown hf) hc]
    exact ⟨State.prf_setPrf (x := pARMED) _ (by decide), rfl, ⟨rfl, rfl⟩, rfl, rfl, rfl, rfl, rfl⟩
  -- PULL_APPLY
  · have hempty := s.applySet_setEmpty s.pullInstant
    exact ⟨_, exec_pullApply_of_due (State.pullDue_of_armed hp hq ht hreact), hempty.prf, hempty.staged,
      s.applySet_applied _, fun q k v hn h => s.applySet_period _ q k hn h⟩
  -- QUAY_PULL_TIMEOUT
  · exact ⟨_, exec_quayPullTimeout hp hq ht, (State.prf_p_ne _ (by decide) _).trans (State.prf_setPrf _ (by decide)),
      State.g_p_same .., rfl, rfl, rfl⟩

end Sys2Proof.Machine

/-! # Proofs: ENABLE bits (O37)

What setting and clearing an ENABLE and the end of its check come to in each case that R73 to R76 tell apart, and what
the blocks' own part in it leaves. -/

namespace Sys2Proof.Machine

/-! ## The fields of an ENABLE (R73) -/

/-- ENABLE is bit 31 and REFUSAL bits [27:16] of one register, above those of SYS and PRF. -/
theorem En.flds_lo (e : En) : e.flds.1.lo = 31 ∧ e.flds.2.1.lo = 16 := by cases e <;> exact ⟨rfl, rfl⟩

theorem En.flds_w (e : En) : e.flds.1.w = 1 := by cases e <;> rfl

theorem En.flds_off (e : En) : e.flds.2.1.off = e.flds.1.off := by cases e <;> rfl

theorem En.le_flds_off (e : En) : 0x200000 ≤ e.flds.1.off := by
  cases e <;> (simp only [En.flds]; decide)

theorem En.refusal_key_ne (e : En) : e.flds.2.1.key e.flds.2.2 ≠ e.flds.1.key e.flds.2.2 := by
  obtain ⟨hen, href⟩ := e.flds_lo
  simp only [Fld.key, e.flds_off, hen, href]
  omega

theorem En.prf_key_ne (e : En) : e.flds.1.key e.flds.2.2 ≠ PRF_STATUS_STATE.key 0 := by
  have := e.le_flds_off
  simp only [Fld.key, PRF_STATUS_STATE]
  omega

section
variable (s : State) (e : En)

theorem State.isOn_enSet_true : (s.enSet e true).isOn e = true := State.on_p_one _ _ _ (by rw [e.flds_w]; decide)

theorem State.isOn_enSet_false : (s.enSet e false).isOn e = false := State.on_p_zero ..

theorem State.isOn_enRefuse (code : Nat) : (s.enRefuse e code).isOn e = s.isOn e :=
  s.on_p_ne _ _ _ _ _ e.refusal_key_ne

theorem State.prf_enSet (b : Bool) : (s.enSet e b).prf = s.prf := s.prf_p_ne e.prf_key_ne _

end

/-! ## What a voided proof and a wake leave (R67, R379) -/

section
variable (s : State)

theorem State.voidProof_enableWords : SameWords (0x200000 ≤ ·) s s.voidProof := by
  unfold State.voidProof
  split
  · have hstatus : ¬ 0x200000 ≤ PRF_STATUS_STATE.off + 0 := by decide
    exact ((((SameWords.refl s).p (f := PRF_STATUS_STATE) (by decide) hstatus _).p (f := PRF_STATUS_REFUSAL) (by decide)
      hstatus _).p (f := SYS_CTR_CHECK_BUSY) (d := 0) (by decide) (by decide) _).trans (State.ringProofEnd_sameWords _)
  · exact .refl s

theorem State.voidProof_checking : s.voidProof.checking = s.checking := by rw [State.voidProof_eq]

/-- Without a proof there is nothing to void. -/
theorem State.voidProof_of_idle (h : s.prf = pIDLE ∨ s.prf = pSTAGED) : s.voidProof = s := by
  refine if_neg ?_
  rcases h with h | h <;> rw [h] <;> decide

theorem State.clearGateBit_eq (d : Nat) : s.clearGateBit d = { s with regs := (s.clearGateBit d).regs } := by
  unfold State.clearGateBit
  split
  · rcases s.setBit_eq PWR_GATE_QUAY 0 d false with h | ⟨v, h⟩ <;> rw [h]
    rfl
  · rfl

/-- A wake changes registers and the domains being woken. -/
theorem State.wake_eq (d : Nat) : s.wake d = { s with regs := (s.wake d).regs, waking := (s.wake d).waking } := by
  unfold State.wake
  split
  · rw [State.clearGateBit_eq]
    rfl
  · rw [State.clearGateBit_eq]

theorem State.clearGateBit_sameWords (d : Nat) : SameWords (· % 0x10000 = 0) s (s.clearGateBit d) :=
  .ite ((SameWords.refl s).setBit (f := PWR_GATE_QUAY) (by decide) (by decide) _ _)
    ((SameWords.refl s).p (f := PWR_GATE_DRAFT) (by decide) (by decide) _)

theorem State.wake_sameWords (d : Nat) : SameWords (· % 0x10000 = 0) s (s.wake d) := by
  have h := s.clearGateBit_sameWords d
  unfold State.wake
  exact .ite ((h.p (f := PWR_GATE_STATUS_WAKES) (d := 0) (by decide) (by decide) _).trans (.of_regs rfl)) h

end

/-- The State in which a gated domain of an ENABLE is being woken (R488). -/
def State.woken (s : State) (e : En) : State :=
  match e.domain with
  | some d => s.wake d
  | none => s

/-- The ENABLEs that have a domain stand at the start of a block's part of the windows. -/
theorem En.off_of_domain {e : En} {d : Nat} (h : e.domain = some d) : (e.flds.1.off + e.flds.2.2) % 0x10000 = 0 := by
  cases e
  case quay q =>
    simp only [En.flds, BRN_QUAY_CTRL_ENABLE, dQuay]
    omega
  case drf => rfl
  all_goals exact absurd h (by simp [En.domain])

section
variable (s : State) (e : En)

theorem State.woken_eq : s.woken e = { s with regs := (s.woken e).regs, waking := (s.woken e).waking } := by
  unfold State.woken
  split
  · exact s.wake_eq _
  · rfl

theorem State.isOn_woken : (s.woken e).isOn e = s.isOn e := by
  unfold State.woken
  split
  · next d h => exact (s.wake_sameWords d).on (by rw [e.flds_lo.1]; decide) (En.off_of_domain h)
  · rfl

end

/-! ## ENABLE_SET (R73, R76) -/

section
variable {s : State} {e : En}

theorem State.enStart_of_on (h : s.isOn e = true) : s.enStart e = s := if_pos h

theorem State.enStart_of_safe (h : s.isOn e = false) (hm : s.mode = SAFE ∧ e.inSafe = false) :
    s.enStart e = s.enRefuse e 0x010 := by
  unfold State.enStart
  rw [if_neg (by simp [h]), if_pos hm]

theorem State.enStart_of_checking (h : s.isOn e = false) (hm : ¬ (s.mode = SAFE ∧ e.inSafe = false))
    (hc : s.checking.contains e.key = true) : s.enStart e = s.enRefuse e 0x012 := by
  unfold State.enStart
  rw [if_neg (by simp [h]), if_neg hm, if_pos hc]

/-- The check of an ENABLE runs; for a TIDE_OUT pin its instant is noted. -/
def State.checkBegun (s : State) (e : En) : State :=
  let s := { s with checking := s.checking ++ [e.key] }
  match e with
  | .tout o => { s with tid := { s.tid with outAt := AMap.set 0 s.tid.outAt o s.tideNs } }
  | _ => s

theorem State.checkBegun_eq (s : State) (e : En) :
    s.checkBegun e = { s with checking := s.checking ++ [e.key], tid := (s.checkBegun e).tid } := by
  unfold State.checkBegun
  split <;> rfl

/-- A check that nothing holds back wakes the domain, then tests the needs and the memory (R76). -/
theorem State.enStart_of_free (h : s.isOn e = false) (hm : ¬ (s.mode = SAFE ∧ e.inSafe = false))
    (hc : s.checking.contains e.key = false) : s.enStart e =
      if (s.woken e).needs e = false then ((s.woken e).failNote e).enRefuse e 0x011
      else if (s.woken e).memoryReady e = false then (s.woken e).enRefuse e 0x013
      else (s.woken e).checkBegun e := by
  unfold State.enStart
  rw [if_neg (by simp [h]), if_neg hm, if_neg (by rw [hc]; decide)]
  rfl

/-! ## ENABLE_CHECK_END (R73) -/

/-- No check of an ENABLE runs. -/
def State.checkGone (s : State) (e : En) : State := { s with checking := s.checking.filter (· != e.key) }

theorem State.enEnd_of_safe (hm : s.mode = SAFE ∧ e.inSafe = false) :
    s.enEnd e = (s.checkGone e).enRefuse e 0x010 := if_pos hm

theorem State.enEnd_of_need (hm : ¬ (s.mode = SAFE ∧ e.inSafe = false)) (hn : (s.checkGone e).needs e = false) :
    s.enEnd e = ((s.checkGone e).failNote e).enRefuse e 0x011 :=
  (if_neg hm).trans (if_pos hn)

theorem State.enEnd_of_memory (hm : ¬ (s.mode = SAFE ∧ e.inSafe = false)) (hn : (s.checkGone e).needs e = true)
    (hr : (s.checkGone e).memoryReady e = false) : s.enEnd e = (s.checkGone e).enRefuse e 0x013 :=
  (if_neg hm).trans ((if_neg (hn.trans_ne (by decide))).trans (if_pos hr))

/-- The check's own answer over the view in which the ENABLE reads 1. -/
theorem State.enEnd_of_ready (hm : ¬ (s.mode = SAFE ∧ e.inSafe = false)) (hn : (s.checkGone e).needs e = true)
    (hr : (s.checkGone e).memoryReady e = true) : s.enEnd e =
      match ((s.checkGone e).enSet e true).checkOf e with
      | some code => ((s.checkGone e).failNote e).enRefuse e code
      | none => ((((s.checkGone e).enSet e true).enRefuse e 0).enabled e).voidProof :=
  (if_neg hm).trans ((if_neg (hn.trans_ne (by decide))).trans (if_neg (hr.trans_ne (by decide))))

end

/-- The blocks that a passed check changes in no more than their ENABLE. -/
def En.enabledAlone : En → Prop
  | .tid | .mem | .bst | .pio | .log | .pwr | .grv | .drf | .mbs _ | .pair | .pwm _ | .enc _ => True
  | _ => False

theorem State.enabled_alone {e : En} (h : e.enabledAlone) (s : State) : s.enabled e = s := by
  cases e with
  | tid | mem | bst | pio | log | pwr | grv | drf | mbs _ | pair | pwm _ | enc _ => rfl
  | _ => exact False.elim h

/-- A check passed: ENABLE reads 1 and REFUSAL 0, and a proof that waits is voided. -/
theorem State.enSet_passed (s : State) (e : En) :
    let t := ((s.enSet e true).enRefuse e 0).voidProof
    t.isOn e = true ∧ t.g e.flds.2.1 e.flds.2.2 = 0 ∧ t.checking = s.checking ∧ t.mem = s.mem ∧ t.cores = s.cores := by
  intro t
  have hwords := ((s.enSet e true).enRefuse e 0).voidProof_enableWords
  have hoff : 0x200000 ≤ e.flds.1.off + e.flds.2.2 := e.le_flds_off.trans (Nat.le_add_right ..)
  refine ⟨?_, ?_, State.voidProof_checking _, State.voidProof_mem _, State.voidProof_cores _⟩
  · have hon : t.isOn e = ((s.enSet e true).enRefuse e 0).isOn e := hwords.on (by rw [e.flds_lo.1]; decide) hoff
    rw [hon, State.isOn_enRefuse, State.isOn_enSet_true]
  · rw [hwords.g _ _ (by rw [e.flds_lo.2]; decide) (by rwa [e.flds_off])]
    exact (State.g_p_same ..).trans (Nat.zero_mod _)

/-! ## ENABLE_CLEAR (R74, R75) -/

theorem State.cascade_of_needs {s : State} (h : ∀ x ∈ enAll, s.isOn x = true → s.needsKept x = true) : s.cascade = s := by
  unfold State.cascade
  refine List.foldlRecOn (motive := (· = s)) _ _ rfl fun t ht x hx => ?_
  subst ht
  refine if_neg ?_
  rw [Bool.and_eq_true, Bool.not_eq_true', not_and]
  intro hon
  simp [h x hx hon]

section
variable {s : State} {e : En}

theorem State.enClear_of_off (h : s.isOn e = false) : s.enClear e = s.checkGone e := if_neg (by simp [h])

/-- Where no other block loses a need and no proof waits, ENABLE is cleared with its own block's part in it. -/
theorem State.enClear_of_on (h : s.isOn e = true)
    (hneeds : ∀ x ∈ enAll, (((s.checkGone e).enSet e false).disabled e).isOn x = true →
      (((s.checkGone e).enSet e false).disabled e).needsKept x = true)
    (hprf : (((s.checkGone e).enSet e false).disabled e).prf = pIDLE ∨
      (((s.checkGone e).enSet e false).disabled e).prf = pSTAGED) :
    s.enClear e = ((s.checkGone e).enSet e false).disabled e := by
  have hclear : s.clearOne e = ((s.checkGone e).enSet e false).disabled e := rfl
  unfold State.enClear
  rw [if_pos h, hclear, State.cascade_of_needs hneeds, State.voidProof_of_idle _ hprf]

end

/-- The blocks whose clearing leaves the set, the memories and the cores: none but a thermal channel changes a register
other than its ENABLE. -/
def En.clearedAlone : En → Prop
  | .tid | .mem | .bst | .pio | .pwr | .grv | .dom _ | .tin _ | .th _ | .po _ | .pwm _ => True
  | _ => False

theorem State.disabled_alone {e : En} (h : e.clearedAlone) (hth : ∀ c, e ≠ .th c) (s : State) :
    (s.disabled e).regs = s.regs ∧ (s.disabled e).mem = s.mem ∧ (s.disabled e).cores = s.cores := by
  cases e with
  | th c => exact absurd rfl (hth c)
  | tid | mem | bst | pio | pwr | grv | dom _ | tin _ | po _ | pwm _ => exact ⟨rfl, rfl, rfl⟩
  | _ => exact False.elim h

/-! ### A thermal channel (R288 to R291) -/

/-- PRF_STATUS and the CTRL of a thermal channel. -/
def ThWord (c x : Nat) : Prop := x = PRF_STATUS_STATE.off ∨ x = TLY_TH_CTRL_ENABLE.off + dTh c

theorem ThWord.bounds {c x : Nat} (hc : c < 32) (h : ThWord c x) :
    (x = 0x100004 ∨ x = 0x706000 + 0x100 * c) ∧ x % 0x20 ≤ 4 ∧ x < 0x708000 := by
  simp only [ThWord, PRF_STATUS_STATE, TLY_TH_CTRL_ENABLE, dTh] at h
  omega

theorem ThWord.offMast {c : Nat} (hc : c < 32) : OffMast (ThWord c) where
  pend _ h := by
    have := h.bounds hc
    simp only [HST_MSIX_PBA_PEND] at this
    omega
  lost _ _ h := by
    have := h.bounds hc
    simp only [BRN_EVT_STATS_LOST, dEvt] at this
    omega
  state _ h := by
    have := h.bounds hc
    simp only [MST_SRC_STATE_LEVEL] at this
    omega

/-- `t` has the words of a thermal channel's ENABLE and of the set as `s` has them, and its cores. -/
structure ThKeeps (c : Nat) (s t : State) : Prop where
  words : SameWords (ThWord c) s t
  cores : t.cores = s.cores

namespace ThKeeps
variable {c : Nat} {s t u : State}

theorem refl (s : State) : ThKeeps c s s := ⟨.refl s, rfl⟩

theorem trans (h : ThKeeps c s t) (h' : ThKeeps c t u) : ThKeeps c s u := ⟨h.words.trans h'.words, h'.cores.trans h.cores⟩

theorem p (h : ThKeeps c s t) {f : Fld} {d : Nat} (hlo : f.lo < 32) (hw : ¬ ThWord c (f.off + d)) (v : Nat) :
    ThKeeps c s (t.p f d v) := ⟨h.words.p hlo hw v, h.cores⟩

theorem ite {q : Prop} [Decidable q] (ht : ThKeeps c s t) (hu : ThKeeps c s u) : ThKeeps c s (if q then t else u) := by
  split
  · exact ht
  · exact hu

theorem foldl {β : Type} {f : State → β → State} (hf : ∀ t x, ThKeeps c t (f t x)) (l : List β) (s : State) :
    ThKeeps c s (l.foldl f s) :=
  List.foldlRecOn (motive := ThKeeps c s) l f (refl s) fun t ht x _ => ht.trans (hf t x)

end ThKeeps

section
variable {c : Nat} (hc : c < 32) (s : State)
include hc

/-- The registers of a channel's deltas and status are other words than its CTRL. -/
theorem ThWord.not_of_delta {x : Nat} (h : 0x706000 + 0x100 * c < x) : ¬ ThWord c x := fun hx => by
  have := hx.bounds hc
  omega

theorem State.thLatch_thKeeps (part : Bool) : ThKeeps c s (s.thLatch c part) := by
  unfold State.thLatch
  extract_lets d x one t u
  have hstatus : ¬ ThWord c (TLY_TH_STATUS_DELTA_SAT.off + d) :=
    ThWord.not_of_delta hc (by simp only [TLY_TH_STATUS_DELTA_SAT, d, dTh]; omega)
  have hseq : ¬ ThWord c (TLY_TH_DELTA_STATUS_SEQ.off + d) :=
    ThWord.not_of_delta hc (by simp only [TLY_TH_DELTA_STATUS_SEQ, d, dTh]; omega)
  have hone (v : State) (i : Nat) : ThKeeps c v (one v i) := by
    have hvalue (y : Nat) : ThKeeps c v (v.p TLY_TH_DELTA_VALUE (d + 4 * i) y) :=
      (ThKeeps.refl v).p (by decide)
        (ThWord.not_of_delta hc (by simp only [TLY_TH_DELTA_VALUE, d, dTh]; omega)) y
    exact .ite (hvalue _) ((hvalue _).p (by decide) hstatus 1)
  have ht : ThKeeps c s t := ((ThKeeps.refl s).p (by decide) hstatus 0).trans (ThKeeps.foldl hone _ _)
  have hu : ThKeeps c t u :=
    (((ThKeeps.refl t).p (f := TLY_TH_DELTA_STATUS_SEQ) (by decide) hseq _).p (f := TLY_TH_DELTA_STATUS_PARTIAL)
      (by decide) hseq _).trans ⟨.of_regs rfl, rfl⟩
  exact (ht.trans hu).trans ⟨(ThWord.offMast hc).fireEdge u _, State.fireEdge_cores ..⟩

theorem State.clearPulses_thKeeps : ThKeeps c s s.clearPulses := by
  refine ThKeeps.foldl (fun t j => ?_) _ s
  have hset (x : PulseOut) : ThKeeps c t (t.setPulse j x) := ⟨.of_regs rfl, rfl⟩
  refine (hset _).p (f := TLY_PO_STATUS_BACKLOG) (by decide) (fun h => ?_) 0
  have := h.bounds hc
  simp only [TLY_PO_STATUS_BACKLOG, dPo] at this
  omega

theorem State.transitCheck_thKeeps : ThKeeps c s s.transitCheck :=
  .ite ((ThKeeps.refl s).p (f := SYS_MODE_TRANSIT) (by decide) (fun h => by
    have := h.bounds hc
    simp only [SYS_MODE_TRANSIT] at this
    omega) 0) (.refl s)

theorem State.tlyTransit_thKeeps : ThKeeps c s s.tlyTransit := by
  have hstatus : ¬ ThWord c (TLY_STATUS_TRANSIT.off + 0) := fun h => by
    have := h.bounds hc
    simp only [TLY_STATUS_TRANSIT] at this
    omega
  unfold State.tlyTransit
  extract_lets t wait u
  have hu : ThKeeps c s u := (ThKeeps.refl s).p (by decide) hstatus _
  exact .ite hu ((hu.p (f := TLY_STATUS_DELTA_MODE) (by decide) hstatus _).trans (State.transitCheck_thKeeps hc _))

theorem State.thTakeup_thKeeps : ThKeeps c s (s.thTakeup c) := by
  unfold State.thTakeup
  dsimp only
  split
  · exact .refl s
  · refine .trans (.trans ?_ (State.clearPulses_thKeeps hc _)) (State.tlyTransit_thKeeps hc _)
    have hlatch : ThKeeps c s (if (s.thm c).mode = 2 ∧ 0 < (s.thm c).window then s.thLatch c true else s) :=
      .ite (s.thLatch_thKeeps hc true) (.refl s)
    exact hlatch.trans ⟨.of_regs rfl, rfl⟩

theorem State.thDisable_thKeeps : ThKeeps c s (s.thDisable c) :=
  (s.thTakeup_thKeeps hc).trans (State.tlyTransit_thKeeps hc _)

end

theorem En.th_lt {c : Nat} (h : En.th c ∈ enAll) : c < 32 := by
  have hall : (enAll.all fun e => match e with | .th k => decide (k < 32) | _ => true) = true := by decide +kernel
  exact of_decide_eq_true (List.all_eq_true.mp hall _ h)

theorem mem_of_enAt {off : Nat} {e : En} (h : enAt off = some e) : e ∈ enAll := List.mem_of_find?_eq_some h

/-- What the block's part in the clearing of its ENABLE leaves. -/
structure DisabledKeeps (e : En) (s t : State) : Prop where
  isOn : t.isOn e = s.isOn e
  prf : t.prf = s.prf
  mem : t.mem = s.mem
  cores : t.cores = s.cores

theorem State.disabled_th_keeps {c : Nat} (hc : c < 32) (s : State) : DisabledKeeps (.th c) s (s.disabled (.th c)) := by
  obtain ⟨hwords, hcores⟩ := s.thDisable_thKeeps hc
  exact ⟨hwords.on (f := TLY_TH_CTRL_ENABLE) (by decide) (.inr rfl), hwords.g _ _ (by decide) (.inl rfl),
    s.thDisable_mem c, hcores⟩

theorem State.disabled_keeps {e : En} (h : e.clearedAlone) (he : e ∈ enAll) (s : State) :
    DisabledKeeps e s (s.disabled e) := by
  by_cases hth : ∃ c, e = .th c
  · obtain ⟨c, rfl⟩ := hth
    exact s.disabled_th_keeps (En.th_lt he)
  · obtain ⟨hregs, hmem, hcores⟩ := s.disabled_alone h (not_exists.mp hth)
    have hw : SameWords (fun _ => True) s (s.disabled e) := .of_regs hregs
    exact ⟨hw.on (by rw [e.flds_lo.1]; decide) trivial, State.g_congr hregs _ _, hmem, hcores⟩

/-! ## The commands -/

section
variable {s : State} {off : BitVec 25} {e : En}

theorem exec_enableSet (he : enAt off.toNat = some e) (hr : s.inReset = false) :
    exec (.enableSet off) s = .next ((s.enStart e).answer true 0) := by
  show execEnableSet off s = _
  simp only [execEnableSet, he, State.command_of_inReset hr]

theorem exec_enableClear (he : enAt off.toNat = some e) (hr : s.inReset = false) :
    exec (.enableClear off) s = .next ((s.enClear e).answer true 0) := by
  show execEnableClear off s = _
  simp only [execEnableClear, he, State.command_of_inReset hr]

theorem exec_enableCheckEnd (he : enAt off.toNat = some e) (hc : s.checking.contains e.key = true)
    (hp : s.powered e = true) : exec (.enableCheckEnd off) s = .next (s.enEnd e) := by
  show execEnableCheckEnd off s = _
  simp only [execEnableCheckEnd, he, hc, hp, Bool.and_self, if_true]

/-- The check of a free ENABLE begins: it runs from now, and ENABLE still reads 0. -/
theorem State.enStart_begins (h : s.isOn e = false) (hm : ¬ (s.mode = SAFE ∧ e.inSafe = false))
    (hc : s.checking.contains e.key = false) (hn : (s.woken e).needs e = true)
    (hr : (s.woken e).memoryReady e = true) :
    (s.enStart e).checking = s.checking ++ [e.key] ∧ (s.enStart e).isOn e = false ∧
      (s.enStart e).regs = (s.woken e).regs ∧ (s.enStart e).mem = s.mem ∧ (s.enStart e).cores = s.cores := by
  have hoff : (s.woken e).isOn e = false := (s.isOn_woken e).trans h
  have hstart : s.enStart e = (s.woken e).checkBegun e := by
    rw [State.enStart_of_free h hm hc, if_neg (by simp [hn]), if_neg (by simp [hr])]
  have hsame : (s.woken e).checking = s.checking ∧ (s.woken e).mem = s.mem ∧ (s.woken e).cores = s.cores := by
    rw [State.woken_eq]
    exact ⟨rfl, rfl, rfl⟩
  obtain ⟨hchecking, hmem, hcores⟩ := hsame
  rw [hstart, State.checkBegun_eq, ← hchecking, ← hmem, ← hcores]
  exact ⟨rfl, hoff, rfl, rfl, rfl⟩

end

/-- Settles O37, from the cases of an ENABLE's setting, of its check's end and of its clearing. -/
theorem enableBits : Obligations.EnableBits := by
  intro off e s he hr set end_ clear w u z open_
  have hset : set = .next ((s.enStart e).answer true 0) := exec_enableSet he hr
  have hclear : clear = .next ((s.enClear e).answer true 0) := exec_enableClear he hr
  have hw : w = s.woken e := rfl
  have hu : u = s.checkGone e := rfl
  have hshut : ¬ open_ ↔ s.mode = SAFE ∧ e.inSafe = false := by simp [open_]
  have hopen (h : open_) : ¬ (s.mode = SAFE ∧ e.inSafe = false) := fun hs => hshut.mpr hs h
  refine ⟨fun h => ?_, fun h ho => ?_, fun h ho hc => ?_, fun h ho hc => ⟨fun hn => ?_, fun hn hm => ?_, fun hn hm => ?_⟩,
    fun hc hp => ?_, fun h => ?_, fun h hprf hneeds hkind => ?_⟩
  -- ENABLE_SET
  · rw [hset, State.enStart_of_on h]
  · rw [hset, State.enStart_of_safe h (hshut.mp ho)]
  · rw [hset, State.enStart_of_checking h (hopen ho) hc]
  · rw [hw] at hn ⊢
    rw [hset, State.enStart_of_free h (hopen ho) hc, if_pos hn]
  · rw [hw] at hn hm ⊢
    rw [hset, State.enStart_of_free h (hopen ho) hc, if_neg (by simp [hn]), if_pos hm]
  · exact ⟨_, hset, State.enStart_begins h (hopen ho) hc hn hm⟩
  -- ENABLE_CHECK_END
  · have hend : end_ = .next (s.enEnd e) := exec_enableCheckEnd he hc hp
    rw [hend, hu]
    refine ⟨fun ho => ?_, fun ho hn => ?_, fun ho hn hm => ?_, fun ho hn hm => ⟨fun c hcode => ?_, fun hpass hkind => ?_⟩⟩
    · rw [State.enEnd_of_safe (hshut.mp ho)]
    · rw [State.enEnd_of_need (hopen ho) hn]
    · rw [State.enEnd_of_memory (hopen ho) hn hm]
    · rw [State.enEnd_of_ready (hopen ho) hn hm, hcode]
    · have halone : e.enabledAlone := hkind
      rw [State.enEnd_of_ready (hopen ho) hn hm, hpass]
      refine ⟨_, rfl, ?_⟩
      rw [State.enabled_alone halone]
      exact (s.checkGone e).enSet_passed e
  -- ENABLE_CLEAR
  · rw [hclear, State.enClear_of_off h, hu]
  · have hcleared : e.clearedAlone := hkind
    have hz : z = (s.checkGone e).enSet e false := rfl
    have hkeeps := z.disabled_keeps hcleared (mem_of_enAt he)
    have hzprf : z.prf = s.prf := State.prf_enSet _ e false
    have hnone : (z.disabled e).prf = pIDLE ∨ (z.disabled e).prf = pSTAGED := by rwa [hkeeps.prf, hzprf]
    refine ⟨?_, ?_, hkeeps.mem, hkeeps.cores, ?_⟩
    · rw [hclear, State.enClear_of_on h hneeds hnone, hz]
    · rw [hkeeps.isOn, hz, State.isOn_enSet_false]
    · split
      · trivial
      · next hth => exact (z.disabled_alone hcleared fun c hc => hth c hc).1

end Sys2Proof.Machine

/-! # Proofs: program exchange and Cargo receive (O41)

What each command of an exchange makes of its STATE, by the cases in which it is refused or taken, and what the carrying of
a package into its quay leaves. -/

namespace Sys2Proof.Machine

/-! ## Fields of one quay -/

section
variable (s : State) (q : Nat)

/-- At one displacement another field reads as before. -/
theorem State.g_p_other {f e : Fld} (h : f.key 0 ≠ e.key 0) (d v : Nat) : (s.p f d v).g e d = s.g e d := by
  refine s.g_p_ne f e d d v fun hd => h ?_
  simp only [Fld.key] at hd ⊢
  omega

@[simp] theorem State.quay_setQuay_same (x : QuaySt) : (s.setQuay q x).quay q = x := AMap.get_set_same ..

/-- A quay is read from the quays alone. -/
theorem State.quay_congr {s t : State} (h : t.quays = s.quays) (q : Nat) : t.quay q = s.quay q := by
  unfold State.quay
  rw [h]

/-! ## The STATE of an exchange (R163, R164) -/

@[simp] theorem State.xState_answer (ok : Bool) (v : Nat) : (s.answer ok v).xState q = s.xState q := rfl

theorem State.xState_setXState {x : Nat} (h : x < 16) : (s.setXState q x).xState q = x :=
  (s.g_p_same _ _ _).trans (Nat.mod_eq_of_lt h)

theorem State.g_setXState {f : Fld} (h : BRN_XCHG_STATUS_STATE.key 0 ≠ f.key 0) (x : Nat) :
    (s.setXState q x).g f (dQuay q) = s.g f (dQuay q) := s.g_p_other h _ _

theorem State.cores_setXState (x : Nat) : (s.setXState q x).cores = s.cores := s.p_cores _ _ _

theorem State.quay_setXState (x : Nat) : (s.setXState q x).quay q = s.quay q := State.quay_congr (s.p_quays _ _ _) q

theorem State.g_xRefuse (code : Nat) :
    (s.xRefuse q code).g BRN_XCHG_STATUS_REFUSAL (dQuay q) = code % 2 ^ BRN_XCHG_STATUS_REFUSAL.w := s.g_p_same _ _ _

theorem State.cores_xRefuse (code : Nat) : (s.xRefuse q code).cores = s.cores := s.p_cores _ _ _

/-! ## Progress (R79, R80) -/

section
variable (r : ProgRegs) {f : Fld} (d v : Nat)

theorem State.g_progStart_other
    (h : r.state.key 0 ≠ f.key 0 ∧ r.mille.key 0 ≠ f.key 0 ∧ r.pos.key 0 ≠ f.key 0 ∧ r.total.key 0 ≠ f.key 0) :
    (s.progStart r d v).g f d = s.g f d := by
  obtain ⟨hstate, hmille, hpos, htotal⟩ := h
  unfold State.progStart
  rw [State.g_p_other _ htotal, State.g_p_other _ hpos, State.g_p_other _ hmille, State.g_p_other _ hstate]

theorem State.g_progAt_other (h : r.pos.key 0 ≠ f.key 0 ∧ r.mille.key 0 ≠ f.key 0) :
    (s.progAt r d v).g f d = s.g f d := by
  obtain ⟨hpos, hmille⟩ := h
  unfold State.progAt
  rw [State.g_p_other _ hmille, State.g_p_other _ hpos]

theorem State.g_progEnd_other (h : r.state.key 0 ≠ f.key 0 ∧ r.mille.key 0 ≠ f.key 0) :
    (s.progEnd r d v).g f d = s.g f d := by
  obtain ⟨hstate, hmille⟩ := h
  unfold State.progEnd
  dsimp only
  split
  · rw [State.g_p_other _ hmille, State.g_p_other _ hstate]
  · exact State.g_p_other _ hstate _ _

theorem State.g_progEnd_state (h : r.mille.key 0 ≠ r.state.key 0) :
    (s.progEnd r d v).g r.state d = v % 2 ^ r.state.w := by
  unfold State.progEnd
  dsimp only
  split
  · rw [State.g_p_other _ h, State.g_p_same]
  · exact State.g_p_same _ _ _ _

theorem State.g_progEnd_mille : (s.progEnd r d 2).g r.mille d = 10000 % 2 ^ r.mille.w := State.g_p_same _ _ _ _

theorem State.progStart_cores : (s.progStart r d v).cores = s.cores := State.bare_cores (s.progStart_bare r d v)

theorem State.progAt_cores : (s.progAt r d v).cores = s.cores := State.bare_cores (s.progAt_bare r d v)

end

end

/-! ## What refuses every command (R166) -/

section
variable {s : State} {q : Nat}

theorem State.xBusyCode_of_safe (h : s.mode = SAFE) : s.xBusyCode q = 0x116 := if_pos h

theorem State.xBusyCode_of_runs (hm : s.mode ≠ SAFE) (hx : s.xState q ∈ [xLOADING, xWAITING, xHOLD]) :
    s.xBusyCode q = 0x118 := by
  unfold State.xBusyCode
  rw [if_neg hm, if_pos (by simpa using hx)]

theorem State.xBusyCode_of_loaded (hm : s.mode ≠ SAFE) (hx : s.xState q = xLOADED) : s.xBusyCode q = 0 := by
  unfold State.xBusyCode
  rw [if_neg hm, if_neg]
  rw [hx]
  decide

/-! ## LOAD and its end (R163) -/

theorem State.xchgLoad_of_busy (h : s.xBusyCode q ≠ 0) : s.xchgLoad q = s.xRefuse q (s.xBusyCode q) := if_pos h

theorem State.xchgLoad_of_badArea (h : s.xBusyCode q = 0)
    (ha : s.g BRN_XCHG_AREA_ADDR (dQuay q) = 0 ∨ inSram (s.g BRN_XCHG_AREA_ADDR (dQuay q)) 0x20000 = false) :
    s.xchgLoad q = s.xRefuse q 0x11A := by
  unfold State.xchgLoad
  rw [if_neg (by simp [h]), if_pos ha]

/-- The package is read from now on, and TOTAL is its size in KB. -/
theorem State.xchgLoad_of_goodArea (h : s.xBusyCode q = 0) (ha : s.g BRN_XCHG_AREA_ADDR (dQuay q) ≠ 0)
    (hs : inSram (s.g BRN_XCHG_AREA_ADDR (dQuay q)) 0x20000 = true) :
    s.xchgLoad q = (s.setXState q xLOADING).progStart progXchg (dQuay q)
      (ceilDiv (s.g BRN_XCHG_LEN_BYTES (dQuay q)) 1024) := by
  unfold State.xchgLoad
  rw [if_neg (by simp [h]), if_neg (by simp [ha, hs])]
  dsimp only
  rw [State.g_setXState _ _ (by decide)]

/-- The package begins to be read: LOADING, at position 0 of TOTAL. -/
theorem State.xchgLoad_begins (h : s.xBusyCode q = 0) (ha : s.g BRN_XCHG_AREA_ADDR (dQuay q) ≠ 0)
    (hs : inSram (s.g BRN_XCHG_AREA_ADDR (dQuay q)) 0x20000 = true) :
    (s.xchgLoad q).xState q = xLOADING ∧
      (s.xchgLoad q).g BRN_XCHG_PROG_TOTAL_VAL (dQuay q) =
        ceilDiv (s.g BRN_XCHG_LEN_BYTES (dQuay q)) 1024 % 2 ^ BRN_XCHG_PROG_TOTAL_VAL.w ∧
      (s.xchgLoad q).g BRN_XCHG_PROG_POSITION_VAL (dQuay q) = 0 ∧ (s.xchgLoad q).cores = s.cores := by
  rw [State.xchgLoad_of_goodArea h ha hs]
  refine ⟨(State.g_progStart_other _ _ _ _ (by decide)).trans (s.xState_setXState _ (by decide)), ?_, ?_, ?_⟩
  · exact State.g_p_same _ _ _ _
  · exact (State.g_p_other _ (by decide) _ _).trans (State.g_p_same _ _ _ _)
  · rw [State.progStart_cores, State.cores_setXState]

variable (s q) in
/-- What the check of the package that LOAD names finds. -/
def State.loadCode : Nat := s.pkgCheck q (s.g BRN_XCHG_PKG_ADDR (dQuay q)) (s.g BRN_XCHG_LEN_BYTES (dQuay q))

theorem State.xchgLoadEnd_of_bad (h : s.loadCode q ≠ 0) :
    s.xchgLoadEnd q = ((s.xRefuse q (s.loadCode q)).setXState q xIDLE).progEnd progXchg (dQuay q) 3 := if_pos h

theorem State.roundOpen_cores (x : Int) (d : Nat) : (s.roundOpen x d).2.cores = s.cores := by
  unfold State.roundOpen
  split
  · rfl
  · exact s.draw_cores

/-- A package that passes is LOADED, after HOLD_NS and its digest are noted. -/
theorem State.xchgLoadEnd_of_good (h : s.loadCode q = 0) : ∃ (t : State) (n : Nat), t.cores = s.cores ∧
    s.xchgLoadEnd q = ((t.setXState q xLOADED).progAt progXchg (dQuay q) n).progEnd progXchg (dQuay q) 2 := by
  refine ⟨_, _, ?_, if_neg (not_not_intro h)⟩
  rw [State.setQuay_cores, State.p_cores, State.roundOpen_cores]

theorem State.xchgLoadEnd_loads (h : s.loadCode q = 0) :
    (s.xchgLoadEnd q).xState q = xLOADED ∧ (s.xchgLoadEnd q).g BRN_XCHG_PROG_PERMYRIAD_STATE (dQuay q) = 2 ∧
      (s.xchgLoadEnd q).g BRN_XCHG_PROG_PERMYRIAD_VAL (dQuay q) = 10000 := by
  obtain ⟨t, n, -, hend⟩ := State.xchgLoadEnd_of_good h
  rw [hend]
  refine ⟨?_, State.g_progEnd_state _ progXchg _ _ (by decide), State.g_progEnd_mille _ progXchg _⟩
  exact (State.g_progEnd_other _ _ _ _ (by decide)).trans ((State.g_progAt_other _ _ _ _ (by decide)).trans
    (t.xState_setXState _ (by decide)))

theorem State.xchgLoadEnd_fails (h : s.loadCode q ≠ 0) :
    (s.xchgLoadEnd q).xState q = xIDLE ∧
      (s.xchgLoadEnd q).g BRN_XCHG_STATUS_REFUSAL (dQuay q) = s.loadCode q % 2 ^ BRN_XCHG_STATUS_REFUSAL.w ∧
      (s.xchgLoadEnd q).g BRN_XCHG_PROG_PERMYRIAD_STATE (dQuay q) = 3 := by
  rw [State.xchgLoadEnd_of_bad h]
  refine ⟨?_, ?_, State.g_progEnd_state _ progXchg _ _ (by decide)⟩
  · exact (State.g_progEnd_other _ _ _ _ (by decide)).trans (State.xState_setXState _ _ (by decide))
  · exact (State.g_progEnd_other _ _ _ _ (by decide)).trans
      ((State.g_setXState _ _ (by decide) _).trans (s.g_xRefuse _ _))

variable (s q) in
theorem State.xchgLoadEnd_cores : (s.xchgLoadEnd q).cores = s.cores := by
  by_cases h : s.loadCode q = 0
  · obtain ⟨t, n, ht, hend⟩ := State.xchgLoadEnd_of_good h
    rw [hend, State.progEnd_cores, State.progAt_cores, State.cores_setXState, ht]
  · rw [State.xchgLoadEnd_of_bad h, State.progEnd_cores, State.cores_setXState, State.cores_xRefuse]

/-! ## CANCEL (R164, R166) -/

theorem State.xchgCancel_of_safe (h : s.mode = SAFE) : s.xchgCancel q = s.xRefuse q 0x116 := if_pos h

theorem State.xchgCancel_of_loading (hm : s.mode ≠ SAFE) (hx : s.xState q = xLOADING) :
    s.xchgCancel q = s.xRefuse q 0x118 := by
  unfold State.xchgCancel
  rw [if_neg hm, if_pos hx]

theorem State.xchgCancel_of_loaded (hm : s.mode ≠ SAFE) (hx : s.xState q = xLOADED ∨ s.xState q = xWAITING) :
    s.xchgCancel q = s.setXState q xIDLE := by
  have hload : s.xState q ≠ xLOADING := by
    rcases hx with hx | hx <;> rw [hx] <;> decide
  unfold State.xchgCancel
  rw [if_neg hm, if_neg hload, if_pos hx]

/-! ## APPLY (R164, R166) -/

variable {b : Bool}

theorem State.xchgApply_of_busy (h : s.xBusyCode q ≠ 0) : s.xchgApply q b = s.xRefuse q (s.xBusyCode q) := if_pos h

theorem State.xchgApply_of_unloaded (h : s.xBusyCode q = 0) (hx : s.xState q ≠ xLOADED) :
    s.xchgApply q b = s.xRefuse q 0x115 := by
  unfold State.xchgApply
  rw [if_neg (not_not_intro h), if_pos hx]

/-- On an enabled quay, with none of its ENTRY and SAVE registers staged, the loaded package waits from now. -/
theorem State.xchgApply_of_loaded (h : s.xBusyCode q = 0) (hx : s.xState q = xLOADED) (hs : s.staged = [])
    (he : s.on BRN_QUAY_CTRL_ENABLE (dQuay q) = true) :
    s.xchgApply q b = (s.setQuay q { s.quay q with
      xchg := { (s.quay q).xchg with allowSkip := b, waitSince := s.fab } }).setXState q xWAITING := by
  have hfree : ¬ ((entryFields q).any fun f => (AMap.find s.staged f).isSome) = true := by
    simp [hs, AMap.find]
  unfold State.xchgApply
  rw [if_neg (not_not_intro h), if_neg (not_not_intro hx), if_neg hfree, if_pos he]

end

/-! ## The hold begins (R164, R422) -/

section
variable (s : State) (q : Nat)

theorem State.mooringSend_eq (type stream arg : Nat) (payload : List Byte) :
    s.mooringSend type stream arg payload = { s with
      outbox := (s.mooringSend type stream arg payload).outbox, pair := (s.mooringSend type stream arg payload).pair } := by
  unfold State.mooringSend
  dsimp only
  split <;> rfl

theorem State.xState_holdStart : (s.holdStart q).xState q = xHOLD := by
  have h : (s.setXState q xHOLD).xState q = xHOLD := s.xState_setXState q (by decide)
  unfold State.holdStart
  dsimp only
  split
  · rw [State.mooringSend_eq]
    exact h
  · exact h

theorem State.cores_holdStart : (s.holdStart q).cores = s.cores := by
  unfold State.holdStart
  dsimp only
  split
  · rw [State.mooringSend_eq]
    exact s.cores_setXState q xHOLD
  · exact s.cores_setXState q _

end

/-! ## What the carrying of a package leaves (R165) -/

/-- The cores and the quays of a state: memories and registers alone take a package up. -/
def State.runners (s : State) : AMap Core × AMap QuaySt := (s.cores, s.quays)

section
variable (s : State)

theorem State.runners_p (f : Fld) (d v : Nat) : (s.p f d v).runners = s.runners := rfl

theorem State.runners_pBoth (f : Fld) (d v : Nat) : (s.pBoth f d v).runners = s.runners := by
  unfold State.pBoth
  dsimp only
  split <;> rfl

theorem State.runners_wbs (a : Nat) (l : List Byte) : (s.wbs a l).runners = s.runners := by
  rw [State.wbs_eq]
  rfl

theorem State.runners_wle (a n v : Nat) : (s.wle a n v).runners = s.runners := s.runners_wbs _ _

theorem State.runners_wbsEcc (k : Nat) (l : List Byte) : (s.wbsEcc k l).runners = s.runners := s.runners_wbs k l

theorem State.runners_carryInst (c off kind : Nat) (old : List Byte) :
    (s.carryInst c off kind old).runners = s.runners := by
  unfold State.carryInst
  extract_lets key ctrlOld ctrlNew t
  have ht : t.runners = s.runners := s.runners_wle _ _ _
  split
  · rw [State.runners_wbs, ht]
  · split
    · rw [State.runners_wbs, ht]
    · exact ht

theorem State.runners_settleCore (q i : Nat) (insts retains : List (Nat × Nat × Nat)) (before : State) :
    (s.settleCore q i insts retains before).1.runners = s.runners := by
  unfold State.settleCore
  extract_lets c oldI oldR byKey same other lenDiff carried retained
  have hcarried : carried.runners = s.runners := foldl_keep _ State.runners (fun t n => by
    split
    · split
      · exact t.runners_carryInst _ _ _ _
      · exact t.runners_wle _ _ _
    · exact t.runners_wle _ _ _) _ s
  refine (foldl_keep _ State.runners (fun t n => ?_) _ carried : retained.runners = carried.runners).trans hcarried
  split
  · split
    · exact t.runners_wbs _ _
    · rfl
  · rfl

theorem State.runners_writeEntry (q : Nat) (e : Nat × Nat × Nat) : (s.writeEntry q e).runners = s.runners := by
  unfold State.writeEntry
  dsimp only
  split_ifs
  · rw [State.runners_pBoth, State.runners_pBoth]
  · rw [State.runners_pBoth, State.runners_pBoth]
  · rw [State.runners_pBoth, State.runners_pBoth]
  · rfl

theorem State.runners_keepTables (q i : Nat) (insts retains : List (Nat × Nat × Nat)) :
    (s.keepTables q i insts retains).runners = s.runners := by
  unfold State.keepTables
  dsimp only
  rw [State.runners_wbsEcc, State.runners_wbsEcc]

/-- Beside memories and registers the carrying of a package changes the digest of the quay's present program alone. -/
theorem State.settle_eq (q : Nat) : ∃ t : State, t.runners = s.runners ∧
    s.settle q = t.setQuay q { t.quay q with xchg := { (t.quay q).xchg with presentDigest := (t.quay q).xchg.digest } } := by
  unfold State.settle
  extract_lets before a pages entries mask r d counted tables k
  have hpages : pages.runners = s.runners := foldl_keep _ State.runners (fun t x => by
    dsimp only
    split_ifs
    · exact t.runners_wbsEcc _ _
    · exact t.runners_wbsEcc _ _
    · rfl) _ s
  have hentries : entries.runners = pages.runners :=
    foldl_keep _ State.runners (fun t e => t.runners_writeEntry q e) _ pages
  have hr : r.1.runners = entries.runners :=
    List.foldlRecOn (motive := fun x : State × Nat × Nat × Nat × Nat => x.1.runners = entries.runners) _ _ rfl
      fun x hx i _ => by
        split
        · extract_lets y
          show y.1.runners = entries.runners
          exact (x.1.runners_settleCore q i _ _ _).trans hx
        · exact hx
  have hcounted : counted.runners = r.1.runners := rfl
  have htables : tables.runners = counted.runners := foldl_keep _ State.runners (fun t i => by
    split
    · exact t.runners_keepTables q i _ _
    · rfl) _ counted
  exact ⟨tables, htables.trans (hcounted.trans (hr.trans (hentries.trans hpages))), rfl⟩

end

/-! ## The hold ends (R165) -/

section
variable (s : State) (q : Nat)

theorem State.xState_holdEnd : (s.holdEnd q).xState q = xIDLE := State.xState_setXState _ q (by decide)

theorem State.cores_holdEnd : (s.holdEnd q).cores = s.cores := by
  obtain ⟨t, ht, hsettle⟩ := s.settle_eq q
  unfold State.holdEnd
  rw [State.cores_setXState, hsettle]
  exact congrArg Prod.fst ht

/-- The program whose digest the package carried is the present one. -/
theorem State.presentDigest_holdEnd : ((s.holdEnd q).quay q).xchg.presentDigest = (s.quay q).xchg.digest := by
  obtain ⟨t, ht, hsettle⟩ := s.settle_eq q
  have hquays : t.quays = s.quays := congrArg Prod.snd ht
  unfold State.holdEnd
  rw [State.quay_setXState, hsettle, State.quay_setQuay_same, State.quay_congr hquays]

end

/-! ## Received Cargo messages (R156, R161) -/

/-- A number of a message, big-endian. -/
def msgField (msg : List Byte) (o n : Nat) : Nat := beNat ((msg.drop o).take n)

/-- A station that has taken an input: the latest, and fresh; a fresh one of an earlier cycle stands behind it. -/
def Station.received (x : Station) (fab seq : Nat) (img : List Byte) : Station :=
  { x with rxSeq := seq, latest := img, rxAt := fab,
           prior := if x.freshNow && x.rxAt < fab then some x.latest else x.prior, freshNow := true }

/-- A message that the station takes: type, station, length, SYSTEM_ID as its header must have them, and SEQ ahead. -/
structure CargoTaken (s : State) (msg : List Byte) (n : Nat) (x : Station) : Prop where
  whole : 20 + entInLen x.entry ≤ msg.length
  type : msgField msg 0 1 = 0x11
  station : msgField msg 2 2 = n
  len : msgField msg 6 2 = entInLen x.entry
  system : msgField msg 16 4 = s.g NET_CARGO_SYSID_SYSTEM_ID
  ahead : x.state = 1 → 1 ≤ (msgField msg 4 2 + 65536 - x.rxSeq) % 65536 ∧
    (msgField msg 4 2 + 65536 - x.rxSeq) % 65536 ≤ 32767

section
variable {s : State} {port tr udp : Nat} {mac ip msg : List Byte}

theorem State.cargoIn_of_off (h : s.on NET_CARGO_CTRL_ENABLE = false) : s.cargoIn port tr mac ip udp msg = s :=
  if_neg (by simp [h])

theorem State.cargoIn_of_unknown (h : s.on NET_CARGO_CTRL_ENABLE = true)
    (hn : s.cargoCandidate port tr mac ip udp = none) :
    s.cargoIn port tr mac ip udp msg = s.inc NET_CARGO_ERR_COUNT 0 := by
  unfold State.cargoIn
  rw [if_pos h, hn]
  rfl

theorem State.cargoIn_of_taken {n : Nat} {x : Station} (h : s.on NET_CARGO_CTRL_ENABLE = true)
    (hn : s.cargoCandidate port tr mac ip udp = some (n, x)) (ht : CargoTaken s msg n x) :
    s.cargoIn port tr mac ip udp msg = s.setStation n (some
      (x.received s.fab (msgField msg 4 2) ((msg.drop 20).take (entInLen x.entry)))) := by
  obtain ⟨hwhole, htype, hstation, hlen, hsystem, hahead⟩ := ht
  have hformat : ¬ (msg.length < 20 ∨ msgField msg 0 1 ≠ 0x11 ∨ msgField msg 2 2 ≠ n) := by
    simp only [htype, hstation, ne_eq, not_true_eq_false, or_false]
    omega
  have hlength : ¬ (msgField msg 6 2 ≠ entInLen x.entry ∨ msg.length < 20 + msgField msg 6 2) := by
    simp only [hlen, ne_eq, not_true_eq_false, false_or]
    omega
  unfold State.cargoIn
  rw [if_pos h, hn]
  refine (if_neg hformat).trans ((if_neg hlength).trans ((if_neg (not_not_intro hsystem)).trans
    ((if_neg fun ha => ha.2 (hahead ha.1)).trans ?_)))
  rw [← hlen]
  rfl

end

/-! ## The commands -/

section
variable {s : State} (q : Fin 6)

theorem exec_xchgLoad (hr : s.inReset = false) : exec (.xchgLoad q) s = .next ((s.xchgLoad q.val).answer true 0) :=
  congrArg Host.Outcome.next (State.command_of_inReset hr _)

theorem exec_xchgApply (hr : s.inReset = false) (b : Bool) :
    exec (.xchgApply q b) s = .next ((s.xchgApply q.val b).answer true 0) :=
  congrArg Host.Outcome.next (State.command_of_inReset hr _)

theorem exec_xchgCancel (hr : s.inReset = false) :
    exec (.xchgCancel q) s = .next ((s.xchgCancel q.val).answer true 0) :=
  congrArg Host.Outcome.next (State.command_of_inReset hr _)

variable {q}

theorem exec_xchgLoadEnd (h : s.xState q.val = xLOADING) : exec (.xchgLoadEnd q) s = .next (s.xchgLoadEnd q.val) :=
  congrArg Host.Outcome.next (if_pos h)

theorem exec_xchgHoldStart (h : s.xState q.val = xWAITING) (hq : s.holdReady q.val = true) :
    exec (.xchgHoldStart q) s = .next (s.holdStart q.val) :=
  congrArg Host.Outcome.next (if_pos ⟨h, hq⟩)

theorem exec_xchgHoldEnd (h : s.xState q.val = xHOLD) : exec (.xchgHoldEnd q) s = .next (s.holdEnd q.val) :=
  congrArg Host.Outcome.next (if_pos h)

theorem exec_xchgApplyTimeout (h : s.xState q.val = xWAITING) (ha : (s.quay q.val).xchg.allowSkip = false)
    (ht : (s.quay q.val).xchg.waitSince + 400000000 ≤ s.fab) :
    exec (.xchgApplyTimeout q) s = .next ((s.xRefuse q.val 0x114).setXState q.val xLOADED) :=
  congrArg Host.Outcome.next (if_pos ⟨h, ha, ht⟩)

end

/-- Settles O41, from the cases of each exchange command, what the carrying of a package leaves, and the cases of a received
message. -/
theorem exchangeAndCargo : Obligations.ExchangeAndCargo := by
  intro q s hr d k refused area len code
  have hrefused {i : Instr} {t : State} {n : Nat} (hi : exec i s = .next (t.answer true 0)) (ht : t = s.xRefuse q.val n) :
      refused i n := by
    rw [ht] at hi
    exact hi
  have hbusy {n : Nat} (h : s.xBusyCode q.val = n) (hn : n ≠ 0) :
      refused (.xchgLoad q) n ∧ refused (.xchgApply q true) n ∧ refused (.xchgApply q false) n := by
    subst h
    exact ⟨hrefused (exec_xchgLoad q hr) (State.xchgLoad_of_busy hn),
      hrefused (exec_xchgApply q hr true) (State.xchgApply_of_busy hn),
      hrefused (exec_xchgApply q hr false) (State.xchgApply_of_busy hn)⟩
  refine ⟨fun hm => ?_, fun hm hx => hrefused (exec_xchgCancel q hr) (State.xchgCancel_of_loading hm hx), fun hm hx => ?_,
    fun h ha => hrefused (exec_xchgLoad q hr) (State.xchgLoad_of_badArea h ha), fun h ha hs => ?_, fun hx => ?_,
    fun b h hx => hrefused (exec_xchgApply q hr b) (State.xchgApply_of_unloaded h hx), fun b hm hx hs he => ?_,
    fun hm hx => ?_, fun hx hq => ?_, fun hx => ?_, fun hx ha ht => ?_, ?_⟩
  -- refused in SAFE, and while an exchange runs
  · obtain ⟨hload, hskip, hwait⟩ := hbusy (State.xBusyCode_of_safe hm) (by decide)
    have hcancel := hrefused (exec_xchgCancel q hr) (State.xchgCancel_of_safe hm)
    simp only [List.forall_mem_cons]
    exact ⟨hload, hskip, hwait, hcancel, List.forall_mem_nil _⟩
  · obtain ⟨hload, hskip, hwait⟩ := hbusy (State.xBusyCode_of_runs hm hx) (by decide)
    simp only [List.forall_mem_cons]
    exact ⟨hload, hskip, hwait, List.forall_mem_nil _⟩
  -- XCHG_LOAD
  · obtain ⟨hstate, htotal, hpos, hcores⟩ := State.xchgLoad_begins h ha hs
    exact ⟨_, exec_xchgLoad q hr, hstate, htotal, hpos, s.xchgLoad_mem _, hcores⟩
  -- XCHG_LOAD_END
  · refine ⟨_, exec_xchgLoadEnd hx, s.xchgLoadEnd_mem _, s.xchgLoadEnd_cores _, ?_⟩
    split
    · next hcode => exact State.xchgLoadEnd_loads hcode
    · next hcode => exact State.xchgLoadEnd_fails hcode
  -- XCHG_APPLY
  · refine ⟨_, exec_xchgApply q hr b, ?_⟩
    rw [State.xchgApply_of_loaded (State.xBusyCode_of_loaded hm hx) hx hs he, State.xState_answer, State.answer_mem,
      State.answer_cores, State.quay_congr (State.answer_quays _ _ _), State.quay_setXState, State.quay_setQuay_same]
    exact ⟨State.xState_setXState _ _ (by decide), rfl, rfl, State.setXState_mem _ _ _, State.cores_setXState _ _ _⟩
  -- XCHG_CANCEL
  · refine ⟨_, exec_xchgCancel q hr, ?_⟩
    rw [State.xchgCancel_of_loaded hm (by simpa using hx), State.xState_answer, State.answer_mem, State.answer_cores]
    exact ⟨s.xState_setXState _ (by decide), s.setXState_mem _ _, s.cores_setXState _ _⟩
  -- XCHG_HOLD_START, XCHG_HOLD_END, XCHG_APPLY_TIMEOUT
  · exact ⟨_, exec_xchgHoldStart hx hq, s.xState_holdStart _, s.holdStart_mem _, s.cores_holdStart _⟩
  · exact ⟨_, exec_xchgHoldEnd hx, s.xState_holdEnd _, s.presentDigest_holdEnd _, s.cores_holdEnd _⟩
  · refine ⟨_, exec_xchgApplyTimeout hx ha ht, State.xState_setXState _ _ (by decide), ?_, State.setXState_mem _ _ _,
      State.cores_setXState _ _ _⟩
    exact (State.g_setXState _ _ (by decide) _).trans (s.g_xRefuse _ _)
  -- CARGO_DATA_IN
  · intro port tr mac ip udp msg x f from_
    refine ⟨fun h => congrArg Host.Outcome.next (State.cargoIn_of_off h),
      fun h hn => congrArg Host.Outcome.next (State.cargoIn_of_unknown h hn), ?_⟩
    intro n y h hn hwhole htype hstation hlen hsystem hahead older
    exact congrArg Host.Outcome.next (State.cargoIn_of_taken h hn ⟨hwhole, htype, hstation, hlen, hsystem, hahead⟩)

end Sys2Proof.Machine

/-! # Proofs: the Graver (O42)

What a raised fault leaves of the words and the overlays that the Graver reads, what the release of one context leaves of
another, the value that a sample applies, and what the output of a result writes. -/

namespace Sys2Proof.Machine
open Sys2Proof.Safety

/-! ## What a raised fault leaves (R140, R384, R423 to R425, R439) -/

/-- The words that raising a fault of a block may write: its fault set, its source's STATE, the quays' counts of lost
triggers, the statuses of the snapshots and the pending vectors. -/
def FaultWord (b : FBlk) (x : Nat) : Prop :=
  (b.F ≤ x ∧ x < b.F + 0x28) ∨ x = MST_SRC_STATE_LEVEL.off + dSrc b.src ∨ (0x200000 ≤ x ∧ x < 0x260000) ∨
    (0xF01000 ≤ x ∧ x < 0xF02000) ∨ (0x1003000 ≤ x ∧ x < 0x1003008)

/-- `t` reads every other word, and the overlay of every quay, as `s` does. -/
structure FaultKeeps (b : FBlk) (s t : State) : Prop where
  words : SameWords (fun x => ¬ FaultWord b x) s t
  overlay : ∀ q, (t.quay q).overlay = (s.quay q).overlay

namespace FaultKeeps
variable {b : FBlk} {s t u : State} {f : Fld} {d : Nat}

theorem of_same (hr : t.regs = s.regs) (hq : t.quays = s.quays) : FaultKeeps b s t :=
  ⟨.of_regs hr, fun q => by rw [State.quay_congr hq]⟩

theorem refl (s : State) : FaultKeeps b s s := of_same rfl rfl

theorem trans (h : FaultKeeps b s t) (h' : FaultKeeps b t u) : FaultKeeps b s u :=
  ⟨h.words.trans h'.words, fun q => (h'.overlay q).trans (h.overlay q)⟩

theorem p (h : FaultKeeps b s t) (hlo : f.lo < 32) (hw : FaultWord b (f.off + d)) (v : Nat) :
    FaultKeeps b s (t.p f d v) := ⟨h.words.p hlo (not_not_intro hw) v, h.overlay⟩

/-- A field of the block's fault set. -/
theorem p_set (h : FaultKeeps b s t) (hf : f.lo < 32 ∧ b.F ≤ f.off ∧ f.off < b.F + 0x28) (v : Nat) :
    FaultKeeps b s (t.p f 0 v) := h.p hf.1 (.inl hf.2) v

theorem hw_set (h : FaultKeeps b s t) (hf : f.lo < 32 ∧ b.F ≤ f.off ∧ f.off < b.F + 0x28) (v : Nat) :
    FaultKeeps b s (t.hw f 0 v) := (h.p_set hf _).trans (of_same rfl rfl)

theorem setBit (h : FaultKeeps b s t) (hlo : f.lo < 32) (hw : FaultWord b (f.off + d)) (i : Nat) (x : Bool) :
    FaultKeeps b s (t.setBit f d i x) := by
  rcases t.setBit_eq f d i x with e | ⟨v, e⟩ <;> rw [e]
  · exact h
  · exact h.p hlo hw v

theorem ite {c : Prop} [Decidable c] (ht : FaultKeeps b s t) (hu : FaultKeeps b s u) :
    FaultKeeps b s (if c then t else u) := by
  split
  · exact ht
  · exact hu

theorem foldl {β : Type} {g : State → β → State} {l : List β} (hg : ∀ t, ∀ x ∈ l, FaultKeeps b t (g t x)) (s : State) :
    FaultKeeps b s (l.foldl g s) :=
  List.foldlRecOn (motive := FaultKeeps b s) l g (refl s) fun t ht x hx => ht.trans (hg t x hx)

end FaultKeeps

section
variable (b : FBlk) (s : State)

theorem State.hostDeliver_faultKeeps (src : Nat) : FaultKeeps b s (s.hostDeliver src) := by
  have hv := s.g_lt MST_SRC_CFG_HOST_VEC (dSrc src)
  have hw : FaultWord b (HST_MSIX_PBA_PEND.off + 4 * (s.g MST_SRC_CFG_HOST_VEC (dSrc src) / 32)) := by
    simp only [MST_SRC_CFG_HOST_VEC] at hv
    simp only [FaultWord, HST_MSIX_PBA_PEND, MST_SRC_CFG_HOST_VEC]
    omega
  exact .ite (.ite ((FaultKeeps.refl s).setBit (by decide) hw _ _) (.of_same rfl rfl)) (.refl s)

theorem State.eventRelease_faultKeeps {q e : Nat} (hq : q < 6) (he : e < 8) : FaultKeeps b s (s.eventRelease q e) := by
  refine .ite (.ite ((FaultKeeps.refl s).p (by decide) ?_ _) ⟨.of_regs rfl, fun q' => ?_⟩) (.refl s)
  · simp only [FaultWord, BRN_EVT_STATS_LOST, dEvt]
    omega
  · unfold State.quay State.setQuay
    rw [AMap.get_set]
    split
    · next h => rw [← h]; rfl
    · rfl

theorem State.releaseEvents_faultKeeps (src : Nat) : FaultKeeps b s (s.releaseEvents src) :=
  FaultKeeps.foldl (fun t i hi => .ite (t.eventRelease_faultKeeps b (by have := List.mem_range.1 hi; omega)
    (Nat.mod_lt _ (by decide))) (.refl t)) s

theorem State.faultLevel_faultKeeps : FaultKeeps b s (s.faultLevel b) := by
  have h (v : Nat) : FaultKeeps b s (s.p MST_SRC_STATE_LEVEL (dSrc b.src) v) :=
    (FaultKeeps.refl s).p (by decide) (.inr (.inl rfl)) v
  exact .ite (.refl s) (.ite (((h _).trans (State.hostDeliver_faultKeeps b _ _)).trans
    (State.releaseEvents_faultKeeps b _ _)) (h _))

theorem State.snapFire_faultKeeps (fires : Nat → Bool) (arg : Nat) : FaultKeeps b s (s.snapFire fires arg) := by
  have hmissed (t : State) {d : Nat} (hd : d ∈ List.range 16) : FaultKeeps b t (t.inc LOG_SNAP_STATUS_MISSED (0x100 * d)) := by
    have hd := List.mem_range.1 hd
    refine (FaultKeeps.refl t).p (by decide) ?_ _
    simp only [FaultWord, LOG_SNAP_STATUS_MISSED]
    omega
  refine .ite (FaultKeeps.foldl (fun t d hd => ?_) s) (.refl s)
  dsimp only
  split
  · exact .ite (hmissed t hd) (.of_same rfl rfl)
  · exact .refl t

theorem State.capture1_faultKeeps (fbit : Nat) (acc : Option Access) (detail : Nat) :
    FaultKeeps b s (s.capture1 b fbit acc detail) := by
  have hbit : FaultKeeps b s (((s.hw (fsValid b.F) 0 1).p (fsBit b.F) 0 fbit).p (fsDetail b.F) 0 detail) :=
    (((FaultKeeps.refl s).hw_set (by simp [fsValid]) _).p_set (by simp [fsBit]) _).p_set (by simp [fsDetail]) _
  have hacc {t : State} (h : FaultKeeps b s t) (x m k lo hi : Nat) : FaultKeeps b s
      (((((t.p (fsHasAccess b.F) 0 x).p (fsMaster b.F) 0 m).p (fsAccess b.F) 0 k).p (fsAddrLo b.F) 0 lo).p
        (fsAddrHi b.F) 0 hi) :=
    ((((h.p_set (by simp [fsHasAccess]) _).p_set (by simp [fsMaster]) _).p_set (by simp [fsAccess]) _).p_set
      (by simp [fsAddrLo]) _).p_set (by simp [fsAddrHi]) _
  have htime {t : State} (h : FaultKeeps b s t) (ns : Nat) : FaultKeeps b s (t.putTime (fsTimeNs b.F) 0 ns) :=
    ((h.p_set (by simp [fsTimeNs]) _).p_set (by simp [timeLo, fsTimeNs, Nat.add_assoc]) _).p_set
      (by simp [timeHi, fsTimeNs, Nat.add_assoc]) _
  refine .ite (.refl s) (htime ?_ _)
  split
  · exact hacc hbit _ _ _ _ _
  · exact hacc hbit _ _ _ _ _

theorem State.raise_faultKeeps (fbit : Nat) (acc : Option Access) (detail : Nat) :
    FaultKeeps b s (s.raise b fbit acc detail) := by
  have hset : FaultKeeps b s ((s.hw (fsStatus b.F b.width) 0 (2 ^ fbit)).incSat (fsCount b.F) 0) :=
    ((FaultKeeps.refl s).hw_set (by simp [fsStatus]) _).p_set (by simp [fsCount]) _
  have hlevel := (hset.trans (State.capture1_faultKeeps b _ fbit acc detail)).trans (State.faultLevel_faultKeeps b _)
  unfold State.raise
  extract_lets _ _ fired
  have hfired : FaultKeeps b s fired := .ite (hlevel.trans (State.snapFire_faultKeeps b _ _ _)) hlevel
  exact .ite (hfired.trans (.of_same rfl rfl)) hfired

/-- A fault bit that stands is still set when another fault of the block is raised. -/
theorem State.raise_testBit_of_set {i : Nat} (fbit : Nat) (acc : Option Access) (detail : Nat)
    (h : (s.faultStatus b).testBit i = true) : ((s.raise b fbit acc detail).faultStatus b).testBit i = true := by
  have hlt : s.faultStatus b < 2 ^ (fsStatus b.F b.width).w := s.g_lt _ _
  rw [s.raise_faultStatus fun k hk _ => by omega]
  show ((s.hw _ 0 _).g _ 0).testBit i = true
  rw [State.g_hw, Nat.testBit_mod_two_pow, Nat.testBit_or]
  have hi : i < (fsStatus b.F b.width).w := by
    by_contra hge
    rw [Nat.testBit_lt_two_pow (hlt.trans_le (Nat.pow_le_pow_right (by decide) (not_lt.1 hge)))] at h
    cases h
  simp only [hi, decide_true, Bool.true_and]
  rw [show s.g _ 0 = s.faultStatus b from rfl, h, Bool.true_or]

end

/-- No word of the Graver but those of its fault set, nor any from 0x1100000 on, is written by a raised Graver fault. -/
theorem FaultWord.not_grv {x : Nat} (h : x < 0x200000 ∨ (0x260000 ≤ x ∧ x < 0x400010) ∨ (0x400038 ≤ x ∧ x < 0xC90000) ∨
    0x1100000 ≤ x) : ¬ FaultWord .grv x := by
  simp only [FaultWord, FBlk.F, GRV_FS, FBlk.src, MST_SRC_STATE_LEVEL, dSrc]
  omega

/-! ## What a context's release reads, and what another's release leaves of it (R168, R173, R188) -/

@[simp] theorem State.gctx_setGctx_same (s : State) (c : Nat) (x : GrvCtx) : (s.setGctx c x).gctx c = x :=
  AMap.get_set_same ..

theorem State.gctx_setGctx_ne (s : State) {c k : Nat} (h : c ≠ k) (x : GrvCtx) : (s.setGctx c x).gctx k = s.gctx k :=
  AMap.get_set_ne _ _ _ _ _ _ h

/-- A context is read from the Graver's part alone, which nothing that `bare` drops belongs to. -/
theorem State.gctx_of_bare {s t : State} (h : t.bare = s.bare) (c : Nat) : t.gctx c = s.gctx c :=
  State.bare_congr (State.gctx · c) (fun _ => rfl) h

/-- The words that the release of context `k` reads or counts in: the mode, the Graver's ENABLE, groups, tables and the
context's own, and from 0x1100100 on those that the reading of a port needs. -/
def InputWord (k x : Nat) : Prop :=
  x = SYS_MODE_MODE.off ∨ x = GRV_CTRL_ENABLE.off ∨ (0x400100 ≤ x ∧ x < 0x410000) ∨
    (0x410000 + dCtx k ≤ x ∧ x < 0x410100 + dCtx k) ∨ 0x1100100 ≤ x

/-- `t` shows the release of context `k` what `s` shows it, and every fault bit of the Graver that stands in `s`. -/
structure Beside (k : Nat) (s t : State) : Prop where
  words : SameWords (InputWord k) s t
  overlay : ∀ q, (t.quay q).overlay = (s.quay q).overlay
  ctx : t.gctx k = s.gctx k
  mem : t.mem = s.mem
  eccBad : t.eccBad = s.eccBad
  tide : t.tide = s.tide
  faults : ∀ i, (s.faultStatus .grv).testBit i = true → (t.faultStatus .grv).testBit i = true

namespace Beside
variable {k : Nat} {s t u : State}

theorem refl (s : State) : Beside k s s := ⟨.refl s, fun _ => rfl, rfl, rfl, rfl, rfl, fun _ h => h⟩

theorem trans (h : Beside k s t) (h' : Beside k t u) : Beside k s u where
  words := h.words.trans h'.words
  overlay q := (h'.overlay q).trans (h.overlay q)
  ctx := h'.ctx.trans h.ctx
  mem := h'.mem.trans h.mem
  eccBad := h'.eccBad.trans h.eccBad
  tide := h'.tide.trans h.tide
  faults i hi := h'.faults i (h.faults i hi)

/-- A register of another context. -/
theorem p_ctx (s : State) {m : Nat} (hm : m < 128) (h : m ≠ k) {f : Fld} {j : Nat}
    (hf : f.lo < 32 ∧ 0x410000 ≤ f.off + j ∧ f.off + j < 0x410100) (v : Nat) : Beside k s (s.p f (dCtx m + j) v) where
  words := by
    refine (SameWords.refl s).p hf.1 ?_ v
    simp only [InputWord, SYS_MODE_MODE, GRV_CTRL_ENABLE, dCtx]
    omega
  overlay _ := rfl
  ctx := rfl
  mem := rfl
  eccBad := rfl
  tide := rfl
  faults i hi := by
    rwa [s.p_faultStatus hf.1]
    simp only [FBlk.F, GRV_FS]
    omega

theorem setGctx (s : State) {m : Nat} (h : m ≠ k) (x : GrvCtx) : Beside k s (s.setGctx m x) :=
  ⟨.of_regs rfl, fun _ => rfl, s.gctx_setGctx_ne h x, rfl, rfl, rfl, fun _ hi => hi⟩

theorem takeInstant (s : State) (id : Nat) : Beside k s (s.takeInstant id) :=
  ⟨.of_regs rfl, fun _ => rfl, rfl, rfl, rfl, rfl, fun _ hi => hi⟩

theorem raise (s : State) (hk : k < 128) (fbit : Nat) (acc : Option Access) (detail : Nat) :
    Beside k s (s.raise .grv fbit acc detail) where
  words := (s.raise_faultKeeps .grv fbit acc detail).words.mono fun x hx => FaultWord.not_grv (by
    simp only [InputWord, SYS_MODE_MODE, GRV_CTRL_ENABLE, dCtx] at hx
    omega)
  overlay := (s.raise_faultKeeps .grv fbit acc detail).overlay
  ctx := State.gctx_of_bare (s.raise_bare ..) k
  mem := s.raise_mem ..
  eccBad := State.bare_congr State.eccBad (fun _ => rfl) (s.raise_bare ..)
  tide := s.raise_tide ..
  faults _ hi := s.raise_testBit_of_set .grv fbit acc detail hi

theorem changeForm (s : State) {m : Nat} (hm : m < 128) (h : m ≠ k) (old new : Nat) :
    Beside k s (s.changeForm m old new) := by
  have hist (t : State) {j : Nat} (hj : j < 8) (v : Nat) : Beside k t (t.p GRV_CTX_HIST_MANTISSA (dHist m j) v) :=
    p_ctx t hm h (f := GRV_CTX_HIST_MANTISSA) (by simp only [GRV_CTX_HIST_MANTISSA]; omega) v
  unfold State.changeForm
  split
  · exact refl s
  · split
    · exact (hist s (by decide) _).trans (hist _ (by decide) _)
    · exact (hist s (by decide) _).trans (hist _ (by decide) _)

/-! What the release reads is the same. -/

theorem g (h : Beside k s t) (f : Fld) {d : Nat} (hlo : f.lo < 32) (hd : InputWord k (f.off + d)) : t.g f d = s.g f d :=
  h.words.g f d hlo hd

/-- A register of the context. -/
theorem g_ctx (h : Beside k s t) {f : Fld} (hf : f.lo < 32 ∧ 0x410000 ≤ f.off ∧ f.off < 0x410100) :
    t.g f (dCtx k) = s.g f (dCtx k) := by
  refine h.g f hf.1 ?_
  simp only [InputWord, SYS_MODE_MODE, GRV_CTRL_ENABLE]
  omega

theorem mode (h : Beside k s t) : t.mode = s.mode := h.g SYS_MODE_MODE (by decide) (.inl rfl)

theorem eccUncorr (h : Beside k s t) (a n : Nat) : t.eccUncorr a n = s.eccUncorr a n := by
  have hddr : t.on MEM_DDR_CFG_DDR5 0 = s.on MEM_DDR_CFG_DDR5 0 :=
    h.words.on (by decide) (by simp [InputWord, MEM_DDR_CFG_DDR5])
  have hmeets : t.eccMeets = s.eccMeets := by
    funext a n w
    unfold State.eccMeets State.eccWord
    rw [hddr]
  unfold State.eccUncorr
  rw [h.eccBad, hmeets]

theorem portBad (h : Beside k s t) : t.portBad = s.portBad := by
  have hgate : t.g PWR_GATE_STATUS_GATED 0 = s.g PWR_GATE_STATUS_GATED 0 :=
    h.g _ (by decide) (by simp [InputWord, PWR_GATE_STATUS_GATED])
  funext w
  simp only [State.portBad, State.portDead, State.gated, hgate, h.eccUncorr]

theorem lrbs (h : Beside k s t) (q n : Nat) : ∀ a, t.lrbs q a n = s.lrbs q a n := by
  induction n with
  | zero => exact fun _ => rfl
  | succ n ih =>
    intro a
    simp only [State.lrbs, State.lrb, ih, h.overlay, State.rb_congr h.mem]

theorem readPort (h : Beside k s t) (w : Nat) : t.readPort w = s.readPort w := by
  have hpos (d : Nat) : t.g PIO_ENC_POS_COUNT d = s.g PIO_ENC_POS_COUNT d :=
    h.g _ (by decide) (by simp only [InputWord, PIO_ENC_POS_COUNT]; omega)
  simp only [State.readPort, State.gs, h.lrbs, hpos]

theorem inputPorts (h : Beside k s t) : t.inputPorts k = s.inputPorts k := by
  unfold State.inputPorts
  rw [h.g_ctx (by decide), h.g_ctx (by decide), h.g_ctx (by decide)]

theorem grvCfg (h : Beside k s t) : t.grvCfg k = s.grvCfg k := by
  have hgroup := s.g_lt GRV_CTX_CFG_GROUP (dCtx k)
  have hgrp : t.g GRV_GRP_OUT_PORT (dGrp (s.g GRV_CTX_CFG_GROUP (dCtx k) - 1)) =
      s.g GRV_GRP_OUT_PORT (dGrp (s.g GRV_CTX_CFG_GROUP (dCtx k) - 1)) := by
    refine h.g _ (by decide) ?_
    simp only [GRV_CTX_CFG_GROUP] at hgroup
    simp only [InputWord, GRV_GRP_OUT_PORT, GRV_CTX_CFG_GROUP, dGrp]
    omega
  simp only [State.grvCfg, State.on, State.gs, h.g_ctx (f := GRV_CTX_CFG_FORM) (by decide),
    h.g_ctx (f := GRV_CTX_CFG_GROUP) (by decide), h.g_ctx (f := GRV_CTX_CFG_FF_ON) (by decide),
    h.g_ctx (f := GRV_CTX_CFG_FF_TABLE) (by decide), h.g_ctx (f := GRV_CTX_CFG_FF_SIGN) (by decide),
    h.g_ctx (f := GRV_CTX_CFG_FF_WRAP) (by decide), h.g_ctx (f := GRV_CTX_CFG_EI) (by decide),
    h.g_ctx (f := GRV_CTX_CFG_EX) (by decide), h.g_ctx (f := GRV_CTX_OUT_PORT) (by decide), hgrp]

end Beside

/-! ## The cases of a release (R168, R170, R173, R196) -/

/-- Whether a context takes releases: the Graver and the context are enabled, outside PROVISION. -/
def State.ctxActs (s : State) (c : Nat) : Bool := s.on GRV_CTRL_ENABLE && s.ctxOn c && s.mode != PROVISION

/-- A context with the settings and inputs of this instant. -/
def State.ctxTaken (s : State) (c : Nat) : GrvCtx :=
  let meas := s.readPort (s.g GRV_CTX_MEAS_PORT (dCtx c))
  let sp := s.g GRV_CTX_SP_PORT (dCtx c)
  let pos := s.g GRV_CTX_FFPOS_PORT (dCtx c)
  { s.gctx c with
    phase := .released, relAt := s.tide, mode := s.mode, cfg := s.grvCfg c, sp := if portK sp = 0 then 0 else s.readPort sp,
    spLive := portK sp == 0, meas := meas, pos := if portK pos = 0 then meas else s.readPort pos, form := (s.grvCfg c).form }

section
variable {s : State} {c : Nat}

theorem State.ctxRelease_of_off (h : s.ctxActs c = false) : s.ctxRelease c = s := if_neg (ne_true_of_eq_false h)

theorem State.ctxRelease_of_running (h : s.ctxActs c = true) (hp : (s.gctx c).phase ≠ .none) :
    s.ctxRelease c = (s.incSat GRV_CTX_OVERRUNS_COUNT (dCtx c)).raise .grv GRV_SAMPLE_OVERRUN none c :=
  (if_pos h).trans (if_pos hp)

theorem State.ctxRelease_of_bad (h : s.ctxActs c = true) (hp : (s.gctx c).phase = .none) {w : Nat}
    (hw : (s.inputPorts c).find? s.portBad = some w) :
    s.ctxRelease c = s.raise .grv GRV_INPUT_ERR (some (grvAccess w 1)) c := by
  refine (if_pos h).trans ((if_neg (not_not_intro hp)).trans ?_)
  dsimp only
  rw [hw]

theorem State.ctxRelease_of_good (h : s.ctxActs c = true) (hp : (s.gctx c).phase = .none)
    (hw : (s.inputPorts c).find? s.portBad = none) :
    s.ctxRelease c = (s.changeForm c (s.gctx c).form (s.grvCfg c).form).setGctx c (s.ctxTaken c) := by
  refine (if_pos h).trans ((if_neg (not_not_intro hp)).trans ?_)
  dsimp only
  rw [hw]
  rfl

theorem State.changeForm_bare (s : State) (c old new : Nat) : (s.changeForm c old new).bare = s.bare := by
  unfold State.changeForm
  exact ite_bare rfl (ite_bare rfl rfl)

theorem State.ctxRelease_cores (s : State) (c : Nat) : (s.ctxRelease c).cores = s.cores := by
  cases ha : s.ctxActs c
  · rw [State.ctxRelease_of_off ha]
  · by_cases hp : (s.gctx c).phase = .none
    · cases hw : (s.inputPorts c).find? s.portBad
      · rw [State.ctxRelease_of_good ha hp hw]
        exact State.bare_cores (t := s.changeForm c _ _) (s.changeForm_bare ..)
      · rw [State.ctxRelease_of_bad ha hp hw, State.raise_cores]
    · rw [State.ctxRelease_of_running ha hp, State.raise_cores, State.incSat_cores]

/-- The release of one context leaves another as it was. -/
theorem Beside.ctxRelease {k m : Nat} (hk : k < 128) (hm : m < 128) (h : m ≠ k) (s : State) :
    Beside k s (s.ctxRelease m) := by
  cases ha : s.ctxActs m
  · rw [State.ctxRelease_of_off ha]
    exact .refl s
  · by_cases hp : (s.gctx m).phase = .none
    · cases hw : (s.inputPorts m).find? s.portBad
      · rw [State.ctxRelease_of_good ha hp hw]
        exact (Beside.changeForm s hm h _ _).trans (.setGctx _ h _)
      · rw [State.ctxRelease_of_bad ha hp hw]
        exact .raise s hk _ _ _
    · rw [State.ctxRelease_of_running ha hp]
      exact (Beside.p_ctx s hm h (f := GRV_CTX_OVERRUNS_COUNT) (j := 0) (by decide) _).trans (.raise _ hk _ _ _)

end

/-! ## A context among those released with it (R188) -/

/-- The contexts of a list are released in their order, each at an instant of its own. -/
def State.releaseAll (s : State) (l : List Nat) : State := l.foldl (fun s m => (s.takeInstant (64 + m)).ctxRelease m) s

section
variable (s : State) (l : List Nat)

theorem State.releaseAll_mem : (s.releaseAll l).mem = s.mem :=
  foldl_keep _ State.mem (fun s m => (s.takeInstant _).ctxRelease_mem m) l s

theorem State.releaseAll_cores : (s.releaseAll l).cores = s.cores :=
  foldl_keep _ State.cores (fun s m => (s.takeInstant _).ctxRelease_cores m) l s

variable {l} {k : Nat}

theorem Beside.releaseAll (hk : k < 128) (hl : ∀ m ∈ l, m < 128) (h : k ∉ l) : Beside k s (s.releaseAll l) :=
  List.foldlRecOn (motive := Beside k s) l _ (.refl s) fun _ ht m hm =>
    (ht.trans (.takeInstant _ _)).trans (.ctxRelease hk (hl m hm) (fun e => h (e ▸ hm)) _)

/-- Around its own release a context stays as it is. -/
theorem State.releaseAll_split (hl : ∀ m ∈ l, m < 128) (hd : l.Nodup) (h : k ∈ l) :
    ∃ u, Beside k s u ∧ Beside k (u.ctxRelease k) (s.releaseAll l) := by
  obtain ⟨before, after, rfl⟩ := List.append_of_mem h
  obtain ⟨-, hd', hdisj⟩ := List.nodup_append.1 hd
  have hbefore : k ∉ before := fun hb => hdisj k hb k List.mem_cons_self rfl
  have hafter : k ∉ after := (List.nodup_cons.1 hd').1
  refine ⟨(s.releaseAll before).takeInstant (64 + k),
    (Beside.releaseAll s (hl k h) (fun m hm => hl m (by simp [hm])) hbefore).trans (.takeInstant _ _), ?_⟩
  unfold State.releaseAll
  rw [List.foldl_append, List.foldl_cons]
  exact Beside.releaseAll _ (hl k h) (fun m hm => hl m (by simp [hm])) hafter

theorem State.releasedWith_nodup (c : Nat) : (s.releasedWith c).Nodup := by
  unfold State.releasedWith
  dsimp only
  split
  · exact List.nodup_singleton c
  · exact List.nodup_range.filter _

theorem State.lt_of_releasedWith {c m : Nat} (hc : c < 128) (h : m ∈ s.releasedWith c) : m < 128 := by
  unfold State.releasedWith at h
  dsimp only at h
  split at h
  · rwa [List.mem_singleton.1 h]
  · exact List.mem_range.1 (List.mem_of_mem_filter h)

end

theorem exec_contextRelease (c : Fin 128) (s : State) : exec (.contextRelease c) s =
    .next (if s.atInstant (64 + c.val) (1000 * s.g GRV_CTX_PERIOD_VALUE (dCtx c.val))
      (1000 * s.g GRV_CTX_PHASE_VALUE (dCtx c.val)) then s.releaseAll (s.releasedWith c.val) else s) := rfl

/-! ### What a context's release makes of it -/

section
variable {k : Nat} {s u t : State} (hu : Beside k s u) (ht : Beside k (u.ctxRelease k) t)
include hu

theorem Beside.ctxActs : u.ctxActs k = s.ctxActs k := by
  have hon : u.on GRV_CTRL_ENABLE = s.on GRV_CTRL_ENABLE := hu.words.on (by decide) (.inr (.inl rfl))
  have hctx : u.ctxOn k = s.ctxOn k := by
    unfold State.ctxOn State.on
    rw [hu.g_ctx (by decide)]
  unfold State.ctxActs
  rw [hon, hctx, hu.mode]

include ht
variable (ha : s.ctxActs k = true)
include ha

/-- Its inputs can be read: it stands released with its settings and inputs. -/
theorem Beside.released (hp : (s.gctx k).phase = .none) (hw : (s.inputPorts k).find? s.portBad = none) :
    (t.gctx k).phase = .released ∧ (t.gctx k).relAt = s.tide ∧ (t.gctx k).mode = s.mode ∧ (t.gctx k).cfg = s.grvCfg k ∧
      (t.gctx k).spLive = (portK (s.g GRV_CTX_SP_PORT (dCtx k)) == 0) ∧
      (t.gctx k).meas = s.readPort (s.g GRV_CTX_MEAS_PORT (dCtx k)) := by
  have hgood := State.ctxRelease_of_good (s := u) (c := k) (by rwa [hu.ctxActs]) (by rwa [hu.ctx])
    (by rwa [hu.inputPorts, hu.portBad])
  have htaken : t.gctx k = u.ctxTaken k := by rw [ht.ctx, hgood, State.gctx_setGctx_same]
  rw [htaken]
  refine ⟨rfl, hu.tide, hu.mode, hu.grvCfg, ?_, ?_⟩
  · show (portK (u.g GRV_CTX_SP_PORT _) == 0) = _
    rw [hu.g_ctx (by decide)]
  · show u.readPort (u.g GRV_CTX_MEAS_PORT _) = _
    rw [hu.readPort, hu.g_ctx (by decide)]

/-- An input cannot be read: the sample is skipped with INPUT_ERR. -/
theorem Beside.skipped {w : Nat} (hp : (s.gctx k).phase = .none) (hw : (s.inputPorts k).find? s.portBad = some w) :
    t.gctx k = s.gctx k ∧ (t.faultStatus .grv).testBit GRV_INPUT_ERR = true := by
  have hbad := State.ctxRelease_of_bad (s := u) (c := k) (by rwa [hu.ctxActs]) (by rwa [hu.ctx])
    (by rwa [hu.inputPorts, hu.portBad])
  rw [hbad] at ht
  refine ⟨?_, ht.faults _ (u.raise_testBit .grv (by decide) _ _ _)⟩
  rw [ht.ctx, State.gctx_of_bare (u.raise_bare ..), hu.ctx]

/-- A sample is in progress: the release is dropped, and counted. -/
theorem Beside.overrun (hk : k < 128) (hp : (s.gctx k).phase ≠ .none) :
    t.g GRV_CTX_OVERRUNS_COUNT (dCtx k) =
        min (s.g GRV_CTX_OVERRUNS_COUNT (dCtx k) + 1) (2 ^ GRV_CTX_OVERRUNS_COUNT.w - 1) ∧
      (t.faultStatus .grv).testBit GRV_SAMPLE_OVERRUN = true ∧ t.gctx k = s.gctx k := by
  have hrun := State.ctxRelease_of_running (s := u) (c := k) (by rwa [hu.ctxActs]) (by rwa [hu.ctx])
  rw [hrun] at ht
  have hraise := Beside.raise (k := k) (u.incSat GRV_CTX_OVERRUNS_COUNT (dCtx k)) hk GRV_SAMPLE_OVERRUN none k
  refine ⟨?_, ht.faults _ (State.raise_testBit _ .grv (by decide) _ _ _), ?_⟩
  · rw [ht.g_ctx (by decide), hraise.g_ctx (by decide), State.g_incSat, hu.g_ctx (by decide)]
  · rw [ht.ctx, hraise.ctx]
    exact hu.ctx

end

/-! ## The sample (R178, R179, R196) -/

section
variable {s : State} {c : Nat}

theorem State.ps_bare (s : State) (f : Fld) (d : Nat) (v : Int) : (s.ps f d v).bare = s.bare := s.p_bare _ _ _

theorem State.skipSample_eq (s : State) (c : Nat) : s.skipSample c =
    (s.raise .grv GRV_ECC_UNCORR none c).setGctx c { s.gctx c with phase := .none } := by
  have hctx := State.gctx_of_bare (s.raise_bare .grv GRV_ECC_UNCORR none c false) c
  unfold State.skipSample
  dsimp only
  rw [hctx]

/-- A context's candidate lies between its limits. Beside the context only what `bare` drops changes. -/
theorem State.candidate_eq (h : s.gs GRV_CTX_OUT_MIN_VALUE (dCtx c) ≤ s.gs GRV_CTX_OUT_MAX_VALUE (dCtx c)) :
    ∃ (t : State) (x : GrvCtx), s.candidate c = t.setGctx c x ∧ t.bare = s.bare ∧ x.mode = (s.gctx c).mode ∧
      x.cfg = (s.gctx c).cfg ∧ x.reseed = false ∧ s.gs GRV_CTX_OUT_MIN_VALUE (dCtx c) ≤ x.cand ∧
      x.cand ≤ s.gs GRV_CTX_OUT_MAX_VALUE (dCtx c) := by
  unfold State.candidate
  extract_lets d x k seeded sp e ff lo hi off trk track hist ew m bs as_ acc u raw cand eo s1 s2 s3 live up down rise s4 s5
  have hclamp (v : Int) : lo ≤ min (max v lo) hi ∧ min (max v lo) hi ≤ hi :=
    ⟨le_min (le_max_right v lo) h, min_le_right _ _⟩
  have hcand : lo ≤ cand ∧ cand ≤ hi := by
    simp only [cand]
    split
    · exact hclamp raw
    · exact hclamp _
  have h1 : s1.bare = s.bare := (State.ps_bare _ _ _ _).trans (State.ps_bare _ _ _ _)
  have h2 : s2.bare = s.bare := ite_bare ((State.ps_bare _ _ _ _).trans h1) h1
  have h3 : s3.bare = s.bare := ite_bare ((State.hw_bare _ _ _ _).trans h2) h2
  have h4 : s4.bare = s.bare := ((State.p_bare _ _ _ _).trans (State.p_bare _ _ _ _)).trans h3
  have h5 : s5.bare = s.bare := ite_bare ((State.snapFire_bare _ _ _).trans h4) h4
  exact ⟨s5, _, rfl, h5, rfl, rfl, rfl, hcand.1, hcand.2⟩

/-- The sample ends with its value in APPLIED; SEEDED tells whether no RESEED has come since its start. -/
theorem State.finishSample_eq (s : State) (c : Nat) (a : Int) (won : Bool) : ∃ (t : State) (p : Int), t.bare = s.bare ∧
    t.on GRV_CTX_STATUS_SEEDED (dCtx c) = !(s.gctx c).reseed ∧
    s.finishSample c a won =
      (t.ps GRV_CTX_APPLIED_VALUE (dCtx c) a).setGctx c { s.gctx c with phase := .result, prevPos := p } := by
  unfold State.finishSample
  extract_lets d x k seeded v es us fe put s1 s2 s3 tracking s4 y
  have hput (t : State) (base : Nat) (l : List Dy) : (put t base l).bare = t.bare :=
    foldl_keep (fun t y => State.ps t _ _ _) State.bare (fun t _ => t.ps_bare _ _ _) _ t
  have h1 : s1.bare = s.bare := (State.ps_bare _ _ _ _).trans ((hput _ _ _).trans (hput _ _ _))
  have h2 : s2.bare = s.bare := ite_bare h1 ((State.ps_bare _ _ _ _).trans h1)
  have h3 : s3.bare = s.bare := ite_bare ((State.hw_bare _ _ _ _).trans h2) h2
  have h4 : s4.bare = s.bare :=
    (((State.p_bare _ _ _ _).trans (State.p_bare _ _ _ _)).trans (State.p_bare _ _ _ _)).trans h3
  have hy : y = x := State.gctx_of_bare h4 c
  refine ⟨s4, x.pos, h4, ?_, by rw [hy]⟩
  have hword : s4.g GRV_CTX_STATUS_SEEDED d = bit (!x.reseed) % 2 := by
    rw [State.g_p_other _ (by decide), State.g_p_other _ (by decide)]
    exact State.g_p_same _ _ _ _
  show (s4.g GRV_CTX_STATUS_SEEDED d == 1) = !x.reseed
  rw [hword]
  cases x.reseed <;> rfl

/-- A result joins those that wait, as the last. -/
def State.addWrite (s : State) (r : Bool × Nat × Int × Nat × Nat) : State :=
  { s with grv := { s.grv with writes := s.grv.writes ++ [r] } }

theorem State.gctx_addWrite (s : State) (r : Bool × Nat × Int × Nat × Nat) (c : Nat) :
    (s.addWrite r).gctx c = s.gctx c := rfl

theorem exec_sampleStart_of_bad (h : s.nextSample = some c) (hg : (s.gctx c).cfg.group = 0)
    (hb : s.sampleBad c = true) : exec .sampleStart s = .next (s.skipSample c) := by
  have hgroup : ((s.skipSample c).gctx c).cfg.group = 0 := by
    rw [State.skipSample_eq, State.gctx_setGctx_same]
    exact hg
  show execSampleStart s = _
  unfold execSampleStart
  rw [h]
  dsimp only
  rw [hb, if_pos rfl, if_neg (not_not_intro hgroup), if_pos rfl]

/-- The sample of a context in no group that meets an uncorrectable error. -/
theorem sampleStart_skips (h : s.nextSample = some c) (hg : (s.gctx c).cfg.group = 0)
    (hb : s.sampleBad c = true) :
    ∃ t, exec .sampleStart s = .next t ∧ (t.faultStatus .grv).testBit GRV_ECC_UNCORR = true ∧
      (t.gctx c).phase = .none ∧ t.grv.writes = s.grv.writes ∧ t.mem = s.mem ∧ t.cores = s.cores := by
  refine ⟨_, exec_sampleStart_of_bad h hg hb, ?_⟩
  rw [State.skipSample_eq]
  refine ⟨s.raise_testBit .grv (by decide) _ _ _, by rw [State.gctx_setGctx_same], ?_, s.raise_mem .., s.raise_cores ..⟩
  exact State.bare_congr (t := s.raise ..) (·.grv.writes) (fun _ => rfl) (s.raise_bare ..)

/-- The sample of a context in no group that meets no error and whose limits are in order. -/
theorem sampleStart_applies (h : s.nextSample = some c) (hg : (s.gctx c).cfg.group = 0) (hb : s.sampleBad c = false)
    (hlim : s.gs GRV_CTX_OUT_MIN_VALUE (dCtx c) ≤ s.gs GRV_CTX_OUT_MAX_VALUE (dCtx c)) :
    ∃ t a, exec .sampleStart s = .next t ∧ s.gs GRV_CTX_OUT_MIN_VALUE (dCtx c) ≤ a ∧
      a ≤ s.gs GRV_CTX_OUT_MAX_VALUE (dCtx c) ∧
      t.g GRV_CTX_APPLIED_VALUE (dCtx c) = ofSigned GRV_CTX_APPLIED_VALUE.w a % 2 ^ GRV_CTX_APPLIED_VALUE.w ∧
      t.on GRV_CTX_STATUS_SEEDED (dCtx c) = true ∧ (t.gctx c).phase = .result ∧
      t.grv.writes = s.grv.writes ++ [(false, c, a, (s.gctx c).mode, (s.gctx c).cfg.out)] ∧ t.mem = s.mem ∧
      t.cores = s.cores := by
  obtain ⟨t, x, hcand, ht, hmode, hcfg, hreseed, hlo, hhi⟩ := State.candidate_eq hlim
  have hx : (s.candidate c).gctx c = x := by rw [hcand, State.gctx_setGctx_same]
  obtain ⟨u, p, hu, hseeded, hfin⟩ := (s.candidate c).finishSample_eq c x.cand false
  have hexec : exec .sampleStart s =
      .next (((s.candidate c).finishSample c x.cand false).addWrite (false, c, x.cand, x.mode, x.cfg.out)) := by
    show execSampleStart s = _
    unfold execSampleStart
    rw [h]
    dsimp only
    rw [hb, if_neg Bool.false_ne_true, hx, hcfg, if_neg (not_not_intro hg), if_neg Bool.false_ne_true]
    rfl
  have hwrites : u.grv.writes = s.grv.writes := by
    rw [State.bare_congr (·.grv.writes) (fun _ => rfl) hu, hcand]
    exact State.bare_congr (t := t) (·.grv.writes) (fun _ => rfl) ht
  have hmem : u.mem = s.mem := by rw [State.bare_mem hu, State.candidate_mem]
  have hcores : u.cores = s.cores := by
    rw [State.bare_cores hu, hcand]
    exact State.bare_cores (t := t) ht
  rw [hfin, hx] at hexec
  rw [hx, hreseed] at hseeded
  refine ⟨_, x.cand, hexec, hlo, hhi, u.g_p_same _ _ _, ?_, ?_, ?_, hmem, hcores⟩
  · exact (u.on_p_ne _ _ _ _ _ (by simp only [Fld.key, GRV_CTX_APPLIED_VALUE, GRV_CTX_STATUS_SEEDED]; omega)).trans hseeded
  · rw [State.gctx_addWrite, State.gctx_setGctx_same]
  · rw [← hmode, ← hcfg, ← hwrites]
    rfl

end

/-! ## The output of a result (R185, R186, R196) -/

/-- A store to a quay's SRAMs writes the memories, the overlays and the pair's dirty lines alone (R411, R415). -/
theorem State.lwbs_eq (s : State) (q line key : Nat) (bs : List Byte) : s.lwbs q line key bs =
    { s with
      mem := (s.lwbs q line key bs).mem, eccOne := (s.lwbs q line key bs).eccOne,
      eccBad := (s.lwbs q line key bs).eccBad, pair := (s.lwbs q line key bs).pair,
      quays := (s.lwbs q line key bs).quays } := by
  unfold State.lwbs State.markDirty
  dsimp only
  rw [State.wbs_eq]
  split_ifs <;> rfl

/-- Outside STANDBY the bytes stand in the SRAM (R415). -/
theorem State.lwbs_mem_of_live {s : State} (h : s.mode ≠ STANDBY) (q line key : Nat) (bs : List Byte) :
    (s.lwbs q line key bs).mem = (s.wbs key bs).mem := by
  have hlive : ¬ s.shadow = true := by simpa [State.shadow] using h
  unfold State.lwbs
  rw [if_neg hlive, State.markDirty_mem, State.eccWritten_mem]

section
variable {s : State} {w : Nat} (a : Int) (m : Nat)

theorem State.writePort_of_word (h : portK w = 1) : s.writePort w a m =
    (false, s.lwbs (portUnit w) (portOff w / 64 * 64) (imageKey (portUnit w) (portOff w)) (leBytes 4 (ofSigned 32 a))) :=
  if_pos h

theorem State.writePort_of_none (h : portK w = 0) : s.writePort w a m = (false, s) := by
  unfold State.writePort
  simp [h]

variable (s w)

/-- The write of a port leaves the cores, the Graver and the words below those of PIO. -/
theorem State.writePort_keeps : (s.writePort w a m).2.cores = s.cores ∧ (s.writePort w a m).2.grv = s.grv ∧
    SameWords (· < 0x1200000) s (s.writePort w a m).2 := by
  have hstore (q line key : Nat) (bs : List Byte) : (s.lwbs q line key bs).cores = s.cores ∧
      (s.lwbs q line key bs).grv = s.grv ∧ SameWords (· < 0x1200000) s (s.lwbs q line key bs) := by
    rw [State.lwbs_eq]
    exact ⟨rfl, rfl, .of_regs rfl⟩
  unfold State.writePort
  dsimp only
  split_ifs
  · exact hstore _ _ _ _
  · exact hstore _ _ _ _
  · exact ⟨rfl, rfl, .refl s⟩
  · exact ⟨rfl, rfl, (SameWords.refl s).p (by decide) (by simp only [PIO_PWM_DUTY_DUTY]; omega) _⟩
  · exact ⟨rfl, rfl, .refl s⟩

end

/-- A result is written to its port; a dead port is the fault of the one that names it. -/
def State.drive (s : State) (port n : Nat) (a : Int) (mode : Nat) : Bool × State :=
  if s.portDead port then (false, s.raise .grv GRV_OUTPUT_ERR (some (grvAccess port 2)) n) else s.writePort port a mode

/-- A context's sample is complete. -/
def State.sampleDone (s : State) (sat : Bool) (c : Nat) : State :=
  let s := if sat then s.hw GRV_CTX_STATUS_SAT (dCtx c) 1 else s
  (s.inc GRV_CTX_SAMPLES_COUNT (dCtx c)).setGctx c { s.gctx c with phase := .none }

/-- The oldest result no longer waits. -/
def State.dropWrite (s : State) : State := { s with grv := { s.grv with writes := s.grv.writes.tail } }

theorem exec_sampleOutputWrite {s : State} {grp : Bool} {n : Nat} {a : Int} {mode port : Nat}
    {rest : List (Bool × Nat × Int × Nat × Nat)} (h : s.grv.writes = (grp, n, a, mode, port) :: rest) :
    exec .sampleOutputWrite s = .next ((if grp then s.dropWrite.groupIn (n + 1) .result else [n]).foldl
      (fun t c => t.sampleDone (s.dropWrite.drive port n a mode).1 c) (s.dropWrite.drive port n a mode).2) := by
  have hrest : s.dropWrite = { s with grv := { s.grv with writes := rest } } := by
    unfold State.dropWrite
    rw [h]
    rfl
  show execSampleOutputWrite s = _
  rw [hrest]
  unfold execSampleOutputWrite
  rw [h]
  rfl

section
variable (s : State)

theorem State.drive_of_dead {port : Nat} (h : s.portDead port = true) (n : Nat) (a : Int) (mode : Nat) :
    s.drive port n a mode = (false, s.raise .grv GRV_OUTPUT_ERR (some (grvAccess port 2)) n) := if_pos h

theorem State.drive_of_live {port : Nat} (h : s.portDead port = false) (n : Nat) (a : Int) (mode : Nat) :
    s.drive port n a mode = s.writePort port a mode := if_neg (by simp [h])

/-- Written or failed, an output leaves the cores, the Graver and the counts of samples. -/
theorem State.drive_keeps (port n : Nat) (a : Int) (mode : Nat) :
    (s.drive port n a mode).2.cores = s.cores ∧ (s.drive port n a mode).2.grv = s.grv ∧
      ∀ k < 128, (s.drive port n a mode).2.g GRV_CTX_SAMPLES_COUNT (dCtx k) = s.g GRV_CTX_SAMPLES_COUNT (dCtx k) := by
  cases h : s.portDead port
  · obtain ⟨hcores, hgrv, hwords⟩ := s.writePort_keeps port a mode
    rw [s.drive_of_live h]
    refine ⟨hcores, hgrv, fun k hk => hwords.g _ _ (by decide) ?_⟩
    simp only [GRV_CTX_SAMPLES_COUNT, dCtx]
    omega
  · rw [s.drive_of_dead h]
    exact ⟨s.raise_cores .., State.bare_congr State.grv (fun _ => rfl) (s.raise_bare ..),
      fun k hk => (Beside.raise s hk _ _ _).g_ctx (by decide)⟩

theorem State.g_setGctx (c : Nat) (x : GrvCtx) (f : Fld) (d : Nat) : (s.setGctx c x).g f d = s.g f d := rfl

variable (sat : Bool) (c : Nat)

theorem State.sampleDone_cores : (s.sampleDone sat c).cores = s.cores := by cases sat <;> rfl

theorem State.sampleDone_mem : (s.sampleDone sat c).mem = s.mem := by cases sat <;> rfl

theorem State.sampleDone_writes : (s.sampleDone sat c).grv.writes = s.grv.writes := by cases sat <;> rfl

theorem State.phase_sampleDone : ((s.sampleDone sat c).gctx c).phase = .none :=
  congrArg GrvCtx.phase (State.gctx_setGctx_same _ _ _)

theorem State.g_samples_sampleDone : (s.sampleDone sat c).g GRV_CTX_SAMPLES_COUNT (dCtx c) =
    (s.g GRV_CTX_SAMPLES_COUNT (dCtx c) + 1) % 2 ^ GRV_CTX_SAMPLES_COUNT.w := by
  unfold State.sampleDone
  dsimp only
  rw [State.g_setGctx, State.g_inc]
  cases sat
  · rfl
  · rw [if_pos rfl, State.g_hw_ne _ _ _ _ _ _ (by simp only [Fld.key, GRV_CTX_STATUS_SAT, GRV_CTX_SAMPLES_COUNT]; omega)]

theorem State.sampleDone_faultStatus : (s.sampleDone sat c).faultStatus .grv = s.faultStatus .grv := by
  have hcount (t : State) : (t.inc GRV_CTX_SAMPLES_COUNT (dCtx c)).faultStatus .grv = t.faultStatus .grv :=
    t.p_faultStatus (by decide) (by simp only [GRV_CTX_SAMPLES_COUNT, FBlk.F, GRV_FS]; omega) _
  refine (hcount _).trans ?_
  cases sat
  · rfl
  · exact s.hw_faultStatus (by decide) (by simp only [GRV_CTX_STATUS_SAT, FBlk.F, GRV_FS]; omega) _

end

/-- An image word of a live port holds exactly the value. -/
theorem State.drive_word {s : State} {w : Nat} (hk : portK w = 1) (hd : s.portDead w = false) (hm : s.mode ≠ STANDBY)
    (n : Nat) (a : Int) (mode : Nat) :
    (s.drive w n a mode).2.mem = (s.wle (imageKey (portUnit w) (portOff w)) 4 (ofSigned 32 a)).mem := by
  rw [s.drive_of_live hd, State.writePort_of_word a mode hk]
  exact State.lwbs_mem_of_live hm _ _ _ _

/-- The result of a single context is written, and its sample counted. -/
theorem State.drive_done (s : State) {k : Nat} (hk : k < 128) (a : Int) (m w : Nat) :
    let t := (s.dropWrite.drive w k a m).2.sampleDone (s.dropWrite.drive w k a m).1 k
    (t.gctx k).phase = .none ∧ t.g GRV_CTX_SAMPLES_COUNT (dCtx k) =
        (s.g GRV_CTX_SAMPLES_COUNT (dCtx k) + 1) % 2 ^ GRV_CTX_SAMPLES_COUNT.w ∧
      (portK w = 0 → t.mem = s.mem) ∧
      (s.portDead w = true → t.mem = s.mem ∧ (t.faultStatus .grv).testBit GRV_OUTPUT_ERR = true) ∧
      (portK w = 1 → s.portDead w = false → s.mode ≠ STANDBY →
        let key := imageKey (portUnit w) (portOff w)
        t.rle key 4 = ofSigned 32 a % 2 ^ 32 ∧ sameBytesBut key 4 s t) := by
  intro t
  obtain ⟨-, -, hsamples⟩ := s.dropWrite.drive_keeps w k a m
  have hmem : t.mem = (s.dropWrite.drive w k a m).2.mem := State.sampleDone_mem ..
  refine ⟨State.phase_sampleDone .., ?_, fun hw => ?_, fun hd => ⟨?_, ?_⟩, fun hw hd hm => ⟨?_, fun x hx => ?_⟩⟩
  · rw [State.g_samples_sampleDone, hsamples k hk]
    rfl
  · have hd : s.dropWrite.portDead w = false := by simp [State.portDead, hw]
    rw [hmem, State.drive_of_live _ hd, State.writePort_of_none a m hw]
    rfl
  · rw [hmem, State.drive_of_dead s.dropWrite hd, State.raise_mem]
    rfl
  · rw [State.sampleDone_faultStatus, State.drive_of_dead s.dropWrite hd]
    exact State.raise_testBit _ .grv (by decide) _ _ _
  · rw [State.rle, State.rbs_congr (hmem.trans (State.drive_word (s := s.dropWrite) hw hd hm k a m)), ← State.rle,
      State.rle_wle]
  · rw [State.rb_congr (hmem.trans (State.drive_word (s := s.dropWrite) hw hd hm k a m))]
    exact sameBytesBut_wle s.dropWrite _ 4 _ (length_leBytes _ _) x hx

/-! ## Live settings and tables (R179, R182, R192, R193) -/

section
variable {s : State} (hr : s.inReset = false)
include hr

theorem exec_coefSetSwitch (c : Fin 128) (b : Bool) : exec (.coefSetSwitch c b) s =
    .next ((s.p GRV_CTX_LIVE_ACTIVE_SET (dCtx c.val) (bit b)).answer true 0) :=
  congrArg Host.Outcome.next (State.command_of_inReset hr _)

theorem exec_reseed (c : Fin 128) : exec (.reseed c) s = .next ((s.reseed c.val).answer true 0) :=
  congrArg Host.Outcome.next (State.command_of_inReset hr _)

theorem exec_grvRebuild (n : Fin 16) : exec (.grvRebuild n) s = .next ((s.ffRebuild n.val).answer true 0) :=
  congrArg Host.Outcome.next (State.command_of_inReset hr _)

theorem exec_grvBankSwap (n : Fin 16) (b : Bool) :
    exec (.grvBankSwap n b) s = .next ((s.ffSwap n.val (bit b)).answer true 0) :=
  congrArg Host.Outcome.next (State.command_of_inReset hr _)

end

section
variable (s : State) (c : Nat)

theorem State.on_seeded_reseed : (s.reseed c).on GRV_CTX_STATUS_SEEDED (dCtx c) = false := by
  have h : (s.p GRV_CTX_STATUS_SEEDED (dCtx c) 0).on GRV_CTX_STATUS_SEEDED (dCtx c) = false := s.on_p_zero _ _
  unfold State.reseed
  dsimp only
  split
  · exact h
  · exact h

theorem State.reseed_cores : (s.reseed c).cores = s.cores := by
  unfold State.reseed
  dsimp only
  split <;> rfl

end

section
variable {s : State} {n : Nat}

theorem State.ffRebuild_of_off (h : s.on GRV_CTRL_ENABLE = false) :
    s.ffRebuild n = s.p GRV_FF_CTRL_REFUSAL (dTab n) 0x011 := if_pos h

theorem State.ffRebuild_of_refused (h : s.on GRV_CTRL_ENABLE = true)
    (hs : s.g GRV_FF_CTRL_SHADOW (dTab n) = ffREBUILDING ∨ s.g GRV_FF_SRC_ADDR (dTab n) % 64 ≠ 0 ∨
      inSram (s.g GRV_FF_SRC_ADDR (dTab n)) 4100 = false) :
    s.ffRebuild n = s.p GRV_FF_CTRL_REFUSAL (dTab n) 0x208 := (if_neg (by simp [h])).trans (if_pos hs)

/-- The source that the check passed is read from now on. -/
theorem State.ffRebuild_begins (h : s.on GRV_CTRL_ENABLE = true)
    (hs : s.g GRV_FF_CTRL_SHADOW (dTab n) ≠ ffREBUILDING) (ha : s.g GRV_FF_SRC_ADDR (dTab n) % 64 = 0)
    (hin : inSram (s.g GRV_FF_SRC_ADDR (dTab n)) 4100 = true) :
    (s.ffRebuild n).g GRV_FF_CTRL_SHADOW (dTab n) = ffREBUILDING ∧
      AMap.get 0 (s.ffRebuild n).grv.srcs n = s.g GRV_FF_SRC_ADDR (dTab n) := by
  have htaken : s.ffRebuild n =
      { s with grv := { s.grv with srcs := AMap.set 0 s.grv.srcs n (s.g GRV_FF_SRC_ADDR (dTab n)) } }.p
        GRV_FF_CTRL_SHADOW (dTab n) ffREBUILDING := (if_neg (by simp [h])).trans (if_neg (by simp [hs, ha, hin]))
  rw [htaken]
  exact ⟨State.g_p_same _ _ _ _, AMap.get_set_same _ _ _ _⟩

theorem State.ffSwap_of_notReady {b : Nat} (hb : s.g GRV_FF_CTRL_ACTIVE_BANK (dTab n) ≠ b)
    (hs : s.g GRV_FF_CTRL_SHADOW (dTab n) ≠ ffREADY) : s.ffSwap n b = s.p GRV_FF_CTRL_REFUSAL (dTab n) 0x207 :=
  (if_neg hb).trans (if_pos hs)

theorem State.ffSwap_of_ready {b : Nat} (hb : s.g GRV_FF_CTRL_ACTIVE_BANK (dTab n) ≠ b)
    (hs : s.g GRV_FF_CTRL_SHADOW (dTab n) = ffREADY) : s.ffSwap n b =
      (s.p GRV_FF_CTRL_ACTIVE_BANK (dTab n) b).p GRV_FF_CTRL_ACTIVE_EMPTY (dTab n)
        (bit (!s.grv.filled.contains (2 * n + b))) :=
  (if_neg hb).trans (if_neg (not_not_intro hs))

/-- The named bank is active, and empty where no rebuild has filled it. -/
theorem State.ffSwap_swaps {b : Bool} (hb : s.g GRV_FF_CTRL_ACTIVE_BANK (dTab n) ≠ bit b)
    (hs : s.g GRV_FF_CTRL_SHADOW (dTab n) = ffREADY) :
    (s.ffSwap n (bit b)).g GRV_FF_CTRL_ACTIVE_BANK (dTab n) = bit b ∧
      (s.ffSwap n (bit b)).on GRV_FF_CTRL_ACTIVE_EMPTY (dTab n) = !s.grv.filled.contains (2 * n + bit b) := by
  rw [State.ffSwap_of_ready hb hs]
  constructor
  · rw [State.g_p_other _ (by decide), State.g_p_same]
    cases b <;> rfl
  · unfold State.on
    rw [State.g_p_same]
    cases s.grv.filled.contains (2 * n + bit b) <;> rfl

end

/-! ### The end of a rebuild (R192, R196, R469) -/

/-- A read of bytes counts corrected errors in the DDR channels' registers alone. -/
theorem State.eccSeen_sameWords (s : State) (k n : Nat) : SameWords (· < 0x1100000) s (s.eccSeen k n) := by
  refine SameWords.trans (SameWords.foldl (fun t w => ?_) _ s) (.of_regs rfl)
  exact (SameWords.refl t).p (by decide) (by simp only [MEM_DDR_STATUS_CORR]; omega) _

section
variable {s : State} {n : Nat} {b : Bool}

theorem exec_grvRebuildEnd (n : Fin 16) (h : s.g GRV_FF_CTRL_SHADOW (dTab n.val) = ffREBUILDING) :
    exec (.grvRebuildEnd n b) s = .next (s.ffRebuildEnd n.val b) := congrArg Host.Outcome.next (if_pos h)

theorem State.length_rbs (s : State) (n : Nat) : ∀ a, (s.rbs a n).length = n := by
  induction n with
  | zero => exact fun _ => rfl
  | succ n ih => exact fun a => congrArg (· + 1) (ih (a + 1))

/-- The source has been read, with what its ECC words show. -/
def State.ffRead (s : State) (n : Nat) : State :=
  let src := AMap.get 0 s.grv.srcs n
  (if s.eccUncorr src 4100 then s.memUncorr src 27 else s).eccSeen src 4100

variable (s n) in
theorem State.ffRead_mem : (s.ffRead n).mem = s.mem := by
  unfold State.ffRead
  dsimp only
  rw [State.eccSeen_mem]
  split
  · exact s.memUncorr_mem _ _
  · rfl

theorem State.ffRebuildEnd_of_error (h : (b || s.eccUncorr (AMap.get 0 s.grv.srcs n) 4100) = true) :
    s.ffRebuildEnd n b = ((s.ffRead n).p GRV_FF_CTRL_SHADOW (dTab n) ffFAILED).raise .grv GRV_REBUILD_ERR
      (some ⟨AMap.get 0 s.grv.srcs n, 27, 1⟩) n := if_pos h

/-- The word after the entries is no exponent. -/
theorem State.ffRebuildEnd_of_badExp (he : s.eccUncorr (AMap.get 0 s.grv.srcs n) 4100 = false)
    (hl : 256 ≤ s.rle (AMap.get 0 s.grv.srcs n + 4096) 4) :
    s.ffRebuildEnd n false = (s.ffRead n).p GRV_FF_CTRL_SHADOW (dTab n) ffFAILED := by
  refine (if_neg (by simp [he])).trans (if_pos (show (s.ffRead n).rle _ 4 / 256 ≠ 0 from ?_))
  rw [State.rle, State.rbs_congr (s.ffRead_mem n), ← State.rle]
  omega

/-- Else the shadow bank takes the entries, and their exponent is noted. -/
theorem State.ffRebuildEnd_of_goodExp (hn : n < 16) (he : s.eccUncorr (AMap.get 0 s.grv.srcs n) 4100 = false)
    (hl : s.rle (AMap.get 0 s.grv.srcs n + 4096) 4 < 256) : ∃ (t : State) (e : Fld) (v : Nat),
    t.mem = ((s.ffRead n).wbs (ffAddr n (1 - s.g GRV_FF_CTRL_ACTIVE_BANK (dTab n)) 0)
      ((s.ffRead n).rbs (AMap.get 0 s.grv.srcs n) 4096)).mem ∧
    s.ffRebuildEnd n false = (t.p e (dTab n) v).p GRV_FF_CTRL_SHADOW (dTab n) ffREADY := by
  have hread : s.ffRead n = s.eccSeen (AMap.get 0 s.grv.srcs n) 4100 := by
    unfold State.ffRead
    dsimp only
    rw [he, if_neg Bool.false_ne_true]
  have hbank : s.g GRV_FF_CTRL_ACTIVE_BANK (dTab n) = (s.ffRead n).g GRV_FF_CTRL_ACTIVE_BANK (dTab n) := by
    rw [hread]
    refine ((s.eccSeen_sameWords _ _).g _ _ (by decide) ?_).symm
    simp only [GRV_FF_CTRL_ACTIVE_BANK, dTab]
    omega
  have hlast : ¬ (s.ffRead n).rle (AMap.get 0 s.grv.srcs n + 4096) 4 / 256 ≠ 0 := by
    rw [State.rle, State.rbs_congr (s.ffRead_mem n), ← State.rle]
    omega
  rw [hbank]
  unfold State.ffRebuildEnd
  extract_lets d src ecc r bank last written grv filled noted
  have hr : s.ffRead n = r := rfl
  have hsrc : AMap.get 0 s.grv.srcs n = src := rfl
  have hb : 1 - r.g GRV_FF_CTRL_ACTIVE_BANK (dTab n) = bank := rfl
  rw [hr, hsrc] at hlast ⊢
  rw [hb]
  have hwritten : written.mem = (r.wbs (ffAddr n bank 0) (r.rbs src 4096)).mem := State.eccWritten_mem _ _ _
  clear_value written
  refine ⟨filled, if bank = 0 then GRV_FF_EXP_EXP0 else GRV_FF_EXP_EXP1, last, hwritten, ?_⟩
  rw [if_neg (by simpa [ecc, src] using he), if_neg (show ¬ last / 256 ≠ 0 from hlast)]

/-- What the shadow bank then holds: the entries at the source, with no other byte changed. -/
theorem State.ffRebuildEnd_fills (hn : n < 16) (he : s.eccUncorr (AMap.get 0 s.grv.srcs n) 4100 = false)
    (hl : s.rle (AMap.get 0 s.grv.srcs n + 4096) 4 < 256) :
    let key := ffAddr n (1 - s.g GRV_FF_CTRL_ACTIVE_BANK (dTab n)) 0
    (s.ffRebuildEnd n false).g GRV_FF_CTRL_SHADOW (dTab n) = ffREADY ∧
      (s.ffRebuildEnd n false).rbs key 4096 = s.rbs (AMap.get 0 s.grv.srcs n) 4096 ∧
      sameBytesBut key 4096 s (s.ffRebuildEnd n false) := by
  intro key
  obtain ⟨t, e, v, ht, hend⟩ := State.ffRebuildEnd_of_goodExp hn he hl
  have hread := s.ffRead_mem n
  have hmem : (s.ffRebuildEnd n false).mem =
      ((s.ffRead n).wbs key ((s.ffRead n).rbs (AMap.get 0 s.grv.srcs n) 4096)).mem := by
    rw [hend, State.mem_p, State.mem_p, ht]
  have hsame := State.rbs_wbs_same ((s.ffRead n).rbs (AMap.get 0 s.grv.srcs n) 4096) (s.ffRead n) key
  have hbut := sameBytesBut_wbs (s.ffRead n) key ((s.ffRead n).rbs (AMap.get 0 s.grv.srcs n) 4096)
  rw [State.length_rbs] at hsame hbut
  refine ⟨?_, ?_, fun x hx => ?_⟩
  · rw [hend]
    exact State.g_p_same _ _ _ _
  · rw [State.rbs_congr hmem, hsame, State.rbs_congr hread]
  · rw [State.rb_congr hmem, hbut x hx, State.rb_congr hread]

/-- A read error, or a word that cannot be corrected: FAILED, with the fault. -/
theorem State.ffRebuildEnd_fails (hn : n < 16) (h : b = true ∨ s.eccUncorr (AMap.get 0 s.grv.srcs n) 4100 = true) :
    (s.ffRebuildEnd n b).g GRV_FF_CTRL_SHADOW (dTab n) = ffFAILED ∧
      ((s.ffRebuildEnd n b).faultStatus .grv).testBit GRV_REBUILD_ERR = true ∧ (s.ffRebuildEnd n b).mem = s.mem := by
  rw [State.ffRebuildEnd_of_error (by simpa using h)]
  refine ⟨?_, State.raise_testBit _ .grv (by decide) _ _ _, ?_⟩
  · refine ((State.raise_faultKeeps .grv _ _ _ _).words.g _ _ (by decide) (FaultWord.not_grv ?_)).trans
      (State.g_p_same _ _ _ _)
    simp only [GRV_FF_CTRL_SHADOW, dTab]
    omega
  · rw [State.raise_mem]
    exact s.ffRead_mem n

end

/-! ## The copy point (R411) -/

section
variable (s : State) (i : Nat)

theorem State.cutCopy_keeps : (s.cutCopy i).g PAIR_STREAM_SEQ_SEQ (dStream i) = s.g PAIR_STREAM_SEQ_SEQ (dStream i) ∧
    (s.cutCopy i).cores = s.cores := by
  have hseq (v : Nat) : (s.p PAIR_STREAM_STATUS_CHAIN (dStream i) v).g PAIR_STREAM_SEQ_SEQ (dStream i) =
      s.g PAIR_STREAM_SEQ_SEQ (dStream i) := s.g_p_other (by decide) _ _
  unfold State.cutCopy
  dsimp only
  split
  · exact ⟨rfl, rfl⟩
  · split
    · exact ⟨hseq 0, rfl⟩
    · exact ⟨hseq 0, rfl⟩

variable (recs : List (Nat × List Byte)) (gen digest : Nat) (lines : List Nat) (full : Bool) (sweep : Nat)

/-- A copy that begins takes the stream's next sequence number, and leaves the cores as they were. -/
theorem State.sendCopy_seq : (s.sendCopy i recs gen digest lines full sweep).g PAIR_STREAM_SEQ_SEQ (dStream i) =
      (s.g PAIR_STREAM_SEQ_SEQ (dStream i) + 1) % 2 ^ PAIR_STREAM_SEQ_SEQ.w ∧
    (s.sendCopy i recs gen digest lines full sweep).cores = s.cores := by
  unfold State.sendCopy
  extract_lets d s1 last msgs size chain start s2 s3 stream s4
  have h2 : s2.g PAIR_STREAM_SEQ_SEQ d = (s.g PAIR_STREAM_SEQ_SEQ d + 1) % 2 ^ PAIR_STREAM_SEQ_SEQ.w := by
    rw [State.g_p_other _ (by decide), State.g_p_other _ (by decide)]
    exact s.g_inc _ _
  have h3 : s3.g PAIR_STREAM_SEQ_SEQ d = s2.g PAIR_STREAM_SEQ_SEQ d ∧ s3.cores = s.cores := by
    simp only [s3]
    split
    · exact ⟨State.g_p_other _ (by decide) _ _, rfl⟩
    · exact ⟨rfl, rfl⟩
  have h4 : s4.regs = s3.regs := rfl
  exact ⟨(State.g_congr h4 _ _).trans (h3.1.trans h2), h3.2⟩

end

theorem exec_graverCopyPoint {s : State}
    (h : s.atCycle 251 (usCycles * s.g PAIR_COPY_CFG_GRV_PERIOD_US) = true) (hn : s.copyNow 6 = true) :
    exec .graverCopyPoint s =
      .next (((s.takeInstant 251).cutCopy 6).sendCopy 6 (s.takeInstant 251).gravLines 0 0 [] false 0) := by
  have hn' : (s.takeInstant 251).copyNow 6 = true := hn
  show execGraverCopyPoint s = _
  unfold execGraverCopyPoint State.gravCopy
  rw [if_pos h, if_pos hn']

/-! ## The statement -/

/-- Settles O42, from the cases of a context's release and what the others released with it leave of it, the candidate's
limits, what the output of a result writes, and the cases of the settings' and the tables' commands. -/
theorem graverCommands : Obligations.GraverCommands := by
  intro c n s hr d x td src from_ bank last due
  refine ⟨fun h => ?_, fun h => ?_, fun h hg hb => sampleStart_skips h hg hb,
    fun h hg hb hlim => sampleStart_applies h hg hb hlim, fun grp k a m w rest h => ?_, fun b => exec_coefSetSwitch hr c b,
    ?_, fun h => ?_, fun h hs => ?_, fun h hs ha hin => ?_, fun h => ⟨fun b hb => ?_, fun hl he => ?_, fun hl he => ?_⟩,
    fun b hb => ⟨fun hs => ?_, fun hs => ?_⟩, fun h hn => ?_⟩
  -- CONTEXT_RELEASE
  · rw [exec_contextRelease, if_neg h]
  · refine ⟨_, (exec_contextRelease c s).trans (by rw [if_pos h]), s.releaseAll_mem _, s.releaseAll_cores _, ?_⟩
    intro k hk hgrv hctx hmode
    have hlt (m : Nat) (hm : m ∈ s.releasedWith c.val) : m < 128 := s.lt_of_releasedWith c.isLt hm
    obtain ⟨u, hu, ht⟩ := s.releaseAll_split hlt (s.releasedWith_nodup _) hk
    have ha : s.ctxActs k = true := by simp [State.ctxActs, hgrv, hctx, hmode]
    exact ⟨fun hp hw => hu.released ht ha hp hw, fun w hp hw => hu.skipped ht ha hp hw,
      fun hp => hu.overrun ht ha (hlt k hk) hp⟩
  -- SAMPLE_OUTPUT_WRITE
  · obtain ⟨hcores, hgrv, -⟩ := s.dropWrite.drive_keeps w k a m
    refine ⟨_, exec_sampleOutputWrite h, ?_, ?_, ?_⟩
    · rw [foldl_keep _ (·.grv.writes) (fun t c => t.sampleDone_writes _ c), hgrv, State.dropWrite, h]
      rfl
    · rw [foldl_keep _ State.cores (fun t c => t.sampleDone_cores _ c), hcores]
      rfl
    · rintro rfl hk
      exact s.drive_done hk a m w
  -- RESEED
  · exact ⟨_, exec_reseed hr c, s.on_seeded_reseed _, s.reseed_mem _, s.reseed_cores _⟩
  -- GRV_REBUILD
  · rw [exec_grvRebuild hr, State.ffRebuild_of_off h]
  · rw [exec_grvRebuild hr, State.ffRebuild_of_refused h hs]
  · obtain ⟨hshadow, hsrc⟩ := State.ffRebuild_begins h hs ha hin
    exact ⟨_, exec_grvRebuild hr n, hshadow, hsrc, s.ffRebuild_mem _⟩
  -- GRV_REBUILD_END
  · exact ⟨_, exec_grvRebuildEnd n h, State.ffRebuildEnd_fails n.isLt hb⟩
  · refine ⟨_, exec_grvRebuildEnd n h, ?_⟩
    rw [State.ffRebuildEnd_of_badExp he hl]
    exact ⟨State.g_p_same _ _ _ _, s.ffRead_mem _⟩
  · exact ⟨_, exec_grvRebuildEnd n h, State.ffRebuildEnd_fills n.isLt he hl⟩
  -- GRV_BANK_SWAP
  · rw [exec_grvBankSwap hr, State.ffSwap_of_notReady hb hs]
  · obtain ⟨hbank, hempty⟩ := State.ffSwap_swaps hb hs
    exact ⟨_, exec_grvBankSwap hr n b, hbank, hempty, s.ffSwap_mem _ _⟩
  -- GRAVER_COPY_POINT
  · obtain ⟨hcut, hcores⟩ := (s.takeInstant 251).cutCopy_keeps 6
    obtain ⟨hseq, hsent⟩ := ((s.takeInstant 251).cutCopy 6).sendCopy_seq 6 (s.takeInstant 251).gravLines 0 0 [] false 0
    refine ⟨_, exec_graverCopyPoint h hn, ?_, by rw [State.sendCopy_mem, State.cutCopy_mem]; rfl, hsent.trans hcores⟩
    rw [hseq, hcut]
    rfl

end Sys2Proof.Machine

/-! # Proofs: the Drafting engine (O43)

What the operations around the engine leave of its jobs and of the registers that report them, what a submission and the
ends of a job do, and that an engaged engine's work leaves its job running or ended. -/

namespace Sys2Proof.Machine
open Sys2Proof.Safety

/-! ## The words that report a refusal, the posted records and the faults (R200, R225, R230) -/

/-- The words of DRF_LAST_REFUSAL, DRF_DONE and DRF_FAULT_STATUS. -/
def DrfWord (x : Nat) : Prop := x = DRF_LAST_REFUSAL_CODE.off ∨ x = DRF_DONE_RECORDS.off ∨ x = DRF_FS

theorem DrfWord.bounds {x : Nat} (h : DrfWord x) : 0x500014 ≤ x ∧ x ≤ 0x500040 := by
  simp only [DrfWord, DRF_LAST_REFUSAL_CODE, DRF_DONE_RECORDS, DRF_FS] at h
  omega

theorem DrfWord.not_of_range {x : Nat} (h : x < 0x500014 ∨ 0x500040 < x) : ¬ DrfWord x := fun hx => by
  have := hx.bounds
  omega

/-- A raised fault of another block, and what its raising fires, writes none of them. -/
theorem DrfWord.not_faultWord {x : Nat} (h : DrfWord x) : ¬ FaultWord .mem x := by
  have := h.bounds
  simp only [FaultWord, FBlk.F, MEM_FS, MST_SRC_STATE_LEVEL]
  omega

/-- `t` has the engine's jobs, the admissions and those words of `s`. -/
structure DrfKeeps (s t : State) : Prop where
  words : SameWords DrfWord s t
  drf : t.drf = s.drf
  adm : t.adm = s.adm

namespace DrfKeeps
variable {s t u : State}

theorem of_regs (hr : t.regs = s.regs) (hd : t.drf = s.drf) (ha : t.adm = s.adm) : DrfKeeps s t :=
  ⟨.of_regs hr, hd, ha⟩

theorem refl (s : State) : DrfKeeps s s := of_regs rfl rfl rfl

theorem trans (h : DrfKeeps s t) (h' : DrfKeeps t u) : DrfKeeps s u :=
  ⟨h.words.trans h'.words, h'.drf.trans h.drf, h'.adm.trans h.adm⟩

/-- An operation that writes registers, trace, quays, Logbook and reactions at most. -/
theorem of_bare (hw : SameWords DrfWord s t) (hb : t.bare = s.bare) : DrfKeeps s t :=
  ⟨hw, State.bare_congr State.drf (fun _ => rfl) hb, State.bare_adm hb⟩

theorem of_fault (h : FaultKeeps .mem s t) (hb : t.bare = s.bare) : DrfKeeps s t :=
  of_bare (h.words.mono fun _ hx => hx.not_faultWord) hb

theorem p (h : DrfKeeps s t) {f : Fld} {d : Nat} (hlo : f.lo < 32) (hw : ¬ DrfWord (f.off + d)) (v : Nat) :
    DrfKeeps s (t.p f d v) := ⟨h.words.p hlo hw v, h.drf, h.adm⟩

theorem ite {c : Prop} [Decidable c] (ht : DrfKeeps s t) (hu : DrfKeeps s u) : DrfKeeps s (if c then t else u) := by
  split
  · exact ht
  · exact hu

theorem g (h : DrfKeeps s t) {f : Fld} {d : Nat} (hlo : f.lo < 32) (hw : DrfWord (f.off + d)) : t.g f d = s.g f d :=
  h.words.g f d hlo hw

theorem faultStatus (h : DrfKeeps s t) : t.faultStatus .drf = s.faultStatus .drf :=
  h.g (f := fsStatus DRF_FS 4) (d := 0) (by decide) (.inr (.inr rfl))

end DrfKeeps

/-! ## What leaves the engine alone -/

section
variable (s : State)

theorem State.hostDeliver_drfKeeps (src : Nat) : DrfKeeps s (s.hostDeliver src) :=
  .of_fault (s.hostDeliver_faultKeeps .mem src) (s.hostDeliver_bare src)

theorem State.releaseEvents_drfKeeps (src : Nat) : DrfKeeps s (s.releaseEvents src) :=
  .of_fault (s.releaseEvents_faultKeeps .mem src) (s.releaseEvents_bare src)

theorem State.snapFire_drfKeeps (fires : Nat → Bool) (arg : Nat) : DrfKeeps s (s.snapFire fires arg) :=
  .of_fault (s.snapFire_faultKeeps .mem fires arg) (s.snapFire_bare fires arg)

/-- The STATE of a source is none of the words. -/
theorem DrfWord.not_source (src : Nat) : ¬ DrfWord (MST_SRC_STATE_LEVEL.off + dSrc src) :=
  DrfWord.not_of_range (.inr (by simp only [MST_SRC_STATE_LEVEL]; omega))

theorem State.fireEdge_drfKeeps (src : Nat) : DrfKeeps s (s.fireEdge src) :=
  (((DrfKeeps.refl s).p (f := MST_SRC_STATE_COUNT) (by decide) (DrfWord.not_source src) _).trans
    (State.hostDeliver_drfKeeps _ src)).trans (State.releaseEvents_drfKeeps _ src)

theorem State.setLevel_drfKeeps (src : Nat) (b : Bool) : DrfKeeps s (s.setLevel src b) :=
  have h (v : Nat) : DrfKeeps s (s.p MST_SRC_STATE_LEVEL (dSrc src) v) :=
    (DrfKeeps.refl s).p (by decide) (DrfWord.not_source src) v
  .ite (.refl s) (.ite (((h _).trans (State.hostDeliver_drfKeeps _ src)).trans (State.releaseEvents_drfKeeps _ src)) (h _))

theorem State.wake_drfKeeps (d : Nat) : DrfKeeps s (s.wake d) := by
  have hgate : SameWords DrfWord s (s.clearGateBit d) :=
    .ite ((SameWords.refl s).setBit (f := PWR_GATE_QUAY) (by decide) (DrfWord.not_of_range (by decide)) _ _)
      ((SameWords.refl s).p (f := PWR_GATE_DRAFT) (by decide) (DrfWord.not_of_range (by decide)) _)
  have hwake (t : State) : SameWords DrfWord t (t.inc PWR_GATE_STATUS_WAKES 0) :=
    (SameWords.refl t).p (f := PWR_GATE_STATUS_WAKES) (by decide) (DrfWord.not_of_range (by decide)) _
  exact ⟨.ite (hgate.trans ((hwake _).trans (.of_regs rfl))) hgate, by rw [State.wake_eq], by rw [State.wake_eq]⟩

theorem State.serviceWord_drfKeeps (a r word : Nat) : DrfKeeps s (s.serviceWord a r word) :=
  .ite (s.snapFire_drfKeeps _ _)
    ((DrfKeeps.refl s).p (f := BTH_COUNT_DISCARDED) (by decide) (DrfWord.not_of_range (by decide)) _)

theorem State.mooringSend_drfKeeps (type stream arg : Nat) (payload : List Byte) :
    DrfKeeps s (s.mooringSend type stream arg payload) := .ite (.of_regs rfl rfl rfl) (.of_regs rfl rfl rfl)

/-- A Berths word, whatever becomes of it (R371). -/
theorem State.post_drfKeeps (a r word : Nat) : DrfKeeps s (s.post a r word).2 := by
  unfold State.post
  split
  · exact (DrfKeeps.refl s).p (f := BTH_COUNT_FULL_REFUSED) (by decide) (DrfWord.not_of_range (by decide)) _
  extract_lets x chan woken
  split
  · exact .of_regs rfl rfl rfl
  split
  · exact s.serviceWord_drfKeeps _ _ _
  have hwoken : DrfKeeps s woken := by
    have hchan : DrfKeeps s chan := .of_regs rfl rfl rfl
    unfold woken
    split
    · exact .ite (hchan.trans (State.wake_drfKeeps _ _)) hchan
    · exact hchan
  split
  · exact hwoken.trans (State.mooringSend_drfKeeps _ _ _ _ _)
  · exact hwoken.trans (.ite (State.setLevel_drfKeeps _ _ _) (.refl _))

theorem State.drfNotify_drfKeeps (master type slot code tag : Nat) :
    DrfKeeps s (s.drfNotify master type slot code tag) := by
  have h := s.post_drfKeeps 28 master (type * 2 ^ 30 + slot * 2 ^ 24 + code * 2 ^ 12 + tag % 2 ^ 12)
  exact .ite (.ite h (h.p (f := DRF_COUNTS_NOTIFY_LOST) (by decide) (by simp [DrfWord, DRF_COUNTS_NOTIFY_LOST,
    DRF_LAST_REFUSAL_CODE, DRF_DONE_RECORDS, DRF_FS]) _)) (.refl s)

theorem State.wbsEcc_eq (k : Nat) (l : List Byte) : s.wbsEcc k l =
    { s with mem := (s.wbs k l).mem, eccOne := (s.wbsEcc k l).eccOne, eccBad := (s.wbsEcc k l).eccBad } := by
  unfold State.wbsEcc
  rw [State.wbs_eq]
  rfl

theorem State.wbsEcc_drfKeeps (k : Nat) (l : List Byte) : DrfKeeps s (s.wbsEcc k l) := by
  rw [State.wbsEcc_eq]
  exact .of_regs rfl rfl rfl

/-- A read's corrections write registers and the words to be corrected. -/
theorem State.eccSeen_keep {γ : Type} (g : State → γ) (hg : ∀ u : State, g u.bare = g u)
    (he : ∀ (u : State) l, g { u with eccOne := l } = g u) (k n : Nat) : g (s.eccSeen k n) = g s := by
  unfold State.eccSeen State.eccFix
  rw [he]
  exact State.bare_congr g hg (foldl_keep _ State.bare (fun t _ => t.incSat_bare _ _) _ s)

/-- The engine's read writes registers, trace, quays, Logbook, reactions and the words to be corrected at most. -/
theorem State.drfRead_keep {γ : Type} (g : State → γ) (hg : ∀ u : State, g u.bare = g u)
    (he : ∀ (u : State) l, g { u with eccOne := l } = g u) (l : List (Nat × Nat)) (slot : Nat) :
    g (s.drfRead l slot) = g s := by
  unfold State.drfRead
  split
  · dsimp only
    rw [State.bare_congr g hg (State.raise_bare ..)]
    split
    · exact State.bare_congr g hg (State.raise_bare ..)
    · rfl
  · exact foldl_keep _ g (fun t x => t.eccSeen_keep g hg he _ _) _ s

theorem State.drfRead_drf (l : List (Nat × Nat)) (slot : Nat) : (s.drfRead l slot).drf = s.drf :=
  s.drfRead_keep State.drf (fun _ => rfl) (fun _ _ => rfl) l slot
theorem State.drfRead_cores (l : List (Nat × Nat)) (slot : Nat) : (s.drfRead l slot).cores = s.cores :=
  s.drfRead_keep State.cores (fun _ => rfl) (fun _ _ => rfl) l slot

theorem State.eccSeen_drfKeeps (k n : Nat) : DrfKeeps s (s.eccSeen k n) :=
  ⟨(s.eccSeen_sameWords k n).mono fun _ hx => hx.bounds.2.trans_lt (by decide),
    s.eccSeen_keep State.drf (fun _ => rfl) (fun _ _ => rfl) k n,
    s.eccSeen_keep State.adm (fun _ => rfl) (fun _ _ => rfl) k n⟩

/-- The octets of a record that the spec gives no value advance the count of free values, and nothing else. -/
theorem State.record_keep {γ : Type} (g : State → γ) (hg : ∀ (u : State) n, g { u with freeCnt := n } = g u)
    (r : RecVals) : g (s.record r).2 = g s := by
  have free (u : State) (n : Nat) : g (u.freeBytes n).2 = g u := hg ..
  have or (u : State) (n : Nat) (v : Option Nat) : g (u.orFree n v).2 = g u := by
    cases v
    · exact free u n
    · rfl
  unfold State.record
  extract_lets a b c d e f x h i
  have hx : g x.2 = g s := by simp [x, f, e, d, c, b, a, or]
  have hh : g h.2 = g s := by
    unfold h
    split
    · exact hx
    · exact (free ..).trans hx
  show g i.2 = g s
  unfold i
  split
  · exact hh
  · exact (free ..).trans hh

theorem State.record_regs (r : RecVals) : (s.record r).2.regs = s.regs := s.record_keep State.regs (fun _ _ => rfl) r
theorem State.record_cores (r : RecVals) : (s.record r).2.cores = s.cores := s.record_keep State.cores (fun _ _ => rfl) r
theorem State.record_drf (r : RecVals) : (s.record r).2.drf = s.drf := s.record_keep State.drf (fun _ _ => rfl) r
theorem State.record_adm (r : RecVals) : (s.record r).2.adm = s.adm := s.record_keep State.adm (fun _ _ => rfl) r

theorem State.refusedRecord_drfKeeps (d : List Byte) (code : Nat) : DrfKeeps s (s.refusedRecord d code) :=
  (DrfKeeps.of_regs (s.record_regs _) (s.record_drf _) (s.record_adm _)).trans (State.wbsEcc_drfKeeps _ _ _)

theorem State.rejectItem_drfKeeps (p : Nat) : DrfKeeps s (s.rejectItem p) :=
  (DrfKeeps.refl s).p (f := SYS_CTR_REJECTED_COUNT) (by decide)
    (DrfWord.not_of_range (.inl (by simp only [SYS_CTR_REJECTED_COUNT, dPath]; omega))) _

theorem State.itemGone_drf (id : Nat) : (s.itemGone id).drf = s.drf := by rw [State.itemGone_eq]

theorem State.itemGone_drfWords (id : Nat) : SameWords DrfWord s (s.itemGone id) := by
  have h (t : State) (p : Nat) : SameWords DrfWord t (t.drainCheck p) := by
    have hword : ¬ DrfWord (SYS_CTR_STATUS_DRAINING.off + dPath p) := by
      refine DrfWord.not_of_range (.inl ?_)
      simp only [SYS_CTR_STATUS_DRAINING, dPath]
      omega
    exact .ite ((SameWords.refl t).p (by decide) hword 0) (.refl t)
  unfold State.itemGone
  split
  · exact .refl s
  · refine SameWords.trans ?_ (h _ _)
    exact .of_regs rfl

end

/-! ## Slots, the running job and DRF_STATUS (R199) -/

section
variable (s : State)

theorem State.drfJob_congr {s t : State} (h : t.drf.jobs = s.drf.jobs) (n : Nat) : t.drfJob n = s.drfJob n := by
  unfold State.drfJob
  rw [h]

theorem State.freeSlot_congr {s t : State} (h : t.drf.jobs = s.drf.jobs) : t.freeSlot = s.freeSlot := by
  unfold State.freeSlot
  simp only [State.drfJob_congr h]

theorem State.drfStatus_bare : s.drfStatus.bare = s.bare := by
  unfold State.drfStatus
  dsimp only
  split <;> rfl

theorem State.drfStatus_drfWords : SameWords DrfWord s s.drfStatus := by
  have hword : ¬ DrfWord (DRF_STATUS_BUSY.off + 0) := DrfWord.not_of_range (by decide)
  have hq (v : Nat) : SameWords DrfWord s (s.p DRF_STATUS_QUEUED 0 v) :=
    (SameWords.refl s).p (f := DRF_STATUS_QUEUED) (by decide) hword v
  unfold State.drfStatus
  dsimp only
  split
  · exact ((hq _).p (f := DRF_STATUS_BUSY) (by decide) hword _).p (f := DRF_STATUS_RUNNING) (by decide) hword _
  · exact (hq _).p (f := DRF_STATUS_BUSY) (by decide) hword _

theorem State.drfStatus_drf : s.drfStatus.drf = s.drf := State.bare_congr State.drf (fun _ => rfl) s.drfStatus_bare

theorem State.setRun_drf (r : Option DrfRun) : (s.setRun r).drf = ⟨s.drf.jobs, r, s.drf.posts, s.drf.cut⟩ :=
  State.drfStatus_drf _
theorem State.setRun_cores (r : Option DrfRun) : (s.setRun r).cores = s.cores :=
  State.bare_cores (s := { s with drf := { s.drf with run := r } }) (State.drfStatus_bare _)
theorem State.setRun_drfWords (r : Option DrfRun) : SameWords DrfWord s (s.setRun r) :=
  have h : SameWords DrfWord s { s with drf := { s.drf with run := r } } := .of_regs rfl
  h.trans (State.drfStatus_drfWords _)

variable (n : Nat) (j : Option DrfJob)

/-- A job is put in a slot: the slot, then its registers. -/
theorem State.setJob_eq : ∃ t : State, s.setJob n j = t.drfStatus ∧ SameWords DrfWord s t ∧
    t.bare = { s with drf := { s.drf with jobs := AMap.set none s.drf.jobs n j } }.bare := by
  have hword : ¬ DrfWord (DRF_SLOT_STATE.off + dSlot n) := DrfWord.not_of_range (by simp only [DRF_SLOT_STATE]; omega)
  have hs : SameWords DrfWord s { s with drf := { s.drf with jobs := AMap.set none s.drf.jobs n j } } := .of_regs rfl
  cases j with
  | none => exact ⟨_, rfl, hs.p (f := DRF_SLOT_STATE) (by decide) hword 0, rfl⟩
  | some x => exact ⟨_, rfl, ((hs.p (f := DRF_SLOT_STATE) (by decide) hword _).p (f := DRF_SLOT_PATH) (by decide) hword
      _).p (f := DRF_SLOT_TAG) (by decide) hword _, rfl⟩

theorem State.setJob_keep {γ : Type} (g : State → γ) (hg : ∀ u : State, g u.bare = g u) :
    g (s.setJob n j) = g { s with drf := { s.drf with jobs := AMap.set none s.drf.jobs n j } } := by
  obtain ⟨t, e, -, hb⟩ := s.setJob_eq n j
  rw [e]
  exact State.bare_congr g hg (t.drfStatus_bare.trans hb)

theorem State.setJob_drf :
    (s.setJob n j).drf = ⟨AMap.set none s.drf.jobs n j, s.drf.run, s.drf.posts, s.drf.cut⟩ :=
  s.setJob_keep n j State.drf fun _ => rfl
theorem State.setJob_cores : (s.setJob n j).cores = s.cores := s.setJob_keep n j State.cores fun _ => rfl
theorem State.setJob_adm : (s.setJob n j).adm = s.adm := s.setJob_keep n j State.adm fun _ => rfl
theorem State.setJob_drfWords : SameWords DrfWord s (s.setJob n j) := by
  obtain ⟨t, e, hw, -⟩ := s.setJob_eq n j
  rw [e]
  exact hw.trans t.drfStatus_drfWords

theorem State.drfJob_setJob_same : (s.setJob n j).drfJob n = j := by
  unfold State.drfJob
  rw [State.setJob_drf, AMap.get_set_same]

end

/-! ## Progress of the engine (R226, R227) -/

section
variable (s : State)

theorem State.progEnd_drf (st : Nat) : (s.progEnd progDrf 0 st).drf = s.drf :=
  State.bare_congr State.drf (fun _ => rfl) (s.progEnd_bare _ _ _)

theorem State.progEnd_drfWords (st : Nat) : SameWords DrfWord s (s.progEnd progDrf 0 st) := by
  have hword : ¬ DrfWord (DRF_PROG_PERMYRIAD_STATE.off + 0) := by
    simp [DrfWord, DRF_PROG_PERMYRIAD_STATE, DRF_LAST_REFUSAL_CODE, DRF_DONE_RECORDS, DRF_FS]
  have h : SameWords DrfWord s (s.p DRF_PROG_PERMYRIAD_STATE 0 st) := (SameWords.refl s).p (by decide) hword st
  exact .ite (h.p (f := DRF_PROG_PERMYRIAD_VAL) (by decide) hword _) h

/-- An end leaves the STATE of its status (R226). -/
theorem State.progEnd_drfProgState (status : Nat) :
    (s.progEnd progDrf 0 (drfProgState status)).g DRF_PROG_PERMYRIAD_STATE = drfProgState status := by
  have hlt : drfProgState status < 2 ^ DRF_PROG_PERMYRIAD_STATE.w := by
    unfold drfProgState
    split
    · decide
    · split <;> decide
  have h : (s.p DRF_PROG_PERMYRIAD_STATE 0 (drfProgState status)).g DRF_PROG_PERMYRIAD_STATE = drfProgState status := by
    rw [State.g_p_same, Nat.mod_eq_of_lt hlt]
  unfold State.progEnd
  dsimp only [progDrf]
  split
  · rwa [State.g_p_ne _ _ _ _ _ _ (by decide)]
  · exact h

end

/-! ## Ends (R203 to R207) -/

/-- In `t` the job of slot `n` has been queued for posting as an end of `status` that left the engine's run as in `s`. -/
structure QueuedEnd (s t : State) (n : Nat) (j : DrfJob) (status : Nat) : Prop where
  job : t.drfJob n = some { j with state := 3 }
  posts : ∃ ad oct, t.drf.posts = s.drf.posts ++ [(⟨n, ad, oct, status, false⟩ : DrfPost)]
  run : t.drf.run = s.drf.run
  cores : t.cores = s.cores
  progress : s.drf.run = none → t.g DRF_PROG_PERMYRIAD_STATE = drfProgState status

theorem State.endQueued_spec (s : State) (n : Nat) (j : DrfJob) (status ended : Nat) :
    QueuedEnd s (s.endQueued n j status ended) n j status := by
  unfold State.endQueued
  extract_lets x t d u
  have hdrf : t.drf = ⟨AMap.set none s.drf.jobs n (some { j with state := 3 }), s.drf.run, s.drf.posts, s.drf.cut⟩ := by
    rw [State.setJob_drf, State.record_drf]
  have hcores : u.cores = s.cores := (State.setJob_cores _ _ _).trans (s.record_cores _)
  have hrun : u.drf.run = s.drf.run := (congrArg DrfSt.run hdrf :)
  have hjob : u.drfJob n = some { j with state := 3 } := State.drfJob_setJob_same _ _ _
  have hposts : ∃ ad oct, u.drf.posts = s.drf.posts ++ [(⟨n, ad, oct, status, false⟩ : DrfPost)] :=
    ⟨_, _, congrArg (· ++ _) (congrArg DrfSt.posts hdrf :)⟩
  split
  · have hp := u.progEnd_drf (drfProgState status)
    exact ⟨(State.drfJob_congr (congrArg _ hp) n).trans hjob, by rwa [hp], by rwa [hp],
      (u.progEnd_cores _ _ _).trans hcores, fun _ => u.progEnd_drfProgState status⟩
  · next h =>
    refine ⟨hjob, hposts, hrun, hcores, fun h0 => absurd ?_ h⟩
    rw [hrun, h0]
    rfl

/-- The State in which the record of the running job's end waits, before the progress set takes its STATE. -/
def State.recorded (s : State) (r : DrfRun) (j : DrfJob) (status ended : Nat) : State :=
  let x := s.record { tag := fld j.desc 4 4, status := status, buf := r.buf, iter := r.iter, pert := r.pert,
                      merit := r.merit, resP := r.resP, resD := r.resD, gap := r.gap, obj := r.obj, cert := r.cert,
                      detail := r.detail, warn := r.warn, slot := some r.slot, type := fld j.desc 0 1,
                      accepted := some j.acc, started := r.start, ended := some ended }
  let t := (x.2.setRun none).setJob r.slot (some { j with state := 3 })
  { t with drf := ⟨t.drf.jobs, t.drf.run, t.drf.posts ++ [⟨r.slot, fld j.desc 32 8, x.1, status, true⟩],
    some (r, t.fab, status)⟩ }

section
variable {s : State} {r : DrfRun} {j : DrfJob}

theorem State.endRunAt_of_job (hj : s.drfJob r.slot = some j) (status ended : Nat) :
    s.endRunAt r status ended = (s.recorded r j status ended).progEnd progDrf 0 (drfProgState status) := by
  unfold State.endRunAt
  rw [hj]
  rfl

theorem State.endRunAt_of_none (hj : s.drfJob r.slot = none) (status ended : Nat) : s.endRunAt r status ended = s := by
  unfold State.endRunAt
  rw [hj]

variable (s : State) (r : DrfRun) (j : DrfJob) (status ended : Nat)

theorem State.recorded_drf : ∃ oct f, (s.recorded r j status ended).drf =
    ⟨AMap.set none s.drf.jobs r.slot (some { j with state := 3 }), none,
      s.drf.posts ++ [⟨r.slot, fld j.desc 32 8, oct, status, true⟩], some (r, f, status)⟩ := by
  unfold State.recorded
  extract_lets x t
  have ht : t.drf = ⟨AMap.set none s.drf.jobs r.slot (some { j with state := 3 }), none, s.drf.posts, s.drf.cut⟩ := by
    rw [State.setJob_drf, State.setRun_drf, State.record_drf]
  exact ⟨x.1, t.fab, by rw [ht]⟩

theorem State.recorded_cores : (s.recorded r j status ended).cores = s.cores :=
  (State.setJob_cores _ _ _).trans ((State.setRun_cores _ _).trans (s.record_cores _))

theorem State.recorded_drfWords : SameWords DrfWord s (s.recorded r j status ended) := by
  have hrun (v : RecVals) : SameWords DrfWord s ((s.record v).2.setRun none) :=
    SameWords.trans (.of_regs (s.record_regs v)) (State.setRun_drfWords _ _)
  exact ((hrun _).trans (State.setJob_drfWords _ _ _)).trans (.of_regs rfl)

end

/-- `t` has the cores of `u`, the records waiting in `u`, and a job in slot `n`. -/
structure Engaged (u : State) (n : Nat) (t : State) : Prop where
  cores : t.cores = u.cores
  posts : t.drf.posts = u.drf.posts
  job : ∃ j, t.drfJob n = some j

/-- In `t` the engine is idle and the record of slot `n`, of the status, is the last of those that wait beside `u`'s. -/
structure EndedAs (u : State) (n status : Nat) (t : State) : Prop where
  cores : t.cores = u.cores
  run : t.drf.run = none
  posts : ∃ ad oct, t.drf.posts = u.drf.posts ++ [(⟨n, ad, oct, status, true⟩ : DrfPost)]

/-- In `t` the job of slot `n` runs, and the records that wait are those of `u`. -/
structure RunsOn (u : State) (n : Nat) (t : State) : Prop where
  cores : t.cores = u.cores
  run : ∃ r, t.drf.run = some r ∧ r.slot = n
  posts : t.drf.posts = u.drf.posts

/-- The job of slot `n` runs on or has ended. -/
def Advances (u : State) (n : Nat) (t : State) : Prop := RunsOn u n t ∨ ∃ status, EndedAs u n status t

namespace Engaged
variable {u s t : State} {n : Nat} {r : DrfRun}

theorem of_same (h : Engaged u n s) (hc : t.cores = s.cores) (hd : t.drf = s.drf) : Engaged u n t where
  cores := hc.trans h.cores
  posts := by rw [hd, h.posts]
  job := by
    rw [State.drfJob_congr (congrArg _ hd)]
    exact h.job

/-- An operation that writes registers, trace, quays, Logbook and reactions at most. -/
theorem of_bare (h : Engaged u n s) (hb : t.bare = s.bare) : Engaged u n t :=
  h.of_same (State.bare_cores hb) (State.bare_congr State.drf (fun _ => rfl) hb)

theorem p (h : Engaged u n s) (f : Fld) (d v : Nat) : Engaged u n (s.p f d v) := h.of_same rfl rfl

theorem setRun (h : Engaged u n s) (r : Option DrfRun) : Engaged u n (s.setRun r) where
  cores := (s.setRun_cores r).trans h.cores
  posts := by rw [State.setRun_drf, h.posts]
  job := by
    rw [State.drfJob_congr (s := s) (by rw [State.setRun_drf])]
    exact h.job

theorem runsOn (h : Engaged u n s) (hr : s.drf.run = some r) (hn : r.slot = n) : RunsOn u n s :=
  ⟨h.cores, ⟨r, hr, hn⟩, h.posts⟩

theorem setRun_runsOn (h : Engaged u n s) (hn : r.slot = n := by assumption) : RunsOn u n (s.setRun (some r)) :=
  (h.setRun _).runsOn (congrArg DrfSt.run (s.setRun_drf _)) hn

theorem wbsEcc (h : Engaged u n s) (a : Nat) (l : List Byte) : Engaged u n (s.wbsEcc a l) := by
  rw [State.wbsEcc_eq]
  exact h.of_same rfl rfl

/-- A job in a slot is engaged beside the records that wait. -/
theorem self {j : DrfJob} (hj : s.drfJob n = some j) : Engaged s n s := ⟨rfl, rfl, j, hj⟩

/-- The running job ends (R204). -/
theorem endRunAt (h : Engaged u n s) (status ended : Nat) (hn : r.slot = n := by assumption) :
    EndedAs u n status (s.endRunAt r status ended) := by
  obtain ⟨j, hj⟩ := h.job
  subst hn
  rw [State.endRunAt_of_job hj]
  have hp := (s.recorded r j status ended).progEnd_drf (drfProgState status)
  obtain ⟨oct, f, hd⟩ := s.recorded_drf r j status ended
  exact ⟨by rw [State.progEnd_cores, State.recorded_cores, h.cores], by rw [hp, hd], _, oct, by rw [hp, hd, h.posts]⟩

theorem endRun (h : Engaged u n s) (status : Nat) (hn : r.slot = n := by assumption) :
    EndedAs u n status (s.endRun r status) := h.endRunAt _ _

theorem endCut (h : Engaged u n s) (status ended : Nat) (hn : r.slot = n := by assumption) :
    EndedAs u n status (s.endCut r status ended) :=
  (h.of_same (t := s.draw.2) rfl rfl).endRunAt (r := { r with pert := r.pert + s.draw.1 % (r.nextPert + 1) }) _ _

theorem endIter (h : Engaged u n s) (status : Nat) (hn : r.slot = n := by assumption) :
    Advances u n (s.endIter r status) := by
  unfold State.endIter
  split
  · exact .inr ⟨_, h.endRun _⟩
  · exact .inr ⟨_, h.endRun _⟩

end Engaged

section
variable (s : State) (r : DrfRun) (status ended : Nat)

/-- An end changes no fault of the engine. -/
theorem State.endRunAt_faultStatus : (s.endRunAt r status ended).faultStatus .drf = s.faultStatus .drf := by
  have hw : SameWords DrfWord s (s.endRunAt r status ended) := by
    cases hj : s.drfJob r.slot with
    | none =>
      rw [State.endRunAt_of_none hj]
      exact .refl s
    | some j =>
      rw [State.endRunAt_of_job hj]
      exact (s.recorded_drfWords r j status ended).trans (State.progEnd_drfWords _ _)
  exact hw.g (fsStatus DRF_FS 4) 0 (by decide) (.inr (.inr rfl))

theorem State.endCut_faultStatus : (s.endCut r status ended).faultStatus .drf = s.faultStatus .drf :=
  State.endRunAt_faultStatus _ _ _ _

variable {r}

/-- The end of a job leaves the STATE of its status (R226). -/
theorem State.endRunAt_progress {j : DrfJob} (hj : s.drfJob r.slot = some j) :
    (s.endRunAt r status ended).g DRF_PROG_PERMYRIAD_STATE = drfProgState status := by
  rw [State.endRunAt_of_job hj, State.progEnd_drfProgState]

theorem State.endCut_progress {j : DrfJob} (hj : s.drfJob r.slot = some j) :
    (s.endCut r status ended).g DRF_PROG_PERMYRIAD_STATE = drfProgState status :=
  State.endRunAt_progress s.draw.2 status ended (r := { r with pert := r.pert + s.draw.1 % (r.nextPert + 1) }) hj

end

/-! ## Iterates (R206, R217, R221, R224) -/

@[simp] theorem DrfRun.marked_slot (r : DrfRun) (mark : Bool) : (r.marked mark).slot = r.slot := by
  unfold DrfRun.marked
  split <;> rfl

namespace Engaged
variable {u s : State} {n : Nat} {r : DrfRun}

theorem spill (h : Engaged u n s) (r : DrfRun) : Engaged u n (s.spill r) := by
  unfold State.spill
  extract_lets m x
  split
  · exact h
  · exact (h.of_same (t := x.2) rfl rfl).wbsEcc _ _

/-- An iterate is completed: the job is still engaged, and runs. -/
theorem completeIterate (h : Engaged u n s) (k : Nat) (i : Iter) (hn : r.slot = n := by assumption) :
    Engaged u n (s.completeIterate r k i).2 ∧ RunsOn u n (s.completeIterate r k i).2 := by
  have hw := (h.wbsEcc (bufAddr r.desc k) i.octets).setRun (some (s.completeIterate r k i).1)
  have hc : Engaged u n (s.completeIterate r k i).2 := hw.of_same rfl rfl
  exact ⟨hc, hc.runsOn (congrArg DrfSt.run (State.setRun_drf _ _) :) hn⟩

theorem netIterate (h : Engaged u n s) (k : Nat) (hn : r.slot = n := by assumption) :
    Advances u n (s.netIterate r k) := by
  unfold State.netIterate
  extract_lets d net iso objOf p st spilled marked r' prev bad ok
  split
  · split
    · exact .inr ⟨_, h.endRun _⟩
    · exact .inl (h.completeIterate _ _).2
  have hs : Engaged u n spilled := h.spill r
  have hn' : r'.slot = n := (r.marked_slot _).trans hn
  split
  · exact .inr ⟨_, hs.endRun _⟩
  split
  · exact hs.endIter _
  split
  · exact .inr ⟨_, hs.endRun _⟩
  extract_lets p step conv th hot th' x
  obtain ⟨hx, hrun⟩ : Engaged u n x.2 ∧ RunsOn u n x.2 := hs.completeIterate _ _
  split
  · exact .inr ⟨_, hx.endRun _⟩
  split
  · exact .inr ⟨_, hx.endRun _⟩
  split
  · exact hx.endIter _
  · exact .inl hrun

theorem qpComplete (h : Engaged u n s) (k : Nat) (v : QpPt) (x : QpVal) (hn : r.slot = n := by assumption) :
    Advances u n (s.qpComplete r k v x) := by
  unfold State.qpComplete
  extract_lets d y
  obtain ⟨hy, hrun⟩ : Engaged u n y.2 ∧ RunsOn u n y.2 := h.completeIterate _ _
  split
  · exact .inr ⟨_, (hy.wbsEcc _ _).endRun _⟩
  split
  · exact .inr ⟨_, hy.endRun _⟩
  split
  · exact hy.endIter _
  · exact .inl hrun

theorem qpIterate (h : Engaged u n s) (k : Nat) (hn : r.slot = n := by assumption) :
    Advances u n (s.qpIterate r k) := by
  unfold State.qpIterate
  extract_lets p val v st spilled marked r' prev bad ok
  split
  · split
    · exact h.qpComplete _ _ _
    · exact .inr ⟨_, h.endRun _⟩
  have hs : Engaged u n spilled := h.spill r
  have hn' : r'.slot = n := (r.marked_slot _).trans hn
  split
  · exact .inr ⟨_, hs.endRun _⟩
  split
  · exact hs.endIter _
  split
  · exact .inr ⟨_, hs.endRun _⟩
  · exact hs.qpComplete _ _ _

theorem linIterate (h : Engaged u n s) (k : Nat) (hn : r.slot = n := by assumption) :
    Advances u n (s.linIterate r k) := by
  unfold State.linIterate
  extract_lets d m cols zeros ones tol f spilled r' new betas lower xs x
  split
  · exact .inl (h.completeIterate _ _).2
  have hs : Engaged u n spilled := by
    unfold spilled
    split
    · exact h.spill r
    · exact h
  split
  · exact .inr ⟨_, hs.endRun _⟩
  split
  · exact hs.endIter _
  obtain ⟨hx, hrun⟩ : Engaged u n x.2 ∧ RunsOn u n x.2 := hs.completeIterate _ _
  split
  · exact .inr ⟨_, hx.endRun _⟩
  split
  · exact hx.endIter _
  · exact .inl hrun

theorem iterate (h : Engaged u n s) (hn : r.slot = n) : Advances u n (s.iterate r) := by
  unfold State.iterate
  dsimp only
  split
  · exact h.netIterate _
  split
  · exact h.qpIterate _
  · exact h.linIterate _

end Engaged

/-- A network whose cold start meets an Inf or a NaN ends (R211). -/
theorem Engaged.iterate_overflow {s : State} {r : DrfRun} (h : Engaged s r.slot s) (ht : fld r.desc 0 1 = tNETWORK)
    (hk : r.next = 0)
    (hbad : r.net.good r.net.isolated r.netCold (r.net.power (r.eng.at 6) r.net.isolated r.netCold) = false) :
    EndedAs s r.slot stOVERFLOW (s.iterate r) := by
  have e : s.iterate r = s.endRun r stOVERFLOW := by
    unfold State.iterate State.netIterate
    simp only [ht, hk, hbad, if_true]
  rw [e]
  exact h.endRun _ rfl

theorem words64_replicate_zero (m : Nat) : words64 (List.replicate m 0) = List.replicate (8 * m) 0 := by
  unfold words64
  rw [List.flatMap_replicate, show leBytes 8 0 = List.replicate 8 0 from rfl, List.flatten_replicate_replicate,
    Nat.mul_comm]

/-- A LINEAR job's iterate 0 is zeros (R224). -/
theorem Engaged.iterate_zeros {s : State} {r : DrfRun} (h : Engaged s r.slot s) (ht : fld r.desc 0 1 ≠ tNETWORK)
    (hq : fld r.desc 0 1 ≠ tQP) (hk : r.next = 0) : RunsOn s r.slot (s.iterate r) ∧
      (s.iterate r).rbs (bufAddr r.desc 0) (8 * (fld r.desc 64 4 * fld r.desc 68 1)) =
        List.replicate (8 * (fld r.desc 64 4 * fld r.desc 68 1)) 0 := by
  obtain ⟨i, hi, e⟩ : ∃ i : Iter, i.octets = List.replicate (8 * (fld r.desc 64 4 * fld r.desc 68 1)) 0 ∧
      s.iterate r = (s.completeIterate r 0 i).2 := by
    unfold State.iterate State.linIterate
    simp only [if_neg ht, if_neg hq, hk, if_true]
    refine ⟨_, ?_, rfl⟩
    dsimp only
    rw [List.flatten_replicate_replicate, words64_replicate_zero, Nat.mul_comm (fld r.desc 68 1)]
  have hmem : (s.completeIterate r 0 i).2.mem = (s.wbs (bufAddr r.desc 0) i.octets).mem := by
    unfold State.completeIterate
    rw [State.progAt_mem, State.setRun_mem]
    rfl
  rw [e, State.rbs_congr hmem, ← hi]
  refine ⟨(h.completeIterate 0 i rfl).2, ?_⟩
  have hlen : 8 * (fld r.desc 64 4 * fld r.desc 68 1) = i.octets.length := by rw [hi, List.length_replicate]
  rw [hlen]
  exact State.rbs_wbs_same _ _ _

/-! ## Start (R199, R213) -/

namespace Engaged
variable {u s : State} {n : Nat}

theorem drfRead (h : Engaged u n s) (l : List (Nat × Nat)) (slot : Nat) : Engaged u n (s.drfRead l slot) :=
  h.of_same (s.drfRead_cores l slot) (s.drfRead_drf l slot)

/-- A job that is taken up. -/
theorem ofStart (s : State) (n : Nat) (j : DrfJob) (r : DrfRun) (total : Nat) :
    Engaged s n (((s.setRun (some r)).setJob n (some j)).progStart progDrf 0 total) := by
  have h : Engaged s n ((s.setRun (some r)).setJob n (some j)) :=
    ⟨(State.setJob_cores _ _ _).trans (s.setRun_cores _), by rw [State.setJob_drf, State.setRun_drf],
      j, State.drfJob_setJob_same _ _ _⟩
  exact h.of_bare (State.progStart_bare ..)

end Engaged

theorem State.startJob_advances (s : State) (n : Nat) (j : DrfJob) : Advances s n (s.startJob n j) := by
  unfold State.startJob
  extract_lets d t r run started bad read kb sized r' net m r2 p v
  have hstarted : Engaged s n started := Engaged.ofStart s n _ r _
  have hr : r.slot = n := rfl
  split
  · exact .inr ⟨_, hstarted.endRun _⟩
  have hread : Engaged s n read := hstarted.drfRead _ _
  split
  · exact .inr ⟨_, hread.endRun _⟩
  have hsized : Engaged s n sized := (hread.p _ _ _).p _ _ _
  split
  · exact .inr ⟨_, hsized.endRun _⟩
  have hr' : r'.slot = n := by
    unfold r'
    split
    · exact hr
    · exact hr
  clear_value r'
  split
  · have hr2 : r2.slot = n := by
      unfold r2
      split
      · exact hr'
      · exact hr'
    clear_value r2
    split
    · extract_lets cert x
      have hx : Engaged s n x.2 := (hsized.completeIterate _ _).1
      exact .inr ⟨_, hx.endRun _⟩
    · exact .inl (hsized.setRun_runsOn)
  split
  · split
    · extract_lets x
      have hx : Engaged s n x.2 := (hsized.completeIterate _ _).1
      exact .inr ⟨_, hx.endRun _⟩
    · exact .inl (hsized.setRun_runsOn)
  · exact .inl (hsized.setRun_runsOn)

theorem State.expireJobs_keep {γ : Type} (s : State) (g : State → γ)
    (hg : ∀ (t : State) n j status ended, g (t.endQueued n j status ended) = g t) : g s.expireJobs = g s := by
  refine foldl_keep _ g (fun t x => ?_) _ s
  split
  · split
    · exact hg _ _ _ _ _
    · rfl
  · rfl

/-! ## A refused submission or cancel (R200, R203) -/

/-- `t` has the engine's jobs and faults of `s`, and DRF_LAST_REFUSAL reports the refusal. -/
structure DrfRefused (s t : State) (master code : Nat) : Prop where
  drf : t.drf = s.drf
  faults : t.faultStatus .drf = s.faultStatus .drf
  valid : t.on DRF_LAST_REFUSAL_VALID = true
  master : t.g DRF_LAST_REFUSAL_MASTER = master % 2 ^ DRF_LAST_REFUSAL_MASTER.w
  code : t.g DRF_LAST_REFUSAL_CODE = code % 2 ^ DRF_LAST_REFUSAL_CODE.w

theorem State.drfRefuse_drfRefused (s : State) (master code : Nat) :
    DrfRefused s (s.drfRefuse master code) master code where
  drf := rfl
  faults := by
    unfold State.drfRefuse
    rw [State.p_faultStatus _ (by decide) (by decide), State.p_faultStatus _ (by decide) (by decide),
      State.p_faultStatus _ (by decide) (by decide)]
  valid := by
    unfold State.drfRefuse
    rw [State.on_p_ne _ _ _ _ _ _ (by decide), State.on_p_ne _ _ _ _ _ _ (by decide)]
    exact State.on_p_one _ _ _ (by decide)
  master := by
    unfold State.drfRefuse
    rw [State.g_p_ne _ _ _ _ _ _ (by decide), State.g_p_same]
  code := State.g_p_same _ _ _ _

namespace DrfRefused
variable {s t u : State} {m code : Nat}

/-- What leaves the engine alone leaves the refusal reported. -/
theorem keep (h : DrfRefused s t m code) (hk : DrfKeeps t u) : DrfRefused s u m code where
  drf := hk.drf.trans h.drf
  faults := hk.faultStatus.trans h.faults
  valid := (hk.words.on (f := DRF_LAST_REFUSAL_VALID) (d := 0) (by decide) (.inl rfl)).trans h.valid
  master := (hk.g (f := DRF_LAST_REFUSAL_MASTER) (d := 0) (by decide) (.inl rfl)).trans h.master
  code := (hk.g (f := DRF_LAST_REFUSAL_CODE) (d := 0) (by decide) (.inl rfl)).trans h.code

theorem after (h : DrfRefused t u m code) (hk : DrfKeeps s t) : DrfRefused s u m code :=
  { h with drf := h.drf.trans hk.drf, faults := h.faults.trans hk.faultStatus }

end DrfRefused

/-! ## Submission (R199 to R201) -/

section
variable (s : State) (a : Nat)

/-- The State once a descriptor's 128 octets have been read, where it lies wholly in shared SRAM. -/
def State.descRead : State := if a % 64 == 0 && inSram a 128 then s.drfRead [(a, 128)] 0 else s

/-- The code that answers a submission, and whether the refused job was an offer of its path. -/
def State.submitAnswer : Nat × Bool :=
  if (a % 64 == 0 && inSram a 128) && (s.readError [(a, 128)]).isSome && s.mode != SAFE && s.mode != PROVISION &&
      s.mode != STANDBY && s.mode != FACTORY then (0x30C, false)
  else s.submitCode a (s.rbs a 128)

/-- A refused submission (R200, R201). -/
theorem State.submit_refused (master : Nat) (notify : Bool) (h : (s.submitAnswer a).1 ≠ 0) :
    DrfRefused (s.descRead a) (s.submit master notify a).2 master (s.submitAnswer a).1 := by
  unfold State.submit
  extract_lets d aligned lost x readable read rejected refused recorded
  have hx : x = s.submitAnswer a := rfl
  have hread : read = s.descRead a := rfl
  clear_value x read
  subst hx hread
  rw [if_pos h]
  have hrefused : DrfRefused (s.descRead a) refused master (s.submitAnswer a).1 :=
    (State.drfRefuse_drfRefused _ _ _).after (.ite (State.rejectItem_drfKeeps _ _) (.refl _))
  have hrecorded : DrfRefused (s.descRead a) recorded master (s.submitAnswer a).1 :=
    hrefused.keep (.ite (State.refusedRecord_drfKeeps _ _ _) (.refl _))
  exact hrecorded.keep (.ite (State.drfNotify_drfKeeps _ _ _ _ _ _) (.refl _))

/-- With every slot taken (R200). -/
theorem State.submit_full (master : Nat) (notify : Bool) (h : (s.submitAnswer a).1 = 0)
    (hf : (s.descRead a).freeSlot = none) :
    (s.submit master notify a).2 = (s.descRead a).drfRefuse master 0x048 := by
  unfold State.submit
  extract_lets d aligned lost x readable read
  have hx : x = s.submitAnswer a := rfl
  have hread : read = s.descRead a := rfl
  clear_value x read
  subst hx hread
  rw [if_neg (not_not_intro h), hf]

/-- The job of an accepted submission in its slot, queued (R199, R200). -/
def State.queueJob (s : State) (master : Nat) (notify : Bool) (d : List Byte) (n : Nat) : State :=
  (s.acceptItem (fld d 2 2)).2.setJob n (some ⟨d, s.adm.nextId, s.tide, master, notify, 1⟩)

theorem State.submit_accepted (master : Nat) (notify : Bool) {n : Nat} (h : (s.submitAnswer a).1 = 0)
    (hf : (s.descRead a).freeSlot = some n) :
    (s.submit master notify a).2 =
      if notify then ((s.descRead a).queueJob master notify (s.rbs a 128) n).drfNotify master 0 n 0 (fld (s.rbs a 128) 4 4)
      else (s.descRead a).queueJob master notify (s.rbs a 128) n := by
  unfold State.submit
  extract_lets d aligned lost x readable read
  have hx : x = s.submitAnswer a := rfl
  have hread : read = s.descRead a := rfl
  clear_value x read
  subst hx hread
  rw [if_neg (not_not_intro h), hf]
  rfl

theorem State.queueJob_outstanding (master : Nat) (notify : Bool) (d : List Byte) (n : Nat) :
    (s.queueJob master notify d n).outstanding (fld d 2 2) = true := by
  unfold State.outstanding State.queueJob
  rw [State.setJob_adm]
  simp [State.acceptItem, State.inc]

theorem State.readError_of_uncorr (he : s.eccUncorr a 128 = true) : s.readError [(a, 128)] = some a := by
  simp [State.readError, he]

theorem State.readError_of_readable (hin : inSram a 128 = true) (he : ¬ s.eccUncorr a 128 = true) :
    s.readError [(a, 128)] = none := by
  simp [State.readError, he, hin]

/-- A read that ends in an error response is INPUT_ERR (R230). -/
theorem State.drfRead_testBit {l : List (Nat × Nat)} (h : s.readError l = some a) (slot : Nat) :
    ((s.drfRead l slot).faultStatus .drf).testBit DRF_INPUT_ERR = true := by
  unfold State.drfRead
  rw [h]
  exact State.raise_testBit _ .drf (by decide) _ _ _

theorem State.descRead_drf : (s.descRead a).drf = s.drf := by
  unfold State.descRead
  split
  · exact s.drfRead_drf _ _
  · rfl

theorem State.submitAnswer_of_uncorr (ha : a % 64 = 0) (hin : inSram a 128 = true) (he : s.eccUncorr a 128 = true)
    (hm : s.mode = COMMISSION ∨ s.mode = RUN) : s.submitAnswer a = (0x30C, false) := by
  refine if_pos ?_
  rw [s.readError_of_uncorr a he]
  rcases hm with hm | hm <;> simp [ha, hin, hm] <;> decide

theorem State.submitAnswer_of_readable (he : ¬ s.eccUncorr a 128 = true) :
    s.submitAnswer a = s.submitCode a (s.rbs a 128) := by
  refine if_neg ?_
  by_cases hin : inSram a 128 = true
  · simp [s.readError_of_readable a hin he]
  · simp [hin]

/-- The descriptor of an accepted submission is aligned in shared SRAM (R200, test 3). -/
theorem State.aligned_of_submitCode {d : List Byte} (h : (s.submitCode a d).1 = 0) :
    a % 64 = 0 ∧ inSram a 128 = true := by
  unfold State.submitCode at h
  extract_lets readable p pathOk t bound own c at h
  split at h
  · cases h
  split at h
  · cases h
  split at h
  · cases h
  · next hok =>
    have hr : readable = true := by
      cases hr : readable
      · simp [hr] at hok
      · rfl
    simpa [readable] using hr

theorem State.descRead_of_accepted (he : ¬ s.eccUncorr a 128 = true) {d : List Byte} (h : (s.submitCode a d).1 = 0) :
    s.descRead a = s.eccSeen a 128 := by
  obtain ⟨ha, hin⟩ := s.aligned_of_submitCode a h
  unfold State.descRead State.drfRead
  rw [s.readError_of_readable a hin he]
  simp [ha, hin]

end

/-! ## Cancel (R203, R204) -/

section
variable {s : State} {n tag : Nat} {j : DrfJob} {r : DrfRun}

/-- A job that ended in an earlier cycle cannot be taken up again. -/
theorem State.reopen_of_no_cut (h : s.drf.cut = none) : s.reopen = none := by
  unfold State.reopen
  rw [h]
  split
  · next e _ => cases e
  · rfl

theorem State.drfCancel_refused (h : s.drfJob n = none ∨ ∃ j, s.drfJob n = some j ∧
    (fld j.desc 4 4 % 65536 ≠ tag % 65536 ∨ (j.state = 3 ∧ s.drf.cut = none))) (master : Nat) :
    s.drfCancel master n tag = (0x30D, s.drfRefuse master 0x30D) := by
  unfold State.drfCancel
  rcases h with h | ⟨j, h, htag | ⟨h3, hcut⟩⟩ <;> rw [h]
  · exact if_pos htag
  · by_cases htag : fld j.desc 4 4 % 65536 ≠ tag % 65536
    · exact if_pos htag
    · dsimp only
      rw [if_neg htag, if_neg (by omega), if_pos h3, State.reopen_of_no_cut hcut]

theorem State.drfCancel_queued (hj : s.drfJob n = some j) (h1 : j.state = 1) (ht : fld j.desc 4 4 % 65536 = tag % 65536)
    (master : Nat) : s.drfCancel master n tag = (0, s.endQueued n j stCANCELLED s.tide) := by
  unfold State.drfCancel
  rw [hj]
  exact (if_neg (not_not_intro ht)).trans (if_pos h1)

theorem State.drfCancel_running (hj : s.drfJob n = some j) (h2 : j.state = 2) (ht : fld j.desc 4 4 % 65536 = tag % 65536)
    (hr : s.drf.run = some r) (he : s.tide < s.timeEnd j r) (master : Nat) :
    s.drfCancel master n tag = (0, s.endCut r stCANCELLED s.tide) := by
  unfold State.drfCancel
  rw [hj, hr]
  dsimp only
  rw [if_neg (not_not_intro ht), if_neg (by omega), if_neg (by omega), if_neg (not_le.2 he)]

end

/-! ## The oldest record is posted (R201, R204, R439) -/

/-- The slot of a posted record and its job's item go, and the submitter is notified. -/
def State.jobDone (s : State) (p : DrfPost) : Option DrfJob → State
  | none => s
  | some j =>
    let t := (s.setJob p.slot none).itemGone j.item
    if j.notify then t.drfNotify j.master 2 p.slot p.status (fld j.desc 4 4) else t

/-- What follows the write of a record: it is counted, DRF_RESULT and snapshots fire, and its job is done with. -/
def State.recordDone (s : State) (p : DrfPost) : State :=
  let u := (s.inc DRF_DONE_RECORDS 0).fireEdge srcDrfResult
  let t := u.snapFire (fun d => u.g LOG_SNAP_CFG_TRIG (0x100 * d) = 4 &&
    (u.g LOG_SNAP_CFG_SEL (0x100 * d)).testBit p.status) (p.status + p.slot * 256)
  t.jobDone p (t.drfJob p.slot)

/-- `t` has the memory, the waiting records and the engine's faults of `s`, slot `n` free and one record more counted. -/
structure RecordDone (s t : State) (n : Nat) : Prop where
  mem : t.mem = s.mem
  posts : t.drf.posts = s.drf.posts
  free : t.drfJob n = none
  faults : t.faultStatus .drf = s.faultStatus .drf
  count : t.g DRF_DONE_RECORDS = (s.g DRF_DONE_RECORDS + 1) % 2 ^ DRF_DONE_RECORDS.w

theorem State.recordDone_spec (s : State) (p : DrfPost) : RecordDone s (s.recordDone p) p.slot := by
  unfold State.recordDone
  extract_lets u t
  have ht : DrfKeeps (s.inc DRF_DONE_RECORDS 0) t := (State.fireEdge_drfKeeps _ _).trans (State.snapFire_drfKeeps _ _ _)
  have hmem : t.mem = s.mem := (State.snapFire_mem _ _ _).trans (State.fireEdge_mem _ _)
  have hposts : t.drf.posts = s.drf.posts := by rw [ht.drf]; rfl
  have hfaults : t.faultStatus .drf = s.faultStatus .drf :=
    ht.faultStatus.trans (s.p_faultStatus (e := DRF_DONE_RECORDS) (d := 0) (by decide) (by decide) _)
  have hcount : t.g DRF_DONE_RECORDS = (s.g DRF_DONE_RECORDS + 1) % 2 ^ DRF_DONE_RECORDS.w :=
    (ht.g (f := DRF_DONE_RECORDS) (by decide) (.inr (.inl rfl))).trans (s.g_inc _ _)
  clear_value t
  cases h : t.drfJob p.slot with
  | none => exact ⟨hmem, hposts, h, hfaults, hcount⟩
  | some j =>
    rw [State.jobDone]
    have hv : SameWords DrfWord t ((t.setJob p.slot none).itemGone j.item) :=
      (t.setJob_drfWords _ _).trans (State.itemGone_drfWords _ _)
    have hfree : RecordDone s ((t.setJob p.slot none).itemGone j.item) p.slot :=
      { mem := by rw [State.itemGone_mem, State.setJob_mem, hmem]
        posts := by rw [State.itemGone_drf, State.setJob_drf, hposts]
        free := (State.drfJob_congr (congrArg _ (State.itemGone_drf _ _)) _).trans (State.drfJob_setJob_same _ _ _)
        faults := (hv.g (fsStatus DRF_FS 4) 0 (by decide) (.inr (.inr rfl))).trans hfaults
        count := (hv.g DRF_DONE_RECORDS 0 (by decide) (.inr (.inl rfl))).trans hcount }
    generalize (t.setJob p.slot none).itemGone j.item = v at hfree ⊢
    split
    · have hn := v.drfNotify_drfKeeps j.master 2 p.slot p.status (fld j.desc 4 4)
      exact ⟨(State.drfNotify_mem _ _ _ _ _ _).trans hfree.mem, by rw [hn.drf, hfree.posts],
        (State.drfJob_congr (congrArg _ hn.drf) _).trans hfree.free, hn.faultStatus.trans hfree.faults,
        (hn.g (f := DRF_DONE_RECORDS) (by decide) (.inr (.inl rfl))).trans hfree.count⟩
    · exact hfree

/-! ## The commands -/

section
variable {s : State} (hr : s.inReset = false)

include hr in
theorem exec_drfSubmit (m : Fin 42) (note : Bool) (a : BitVec 40) :
    exec (.drfSubmit m note a) s = .next ((s.submit m.val note a.toNat).2.answer true 0) :=
  congrArg Host.Outcome.next (State.command_of_inReset hr _)

include hr in
theorem exec_drfCancel (m : Fin 42) (slot : Fin 64) (tag : BitVec 16) :
    exec (.drfCancel m slot tag) s = .next ((s.drfCancel m.val slot.val tag.toNat).2.answer true 0) :=
  congrArg Host.Outcome.next (State.command_of_inReset hr _)

theorem exec_jobExpired {slot : Fin 64} {j : DrfJob} (hj : s.drfJob slot.val = some j) (h1 : j.state = 1)
    (ht : s.lastStart j ≤ s.tide) :
    exec (.jobExpired slot) s = .next (s.endQueued slot.val j stEXPIRED (s.lastStart j)) := by
  show Host.Outcome.next _ = _
  rw [hj]
  exact congrArg Host.Outcome.next (if_pos ⟨h1, ht⟩)

theorem exec_jobStart {n : Nat} {j : DrfJob} (h : s.drf.run = none) (hp : s.drf.posts.any (·.ran) = false)
    (hn : s.expireJobs.nextJob = some (n, j)) : exec .jobStart s = .next (s.expireJobs.startJob n j) := by
  show execJobStart s = _
  unfold execJobStart
  simp only [h, hp, hn, Option.isNone_none, Bool.not_false, Bool.and_self, if_true]

variable {r : DrfRun} {j : DrfJob} (hrun : s.drf.run = some r) (hj : s.drfJob r.slot = some j)
include hrun hj

theorem State.writeBack_of_running (ht : s.tide < s.timeEnd j r) (go : State → DrfRun → Option Nat → State) :
    s.writeBack go = go s r none := by
  unfold State.writeBack
  rw [hrun]
  dsimp only
  rw [hj]
  exact if_pos ht

theorem exec_iterateComplete_failed (ht : s.tide < s.timeEnd j r) : exec (.iterateComplete true) s =
    .next ((s.raise .drf DRF_OUTPUT_ERR (some ⟨bufAddr r.desc r.next, 28, 2⟩) r.slot).endCut r stMEMERR s.tide) :=
  congrArg Host.Outcome.next (State.writeBack_of_running hrun hj ht _)

theorem exec_iterateComplete (ht : s.tide < s.timeEnd j r) : exec (.iterateComplete false) s = .next (s.iterate r) :=
  congrArg Host.Outcome.next (State.writeBack_of_running hrun hj ht _)

theorem exec_jobTimeEnd (ht : s.timeEnd j r ≤ s.tide) :
    exec .jobTimeEnd s = .next (s.endCut r stDEADLINE (s.timeEnd j r)) := by
  show execJobTimeEnd s = _
  unfold execJobTimeEnd
  rw [hrun]
  dsimp only
  rw [hj]
  exact congrArg Host.Outcome.next (if_pos ht)

omit hj in
theorem exec_jobAborted (why : JobAbort) :
    exec (.jobAborted why) s = .next ((s.abortFault r.slot why).endCut r (abortStatus why) s.tide) := by
  show Host.Outcome.next (s.abortJob why) = _
  unfold State.abortJob
  rw [hrun]

end

section
variable (s : State) (p : DrfPost) (rest : List DrfPost)

/-- The State in which `rest` alone is left to be posted. -/
def State.leavePosts : State := { s with drf := { s.drf with posts := rest } }

/-- The oldest record is taken, and its write ends with or without an error response (R204, R230). -/
def State.takePost (writeErr : Bool) : State :=
  if writeErr then (s.leavePosts rest).raise .drf DRF_OUTPUT_ERR (some ⟨p.addr, 28, 2⟩) p.slot
  else (s.leavePosts rest).wbsEcc p.addr p.octets

theorem State.takePost_posts (writeErr : Bool) : (s.takePost p rest writeErr).drf.posts = rest := by
  cases writeErr
  · exact congrArg DrfSt.posts (State.wbsEcc_drfKeeps _ _ _).drf
  · exact congrArg DrfSt.posts (State.bare_congr State.drf (fun _ => rfl) (State.raise_bare ..))

/-- Where the write succeeded, the record stands at its address, and no other byte has changed. -/
theorem State.takePost_written : (s.takePost p rest false).rbs p.addr p.octets.length = p.octets ∧
    sameBytesBut p.addr p.octets.length s (s.takePost p rest false) ∧
    (s.takePost p rest false).g DRF_DONE_RECORDS = s.g DRF_DONE_RECORDS := by
  have hmem : (s.takePost p rest false).mem = ((s.leavePosts rest).wbs p.addr p.octets).mem := State.eccWritten_mem _ _ _
  refine ⟨?_, fun c hc => ?_, ((s.leavePosts rest).wbsEcc_drfKeeps _ _).g (by decide) (.inr (.inl rfl))⟩
  · rw [State.rbs_congr hmem, State.rbs_wbs_same]
  · rw [State.rb_congr hmem, State.rb_wbs_out _ _ _ _ hc]
    rfl

theorem State.takePost_failed : (s.takePost p rest true).mem = s.mem ∧
    ((s.takePost p rest true).faultStatus .drf).testBit DRF_OUTPUT_ERR = true :=
  ⟨State.raise_mem .., State.raise_testBit _ .drf (by decide) _ _ _⟩

end

section
variable {s : State} {p : DrfPost} {rest : List DrfPost} (h : s.drf.posts = p :: rest)
include h

theorem exec_resultPosted (writeErr : Bool) :
    exec (.resultPosted writeErr) s = .next ((s.takePost p rest writeErr).recordDone p) := by
  show execResultPosted writeErr s = _
  unfold execResultPosted
  rw [h]
  dsimp only [State.recordDone, State.takePost, State.leavePosts]
  generalize State.snapFire _ _ _ = t
  cases t.drfJob p.slot <;> rfl

theorem resultPosted_written : ∃ t, exec (.resultPosted false) s = .next t ∧ t.drf.posts = rest ∧
    t.drfJob p.slot = none ∧ t.rbs p.addr p.octets.length = p.octets ∧ sameBytesBut p.addr p.octets.length s t ∧
    t.g DRF_DONE_RECORDS = (s.g DRF_DONE_RECORDS + 1) % 2 ^ DRF_DONE_RECORDS.w := by
  obtain ⟨hmem, hposts, hfree, -, hcount⟩ := (s.takePost p rest false).recordDone_spec p
  obtain ⟨hrec, hsame, hg⟩ := s.takePost_written p rest
  exact ⟨_, exec_resultPosted h false, hposts.trans (s.takePost_posts p rest false), hfree,
    (State.rbs_congr hmem _ _).trans hrec, fun c hc => (State.rb_congr hmem c).trans (hsame c hc), by rw [hcount, hg]⟩

theorem resultPosted_failed : ∃ t, exec (.resultPosted true) s = .next t ∧ t.drf.posts = rest ∧
    t.drfJob p.slot = none ∧ t.mem = s.mem ∧ (t.faultStatus .drf).testBit DRF_OUTPUT_ERR = true := by
  obtain ⟨hmem, hposts, hfree, hfaults, -⟩ := (s.takePost p rest true).recordDone_spec p
  obtain ⟨hkept, hbit⟩ := s.takePost_failed p rest
  exact ⟨_, exec_resultPosted h true, hposts.trans (s.takePost_posts p rest true), hfree, hmem.trans hkept,
    by rw [hfaults, hbit]⟩

end

/-- The fault of an abort leaves the job engaged. -/
theorem Engaged.abortFault {u s : State} {n : Nat} (h : Engaged u n s) (slot : Nat) (why : JobAbort) :
    Engaged u n (s.abortFault slot why) := by
  cases why
  case overflow => exact h
  all_goals exact h.of_bare (State.raise_bare ..)

/-! ## The statement -/

section
variable {s : State} {m : Fin 42} {note : Bool} {a : BitVec 40}

/-- A descriptor in words that ECC cannot correct (R200, R230). -/
theorem drfSubmit_uncorr (hr : s.inReset = false) (he : s.eccUncorr a.toNat 128 = true) (ha : a.toNat % 64 = 0)
    (hin : inSram a.toNat 128 = true) (hm : s.mode = COMMISSION ∨ s.mode = RUN) :
    ∃ t, exec (.drfSubmit m note a) s = .next t ∧ t.g DRF_LAST_REFUSAL_CODE = 0x30C ∧
      (t.faultStatus .drf).testBit DRF_INPUT_ERR = true ∧ t.drf.jobs = s.drf.jobs := by
  have hx := s.submitAnswer_of_uncorr a.toNat ha hin he hm
  have ht := s.submit_refused a.toNat m.val note (by rw [hx]; decide)
  rw [hx] at ht
  refine ⟨_, exec_drfSubmit hr m note a, ht.code, ?_, congrArg DrfSt.jobs (ht.drf.trans (s.descRead_drf _))⟩
  have hread : s.descRead a.toNat = s.drfRead [(a.toNat, 128)] 0 := if_pos (by simp [ha, hin])
  show ((s.submit m.val note a.toNat).2.faultStatus .drf).testBit DRF_INPUT_ERR = true
  rw [ht.faults, hread]
  exact s.drfRead_testBit _ (s.readError_of_uncorr _ he) 0

/-- A submission that one of the tests refuses (R200). -/
theorem drfSubmit_refused (hr : s.inReset = false) (he : ¬ s.eccUncorr a.toNat 128 = true)
    (hc : (s.submitCode a.toNat (s.rbs a.toNat 128)).1 ≠ 0) :
    ∃ t, exec (.drfSubmit m note a) s = .next t ∧ t.on DRF_LAST_REFUSAL_VALID = true ∧
      t.g DRF_LAST_REFUSAL_CODE = (s.submitCode a.toNat (s.rbs a.toNat 128)).1 % 2 ^ DRF_LAST_REFUSAL_CODE.w ∧
      t.g DRF_LAST_REFUSAL_MASTER = m.val ∧ t.drf.jobs = s.drf.jobs := by
  rw [← s.submitAnswer_of_readable a.toNat he] at hc ⊢
  have ht := s.submit_refused a.toNat m.val note hc
  refine ⟨_, exec_drfSubmit hr m note a, ht.valid, ht.code, ht.master.trans (Nat.mod_eq_of_lt ?_),
    congrArg DrfSt.jobs (ht.drf.trans (s.descRead_drf _))⟩
  simp only [DRF_LAST_REFUSAL_MASTER]
  omega

/-- An accepted submission (R199, R200). -/
theorem drfSubmit_accepted (hr : s.inReset = false) (he : ¬ s.eccUncorr a.toNat 128 = true) {n : Nat}
    (hc : (s.submitCode a.toNat (s.rbs a.toNat 128)).1 = 0) (hf : s.freeSlot = some n) :
    ∃ t, exec (.drfSubmit m note a) s = .next t ∧
      t.drfJob n = some ⟨s.rbs a.toNat 128, s.adm.nextId, s.tide, m.val, note, 1⟩ ∧
      t.outstanding (fld (s.rbs a.toNat 128) 2 2) = true ∧ t.mem = s.mem := by
  have hread := s.descRead_of_accepted a.toNat he hc
  have hkeeps := s.eccSeen_drfKeeps a.toNat 128
  have htide : (s.eccSeen a.toNat 128).tide = s.tide := s.eccSeen_keep State.tide (fun _ => rfl) (fun _ _ => rfl) _ _
  rw [← hread] at hkeeps htide
  have hslot : (s.descRead a.toNat).freeSlot = some n := (State.freeSlot_congr (congrArg _ hkeeps.drf)).trans hf
  rw [← s.submitAnswer_of_readable a.toNat he] at hc
  have hsubmit := s.submit_accepted a.toNat m.val note hc hslot
  generalize s.rbs a.toNat 128 = d at hsubmit ⊢
  generalize s.descRead a.toNat = u at hread hkeeps htide hsubmit
  have hq : DrfKeeps (u.queueJob m.val note d n) (s.submit m.val note a.toNat).2 := by
    rw [hsubmit]
    exact .ite (State.drfNotify_drfKeeps _ _ _ _ _ _) (.refl _)
  refine ⟨_, exec_drfSubmit hr m note a, ?_, ?_, ?_⟩
  · refine (State.drfJob_congr (congrArg DrfSt.jobs hq.drf) n).trans ?_
    rw [State.queueJob, State.drfJob_setJob_same, hkeeps.adm, htide]
  · refine Eq.trans ?_ (u.queueJob_outstanding m.val note d n)
    show State.outstanding (s.submit m.val note a.toNat).2 _ = _
    unfold State.outstanding
    rw [hq.adm]
  · have hmem : (u.queueJob m.val note d n).mem = s.mem := by
      rw [State.queueJob, State.setJob_mem, State.acceptItem_mem, hread, State.eccSeen_mem]
    show (s.submit m.val note a.toNat).2.mem = s.mem
    rw [hsubmit]
    split
    · rw [State.drfNotify_mem, hmem]
    · exact hmem

end

section
variable {s : State} {r : DrfRun} {j : DrfJob} (hrun : s.drf.run = some r) (hj : s.drfJob r.slot = some j)
include hrun hj

/-- An abort ends the running job with its status, and raises its fault (R211, R230). -/
theorem jobAborted_spec (why : JobAbort) : ∃ t, exec (.jobAborted why) s = .next t ∧ t.mem = s.mem ∧
    EndedAs s r.slot (abortStatus why) t ∧ t.faultStatus .drf = (s.abortFault r.slot why).faultStatus .drf :=
  ⟨_, exec_jobAborted hrun why, by rw [State.endCut_mem, State.abortFault_mem],
    ((Engaged.self hj).abortFault r.slot why).endCut _ _ rfl, State.endCut_faultStatus _ _ _ _⟩

end

/-- Settles O43, from the cases of a submission and a cancel, the engaged job's advance through its start and its iterates,
the ends of queued and running jobs, and what follows the write of a record. -/
theorem draftingCommands : Obligations.DraftingCommands := by
  intro m note a slot tag s hr desc code running endedIn ended bad
  have htag : tag.toNat % 65536 = tag.toNat := Nat.mod_eq_of_lt tag.isLt
  refine ⟨fun he ha hin hm => drfSubmit_uncorr hr he ha hin hm, fun hc he => drfSubmit_refused hr he hc,
    fun hc he hf => ?_, fun n hc he hf => drfSubmit_accepted hr he hc hf, fun h => ?_, fun j hj h1 => ⟨fun ht => ?_,
    fun ht => ?_⟩, fun n j h hp hn => ?_, fun r j hrun hj => ⟨fun hlt => ⟨?_, ?_, fun h2 hslot ht => ?_⟩, fun hle => ?_,
    fun why => ?_⟩, fun p rest h => ⟨resultPosted_written h, resultPosted_failed h⟩⟩
  -- DRF_SUBMIT with every slot taken
  · have hread := s.descRead_of_accepted a.toNat he hc
    have hslot : (s.descRead a.toNat).freeSlot = none :=
      (State.freeSlot_congr (congrArg DrfSt.jobs (s.descRead_drf _))).trans hf
    have hx : (s.submitAnswer a.toNat).1 = 0 := by rw [s.submitAnswer_of_readable _ he]; exact hc
    rw [exec_drfSubmit hr, s.submit_full _ _ _ hx hslot, hread]
  -- DRF_CANCEL
  · rw [← htag] at h
    rw [exec_drfCancel hr, State.drfCancel_refused h]
  · obtain ⟨hjob, ⟨ad, oct, hposts⟩, hrun, -, hprog⟩ := s.endQueued_spec slot.val j stCANCELLED s.tide
    have hx := State.drfCancel_queued hj h1 (ht.trans htag.symm) m.val
    exact ⟨(s.endQueued slot.val j stCANCELLED s.tide).answer true 0, ad, oct,
      (exec_drfCancel hr m slot tag).trans (by rw [hx]), hjob, hposts, s.endQueued_mem .., hrun, hprog⟩
  -- JOB_EXPIRED
  · obtain ⟨hjob, ⟨ad, oct, hposts⟩, hrun, -, hprog⟩ := s.endQueued_spec slot.val j stEXPIRED (s.lastStart j)
    exact ⟨_, ad, oct, exec_jobExpired hj h1 ht, hjob, hposts, s.endQueued_mem .., hrun, hprog⟩
  -- JOB_START
  · have hcores : s.expireJobs.cores = s.cores :=
      s.expireJobs_keep State.cores fun t n j st e => (t.endQueued_spec n j st e).cores
    refine ⟨_, exec_jobStart h hp hn, ?_⟩
    rcases s.expireJobs.startJob_advances n j with ⟨hc, hrun, hposts⟩ | ⟨st, hc, hrun, hposts⟩
    · exact ⟨hc.trans hcores, .inl ⟨hrun, hposts⟩⟩
    · exact ⟨hc.trans hcores, .inr ⟨st, hrun, hposts⟩⟩
  -- ITERATE_COMPLETE
  · obtain ⟨-, hidle, hposts⟩ := ((Engaged.self hj).of_bare (State.raise_bare ..)).endCut stMEMERR s.tide rfl
    refine ⟨_, exec_iterateComplete_failed hrun hj hlt, ?_⟩
    exact ⟨⟨hidle, hposts⟩, by rw [State.endCut_faultStatus]; exact s.raise_testBit .drf (by decide) _ _ _⟩
  · have h := Engaged.self hj
    have hadv : (s.iterate r).cores = s.cores ∧
        (running (s.iterate r) r.slot ∨ ∃ st, ended (s.iterate r) r.slot st) := by
      rcases h.iterate rfl with ⟨hc, hruns, -⟩ | ⟨st, hc, hidle, hposts⟩
      · exact ⟨hc, .inl hruns⟩
      · exact ⟨hc, .inr ⟨st, hidle, hposts⟩⟩
    refine ⟨_, exec_iterateComplete hrun hj hlt, hadv.1, hadv.2, fun ht hk hbad => ?_, fun ht hq hk => ?_⟩
    · obtain ⟨-, hidle, hposts⟩ := h.iterate_overflow ht hk hbad
      exact ⟨hidle, hposts⟩
    · obtain ⟨hruns, hzeros⟩ := h.iterate_zeros ht hq hk
      exact ⟨hruns.run, hzeros⟩
  -- DRF_CANCEL of the running job
  · have hx := State.drfCancel_running (hslot ▸ hj) h2 (ht.trans htag.symm) hrun hlt m.val
    obtain ⟨-, hidle, hposts⟩ := (Engaged.self hj).endCut stCANCELLED s.tide rfl
    exact ⟨(s.endCut r stCANCELLED s.tide).answer true 0, (exec_drfCancel hr m slot tag).trans (by rw [hx]),
      ⟨hidle, hposts⟩, s.endCut_mem ..⟩
  -- JOB_TIME_END
  · obtain ⟨-, hidle, hposts⟩ := (Engaged.self hj).endCut stDEADLINE (s.timeEnd j r) rfl
    exact ⟨_, exec_jobTimeEnd hrun hj hle, ⟨hidle, hposts⟩, s.endCut_mem .., s.endCut_progress _ _ hj⟩
  -- JOB_ABORTED
  · obtain ⟨t, ht, hmem, ⟨-, hidle, hposts⟩, hfaults⟩ := jobAborted_spec hrun hj why
    refine ⟨t, ht, hmem, ?_⟩
    cases why
    case overflow => exact ⟨hidle, hposts⟩
    all_goals exact ⟨⟨hidle, hposts⟩, hfaults ▸ s.raise_testBit .drf (by decide) _ _ _⟩

end Sys2Proof.Machine

/-! # Proofs: the Beacon's evaluations and tables (O44)

What the operations of an evaluation, of a fault event and of a copy leave of the Beacon's control and status words, of the
pass that runs and of the cores, and from that what each command of the evaluations, the tables and PASSTHRU leaves. -/

namespace Sys2Proof.Machine
open Sys2Proof.Safety

/-! ## The Beacon's words that the operations around it leave (R382 to R384, R423) -/

/-- The words of the Beacon's registers. -/
def BcnReg (x : Nat) : Prop := 0x600000 ≤ x ∧ x < 0x600800

/-- Those of them from BCN_CTRL to BCN_LDB_COUNT. -/
def BcnWord (x : Nat) : Prop := 0x600000 ≤ x ∧ x < 0x600030

theorem BcnReg.not_faultWord {x : Nat} (h : BcnReg x) : ¬ FaultWord .mem x := by
  simp only [BcnReg] at h
  simp only [FaultWord, FBlk.F, MEM_FS, MST_SRC_STATE_LEVEL]
  omega

theorem BcnWord.not_faultWord {x : Nat} (h : BcnWord x) : ¬ FaultWord .bcn x := by
  simp only [BcnWord] at h
  simp only [FaultWord, FBlk.F, BCN_FS, MST_SRC_STATE_LEVEL]
  omega

theorem BcnWord.reg {x : Nat} (h : BcnWord x) : BcnReg x := ⟨h.1, by have := h.2; omega⟩

theorem BcnWord.not_of_range {x : Nat} (h : x < 0x600000 ∨ 0x600030 ≤ x) : ¬ BcnWord x := fun hx => by
  simp only [BcnWord] at hx
  omega

/-- A source that fires writes none of the Beacon's registers. -/
theorem State.fireEdge_bcnRegs (s : State) (src : Nat) : SameWords BcnReg s (s.fireEdge src) := by
  have hcount : ¬ BcnReg (MST_SRC_STATE_COUNT.off + dSrc src) := by
    simp only [BcnReg, MST_SRC_STATE_COUNT]
    omega
  have hfault (x : Nat) (hx : BcnReg x) : ¬ FaultWord .mem x := hx.not_faultWord
  exact (((SameWords.refl s).p (by decide) hcount _).trans ((State.hostDeliver_faultKeeps .mem _ src).words.mono hfault)).trans
    ((State.releaseEvents_faultKeeps .mem _ src).words.mono hfault)

/-- What the Beacon's state holds of a pass, of its configuration and of the campaigns. -/
def BcnSt.kept (x : BcnSt) : Bool × Bool × BcnCfg × AMap BcnCamp := (x.run.isSome, x.first, x.cfg, x.camps)

/-- `t` has those words of `s`, that part of its Beacon, and its cores. -/
structure BcnKeeps (s t : State) : Prop where
  words : SameWords BcnWord s t
  kept : t.bcn.kept = s.bcn.kept
  cores : t.cores = s.cores

namespace BcnKeeps
variable {s t u : State}

theorem of_regs (hr : t.regs = s.regs) (hb : t.bcn.kept = s.bcn.kept) (hc : t.cores = s.cores) : BcnKeeps s t :=
  ⟨.of_regs hr, hb, hc⟩

theorem refl (s : State) : BcnKeeps s s := of_regs rfl rfl rfl

theorem trans (h : BcnKeeps s t) (h' : BcnKeeps t u) : BcnKeeps s u :=
  ⟨h.words.trans h'.words, h'.kept.trans h.kept, h'.cores.trans h.cores⟩

/-- An operation that writes registers, trace, quays, Logbook and reactions at most. -/
theorem of_bare (hw : SameWords BcnWord s t) (hb : t.bare = s.bare) : BcnKeeps s t :=
  ⟨hw, congrArg BcnSt.kept (State.bare_congr State.bcn (fun _ => rfl) hb), State.bare_cores hb⟩

theorem p (h : BcnKeeps s t) {f : Fld} {d : Nat} (hlo : f.lo < 32) (hw : f.off + d < 0x600000 ∨ 0x600030 ≤ f.off + d)
    (v : Nat) : BcnKeeps s (t.p f d v) :=
  ⟨h.words.p hlo (BcnWord.not_of_range hw) v, h.kept, h.cores⟩

theorem ite {c : Prop} [Decidable c] (ht : BcnKeeps s t) (hu : BcnKeeps s u) : BcnKeeps s (if c then t else u) := by
  split
  · exact ht
  · exact hu

theorem foldl {β : Type} {f : State → β → State} (hf : ∀ t x, BcnKeeps t (f t x)) (l : List β) (s : State) :
    BcnKeeps s (l.foldl f s) :=
  List.foldlRecOn (motive := BcnKeeps s) l f (refl s) fun t ht x _ => ht.trans (hf t x)

theorem foldl_snd {α β : Type} {f : α × State → β → α × State} (hf : ∀ p x, BcnKeeps p.2 (f p x).2) (l : List β)
    (p : α × State) : BcnKeeps p.2 (l.foldl f p).2 :=
  List.foldlRecOn (motive := fun r : α × State => BcnKeeps p.2 r.2) l f (refl p.2) fun r hr x _ => hr.trans (hf r x)

theorem running (h : BcnKeeps s t) : t.bcn.run.isSome = s.bcn.run.isSome := congrArg (·.1) h.kept
theorem first (h : BcnKeeps s t) : t.bcn.first = s.bcn.first := congrArg (·.2.1) h.kept
theorem camp (h : BcnKeeps s t) (c : Nat) : t.camp c = s.camp c := by
  have hcamps : t.bcn.camps = s.bcn.camps := congrArg (·.2.2.2) h.kept
  unfold State.camp
  rw [hcamps]

theorem on (h : BcnKeeps s t) {f : Fld} (hlo : f.lo < 32) (hw : BcnWord f.off) : t.on f = s.on f := h.words.on hlo hw

/-- Where the lantern records lie. -/
theorem lrec (h : BcnKeeps s t) (n : Nat) : t.lrec n = s.lrec n := by
  have hcfg : t.bcn.cfg = s.bcn.cfg := congrArg (·.2.2.1) h.kept
  have hbase : t.g BCN_LDB_BASE_ADDR = s.g BCN_LDB_BASE_ADDR := h.words.g _ 0 (by decide) (by simp [BcnWord, BCN_LDB_BASE_ADDR])
  have hon : t.on BCN_CTRL_ENABLE = s.on BCN_CTRL_ENABLE := h.on (by decide) (by simp [BcnWord, BCN_CTRL_ENABLE])
  unfold State.lrec State.ldb State.bcnCfg
  rw [hon, hcfg]
  split
  · rfl
  · exact congrArg (· + 256 * n) hbase

end BcnKeeps

section
variable (s : State)

/-! ### Memory, faults and fault events (R261, R268, R469) -/

theorem State.wbs_bcnKeeps (a : Nat) (l : List Byte) : BcnKeeps s (s.wbs a l) := by
  rw [State.wbs_eq]
  exact .of_regs rfl rfl rfl

theorem State.wle_bcnKeeps (a n v : Nat) : BcnKeeps s (s.wle a n v) := s.wbs_bcnKeeps _ _

theorem State.wput_bcnKeeps (w off size v : Nat) : BcnKeeps s (s.wput w off size v) := s.wbs_bcnKeeps _ _

theorem State.wbsEcc_bcnKeeps (a : Nat) (l : List Byte) : BcnKeeps s (s.wbsEcc a l) := by
  rw [State.wbsEcc_eq]
  exact .of_regs rfl rfl rfl

theorem State.lput_bcnKeeps (n off size v : Nat) : BcnKeeps s (s.lput n off size v) := by
  unfold State.lput
  extract_lets a t
  have ht : BcnKeeps s t := (s.wle_bcnKeeps _ _ _).trans (State.wbs_bcnKeeps _ _ _)
  clear_value t
  exact .ite ht (ht.trans (.of_regs rfl rfl rfl))

theorem State.lsetBit_bcnKeeps (n k : Nat) (b : Bool) : BcnKeeps s (s.lsetBit n k b) :=
  .ite (.refl s) (s.lput_bcnKeeps _ _ _ _)

theorem State.fireEdge_bcnKeeps (src : Nat) : BcnKeeps s (s.fireEdge src) :=
  .of_bare ((s.fireEdge_bcnRegs src).mono fun _ hx => hx.reg) (s.fireEdge_bare src)

theorem State.memUncorr_bcnKeeps (a master : Nat) : BcnKeeps s (s.memUncorr a master) :=
  .of_bare ((s.raise_faultKeeps .mem _ _ _).words.mono fun _ hx => hx.reg.not_faultWord) (s.raise_bare ..)

theorem State.raise_bcnKeeps (fbit : Nat) (acc : Option Access) (detail : Nat) :
    BcnKeeps s (s.raise .bcn fbit acc detail) :=
  .of_bare ((s.raise_faultKeeps .bcn fbit acc detail).words.mono fun _ hx => hx.not_faultWord) (s.raise_bare ..)

theorem State.bcnEcc_bcnKeeps (a : Nat) : BcnKeeps s (s.bcnEcc a) := s.raise_bcnKeeps _ _ _

theorem State.bcnDdrErr_bcnKeeps (a : Nat) : BcnKeeps s (s.bcnDdrErr a) :=
  (BcnKeeps.ite (s.memUncorr_bcnKeeps a 29) (.refl s)).trans (State.raise_bcnKeeps _ _ _ _)

theorem State.fevWrite_bcnKeeps (source old new : Nat) : BcnKeeps s (s.fevWrite source old new) := by
  unfold State.fevWrite
  extract_lets k h t used a written moved
  have hmoved : BcnKeeps s moved := (s.wbsEcc_bcnKeeps _ _).p (by decide) (by decide) _
  exact .ite ((BcnKeeps.refl s).p (by decide) (by decide) _) (.ite (hmoved.trans (State.fireEdge_bcnKeeps _ _)) hmoved)

theorem State.putFaults_bcnKeeps (n v : Nat) : BcnKeeps s (s.putFaults n v) :=
  .ite (.refl s) ((s.lput_bcnKeeps _ _ _ _).trans (State.fevWrite_bcnKeeps _ _ _ _))

theorem State.putUp_bcnKeeps (w : Nat) (b : Bool) : BcnKeeps s (s.putUp w b) :=
  .ite (.refl s) ((s.wput_bcnKeeps _ _ _ _).trans (State.fevWrite_bcnKeeps _ _ _ _))

/-! ### Frames (R251, R253 to R255, R258) -/

theorem State.bcnOffer_bcnKeeps (w path : Nat) (msgs : List Byte) : BcnKeeps s (s.bcnOffer w path msgs).2 := by
  have hitem (x : AdmState) : BcnKeeps s { s with adm := x } := .of_regs rfl rfl rfl
  have haccept : BcnKeeps s (s.acceptItem path).2 := by
    refine (hitem _).p (f := SYS_CTR_ACCEPTED_COUNT) (by decide) (.inl ?_) _
    simp only [SYS_CTR_ACCEPTED_COUNT, dPath]
    omega
  have hbuild (t : State) (p : Nat) (c : Carrier) (data : List Byte) : BcnKeeps t (t.buildFrame p c 0 data).2 := by
    unfold State.buildFrame
    split
    · exact .refl t
    · split
      · exact .of_regs rfl rfl rfl
      · exact .refl t
  have hqueue (t : State) (p : Nat) (f : TxFrame) : BcnKeeps t (t.queueFrame p f) := .of_regs rfl rfl rfl
  unfold State.bcnOffer
  dsimp only
  split
  · exact ((haccept.trans (hbuild _ _ _ _)).trans (hqueue _ _ _)).trans (State.wput_bcnKeeps _ _ _ _ _)
  · refine (BcnKeeps.refl s).p (f := SYS_CTR_REJECTED_COUNT) (by decide) (.inl ?_) _
    simp only [SYS_CTR_REJECTED_COUNT, dPath]
    omega

/-- The run of a pass that runs is replaced. -/
theorem BcnKeeps.setRun {s t u : State} (h : BcnKeeps s t) (ht : t.bcn.run.isSome = true) (hr : u.regs = t.regs)
    (hc : u.cores = t.cores) (hb : ∃ r, u.bcn = { t.bcn with run := some r }) : BcnKeeps s u := by
  obtain ⟨r, hb⟩ := hb
  refine h.trans (.of_regs hr ?_ hc)
  unfold BcnSt.kept
  rw [hb, ht]
  rfl

theorem State.closeFrame_bcnKeeps (w : Nat) : BcnKeeps s (s.closeFrame w) := by
  unfold State.closeFrame
  split
  · exact .refl s
  · next r hr =>
    split
    · exact .refl s
    · next f _ =>
      extract_lets x mark run _ _ t
      have hx : BcnKeeps s x.2 := by
        unfold x
        split
        · exact s.bcnOffer_bcnKeeps _ _ _
        · exact .refl s
      have ht : BcnKeeps s t := hx.setRun (by rw [hx.running, hr]; rfl) rfl rfl ⟨_, rfl⟩
      clear_value t
      have hsent : BcnKeeps s (f.lanterns.foldl (fun s y => s.lput y.1 oARCSENT 1 y.2) t) :=
        ht.trans (BcnKeeps.foldl (fun u y => u.lput_bcnKeeps _ _ _ _) _ t)
      refine .ite (.ite (BcnKeeps.p ?_ (by decide) (by decide) _) hsent) ht
      exact hsent.trans (.of_regs rfl rfl rfl)

theorem State.addMsg_bcnKeeps (w : Nat) (msg : List Byte) (f : BcnFrame → BcnFrame) : BcnKeeps s (s.addMsg w msg f) := by
  unfold State.addMsg
  extract_lets full t
  have ht : BcnKeeps s t := .ite (s.closeFrame_bcnKeeps w) (.refl s)
  clear_value t
  split
  · exact ht
  · next r hr => exact ht.setRun (by rw [hr]; rfl) rfl rfl ⟨_, rfl⟩

theorem State.followGroup_bcnKeeps (w key n arc : Nat) : BcnKeeps s (s.followGroup w key n arc) := by
  unfold State.followGroup
  split
  · exact .refl s
  · next r hr => exact .ite (s.lput_bcnKeeps _ _ _ _) (.ite ((BcnKeeps.refl s).setRun (by rw [hr]; rfl) rfl rfl ⟨_, rfl⟩) (.refl s))

theorem State.openPassthru_bcnKeeps : BcnKeeps s s.openPassthru := by
  unfold State.openPassthru
  split
  · split
    · split
      · next r hr => exact (BcnKeeps.refl s).setRun (by rw [hr]; rfl) rfl rfl ⟨_, rfl⟩
      · exact .refl s
    · exact .refl s
  · exact .refl s

/-! ### The phases of an evaluation (R245, R247 to R249) -/

theorem State.eventMinute_bcnKeeps (n : Nat) (off : Int) (t : Option Int) : BcnKeeps s (s.eventMinute n off t).2 := by
  have hdraw : BcnKeeps s s.draw.2 := .of_regs rfl rfl rfl
  unfold State.eventMinute
  split
  · exact .refl s
  · dsimp only
    split
    · exact hdraw
    · split
      · exact hdraw
      · exact .refl s

theorem State.solar_bcnKeeps : BcnKeeps s s.solar := by
  have hevents (n : Nat) (off : Int) (l : List (Option Int)) : BcnKeeps s
      (l.foldl (fun (acc : List (Option Nat) × State) t =>
        let m := acc.2.eventMinute n off t
        (acc.1 ++ [m.1], m.2)) ([], s)).2 := by
    refine BcnKeeps.foldl_snd (fun p t => ?_) l ([], s)
    exact p.2.eventMinute_bcnKeeps n off t
  unfold State.solar
  extract_lets c n lat lon off key yesterday x t _ u
  have hu : BcnKeeps s u := (hevents n (toSigned 12 off) _).trans (.of_regs rfl rfl rfl)
  clear_value u
  refine .ite (.refl s) (hu.trans (BcnKeeps.foldl (fun v k => ?_) _ u))
  exact ((BcnKeeps.refl v).p (by decide) (.inr (by simp only [BCN_SOLAR_EVT_VALID]; omega)) _).p (by decide)
    (.inr (by simp only [BCN_SOLAR_EVT_MINUTE]; omega)) _

theorem State.zonePhase_bcnKeeps (bank now : Nat) (prev : Option Nat) (z : Nat) :
    BcnKeeps s (s.zonePhase bank now prev z) := by
  unfold State.zonePhase
  dsimp only
  split
  · exact s.bcnEcc_bcnKeeps _
  · exact (((s.wle_bcnKeeps _ _ _).trans (State.wle_bcnKeeps _ _ _ _)).trans (State.wle_bcnKeeps _ _ _ _)).trans
      (State.wle_bcnKeeps _ _ _ _)

theorem State.groupEval_bcnKeeps (bank now : Nat) (force : Bool) (g : Nat) :
    BcnKeeps s (s.groupEval bank now force g) := by
  unfold State.groupEval
  extract_lets c d o dem fade arc sent t
  have ht : BcnKeeps s t := (s.wle_bcnKeeps _ _ _).trans (State.wle_bcnKeeps _ _ _ _)
  clear_value t
  split
  · exact ht
  · next r hr => exact ht.setRun (by rw [hr]; rfl) rfl rfl ⟨_, rfl⟩

theorem State.groupPhase_bcnKeeps (bank now : Nat) (force : Bool) (g : Nat) :
    BcnKeeps s (s.groupPhase bank now force g) := by
  unfold State.groupPhase
  dsimp only
  split
  · exact s.bcnEcc_bcnKeeps _
  · exact .ite (s.groupEval_bcnKeeps _ _ _ _) (.refl s)

theorem State.readConfigs_bcnKeeps (bad : List Nat) : BcnKeeps s (s.readConfigs bad) := by
  unfold State.readConfigs
  extract_lets ns torn keep fresh conf cleared holder mapped unclashed clashed
  have h1 : BcnKeeps s torn := BcnKeeps.foldl (fun t n => t.lsetBit_bcnKeeps _ _ _) _ s
  have h2 : BcnKeeps torn cleared := BcnKeeps.foldl (fun t x => t.wle_bcnKeeps _ _ _) _ torn
  have h3 : BcnKeeps cleared mapped := BcnKeeps.foldl (fun t x => t.wle_bcnKeeps _ _ _) _ cleared
  have h4 : BcnKeeps mapped unclashed := BcnKeeps.foldl (fun t n => .ite (.refl t) (t.lsetBit_bcnKeeps _ _ _)) _ mapped
  have h5 : BcnKeeps unclashed clashed := BcnKeeps.foldl (fun t x => t.lsetBit_bcnKeeps _ _ _) _ unclashed
  exact ((((h1.trans h2).trans h3).trans h4).trans h5).trans (.of_regs rfl rfl rfl)

/-- A GROUP_SET that is due is queued and marked. -/
theorem State.visit_bcnKeeps (bank now n : Nat) : BcnKeeps s (s.visit bank now n) := by
  unfold State.visit
  extract_lets c t
  have ht : BcnKeeps s t := .ite (s.putFaults_bcnKeeps _ _) (.refl s)
  clear_value t
  refine .ite ?_ (.refl s)
  split
  · exact ht
  · extract_lets gr x al v _ queued fate followed expected
    have hqueued : BcnKeeps s queued := by
      unfold queued
      split
      · have hv : BcnKeeps s v := ht.trans (State.addMsg_bcnKeeps _ _ _ _)
        clear_value v
        split
        · next hr => exact hv.setRun (by rw [hr]; rfl) rfl rfl ⟨_, rfl⟩
        · exact hv
      · exact ht
    clear_value queued
    have hfollowed : BcnKeeps s followed := hqueued.trans (State.followGroup_bcnKeeps _ _ _ _ _)
    clear_value followed
    exact .ite (.ite hfollowed (.ite (hfollowed.trans (State.addMsg_bcnKeeps _ _ _ _)) hfollowed)) ht

/-! ### A copy of stream 7 (R411, R412) -/

theorem State.cutCopy_bcnKeeps (i : Nat) : BcnKeeps s (s.cutCopy i) := by
  have hchain (v : Nat) : BcnKeeps s (s.p PAIR_STREAM_STATUS_CHAIN (dStream i) v) :=
    (BcnKeeps.refl s).p (by decide) (.inr (by simp only [PAIR_STREAM_STATUS_CHAIN]; omega)) v
  unfold State.cutCopy
  dsimp only
  split
  · exact .refl s
  · refine (hchain 0).trans ?_
    split
    · exact .of_regs rfl rfl rfl
    · exact .of_regs rfl rfl rfl

theorem State.sendCopy_bcnKeeps (i : Nat) (recs : List (Nat × List Byte)) (gen digest : Nat) (lines : List Nat)
    (full : Bool) (sweep : Nat) : BcnKeeps s (s.sendCopy i recs gen digest lines full sweep) := by
  have hp (t : State) (f : Fld) (hf : f.lo < 32 ∧ 0x600030 ≤ f.off) (v : Nat) : BcnKeeps t (t.p f (dStream i) v) :=
    (BcnKeeps.refl t).p hf.1 (.inr (by omega)) v
  unfold State.sendCopy
  extract_lets d numbered last msgs size chain start shown counted
  have hcounted : BcnKeeps s counted :=
    (((hp s PAIR_STREAM_SEQ_SEQ (by decide) _).trans (hp _ PAIR_STREAM_LAST_OCTETS (by decide) _)).trans
      (hp _ PAIR_STREAM_STATUS_CHAIN (by decide) _)).trans (.ite (hp _ PAIR_STREAM_COUNT_CHAINS (by decide) _) (.refl _))
  clear_value counted
  exact hcounted.trans (.of_regs rfl rfl rfl)

theorem State.bcnCopyPoint_bcnKeeps : BcnKeeps s s.bcnCopyPoint := by
  have hnoted (t : State) (l : List Nat) (k : Nat) :
      BcnKeeps t { t with bcn := { t.bcn with changed := l }, pair := { t.pair with sweep := k } } := .of_regs rfl rfl rfl
  unfold State.bcnCopyPoint
  split
  · extract_lets cut base room count ch n sweep recs sent
    have hsent : BcnKeeps s sent := (s.cutCopy_bcnKeeps 7).trans (State.sendCopy_bcnKeeps _ _ _ _ _ _ _ _)
    clear_value sent
    exact hsent.trans (hnoted _ _ _)
  · exact .refl s

end

/-! ## EVALUATION_START (R246, R247, R251, R260, R268) -/

section
variable {s : State} {errs : List (Fin 262144)}

theorem exec_evaluationStart_idle (h : ¬ s.atInstant 255 (1000000 * s.g BCN_CFG_EVAL_PERIOD_MS) 0 = true) :
    exec (.evaluationStart errs) s = .next s :=
  congrArg Host.Outcome.next (if_neg (by simp [h]))

variable (hdue : s.atInstant 255 (1000000 * s.g BCN_CFG_EVAL_PERIOD_MS) 0 = true) (hon : s.on BCN_CTRL_ENABLE = true)
  (hwait : s.pair.bcnWait = false)
include hdue hon hwait

/-- While a pass runs, the evaluation is skipped. -/
theorem exec_evaluationStart_skipped (hrun : s.bcn.run.isSome = true) : exec (.evaluationStart errs) s =
    .next (((s.takeInstant 255).incSat BCN_EVALS_SKIPPED 0).raise .bcn BCN_EVAL_OVERRUN none 0) :=
  congrArg Host.Outcome.next ((if_pos (by simp [hdue, hon, hwait])).trans (if_pos hrun))

/-- Else a pass begins, and runs until BCN_PASS_END. -/
theorem exec_evaluationStart_runs (hrun : s.bcn.run = none) : ∃ t, exec (.evaluationStart errs) s = .next t ∧
    t.bcn.run.isSome = true ∧ t.on BCN_STATUS_PASS = true ∧ t.cores = s.cores := by
  show ∃ t, execEvaluationStart errs s = .next t ∧ _
  unfold execEvaluationStart
  rw [if_pos (by simp [hdue, hon, hwait])]
  extract_lets taken now bank _ configured count bad prev refresh force _ _ cleared unsent begun r _ running shown solar zones
    groups faults ddr read torn opened
  rw [if_neg (by simp [taken, State.takeInstant, hrun])]
  have hbegun : begun.cores = s.cores := by
    have hcleared : cleared.cores = s.cores := rfl
    have hunsent : unsent.cores = s.cores :=
      (BcnKeeps.foldl (fun t g => t.wle_bcnKeeps _ _ _) _ cleared).cores.trans hcleared
    clear_value unsent
    unfold begun
    split
    · exact (BcnKeeps.foldl (fun t n => t.lput_bcnKeeps _ _ _ _) _ unsent).cores.trans hunsent
    · rfl
  have hrunning : running.bcn.run.isSome = true ∧ running.cores = s.cores := ⟨rfl, hbegun⟩
  clear_value running
  have hshown : shown.on BCN_STATUS_PASS = true :=
    (State.on_p_ne _ _ _ _ _ _ (by decide)).trans (State.on_p_one _ _ _ (by decide))
  have hshownKept : shown.bcn = running.bcn ∧ shown.cores = running.cores := ⟨rfl, rfl⟩
  clear_value shown
  have hzones : BcnKeeps shown zones :=
    shown.solar_bcnKeeps.trans (BcnKeeps.foldl (fun t z => t.zonePhase_bcnKeeps _ _ _ z) _ solar)
  clear_value zones
  have hgroups : BcnKeeps zones groups := BcnKeeps.foldl (fun t g => t.groupPhase_bcnKeeps _ _ _ g) _ zones
  clear_value groups
  have hddr : BcnKeeps groups ddr := (BcnKeeps.foldl State.bcnEcc_bcnKeeps _ groups).trans
    (BcnKeeps.foldl (fun t n => t.bcnDdrErr_bcnKeeps _) _ faults)
  clear_value ddr
  have hopened : BcnKeeps ddr opened :=
    ((ddr.readConfigs_bcnKeeps bad).p (by decide) (by decide) _).trans (State.openPassthru_bcnKeeps _)
  clear_value opened
  have hvisited : BcnKeeps opened
      ((List.range count).foldl (fun s n => if bad.contains n then s else s.visit bank now n) opened) :=
    BcnKeeps.foldl (fun t n => .ite (.refl t) (t.visit_bcnKeeps bank now n)) _ opened
  have hpass := (((hzones.trans hgroups).trans hddr).trans hopened).trans hvisited
  refine ⟨_, rfl, ?_, ?_, ?_⟩
  · rw [hpass.running, hshownKept.1]
    exact hrunning.1
  · exact (hpass.on (by decide) (by simp [BcnWord, BCN_STATUS_PASS])).trans hshown
  · rw [hpass.cores, hshownKept.2]
    exact hrunning.2

end

/-! ## BCN_PASS_END (R246, R251, R411) -/

/-- What BCN_STATUS and BCN_PASS_LAST_NS show of the pass that has ended, and no evaluation runs. -/
def State.passEnded (s : State) (ns : Nat) : State :=
  let t := ((s.p BCN_STATUS_PASS 0 0).p BCN_STATUS_FIRST_DONE 0 1).p BCN_PASS_LAST_NS 0 ns
  { t with bcn := { t.bcn with run := none, first := false } }

theorem State.passEnded_spec (s : State) (ns : Nat) : (s.passEnded ns).bcn.run = none ∧
    (s.passEnded ns).bcn.first = false ∧ (s.passEnded ns).on BCN_STATUS_PASS = false ∧
    (s.passEnded ns).on BCN_STATUS_FIRST_DONE = true ∧ (s.passEnded ns).cores = s.cores := by
  unfold State.passEnded
  extract_lets t
  have hregs : ({ t with bcn := { t.bcn with run := none, first := false } } : State).regs = t.regs := rfl
  refine ⟨rfl, rfl, ?_, ?_, ?_⟩
  · unfold State.on
    rw [State.g_congr hregs, State.g_p_ne _ _ _ _ _ _ (by decide), State.g_p_ne _ _ _ _ _ _ (by decide), State.g_p_same]
    rfl
  · unfold State.on
    rw [State.g_congr hregs, State.g_p_ne _ _ _ _ _ _ (by decide), State.g_p_same]
    rfl
  · show t.cores = s.cores
    rw [State.p_cores, State.p_cores, State.p_cores]

/-- The pass that ends leaves FIRST_DONE, and no evaluation running. -/
theorem exec_bcnPassEnd {s : State} (hrun : s.bcn.run.isSome = true) : ∃ t, exec .bcnPassEnd s = .next t ∧
    t.bcn.run = none ∧ t.bcn.first = false ∧ t.on BCN_STATUS_PASS = false ∧ t.on BCN_STATUS_FIRST_DONE = true ∧
    t.cores = s.cores := by
  show ∃ t, execBcnPassEnd s = .next t ∧ _
  unfold execBcnPassEnd
  split
  · next h => rw [h] at hrun; cases hrun
  · next r _ =>
    extract_lets closed sent arcs all on mask members faulty faults counted counts done timed _ ended
    have hclosed : BcnKeeps s closed := BcnKeeps.foldl (fun t w => t.closeFrame_bcnKeeps w) _ s
    have harcs : BcnKeeps closed arcs := by
      refine BcnKeeps.foldl (fun t x => ?_) _ closed
      split
      · exact .ite (t.wle_bcnKeeps _ _ _) (.refl t)
      · exact .refl t
    clear_value arcs
    have hcounted : BcnKeeps arcs counted :=
      BcnKeeps.foldl (fun t g => (t.wle_bcnKeeps _ _ _).trans (State.wle_bcnKeeps _ _ _ _)) _ arcs
    clear_value counted
    have hcounts : BcnKeeps counted counts := BcnKeeps.foldl (fun t b =>
      (BcnKeeps.refl t).p (by decide) (.inr (by simp only [BCN_FAULT_COUNT_LANTERNS]; omega)) _) _ counted
    clear_value counts
    have hcores : counts.cores = s.cores := (((hclosed.trans harcs).trans hcounted).trans hcounts).cores
    obtain ⟨hrun, hfirst, hpass, hdone, hended⟩ := counts.passEnded_spec ((done.tide - r.at_) / 65536)
    have hshape : ended = counts.passEnded ((done.tide - r.at_) / 65536) := rfl
    rw [← hshape] at hrun hfirst hpass hdone hended
    clear_value ended
    have hcopied := (ended.fireEdge_bcnKeeps srcBcnPass).trans (State.bcnCopyPoint_bcnKeeps _)
    refine ⟨_, rfl, ?_, hcopied.first.trans hfirst, (hcopied.on (by decide) (by simp [BcnWord, BCN_STATUS_PASS])).trans hpass,
      (hcopied.on (by decide) (by simp [BcnWord, BCN_STATUS_FIRST_DONE])).trans hdone,
      hcopied.cores.trans (hended.trans hcores)⟩
    rw [← Option.isNone_iff_eq_none, ← Option.not_isSome, hcopied.running, hrun]
    rfl

/-! ## Profile banks (R242, R243, R268, R469) -/

section
variable {s : State} (hr : s.inReset = false)
include hr

theorem exec_bcnRebuild : exec .bcnRebuild s = .next (s.bcnRebuild.answer true 0) :=
  congrArg Host.Outcome.next (State.command_of_inReset hr _)

theorem exec_bcnBankSwap (b : Fin 2) : exec (.bcnBankSwap b) s = .next ((s.bcnSwap b.val).answer true 0) :=
  congrArg Host.Outcome.next (State.command_of_inReset hr _)

theorem exec_passthruSend (w : Fin 1024) (len : Fin 2048) :
    exec (.passthruSend w len) s = .next ((s.passthru w.val len.val).answer true 0) :=
  congrArg Host.Outcome.next (State.command_of_inReset hr _)

end

section
variable {s : State}

theorem State.bcnSwap_of_notReady {b : Nat} (hb : s.g BCN_PROF_CTRL_ACTIVE_BANK ≠ b) (hs : s.g BCN_PROF_CTRL_SHADOW ≠ 2) :
    s.bcnSwap b = s.p BCN_PROF_CTRL_REFUSAL 0 0x405 := (if_neg hb).trans (if_pos hs)

theorem State.bcnSwap_of_ready {b : Nat} (hb : s.g BCN_PROF_CTRL_ACTIVE_BANK ≠ b) (hs : s.g BCN_PROF_CTRL_SHADOW = 2) :
    s.bcnSwap b = (s.p BCN_PROF_CTRL_ACTIVE_BANK 0 b).p BCN_PROF_CTRL_ACTIVE_EMPTY 0 (bit (!s.bcn.filled.contains b)) :=
  (if_neg hb).trans (if_neg (not_not_intro hs))

/-- The named bank is active, and empty where no rebuild has filled it. -/
theorem State.bcnSwap_swaps {b : Fin 2} (hb : s.g BCN_PROF_CTRL_ACTIVE_BANK ≠ b.val) (hs : s.g BCN_PROF_CTRL_SHADOW = 2) :
    (s.bcnSwap b.val).g BCN_PROF_CTRL_ACTIVE_BANK = b.val ∧
      (s.bcnSwap b.val).on BCN_PROF_CTRL_ACTIVE_EMPTY = !s.bcn.filled.contains b.val ∧
      (s.bcnSwap b.val).cores = s.cores := by
  rw [State.bcnSwap_of_ready hb hs]
  refine ⟨?_, State.on_p_bit _ _ (by decide) _, by rw [State.p_cores, State.p_cores]⟩
  rw [State.g_p_other _ (by decide), State.g_p_same]
  exact Nat.mod_eq_of_lt b.isLt

/-- Where an uncorrectable error stands among words of eight bytes, one of them has it. -/
theorem State.eccUncorr_word {a n : Nat} (hn : 0 < n) (h : s.eccUncorr a (8 * n) = true) : ∃ i < n, s.eccUncorr (a + 8 * i) 8 = true := by
  obtain ⟨x, hx, hmeets⟩ := List.any_eq_true.1 h
  cases x with
  | word w =>
    obtain ⟨hw, ha⟩ : w < a + 8 * n ∧ a < w + s.eccWord w := by simpa [State.eccMeets] using hmeets
    have hword : 0 < s.eccWord w := by
      unfold State.eccWord
      split <;> decide
    refine ⟨(w - a) / 8, by omega, List.any_eq_true.2 ⟨_, hx, ?_⟩⟩
    simp only [State.eccMeets, Bool.and_eq_true, decide_eq_true_eq]
    omega
  | _ => cases hmeets

theorem State.profLost_of_uncorr {a : Nat} (h : s.eccUncorr a profBytes = true) : ∃ o, s.profLost a = some o := by
  obtain ⟨i, hi, hword⟩ := State.eccUncorr_word (n := profBytes / 8) (by decide) h
  have hfound : ((List.range (profBytes / 8)).find? fun i => s.eccUncorr (a + 8 * i) 8).isSome = true :=
    List.find?_isSome.2 ⟨i, List.mem_range.2 hi, hword⟩
  obtain ⟨j, hj⟩ := Option.isSome_iff_exists.1 hfound
  exact ⟨8 * j, by rw [State.profLost, if_pos h, hj]; rfl⟩

theorem State.profLost_of_readable {a : Nat} (h : s.eccUncorr a profBytes = false) : s.profLost a = none :=
  if_neg (by simp [h])

/-- A source is validated from the memories alone. -/
theorem State.profFault_congr {t : State} (h : t.mem = s.mem) (a : Nat) : t.profFault a = s.profFault a := by
  have hrbs : t.rbs = s.rbs := funext fun a => funext fun n => State.rbs_congr h n a
  have hrle : t.rle = s.rle := funext fun a => funext fun n => congrArg leNat (State.rbs_congr h n a)
  unfold State.profFault State.progSteps State.mapPairs
  rw [hrbs, hrle]

theorem exec_bcnRebuildEnd {e : Option (Fin 75272)} (h : s.g BCN_PROF_CTRL_SHADOW = 1) :
    exec (.bcnRebuildEnd e) s = .next (s.bcnRebuildEnd (e.map (·.val))) := congrArg Host.Outcome.next (if_pos h)

/-- A rebuild has failed at an offset. -/
structure RebuildFailed (s t : State) (o : Nat) : Prop where
  shadow : t.g BCN_PROF_CTRL_SHADOW = 3
  offset : t.g BCN_PROF_FAIL_OFFSET = o % 2 ^ BCN_PROF_FAIL_OFFSET.w
  mem : t.mem = s.mem

theorem RebuildFailed.of {u : State} (h : u.mem = s.mem) (o : Nat) :
    RebuildFailed s ((u.p BCN_PROF_CTRL_SHADOW 0 3).p BCN_PROF_FAIL_OFFSET 0 o) o where
  shadow := (State.g_p_ne _ _ _ _ _ _ (by decide)).trans (State.g_p_same _ _ _ _)
  offset := State.g_p_same _ _ _ _
  mem := h

/-- A read error, or a word that cannot be corrected: the rebuild fails there, with the fault. -/
theorem State.bcnRebuildEnd_of_error {e : Option Nat} {o : Nat}
    (h : e.or (s.profLost (s.g BCN_PROF_SRC_ADDR)) = some o) : RebuildFailed s (s.bcnRebuildEnd e) o ∧
      ((s.bcnRebuildEnd e).faultStatus .bcn).testBit BCN_REBUILD_ERR = true := by
  unfold State.bcnRebuildEnd
  extract_lets a fail lost read
  have hread : read.mem = s.mem := by
    rw [State.eccSeen_mem]
    generalize lost = l
    cases l with
    | none => rfl
    | some o => exact s.memUncorr_mem _ _
  clear_value read
  rw [h]
  refine ⟨RebuildFailed.of ((State.raise_mem ..).trans hread) o, ?_⟩
  show ((((read.raise _ _ _ _).p _ _ _).p _ _ _).faultStatus .bcn).testBit _ = true
  rw [State.p_faultStatus _ (by decide) (by decide), State.p_faultStatus _ (by decide) (by decide)]
  exact read.raise_testBit .bcn (by decide) _ _ _

section
variable (he : s.eccUncorr (s.g BCN_PROF_SRC_ADDR) profBytes = false)
include he

/-- A source that was read is checked; its first fault fails the rebuild. -/
theorem State.bcnRebuildEnd_of_fault {o : Nat} (hf : s.profFault (s.g BCN_PROF_SRC_ADDR) = some o) :
    RebuildFailed s (s.bcnRebuildEnd none) o := by
  unfold State.bcnRebuildEnd
  extract_lets a fail lost read
  have hlost : lost = none := State.profLost_of_readable he
  clear_value lost
  subst hlost
  have hread : read.mem = s.mem := s.eccSeen_mem _ _
  clear_value read
  have hfault : read.profFault a = some o := (State.profFault_congr hread a).trans hf
  show RebuildFailed s (match read.profFault a with | some o => _ | none => _) o
  rw [hfault]
  exact RebuildFailed.of hread o

end

theorem State.wbsEcc_mem (s : State) (k : Nat) (l : List Byte) : (s.wbsEcc k l).mem = (s.wbs k l).mem :=
  State.eccWritten_mem _ _ _

/-- What the Beacon's own state holds is no byte of memory. -/
theorem State.mem_setBcn (s : State) (x : BcnSt) : ({ s with bcn := x } : State).mem = s.mem := (rfl)

/-- Bytes read and written elsewhere are the same there, and no other byte changes. -/
theorem State.copied_of_wbs {s t u : State} {a b n : Nat} (hu : u.mem = s.mem) (ht : t.mem = (u.wbs b (u.rbs a n)).mem) :
    t.rbs b n = s.rbs a n ∧ sameBytesBut b n s t := by
  have hsame := State.rbs_wbs_same (u.rbs a n) u b
  have hbut := sameBytesBut_wbs u b (u.rbs a n)
  rw [State.length_rbs] at hsame hbut
  exact ⟨by rw [State.rbs_congr ht, hsame, State.rbs_congr hu], fun x hx => by
    rw [State.rb_congr ht, hbut x hx, State.rb_congr hu]⟩

/-- A source that passes is copied into the shadow bank, which is ready. -/
theorem State.bcnRebuildEnd_of_passing (he : s.eccUncorr (s.g BCN_PROF_SRC_ADDR) profBytes = false)
    (hf : s.profFault (s.g BCN_PROF_SRC_ADDR) = none) : (s.bcnRebuildEnd none).g BCN_PROF_CTRL_SHADOW = 2 ∧
      ∃ u : State, u.mem = s.mem ∧ (s.bcnRebuildEnd none).mem =
        (u.wbs (bcnBank (1 - s.g BCN_PROF_CTRL_ACTIVE_BANK)) (u.rbs (s.g BCN_PROF_SRC_ADDR) profBytes)).mem := by
  have hlost : s.profLost (s.g BCN_PROF_SRC_ADDR) = none := State.profLost_of_readable he
  unfold State.bcnRebuildEnd
  -- The number of octets stays a variable, so that no reduction counts through them.
  generalize profBytes = n
  extract_lets a fail lost read b written
  have hnone : lost = none := hlost
  have hread : read.mem = s.mem := by
    unfold read
    rw [State.eccSeen_mem, hnone]
  have hactive : read.g BCN_PROF_CTRL_ACTIVE_BANK = s.g BCN_PROF_CTRL_ACTIVE_BANK := by
    unfold read
    rw [hnone]
    exact (s.eccSeen_sameWords _ _).g _ 0 (by decide) (by decide)
  have hfault : read.profFault a = none := (State.profFault_congr hread a).trans hf
  have hb : b = 1 - s.g BCN_PROF_CTRL_ACTIVE_BANK := congrArg (1 - ·) hactive
  have hwritten : written.mem = (read.wbs (bcnBank b) (read.rbs a n)).mem := read.wbsEcc_mem _ _
  clear_value written b read lost
  rw [hnone]
  dsimp only [Option.or]
  rw [hfault]
  dsimp only
  refine ⟨State.g_p_same _ _ _ _, read, hread, ?_⟩
  rw [State.mem_p, State.mem_setBcn, hwritten, hb]

theorem State.bcnRebuildEnd_fills (he : s.eccUncorr (s.g BCN_PROF_SRC_ADDR) profBytes = false)
    (hf : s.profFault (s.g BCN_PROF_SRC_ADDR) = none) :
    let bank := bcnBank (1 - s.g BCN_PROF_CTRL_ACTIVE_BANK)
    (s.bcnRebuildEnd none).g BCN_PROF_CTRL_SHADOW = 2 ∧
      (s.bcnRebuildEnd none).rbs bank profBytes = s.rbs (s.g BCN_PROF_SRC_ADDR) profBytes ∧
      sameBytesBut bank profBytes s (s.bcnRebuildEnd none) := by
  obtain ⟨hshadow, u, hu, hmem⟩ := State.bcnRebuildEnd_of_passing he hf
  exact ⟨hshadow, State.copied_of_wbs hu hmem⟩

end

/-! ## PASSTHRU_SEND (R258) -/

section
variable (s : State) (w len : Nat) (l : List Byte)

/-- The gateway and the length of a write that is taken. -/
def State.ptNoted : State := (s.p BCN_PT_CMD_GATEWAY 0 w).p BCN_PT_CMD_LENGTH 0 len

/-- Octets wait for a gateway's next frame. -/
def State.ptHeld : State := { s with bcn := { s.bcn with pt := some (w, l) } }.p BCN_PT_CMD_BUSY 0 1

theorem State.passthru_of_idle (h : s.on BCN_PT_CMD_BUSY = false) : s.passthru w len =
    let t := s.ptNoted w len
    let a := t.g BCN_PT_SRC_ADDR
    if 1 ≤ len ∧ len ≤ 1024 ∧ inSram a len = true then t.ptHeld w (t.rbs a len) else t := if_neg (by simp [h])

theorem State.g_ptHeld {f : Fld} (hf : BCN_PT_CMD_BUSY.key 0 ≠ f.key 0) : (s.ptHeld w l).g f = s.g f := by
  unfold State.ptHeld
  rw [State.g_p_ne _ _ _ _ _ _ hf]
  exact State.g_congr rfl _ _

theorem State.ptHeld_spec :
    (s.ptHeld w l).on BCN_PT_CMD_BUSY = true ∧ (s.ptHeld w l).bcn.pt = some (w, l) ∧
      (s.ptHeld w l).mem = s.mem ∧ (s.ptHeld w l).cores = s.cores :=
  ⟨State.on_p_one _ _ _ (by decide), rfl, State.p_mem _ _ _ _, State.p_cores _ _ _ _⟩

variable {w len}

theorem State.ptNoted_spec (hw : w < 1024) (hlen : len < 2048) : (s.ptNoted w len).g BCN_PT_CMD_GATEWAY = w ∧
    (s.ptNoted w len).g BCN_PT_CMD_LENGTH = len ∧ (s.ptNoted w len).cores = s.cores ∧
    (s.ptNoted w len).g BCN_PT_SRC_ADDR = s.g BCN_PT_SRC_ADDR ∧ (s.ptNoted w len).mem = s.mem := by
  unfold State.ptNoted
  refine ⟨?_, ?_, by rw [State.p_cores, State.p_cores], ?_, by rw [State.p_mem, State.p_mem]⟩
  · rw [State.g_p_ne _ _ _ _ _ _ (by decide), State.g_p_same]
    exact Nat.mod_eq_of_lt hw
  · rw [State.g_p_same]
    exact Nat.mod_eq_of_lt hlen
  · rw [State.g_p_ne _ _ _ _ _ _ (by decide), State.g_p_ne _ _ _ _ _ _ (by decide)]

/-- GATEWAY and LENGTH take the values written, and a length in range holds the octets, with BUSY 1. -/
theorem State.passthru_spec (h : s.on BCN_PT_CMD_BUSY = false) (hw : w < 1024) (hlen : len < 2048) :
    (s.passthru w len).g BCN_PT_CMD_GATEWAY = w ∧ (s.passthru w len).g BCN_PT_CMD_LENGTH = len ∧
      (s.passthru w len).mem = s.mem ∧ (s.passthru w len).cores = s.cores ∧
      (1 ≤ len → len ≤ 1024 → inSram (s.g BCN_PT_SRC_ADDR) len = true → (s.passthru w len).on BCN_PT_CMD_BUSY = true ∧
        (s.passthru w len).bcn.pt = some (w, s.rbs (s.g BCN_PT_SRC_ADDR) len)) := by
  obtain ⟨hgw, hln, hcores, hsrc, hmem⟩ := s.ptNoted_spec hw hlen
  rw [s.passthru_of_idle w len h]
  dsimp only
  rw [hsrc, State.rbs_congr hmem]
  split
  · obtain ⟨hbusy, hpt, hheldMem, hheld⟩ := (s.ptNoted w len).ptHeld_spec w (s.rbs (s.g BCN_PT_SRC_ADDR) len)
    exact ⟨(State.g_ptHeld _ _ _ (by decide)).trans hgw, (State.g_ptHeld _ _ _ (by decide)).trans hln,
      hheldMem.trans hmem, hheld.trans hcores, fun _ _ _ => ⟨hbusy, hpt⟩⟩
  · next hout => exact ⟨hgw, hln, hmem, hcores, fun h1 h2 h3 => absurd ⟨h1, h2, h3⟩ hout⟩

end

/-! ## Fault events and GATEWAY_SILENT (R260, R261) -/

/-- A number is read from its bytes alone. -/
theorem State.rle_of_sameBytes {keys : Nat → Prop} {s t : State} (h : sameBytes keys s t) {a n : Nat}
    (hk : ∀ i < n, keys (a + i)) : t.rle a n = s.rle a n := by
  suffices hrbs : t.rbs a n = s.rbs a n from congrArg leNat hrbs
  induction n generalizing a with
  | zero => rfl
  | succ n ih =>
    have hrest : t.rbs (a + 1) n = s.rbs (a + 1) n := ih fun i hi => by
      rw [Nat.add_assoc, Nat.add_comm 1]
      exact hk (i + 1) (by omega)
    simp only [State.rbs, hrest, h a (hk 0 (by omega))]

theorem sameBytes.trans {keys : Nat → Prop} {s t u : State} (h : sameBytes keys s t) (h' : sameBytes keys t u) :
    sameBytes keys s u := fun a ha => (h' a ha).trans (h a ha)

section
variable (s : State) (hk : s.g BCN_FEV_CFG_LOG2_SIZE ≤ 16) (hb : s.g BCN_FEV_BASE_ADDR + 2 ^ 20 ≤ winBase)
include hk hb

/-- A fault event is written into its ring, below the windows. -/
theorem State.fevWrite_windows (source old new : Nat) : sameBytes (winBase ≤ ·) s (s.fevWrite source old new) := by
  unfold State.fevWrite
  extract_lets k h t used a written moved
  have hmoved : sameBytes (winBase ≤ ·) s moved := by
    intro x hx
    have hmem : moved.mem = (s.wbs a (leBytes 4 source ++ leBytes 2 old ++ leBytes 2 new ++ leBytes 8 s.tideNs)).mem :=
      s.wbsEcc_mem _ _
    have hpow : 2 ^ k ≤ 2 ^ 16 := Nat.pow_le_pow_right (by decide) hk
    have hentry : t % 2 ^ k < 2 ^ k := Nat.mod_lt _ (by positivity)
    have ha : a = s.g BCN_FEV_BASE_ADDR + 16 * (t % 2 ^ k) := rfl
    refine (State.rb_congr hmem x).trans (State.rb_wbs_out _ _ _ _ (.inr ?_))
    simp only [List.length_append, length_leBytes]
    omega
  clear_value moved
  split
  · exact fun x _ => rfl
  · split
    · exact fun x hx => (State.rb_congr (State.fireEdge_mem _ _) x).trans (hmoved x hx)
    · exact hmoved

/-- UP is taken in STATE alone, its change as a fault event. -/
theorem State.putUp_cases (w : Nat) (b : Bool) : (s.putUp w b = s ∧ s.gwUp w = b) ∨
    ∃ v, v % 2 = bit b ∧ sameBytes (winBase ≤ ·) (s.wput w oWSTATE 4 v) (s.putUp w b) := by
  have hregs (v : Nat) : (s.wput w oWSTATE 4 v).regs = s.regs := s.wle_regs _ _ _
  unfold State.putUp
  extract_lets x
  by_cases h : x.testBit 0 = b
  · rw [if_pos h]
    exact .inl ⟨rfl, h⟩
  · rw [if_neg h]
    refine .inr ⟨_, ?_, State.fevWrite_windows _ (by rwa [State.g_congr (hregs _)]) (by rwa [State.g_congr (hregs _)]) _ _ _⟩
    rw [Nat.testBit_zero] at h
    cases b with
    | true => simp [bit] at h ⊢; omega
    | false => simp [bit] at h ⊢; omega

theorem State.gwUp_putUp (w : Nat) (b : Bool) : (s.putUp w b).gwUp w = b := by
  rcases s.putUp_cases hk hb w b with ⟨h, hup⟩ | ⟨v, hv, h⟩
  · rw [h, hup]
  · have hstate : (s.putUp w b).rle (bcnGw w + oWSTATE) 4 = v % 2 ^ (8 * 4) :=
      (State.rle_of_sameBytes h fun i _ => by simp only [bcnGw]; omega).trans (s.rle_wle _ _ _)
    unfold State.gwUp State.wget
    rw [hstate, Nat.testBit_zero]
    cases b with
    | true => simp [bit] at hv ⊢; omega
    | false => simp [bit] at hv ⊢; omega

/-- No other byte of the windows changes. -/
theorem State.putUp_sameBytes (w : Nat) (b : Bool) :
    sameBytes (fun y => winBase ≤ y ∧ (y < bcnGw w + oWSTATE ∨ bcnGw w + oWSTATE + 4 ≤ y)) s (s.putUp w b) := by
  intro y hy
  rcases s.putUp_cases hk hb w b with ⟨h, -⟩ | ⟨v, -, h⟩
  · rw [h]
  · exact (h y hy.1).trans (sameBytesBut_wle s _ 4 v (length_leBytes 4 v) y hy.2)

end

/-! ## The commands together (O44) -/

section
variable {s : State}

/-- What an evaluation that is skipped leaves. -/
theorem State.evaluationSkipped_spec (s : State) :
    let t := ((s.takeInstant 255).incSat BCN_EVALS_SKIPPED 0).raise .bcn BCN_EVAL_OVERRUN none 0
    t.bcn = s.bcn ∧ t.mem = s.mem ∧
      t.g BCN_EVALS_SKIPPED = min (s.g BCN_EVALS_SKIPPED + 1) (2 ^ BCN_EVALS_SKIPPED.w - 1) ∧
      (t.faultStatus .bcn).testBit BCN_EVAL_OVERRUN = true := by
  intro t
  have hword : ¬ FaultWord .bcn (BCN_EVALS_SKIPPED.off + 0) := by
    simp only [FaultWord, FBlk.F, BCN_FS, MST_SRC_STATE_LEVEL, BCN_EVALS_SKIPPED]
    omega
  refine ⟨?_, State.raise_mem .., ?_, State.raise_testBit _ .bcn (by decide) _ _ _⟩
  · exact (State.bare_congr State.bcn (fun _ => rfl) (State.raise_bare ..)).trans rfl
  · rw [(State.raise_faultKeeps .bcn _ _ _ _).words.g BCN_EVALS_SKIPPED 0 (by decide) hword, State.g_incSat]
    rfl

theorem State.bcnRebuild_of_refused (h : s.g BCN_PROF_CTRL_SHADOW = 1 ∨ s.g BCN_PROF_SRC_ADDR % 64 ≠ 0 ∨
    s.inRam (s.g BCN_PROF_SRC_ADDR) profBytes = false) : s.bcnRebuild = s.p BCN_PROF_CTRL_REFUSAL 0 0x406 := if_pos h

theorem State.bcnRebuild_of_accepted (h : ¬ (s.g BCN_PROF_CTRL_SHADOW = 1 ∨ s.g BCN_PROF_SRC_ADDR % 64 ≠ 0 ∨
    s.inRam (s.g BCN_PROF_SRC_ADDR) profBytes = false)) : s.bcnRebuild = s.p BCN_PROF_CTRL_SHADOW 0 1 := if_neg h

theorem exec_gatewaySilent {w : Fin 1024} (hon : s.on BCN_CTRL_ENABLE = true)
    (hage : s.bcnCfg.silentS ≤ (s.tideNs / 1000000000 + 2 ^ 32 - s.wget w.val oLASTRX 4) % 2 ^ 32) :
    exec (.gatewaySilent w) s = .next (s.putUp w.val false) :=
  congrArg Host.Outcome.next (if_pos (by rw [hon, decide_eq_true hage]; rfl))

end

/-- Settles O44, command by command: an evaluation's phases keep the pass that runs and BCN_STATUS, a rebuild's source is read
from the memories alone, and the fault event of a silent gateway lies below the window that holds UP. -/
theorem beaconEvaluations : Obligations.BeaconEvaluations := by
  unfold Obligations.BeaconEvaluations
  intro s hr src shadow bad other due
  refine ⟨fun errs hdue => exec_evaluationStart_idle hdue, fun errs hdue hon hwait => ⟨fun hrun => ?_, fun hrun => ?_⟩,
    fun hrun => exec_bcnPassEnd hrun, fun hbad => ?_, fun hgood => ?_, fun hs => ⟨fun o => ?_, fun o he hf => ?_, fun he => ?_,
    fun he hf => ?_⟩, fun b hb => ⟨fun hs => ?_, fun hs => ?_⟩, fun w => ⟨fun len hbusy => ?_, fun hon hage hk hbase => ?_⟩⟩
  -- EVALUATION_START
  · exact ⟨_, exec_evaluationStart_skipped hdue hon hwait hrun, s.evaluationSkipped_spec⟩
  · exact exec_evaluationStart_runs hdue hon hwait hrun
  -- BCN_REBUILD
  · rw [exec_bcnRebuild hr, State.bcnRebuild_of_refused hbad]
  · rw [exec_bcnRebuild hr, State.bcnRebuild_of_accepted hgood]
    have hbegun : (s.p BCN_PROF_CTRL_SHADOW 0 1).g BCN_PROF_CTRL_SHADOW = 1 := s.g_p_same _ _ _
    exact ⟨_, rfl, hbegun, rfl, rfl⟩
  -- BCN_REBUILD_END
  · obtain ⟨hfailed, hfault⟩ := State.bcnRebuildEnd_of_error (s := s) (e := some o.val) rfl
    exact ⟨_, exec_bcnRebuildEnd hs, hfailed.shadow, hfailed.offset, hfault, hfailed.mem⟩
  · have hfailed := State.bcnRebuildEnd_of_fault he hf
    exact ⟨_, exec_bcnRebuildEnd hs, hfailed.shadow, hfailed.offset, hfailed.mem⟩
  · obtain ⟨o, ho⟩ := State.profLost_of_uncorr he
    obtain ⟨hfailed, hfault⟩ := State.bcnRebuildEnd_of_error (e := none) ho
    exact ⟨_, exec_bcnRebuildEnd hs, hfailed.shadow, hfault, hfailed.mem⟩
  · exact ⟨_, exec_bcnRebuildEnd hs, State.bcnRebuildEnd_fills he hf⟩
  -- BCN_BANK_SWAP
  · rw [exec_bcnBankSwap hr, State.bcnSwap_of_notReady hb hs]
  · obtain ⟨hactive, hempty, hcores⟩ := State.bcnSwap_swaps hb hs
    exact ⟨_, exec_bcnBankSwap hr b, hactive, hempty, by rw [State.bcnSwap_of_ready hb hs]; rfl, hcores⟩
  -- PASSTHRU_SEND
  · obtain ⟨hgw, hlen, hmem, hcores, hheld⟩ := State.passthru_spec s hbusy w.isLt len.isLt
    exact ⟨_, exec_passthruSend hr w len, hgw, hlen, hmem, hcores, hheld⟩
  -- GATEWAY_SILENT
  · exact ⟨_, exec_gatewaySilent hon hage, s.gwUp_putUp hk hbase w.val false, (s.putUp_bcnKeeps w.val false).cores⟩

end Sys2Proof.Machine

/-! # Proofs: received Beacon messages and campaigns (O45)

A campaign's targets, gateways and progress lie in the Beacon's own state and in registers above its control words, so what the
frames, faults and progress of a campaign write leaves them; a message that is taken leaves all but the waiting frames. -/

namespace Sys2Proof.Machine
open Sys2Proof.Safety

/-! ## Targets of a campaign (R263 to R266) -/

/-- A target replaces the one of its lantern. -/
def BcnCamp.put (x : BcnCamp) (t : CampTarget) : BcnCamp :=
  { x with targets := x.targets.map fun y => if y.lantern = t.lantern then t else y }

section
variable (f : CampTarget → CampTarget) (l : List CampTarget) (x : BcnCamp)

theorem BcnCamp.put_mem {t y : CampTarget} (hy : y ∈ x.targets) (h : y.lantern = t.lantern) : t ∈ (x.put t).targets :=
  List.mem_map.2 ⟨y, hy, if_pos h⟩

theorem BcnCamp.foldl_put_kept : let y := l.foldl (fun x t => x.put (f t)) x
    y.gws = x.gws ∧ y.last = x.last ∧ y.targets.length = x.targets.length :=
  List.foldlRecOn (motive := fun y : BcnCamp => y.gws = x.gws ∧ y.last = x.last ∧ y.targets.length = x.targets.length)
    l _ ⟨rfl, rfl, rfl⟩ fun _ ⟨hg, hl, hn⟩ _ _ => ⟨hg, hl, (List.length_map _).trans hn⟩

/-- After the replacements each target is one of them, or one of before that none replaced. -/
theorem BcnCamp.mem_foldl_put {y : CampTarget} (hy : y ∈ (l.foldl (fun x t => x.put (f t)) x).targets) :
    (y ∈ x.targets ∧ ∀ t ∈ l, y.lantern ≠ (f t).lantern) ∨ ∃ t ∈ l, y = f t := by
  induction l generalizing x with
  | nil => exact .inl ⟨hy, fun t ht => absurd ht List.not_mem_nil⟩
  | cons t l ih =>
    rcases ih (x.put (f t)) hy with ⟨hin, hrest⟩ | ⟨t', ht', rfl⟩
    · obtain ⟨z, hz, rfl⟩ := List.mem_map.1 hin
      by_cases h : z.lantern = (f t).lantern
      · exact .inr ⟨t, List.mem_cons_self, if_pos h⟩
      · rw [if_neg h] at hrest ⊢
        exact .inl ⟨hz, List.forall_mem_cons.2 ⟨h, hrest⟩⟩
    · exact .inr ⟨t', List.mem_cons_of_mem _ ht', rfl⟩

/-- Where every open target of a kind is replaced by a final one, none of the kind stays open. -/
theorem BcnCamp.foldl_put_final {P : CampTarget → Prop} (hf : ∀ t, (f t).lantern = t.lantern ∧ (f t).final = true)
    (hl : ∀ t ∈ x.targets, P t → t.final = false → t ∈ l) {y : CampTarget}
    (hy : y ∈ (l.foldl (fun x t => x.put (f t)) x).targets) (hP : P y) : y.final = true := by
  rcases BcnCamp.mem_foldl_put f l x hy with ⟨hin, hnot⟩ | ⟨t, -, rfl⟩
  · by_contra hopen
    exact hnot y (hl y hin hP (by simpa using hopen)) (hf y).1.symm
  · exact (hf t).2

end

/-! ## Campaign operations (R262 to R266) -/

/-- A field above the Beacon's control words is written. -/
theorem BcnKeeps.pAbove {s t : State} (h : BcnKeeps s t) {f : Fld} (hf : f.lo < 32 ∧ 0x600030 ≤ f.off) (d v : Nat) :
    BcnKeeps s (t.p f d v) :=
  h.p hf.1 (.inr (Nat.le_add_right_of_le hf.2)) v

section
variable (s : State) (c : Nat)

theorem State.camp_setCamp (x : BcnCamp) : (s.setCamp c x).camp c = x := AMap.get_set_same ..

theorem State.setCamp_cores (x : BcnCamp) : (s.setCamp c x).cores = s.cores := (rfl)

theorem State.progStart_bcnKeeps (d total : Nat) : BcnKeeps s (s.progStart progCamp d total) :=
  ((((BcnKeeps.refl s).pAbove (by decide) _ _).pAbove (by decide) _ _).pAbove (by decide) _ _).pAbove (by decide) _ _

theorem State.progAt_bcnKeeps (d pos : Nat) : BcnKeeps s (s.progAt progCamp d pos) :=
  ((BcnKeeps.refl s).pAbove (by decide) _ _).pAbove (by decide) _ _

theorem State.progEnd_bcnKeeps (d st : Nat) : BcnKeeps s (s.progEnd progCamp d st) := by
  have h : BcnKeeps s (s.p progCamp.state d st) := (BcnKeeps.refl s).pAbove (by decide) _ _
  exact .ite (h.pAbove (by decide) _ _) h

theorem State.campTo_bcnKeeps (st : Nat) : BcnKeeps s (s.campTo c st) :=
  ((BcnKeeps.refl s).pAbove (by decide) _ _).trans (State.fireEdge_bcnKeeps _ _)

theorem State.campFail_bcnKeeps (fail : Nat) : BcnKeeps s (s.campFail c fail) :=
  (((BcnKeeps.refl s).pAbove (by decide) _ _).trans (State.progEnd_bcnKeeps _ _ _)).trans (State.campTo_bcnKeeps _ _ _)

theorem State.campUpdate_bcnKeeps : BcnKeeps s (s.campUpdate c) := by
  unfold State.campUpdate
  extract_lets d x counted moved size waves k shown
  have hcounted : BcnKeeps s counted := ((BcnKeeps.refl s).pAbove (by decide) _ _).pAbove (by decide) _ _
  have hmoved : BcnKeeps s moved := hcounted.trans (State.progAt_bcnKeeps _ _ _)
  have hshown : BcnKeeps s shown := .ite (hmoved.pAbove (by decide) _ _) hmoved
  clear_value shown
  exact .ite (.ite (hshown.trans ((State.progEnd_bcnKeeps _ _ _).trans (State.campTo_bcnKeeps _ _ _)))
    (hshown.trans (State.campFail_bcnKeeps _ _ _))) hshown

/-- What a target's record takes, or the fault of one that cannot be read, leaves the campaigns. -/
theorem State.putTarget_record (t : CampTarget) : BcnKeeps (s.setCamp c ((s.camp c).put t)) (s.putTarget c t) := by
  unfold State.putTarget
  extract_lets x u b v
  have hv : BcnKeeps u v := u.lput_bcnKeeps _ _ _ _
  exact .ite (u.bcnDdrErr_bcnKeeps _) (hv.trans ((v.lput_bcnKeeps _ _ _ _).trans (State.lput_bcnKeeps _ _ _ _ _)))

theorem State.camp_putTarget (t : CampTarget) : (s.putTarget c t).camp c = (s.camp c).put t :=
  ((s.putTarget_record c t).camp c).trans (s.camp_setCamp c _)

theorem State.putTarget_cores (t : CampTarget) : (s.putTarget c t).cores = s.cores := (s.putTarget_record c t).cores

theorem State.camp_foldl_putTarget (f : CampTarget → CampTarget) (l : List CampTarget) (s : State) :
    (l.foldl (fun s t => s.putTarget c (f t)) s).camp c = l.foldl (fun x t => x.put (f t)) (s.camp c) := by
  induction l generalizing s with
  | nil => rfl
  | cons t l ih => rw [List.foldl_cons, List.foldl_cons, ih, State.camp_putTarget]

theorem State.foldl_putTarget_cores (f : CampTarget → CampTarget) (l : List CampTarget) (s : State) :
    (l.foldl (fun s t => s.putTarget c (f t)) s).cores = s.cores :=
  foldl_keep _ State.cores (fun s t => s.putTarget_cores c (f t)) l s

variable {c} (hc : c < 8)
include hc

theorem State.g_fireEdge_camp (src : Nat) {f : Fld} (hf : f.lo < 32 ∧ 0x600000 ≤ f.off ∧ f.off < 0x600600) :
    (s.fireEdge src).g f (dCamp c) = s.g f (dCamp c) := by
  refine (s.fireEdge_bcnRegs src).g f (dCamp c) hf.1 ?_
  simp only [BcnReg, dCamp]
  omega

theorem State.campState_campTo {st : Nat} (hst : st < 16) : (s.campTo c st).campState c = st :=
  (State.g_fireEdge_camp _ hc _ (by decide)).trans ((State.g_p_same _ _ _ _).trans (Nat.mod_eq_of_lt hst))

/-- What the end of a campaign with a FAIL leaves. -/
theorem State.campFail_spec {fail : Nat} (hfail : fail < 16) : (s.campFail c fail).campState c = 4 ∧
    (s.campFail c fail).g BCN_CAMP_STATUS_FAIL (dCamp c) = fail := by
  refine ⟨State.campState_campTo _ hc (by decide), ?_⟩
  unfold State.campFail State.campTo
  rw [State.g_fireEdge_camp _ hc _ (by decide), State.g_p_other _ (by decide), State.g_progEnd_other _ _ _ _ (by decide),
    State.g_p_same]
  exact Nat.mod_eq_of_lt hfail

end

/-! ## CAMPAIGN_START (R262) -/

section
variable {s : State} {c : Nat}

/-- The campaign may start: an enabled Beacon, STATE IDLE and a mode that allows it. -/
def State.CampReady (s : State) (c : Nat) : Prop :=
  s.on BCN_CTRL_ENABLE = true ∧ s.campState c = 0 ∧ (s.mode = COMMISSION ∨ s.mode = RUN)

/-- The settings of a campaign pass. -/
structure State.CampSettings (s : State) (c : Nat) : Prop where
  length : 0 < s.g BCN_CAMP_LEN_BYTES (dCamp c) ∧ s.g BCN_CAMP_LEN_BYTES (dCamp c) ≤ 4194304
  aligned : s.g BCN_CAMP_IMAGE_ADDR (dCamp c) % 64 = 0 ∧ s.g BCN_CAMP_SIG_ADDR (dCamp c) % 64 = 0
  image : s.inRam (s.g BCN_CAMP_IMAGE_ADDR (dCamp c)) (s.g BCN_CAMP_LEN_BYTES (dCamp c)) = true
  sig : s.inRam (s.g BCN_CAMP_SIG_ADDR (dCamp c)) (if s.on BCN_CAMP_CFG_ALG (dCamp c) then 96 else 64) = true
  path : s.pathOn (s.g BCN_CAMP_CFG_PATH (dCamp c)) = true ∧ s.pathKind (s.g BCN_CAMP_CFG_PATH (dCamp c)) = kBEACON
  wave : outside (s.g BCN_CAMP_CFG_WAVE_SIZE (dCamp c)) 1 1024 = false
  timing : outside (s.g BCN_CAMP_TIMING_ACK_TIMEOUT_MS (dCamp c)) 10 60000 = false

theorem State.campStart_of_notReady (h : ¬ s.CampReady c) : s.campStart c = s.campRefuse c 0x407 := by
  refine if_pos ?_
  by_cases hon : s.on BCN_CTRL_ENABLE = true
  · by_cases hst : s.campState c = 0
    · exact .inr (.inr fun hmode => h ⟨hon, hst, hmode⟩)
    · exact .inr (.inl hst)
  · exact .inl (Bool.eq_false_of_not_eq_true hon)

/-- The image is copied into the campaign's area, and STATE is VERIFYING. -/
theorem State.campStart_spec (hc : c < 8) (hready : s.CampReady c) (hset : s.CampSettings c) :
    let area := s.g BCN_CAMP_AREA_ADDR + 0x400000 * c
    let img := s.g BCN_CAMP_IMAGE_ADDR (dCamp c)
    let len := s.g BCN_CAMP_LEN_BYTES (dCamp c)
    ∃ t, s.campStart c = t ∧ t.campState c = 1 ∧ t.rbs area len = s.rbs img len ∧ sameBytesBut area len s t ∧ t.cores = s.cores := by
  obtain ⟨hon, hst, hmode⟩ := hready
  obtain ⟨⟨hpos, hmax⟩, ⟨himg, hsig⟩, hin, hsigIn, ⟨hpath, hkind⟩, hwave, htime⟩ := hset
  unfold State.campStart
  extract_lets area img len d len' img' sig path sigLen copied shown counted
  rw [if_neg (by simp [hon, hst, hmode]), if_neg (by simp [*, len', img', sig, path, d, sigLen]; omega)]
  have hcopied : copied.mem = (s.wbs area (s.rbs img len)).mem := s.wbsEcc_mem _ _
  have hcores : copied.cores = s.cores := (s.wbsEcc_bcnKeeps _ _).cores
  clear_value copied
  have hcounted : BcnKeeps copied counted :=
    (((((BcnKeeps.refl _).pAbove (by decide) _ _).pAbove (by decide) _ _).pAbove (by decide) _ _).pAbove
      (by decide) _ _).pAbove (by decide) _ _
  have hmem : counted.mem = copied.mem := by
    unfold counted shown
    rw [State.mem_p, State.mem_p, State.mem_p, State.mem_p, State.mem_p]
  clear_value counted
  have hbegun : ((counted.progStart progCamp d 0).setCamp c {}).mem = counted.mem :=
    (State.setCamp_mem _ _ _).trans (State.bare_mem (counted.progStart_bare _ _ _))
  have hend := ((counted.progStart_bcnKeeps d 0).cores.trans hcounted.cores).trans hcores
  refine ⟨_, rfl, State.campState_campTo _ hc (by decide), ?_⟩
  obtain ⟨hread, hsame⟩ := State.copied_of_wbs (s := s) (t := ((counted.progStart progCamp d 0).setCamp c {}).campTo c 1)
    rfl ((((State.campTo_mem _ _ _).trans hbegun).trans hmem).trans hcopied)
  exact ⟨hread, hsame, (State.campTo_bcnKeeps _ _ _).cores.trans hend⟩

end

section
variable {s : State} (hr : s.inReset = false) (c : Fin 8)
include hr

theorem exec_campaignStart : exec (.campaignStart c) s = .next ((s.campStart c).answer true 0) :=
  congrArg Host.Outcome.next (State.command_of_inReset hr _)

theorem exec_campaignAbort : exec (.campaignAbort c) s = .next ((s.campAbort c).answer true 0) :=
  congrArg Host.Outcome.next (State.command_of_inReset hr _)

theorem exec_campaignClear : exec (.campaignClear c) s = .next ((s.campClear c).answer true 0) :=
  congrArg Host.Outcome.next (State.command_of_inReset hr _)

end

/-! ## CAMPAIGN_VERIFY_END (R262, R265) -/

/-- The campaign fails, or runs with the targets of the scan, of which there are some. -/
theorem exec_campaignVerifyEnd {s : State} {c : Fin 8} (hon : s.on BCN_CTRL_ENABLE = true) (hst : s.campState c = 1)
    (err : Bool) : ∃ t, exec (.campaignVerifyEnd c err) s = .next t ∧
      ((t.campState c = 4 ∧ t.mem = s.mem ∧ t.g BCN_CAMP_STATUS_FAIL (dCamp c) =
          (if err || s.campBad c then 6 else match s.campVerify c with | none => 2 | some false => 1 | some true => 3)) ∨
        (err = false ∧ s.campBad c = false ∧ s.campVerify c = some true ∧ t.campState c = 2 ∧
          (t.camp c).targets ≠ [])) := by
  show ∃ t, execCampaignVerifyEnd c err s = .next t ∧ _
  unfold execCampaignVerifyEnd
  extract_lets k d one ts scanned begun put counted
  rw [if_pos (by simp [k, hon, hst])]
  have hfails (u : State) (hu : u.mem = s.mem) {fail : Nat} (hf : fail < 16) : (u.campFail c fail).campState c = 4 ∧
      (u.campFail c fail).mem = s.mem ∧ (u.campFail c fail).g BCN_CAMP_STATUS_FAIL (dCamp c) = fail := by
    obtain ⟨hstate, hfail⟩ := u.campFail_spec c.isLt hf
    exact ⟨hstate, (u.campFail_mem _ _).trans hu, hfail⟩
  have hscanned : scanned.mem = s.mem :=
    foldl_keep _ State.mem (fun t n => t.bcnDdrErr_mem _) _ s
  clear_value scanned
  by_cases hbad : (err || s.campBad c) = true
  · rw [if_pos hbad, if_pos hbad]
    exact ⟨_, rfl, .inl (hfails s rfl (by decide))⟩
  · rw [if_neg hbad, if_neg hbad]
    obtain ⟨herr, hgood⟩ := Bool.or_eq_false_iff.1 (Bool.eq_false_of_not_eq_true hbad)
    match hverify : s.campVerify c with
    | none => exact ⟨_, rfl, .inl (hfails s rfl (by decide))⟩
    | some false => exact ⟨_, rfl, .inl (hfails s rfl (by decide))⟩
    | some true =>
      dsimp only
      split
      · exact ⟨_, rfl, .inl (hfails scanned hscanned (by decide))⟩
      · next hsome =>
        refine ⟨_, rfl, .inr ⟨herr, hgood, rfl, State.campState_campTo _ c.isLt (by decide), ?_⟩⟩
        have hput : (put.camp k).targets.length = ts.length := by
          rw [show put.camp k = _ from State.camp_foldl_putTarget k (fun t => t) ts begun]
          obtain ⟨-, -, hlength⟩ := BcnCamp.foldl_put_kept (fun t => t) ts (begun.camp k)
          rw [hlength, show begun.camp k = _ from scanned.camp_setCamp k _]
        clear_value put
        have hkeeps : BcnKeeps put counted := (BcnKeeps.refl put).pAbove (by decide) _ _
        have hcamp (total : Nat) : BcnKeeps put (((counted.progStart progCamp d total).campUpdate k).campTo k 2) :=
          ((hkeeps.trans (State.progStart_bcnKeeps _ _ _)).trans (State.campUpdate_bcnKeeps _ k)).trans
            (State.campTo_bcnKeeps _ k 2)
        intro hnone
        rw [(hcamp _).camp k] at hnone
        rw [hnone] at hput
        exact hsome (List.isEmpty_iff.2 (List.length_eq_zero_iff.1 hput.symm))

theorem State.gw_setCamp (s : State) (c : Nat) (x : BcnCamp) (w : Nat) (g : CampGw) :
    ((s.setCamp c (x.setGw w g)).camp c).gw w = g := by
  rw [State.camp_setCamp]
  exact AMap.get_set_same ..

/-! ## CAMPAIGN_FRAME_TURN and CAMPAIGN_ACK_TIMEOUT (R253, R263) -/

section
variable (c : Nat) (f : CampTarget → CampTarget) (l : List CampTarget) (s : State)

/-- Targets are replaced, and the campaign's counts follow. -/
theorem State.putTargets_updated : 
    ((l.foldl (fun s t => s.putTarget c (f t)) s).campUpdate c).camp c =
      l.foldl (fun x t => x.put (f t)) (s.camp c) ∧
    ((l.foldl (fun s t => s.putTarget c (f t)) s).campUpdate c).cores = s.cores := by
  have h := State.campUpdate_bcnKeeps (l.foldl (fun s t => s.putTarget c (f t)) s) c
  exact ⟨(h.camp c).trans (State.camp_foldl_putTarget c f l s), h.cores.trans (State.foldl_putTarget_cores c f l s)⟩

end

section
variable {s : State} {c : Fin 8} (hon : s.on BCN_CTRL_ENABLE = true) (hst : s.campState c = 2)
include hon hst

/-- The gateway served is the last one served. -/
theorem exec_campaignFrameTurn (hmode : s.mode = COMMISSION ∨ s.mode = RUN)
    (hecc : s.eccUncorr (s.g BCN_CAMP_AREA_ADDR + 0x400000 * c) (s.g BCN_CAMP_LEN_BYTES (dCamp c)) = false) {w : Nat}
    (hw : ((s.campTurn c).find? fun w => s.gwUsable w && (s.campMsg c w).isSome) = some w) :
    ∃ t, exec (.campaignFrameTurn c) s = .next t ∧ (t.camp c).last = some w ∧ t.cores = s.cores := by
  have hdue := List.find?_some hw
  obtain ⟨-, hmsg⟩ := Bool.and_eq_true_iff.1 hdue
  obtain ⟨⟨msg, ts, g⟩, hmsg⟩ := Option.isSome_iff_exists.1 hmsg
  show ∃ t, execCampaignFrameTurn c s = .next t ∧ _
  unfold execCampaignFrameTurn
  extract_lets k
  rw [if_pos (by simpa [k, hon, hst] using hmode), if_neg (by simpa [k] using hecc), hw]
  dsimp only
  rw [hmsg]
  dsimp only
  generalize hoffer : s.bcnOffer w _ msg = o
  have hcores : o.2.cores = s.cores := hoffer ▸ (s.bcnOffer_bcnKeeps _ _ _).cores
  generalize hserved : o.2.setCamp k { o.2.camp k with last := some w } = u
  have hlast : (u.camp k).last = some w := by rw [← hserved, State.camp_setCamp]
  have hu : u.cores = s.cores := hserved ▸ hcores
  split
  · refine ⟨_, rfl, ?_, (State.putTargets_updated k (fun t => t) ts _).2.trans hu⟩
    obtain ⟨-, hkept, -⟩ := BcnCamp.foldl_put_kept (fun t => t) ts
      ((u.camp k).setGw w { g with waiting := true, since := u.campClock })
    rw [(State.putTargets_updated k (fun t => t) ts _).1, State.camp_setCamp, hkept]
    exact hlast
  · exact ⟨_, rfl, hlast, hu⟩

/-- No answer: the failure is counted, and after RETRIES the gateway's open targets have failed. -/
theorem exec_campaignAckTimeout {w : Fin 1024} (hwait : ((s.camp c).gw w).waiting = true)
    (htime : ((s.camp c).gw w).since + 400000 * s.g BCN_CAMP_TIMING_ACK_TIMEOUT_MS (dCamp c) ≤ s.campClock) :
    ∃ t, exec (.campaignAckTimeout c w) s = .next t ∧
      ((t.camp c).gw w).fails = ((s.camp c).gw w).fails + 1 ∧ ((t.camp c).gw w).waiting = false ∧ t.cores = s.cores ∧
      if s.g BCN_CAMP_CFG_RETRIES (dCamp c) ≤ ((s.camp c).gw w).fails + 1 then (t.camp c).finished w = true
      else t.mem = s.mem ∧ t.regs = s.regs := by
  show ∃ t, execCampaignAckTimeout c w s = .next t ∧ _
  unfold execCampaignAckTimeout
  extract_lets k v x g n open_ begun
  rw [if_pos (by simp [k, v, x, g, hon, hst, hwait, htime])]
  by_cases hretry : s.g BCN_CAMP_CFG_RETRIES (dCamp c) ≤ ((s.camp c).gw w).fails + 1
  · rw [if_pos (show _ ≤ n from hretry)]
    obtain ⟨hcamp, hcores⟩ := State.putTargets_updated k (fun t => { t with status := fwFAILED }) open_ begun
    obtain ⟨hgws, -, -⟩ := BcnCamp.foldl_put_kept (fun t => { t with status := fwFAILED }) open_ (begun.camp k)
    have hgw : ((begun.camp k).gw v) = { g with waiting := false, fails := n } := s.gw_setCamp k x v _
    unfold BcnCamp.gw at hgw
    rw [← hgws, ← hcamp] at hgw
    refine ⟨_, rfl, congrArg CampGw.fails hgw, congrArg CampGw.waiting hgw, hcores, ?_⟩
    rw [if_pos hretry, BcnCamp.finished, List.all_eq_true]
    intro y hy
    obtain ⟨hin, hat⟩ := List.mem_filter.1 hy
    rw [hcamp, State.camp_setCamp] at hin
    have hopen (t : CampTarget) (ht : t ∈ x.targets) (hat : (t.gw == v) = true) (hnot : t.final = false) : t ∈ open_ :=
      List.mem_filter.2 ⟨List.mem_filter.2 ⟨ht, hat⟩, by rw [hnot]; rfl⟩
    exact BcnCamp.foldl_put_final (fun t => { t with status := fwFAILED }) open_ (x.setGw v _) (fun t => ⟨rfl, rfl⟩)
      hopen hin hat
  · rw [if_neg (show ¬ _ ≤ n from hretry)]
    refine ⟨_, rfl, congrArg CampGw.fails (s.gw_setCamp k x v _), congrArg CampGw.waiting (s.gw_setCamp k x v _),
      State.setCamp_cores _ _ _, ?_⟩
    rw [if_neg hretry]
    exact ⟨State.setCamp_mem _ _ _, rfl⟩

end

/-! ## CAMPAIGN_ABORT and CAMPAIGN_CLEAR (R265, R266) -/

section
variable {s : State} {c : Nat}

theorem State.campAbort_of_idle (h : s.campState c ≠ 1 ∧ s.campState c ≠ 2) : s.campAbort c = s.campRefuse c 0x407 :=
  if_neg (by simpa using h)

theorem State.campClear_of_unfinished (h : s.campState c ≠ 3 ∧ s.campState c ≠ 4) :
    s.campClear c = s.campRefuse c 0x407 := if_neg (by simpa using h)

/-- Every open target of an aborted campaign is ABORTED. -/
theorem State.campAbort_spec (hc : c < 8) (h : s.campState c = 1 ∨ s.campState c = 2) : (s.campAbort c).campState c = 4 ∧
    (s.campAbort c).g BCN_CAMP_STATUS_FAIL (dCamp c) = 4 ∧
    ((s.campAbort c).camp c).targets.all CampTarget.final = true ∧ (s.campAbort c).cores = s.cores := by
  unfold State.campAbort
  rw [if_pos (by simpa using h)]
  generalize hopen : (s.camp c).targets.filter (fun t => !t.final) = open_
  have hput := State.camp_foldl_putTarget c (fun t => { t with status := fwABORTED }) open_ s
  have hcores := State.foldl_putTarget_cores c (fun t => { t with status := fwABORTED }) open_ s
  generalize open_.foldl _ s = t at hput hcores
  obtain ⟨hstate, hfail⟩ := t.campFail_spec hc (fail := 4) (by decide)
  have hkeeps := t.campFail_bcnKeeps c 4
  refine ⟨hstate, hfail, ?_, hkeeps.cores.trans hcores⟩
  rw [hkeeps.camp, hput, List.all_eq_true]
  have hmem (t : CampTarget) (ht : t ∈ (s.camp c).targets) (_ : True) (hnot : t.final = false) : t ∈ open_ :=
    hopen ▸ List.mem_filter.2 ⟨ht, by rw [hnot]; rfl⟩
  exact fun y hy => BcnCamp.foldl_put_final (fun t => { t with status := fwABORTED }) open_ _ (fun t => ⟨rfl, rfl⟩)
    hmem hy trivial

theorem State.campClear_spec (hc : c < 8) (h : s.campState c = 3 ∨ s.campState c = 4) : (s.campClear c).campState c = 0 ∧
    (s.campClear c).camp c = {} ∧ (s.campClear c).mem = s.mem ∧ (s.campClear c).cores = s.cores := by
  unfold State.campClear
  rw [if_pos (by simpa using h)]
  have hkeeps := (s.setCamp c {}).campTo_bcnKeeps c 0
  exact ⟨State.campState_campTo _ hc (by decide), (hkeeps.camp c).trans (s.camp_setCamp c {}),
    (State.campTo_mem _ _ _).trans (State.setCamp_mem _ _ _), hkeeps.cores⟩

end

/-! ## Waiting messages (R256) -/

section
variable (s : State)

/-- Other frames wait. -/
def State.setRx (l : List BcnRx) : State := { s with bcn := { s.bcn with rx := l } }

theorem State.setRx_bcnKeeps (l : List BcnRx) : BcnKeeps s (s.setRx l) := .of_regs rfl rfl rfl

theorem State.setRx_mem (l : List BcnRx) : (s.setRx l).mem = s.mem := (rfl)

theorem State.setRx_regs (l : List BcnRx) : (s.setRx l).regs = s.regs := (rfl)

/-- Skipping writes the waiting frames and the count of unknown messages. -/
theorem State.skipUnknown_keeps (n : Nat) : BcnKeeps s (State.skipUnknown n s) ∧
    (State.skipUnknown n s).g BCN_MSG_NO_LANTERN = s.g BCN_MSG_NO_LANTERN := by
  induction n generalizing s with
  | zero => exact ⟨.refl s, rfl⟩
  | succ n ih =>
    unfold State.skipUnknown
    split
    · exact ⟨.refl s, rfl⟩
    · next x t _ =>
      split
      · obtain ⟨hkeeps, hcount⟩ := ih (s.setRx t)
        exact ⟨(s.setRx_bcnKeeps t).trans hkeeps, hcount⟩
      · next m ms _ =>
        split
        · exact ⟨.refl s, rfl⟩
        · obtain ⟨hkeeps, hcount⟩ := ih ((s.setRx ({ x with msgs := ms } :: t)).incSat BCN_MSG_MSG_UNKNOWN 0)
          exact ⟨((s.setRx_bcnKeeps _).pAbove (by decide) _ _).trans hkeeps,
            hcount.trans (State.g_incSat_ne _ _ _ _ _ (by decide))⟩

theorem State.msgDone_bcnKeeps : BcnKeeps s s.msgDone := (s.skipUnknown_keeps _).1

theorem State.msgDone_noLantern : s.msgDone.g BCN_MSG_NO_LANTERN = s.g BCN_MSG_NO_LANTERN := (s.skipUnknown_keeps _).2

variable {s}

theorem State.takeMsg_eq {type w stamp : Nat} {b : List Byte} {u : State} (h : s.takeMsg type = some (w, b, stamp, u)) :
    ∃ l, u = s.setRx l := by
  unfold State.takeMsg at h
  split at h
  · cases h
  · split at h
    · cases h
    · split at h
      · cases h
        exact ⟨_, rfl⟩
      · cases h

end

/-! ## FW_ACK (R264) -/

/-- The chunks a target holds rise to what it acknowledges. -/
theorem exec_fwAck {s : State} {w stamp : Nat} {b : List Byte} {u : State}
    (h : s.takeMsg 0x83 = some (w, b, stamp, u)) : ∃ t, exec .fwAck s = .next t ∧ t.cores = s.cores ∧
      ∀ y, (s.camp (fldB b 0 1)).targets.find? (fun t => t.gw = w ∧ t.laddr = beNat ((b.drop 4).take 2)) = some y →
        fldB b 0 1 < 8 → s.campState (fldB b 0 1) = 2 →
        ∃ y' ∈ (t.camp (fldB b 0 1)).targets, y'.lantern = y.lantern ∧ y'.acked = max y.acked (beNat ((b.drop 2).take 2)) := by
  obtain ⟨l, rfl⟩ := State.takeMsg_eq h
  have hrx := s.setRx_bcnKeeps l
  have hunknown : ((s.setRx l).incSat BCN_MSG_MSG_UNKNOWN 0).cores = s.cores := rfl
  show ∃ t, execFwAck s = .next t ∧ _
  unfold execFwAck
  rw [h]
  dsimp only
  rw [hrx.camp]
  have hst : (s.setRx l).campState (fldB b 0 1) = s.campState (fldB b 0 1) := State.g_congr (s.setRx_regs l) _ _
  rw [hst]
  generalize s.setRx l = u at *
  split
  · next hnone =>
    exact ⟨_, rfl, (State.msgDone_bcnKeeps _).cores.trans hunknown, fun y hy => by rw [hnone] at hy; cases hy⟩
  · next y hy =>
    split
    · next hbad => exact ⟨_, rfl, (State.msgDone_bcnKeeps _).cores.trans hunknown, fun _ _ hc hrun => by omega⟩
    · generalize hraised : CampTarget.mk y.lantern y.gw y.laddr _ _ = raised
      have hput := u.camp_putTarget (fldB b 0 1) raised
      have hcores := (u.putTarget_cores (fldB b 0 1) raised).trans hrx.cores
      generalize u.putTarget (fldB b 0 1) raised = v at hput hcores
      generalize hv : (if y.acked < _ then v.setCamp _ (BcnCamp.setGw _ _ _) else v) = v'
      have htargets : (v'.camp (fldB b 0 1)).targets = (v.camp (fldB b 0 1)).targets ∧ v'.cores = v.cores := by
        rw [← hv]
        split
        · exact ⟨(congrArg BcnCamp.targets (v.camp_setCamp _ _)).trans rfl, State.setCamp_cores _ _ _⟩
        · exact ⟨rfl, rfl⟩
      have hend := (v'.campUpdate_bcnKeeps (fldB b 0 1)).trans (State.msgDone_bcnKeeps _)
      refine ⟨_, rfl, (hend.cores.trans htargets.2).trans hcores, fun z hz _ _ => ⟨raised, ?_, ?_⟩⟩
      · rw [hend.camp, htargets.1, hput, hrx.camp]
        exact BcnCamp.put_mem _ (List.mem_of_find?_eq_some hy) (by rw [← hraised])
      · obtain rfl : y = z := Option.some.inj (hy.symm.trans hz)
        rw [← hraised]
        exact ⟨rfl, rfl⟩

/-! ## REPORT, COUNT and BCN_ALIVE (R247, R256, R259) -/

theorem State.rle_congr_mem {s t : State} (h : t.mem = s.mem) (a n : Nat) : t.rle a n = s.rle a n :=
  congrArg leNat (State.rbs_congr h n a)

section
variable (s : State)

/-- A write to a lantern's record reaches the field, and the record's last 92 bytes. -/
theorem State.lput_mem (n off size v : Nat) : (s.lput n off size v).mem =
    ((s.wle (s.lrec n + off) size v).wbs (s.lrec n + 164) (List.replicate 92 0)).mem := by
  unfold State.lput
  extract_lets a t
  split
  · rfl
  · exact State.mem_setBcn _ _

theorem State.lget_lput_same {n off size : Nat} (v : Nat) (h : off + size ≤ 164) :
    (s.lput n off size v).lget n off size = v % 2 ^ (8 * size) := by
  unfold State.lget
  rw [(s.lput_bcnKeeps n off size v).lrec, State.rle_congr_mem (s.lput_mem n off size v),
    State.rle_of_sameBytes (sameBytesBut_wbs _ _ _) fun i _ => .inl (by omega), State.rle_wle]

/-- Another field before the last 92 bytes reads as before. -/
theorem State.lget_lput_other {n off size off' size' : Nat} (v : Nat) (h' : off' + size' ≤ 164)
    (h : off' + size' ≤ off ∨ off + size ≤ off') : (s.lput n off size v).lget n off' size' = s.lget n off' size' := by
  unfold State.lget
  rw [(s.lput_bcnKeeps n off size v).lrec, State.rle_congr_mem (s.lput_mem n off size v),
    State.rle_of_sameBytes (sameBytesBut_wbs _ _ _) fun i _ => .inl (by omega)]
  exact State.rle_of_sameBytes (sameBytesBut_wle _ _ size v (length_leBytes size v)) fun i _ => by omega

/-- What a REPORT shows in its lantern's record. -/
structure ReportShown (s : State) (n temp arc stamp : Nat) : Prop where
  stamp : s.lget n oREPORT 8 = stamp % 2 ^ 64
  temp : s.lget n oTEMP 2 = temp % 2 ^ 16
  arc : s.lget n oARCNOW 1 = arc % 2 ^ 8

theorem ReportShown.lput {s : State} {n temp arc stamp : Nat} (h : ReportShown s n temp arc stamp) {off size : Nat}
    (ho : off + size ≤ oTEMP ∨ oARCNOW + 1 ≤ off) (v : Nat) : ReportShown (s.lput n off size v) n temp arc stamp := by
  unfold oTEMP oARCNOW at ho
  refine ⟨(s.lget_lput_other v (by decide) ?_).trans h.stamp, (s.lget_lput_other v (by decide) ?_).trans h.temp,
    (s.lget_lput_other v (by decide) ?_).trans h.arc⟩
  · unfold oREPORT
    omega
  · unfold oTEMP
    omega
  · unfold oARCNOW
    omega

theorem ReportShown.congr {s t : State} {n temp arc stamp : Nat} (h : ReportShown s n temp arc stamp) (hk : BcnKeeps s t)
    (hm : t.mem = s.mem) : ReportShown t n temp arc stamp := by
  have hget (off size : Nat) : t.lget n off size = s.lget n off size := by
    unfold State.lget
    rw [hk.lrec, State.rle_congr_mem hm]
  exact ⟨(hget _ _).trans h.stamp, (hget _ _).trans h.temp, (hget _ _).trans h.arc⟩

theorem ReportShown.of_lputs (n temp arc stamp : Nat) :
    ReportShown (((s.lput n oTEMP 2 temp).lput n oARCNOW 1 arc).lput n oREPORT 8 stamp) n temp arc stamp where
  stamp := State.lget_lput_same _ _ (by decide)
  temp := by
    rw [State.lget_lput_other _ _ (by decide) (by decide), State.lget_lput_other _ _ (by decide) (by decide),
      State.lget_lput_same _ _ (by decide)]
  arc := by rw [State.lget_lput_other _ _ (by decide) (by decide), State.lget_lput_same _ _ (by decide)]

/-- A REPORT writes its lantern's TEMP, ARC_NOW and report time; what follows of ENERGY and RESETS leaves them. -/
theorem State.report_spec (n : Nat) (b : List Byte) (stamp : Nat) :
    ReportShown (s.report n b stamp) n (beNat ((b.drop 4).take 2)) (fldB b 10 1) stamp ∧
      (s.report n b stamp).cores = s.cores := by
  unfold State.report
  extract_lets energy last total d first _ noted faulted shown counted
  have hnoted : BcnKeeps s noted := .ite (.refl s) (.of_regs rfl rfl rfl)
  clear_value noted
  have hfaulted : BcnKeeps s faulted := hnoted.trans (State.putFaults_bcnKeeps _ _ _)
  clear_value faulted
  have hkeeps : BcnKeeps s shown :=
    ((hfaulted.trans (State.lput_bcnKeeps _ _ _ _ _)).trans (State.lput_bcnKeeps _ _ _ _ _)).trans
      (State.lput_bcnKeeps _ _ _ _ _)
  have hshown : ReportShown shown n (beNat ((b.drop 4).take 2)) (fldB b 10 1) stamp := .of_lputs _ _ _ _ _
  clear_value shown
  have hcounted : BcnKeeps s counted ∧ ReportShown counted n (beNat ((b.drop 4).take 2)) (fldB b 10 1) stamp := by
    unfold counted
    split
    · exact ⟨hkeeps, hshown⟩
    · split
      · exact ⟨hkeeps.trans (State.lput_bcnKeeps _ _ _ _ _), hshown.lput (by decide) _⟩
      · exact ⟨hkeeps.trans (State.lput_bcnKeeps _ _ _ _ _), hshown.lput (by decide) _⟩
  clear_value counted
  obtain ⟨hkeeps, hshown⟩ := hcounted
  exact ⟨hshown.lput (by decide) _, (hkeeps.trans (State.lput_bcnKeeps _ _ _ _ _)).cores⟩

theorem State.msgDone_cores : s.msgDone.cores = s.cores := s.msgDone_bcnKeeps.cores

end

section
variable {s u : State} {w stamp : Nat} {b : List Byte}

/-- A REPORT of a lantern that the reverse map names is written to its record; of another it is counted. -/
theorem exec_report (h : s.takeMsg 0x81 = some (w, b, stamp, u)) (hkey : s.eccUncorr (s.revKey w (beNat (b.take 2))) 4 = false)
    (hrec : ∀ n, s.recBad n = false) : ∃ t, exec .report s = .next t ∧ t.cores = s.cores ∧
      match u.revFind w (beNat (b.take 2)) with
      | none => t.g BCN_MSG_NO_LANTERN = min (s.g BCN_MSG_NO_LANTERN + 1) (2 ^ BCN_MSG_NO_LANTERN.w - 1) ∧ t.mem = s.mem
      | some n => t.lget n oREPORT 8 = stamp % 2 ^ 64 ∧ t.lget n oTEMP 2 = beNat ((b.drop 4).take 2) % 2 ^ 16 ∧
          t.lget n oARCNOW 1 = fldB b 10 1 % 2 ^ 8 := by
  obtain ⟨l, rfl⟩ := State.takeMsg_eq h
  have hreadable : (s.setRx l).eccUncorr ((s.setRx l).revKey w (beNat (b.take 2))) 4 = false := hkey
  have hrecord (n : Nat) : (s.setRx l).recBad n = false := hrec n
  have hcores : (s.setRx l).cores = s.cores := (s.setRx_bcnKeeps l).cores
  have hcount : (s.setRx l).g BCN_MSG_NO_LANTERN = s.g BCN_MSG_NO_LANTERN := State.g_congr (s.setRx_regs l) _ _
  have hmem := s.setRx_mem l
  generalize s.setRx l = u at *
  show ∃ t, execReport s = .next t ∧ _
  unfold execReport
  rw [h]
  dsimp only
  rw [if_neg (by rw [hreadable]; exact Bool.false_ne_true)]
  cases u.revFind w (beNat (b.take 2)) with
  | none =>
    refine ⟨_, rfl, (State.msgDone_cores _).trans hcores, ?_, (State.msgDone_mem _).trans hmem⟩
    rw [State.msgDone_noLantern, State.g_incSat, hcount]
  | some n =>
    dsimp only
    rw [if_neg (by rw [hrecord]; exact Bool.false_ne_true)]
    obtain ⟨hshown, hkept⟩ := u.report_spec n b stamp
    obtain ⟨hstamp, htemp, harc⟩ := hshown.congr (State.msgDone_bcnKeeps _) (State.msgDone_mem _)
    exact ⟨_, rfl, (State.msgDone_cores _).trans (hkept.trans hcores), hstamp, htemp, harc⟩

/-- A COUNT adds to its zone's count, and writes its zone's time and state. -/
theorem exec_count (h : s.takeMsg 0x82 = some (w, b, stamp, u)) : ∃ t, exec .count s = .next t ∧ t.cores = s.cores ∧
    if beNat (b.take 2) < 2048 then
      t.rle (bcnZone (beNat (b.take 2)) + 16) 4 =
          (s.rle (bcnZone (beNat (b.take 2)) + 16) 4 + beNat ((b.drop 2).take 2)) % 2 ^ 32 ∧
        sameBytes (fun y => y < bcnZone (beNat (b.take 2)) + 16 ∨ (bcnZone (beNat (b.take 2)) + 20 ≤ y ∧
          y < bcnZone (beNat (b.take 2)) + 24) ∨ bcnZone (beNat (b.take 2)) + 32 ≤ y) s t
    else t.mem = s.mem := by
  obtain ⟨l, rfl⟩ := State.takeMsg_eq h
  have hcores : (s.setRx l).cores = s.cores := (s.setRx_bcnKeeps l).cores
  have hmem := s.setRx_mem l
  generalize s.setRx l = u at *
  show ∃ t, execCount s = .next t ∧ _
  unfold execCount
  rw [h]
  dsimp only
  generalize bcnZone (beNat (b.take 2)) = a
  split
  · refine ⟨_, rfl, ?_, ?_, ?_⟩
    · rw [State.msgDone_cores, State.wle_cores, State.wle_cores, State.wle_cores, hcores]
    · rw [State.rle_congr_mem (State.msgDone_mem _),
        State.rle_of_sameBytes (sameBytesBut_wle _ _ 4 _ (length_leBytes 4 _)) fun i _ => .inl (by omega),
        State.rle_of_sameBytes (sameBytesBut_wle _ _ 4 _ (length_leBytes 4 _)) fun i _ => .inl (by omega),
        State.rle_wle, State.rle_congr_mem hmem]
      exact Nat.mod_mod _ _
    · intro y hy
      rw [State.rb_congr (State.msgDone_mem _), sameBytesBut_wle _ _ 4 _ (length_leBytes 4 _) y (by omega),
        sameBytesBut_wle _ _ 4 _ (length_leBytes 4 _) y (by omega),
        sameBytesBut_wle _ _ 4 _ (length_leBytes 4 _) y (by omega), State.rb_congr hmem]
  · exact ⟨_, rfl, (State.msgDone_cores _).trans hcores, (State.msgDone_mem _).trans hmem⟩

theorem exec_bcnAlive (h : s.takeMsg 0x84 = some (w, b, stamp, u)) :
    exec .bcnAlive s = .next u.msgDone ∧ u.msgDone.mem = s.mem := by
  refine ⟨?_, (State.msgDone_mem u).trans (State.takeMsg_mem h)⟩
  show execBcnAlive s = _
  unfold execBcnAlive
  rw [h]

end

/-! ## BEACON_FRAME_RECEIVED (R257) -/

theorem beNat_lt (l : List Byte) : beNat l < 256 ^ l.length := by
  have hfold (l : List Byte) : ∀ a n : Nat, a < 256 ^ n → l.foldl (fun a b => a * 256 + b.toNat) a < 256 ^ (n + l.length) := by
    induction l with
    | nil => exact fun a n h => h
    | cons x l ih =>
      intro a n h
      have hx : x.toNat < 256 := x.isLt
      rw [List.foldl_cons, List.length_cons, Nat.add_comm l.length, ← Nat.add_assoc]
      refine ih _ _ ?_
      rw [Nat.pow_succ]
      omega
  have h := hfold l 0 0 (by decide)
  rwa [Nat.zero_add] at h

section
variable {s : State} {port trans udp : Nat} {ip l : List Byte}

theorem State.beaconIn_of_disabled (h : ¬ (s.on BCN_CTRL_ENABLE = true ∧ s.on NET_PORT_CTRL_ENABLE (dPort port) = true)) :
    s.beaconIn port trans ip udp l = s := by
  refine if_pos ?_
  by_cases hon : s.on BCN_CTRL_ENABLE = true
  · exact .inr (Bool.eq_false_of_not_eq_true fun hport => h ⟨hon, hport⟩)
  · exact .inl (Bool.eq_false_of_not_eq_true hon)

section
variable (hon : s.on BCN_CTRL_ENABLE = true ∧ s.on NET_PORT_CTRL_ENABLE (dPort port) = true)
include hon

theorem State.beaconIn_of_first (h : s.on BCN_STATUS_FIRST_DONE = false) :
    s.beaconIn port trans ip udp l = s.inc BCN_RX_ERR_COUNT (4 * 6) := by
  unfold State.beaconIn
  rw [if_neg (by simp [hon]), if_pos h]
  rfl

theorem State.beaconIn_of_full (hfirst : s.on BCN_STATUS_FIRST_DONE = true) (h : 4096 ≤ s.bcn.rx.length) :
    s.beaconIn port trans ip udp l = s.inc BCN_RX_ERR_COUNT (4 * 5) := by
  unfold State.beaconIn
  rw [if_neg (by simp [hon]), if_neg (by simp [hfirst]), if_pos h]
  rfl

end

/-- What an accepted frame writes of its gateway's state: the sequence and window, then the time, before UP. -/
def State.gatewayHeard (s : State) (w seq win : Nat) : State :=
  let t := (s.wput w oRXSEQ 8 seq).wput w oRXWIN 8 win
  t.wput w oLASTRX 4 (t.tideNs / 1000000000)

theorem State.gatewayHeard_spec (s : State) (w seq win : Nat) : (s.gatewayHeard w seq win).wget w oRXSEQ 8 = seq % 2 ^ 64 ∧
    (s.gatewayHeard w seq win).wget w oLASTRX 4 = s.tideNs / 1000000000 % 2 ^ 32 ∧
    (s.gatewayHeard w seq win).regs = s.regs ∧ (s.gatewayHeard w seq win).cores = s.cores := by
  have htide (u : State) (off n v : Nat) : (u.wput w off n v).tide = u.tide := by
    unfold State.wput State.wle
    rw [State.wbs_eq]
  have hkeep (u : State) (off n v : Nat) : (u.wput w off n v).regs = u.regs ∧ (u.wput w off n v).cores = u.cores :=
    ⟨u.wle_regs _ _ _, u.wle_cores _ _ _⟩
  have hother (u : State) {off n : Nat} (v : Nat) {off' n' : Nat} (h : off' + n' ≤ off) :
      (u.wput w off n v).wget w off' n' = u.wget w off' n' :=
    State.rle_of_sameBytes (sameBytesBut_wle _ _ n v (length_leBytes n v)) fun i _ => .inl (by omega)
  unfold State.gatewayHeard
  extract_lets t
  have ht : t.tideNs = s.tideNs := congrArg (· / 65536) ((htide _ _ _ _).trans (htide _ _ _ _))
  refine ⟨?_, ?_, ?_, ?_⟩
  · rw [hother _ _ (by decide), hother _ _ (by decide)]
    exact State.rle_wle _ _ _ _
  · rw [ht]
    exact State.rle_wle _ _ _ _
  · rw [(hkeep _ _ _ _).1, (hkeep _ _ _ _).1, (hkeep _ _ _ _).1]
  · rw [(hkeep _ _ _ _).2, (hkeep _ _ _ _).2, (hkeep _ _ _ _).2]

/-- A frame of an enabled Beacon in use, with room for it. -/
structure FrameOffered (s : State) (port : Nat) : Prop where
  beacon : s.on BCN_CTRL_ENABLE = true ∧ s.on NET_PORT_CTRL_ENABLE (dPort port) = true
  first : s.on BCN_STATUS_FIRST_DONE = true
  room : s.bcn.rx.length < 4096

/-- The frame comes from the gateway it names. -/
structure FrameKnown (s : State) (trans udp : Nat) (ip l : List Byte) (w : Nat) : Prop where
  gateway : w < 1024 ∧ s.gwUsable w = true
  source : (s.wcfg w).trans = trans ∧ (s.wcfg w).udp = udp ∧
    (if trans = 1 then (s.wcfg w).ip.take 4 else (s.wcfg w).ip) = ip
  length : 32 ≤ l.length
  head : fldB l 0 1 = 1 ∧ fldB l 1 1 = 1
  system : beNat ((l.drop 12).take 4) = s.g BCN_SYSID_SYSTEM_ID

/-- An accepted frame: the gateway has been heard, is UP, and its messages wait. -/
theorem State.beaconIn_of_accepted {w seq : Nat} {key plain : List Byte} {ms : List (Nat × List Byte)}
    (hw : w = beNat ((l.drop 4).take 2)) (hseq : seq = beNat ((l.drop 6).take 6)) (ho : FrameOffered s port)
    (hk : FrameKnown s trans udp ip l w) (hnew : s.wget w oRXSEQ 8 < seq)
    (hkey : s.sessKey (s.wcfg w).session (fldB l 2 1 % 2) = some key)
    (hopen : aesGcmOpen key (bcnNonce 1 (fldB l 2 1 % 2) w seq) (l.take 16) ((l.drop 16).take (l.length - 32))
      (l.drop (l.length - 16)) = some plain)
    (hms : splitMsgs ((l.drop 16).take (l.length - 32)).length (aesGcm key (bcnNonce 1 (fldB l 2 1 % 2) w seq) (l.take 16)
      ((l.drop 16).take (l.length - 32))).1 = some ms) :
    ∃ (win n : Nat) (rx : List BcnRx), s.beaconIn port trans ip udp l =
      State.skipUnknown n (((s.gatewayHeard w seq win).putUp w true).setRx rx) := by
  obtain ⟨hbeacon, hfirst, hroom⟩ := ho
  obtain ⟨⟨hlt, husable⟩, ⟨htrans, hudp, hip⟩, hlen, hhead, hsystem⟩ := hk
  subst hw hseq
  unfold State.beaconIn
  extract_lets w c who head cipher tag phase seq key' nonce plain' rx win advanced heard _
  rw [if_neg (by simp [hbeacon]), if_neg (by simp [hfirst]), if_neg (by omega),
    if_neg (not_not_intro (show who from ⟨hlt, husable, htrans, hudp, hip, by omega⟩))]
  have hkey' : key' = some key := hkey
  have hplain : splitMsgs cipher.length plain' = some ms := by
    unfold plain'
    rw [hkey']
    exact hms
  have hopens : ¬ (key'.isNone = true ∨ (aesGcmOpen (key'.getD []) nonce head cipher tag).isNone = true) := by
    rw [hkey', Option.getD_some, show aesGcmOpen key nonce head cipher tag = some plain from hopen]
    simp
  clear_value key' plain'
  split
  · next h => cases h.symm.trans hplain
  · next ms' _ =>
    extract_lets x held
    have hadvanced : advanced =
        (s.wput w oRXSEQ 8 seq).wput w oRXWIN 8 ((win * 2 ^ min 64 (seq - rx) + 1) % 2 ^ 64) := if_pos hnew
    have hheard : heard = (s.gatewayHeard w seq ((win * 2 ^ min 64 (seq - rx) + 1) % 2 ^ 64)).putUp w true := by
      unfold heard State.gatewayHeard
      rw [hadvanced]
    rw [if_neg (by simp [hhead]; omega), if_neg (not_not_intro hsystem), if_neg (not_not_intro (.inl hnew)), if_neg hopens]
    exact ⟨_, held.rxSize + 1, heard.bcn.rx ++ [x],
      congrArg (State.skipUnknown _) (congrArg (State.setRx · (heard.bcn.rx ++ [x])) hheard)⟩

/-- What the gateway's state shows once an accepted frame has been taken. -/
theorem State.gatewayHeard_up {w seq : Nat} (hseq : seq < 2 ^ 64) (hk : s.g BCN_FEV_CFG_LOG2_SIZE ≤ 16)
    (hb : s.g BCN_FEV_BASE_ADDR + 2 ^ 20 ≤ winBase) (win n : Nat) (rx : List BcnRx) :
    let t := State.skipUnknown n (((s.gatewayHeard w seq win).putUp w true).setRx rx)
    t.wget w oRXSEQ 8 = seq ∧ t.wget w oLASTRX 4 = s.tideNs / 1000000000 % 2 ^ 32 ∧ t.cores = s.cores := by
  intro t
  obtain ⟨hrx, hlast, hregs, hcores⟩ := s.gatewayHeard_spec w seq win
  have hup := State.putUp_sameBytes (s.gatewayHeard w seq win) (by rwa [State.g_congr hregs])
    (by rwa [State.g_congr hregs]) w true
  have hmem : t.mem = ((s.gatewayHeard w seq win).putUp w true).mem :=
    (State.skipUnknown_mem _ _).trans (State.setRx_mem _ _)
  have hkept {off n : Nat} (h : off + n ≤ oWSTATE) : t.wget w off n = (s.gatewayHeard w seq win).wget w off n := by
    unfold State.wget
    rw [State.rle_congr_mem hmem]
    exact State.rle_of_sameBytes hup fun i hi => ⟨by simp only [bcnGw]; omega, .inl (by omega)⟩
  refine ⟨?_, (hkept (by decide)).trans hlast, ?_⟩
  · rw [hkept (by decide), hrx, Nat.mod_eq_of_lt hseq]
  · exact ((State.skipUnknown_keeps _ _).1.cores.trans (State.setRx_bcnKeeps _ _).cores).trans
      ((State.putUp_bcnKeeps _ _ _).cores.trans hcores)

end

/-! ## Frames, messages and campaigns together (O45) -/

theorem bcnSeq_lt (l : List Byte) : beNat ((l.drop 6).take 6) < 2 ^ 64 :=
  calc beNat ((l.drop 6).take 6) < 256 ^ ((l.drop 6).take 6).length := beNat_lt _
    _ ≤ 256 ^ 6 := Nat.pow_le_pow_right (by decide) (List.length_take_le 6 _)
    _ < 2 ^ 64 := by decide

/-- Settles O45, command by command: an accepted frame's sequence and time lie beside UP in the gateway's state and no message
that follows writes memory; a campaign's targets are replaced one by one, each by a final one where the campaign or its gateway
has failed. -/
theorem beaconReceiveAndCampaigns : Obligations.BeaconReceiveAndCampaigns := by
  unfold Obligations.BeaconReceiveAndCampaigns
  intro s hr
  refine ⟨fun port v6 ip udp l => ?_, fun w b stamp u h hkey hrec => exec_report h hkey hrec, fun w b stamp u h => exec_count h,
    fun w b stamp u h => exec_fwAck h, fun w b stamp u h => exec_bcnAlive h, fun c => ?_⟩
  -- BEACON_FRAME_RECEIVED
  · intro x on err w c seq rx phase head cipher nonce
    have hx : x = .next (s.beaconIn port.val (if v6 then 2 else 1)
      (if v6 then beBytes 16 ip.toNat else beBytes 4 (ip.toNat % 2 ^ 32)) udp.toNat l) := rfl
    clear_value x
    subst hx
    refine ⟨fun hoff => congrArg Host.Outcome.next (State.beaconIn_of_disabled hoff),
      fun hon hfirst => congrArg Host.Outcome.next (State.beaconIn_of_first hon hfirst),
      fun hon hfirst hfull => congrArg Host.Outcome.next (State.beaconIn_of_full hon hfirst hfull), ?_⟩
    intro key plain ms hon hfirst hroom hlt husable htrans hudp hip hlen h0 h1 hphase hsystem hnew hkey hopen hms hk hb
    have hsource : (if (if v6 then 2 else 1) = 1 then c.ip.take 4 else c.ip) =
        if v6 then beBytes 16 ip.toNat else beBytes 4 (ip.toNat % 2 ^ 32) := by
      cases v6 <;> exact hip
    clear_value phase
    subst hphase
    obtain ⟨win, n, rx, hin⟩ := State.beaconIn_of_accepted rfl rfl ⟨hon, hfirst, hroom⟩
      ⟨⟨hlt, husable⟩, ⟨htrans, hudp, hsource⟩, hlen, ⟨h0, h1⟩, hsystem⟩ hnew hkey hopen hms
    exact ⟨_, congrArg Host.Outcome.next hin, State.gatewayHeard_up (bcnSeq_lt l) hk hb win n rx⟩
  -- Campaigns
  · intro d st x len img sig area refused ready
    refine ⟨fun hnot => ?_, fun hready hpos hmax himg hsig hin hsigIn hpath hkind hwave htime => ?_,
      fun hon hst err => exec_campaignVerifyEnd hon hst err,
      fun hon hst hmode hecc w hw => exec_campaignFrameTurn hon hst hmode hecc hw,
      fun w hon hst hwait htime => exec_campaignAckTimeout hon hst hwait htime, fun hst => ?_, fun hst => ?_, fun hst => ?_,
      fun hst => ?_⟩
    · exact (exec_campaignStart hr c).trans (by rw [State.campStart_of_notReady hnot]; rfl)
    · obtain ⟨t, ht, hstate, hread, hsame, hcores⟩ := State.campStart_spec c.isLt hready
        ⟨⟨hpos, hmax⟩, ⟨himg, hsig⟩, hin, hsigIn, ⟨hpath, hkind⟩, hwave, htime⟩
      have hmem := t.answer_mem true 0
      exact ⟨t.answer true 0, (exec_campaignStart hr c).trans (by rw [ht]), hstate, (State.rbs_congr hmem _ _).trans hread,
        fun y hy => (State.rb_congr hmem y).trans (hsame y hy), hcores⟩
    · obtain ⟨hstate, hfail, hfinal, hcores⟩ := State.campAbort_spec c.isLt hst
      exact ⟨_, exec_campaignAbort hr c, hstate, hfail, hfinal, hcores⟩
    · obtain ⟨hstate, hcamp, hmem, hcores⟩ := State.campClear_spec c.isLt hst
      exact ⟨_, exec_campaignClear hr c, hstate, hcamp, hmem, hcores⟩
    · exact (exec_campaignAbort hr c).trans (by rw [State.campAbort_of_idle hst]; rfl)
    · exact (exec_campaignClear hr c).trans (by rw [State.campClear_of_unfinished hst]; rfl)

end Sys2Proof.Machine
